-- ==== Sys2Proof/Syntax.lean ====
section
/-! DEFINITION. The commands of the block: one constructor per row of spec/opcode_table.json, with the operands the act
carries (what the outside world, a master or an engine supplies), and the types of those operands. -/

namespace Sys2Proof

/-- A master of an access (R509): its code, its partition, whether it is secure (Emino), and whether it is privileged. -/
structure Master where
  code : Nat
  part : Nat := 0
  secure : Bool := false
  priv : Bool := false
  deriving DecidableEq, Repr

/-- A data flit of the causeway (R15): its 24-bit header, its 128 payload bytes and its CRC-24. -/
structure Flit where
  header : BitVec 24
  payload : Bytes
  crc : BitVec 24
  deriving DecidableEq, Repr


/-- The object of 802.1Qci that drops a frame at the switch (R379): a stream filter, a stream gate or a flow meter. -/
inductive Qci where
  | filter (n : Fin 1024)
  | gate (n : Fin 256)
  | meter (n : Fin 512)
  deriving DecidableEq, Repr

/-- The words of a row that a remote write carries, by word index (R139). -/
abbrev RowWords := List (Nat × Bytes)

/-- What Emino finds when it carries out a command that a register write names (R446, R457, R459, R464): the verdict on what it verifies,
whether a recovery chunk is the last, and of an image its digest, the verdict on its signatures, its SVN and its components. -/
structure Found where
  ok : Bool := false
  last : Bool := false
  signed : Bool := false
  digest : BitVec 384 := 0
  svn : Nat := 0
  comps : List (Nat × BitVec 384) := []
  deriving DecidableEq, Repr

/-- A flit as its sender puts it on the causeway (R16): the slots before it in which no class had a flit and a credit, the other classes
that have a flit waiting, and the flit. -/
structure Sent where
  idle : Nat
  queued : List Nat
  flit : Flit
  deriving DecidableEq, Repr

/-- A time that a message of the tick tree brings (R38, R44), and whether the message is damaged (R482). -/
structure TickMsg where
  t : Nat
  par : Bool
  deriving DecidableEq, Repr

/-- An engine whose staged word is to issue (R41), and whether the word is damaged in flight (R482). -/
structure StagedAt where
  e : Nat
  par : Bool
  deriving DecidableEq, Repr

/-- A repeating word, and the word cycle before which a damper bubble, a droop stretch or a stop holds it, if one does (R171). -/
structure CutWord where
  w : BitVec 256
  cut : Option Nat
  deriving DecidableEq, Repr

/-- An engine whose hold ends, and the ACLK cycles that the hold lasted (R76, R222). -/
structure HoldEnd where
  e : Nat
  cycles : Nat
  deriving DecidableEq, Repr

/-- The tile memory that a row of a FILL arrives in (R206), and the ACLK cycles that a stationary load waited for the row (R202). -/
structure RowArrival where
  tgt : Nat
  waited : Nat
  deriving DecidableEq, Repr

/-- What the switch makes of a received frame (R379): its VLAN (0: untagged) and priority, and the object that drops it, if one does. -/
structure FrameTag where
  vid : Nat
  pcp : Fin 8
  qci : Option Qci
  deriving DecidableEq, Repr

/-- What a cold boot finds of the part: its straps (R518), and the columns blown since the last one (R91). -/
structure PartRead where
  straps : Nat
  blown : List Nat
  deriving DecidableEq, Repr

/-- The fault unit a record is taken from, and whether the record fails its check (R485, R489). -/
structure TakeFrom where
  port : Bool
  bad : Bool
  deriving DecidableEq, Repr

/-- The commands. -/
inductive Instr where
  /-- CAUSEWAY_DATA_FLIT (R22): The receiver takes a data flit, checks its CRC-24, makes its payload available and returns credits. -/
  | causewayDataFlit (toComp : Bool) (sent : Sent) (got : Flit)
  /-- CAUSEWAY_NAK (R22): The sender receives a NAK link-control flit and replays every flit from the failed sequence number out of its retry buffer. -/
  | causewayNak (toComp : Bool) (good : Nat)
  /-- CAUSEWAY_ACK (R22): The sender receives an acknowledgement and frees the acknowledged flits from its retry buffer. -/
  | causewayAck (toComp : Bool)
  /-- CAUSEWAY_ACK_TIMEOUT (R23): No acknowledgement arrives for 2 µs while flits are outstanding. -/
  | causewayAckTimeout (toComp : Bool)
  /-- CAUSEWAY_TRAINING (R24): Emino's training of the causeway completes after the compute die is powered. -/
  | causewayTraining
  /-- CAUSEWAY_TRAINING_TIMEOUT (R24): The link is not trained after 5 ms, so Emino raises CAUSEWAY_FAIL and holds the compute die in reset. -/
  | causewayTrainingTimeout
  /-- TIME_SYNC (R21): The tick unit receives a time-synchronisation message and corrects its local copy of 802.1AS time. -/
  | timeSync (copy22 : Bool) (copy23 : Bool)
  /-- TICK_ANNOUNCE_SEND (R38): The port die sends the announcement pair of a scheduled edge at least 10 µs before that edge. -/
  | tickAnnounceSend (t : Nat) (first : Nat)
  /-- TICK_ANNOUNCEMENT (R38): The tick unit receives a tick announcement pair, completes the edge time and tick number, and acknowledges it. -/
  | tickAnnouncement (copy22 : Bool) (copy23 : Bool)
  /-- TICK_EDGE_MESSAGE (R21): A tick edge message is delivered, or is lost so that the port die drives its triggers from the earlier announcement. -/
  | tickEdgeMessage (copy22 : Bool) (copy23 : Bool)
  /-- FAULT_NOTIFICATION (R21): The compute die receives a port-die fault notification, followed by its record. -/
  | faultNotification (copy22 : Bool) (copy23 : Bool)
  /-- SIGNAL_ACKNOWLEDGEMENT (R21): An acknowledgement of a tick announcement or fault notification arrives and stops its repetition. -/
  | signalAcknowledgement (ofFault : Bool) (copy22 : Bool) (copy23 : Bool)
  /-- SIGNAL_REPEAT (R21): An unacknowledged announcement or fault notification is repeated after 200 ns. -/
  | signalRepeat (ofFault : Bool)
  /-- ANNOUNCE_ACK_DEADLINE (R21): A tick announcement is still unacknowledged 5 µs before its edge, so the port die raises CAUSEWAY_FAIL. -/
  | announceAckDeadline (t : Nat)
  /-- DOMAIN_POWER_DOWN (R30): The kiln powers down a switched domain, losing its memories. -/
  | domainPowerDown (d : Nat)
  /-- DOMAIN_POWER_UP (R30): The kiln powers up a switched domain, leaving every row with valid ECC of zero data. -/
  | domainPowerUp (d : Nat)
  /-- MEMORY_ACCESS (R33): A master's access to the 48-bit physical map is filtered and routed to its target. -/
  | memoryAccess (m : Master) (bar : Option (Fin 9 × Nat)) (a : Nat) (n : Nat) (wr : Option Bytes) (x : Found)
  /-- TICK_EDGE (R38): The local time reaches the announced edge, so the tick number increments and the edge's items are started. -/
  | tickEdge (t : TickMsg)
  /-- ITEM_OFFSET_START (R44): An item's START_OFFSET_NS after the edge expires and the item starts. -/
  | itemOffsetStart (idx : Nat) (t : TickMsg)
  /-- ITEM_CHAINED_START (R47): An item that waited for the previous item on its engine starts once that item ends. -/
  | itemChainedStart (idx : Nat) (t : Nat)
  /-- STAGED_WORD_ISSUE (R41): An engine issues its staged first word at its last clock edge at or before the issue time. -/
  | stagedWordIssue (e : StagedAt)
  /-- ITEM_END (R46): An item's end condition reaches the tick unit and the item is disarmed. -/
  | itemEnd (idx : Nat) (t : Nat)
  /-- DEADLINE_MISS (R54): An item's deadline comparator fires before its end. -/
  | deadlineMiss (idx : Nat) (t : Nat)
  /-- ITEM_RUNON_LIMIT (R55): A missed item with ON_MISS = 1 reaches T_next minus 1 µs and is stopped. -/
  | itemRunonLimit (idx : Nat) (t : Nat)
  /-- MILESTONE_RECORD (R59): At T_(n+1) + 2 µs the tick unit writes the milestone record of tick n. -/
  | milestoneRecord (t : Nat)
  /-- TICK_CTL_WRITE (R39): A write of TICK_CTL starts or stops edge generation or sets the mode, plan source or period. -/
  | tickCtlWrite (m : Master) (v : BitVec 32)
  /-- TICK_NUM_LO_READ (R97): A read of TICK_NUM_LO returns the low half and latches the high half. -/
  | tickNumLoRead (m : Master)
  /-- UTIL_LO_READ (R97): A read of a utilisation counter's LO half latches its HI half. -/
  | utilLoRead (m : Master) (k : Fin 3)
  /-- OPBEGIN (R201): The word opens an array operation after the checks of mode, format pair, width and checksum availability. -/
  | opbegin (e : Nat) (w : BitVec 256)
  /-- LOAD (R202): The North feed starts loading a stationary set into the shadow registers. -/
  | load (e : Nat) (w : BitVec 256)
  /-- LOAD_COMPLETE (R202): A background stationary load completes, releasing any word held on it. -/
  | loadComplete
  /-- STREAM (R203): The word streams assembled vectors through the array into output tiles. -/
  | stream (e : Nat) (w : CutWord)
  /-- FILL (R206): The word starts a background copy of Map Store rows into tile memory 0 or 1. -/
  | fill (e : Nat) (w : BitVec 256)
  /-- FILL_ROW_ARRIVE (R206): A row of a pending FILL is written to its tile memory, completing the FILL at its last row. -/
  | fillRowArrive (tgt : RowArrival)
  /-- SAFE (R207): The word is a safe point when a tile has just ended, and otherwise acts as NOP. -/
  | safe (e : Nat) (w : BitVec 256)
  /-- OPEND (R208): The word closes the open array operation. -/
  | opend (e : Nat) (w : BitVec 256)
  /-- OPERATION_END (R208): The operation's last results and checksum vector have been written and checked. -/
  | operationEnd
  /-- TILE_CHECK (R87): At a tile's end the row and column checks are evaluated and the slot passes to draining. -/
  | tileCheck (up : List (Nat × Nat × BitVec 32))
  /-- ARR_COL_RETIRE_REQ (R92): A privileged write requests retirement of a physical column. -/
  | arrColRetireReq (m : Master) (v : BitVec 32)
  /-- RETIREMENT_APPLY (R92): A pending retirement is applied at the first idle moment, updating W and W_on. -/
  | retirementApply
  /-- GROUP_POWER_UP (R94): A column group finishes its power-up of up to 10 µs and settling ends. -/
  | groupPowerUp (g : Nat)
  /-- ARR_CTL_WRITE (R94): A write of ARR_CTL changes ENABLE, deferred to the end of an operation, or requests group power. -/
  | arrCtlWrite (m : Master) (v : BitVec 32)
  /-- ARR_COLCNT_WRITE (R96): A write of ARR_COLCNT sets the selected failure counter. -/
  | arrColcntWrite (m : Master) (v : BitVec 32)
  /-- CHAIN (R209): The word sets and checks the drain chain and clears the output commit bits. -/
  | chain (w : BitVec 256)
  /-- DRAIN (R212): The word reads vectors from draining slots through the chain and writes the output. -/
  | drain (w : CutWord) (par : Option Nat)
  /-- COMMIT (R213): The word sets the commit bits of descriptors once every earlier write is acknowledged. -/
  | commit (w : BitVec 256)
  /-- OPTSTEP (R214): The word runs the optimiser stage over blocks of 256 elements. -/
  | optstep (w : CutWord)
  /-- REDUCE_DEPOSIT (R111): The reduce stage's final value lands in the array sequencer's scalar register. -/
  | reduceDeposit
  /-- DRN_CTL_WRITE (R103): A write of DRN_CTL sets ENABLE, seeding the lane LFSRs on a change from 0 to 1. -/
  | drnCtlWrite (m : Master) (v : BitVec 32)
  /-- MAP_STORE_ACCESS (R134): A bank grants a port's request and performs the row access with its ECC check. -/
  | mapStoreAccess (m : Master) (port : Nat) (crypt : Bool) (a : Nat) (len : Nat) (wr : Option Bytes) (errs : List (Nat × Bool))
  /-- ECC_WRITE_BACK (R151): The corrected row is written back through the maintenance port unless another write intervened. -/
  | eccWriteBack (row : Nat)
  /-- MAP_PATROL_SCRUB (R153): The patrol interval expires and one row per Map Store bank is scrubbed. -/
  | mapPatrolScrub (errs : List (Nat × Nat × Bool))
  /-- TILE_PATROL_SCRUB (R153): The patrol interval expires and one row per tile memory is scrubbed. -/
  | tilePatrolScrub (errs : List (Nat × Nat × Bool))
  /-- REMOTE_WRITE (R142): A credited remote write arrives and is written or discarded by window state, epoch and row. -/
  | remoteWrite (m : Master) (t : Nat) (w : Nat) (epoch : Nat) (row : Nat) (ws : RowWords)
  /-- CREDIT_REQUEST (R141): A sender's request for n credits is queued or refused. -/
  | creditRequest (m : Master) (t : Nat) (w : Nat) (n : Nat)
  /-- CREDIT_GRANT (R141): The request at the head of the queue is answered once POOL is at least 1. -/
  | creditGrant (t : Nat) (w : Nat)
  /-- CREDIT_RETURN (R141): A sender returns unused credits from OUTSTANDING to POOL. -/
  | creditReturn (m : Master) (t : Nat) (w : Nat) (k : Nat)
  /-- CREDIT_TIMEOUT (R143): The close timeout expires with credits outstanding, so the window goes to REVOKING and revocations are sent. -/
  | creditTimeout (t : Nat) (w : Nat)
  /-- REVOCATION (R143): A holder receives a revocation, discards its credits and acknowledges. -/
  | revocation (code : Nat) (t : Nat) (w : Nat)
  /-- REVOCATION_ACK (R143): The last revocation acknowledgement arrives and the window becomes CLOSED. -/
  | revocationAck (code : Nat) (t : Nat) (w : Nat)
  /-- WINDOW_OPEN_ACCEPT (R144): A held OPEN is accepted once the window is CLOSED and 1 µs has passed since its epoch changed. -/
  | windowOpenAccept (t : Nat) (w : Nat)
  /-- WIN_OPEN (R169): A WIN word configures and opens a window of the engine's tile memory. -/
  | winOpen (e : Nat) (w : BitVec 256)
  /-- WIN_CLOSE (R169): A WIN word starts the close of a window. -/
  | winClose (e : Nat) (w : BitVec 256)
  /-- WIN_RELEASE (R169): A WIN word returns rows to the window's POOL. -/
  | winRelease (e : Nat) (w : BitVec 256)
  /-- CRD_WINCTL_OPEN (R141): Firmware opens the selected window through CRD_WINCTL. -/
  | crdWinctlOpen (m : Master)
  /-- CRD_WINCTL_CLOSE (R143): Firmware starts the close of the selected window. -/
  | crdWinctlClose (m : Master)
  /-- CRD_WINCTL_RELEASE (R141): Firmware releases COUNT rows to the selected window's POOL. -/
  | crdWinctlRelease (m : Master) (n : BitVec 10)
  /-- NOP (R161): A NOP word issues, with only its common fields acting. -/
  | nop (e : Nat) (w : BitVec 256)
  /-- AGSET_LO (R163): The word loads the parameters of AG0 and AG1. -/
  | agsetLo (e : Nat) (w : BitVec 256)
  /-- AGSET_HI (R163): The word loads the parameters of AG2 and AG3. -/
  | agsetHi (e : Nat) (w : BitVec 256)
  /-- SETS (R168): The word writes up to three register values. -/
  | sets (e : Nat) (w : BitVec 256)
  /-- KSET (R167): The word writes comparator configurations. -/
  | kset (e : Nat) (w : BitVec 256)
  /-- HALT (R191): The word ends the program once its effects are acknowledged. -/
  | halt (e : Nat) (w : BitVec 256)
  /-- PROGRAM_END (R191): Every effect issued up to HALT has been acknowledged and the engine returns to IDLE. -/
  | programEnd (e : Nat)
  /-- CAIRN_ENTER (R181): An emitted cairn enters its queue after every earlier effect is acknowledged. -/
  | cairnEnter (e : Nat)
  /-- CAIRN_WAIT (R182): A cairn reaches the head of a waited queue, the engine removes it and issues the waiting word. -/
  | cairnWait (e : Nat)
  /-- ENGINE_HOLD_RELEASE (R222): The condition of an engine-specific hold clears and the held word proceeds. -/
  | engineHoldRelease (e : HoldEnd)
  /-- HXR_START_GO (R187): A privileged write of HXR_START with GO starts the engine or is refused. -/
  | hxrStartGo (m : Master) (e : Nat) (v : BitVec 32)
  /-- XFER (R215): The word reads transfer descriptors and issues their bursts. -/
  | xfer (e : Nat) (w : BitVec 256)
  /-- DMA_COPY (R243): A COPY descriptor moves LENGTH bytes in ascending order. -/
  | dmaCopy (e : Nat)
  /-- DMA_TENSOR (R244): A TENSOR descriptor copies through two tensor descriptors, managing the commit bit. -/
  | dmaTensor (e : Nat)
  /-- DMA_CSLOAD (R245): A CSLOAD descriptor writes control words into a control store, checking their levels. -/
  | dmaCsload (e : Nat)
  /-- DMA_SMALL (R246): A SMALL descriptor writes up to 32 inline bytes over the footpath. -/
  | dmaSmall (e : Nat)
  /-- BOOT_PORT_DESCRIPTOR (R245): Emino places a CSLOAD in engine 0's boot port, which runs it and returns the words read back. -/
  | bootPortDescriptor (m : Master) (raw : Bytes)
  /-- BURST_COMPLETE (R239): A burst's destination write is acknowledged and its tag is freed. -/
  | burstComplete (e : Nat) (k : Nat)
  /-- BLOCK_AUTH (R256): A 4 KiB block's GCM tag check completes. -/
  | blockAuth (e : Nat)
  /-- XFER_COMPLETE (R250): An XFER word's last transfer ends and its completion entry is posted. -/
  | xferComplete (e : Nat)
  /-- FOOTPATH_ACCESS (R259): A small access with a footpath tag is carried to its target and completes. -/
  | footpathAccess (m : Master) (a : Nat) (n : Nat) (wr : Option Bytes) (x : Found)
  /-- FOOTPATH_TAG_GRANT (R260): A master waiting for a footpath tag receives one. -/
  | footpathTagGrant
  /-- STEP_SUBMIT (R266): The scheduler takes a step submission entry from a partition's submission queue. -/
  | stepSubmit (q : Nat)
  /-- ELASTIC_STEP_START (R269): With the array free of elastic work, the scheduler chooses and starts or resumes a step. -/
  | elasticStepStart (t : Nat)
  /-- STEP_COMPLETION (R267): An elastic step ends, fails or is discarded, and its completion is posted. -/
  | stepCompletion
  /-- SHARE_EXPIRY (R268): A partition's meter reaches its share and a lay-by of its step is requested. -/
  | shareExpiry (p : Nat) (t : Nat)
  /-- SHAPE_ENTRY (R271): The scheduler writes a shape entry into a shadow preset record, or discards it. -/
  | shapeEntry (q : Nat) (t : Nat)
  /-- LAYBY_LEAD_REQUEST (R278): The lead time before the next plan item on a held engine arrives and a lay-by is requested. -/
  | laybyLeadRequest (t : Nat)
  /-- LBY_CMD_ENTER (R274): The scheduler requests entry of the running elastic step into a lay-by. -/
  | lbyCmdEnter (m : Master)
  /-- LBY_CMD_RESUME (R281): The scheduler requests the resume of a partition's parked step. -/
  | lbyCmdResume (m : Master) (p : BitVec 3)
  /-- LAYBY_LATE (R275): No safe point is reached within SP_LIMIT_US, so the step is stopped without saving. -/
  | laybyLate (t : Nat)
  /-- LAYBY_ENTRY_COMPLETE (R276): The mover finishes saving the step's state, and the engines are PARKED. -/
  | laybyEntryComplete (par : Bool) (t : Nat)
  /-- LAYBY_EXIT_BEGIN (R281): The resume conditions hold and the mover starts reading the lay-by area. -/
  | laybyExitBegin (t : Nat)
  /-- LAYBY_EXIT_COMPLETE (R282): The restore, reopening of windows and reloads complete, and the engines leave PARKED. -/
  | laybyExitComplete (t : Nat)
  /-- CSI_FRAME_START (R296): A frame start packet arrives, and the frame is admitted, bound or dropped. -/
  | csiFrameStart (port : Nat) (vc : Nat) (fn : Nat) (hdr : Nat) (t : Nat)
  /-- CSI_LONG_PACKET (R293): A long packet is delivered to its context, reserving ring rows and sending the line. -/
  | csiLongPacket (port : Nat) (vc : Nat) (dt : Nat) (d : Bytes) (crcOk : Bool) (hdr : Nat)
  /-- CSI_FRAME_END (R297): A frame end packet closes the frame and its frame status word is sent. -/
  | csiFrameEnd (port : Nat) (vc : Nat) (hdr : Nat) (t : Nat)
  /-- CSI_PHY_ERROR (R298): A PHY start-of-transmission or sync error discards the packet. -/
  | csiPhyError (port : Nat)
  /-- RAW_RELEASE_NOTICE (R295): A release notice raises a ring's FREE count and lets waiting lines proceed. -/
  | rawReleaseNotice
  /-- CAM_CTL_WRITE (R292): A write of CAM_CTL enables or disables ports and contexts, refusing invalid contexts. -/
  | camCtlWrite (m : Master) (v : BitVec 32)
  /-- CAM_WSCMD_POST (R302): A write of CAM_WSCMD with GO posts a write set for a context. -/
  | camWscmdPost (m : Master) (v : BitVec 32)
  /-- WRITE_SET_START (R303): In blanking, the sequencer starts or defers a posted set and assigns its epoch. -/
  | writeSetStart (port : Nat) (t : Nat)
  /-- WRITE_SET_ENTRY (R304): A bus transaction of a write-set entry completes, is retried or fails. -/
  | writeSetEntry (port : Nat) (ack : Bool) (rd : Nat)
  /-- I3C_IBI (R301): An I3C in-band interrupt is latched. -/
  | i3cIbi (port : Nat) (addr : Nat)
  /-- TRIGGER_PULSE (R306): A trigger output's pulse begins at its scheduled time. -/
  | triggerPulse (n : Nat) (t : Nat)
  /-- TRIGGER_PULSE_END (R306): A trigger pulse's WIDTH expires. -/
  | triggerPulseEnd (n : Nat) (t : Nat)
  /-- ISP_CTXEN_WRITE (R313): A write of ISP_CTXEN loads or releases a context's tables, refusing invalid records. -/
  | ispCtxenWrite (m : Master) (v : BitVec 32)
  /-- ISP_FEED_WRITE (R318): A feeder feeds a frame of a descriptor-sourced context. -/
  | ispFeedWrite (m : Master) (v : BitVec 32)
  /-- LANE_DISPATCH (R320): A free pipe takes the highest-ranked ready lane and swaps its context. -/
  | laneDispatch (p : Nat)
  /-- LANE (R220): A LANE word runs one lane of a frame through the enabled stages. -/
  | lane (e : Nat) (w : BitVec 256)
  /-- ISP_OUTPUT_ROW (R322): A pipe completes an output row of a lane. -/
  | ispOutputRow (p : Nat)
  /-- DISP (R334): A DISP word computes disparity and confidence for a band of rows. -/
  | disp (e : Nat) (w : BitVec 256)
  /-- CROP (R216): A CROP word resamples NBOX boxes into fixed-size outputs. -/
  | crop (e : Nat) (w : BitVec 256)
  /-- CODEC_JOB_START (R344): A free core chooses the next job from the heads of its queues and starts it. -/
  | codecJobStart (k : Nat)
  /-- CODEC_JOB_COMPLETE (R347): A job ends and its completion entry is posted. -/
  | codecJobComplete (k : Nat)
  /-- DRAM_BURST (R351): A controller accepts a bulk burst and completes it within the loaded bound. -/
  | dramBurst (m : Master) (r : Nat) (a : Nat) (len : Nat) (wr : Option Bytes) (link ecc : Nat)
  /-- SKEW_WINDOW (R355): A 1 ms skew window ends and channel occupancy is judged. -/
  | skewWindow (occ : List Nat) (holders : List (Nat × Nat))
  /-- RH_WINDOW_START (R356): A refresh window starts and the activation trackers clear. -/
  | rhWindowStart (ch : Nat) (bank : Nat)
  /-- DRAM_TEMP_READ (R358): The controller reads each package's temperature every 1 ms and sets the refresh rate. -/
  | dramTempRead (t : List Int)
  /-- REFRESH_DUE (R359): A bank's per-bank refresh falls due and is issued or postponed. -/
  | refreshDue (ch : Nat) (bank : Nat) (busy : Bool)
  /-- WRITE_LINK_POLL (R368): Every 1 ms the controller reads each package's write-link error counts. -/
  | writeLinkPoll (l : List (Bool × Bool))
  /-- DRC_CFG_INIT (R354): A write of DRC_CFG.INIT starts DRAM initialisation and locks the configuration. -/
  | drcCfgInit (m : Master) (v : BitVec 32)
  /-- DRAM_TRAINING (R363): The initial training sequence of all channels completes or fails. -/
  | dramTraining (ok1 : Bool) (ok2 : Bool)
  /-- DRC_TRN_GO (R364): A write of DRC_TRN_CTL.GO starts a helper run on the selected channel. -/
  | drcTrnGo (m : Master) (v : BitVec 32)
  /-- DRC_TRN_DONE (R364): A training helper run ends and its results are available. -/
  | drcTrnDone (ch : Nat) (errors : List Nat) (deskew : List Nat)
  /-- SCRUB_ZERO (R373): A ZERO operation of the scrub engine is started or queued. -/
  | scrubZero (m : Master) (base : Nat) (len : Nat)
  /-- SCRUB_ZERO_DONE (R373): The last write of a ZERO is acknowledged and DONE is set. -/
  | scrubZeroDone
  /-- DRAM_PATROL (R373): The patrol interval expires and one row per channel is read and checked. -/
  | dramPatrol (errs : List (Nat × Bool))
  /-- LINK_CHANGE (R378): A network port's link is lost or gained. -/
  | linkChange (p : Nat) (up : Bool)
  /-- NET_FRAME_RECEIVE (R383): A received frame is matched to a session and written to a slot, held or dropped. -/
  | netFrameReceive (port : Nat) (tag : FrameTag) (d : Bytes) (t : Nat)
  /-- NET_HOLD_EXPIRY (R384): A held frame exceeds HOLD_US and is dropped. -/
  | netHoldExpiry (t : Nat)
  /-- NET_RXREL_WRITE (R384): A write of NET_RXREL releases receive slots and admits held frames. -/
  | netRxrelWrite (m : Master) (v : BitVec 32)
  /-- NET_TX_ENTRY (R385): A transmit entry is taken, its frame read and queued at its port, and done posted. -/
  | netTxEntry (q : Nat) (qci : Option Qci) (t : Nat)
  /-- GVSP_LEADER (R387): A GVSP leader starts a block and increments the context's frame counter. -/
  | gvspLeader (k : Nat) (block : Nat) (w : Nat) (h : Nat) (depth : Nat) (t : Nat)
  /-- GVSP_PAYLOAD (R387): A GVSP payload packet's pixels are written into the block's plane. -/
  | gvspPayload (k : Nat) (block : Nat) (pkt : Nat) (d : Bytes)
  /-- GVSP_TRAILER (R387): A GVSP trailer ends the block, which is fed to the ISP or dropped. -/
  | gvspTrailer (k : Nat) (block : Nat) (pkt : Nat) (t : Nat)
  /-- GPTP_SYNC (R380): An 802.1AS Sync is received and the device's time follows the grandmaster. -/
  | gptpSync (offset : Int) (t : Nat)
  /-- SYNC_TIMEOUT (R380): Three sync intervals pass without Sync, so the device enters holdover. -/
  | syncTimeout
  /-- GCL_CYCLE_START (R381): A new gate control list takes effect at its cycle start. -/
  | gclCycleStart (port : Nat) (own : Bytes)
  /-- MEP_HELLO_TIMER (R389): Every 100 ms the device multicasts HELLO. -/
  | mepHelloTimer (t : Nat)
  /-- MEP_HELLO (R390): A HELLO is received, and the master negotiates a version and admits or refuses. -/
  | mepHello (b : Bytes) (fcs : Bool) (t : Nat)
  /-- MEP_ADMIT (R391): A device receives ADMIT and takes its member index. -/
  | mepAdmit (b : Bytes) (fcs : Bool)
  /-- MEP_REFUSE (R390): A device receives REFUSE and enters the refusal state. -/
  | mepRefuse (b : Bytes) (fcs : Bool)
  /-- MEP_SCHEDULE (R393): A member receives a SCHEDULE with edge time, period and ceiling. -/
  | mepSchedule (b : Bytes) (fcs : Bool)
  /-- MEP_REPORT (R394): The master receives a member's REPORT of a tick. -/
  | mepReport (b : Bytes) (fcs : Bool)
  /-- MEP_COLLECT_DEADLINE (R395): The collection deadline passes, and the master forms the ceiling and multicasts the SCHEDULE. -/
  | mepCollectDeadline (t : Nat)
  /-- MEP_SCHEDULE_MISSING (R393): No SCHEDULE has arrived by T minus 20 µs, so the member extrapolates the edge. -/
  | mepScheduleMissing (t : Nat)
  /-- MEP_MASTER_TAKEOVER (R392): A candidate with no SCHEDULE for three edges and no better HELLO becomes master. -/
  | mepMasterTakeover (t : Nat)
  /-- MEP_ARRIVE (R398): An ARRIVE is received and, when every participant has arrived, the barrier is released. -/
  | mepArrive (b : Bytes) (fcs : Bool)
  /-- NET_BARREC_REGISTER (R398): A write of NET_BARREC with VALID 1 registers a barrier record for a slot. -/
  | netBarrecRegister (m : Master) (v : BitVec 31)
  /-- NET_BARREC_UNREGISTER (R398): A write of NET_BARREC with VALID 0 unregisters a slot. -/
  | netBarrecUnregister (m : Master) (v : BitVec 31)
  /-- NET_BARRIER_WRITE (R398): Firmware reports a step end and the device multicasts ARRIVE. -/
  | netBarrierWrite (m : Master) (v : BitVec 32)
  /-- BARRIER_TIMEOUT (R398): TIMEOUT_MS passes without a release, so the entry is posted with the timeout flag. -/
  | barrierTimeout (k : Nat) (t : Nat)
  /-- PERST_N (R519): PERST_N low resets the endpoint and host command interface, and its rise lets the link train. -/
  | perstN (low : Bool)
  /-- FLR (R418): A function-level reset stops the function's commands and returns it to AWAITING_HELLO. -/
  | flr (g : Fin 9)
  /-- HIF_RING_CFG_WRITE (R405): A write of HIF_RINGn_CFG enables or disables a ring pair. -/
  | hifRingCfgWrite (m : Master) (g : Fin 9) (n : Fin 4) (v : BitVec 32)
  /-- HIF_SQTAIL_WRITE (R406): A doorbell write of a new tail makes the device fetch commands. -/
  | hifSqtailWrite (m : Master) (g : Fin 9) (n : Fin 4) (v : BitVec 32)
  /-- HIF_CQHEAD_WRITE (R408): The host frees completion slots and held completions are written. -/
  | hifCqheadWrite (m : Master) (g : Fin 9) (n : Fin 4) (v : BitVec 32)
  /-- FHP_HELLO (R411): A HELLO command negotiates the FHP version of a function. -/
  | fhpHello (g : Fin 9) (n : Fin 4) (c : Bytes)
  /-- WRITE_MEM (R409): The command copies host memory to device memory through the filter. -/
  | writeMem (g : Fin 9) (n : Fin 4) (c : Bytes) (data : Bytes)
  /-- READ_MEM (R409): The command copies device memory to host memory through the filter. -/
  | readMem (g : Fin 9) (n : Fin 4) (c : Bytes)
  /-- LOAD_CONTAINER (R412): The command copies, authenticates and loads a model container. -/
  | loadContainer (g : Fin 9) (n : Fin 4) (c : Bytes) (data : Bytes) (good : Bool) (keys : List (Option (BitVec 256)))
  /-- UNLOAD_CONTAINER (R413): The command withdraws a container's keys, regions and plans. -/
  | unloadContainer (g : Fin 9) (n : Fin 4) (c : Bytes)
  /-- PLAN_ADD (R409): The command supplies a plan, which the scheduler validates and stores. -/
  | planAdd (g : Fin 9) (n : Fin 4) (c : Bytes) (data : Bytes)
  /-- PLAN_ACTIVATE (R49): The command names the activation milestone of a plan. -/
  | planActivate (g : Fin 9) (n : Fin 4) (c : Bytes)
  /-- PLAN_REMOVE (R285): The command removes a plan not in force nor in the fallback chain. -/
  | planRemove (g : Fin 9) (n : Fin 4) (c : Bytes)
  /-- GCL_SET (R381): The command supplies a host gate control list for a port. -/
  | gclSet (g : Fin 9) (n : Fin 4) (c : Bytes) (data : Bytes)
  /-- QUEUE_POST (R409): The command posts a 16-byte entry to a queue. -/
  | queuePost (g : Fin 9) (n : Fin 4) (c : Bytes)
  /-- MILESTONE_RING (R415): The command starts or stops milestone delivery to a host ring. -/
  | milestoneRing (g : Fin 9) (n : Fin 4) (c : Bytes)
  /-- MODE_SET (R416): The command switches a function between on-device and host-assisted mode. -/
  | modeSet (g : Fin 9) (n : Fin 4) (c : Bytes)
  /-- FAULT_READ (R417): The command copies a paused partition's queued fault records to the host. -/
  | faultRead (g : Fin 9) (n : Fin 4) (c : Bytes)
  /-- FAULT_RESUME (R417): The command ends a triage pause or restarts the partition from its last milestone. -/
  | faultResume (g : Fin 9) (n : Fin 4) (c : Bytes)
  /-- HIF_EVENT (R414): An entry of a queue bound to the host command interface is delivered as an event completion. -/
  | hifEvent (q : Nat)
  /-- TRIAGE_TIMEOUT (R417): No FAULT_RESUME arrives within the triage timeout, so the device handles the fault itself. -/
  | triageTimeout (p : Nat) (t : Nat)
  /-- DAMPER_UPDATE (R424): At the end of each 1 µs interval the kiln computes the damper fractions. -/
  | damperUpdate (p : Nat) (vin : Nat) (rails : List (Nat × Nat)) (cyc : List Nat) (lost : Nat) (sa : Nat) (sh : Nat)
  /-- POWER_WINDOW (R426): A 1 ms window ends, and the kiln steps host cores down or up. -/
  | powerWindow (avg : Nat) (stretched : List Nat) (t : Nat)
  /-- DROOP_DETECT (R427): A detector sees its rail droop and doubles its domain's clock period. -/
  | droopDetect (d : Nat)
  /-- DROOP_RECOVER (R427): Eight cycles after the rail recovers, the clock period returns to normal. -/
  | droopRecover (d : Nat)
  /-- VOLTAGE_STEP (R428): A 25 mV step of a stepped rail completes its slew. -/
  | voltageStep (rail : Nat) (t : Nat)
  /-- ACLK_CHANGE (R429): Between T minus 1 µs and T of an edge, the kiln switches ACLK to the new frequency. -/
  | aclkChange (t : Nat)
  /-- AVAIL_WINDOW (R431): A 100 µs window ends and the kiln computes avail_w. -/
  | availWindow (d : Nat)
  /-- THERMAL_SAMPLE (R433): The kiln reads its 24 sensors and compares them with the warning, throttle and trip levels. -/
  | thermalSample (temps : List Int) (t : Nat)
  /-- THERMAL_CAP_STEP (R434): The thermal cap is lowered every 10 ms or raised every 100 ms. -/
  | thermalCapStep (t : Nat)
  /-- VIN_SAMPLE (R436): The kiln checks VIN against its range, fault and recovery limits. -/
  | vinSample (mv : Nat) (t : Nat)
  /-- EMBER_ENTER (R437): A write of KILN_EMBER.ENTER requests entry to Ember, which runs or is refused. -/
  | emberEnter (m : Master) (v : BitVec 31)
  /-- EMBER_WAKE (R439): An enabled wake source wakes the device and rekindle starts. -/
  | emberWake (src : Nat) (good : Bool) (t : Nat)
  /-- POWER_ON (R448): VIN reaches 10.8 V and a cold boot starts. -/
  | powerOn (part : PartRead)
  /-- RESET_N (R518): RESET_N low for 5 µs stops and powers down the device, and its release starts a cold boot. -/
  | resetN (low : Bool) (part : PartRead)
  /-- COMPUTE_DIE_RESTART (R450): The compute die alone is restarted and reloaded from flash. -/
  | computeDieRestart
  /-- UPD_START (R457): EMN_UPD_CMD START begins a firmware update into the inactive slot. -/
  | updStart (m : Master) (len : BitVec 24) (digest : BitVec 384) (signed : Bool) (svn : Nat) (comps : List (Nat × BitVec 384))
  /-- UPDATE_COMPLETE (R457): The update's programming and readback end and the SLOT record is appended. -/
  | updateComplete (ok : Bool)
  /-- HEALTHY (R458): Firmware reports the first healthy tick of a trial boot. -/
  | healthy (m : Master) (len : BitVec 24)
  /-- CONFIRM (R458): The host confirms the trial image, and Emino appends CONFIRM and advances the counter. -/
  | confirm (m : Master) (len : BitVec 24)
  /-- REC_CHUNK (R459): In recovery, a chunk is programmed into slot A, and the last chunk starts a cold boot. -/
  | recChunk (m : Master) (len : BitVec 24) (last : Bool) (digest : BitVec 384) (signed : Bool) (good : Bool) (svn : Nat) (comps : List (Nat × BitVec 384))
  /-- CREATE (R464): Emino creates a partition from its descriptor. -/
  | create (m : Master) (p : BitVec 3)
  /-- LOAD_FW (R464): Emino loads a partition firmware image into an XTS region and extends the measurement. -/
  | loadFw (m : Master) (p : BitVec 3) (ok : Bool)
  /-- PART_START (R464): The partition's measurement is frozen and its cores start. -/
  | partStart (m : Master) (p : BitVec 3)
  /-- TEARDOWN (R474): The teardown of a partition begins, withdrawing its keys, cores and resources. -/
  | teardown (m : Master) (p : BitVec 3)
  /-- TEARDOWN_COMPLETE (R474): The scrub of the last region is done, the banks are quarantined and the partition is FREE. -/
  | teardownComplete
  /-- CYCLE_QUARTER (R475): A Map Store quarter is power-cycled to free its quarantined banks. -/
  | cycleQuarter (m : Master) (q : BitVec 2)
  /-- DEBUG_CHALLENGE (R471): A debugger reads a fresh challenge from the mailbox. -/
  | debugChallenge
  /-- DEBUG_RESPONSE (R472): A signed response is verified, and on success every key is withdrawn and the port opens. -/
  | debugResponse (ok : Bool)
  /-- ATTESTATION_REQUEST (R476): EMN_ATT_CMD.GO requests a signed attestation report. -/
  | attestationRequest (m : Master)
  /-- ATTESTATION_DONE (R477): Emino writes the COSE_Sign1 report and sets the result. -/
  | attestationDone (p : Nat)
  /-- FLT_TAKE (R485): The handler takes the oldest record of the highest queued class. -/
  | fltTake (m : Master) (src : TakeFrom)
  /-- FLT_DONE (R485): The handler finishes a record and its class is popped. -/
  | fltDone (m : Master) (port : Bool)
  /-- FLT_KICK (R486): The handler restarts the watchdog's DONE limit. -/
  | fltKick (m : Master) (port : Bool)
  /-- FLT_RESTART (R493): A privileged write requests a compute-die restart without safe state. -/
  | fltRestart (m : Master) (port : Bool)
  /-- WATCHDOG_EXPIRY (R486): The handler misses a watchdog limit. -/
  | watchdogExpiry (t : Nat)
  /-- RT_LOCKSTEP (R489): A lockstep mismatch on real-time pair 0 holds it in reset. -/
  | rtLockstep
  /-- BILLET_END (R497): A self-test billet restores its target and ends as pass, fail or incomplete. -/
  | billetEnd (res : Nat) (cols : List Nat) (corrected : Bool)
  /-- REGISTER_WRITE (R505): A write to a register without a row of its own is applied or ignored. -/
  | registerWrite (m : Master) (port : Bool) (b : Nat) (o : Nat) (v : BitVec 32) (x : Found)
  /-- CSI_SYNC_CHANGE (R307): A CSI-2 port gains or loses sync on its incoming stream, and CAM_STAT.LINK_UP changes. -/
  | csiSyncChange (port : Nat) (up : Bool)
  /-- DRAM_RETRAIN_OVERDUE (R365): A channel's drift reaches 1/8 UI with no retraining step run, and the controller raises the advisory fault. -/
  | dramRetrainOverdue (ch : Nat)
  /-- MOD_ABS_CHANGE (R522): An SFP28 module is inserted or removed, MOD_ABS changes, and VMOD is switched on or off. -/
  | modAbsChange (port : Fin 4) (low : Bool)
  /-- VMOD_OVERCURRENT (R522): A cage draws more than 0.8 A for 100 µs, so VMOD is latched off and NET_LINK_DOWN is raised. -/
  | vmodOvercurrent (port : Fin 4)
  /-- PCIE_LINK_TRAINED (R519): PCIe link training completes and the endpoint's link comes up. -/
  | pcieLinkTrained
  /-- COMMAND_COMPLETION (R407): A running FHP command ends and posts its completion, letting the next command on its ring start. -/
  | commandCompletion (g : Fin 9) (n : Fin 4)
  /-- EMBER_ENTRY_COMPLETE (R437): The last step of Ember entry ends and the device rests in Ember. -/
  | emberEntryComplete (t : Nat)
  /-- TICK_READY (R448): A cold boot, compute-die restart or rekindle reaches tick-ready, setting BOOT to 2 and releasing FAULT_N. -/
  | tickReady
  /-- HOST_TRAINING_TIMEOUT (R449): With host-assisted DRAM training, DRC_STAT.READY is not set within 10 s, so Emino raises DRAM_TRAIN_FAIL. -/
  | hostTrainingTimeout
  /-- PAIR1_LOCKSTEP_MISMATCH (R489): A lockstep mismatch on real-time pair 1 is a double fault with reason 3. -/
  | pair1LockstepMismatch
  /-- PPS_OUT_PULSE (R521): At each whole second of 802.1AS time, PPS_OUT carries a 10 µs pulse. -/
  | ppsOutPulse (t : Nat)
  deriving DecidableEq, Repr

end Sys2Proof
end

