-- ==== Sys2Proof/Decode.lean ====
section
/-! DEFINITION. Words that spell commands: none, for the rows of the opcode table carry no bits. -/

namespace Sys2Proof

/-- The command that a word spells by the opcode table's bits: no row gives any (log entry 12). -/
def decodeTableWord (_nbits _w : Nat) : Option Instr := none

end Sys2Proof
end

