-- ==== Sys2Proof/Config.lean ====
section
/-! DEFINITION. Free values: constants without a body for what the specification leaves open. No proof can see a value. -/

namespace Sys2Proof.Config

/-- SOURCE of a fault whose source the block map gives no index (R500, R510): fabric, partition filter, real-time pair 0,
control paths and on-chip memories, by fault code (log entry 6). -/
opaque sourceBlock : Nat → Nat

/-- CRC-24 of a causeway flit's header and payload (R15 names no polynomial; log entry 7). -/
opaque crc24 : BitVec 24 → Bytes → BitVec 24

/-- How far an activation tracker reports below the true count, at most 2,076 (R356), by draw (log entry 8). -/
opaque rhUnder : Nat → Nat

/-- AES-256 in counter mode as GCM uses it (R255): keystream block `i` under a key and a 96-bit IV. The cipher is named and
not given (log entry 10). -/
opaque gcmStream : BitVec 256 → Bytes → Nat → BitVec 128

/-- The 128-bit GCM tag of a ciphertext under a key and an IV, without additional data (R255; log entry 10). -/
opaque gcmTag : BitVec 256 → Bytes → Bytes → BitVec 128

/-- The 8-byte tag of a 64-byte line at an address under an XTS region's keys (R371; log entry 11). -/
opaque xtsTag : BitVec 512 → Nat → Bytes → BitVec 64

/-- SHA-384, which the specification names and does not give (log entry 10). -/
opaque sha384 : Bytes → BitVec 384

/-- A key, challenge or pair of XTS keys that Emino draws from its random generator, by draw (R371, R464, R471). -/
opaque randomKey : Nat → BitVec 256
/-- The lay-by key of partition 0, which Stage 1 creates at each start of the compute die, by start (R277, R462). -/
opaque partition0Key : Nat → BitVec 256
/-- The key that the lay-by mover takes for a partition whose lay-by key the opening of debug has destroyed, by start of the compute die: R472
leaves it open (log entry 228). -/
opaque noLaybyKey : Nat → Nat → BitVec 256
opaque randomXts : Nat → BitVec 512

/-- Where Emino places the tag area of an XTS region of a partition's code (R371, R464), by draw. -/
opaque xtsTags : Nat → Nat

/-- Byte `i` of a memory that only its own unit reads, after a number of changes (R31, R32; log entry 192). -/
opaque bufByte : Nat → Nat → Nat → BitVec 8

/-- The classes whose gates a gate control list has open at a time of the port die: R379 and R381 give no format of a list (log entry 230). -/
opaque gateMask : Bytes → Nat → BitVec 8

/-- The COSE_Sign1 report over the values of its payload's keys (R477): CBOR, certificates and signatures are named and not given. -/
opaque coseReport : List (List Nat) → Bytes

/-- The nonce of a report whose request record has a NONCE_LEN outside 1 to 48, which R476 leaves open. -/
opaque oddNonce : Bytes → Bytes

/-- Bilinear interpolation of four corner values (top left, top right, bottom left, bottom right) at the fractions `xn / xd` and
`yn / yd`, the second argument: R315 states no precision or rounding (log entry 21). -/
opaque bilinear : List Int → List Nat → Int

/-- Edge-directed demosaic (R315): red, green and blue, 16 bits each, from the 5 × 5 window of raw values, the CFA phase and the
CFA code (log entry 21). -/
opaque demosaic : List Nat → Nat → Nat → BitVec 48

/-- The 5 × 5 bilateral filter (R315): a channel's value from its window and NR_STRENGTH (log entry 21). -/
opaque bilateral : List Nat → Nat → BitVec 16

/-- 16-bit red, green and blue of a YUV422 pixel (R315; log entry 21). -/
opaque yuvRgb : Nat → Nat → Nat → BitVec 48

/-- The 16-bit value of an 8-bit channel of an RGB888 pixel (R315; log entry 21). -/
opaque rgb16 : Nat → BitVec 16

/-- A quotient by zero in `ae_update`, where GAIN_MIN or EXP_MAX is 0 (R330 states none; log entry 25). -/
opaque aeDivZero : Nat → Nat

/-- PORT and RX_TIME of the receive entry that tells a sender that its frame has been read (R385 gives it LEN and SLOT only; log entry
26), by draw. -/
opaque doneEntry : Nat → Nat × Nat

/-- Byte `i` of the state record that the lay-by mover saves, whose layout is internal to the device (R277; log entry 24), by draw. -/
opaque laybyByte : Nat → Nat → BitVec 8

/-- Codec results by draw (R339 to R347; log entry 22): byte `i` of a bitstream or of a stream's state area, its length, element
`i` of a decoded picture, how the job ends, whether a key picture was coded, and whether a stream has one tile column. -/
opaque codecByte : Nat → Nat → BitVec 8
opaque codecLen : Nat → Nat
opaque codecPix : Nat → Nat → Nat
opaque codecBad : Nat → Bool
opaque codecKey : Nat → Bool
opaque codecDpb : Nat → Nat
opaque codecOneTile : Nat → Bool

end Sys2Proof.Config
end

