-- ==== Sys2Proof/Machine/Tab.lean ====
section
/-! DEFINITION. Finite tables kept in one canonical form, byte memory over them, and little-endian values (R6). -/

namespace Sys2Proof.Machine

/-- What a table reads at a key; `d` is what an unlisted key reads as. -/
def tabGet {α : Type} (t : Tab α) (k : Nat) (d : α) : α :=
  match t.find? (fun x => x.1 == k) with
  | some x => x.2
  | none => d

/-- A table with the value at one key replaced; the value an unlisted key reads as is not listed. -/
def tabPut {α : Type} [DecidableEq α] (t : Tab α) (k : Nat) (v d : α) : Tab α :=
  t.filter (fun x => x.1 < k) ++ (if v = d then [] else [(k, v)]) ++ t.filter (fun x => k < x.1)

/-- A table without the keys `lo` to `lo + n - 1`. -/
def tabDrop {α : Type} (t : Tab α) (lo n : Nat) : Tab α :=
  t.filter (fun x => x.1 < lo) ++ t.filter (fun x => lo + n ≤ x.1)

/-- Keys strictly rising. -/
def rising : List Nat → Bool
  | [] => true
  | [_] => true
  | a :: b :: r => decide (a < b) && rising (b :: r)

/-- Memory: the bytes that are not zero, by address. -/
abbrev Mem := Tab Byte

/-- The canonical form of memory: addresses strictly rising, no listed byte zero. -/
def memWf (m : Mem) : Bool := rising (m.map (·.1)) && m.all (fun x => x.2 != 0)

/-- One byte of memory; a byte nothing has written reads 0 (R30, R150 for on-chip memory; log entry 4 for DRAM). -/
def rdByte (m : Mem) (a : Nat) : Byte := tabGet m a 0

/-- The listed cells of a byte string laid from address `a`. -/
def cells : Nat → Bytes → Mem
  | _, [] => []
  | a, b :: bs => if b = 0 then cells (a + 1) bs else (a, b) :: cells (a + 1) bs

/-- Memory with a byte string written from address `a`. -/
def memWrite (m : Mem) (a : Nat) (bs : Bytes) : Mem :=
  m.filter (fun x => x.1 < a) ++ cells a bs ++ m.filter (fun x => a + bs.length ≤ x.1)

/-- `n` bytes of memory from address `a`. -/
def memRead (m : Mem) (a n : Nat) : Bytes := (List.range n).map (fun i => rdByte m (a + i))

/-- A little-endian value (R6). -/
def leVal : Bytes → Nat
  | [] => 0
  | b :: bs => b.toNat + 256 * leVal bs

/-- `n` little-endian bytes of a value (R6). -/
def leBytes : Nat → Nat → Bytes
  | 0, _ => []
  | n + 1, v => BitVec.ofNat 8 v :: leBytes n (v / 256)

/-- An unsigned little-endian value of `n` bytes at offset `o` of a record. -/
def leAt (bs : Bytes) (o n : Nat) : Nat := leVal ((bs.drop o).take n)

/-- A little-endian value of `n` bytes of memory. -/
def memLe (m : Mem) (a n : Nat) : Nat := leVal (memRead m a n)

/-- Bits `lo` to `lo + n - 1` of a value. -/
def bitsOf (v lo n : Nat) : Nat := (v / 2 ^ lo) % 2 ^ n

/-- One bit of a value. -/
def bitOf (v i : Nat) : Bool := v / 2 ^ i % 2 == 1

/-- A value read as `n`-bit two's complement. -/
def sext (n v : Nat) : Int :=
  let w := v % 2 ^ n
  if w < 2 ^ (n - 1) then (w : Int) else (w : Int) - (2 : Int) ^ n

/-- The low `n` bits of an integer (two's complement). -/
def wrapU (n : Nat) (v : Int) : Nat := (v % (2 : Int) ^ n).toNat

/-- `wrap32` of R6, as an integer. -/
def wrap32 (v : Int) : Int := sext 32 (wrapU 32 v)

/-- `clamp` of R6. -/
def clampI (x lo hi : Int) : Int := if x < lo then lo else if hi < x then hi else x

/-- `sat32` of R6. -/
def sat32 (v : Int) : Int := clampI v (-2147483648) 2147483647

/-- Element `i` of a list, or a default. -/
def nth {α : Type} (l : List α) (i : Nat) (d : α) : α := (l[i]?).getD d

end Sys2Proof.Machine
end

