-- ==== Sys2Proof/Machine/Arith.lean ====
section
/-! DEFINITION. Number formats and their arithmetic, exact before every named rounding (R6, R98 to R104, R166): decoding
and encoding of the element formats, IEEE 754 binary32 operations, `narrow`, `round_shift` and the lane LFSR. -/

namespace Sys2Proof.Machine

/-- The exact value of a floating-point code: not a number, an infinity, or a signed magnitude `num / den`. -/
inductive FV where
  | nan
  | inf (neg : Bool)
  | fin (neg : Bool) (num den : Nat)
  deriving DecidableEq, Repr

/-- A floating-point format (R98): mantissa bits, exponent bias, greatest finite code, code of infinity if it has one,
canonical NaN (R100), and the number of bits below the sign. -/
structure FFmt where
  mb : Nat
  bias : Nat
  maxFin : Nat
  inf : Option Nat
  nan : Nat
  width : Nat
  deriving DecidableEq, Repr

/-- FP32 (R98). -/
def fp32 : FFmt := ⟨23, 127, 0x7F7FFFFF, some 0x7F800000, 0x7FC00000, 32⟩
/-- BF16 (R98). -/
def bf16 : FFmt := ⟨7, 127, 0x7F7F, some 0x7F80, 0x7FC0, 16⟩
/-- FP16 (R98). -/
def fp16 : FFmt := ⟨10, 15, 0x7BFF, some 0x7C00, 0x7E00, 16⟩
/-- FP8 E5M2 (R98). -/
def e5m2 : FFmt := ⟨2, 15, 0x7B, some 0x7C, 0x7E, 8⟩
/-- FP8 E4M3 (R98): no infinity, and one NaN. -/
def e4m3 : FFmt := ⟨3, 7, 0x7E, none, 0x7F, 8⟩

/-- A power of two with an integer exponent, as numerator and denominator. -/
def pow2 (e : Int) : Nat × Nat := if 0 ≤ e then (2 ^ e.toNat, 1) else (1, 2 ^ (-e).toNat)

/-- The value of a code (R98); subnormals are taken at their value (R100). -/
def FFmt.decode (f : FFmt) (c : Nat) : FV :=
  let neg := bitOf c (f.width - 1)
  let m := c % 2 ^ (f.width - 1)
  if f.maxFin < m then
    match f.inf with
    | some i => if m = i then .inf neg else .nan
    | none => .nan
  else
    let e := m / 2 ^ f.mb
    let q := m % 2 ^ f.mb
    let (q', ex) := if e = 0 then (q, (1 : Int) - f.bias - f.mb) else (q + 2 ^ f.mb, (e : Int) - f.bias - f.mb)
    let p := pow2 ex
    .fin neg (q' * p.1) p.2

/-- Floor of the base-2 logarithm of a positive `num / den`. -/
def floorLog2 (num den : Nat) : Int :=
  let e : Int := (Nat.log2 num : Int) - Nat.log2 den
  let p := pow2 e
  if num * p.2 < den * p.1 then e - 1 else e

/-- Rounding modes of R101. `sr` carries its 16 random bits. -/
inductive RMode where
  | rne | rna
  | sr (rnd : Nat)
  deriving DecidableEq, Repr

/-- Rounds the magnitude `num / den` of a value of the given sign to a whole number (R101): `sr` compares as R101 does
on the signed grid. -/
def roundMag (mode : RMode) (neg : Bool) (num den : Nat) : Nat :=
  let q := num / den
  let r := num % den
  if r = 0 then q else
  match mode with
  | .rne => if den < 2 * r then q + 1 else if 2 * r < den then q else if q % 2 = 0 then q else q + 1
  | .rna => if den ≤ 2 * r then q + 1 else q
  | .sr rnd =>
    if neg then (if rnd * den < (den - r) * 65536 then q else q + 1)
    else (if rnd * den < r * 65536 then q + 1 else q)

/-- The code below the sign that a positive magnitude rounds to, with the top binade's spacing continued upward. -/
def FFmt.roundCode (f : FFmt) (mode : RMode) (neg : Bool) (num den : Nat) : Nat :=
  if num = 0 then 0 else
  let emin : Int := 1 - f.bias
  let e := max (floorLog2 num den) emin
  let p := pow2 (e - f.mb)
  roundMag mode neg (num * p.2) (den * p.1) + (e - emin).toNat * 2 ^ f.mb

/-- The sign bit of a format. -/
def FFmt.sign (f : FFmt) (neg : Bool) : Nat := if neg then 2 ^ (f.width - 1) else 0

/-- IEEE 754 encoding of an exact value, rounded to nearest, ties to even; overflow gives infinity (R101's preamble). -/
def FFmt.rn (f : FFmt) : FV → Nat
  | .nan => f.nan
  | .inf neg => f.sign neg + f.inf.getD f.nan
  | .fin neg num den =>
    let c := f.roundCode .rne neg num den
    f.sign neg + if f.maxFin < c then f.inf.getD f.nan else c

/-- Negation. -/
def FV.neg : FV → FV
  | .nan => .nan
  | .inf n => .inf (!n)
  | .fin n a b => .fin (!n) a b

/-- The exact sum. -/
def FV.add : FV → FV → FV
  | .nan, _ => .nan
  | _, .nan => .nan
  | .inf a, .inf b => if a = b then .inf a else .nan
  | .inf a, .fin .. => .inf a
  | .fin .., .inf b => .inf b
  | .fin na a1 a2, .fin nb b1 b2 =>
    let x := a1 * b2
    let y := b1 * a2
    if na = nb then .fin na (x + y) (a2 * b2)
    else if x = y then .fin false 0 1
    else if y < x then .fin na (x - y) (a2 * b2) else .fin nb (y - x) (a2 * b2)

/-- The exact product. -/
def FV.mul : FV → FV → FV
  | .nan, _ => .nan
  | _, .nan => .nan
  | .inf a, .inf b => .inf (a != b)
  | .inf a, .fin nb b1 _ => if b1 = 0 then .nan else .inf (a != nb)
  | .fin na a1 _, .inf b => if a1 = 0 then .nan else .inf (na != b)
  | .fin na a1 a2, .fin nb b1 b2 => .fin (na != nb) (a1 * b1) (a2 * b2)

/-- The exact quotient. -/
def FV.div : FV → FV → FV
  | .nan, _ => .nan
  | _, .nan => .nan
  | .inf _, .inf _ => .nan
  | .inf a, .fin nb _ _ => .inf (a != nb)
  | .fin na _ _, .inf b => .fin (na != b) 0 1
  | .fin na a1 a2, .fin nb b1 b2 =>
    if b1 = 0 then (if a1 = 0 then .nan else .inf (na != nb)) else .fin (na != nb) (a1 * b2) (a2 * b1)

/-- Integer square root by bits, from bit `k` down. -/
def isqrt (n : Nat) : Nat → Nat → Nat
  | 0, r => r
  | k + 1, r => let t := r + 2 ^ k; isqrt n k (if t * t ≤ n then t else r)

/-- A value that rounds in FP32 as the exact square root does: 64 bits of root and a sticky bit below them. -/
def FV.sqrt : FV → FV
  | .nan => .nan
  | .inf n => if n then .nan else .inf false
  | .fin n a b =>
    if a = 0 then .fin n 0 1 else if n then .nan else
    let e := floorLog2 a b
    let k : Int := 31 - e / 2
    let p := pow2 (2 * k)
    let x := a * p.1 / (b * p.2)
    let r := isqrt x 34 0
    let exact := decide (r * r * (b * p.2) = a * p.1)
    let m := 2 * r + (if exact then 0 else 1)
    let h := pow2 (-k - 1)
    .fin false (m * h.1) h.2

/-- `rn(a + b)` on FP32 codes. -/
def fAdd (a b : Nat) : Nat := fp32.rn ((fp32.decode a).add (fp32.decode b))
/-- `rn(a - b)` on FP32 codes. -/
def fSub (a b : Nat) : Nat := fp32.rn ((fp32.decode a).add (fp32.decode b).neg)
/-- `rn(a × b)` on FP32 codes. -/
def fMul (a b : Nat) : Nat := fp32.rn ((fp32.decode a).mul (fp32.decode b))
/-- `rn(a / b)` on FP32 codes. -/
def fDiv (a b : Nat) : Nat := fp32.rn ((fp32.decode a).div (fp32.decode b))
/-- `rn(sqrt a)` on FP32 codes. -/
def fSqrt (a : Nat) : Nat := fp32.rn (fp32.decode a).sqrt

/-- An FP32 code is a NaN. -/
def isNaN32 (a : Nat) : Bool := fp32.decode a == .nan
/-- An FP32 code is an infinity. -/
def isInf32 (a : Nat) : Bool := a % 2 ^ 31 == 0x7F800000
/-- The order key of a non-NaN FP32 code: rising with the value, +0 above −0 (R111, R166). -/
def fKey (a : Nat) : Int := if bitOf a 31 then -((a % 2 ^ 31 : Nat) : Int) - 1 else (a : Int)
/-- Numeric order of non-NaN FP32 codes: zeros are equal. -/
def fNum (a : Nat) : Int := if bitOf a 31 then -((a % 2 ^ 31 : Nat) : Int) else (a : Int)

/-- FMIN of R166. -/
def fMin (a b : Nat) : Nat :=
  if isNaN32 a then (if isNaN32 b then fp32.nan else b) else if isNaN32 b then a
  else if fKey a ≤ fKey b then a else b
/-- FMAX of R166. -/
def fMax (a b : Nat) : Nat :=
  if isNaN32 a then (if isNaN32 b then fp32.nan else b) else if isNaN32 b then a
  else if fKey a ≤ fKey b then b else a

/-- An integer as an exact value. -/
def fvInt (v : Int) : FV := .fin (decide (v < 0)) v.natAbs 1

/-- CVTF of R166: an integer to FP32, to nearest, ties to even. -/
def cvtF (v : Int) : Nat := fp32.rn (fvInt v)

/-- An exact value rounded to a whole number. -/
def roundInt (mode : RMode) (neg : Bool) (num den : Nat) : Int :=
  let m := roundMag mode neg num den
  if neg then -(m : Int) else m

/-- CVTI of R166: ties to even, then `sat32`; NaN gives 0. -/
def cvtI (a : Nat) : Int :=
  match fp32.decode a with
  | .nan => 0
  | .inf n => if n then -2147483648 else 2147483647
  | .fin n x y => sat32 (roundInt .rne n x y)

/-- Floor of an exact finite value. -/
def floorFV (neg : Bool) (num den : Nat) : Int :=
  if neg then -(((num + den - 1) / den : Nat) : Int) else ((num / den : Nat) : Int)

/-- Element formats by their codes in descriptors and words (R98, R199). -/
inductive Elem where
  | int4 | int8 | int16 | int32 | e4m3 | e5m2 | fp16 | bf16 | fp32
  deriving DecidableEq, Repr

/-- The floating-point format of an element format. -/
def Elem.ffmt : Elem → Option FFmt
  | .e4m3 => some Machine.e4m3
  | .e5m2 => some Machine.e5m2
  | .fp16 => some Machine.fp16
  | .bf16 => some Machine.bf16
  | .fp32 => some Machine.fp32
  | _ => none

/-- Bits of an element (R98). -/
def Elem.bits : Elem → Nat
  | .int4 => 4
  | .int8 | .e4m3 | .e5m2 => 8
  | .int16 | .fp16 | .bf16 => 16
  | .int32 | .fp32 => 32

/-- What `narrow` gives (R101): the code, and whether it counted SAT or NAN. -/
structure Narrowed where
  code : Nat
  sat : Bool := false
  nan : Bool := false
  deriving DecidableEq, Repr

/-- An integer clamped into the range of an integer format, with the SAT count (R101, R113). -/
def narrowClamp (v lo hi : Int) : Int × Bool := (clampI v lo hi, decide (v < lo ∨ hi < v))

/-- `narrow` onto the grid of `w`-bit integers (R101): NaN and infinities give the zero code and count NAN. -/
def narrowIntVal (x : FV) (w : Nat) (mode : RMode) : Int × Bool × Bool :=
  match x with
  | .nan => (0, false, true)
  | .inf _ => (0, false, true)
  | .fin n a b =>
    let v := roundInt mode n a b
    let c := narrowClamp v (-(2 ^ (w - 1) : Nat)) ((2 ^ (w - 1) - 1 : Nat) : Int)
    (c.1, c.2, false)

/-- `narrow` of R101 into an element format. -/
def narrow (x : FV) (el : Elem) (mode : RMode) : Narrowed :=
  match el.ffmt with
  | none =>
    let r := narrowIntVal x el.bits mode
    { code := wrapU el.bits r.1, sat := r.2.1, nan := r.2.2 }
  | some f =>
    match x with
    | .nan => { code := f.nan, nan := true }
    | .inf n =>
      match f.inf with
      | some i => { code := f.sign n + i }
      | none => { code := f.nan, nan := true }
    | .fin n a b =>
      let c := f.roundCode mode n a b
      if f.maxFin < c then { code := f.sign n + f.maxFin, sat := true } else { code := f.sign n + c }

/-- The exact value of an element. -/
def Elem.value (el : Elem) (c : Nat) : FV :=
  match el.ffmt with
  | some f => f.decode c
  | none => fvInt (sext el.bits c)

/-- An element as FP32, exactly (R110). -/
def Elem.toF32 (el : Elem) (c : Nat) : Nat := Machine.fp32.rn (el.value c)

/-- `round_shift` of R102; `rna` selects RNA. -/
def roundShift (x : Int) (s : Nat) (rna : Bool) : Int :=
  if s = 0 then x else
  let q := x / (2 ^ s : Nat)
  let r := x - q * (2 ^ s : Nat)
  let h : Int := (2 ^ (s - 1) : Nat)
  if h < r then q + 1 else if r < h then q
  else if rna then (if 0 ≤ x then q + 1 else q)
  else if q % 2 = 1 then q + 1 else q

/-- `lfsr_step` of R103. -/
def lfsrStep (st : BitVec 32) : BitVec 32 :=
  let t := st >>> 1
  if st.getLsbD 0 then t ^^^ 0x80200003#32 else t

/-- The seed of lane `i` (R103). -/
def lfsrSeed (seed : Nat) (i : Nat) : BitVec 32 :=
  let v := BitVec.ofNat 32 seed ^^^ BitVec.ofNat 32 (i * 0x01010101)
  if v = 0 then 1 else v

end Sys2Proof.Machine
end

