-- ==== Sys2Proof/Machine/State.lean ====
section
/-! DEFINITION. The state of the FV726 block: every register, memory, queue and sequencer the specification names, the
queue of waiting commands, and the machine after reset. Plain data throughout. -/

namespace Sys2Proof.Machine

/-- Why a step stops the machine. No command of the specification stops the block: safe state (R490) and the held
compute die (R492) are states of the fault unit, in which the block goes on taking commands. -/
inductive Fault where
  /-- Raised by no meaning. Safe. -/
  | none
  deriving DecidableEq, Repr

/-- Why a command has no meaning. -/
inductive Refusal where
  /-- Raised by an arm of `exec` for a command that has no meaning yet. Safe. -/
  | notModelled (mnemonic : String)
  deriving DecidableEq, Repr

/-- A field of a register: the register's address, the field's lowest bit, its width and its reset value. -/
structure Fld where
  addr : Nat
  lo : Nat
  width : Nat
  reset : Nat
  deriving DecidableEq, Repr

/-- Access codes of R7, with `resv` for the reserved bits of R507. -/
inductive Acc where
  | ro | rw | wo | w1c | rwl | rwd | resv
  deriving DecidableEq, Repr

/-- A fault record (R483). `cls` is 0 advisory, 1 correctable, 2 contained, 3 device (R481). -/
structure FaultRec where
  code : Nat
  cls : Nat
  part : Option Nat := none
  double : Bool := false
  port : Bool := false
  block : Nat := 0
  item : Nat := 0xFFFF
  tick : Nat := 0
  time : Nat := 0
  seq : Nat := 0
  detail : List Nat := []
  deriving DecidableEq, Repr

/-- The fault unit of one die (R484): its queue, oldest first, its record count and the record last taken. -/
structure FltDie where
  queue : List FaultRec := []
  seq : Nat := 0
  recd : Option FaultRec := none
  deriving DecidableEq, Repr

/-- A partition restart under way (R487): when it began and whether the partition's cores have been restarted. -/
structure PartRestart where
  part : Nat
  since : Nat
  fromTick : Nat
  deriving DecidableEq, Repr

/-- Fault handling of the device (R484 to R492) and the self-test unit (R496). -/
structure Flt where
  comp : FltDie := {}
  port : FltDie := {}
  /-- Sequence numbers of port-die records whose notification the compute die has acknowledged (R484). -/
  acked : List Nat := []
  /-- Classes being handled, innermost first (R485). -/
  handling : List Nat := []
  /-- The handler has been interrupted and has not yet written TAKE (R485, R486). -/
  interrupted : Bool := false
  /-- The watchdog's running limits, innermost first: the time by which TAKE (false) or DONE (true) must come (R486). -/
  watch : List (Bool × Nat) := []
  /-- FAULT_N is driven low (R490, R493). -/
  faultN : Bool := false
  /-- Safe state of R490. -/
  safe : Bool := false
  /-- The compute die is to be reset and restarted by Emino (R490, R493). -/
  restartDue : Bool := false
  /-- DRAM_TRAIN_FAIL has been raised: no tick-ready until a cold boot (R493). -/
  trainFail : Bool := false
  /-- Between the reset of R490 and tick-ready (R492). -/
  restarting : Bool := false
  /-- Held in reset under R492. -/
  held : Bool := false
  /-- Real-time pair 0 is held in reset (R489). -/
  pair0Reset : Bool := false
  /-- The scheduler moves to pair 1 at the next edge (R489). -/
  takeover : Bool := false
  restarts : List PartRestart := []
  /-- Compute-die restarts since the last cold boot (R491). -/
  reboots : Nat := 0
  /-- Cursors of the billet classes 0 to 6 (R496): target, and billets done of it. -/
  cursors : List (Nat × Nat) := List.replicate 7 (0, 0)
  deriving DecidableEq, Repr

/-- One entry of the register-event log (R509). -/
structure RlogEntry where
  addr : Nat
  master : Nat
  part : Nat
  priv : Bool
  reason : Nat
  data : Nat
  time : Nat
  deriving DecidableEq, Repr

/-- One direction of the causeway (R15, R16, R22): the sender's sequence and retry buffer, the receiver's expectation,
the credits the sender holds for the pixel, network and register classes, those the receiver owes back, the packet being
assembled in each class, and the packet each class delivered last. -/
structure CwyDir where
  /-- The slot of the frame of 128 that comes next (R16). -/
  slot : Nat := 0
  nextSeq : Nat := 0
  retry : List (Nat × Flit) := []
  rxNext : Nat := 0
  nakSeq : Option Nat := none
  nakCount : Nat := 0
  /-- Flits accepted since the last acknowledgement, and the acknowledgements under way: the number awaited when each was sent. -/
  sinceAck : Nat := 0
  acks : List Nat := []
  credits : List Nat := [192, 128, 48]
  owed : List Nat := [0, 0, 0]
  packet : List Bytes := [[], [], []]
  done : List Bytes := [[], [], []]
  deriving DecidableEq, Repr

/-- The tick announcement the port die last sent (R21): the edge's time and tick number, whether the tick unit has
received it, and whether that is acknowledged. -/
structure Announce where
  edge : Nat
  tick : Nat
  received : Bool := false
  acked : Bool := false
  deriving DecidableEq, Repr

/-- The causeway and its signalling lanes. `toComp` runs from the port die to the compute die. -/
structure Cwy where
  toComp : CwyDir := {}
  toPort : CwyDir := {}
  ann : Option Announce := none
  /-- The last edge the port die drives its triggers from: tick and time (R21). -/
  portEdge : Option (Nat × Nat) := none
  deriving DecidableEq, Repr

/-- Power: the separately switched domains that are off (R27, by the numbers of `domCount`), the compute and port base
domains (R28), and the two die-control lines (R12), `true` when asserted. -/
structure Pwr where
  off : List Nat := []
  compOn : Bool := true
  portOn : Bool := true
  dcReset : Bool := false
  dcClkStop : Bool := false
  /-- The 8-bit cycle counts of the compute die's 27 clock domains, numbered in the order of R25's table (R425). -/
  cyc : List Nat := List.replicate 27 0
  deriving DecidableEq, Repr

/-- An address generator (R163): its segment base, its four parameters and its running state. -/
structure Ag where
  seg : Nat := 0
  base : Nat := 0
  stride : Int := 0
  count : Nat := 0
  wrap : Int := 0
  p : Int := 0
  i : Nat := 0
  deriving DecidableEq, Repr

/-- A comparator's configuration (R167). -/
structure Cmp where
  en : Bool := false
  srcA : Nat := 0
  rel : Nat := 0
  bkind : Bool := false
  b : Nat := 0
  deriving DecidableEq, Repr

/-- A hardware loop (R174); it is inactive when `counter` is 0. The body is `first` to `last`. -/
structure Loop where
  counter : Nat := 0
  first : Nat := 0
  last : Nat := 0
  deriving DecidableEq, Repr

/-- States of a Hexarel engine (R159), in the order of their codes. -/
inductive EngSt where
  | idle | run | wait | held | parked
  deriving DecidableEq, Repr

/-- A cairn an engine has emitted that has not entered (R181): its queue, the serial of the last effect issued before it, and
whether an XFER word with that serial emits it. -/
structure Emit where
  q : Nat
  after : Nat := 0
  own : Bool := false
  deriving DecidableEq, Repr

/-- A Hexarel engine (R158, R159): its sequencing state and the item or step it works for. -/
structure Engine where
  st : EngSt := .idle
  pc : Nat := 0
  /-- Address of the last word issued (R195). -/
  cur : Nat := 0
  ags : List Ag := List.replicate 4 {}
  sregs : List (BitVec 32) := List.replicate 16 0
  cregs : List (BitVec 32) := List.replicate 8 0
  cmps : List Cmp := List.replicate 4 {}
  loops : List Loop := List.replicate 4 {}
  /-- The queue the word in WAIT waits on (R182). -/
  waitQ : Option Nat := none
  /-- The word at issue has had its cairn (R182), and issues without waiting again. -/
  granted : Bool := false
  /-- Emitted cairns that have not yet entered, oldest first (R181). -/
  emits : List Emit := []
  /-- Serial of the last effect issued that is acknowledged later (R181). -/
  eff : Nat := 0
  /-- A HALT word has issued (R191). -/
  halted : Bool := false
  /-- The first word is staged, to issue at this time (R41, R44). -/
  staged : Option Nat := none
  part : Nat := 0
  /-- The plan item the engine works for: its index in the plan, and its ITEM_ID. -/
  item : Option (Nat × Nat) := none
  deriving DecidableEq, Repr

/-- A queue entry (R178): its kind, its 16 bytes and its producer's master code; with a codec job, the index of the plan item it
is bound to (R346). -/
structure QEntry where
  cairn : Bool
  data : Bytes
  producer : Nat
  item : Option Nat := none
  deriving DecidableEq, Repr

/-- A queue (R177, R196): its binding, its entries (head first), the SEQ of its next cairn, the entries removed since the
last cairn removal (the position of R183 that rollback returns to), and its OVERFLOW flag. -/
structure Queue where
  depth : Nat := 0
  consumer : Nat := 0
  part : Nat := 0
  entries : List QEntry := []
  seq : Nat := 0
  undo : List QEntry := []
  overflow : Bool := false
  deriving DecidableEq, Repr

/-- A plan item record (R45). `finish` is ON_MISS. -/
structure PlanItem where
  id : Nat
  engine : Nat
  finish : Bool
  batch : Bool
  part : Nat
  start : Nat
  deadline : Nat
  wfix : Nat
  waclk : Nat
  arg : Nat
  preset : Nat
  deps : List Nat
  outlist : Nat
  every : Nat
  phase : Nat
  deriving DecidableEq, Repr

/-- A plan in plan memory (R45): header fields, items, output lists and preset records. -/
structure Plan where
  id : Nat
  fallback : Nat
  period : Nat
  ceil : Nat
  floor : Nat
  margin : Nat
  items : List PlanItem
  outs : List (List Nat)
  presets : List Bytes
  size : Nat := 0
  deriving DecidableEq, Repr

/-- An armed item (R48): its index in the plan in force, the absolute start and deadline, whether it has started, and
whether it has missed and runs on (R55), and its preset record as it was at its milestone (R271). -/
structure Armed where
  idx : Nat
  item : PlanItem
  start : Nat
  deadline : Nat
  started : Bool := false
  missed : Bool := false
  /-- The queue its engine waited on when it missed (R183). -/
  lateQ : Nat := 0xFFFF
  preset : Option Bytes := none
  deriving DecidableEq, Repr

/-- A milestone record entry (R59), with the item's partition (R415). -/
structure LogEntry where
  id : Nat
  outcome : Nat
  engine : Nat
  late : Nat
  queue : Nat
  part : Nat
  deriving DecidableEq, Repr

/-- What the tick unit gathers for the milestone record of one tick (R59). -/
structure TickLog where
  tick : Nat := 0
  edge : Nat := 0
  plan : Nat := 0xFFFF
  fallback : Bool := false
  mismatch : Bool := false
  ceiling : Nat := 0
  entries : List LogEntry := []
  misses : Nat := 0
  minSlack : Int := 0x7FFFFFFF
  /-- Plan indices that ended, were stopped or were cancelled in the tick, and when (R44). -/
  ended : List Nat := []
  endAt : Tab (Option Nat) := []
  /-- Descriptor addresses whose commit bits are cleared before the record is written (R57). -/
  uncommit : List Nat := []
  forceFail : Bool := false
  /-- What the kiln gathered in the tick (R432): AVAIL_MHZ, PACE_MHZ, PEAK_BUBBLE_PCT. -/
  avail : Nat := 0
  pace : Nat := 0
  peak : Nat := 0
  /-- Partitions under restart in the tick (R487). -/
  restart : List Nat := []
  deriving DecidableEq, Repr

/-- The tick unit (R38 to R62). -/
structure TickU where
  plans : List Plan := []
  /-- The plan activated last (R49), which a fallback plan may stand in for (R62). -/
  base : Option Nat := none
  /-- Activations written and not yet in effect: plan and tick (R49). -/
  pending : List (Nat × Nat) := []
  /-- The announced edge: its 802.1AS time and tick number (R38). -/
  announced : Option (Nat × Nat) := none
  /-- Edges are being generated (R40). -/
  running : Bool := false
  /-- The period that the tick master announces, in µs (R39). -/
  memberPeriod : Nat := 0
  num : Nat := 0
  edge : Nat := 0
  armed : List Armed := []
  /-- Plan indices whose end condition is met and whose end is on its way to the tick unit (R46). -/
  reports : List Nat := []
  log : TickLog := {}
  closing : Option TickLog := none
  /-- The milestone record written last (R59). -/
  record : Bytes := []
  recordTick : Nat := 0
  /-- The domain ceiling in force, in MHz, and a change to come: from tick, value (R61). -/
  ceiling : Nat := 1500
  nextCeil : Option (Nat × Nat) := none
  /-- What the scheduler last reported to the loader (R53): the identifiers of a container's plans, each with the reason of its refusal
  or 0. -/
  reported : List (Nat × Nat) := []
  deriving DecidableEq, Repr

/-- States of a window (R141), in the order of CRD_WINSTAT.STATE. -/
inductive WinSt where
  | closed | opened | draining | revoking
  deriving DecidableEq, Repr

/-- A window of a tile memory (R141). -/
structure Window where
  base : Nat := 0
  rows : Nat := 0
  part : Nat := 0
  epoch : Nat := 0
  pool : Nat := 0
  outstanding : Nat := 0
  st : WinSt := .closed
  /-- When the timeout of R143 expires, while it runs. -/
  deadline : Nat := 0
  /-- When the epoch last incremented (R144). -/
  epochAt : Option Nat := none
  /-- Requests waiting, oldest first: master code and credits asked (R141). -/
  requests : List (Nat × Nat) := []
  /-- Credits granted and not yet used, by master code. -/
  holders : Tab Nat := []
  /-- Holders that have not yet acknowledged a revocation (R143). -/
  revoking : List Nat := []
  /-- The engine whose WIN OPEN is held (R169), with base row, row count and partition. -/
  heldOpen : Option (Nat × Nat × Nat × Nat) := none
  /-- The engine whose held OPEN has been accepted and whose word has not yet ended. -/
  accepted : Option Nat := none
  deriving DecidableEq, Repr

/-- The credit unit (R141, R156): windows by `8 * tile + window`, and the dropped writes of each tile memory. -/
structure Crd where
  wins : Tab Window := []
  drops : Tab (Nat × Nat) := []
  /-- Credits refused or granted to a sender, last answer: master code, completion code and count (R141, R142). -/
  answer : Nat × Nat × Nat := (0, 0, 0)
  /-- The epoch that the last answer carries (R141). -/
  answerEpoch : Nat := 0
  tileCursor : Nat := 0
  deriving DecidableEq, Repr

/-- On-chip memory upkeep (R31, R150 to R154): words with a bad check (1 single-bit, 2 uncorrectable) by
word number, rows with a write-back pending, and the patrol cursor; the rows of tile memories 0 to 12 and 23, by address over 512, whose
valid tags are set; and the address of the window of 8 rows that the 4 KiB shadow buffer holds while a billet tests it. Every access of
that time is served from the buffer, so `mem` holds the buffer's bytes at the window's addresses (log entry 9). -/
structure MapU where
  bad : Tab Nat := []
  writeBack : List Nat := []
  cursor : Nat := 0
  tags : Tab Bool := []
  shadow : Option Nat := none
  deriving DecidableEq, Repr

/-- States of an accumulator slot (R146). -/
inductive SlotSt where
  | free | live | draining
  deriving DecidableEq, Repr

/-- A partition (R462 to R464): its state (0 FREE, 1 CREATED, 2 RUNNING, 3 TEARING_DOWN, 4 SYSTEM), the resources of its
descriptor (R463; regions are base and size in bytes) and its measurement. -/
structure Part where
  st : Nat := 0
  cores : Nat := 0
  banks : Nat := 0
  qBase : Nat := 0
  qCount : Nat := 0
  ispCtx : Nat := 0
  regions : List (Nat × Nat) := []
  sBase : Nat := 0
  sCount : Nat := 0
  meas : BitVec 384 := 0
  loads : Nat := 0
  /-- The cores of the partition run (R464, R474). -/
  coresOn : Bool := false
  deriving DecidableEq, Repr

/-- An attestation unit of one partition (R476, R480): EMN_ATT_ADDR, BUSY, RESULT and LEN, and of the request in hand the output
buffer, its size and the snapshot: the values of each key of the payload (R477). -/
structure Att where
  addr : Nat := 0
  busy : Bool := false
  result : Nat := 0
  len : Nat := 0
  out : Nat := 0
  outBytes : Nat := 0
  payload : List (List Nat) := []
  deriving DecidableEq, Repr

/-- A model container that is loaded (R412, R413). -/
structure Container where
  handle : Nat
  part : Nat
  /-- Key slots released for it (R469). -/
  slots : List Nat
  aoFirst : Nat
  aoCount : Nat
  plans : List Nat
  /-- Its programs: engine, first word, words. -/
  progs : List (Nat × Nat × Nat)
  digest : BitVec 384
  deriving DecidableEq, Repr

/-- A key slot (R462, R469) or the region key of R371. -/
structure KeySlot where
  key : BitVec 256
  /-- The 64-bit nonce counter of the key (R258). -/
  nonce : Nat := 0
  deriving DecidableEq, Repr

/-- The security state Emino holds (R462 to R480). -/
structure Sec where
  /-- Released key slots, 0 to 63. -/
  slots : Tab (Option KeySlot) := []
  /-- The nonce counter that each key has reached, whatever slot it stood in (R258). -/
  nonces : List (BitVec 256 × Nat) := []
  containers : List Container := []
  nextHandle : Nat := 1
  /-- Quarantined banks (R475), one bit each. -/
  quar : Nat := 0
  /-- The partition command running: command and partition (R464). -/
  cmd : Option (Nat × Nat) := none
  /-- Regions the scrub engine has yet to zero for the teardown running (R474). -/
  scrubLeft : Nat := 0
  /-- Debug access (R471): the challenge outstanding. -/
  challenge : Option (BitVec 256) := none
  /-- Key release is locked by a billet (R473). -/
  locked : Bool := false
  att : Tab Att := []
  deriving DecidableEq, Repr

/-- A set of stationary operands (R73): `k` rows of `n` element codes, k-major, the tile-memory row it was loaded from, the
format of its elements, and the physical column that holds each of its `n` columns (R67). -/
structure StatSet where
  k : Nat := 0
  n : Nat := 0
  trow : Nat := 0
  els : List Nat := []
  fmt : Nat := 0
  phys : List Nat := []
  deriving DecidableEq, Repr

/-- The shadow registers' load (R202): its size, its first row of tile memory 1, and the set once it has completed. -/
structure ShadowLoad where
  k : Nat
  n : Nat
  trow : Nat
  set : Option StatSet := none
  deriving DecidableEq, Repr

/-- An open array operation (R68, R201). Formats are codes of R199. -/
structure ArrOp where
  mode : Nat
  fmtN : Nat
  fmtW : Nat
  wside : Bool
  wdecl : Nat
  optag : Nat
  rowgroup : Nat
  opid : Nat
  chk : Bool
  part : Nat
  /-- Number of the operation since reset, by `Arr.opened`. -/
  ser : Nat := 0
  /-- Depth of the pass, or the steps of the output-stationary tile so far (R97). -/
  depth : Nat := 0
  /-- A pass has begun since the operation opened. -/
  started : Bool := false
  deriving DecidableEq, Repr

/-- An accumulator slot (R146) and what the array sequencer records with it (R97, R205). -/
structure Slot where
  st : SlotSt := .free
  optag : Nat := 0
  ot : Nat := 0
  opid : Nat := 0
  mode : Nat := 0
  wdecl : Nat := 0
  fp : Bool := false
  depth : Nat := 0
  part : Nat := 0
  /-- Every tile share of the last pass has been written (LAST, R205). -/
  complete : Bool := false
  rowgroup : Nat := 0
  /-- The operation the slot was allocated for, by `Arr.opened`. -/
  ser : Nat := 0
  /-- The pass that last wrote the slot, by `Arr.pass` (R97, R205). -/
  pass : Option Nat := none
  /-- Vectors the array has written: one past the greatest index. -/
  vecs : Nat := 0
  /-- Vectors the drain has read. -/
  drained : Nat := 0
  deriving DecidableEq, Repr

/-- A tile share whose results have left the cells and await their checks (R82, R205): the slot, the pass, the vectors (index
and lanes), the references of the row and column checks, and the fields of the STREAM word. An output-stationary tile is one
share of 1,024 vectors, one for each array row, and the second slot takes those from 512 on (R83, R205). -/
structure Share where
  slot : Nat
  slot2 : Option Nat := none
  ot : Nat
  opid : Nat
  part : Nat
  fp : Bool
  chk : Bool
  first : Bool
  last : Bool
  rowgroup : Nat
  depth : Nat
  pass : Nat := 0
  vecs : List (Nat × List Nat)
  rowRef : List Nat := []
  colRef : List Nat := []
  deriving DecidableEq, Repr

/-- A pending FILL (R206): target tile memory, first row, rows, source row index, interleave, and rows written so far. -/
structure FillReq where
  tgt : Nat
  trow : Nat
  rows : Nat
  src : Nat
  nblog : Nat
  /-- Serial among the engine's effects (R181). -/
  serial : Nat := 0
  done : Nat := 0
  /-- Rows whose source lay outside Map Store: they stay unwritten (R223). -/
  bad : List Nat := []
  deriving DecidableEq, Repr

/-- The matrix array, its sequencer's operation and accumulator memory (R65 to R97, R145 to R150). -/
structure Arr where
  op : Option ArrOp := none
  /-- Operations opened since reset. -/
  opened : Nat := 0
  /-- Closed operations whose last results are still to be written (R208). -/
  closing : Nat := 0
  active : StatSet := {}
  shadow : Option ShadowLoad := none
  /-- Passes begun since reset (R73). -/
  pass : Nat := 0
  /-- The last step issued ended a tile (R207). -/
  atTileEnd : Bool := true
  /-- Output-stationary cell accumulators by `256 * row + physical column`, the border column and the border row (R83). -/
  cells : Tab Nat := []
  borderCol : List Nat := []
  borderRow : List Nat := []
  fills : List FillReq := []
  slots : List Slot := List.replicate 8 {}
  /-- Accumulator vectors by `512 * slot + vector`; an entry is a vector whose valid tag is set (R145, R150). -/
  acc : Tab (List Nat) := []
  /-- Lanes of a vector whose parity bit disagrees with the lane, one bit each (R145, R149); a write of the vector clears them. -/
  accErr : Tab Nat := []
  shares : List Share := []
  /-- Tile shares the STREAM word in force has sent (R205), and its word cycles done (R171). -/
  strPos : Nat := 0
  strSteps : Nat := 0
  prevPart : Option Nat := none
  /-- Retired columns, one bit each (R92). -/
  retired : Nat := 0
  retireReq : List Nat := []
  /-- Failure counters by column, 256 the border column and 257 the border row (R88). -/
  colCnt : Tab Nat := []
  settling : List Nat := []
  outOfService : Bool := false
  /-- A write of 0 to ARR_CTL.ENABLE that waits for the operation (R96). -/
  disablePending : Bool := false
  issued : Nat := 0
  /-- MACs the drain has counted as useful; the register counts them in units of 1,024 (R97). -/
  useful : Nat := 0
  stall : Nat := 0
  deriving DecidableEq, Repr

/-- Values fused into a part (R2, R91, R96, R338, R428, R443; log entry 3 for the example part): stepping B1, identity, bad
columns, a bad border cell, the ACLK ceiling, the frequencies of the ARRAY points (the part of chapter 17) and of the
points of each host-core rail in MHz, the anti-rollback counter, PQC_REQUIRED, revoked keys. -/
structure Fuse where
  b1 : Bool := true
  uid : Nat := 0x0000072600000001
  colBad : Nat := 0
  /-- Column fuses blown since the last cold boot, in effect from the next (R91). -/
  colBlown : Nat := 0
  borderBad : Bool := false
  aclkMax : Nat := 1500
  arrCurve : List Nat := [1030, 1120, 1200, 1270, 1330, 1380, 1420, 1450, 1475, 1490, 1500]
  /-- The fused curve of each host core's rail (R428). -/
  hcCurves : List (List Nat) := List.replicate 8 [1200, 1300, 1400, 1500, 1600, 1700, 1800, 1900, 2000, 2100, 2200, 2300, 2400]
  svn : Nat := 0
  pqc : Bool := false
  revoked : Nat := 0
  deriving DecidableEq, Repr

/-- A drain stage record as read from tile memory 2 (R210). -/
structure Stage where
  code : Nat
  perCh : Bool
  tsrc : Bool
  round : Nat
  mode : Nat
  odom : Bool
  static : Bool
  fmt : Nat
  reg : Nat
  trow : Nat
  tstride : Nat
  p0 : Nat
  p1 : Nat
  p2 : Nat
  aux : Nat
  /-- Reserved bits of the record as read: CODE 7:4 and bytes 10 and 11. -/
  rsv : Nat := 0
  deriving DecidableEq, Repr

/-- The drain (R105 to R128, R209 to R214). -/
structure Drn where
  /-- The chain in force and the address of its output descriptor (R209). -/
  chain : List Stage := []
  outDesc : Nat := 0
  chainSet : Bool := false
  lfsr : List (BitVec 32) := List.replicate 256 1
  /-- FORCE_STATIC as sampled at item start (R126). -/
  force : Bool := false
  /-- Running values of the chain's reduce stages by stage index: a lane that counts has been seen, and the value (R111). -/
  reduce : Tab (Bool × Int) := []
  /-- The operation whose vectors the running values fold, by `Arr.opened` (R111). -/
  redOp : Nat := 0
  /-- The first effect that went into the running values (R181). -/
  redSer : Nat := 0
  /-- Deposits on their way to the array sequencer's scalar registers (R111), each with the first effect that went into it (R181). -/
  deposits : List (Nat × Nat × Nat) := []
  /-- The partly filled scale row: descriptor address, row, and entries by index in the row (R121). -/
  scale : Option (Nat × Nat × Tab Nat) := none
  /-- Elements the DRAIN word in force has produced, by nibble offset in the tensor, and the word cycles that it or an OPTSTEP word has done. -/
  out : Tab Nat := []
  pos : Nat := 0
  /-- Elements of optimiser rows not yet complete: descriptor address, nibble offset, code (R125). -/
  half : List (Nat × Nat × Nat) := []
  disablePending : Bool := false
  deriving DecidableEq, Repr

/-- A journal record (R454): 1 SLOT, 2 TRY, 3 CONFIRM; the slot, SEQ and the manifest's digest. Only records with a valid CHECK
are kept, since Emino ignores every other. -/
structure JRec where
  kind : Nat
  slot : Nat
  seq : Nat
  digest : BitVec 384 := 0
  deriving DecidableEq, Repr

/-- What a flash slot holds (R444): the manifest's digest, the verdict on its signatures and its components' limits, its SVN, its components'
kinds and digests, and whether every component matches its digest. -/
structure SlotImg where
  digest : BitVec 384
  signed : Bool
  svn : Nat
  comps : List (Nat × BitVec 384) := []
  good : Bool := true
  deriving DecidableEq, Repr

/-- An XTS region (R371): base and size in bytes, its tag area of an eighth of the size, its two keys as one value, WRITE_LOCK.
The memory holds the region's lines in plain text and its tag area the lines' tags (log entry 11). -/
structure Xts where
  base : Nat
  size : Nat
  tags : Nat
  keys : BitVec 512
  lock : Bool
  deriving DecidableEq, Repr

/-- The sealed record of Ember entry (R451). -/
structure Sealed where
  seq : Nat
  svn : Nat
  /-- The XTS regions with their keys. -/
  xts : List Xts := []
  deriving DecidableEq, Repr

/-- The results of a channel's training helper (R364): error counts and deskews by bit, and whether a run has ended. -/
structure TrnRes where
  errors : List Nat := []
  deskew : List Nat := []
  done : Bool := false
  deriving DecidableEq, Repr

/-- Boot, rekindle and update (R443 to R461); at reset slot A holds a confirmed image (log entry 30). -/
structure Emn where
  journal : List JRec := [{ kind := 1, slot := 0, seq := 1 }, { kind := 3, slot := 0, seq := 1 }]
  slots : List (Option SlotImg) := [some { digest := 0, signed := true, svn := 0 }, none]
  /-- Debug openings and the OWNER of DRAM training in the flash configuration records (R366, R472). -/
  dbgCount : Nat := 0
  trnOwner : Nat := 0
  /-- HEALTHY has come in this boot (R458). -/
  healthy : Bool := false
  /-- An update under way: the image and the slot it goes to (R457). -/
  update : Option (SlotImg × Nat) := none
  sealed_ : Option Sealed := none
  /-- HASH, IBECC and PAGE_DEFAULT of the DRAM settings that Ember entry kept; none where DRAM was not trained (R367). -/
  drcKept : Option (Nat × Nat × Nat × Tab TrnRes) := none
  /-- The always-on secure register holds a key (R451). -/
  sealKey : Bool := false
  /-- Straps as read last (R520), and RESET_N held low (R518). -/
  straps : Nat := 15
  resetLow : Bool := false
  /-- The write locks on tile memories 21 and 22 are set (R446, R447). -/
  locks : Bool := false
  /-- The image whose components were loaded last. -/
  booted : Option JRec := none
  deriving DecidableEq, Repr

/-- A stream DMA burst in flight (R238, R239): the XFER word (by serial) and descriptor it belongs to, where its bytes go,
its data or, for a tensor copy, the destination descriptor and elements, the epoch of its credit, and its 4 KiB block. -/
structure DmaBurst where
  word : Nat
  desc : Nat
  dst : Nat
  data : Bytes
  /-- The source address, and the page hint that its requests carry (R253). -/
  src : Nat := 0
  page : Nat := 0
  /-- A burst of a CSLOAD, the only kind that writes a control store (R184). -/
  cs : Bool := false
  tdst : Option Nat := none
  /-- The swizzle mask of a tensor destination (R252). -/
  mask : Nat := 0
  els : Tab Nat := []
  /-- Where the destination row is written whole: the bytes or elements of the row, of which this burst brings some; else 0 (R230, R243). -/
  need : Nat := 0
  /-- Its data has arrived, and the row waits for the rest. -/
  here : Bool := false
  win : Nat := 0
  epoch : Nat := 0
  blk : Option Nat := none
  deriving DecidableEq, Repr

/-- A 4 KiB block under inline cryptography (R254 to R258): ciphertext so far by offset, destination ranges written, and
whether its check has passed. -/
structure DmaBlock where
  word : Nat
  desc : Nat
  daddr : Nat
  idx : Nat
  slot : Nat
  tagAt : Nat
  nonce : Bytes
  encrypt : Bool
  cipher : Tab Bytes := []
  dsts : List (Nat × Nat) := []
  left : Nat := 0
  ok : Bool := false
  deriving DecidableEq, Repr

/-- The transfer descriptor in force of a stream DMA engine (R241): its index in the word, its address, its bytes with the
register offsets added, bytes or lines issued, the tile memory its credits are for, and the status a refusal gave it. -/
structure DmaXfer where
  idx : Nat
  addr : Nat
  raw : Bytes
  pos : Nat := 0
  tile : Option Nat := none
  status : Nat := 0
  nonce : Bytes := []
  /-- The transfer has begun: its header or its two tensor descriptors have been read (R225, R247, R256). -/
  opened : Bool := false
  /-- Bursts issued of the destination line at `pos` of a tensor copy (R238). -/
  sub : Nat := 0
  deriving DecidableEq, Repr

/-- An XFER word in force or awaiting its completions (R215, R250): serial, control-store address, descriptor addresses to
come, register offsets, tag limit, completion queue, emitted queue, first status that is not OK with its descriptor, bytes
written, and whether every burst has been issued. -/
structure DmaWord where
  serial : Nat
  pc : Nat
  descs : List Nat
  next : Nat := 0
  srcOff : Int
  dstOff : Int
  taglim : Nat
  post : Option Nat
  emit : Option Nat
  status : Nat := 0
  bad : Nat := 0xFFFF
  bytes : Nat := 0
  issued : Bool := false
  deriving DecidableEq, Repr

/-- A stream DMA engine (R238 to R258): its words, oldest first, the descriptor in force, bursts and blocks in flight, tags
of a stopped engine not yet freed (R251), and commit bits to set (word, descriptor index, descriptor address; R244). -/
structure DmaEng where
  words : List DmaWord := []
  xfer : Option DmaXfer := none
  bursts : List DmaBurst := []
  blocks : List DmaBlock := []
  orphan : Nat := 0
  commits : List (Nat × Nat × Nat) := []
  /-- Serials of words whose cairn is withheld, and transfers (word, descriptor) that ended with a status of 1 to 4 (R249). -/
  noCairn : List Nat := []
  ended : List (Nat × Nat) := []
  disablePending : Bool := false
  deriving DecidableEq, Repr

/-- A footpath access (R259): master code, partition, address, length, and data of a write. -/
structure FpAcc where
  code : Nat
  part : Nat
  addr : Nat
  len : Nat
  wr : Option Bytes
  deriving DecidableEq, Repr

/-- The footpath (R259 to R261): accesses that hold a tag and wait for a credit, masters granted a tag and masters waiting
for one in order of arrival, and the master served last. -/
structure Fp where
  held : List FpAcc := []
  granted : List Nat := []
  waiting : List Nat := []
  last : Nat := 63
  deriving DecidableEq, Repr

/-- What a lay-by saves of a step beside the blocks that the mover encrypts (R276, R277): the engines' states, the array's
operation, stationary sets and slots, the accumulator vectors whose tags are set, the drain, the stream DMA engines, and the
windows (tile memory, window, base row, rows). -/
structure Saved where
  engs : List (Nat × Engine)
  arr : Arr
  accKeys : List Nat
  drn : Drn
  dmas : List (Nat × DmaEng)
  wins : List (Nat × Nat × Nat × Nat)
  deriving DecidableEq, Repr

/-- An elastic step (R265 to R267): its identifier, completion queue, partition, engines by control-store index with their first
addresses and preset records, lay-bys entered, array time charged in ns, whether it runs on spill, and its saved state while
it is parked. -/
structure Step where
  id : Nat
  cq : Nat
  part : Nat
  engs : List (Nat × Nat × Nat)
  laybys : Nat := 0
  array : Nat := 0
  spill : Bool := false
  saved : Option Saved := none
  deriving DecidableEq, Repr

/-- The scheduling of elastic steps and the lay-by machine (R265 to R287). -/
structure Sch where
  /-- The step that holds the array sequencer, and since when it has been charged. -/
  run : Option Step := none
  since : Nat := 0
  parked : List Step := []
  /-- Steps submitted and not yet started, in queue order. -/
  submitted : List Step := []
  /-- Steps that have ended and whose completion is to be posted, with its status, oldest first (R267). -/
  ended : List (Step × Nat) := []
  /-- The partition that last held the array. -/
  last : Nat := 7
  /-- 0 none, 1 entering, 2 exiting, 3 waiting for a safe point (LBY_STAT.STATE), and since when it waits. -/
  phase : Nat := 0
  reqAt : Nat := 0
  /-- A request that came during an entry or exit (R274). -/
  again : Bool := false
  /-- The states that the step's engines had when the entry froze them. -/
  frozen : List (Nat × EngSt) := []
  wins : List (Nat × Nat × Nat × Nat) := []
  /-- The partition whose parked step is to be resumed. -/
  resume : Option Nat := none
  /-- Shares in force, in µs, and the meters of the tick, in ns (R268). -/
  share : List Nat := List.replicate 8 0
  meter : List Nat := List.replicate 8 0
  /-- Shadow preset records (R271): plan, index, record, and when it may be swapped in. -/
  shadows : List (Nat × Nat × Bytes × Nat) := []
  /-- The lay-by keys of the partitions (R277, R470). -/
  keys : Tab (Option KeySlot) := []
  /-- Starts of the compute die, each of which creates partition 0 with a lay-by key of its own (R277, R462). -/
  key0 : Nat := 0
  deriving DecidableEq, Repr

/-- A frame that camera intake has open or has closed and not yet reported (R294 to R300): its counter, sensor frame number,
FLAGS of R298, epochs, DROP_REASON, times, counts, first ring row, bound item (plan index, ITEM_ID, tick, deadline). -/
structure CamFrame where
  frame : Nat
  fn : Nat
  flags : Nat := 0
  epoch : Nat := 0
  conf : Nat := 0xFFFF
  reason : Nat := 0
  fsTime : Nat := 0
  feTime : Nat := 0
  lines : Nat := 0
  crc : Nat := 0
  hdr : Nat := 0
  len : Nat := 0
  rbFirst : Nat := 0
  admitted : Bool := false
  item : Option (Nat × Nat × Nat × Nat) := none
  /-- The first embedded-data line has come (R305). -/
  emb : Bool := false
  deriving DecidableEq, Repr

/-- A write set that has been posted (R302): first entry, entries, NOEPOCH. -/
structure WsPost where
  first : Nat
  count : Nat
  noEpoch : Bool := false
  deriving DecidableEq, Repr

/-- A checked register (R305): target, register, offset in the embedded line, value bytes, value. -/
structure CheckReg where
  dev : Nat
  reg : Nat
  off : Nat
  bytes : Nat
  value : Nat
  deriving DecidableEq, Repr

/-- A settings epoch (R304): its number and the previous one, the first frame it is believed in force from, the first frame
without WS_SPLIT, whether its set failed, whether it has CHECK entries, and the checked values as of it. -/
structure Epoch where
  num : Nat
  prev : Nat
  from_ : Nat
  split : Nat
  failed : Bool := false
  check : Bool := false
  vals : List CheckReg := []
  prevVals : List CheckReg := []
  deriving DecidableEq, Repr

/-- A direct camera context (R290 to R296, R302 to R305). -/
structure CamCtx where
  counter : Nat := 0
  /-- Ring rows that hold lines not yet released; FREE is RB_ROWS less these (R295). -/
  used : Nat := 0
  /-- Ring row that follows the last admitted frame (R294). -/
  next : Nat := 0
  cur : Option CamFrame := none
  lastFs : Option Nat := none
  interval : Option Nat := none
  posted : List WsPost := []
  /-- The vertical blanking (R303): its frame, its start, and whether a set has been served or deferred in it. -/
  blank : Option (Nat × Nat × Bool) := none
  epochs : List Epoch := []
  lastEpoch : Nat := 0
  deriving DecidableEq, Repr

/-- The write set a port's sequencer has started (R303, R304): its context, the set, entries done, attempts of the entry in
progress that were not acknowledged, its epoch, and whether a frame start has cut it: 1 while the transaction in progress
finishes, 2 when the rest waits for the next blanking. -/
structure WsRun where
  ctx : Nat
  set : WsPost
  done : Nat := 0
  tries : Nat := 0
  epoch : Option Nat := none
  hold : Nat := 0
  deriving DecidableEq, Repr

/-- An entry of a port's intake FIFO (R296, R297): a line with its first ring row, or a frame status word behind its frame's
lines. -/
inductive CamFifo where
  | line (ctx frame row : Nat) (data : Bytes)
  | status (ctx : Nat) (f : CamFrame)
  deriving DecidableEq, Repr

/-- A trigger output (R306): pulse starts to come, and the end of the pulse it drives. -/
structure Trig where
  sched : List Nat := []
  endAt : Option Nat := none
  deriving DecidableEq, Repr

/-- Camera intake and sensor control (R288 to R309). -/
structure Cam where
  /-- Context records at 0x400 on and write-set memories at 0x1000 on, by offset in the camera block (R291, R302). -/
  mem : Tab Byte := []
  ctx : Tab CamCtx := []
  fifo : List (List CamFifo) := List.replicate 4 []
  run : List (Option WsRun) := List.replicate 4 none
  /-- When CAM_LINK_ERROR was last raised for each port (R299). -/
  linkErrAt : List (Option Nat) := List.replicate 4 none
  /-- Plan indices of intake items that have bound a frame (R300). -/
  bound : List Nat := []
  /-- Release notices on their way to intake: context and rows (R295). -/
  notices : List (Nat × Nat) := []
  trig : List Trig := List.replicate 16 {}
  deriving DecidableEq, Repr

/-- A lane of a frame (R319 to R324): whether a pipe has taken it, the pipe that runs its program, the fields of its LANE word once that has issued, rows
completed, and whether it has ended. -/
structure LaneSt where
  taken : Bool := false
  pipe : Option Nat := none
  issued : Bool := false
  x0 : Nat := 0
  lw : Nat := 0
  vl : Nat := 0
  vr : Nat := 0
  vt : Nat := 0
  vb : Nat := 0
  stages : Nat := 0
  rows : Nat := 0
  /-- The LANE word is no longer in force. -/
  fin : Bool := false
  deriving DecidableEq, Repr

/-- A frame that the ISP has admitted and not yet done with (R318 to R328). -/
structure IspFrame where
  ctx : Nat
  frame : Nat
  dt : Nat
  part : Nat
  fed : Bool
  rbFirst : Nat := 0
  /-- Raw-buffer rows of a line, lines that have arrived, lines released. -/
  rpl : Nat := 0
  linesIn : Nat := 0
  released : Nat := 0
  fsTime : Nat := 0
  word : Option Bytes := none
  /-- The item that took it: plan index, ITEM_ID, tick. -/
  item : Option (Nat × Nat × Nat) := none
  auto : Bool := false
  mask : Nat := 0
  deadline : Nat := 0
  lanes : List LaneSt := []
  gains : Option (Nat × Nat × Nat) := none
  hist : Tab Nat := []
  zones : Tab Nat := []
  focus : Tab Nat := []
  /-- Its lanes were stopped; lines still to come are released as they arrive (R324). -/
  dead : Bool := false
  deriving DecidableEq, Repr

/-- An ISP context (R312 to R314, R330, R331): the address of its record, the record and tables read when it was enabled, its
gains, the exposure loop's LINES and GAIN, the frame fed last, and a pending disable. -/
structure IspCtx where
  recAddr : Nat := 0
  record : Bytes := []
  tables : Bytes := []
  wb : Nat × Nat × Nat := (0, 0, 0)
  ae : Nat × Nat := (0, 0)
  lastFed : Nat := 0
  disabling : Bool := false
  deriving DecidableEq, Repr

/-- An ISP pipe (R319 to R322): the lane it runs (context, frame, lane), the context whose registers it holds, the partition
of its last lane, and a pending write of 0 to its ENABLE. -/
structure IspPipe where
  lane : Option (Nat × Nat × Nat) := none
  held : Option Nat := none
  part : Option Nat := none
  disablePending : Bool := false
  deriving DecidableEq, Repr

/-- The image pipeline (R310 to R332), with the raw buffer by byte. -/
structure Isp where
  raw : Tab Byte := []
  ctx : Tab IspCtx := []
  frames : List IspFrame := []
  pipes : List IspPipe := List.replicate 4 {}
  /-- Plan indices of items that have taken a frame (R318). -/
  taken : List Nat := []
  deriving DecidableEq, Repr

/-- The stereo engine (R333 to R336) and the crop-and-resize unit (R216 to R219): partitions of their last words, the boxes
the CROP word in force has written, and pending writes of 0 to ENABLE. -/
structure Vis where
  strPart : Option Nat := none
  crsPart : Option Nat := none
  boxes : Nat := 0
  crsDisable : Bool := false
  /-- The DISP word in force has passed its checks, and its band is in progress (R221, R222). -/
  band : Bool := false
  deriving DecidableEq, Repr

/-- A codec job that runs (R343, R344): its descriptor, queue and partition, the plan item it is bound to, and whether it holds
both cores of its kind. -/
structure CdcJob where
  desc : Bytes
  part : Nat
  item : Option Nat := none
  pair : Bool := false
  /-- A paired decode that runs on one core (R340). -/
  single : Bool := false
  deriving DecidableEq, Repr

/-- The codecs (R339 to R349): jobs by core (0, 1 encoders; 2, 3 decoders), streams whose next encode is a key picture (R346),
items that have bound an entry, the partition of each core's last job, cores whose ENABLE is to be cleared. -/
structure Cdc where
  jobs : List (Option CdcJob) := List.replicate 4 none
  keyNext : List Nat := []
  bound : List Nat := []
  prev : List (Option Nat) := List.replicate 4 none
  disabling : Nat := 0
  deriving DecidableEq, Repr

/-- A row's activations in the current refresh window (R356): the true count, the count the tracker last reported, and the
requesters that activated it. -/
structure RowAct where
  count : Nat := 0
  rep : Nat := 0
  reqs : List (Nat × Nat × Nat) := []
  deriving DecidableEq, Repr

/-- The DRAM controllers (R350 to R376). -/
structure Drc where
  xts : List Xts := []
  /-- The open row of a bank by `16 * channel + bank`: row plus 1 and the time of its activation (R362). -/
  open_ : Tab (Nat × Nat) := []
  /-- Activated rows by `65536 * (16 * channel + bank) + row` (R356). -/
  acts : Tab RowAct := []
  /-- When DRAM_ROW_THROTTLE was last raised for a requester (R357). -/
  thrAt : Tab (Option Nat) := []
  /-- Refreshes a bank has postponed (positive) or pulled in (negative) (R359, R361). -/
  refr : Tab Int := []
  /-- When DRAM_REFRESH_FORCED was last raised for a channel (R360). -/
  forcedAt : Tab (Option Nat) := []
  /-- Consecutive skewed windows of each channel (R355). -/
  skew : List Nat := List.replicate 16 0
  /-- Channels on which a training helper runs (R364). -/
  trnRun : List Nat := []
  trn : Tab TrnRes := []
  /-- The ZERO that runs and those queued behind it (R373): base and length in bytes, and whether it is the teardown's
  (R474). -/
  zero : List (Nat × Nat × Bool) := []
  deriving DecidableEq, Repr

/-- A frame held on the port die (R384): its session, port and bytes, the time of its first bit, and since when it is held. -/
structure NetHeld where
  sess : Nat
  port : Nat
  data : Bytes
  rx : Nat
  since : Nat
  deriving DecidableEq, Repr

/-- A session at work (R383, R384): the next receive slot, the slots in use, the drop counter, when NET_SESSION_DROP was last
raised for it. -/
structure NetSess where
  next : Nat := 0
  used : Nat := 0
  drops : Nat := 0
  dropAt : Option Nat := none
  deriving DecidableEq, Repr

/-- A GVSP block being received (R387): its block ID, FRAME and leader time, the packet that comes next, its pixels so far,
and its DROP_REASON. -/
structure GvspBlk where
  block : Nat
  frame : Nat
  fsTime : Nat
  next : Nat := 1
  pix : List Nat := []
  reason : Nat := 0
  deriving DecidableEq, Repr

/-- A member of the domain as its master knows it (R391, R394, R396): index, SENDER, FUSED_MHZ, ticks in a row without a
REPORT. -/
structure MepMember where
  idx : Nat
  id : Nat
  fused : Nat
  missing : Nat := 0
  deriving DecidableEq, Repr

/-- The Milestone Exchange Protocol (R388 to R397). -/
structure Mep where
  /-- ORIGIN in ns and the period in µs, once a schedule gives them (R388). -/
  origin : Option Int := none
  period : Nat := 0
  /-- The master's members, itself not among them. -/
  members : List MepMember := []
  /-- The master followed: priority and SENDER. -/
  master : Option (Nat × Nat) := none
  /-- The schedule last received or sent: tick, edge time, ceiling. -/
  sched : Option (Nat × Nat × Nat) := none
  /-- REPORTs that have come: tick, member, PACE_MHZ, AVAIL_MHZ. -/
  reports : List (Nat × Nat × Nat × Nat) := []
  streak : Nat := 0
  /-- Edges in a row without a SCHEDULE (R392). -/
  missed : Nat := 0
  /-- A master that has heard a better one sends one more SCHEDULE (R392). -/
  yield_ : Bool := false
  /-- HELLOs heard: SENDER, priority, when (R392). -/
  hellos : List (Nat × Nat × Nat) := []
  /-- When the device last sent HELLO. -/
  helloAt : Option Nat := none
  /-- The last message sent, from the header of R389 on. -/
  out : Bytes := []
  deriving DecidableEq, Repr

/-- A registered job (R398): the address of its barrier record, the step last reported, the time at which the wait for its
release ends, and the ARRIVEs seen (member, step). -/
structure Barrier where
  addr : Nat
  step : Nat := 0
  wait : Option Nat := none
  arrived : List (Nat × Nat) := []
  deriving DecidableEq, Repr

/-- A learned address of the switch (R379): VLAN, MAC address, port, and when a frame from it came last. -/
structure FdbEntry where
  vlan : Nat
  mac : Nat
  port : Nat
  seen : Nat
  deriving DecidableEq, Repr

/-- A frame that waits in a staging buffer for its session's ring in DRAM (R352): its session and port, its length, slot and receive time,
and the buffer. -/
structure NetStaged where
  sess : Nat
  port : Nat
  len : Nat
  slot : Nat
  rx : Nat
  buf : Nat
  deriving DecidableEq, Repr

/-- The network (R377 to R400). -/
structure Net where
  /-- Frames that wait in tile memory 23, in order (R352). -/
  staged : List NetStaged := []
  /-- Session records, by offset (R382). -/
  mem : Tab Byte := []
  sess : Tab NetSess := []
  held : List NetHeld := []
  gvsp : Tab (Option GvspBlk) := []
  /-- Frames dropped at each port (R378), and the frame that the ingress engine sent last: the ports it is queued at, bytes, status (R385). -/
  portDrops : List Nat := List.replicate 6 0
  lastTx : Option (List Nat × Bytes × Nat) := none
  /-- The switch (R379): the member ports of each VLAN, the learned addresses, and the frames queued by port and traffic class. -/
  vlans : Tab Nat := []
  fdb : List FdbEntry := []
  egress : Tab (List Bytes) := []
  /-- The frames that went out last, with their ports, in order. -/
  wire : List (Nat × Bytes) := []
  /-- Frames dropped by each stream filter, stream gate and flow meter (R379). -/
  qciDrops : Tab Nat := []
  /-- The staging buffer of tile memory 23 that the next packet takes, and the partition of each buffer's last packet (R31). -/
  stage : Nat := 0
  stagePart : Tab (Option Nat) := []
  /-- Gate control lists in force and to come, by port (R381). -/
  gcl : List Bytes := List.replicate 6 []
  gclNext : List (Option Bytes) := List.replicate 6 none
  /-- When the last Sync came, and holdover (R380). -/
  syncAt : Option Nat := none
  holdover : Bool := false
  /-- Time still slews to the grandmaster's after holdover (R380). -/
  slew : Bool := false
  mep : Mep := {}
  bars : Tab (Option Barrier) := []
  deriving DecidableEq, Repr

/-- A ring pair (R405 to R408): indices of the command ring, entries the completion ring holds unreleased, its write index and
PHASE, the completion of the running command (its 32 bytes and NOIRQ), completions held, whether a RING_ERR stopped it, and the
range of a HELLO whose completion is not yet written (R411, R418). -/
structure Ring where
  head : Nat := 0
  tail : Nat := 0
  cqHead : Nat := 0
  cqTail : Nat := 0
  cqUsed : Nat := 0
  phase : Bool := true
  running : Option (Bytes × Bool) := none
  held : List (Bytes × Bool) := []
  err : Bool := false
  hello : Option (Nat × Nat) := none
  deriving DecidableEq, Repr

/-- A PCIe function (R401 to R419): its rings and its milestone ring (host address, slots; R415). -/
structure HifFn where
  rings : List Ring := List.replicate 4 {}
  milestone : Option (Nat × Nat) := none
  deriving DecidableEq, Repr

/-- A partition paused for host triage (R417): the record, when the pause began, and whether a FAULT_RESUME ends it at the next
edge. -/
structure Pause where
  part : Nat
  rec_ : FaultRec
  since : Nat
  resume : Bool := false
  deriving DecidableEq, Repr

/-- The endpoint and the host command interface; function 0 is the PF, 1 to 8 are VF 0 to 7. -/
structure Hif where
  fns : List HifFn := List.replicate 9 {}
  linkUp : Bool := false
  perst : Bool := false
  paused : List Pause := []
  /-- The completion written last (function, ring, slot, bytes) and the MSI-X vector sent last (function, vector). -/
  posted : Option (Nat × Nat × Nat × Bytes) := none
  msix : Option (Nat × Nat) := none
  /-- The milestone record written last to a host ring: function, slot, bytes. -/
  milestone : Option (Nat × Nat × Bytes) := none
  deriving DecidableEq, Repr

/-- The kiln (R420 to R442). Powers are in mW, temperatures in quarters of a degree. -/
structure Kiln where
  /-- The integral term and the last `d` of R424, the fractions in force by group, and those computed at the last interval. -/
  acc : Int := 0
  d : Nat := 0
  dg : List Nat := [0, 0, 0, 0]
  dNext : List Nat := [0, 0, 0, 0]
  /-- The window of R426 and R430: `d` has been at DMAX throughout, the HC fraction 0 throughout; windows in a row fit to step
  up; the last window met the condition of R426 with every core at its floor. -/
  atMax : Bool := true
  hcZero : Bool := true
  calm : Nat := 0
  floored : Bool := false
  unheldAt : Option Nat := none
  /-- Clock domains whose period is doubled (R427), and when DROOP_SUSTAINED was last raised for each. -/
  droop : List Nat := []
  droopAt : Tab (Option Nat) := []
  /-- The ARRAY point in force, the highest of the window of R431, and when its last step ended; the host cores' points. -/
  point : Nat := 10
  top : Nat := 10
  stepAt : Option Nat := none
  hcPoint : List Nat := List.replicate 8 12
  hcUp : List Bool := List.replicate 8 false
  /-- What the tick has gathered so far (R432): lowest avail_w, lowest avail_w above the margin, highest fraction. -/
  avail : Option Nat := none
  pace : Option Nat := none
  peak : Nat := 0
  /-- The 24 readings, a warning given and not rearmed, the thermal cap in units of 0.25 W, when it last moved, and since when
  every sensor has been cool (R433, R434). -/
  temps : List Int := List.replicate 24 0
  warned : Bool := false
  cap : Nat := 300
  capAt : Option Nat := none
  coolSince : Option Nat := none
  /-- A trip or a supply fault that is not over (R435, R436), and since when VIN has been out of range, faulty, good. -/
  tripped : Bool := false
  vinFault : Bool := false
  rangeSince : Option Nat := none
  rangeAt : Option Nat := none
  badSince : Option Nat := none
  goodSince : Option Nat := none
  /-- Rails as sampled last: mV and units of 10 mA (R421). -/
  rails : List (Nat × Nat) := List.replicate 19 (0, 0)
  /-- Ember: 0 running, 1 entering, 2 resting (R437, R438), and since when it rests. -/
  ember : Nat := 0
  emberAt : Nat := 0
  deriving DecidableEq, Repr

/-- The SFP28 cages and PPS_OUT (R521, R522): MOD_ABS low, VMOD latched off; and the end of the PPS pulse. -/
structure Pins where
  modIn : List Bool := List.replicate 4 false
  latched : List Bool := List.replicate 4 false
  ppsEnd : Option Nat := none
  deriving DecidableEq, Repr

/-- A memory that no access of the map reaches, and whose layout the specification leaves to its unit (R31, R32): the partitions
whose data its valid tags mark, and how often its contents have changed. Byte `i` of memory `b` is `Config.bufByte b gen i` while a
tag is set, and 0 otherwise (log entry 192). -/
structure Buf where
  parts : List Nat := []
  gen : Nat := 0
  deriving DecidableEq, Repr

/-- The state of the block. -/
structure State where
  /-- Commands waiting, first in first out. -/
  pending : List Instr := []
  /-- How many free values have been drawn (the model's own field, log entry 2). -/
  free : Nat := 0
  /-- 802.1AS time of the port die and its copy in the compute die, in ns (R38, R383). -/
  timeP : Nat := 0
  timeC : Nat := 0
  /-- The bytes of the physical map (R33): DRAM, Map Store, tile memories, control stores, Ember memory. -/
  mem : Tab Byte := []
  /-- The stored fields of the registers, by `32 * address + lowest bit`. -/
  regs : Tab Nat := []
  /-- Bytes the last read access returned to its master, and its error completion (R29, R152). -/
  rd : List Byte := []
  rdErr : Bool := false
  rlogHead : Nat := 0
  rlog : Tab (Option RlogEntry) := []
  flt : Flt := {}
  cwy : Cwy := {}
  pwr : Pwr := {}
  hx : List Engine := List.replicate 12 {}
  qm : Tab Queue := []
  tick : TickU := {}
  crd : Crd := {}
  mapu : MapU := {}
  parts : List Part := [{ st := 4, cores := 0x0F, banks := 0x0000FFFF, qBase := 0, qCount := 4096, ispCtx := 0x0000FFFF, regions := [(0, 0x400000000)], sBase := 0, sCount := 1024, coresOn := true }, {}, {}, {}, {}, {}, {}, {}]
  sec : Sec := {}
  fuse : Fuse := {}
  arr : Arr := {}
  drn : Drn := {}
  drc : Drc := {}
  dma : List DmaEng := [{}, {}, {}, {}]
  /-- A descriptor waiting in the boot port of stream DMA engine 0 (R245). -/
  bootPort : Option Bytes := none
  fp : Fp := {}
  sch : Sch := {}
  cam : Cam := {}
  isp : Isp := {}
  vis : Vis := {}
  cdc : Cdc := {}
  net : Net := {}
  hif : Hif := {}
  kiln : Kiln := {}
  emn : Emn := {}
  pins : Pins := {}
  /-- Line buffers of ISP pipes 0 to 3, stereo buffers (4), codec buffers of cores 0 to 3 (5 to 8), caches of host cores 0 to 7
  (9 to 16), L2 (17), Emino secure SRAM (18). -/
  bufs : Tab Buf := []
  deriving DecidableEq, Repr

/-- The block right after reset (R461, R510): every register at its reset value, nothing waiting. Where the specification gives
no value, the log entries of NOTES.md name it. -/
def State.reset : State := {}

end Sys2Proof.Machine
end

