-- ==== Sys2Proof/Machine/RegMap.lean ====
section
/-! DEFINITION. The register map: the address of every register (R510, R511) and every field of the register tables
(bit numbers, access code and reset value as the tables give them; a fused reset value is that of the example part of
log entry 3). The tables stand in R24, R40, R96, R97, R128, R156, R195, R196, R264, R287, R307, R308, R338, R349, R352, R376,
R400, R419, R442, R460, R480, R501, R504 and R509. -/

namespace Sys2Proof.Machine

/-- Base of a block window (R510). -/
def blkBase (port : Bool) (i : Nat) : Nat := (if port then 0x002800000000 else 0x002000000000) + i * 0x10000

/-- Block and bank offset of the registers of Hexarel engine `e`, by control-store index (R157, R510). -/
def hxrBank (e : Nat) : Nat :=
  if e < 2 then blkBase false (1 + e) + 0x100
  else if e < 6 then blkBase false (5 + e) + 0x100
  else if e = 6 then blkBase false 12 + 0x100
  else if e < 11 then blkBase false 13 + 0x100 + 0x20 * (e - 7)
  else blkBase false 14 + 0x100

namespace Reg

/-- CWY_STAT (R24). -/
def CWY_STAT (p : Bool) : Nat := blkBase p (if p then 0 else 19) + 0x14
/-- TICK_CTL (R40). -/
def TICK_CTL : Nat := 0x002000100010
/-- TICK_STAT (R40). -/
def TICK_STAT : Nat := 0x002000100014
/-- TICK_NUM_LO (R40). -/
def TICK_NUM_LO : Nat := 0x002000100020
/-- TICK_NUM_HI (R40). -/
def TICK_NUM_HI : Nat := 0x002000100024
/-- ARR_CAP (R96). -/
def ARR_CAP : Nat := 0x002000010008
/-- ARR_CTL (R96). -/
def ARR_CTL : Nat := 0x002000010010
/-- ARR_STAT (R96). -/
def ARR_STAT : Nat := 0x002000010014
/-- ARR_CHK_CTL (R96). -/
def ARR_CHK_CTL : Nat := 0x002000010020
/-- ARR_CHK_STAT (R96). -/
def ARR_CHK_STAT : Nat := 0x002000010024
/-- ARR_COL_FUSEj (R96). -/
def ARR_COL_FUSE (j : Nat) : Nat := 0x002000010040 + 0x4 * j
/-- ARR_COL_RETIREDj (R96). -/
def ARR_COL_RETIRED (j : Nat) : Nat := 0x002000010060 + 0x4 * j
/-- ARR_COL_RETIRE_REQ (R96). -/
def ARR_COL_RETIRE_REQ : Nat := 0x002000010028
/-- ARR_COLCNT_SEL (R96). -/
def ARR_COLCNT_SEL : Nat := 0x00200001002c
/-- ARR_COLCNT (R96). -/
def ARR_COLCNT : Nat := 0x002000010030
/-- ARR_UTIL_ISSUED_LO (R97). -/
def ARR_UTIL_ISSUED_LO : Nat := 0x002000010080
/-- ARR_UTIL_ISSUED_HI (R97). -/
def ARR_UTIL_ISSUED_HI : Nat := 0x002000010084
/-- ARR_UTIL_USEFUL_LO (R97). -/
def ARR_UTIL_USEFUL_LO : Nat := 0x002000010088
/-- ARR_UTIL_USEFUL_HI (R97). -/
def ARR_UTIL_USEFUL_HI : Nat := 0x00200001008c
/-- ARR_UTIL_STALL_LO (R97). -/
def ARR_UTIL_STALL_LO : Nat := 0x002000010090
/-- ARR_UTIL_STALL_HI (R97). -/
def ARR_UTIL_STALL_HI : Nat := 0x002000010094
/-- DRN_CTL (R128). -/
def DRN_CTL : Nat := 0x002000020010
/-- DRN_QMODE (R128). -/
def DRN_QMODE : Nat := 0x002000020020
/-- DRN_LFSR_SEED (R128). -/
def DRN_LFSR_SEED : Nat := 0x002000020024
/-- DRN_STAT (R128). -/
def DRN_STAT : Nat := 0x002000020014
/-- DRN_SAT_CNT (R128). -/
def DRN_SAT_CNT : Nat := 0x002000020028
/-- MAP_CTL (R156). -/
def MAP_CTL : Nat := 0x002000040010
/-- MAP_STAT (R156). -/
def MAP_STAT : Nat := 0x002000040014
/-- MAP_AOj (R156). -/
def MAP_AO (j : Nat) : Nat := 0x002000040020 + 0x4 * j
/-- CRD_CTL (R156). -/
def CRD_CTL : Nat := 0x002000050010
/-- CRD_STAT (R156). -/
def CRD_STAT : Nat := 0x002000050014
/-- CRD_TIMEOUT (R156). -/
def CRD_TIMEOUT : Nat := 0x002000050020
/-- CRD_WINSEL (R156). -/
def CRD_WINSEL : Nat := 0x002000050024
/-- CRD_WINCFG (R156). -/
def CRD_WINCFG : Nat := 0x002000050028
/-- CRD_WINCTL (R156). -/
def CRD_WINCTL : Nat := 0x00200005002c
/-- CRD_WINSTAT (R156). -/
def CRD_WINSTAT : Nat := 0x002000050030
/-- CRD_DROPCNT (R156). -/
def CRD_DROPCNT : Nat := 0x002000050034
/-- ACC_STAT (R156). -/
def ACC_STAT : Nat := 0x002000030014
/-- HXR_CAP (R195). -/
def HXR_CAP (e : Nat) : Nat := hxrBank e + 0x0
/-- HXR_STAT (R195). -/
def HXR_STAT (e : Nat) : Nat := hxrBank e + 0x4
/-- HXR_WAIT (R195). -/
def HXR_WAIT (e : Nat) : Nat := hxrBank e + 0x8
/-- HXR_START (R195). -/
def HXR_START (e : Nat) : Nat := hxrBank e + 0xc
/-- HXR_PRESET_LO (R195). -/
def HXR_PRESET_LO (e : Nat) : Nat := hxrBank e + 0x10
/-- HXR_PRESET_HI (R195). -/
def HXR_PRESET_HI (e : Nat) : Nat := hxrBank e + 0x14
/-- QM_QSEL (R196). -/
def QM_QSEL : Nat := 0x002000060020
/-- QM_QCFG (R196). -/
def QM_QCFG : Nat := 0x002000060024
/-- QM_QSTAT (R196). -/
def QM_QSTAT : Nat := 0x002000060028
/-- DMA_CTL (R264). -/
def DMA_CTL (e : Nat) : Nat := 0x002000070010 + 0x10000 * e
/-- DMA_STAT (R264). -/
def DMA_STAT (e : Nat) : Nat := 0x002000070014 + 0x10000 * e
/-- FP_STAT (R264). -/
def FP_STAT : Nat := 0x0020000b0014
/-- SCH_SHAREp (R287). -/
def SCH_SHARE (p : Nat) : Nat := 0x002000010200 + 0x8 * p
/-- SCH_METERp (R287). -/
def SCH_METER (p : Nat) : Nat := 0x002000010204 + 0x8 * p
/-- LBY_CTL (R287). -/
def LBY_CTL : Nat := 0x002000010240
/-- LBY_CMD (R287). -/
def LBY_CMD : Nat := 0x002000010244
/-- LBY_BASEp_LO (R287). -/
def LBY_BASE_LO (p : Nat) : Nat := 0x002000010280 + 0x8 * p
/-- LBY_BASEp_HI (R287). -/
def LBY_BASE_HI (p : Nat) : Nat := 0x002000010284 + 0x8 * p
/-- LBY_STAT (R287). -/
def LBY_STAT : Nat := 0x002000010248
/-- CAM_CTL (R307). -/
def CAM_CTL : Nat := 0x002800010010
/-- CAM_STAT (R307). -/
def CAM_STAT : Nat := 0x002800010014
/-- CAM_PORTn_CFG (R308). -/
def CAM_PORT_CFG (n : Nat) : Nat := 0x002800010020 + 0x4 * n
/-- CAM_PORTERRn (R308). -/
def CAM_PORTERR (n : Nat) : Nat := 0x002800010030 + 0x4 * n
/-- CAM_PORTn_STAT (R308). -/
def CAM_PORT_STAT (n : Nat) : Nat := 0x002800010040 + 0x4 * n
/-- CAM_WSCMD (R308). -/
def CAM_WSCMD : Nat := 0x002800010050
/-- CAM_WSSTATn (R308). -/
def CAM_WSSTAT (n : Nat) : Nat := 0x002800010080 + 0x4 * n
/-- TRG_CFGn (R308). -/
def TRG_CFG (n : Nat) : Nat := 0x002800010100 + 0x8 * n
/-- TRG_OFFn (R308). -/
def TRG_OFF (n : Nat) : Nat := 0x002800010104 + 0x8 * n
/-- ISP_CAP (R338). -/
def ISP_CAP : Nat := 0x0020000d0008
/-- ISP_CTL (R338). -/
def ISP_CTL : Nat := 0x0020000d0010
/-- ISP_CTXEN (R338). -/
def ISP_CTXEN : Nat := 0x0020000d0020
/-- ISP_CTXSEL (R338). -/
def ISP_CTXSEL : Nat := 0x0020000d0024
/-- ISP_CTXREC_LO (R338). -/
def ISP_CTXREC_LO : Nat := 0x0020000d0028
/-- ISP_CTXREC_HI (R338). -/
def ISP_CTXREC_HI : Nat := 0x0020000d002c
/-- ISP_WB_RG (R338). -/
def ISP_WB_RG : Nat := 0x0020000d0030
/-- ISP_WB_B (R338). -/
def ISP_WB_B : Nat := 0x0020000d0034
/-- ISP_FEED (R338). -/
def ISP_FEED : Nat := 0x0020000d0038
/-- ISP_STAT (R338). -/
def ISP_STAT : Nat := 0x0020000d0014
/-- STR_CTL (R338). -/
def STR_CTL : Nat := 0x0020000e0010
/-- STR_STAT (R338). -/
def STR_STAT : Nat := 0x0020000e0014
/-- CDC_CTL (R349). -/
def CDC_CTL : Nat := 0x0020000f0010
/-- CDC_STAT (R349). -/
def CDC_STAT : Nat := 0x0020000f0014
/-- DRC_BULKCAP (R352). -/
def DRC_BULKCAP : Nat := 0x00200011003c
/-- DRC_BULKCAP2 (R352). -/
def DRC_BULKCAP2 : Nat := 0x002000110040
/-- DRC_CFG (R376). -/
def DRC_CFG : Nat := 0x002000110010
/-- DRC_STAT (R376). -/
def DRC_STAT : Nat := 0x002000110014
/-- DRC_RH (R376). -/
def DRC_RH : Nat := 0x002000110020
/-- DRC_SKEWSTAT (R376). -/
def DRC_SKEWSTAT : Nat := 0x002000110024
/-- DRC_SCRUB_CTL (R376). -/
def DRC_SCRUB_CTL : Nat := 0x002000110028
/-- DRC_SCRUB_STAT (R376). -/
def DRC_SCRUB_STAT : Nat := 0x00200011002c
/-- DRC_TRN_SEL (R376). -/
def DRC_TRN_SEL : Nat := 0x002000110030
/-- DRC_TRN_CTL (R376). -/
def DRC_TRN_CTL : Nat := 0x002000110034
/-- DRC_TRN_RES (R376). -/
def DRC_TRN_RES : Nat := 0x002000110038
/-- NET_CTL (R400). -/
def NET_CTL : Nat := 0x002800020010
/-- NET_STAT (R400). -/
def NET_STAT : Nat := 0x002800020014
/-- NET_PORTn_CFG (R400). -/
def NET_PORT_CFG (n : Nat) : Nat := 0x002800020020 + 0x4 * n
/-- MEP_CFG (R400). -/
def MEP_CFG : Nat := 0x002800020040
/-- MEP_CFG2 (R400). -/
def MEP_CFG2 : Nat := 0x002800020044
/-- MEP_STAT (R400). -/
def MEP_STAT : Nat := 0x002800020048
/-- NET_RXREL (R400). -/
def NET_RXREL : Nat := 0x002800020050
/-- NET_BARREC (R400). -/
def NET_BARREC : Nat := 0x002800020054
/-- NET_BARRIER (R400). -/
def NET_BARRIER : Nat := 0x002800020058
/-- HIF_CAP (R419). -/
def HIF_CAP : Nat := 0x002000120008
/-- HIF_DEVSTAT (R419). -/
def HIF_DEVSTAT : Nat := 0x002000120014
/-- HIF_TRIAGE (R419). -/
def HIF_TRIAGE : Nat := 0x002000120020
/-- HIF_WINf_LO (R419). -/
def HIF_WIN_LO (f : Nat) : Nat := 0x002000120040 + 0x8 * f
/-- HIF_WINf_HI (R419). -/
def HIF_WIN_HI (f : Nat) : Nat := 0x002000120044 + 0x8 * f
/-- HIF_FSTAT (R419). -/
def HIF_FSTAT (g : Nat) : Nat := 0x002000121000 + 0x1000 * g
/-- HIF_RINGn_CFG (R419). -/
def HIF_RING_CFG (g : Nat) (n : Nat) : Nat := 0x002000121100 + 0x1000 * g + 0x40 * n
/-- HIF_SQn_BASE_LO (R419). -/
def HIF_SQ_BASE_LO (g : Nat) (n : Nat) : Nat := 0x002000121104 + 0x1000 * g + 0x40 * n
/-- HIF_CQn_BASE_LO (R419). -/
def HIF_CQ_BASE_LO (g : Nat) (n : Nat) : Nat := 0x00200012110c + 0x1000 * g + 0x40 * n
/-- HIF_SQn_BASE_HI (R419). -/
def HIF_SQ_BASE_HI (g : Nat) (n : Nat) : Nat := 0x002000121108 + 0x1000 * g + 0x40 * n
/-- HIF_CQn_BASE_HI (R419). -/
def HIF_CQ_BASE_HI (g : Nat) (n : Nat) : Nat := 0x002000121110 + 0x1000 * g + 0x40 * n
/-- HIF_SQTAILn (R419). -/
def HIF_SQTAIL (g : Nat) (n : Nat) : Nat := 0x002000121114 + 0x1000 * g + 0x40 * n
/-- HIF_CQHEADn (R419). -/
def HIF_CQHEAD (g : Nat) (n : Nat) : Nat := 0x002000121118 + 0x1000 * g + 0x40 * n
/-- KILN_CAP (R442). -/
def KILN_CAP : Nat := 0x002800050020
/-- KILN_DAMP (R442). -/
def KILN_DAMP : Nat := 0x002800050024
/-- KILN_DAMPW (R442). -/
def KILN_DAMPW : Nat := 0x002800050028
/-- KILN_STAT (R442). -/
def KILN_STAT : Nat := 0x002800050014
/-- KILN_PWR (R442). -/
def KILN_PWR : Nat := 0x00280005002c
/-- KILN_RAILSEL (R442). -/
def KILN_RAILSEL : Nat := 0x002800050030
/-- KILN_RAIL (R442). -/
def KILN_RAIL : Nat := 0x002800050034
/-- KILN_VFSEL (R442). -/
def KILN_VFSEL : Nat := 0x002800050038
/-- KILN_VF (R442). -/
def KILN_VF : Nat := 0x00280005003c
/-- KILN_ACLK (R442). -/
def KILN_ACLK : Nat := 0x002800050040
/-- KILN_HCk (R442). -/
def KILN_HC (k : Nat) : Nat := 0x002800050044 + 0x4 * k
/-- KILN_HC_FLOOR (R442). -/
def KILN_HC_FLOOR : Nat := 0x002800050064
/-- KILN_TH (R442). -/
def KILN_TH : Nat := 0x002800050068
/-- KILN_TSEL (R442). -/
def KILN_TSEL : Nat := 0x00280005006c
/-- KILN_TEMP (R442). -/
def KILN_TEMP : Nat := 0x002800050070
/-- KILN_DROOP (R442). -/
def KILN_DROOP : Nat := 0x002800050074
/-- KILN_EMBER (R442). -/
def KILN_EMBER : Nat := 0x002800050078
/-- EMN_BOOT_STAT (R460). -/
def EMN_BOOT_STAT : Nat := 0x002800040020
/-- EMN_UPD_ADDR_LO (R460). -/
def EMN_UPD_ADDR_LO : Nat := 0x002800040024
/-- EMN_UPD_ADDR_HI (R460). -/
def EMN_UPD_ADDR_HI : Nat := 0x002800040028
/-- EMN_UPD_CMD (R460). -/
def EMN_UPD_CMD : Nat := 0x00280004002c
/-- EMN_PART_ADDR_LO (R480). -/
def EMN_PART_ADDR_LO : Nat := 0x002800040030
/-- EMN_PART_ADDR_HI (R480). -/
def EMN_PART_ADDR_HI : Nat := 0x002800040034
/-- EMN_PART_CMD (R480). -/
def EMN_PART_CMD : Nat := 0x002800040038
/-- EMN_PART_STAT (R480). -/
def EMN_PART_STAT : Nat := 0x00280004003c
/-- EMN_DBG (R480). -/
def EMN_DBG : Nat := 0x002800040040
/-- EMN_ATT_ADDR_LO (R480). -/
def EMN_ATT_ADDR_LO : Nat := 0x002800040050
/-- EMN_ATT_ADDR_HI (R480). -/
def EMN_ATT_ADDR_HI : Nat := 0x002800040054
/-- EMN_ATT_CMD (R480). -/
def EMN_ATT_CMD : Nat := 0x002800040058
/-- FLT_CTL (R501). -/
def FLT_CTL (p : Bool) : Nat := blkBase p (if p then 6 else 20) + 0x10
/-- FLT_STAT (R501). -/
def FLT_STAT (p : Bool) : Nat := blkBase p (if p then 6 else 20) + 0x14
/-- FLT_CMD (R501). -/
def FLT_CMD (p : Bool) : Nat := blkBase p (if p then 6 else 20) + 0x20
/-- FLT_RECi (R501). -/
def FLT_REC (p : Bool) (i : Nat) : Nat := blkBase p (if p then 6 else 20) + 0x40 + 0x4 * i
/-- BIST_CTL (R501). -/
def BIST_CTL : Nat := 0x002000140080
/-- BIST_STAT (R501). -/
def BIST_STAT : Nat := 0x002000140084
/-- <P>_ID (R504). -/
def BLK_ID (p : Bool) (b : Nat) : Nat := blkBase p b + 0x0
/-- <P>_EVT (R504). -/
def BLK_EVT (p : Bool) (b : Nat) : Nat := blkBase p b + 0x4
/-- DEV_PART (R509). -/
def DEV_PART : Nat := 0x002000000020
/-- DEV_UID_LO (R509). -/
def DEV_UID_LO : Nat := 0x002000000024
/-- DEV_UID_HI (R509). -/
def DEV_UID_HI : Nat := 0x002000000028
/-- RLOG_STAT (R509). -/
def RLOG_STAT : Nat := 0x002000000030
/-- RLOG_IDX (R509). -/
def RLOG_IDX : Nat := 0x002000000034
/-- RLOG_DATAj (R509). -/
def RLOG_DATA (j : Nat) : Nat := 0x002000000038 + 0x4 * j
/-- CRS_CTL (R509). -/
def CRS_CTL : Nat := 0x0020000c0010
/-- CRS_STAT (R509). -/
def CRS_STAT : Nat := 0x0020000c0014

end Reg

namespace F

/-- CWY_STAT.LINK_UP, bits 0:0, RO (R24). -/
def CWY_STAT_LINK_UP (p : Bool) : Fld := ⟨Reg.CWY_STAT p, 0, 1, 0⟩
/-- CWY_STAT.FAILED, bits 1:1, RO (R24). -/
def CWY_STAT_FAILED (p : Bool) : Fld := ⟨Reg.CWY_STAT p, 1, 1, 0⟩
/-- CWY_STAT.RETRIES, bits 23:8, W1C (R24). -/
def CWY_STAT_RETRIES (p : Bool) : Fld := ⟨Reg.CWY_STAT p, 8, 16, 0⟩
/-- CWY_STAT.SIG_REPEATS, bits 31:24, W1C (R24). -/
def CWY_STAT_SIG_REPEATS (p : Bool) : Fld := ⟨Reg.CWY_STAT p, 24, 8, 0⟩
/-- TICK_CTL.ENABLE, bits 0:0, RW (R40). -/
def TICK_CTL_ENABLE : Fld := ⟨Reg.TICK_CTL, 0, 1, 0⟩
/-- TICK_CTL.MODE, bits 2:1, RW-D (R40). -/
def TICK_CTL_MODE : Fld := ⟨Reg.TICK_CTL, 1, 2, 0⟩
/-- TICK_CTL.PLAN_SRC, bits 3:3, RW-D (R40). -/
def TICK_CTL_PLAN_SRC : Fld := ⟨Reg.TICK_CTL, 3, 1, 0⟩
/-- TICK_CTL.PERIOD_US, bits 25:8, RW-D (R40). -/
def TICK_CTL_PERIOD_US : Fld := ⟨Reg.TICK_CTL, 8, 18, 33333⟩
/-- TICK_STAT.PLAN_ID, bits 15:0, RO (R40). -/
def TICK_STAT_PLAN_ID : Fld := ⟨Reg.TICK_STAT, 0, 16, 65535⟩
/-- TICK_STAT.ARMED, bits 21:16, RO (R40). -/
def TICK_STAT_ARMED : Fld := ⟨Reg.TICK_STAT, 16, 6, 0⟩
/-- TICK_STAT.FALLBACK, bits 22:22, RO (R40). -/
def TICK_STAT_FALLBACK : Fld := ⟨Reg.TICK_STAT, 22, 1, 0⟩
/-- TICK_STAT.MISS, bits 23:23, W1C (R40). -/
def TICK_STAT_MISS : Fld := ⟨Reg.TICK_STAT, 23, 1, 0⟩
/-- TICK_STAT.PLAN_MISMATCH, bits 24:24, RO (R40). -/
def TICK_STAT_PLAN_MISMATCH : Fld := ⟨Reg.TICK_STAT, 24, 1, 0⟩
/-- TICK_NUM_LO.COUNT, bits 31:0, RO (R40). -/
def TICK_NUM_LO_COUNT : Fld := ⟨Reg.TICK_NUM_LO, 0, 32, 0⟩
/-- TICK_NUM_HI.COUNT, bits 31:0, RO (R40). -/
def TICK_NUM_HI_COUNT : Fld := ⟨Reg.TICK_NUM_HI, 0, 32, 0⟩
/-- ARR_CAP.FMT, bits 6:0, RO (R96). -/
def ARR_CAP_FMT : Fld := ⟨Reg.ARR_CAP, 0, 7, 127⟩
/-- ARR_CAP.MODES, bits 10:8, RO (R96). -/
def ARR_CAP_MODES : Fld := ⟨Reg.ARR_CAP, 8, 3, 7⟩
/-- ARR_CAP.CHK_AVAIL, bits 11:11, RO (R96). -/
def ARR_CAP_CHK_AVAIL : Fld := ⟨Reg.ARR_CAP, 11, 1, 1⟩
/-- ARR_CAP.IN_SERVICE, bits 12:12, RO (R96). -/
def ARR_CAP_IN_SERVICE : Fld := ⟨Reg.ARR_CAP, 12, 1, 1⟩
/-- ARR_CAP.CHK_REASON, bits 14:13, RO (R96). -/
def ARR_CAP_CHK_REASON : Fld := ⟨Reg.ARR_CAP, 13, 2, 0⟩
/-- ARR_CAP.ACLK_MAX_MHZ, bits 27:16, RO (R96). -/
def ARR_CAP_ACLK_MAX_MHZ : Fld := ⟨Reg.ARR_CAP, 16, 12, 1500⟩
/-- ARR_CTL.ENABLE, bits 0:0, RW (R96). -/
def ARR_CTL_ENABLE : Fld := ⟨Reg.ARR_CTL, 0, 1, 0⟩
/-- ARR_CTL.FUSE_BYPASS, bits 1:1, RW-D (R96). -/
def ARR_CTL_FUSE_BYPASS : Fld := ⟨Reg.ARR_CTL, 1, 1, 1⟩
/-- ARR_CTL.RETIRE_EN, bits 2:2, RW-D (R96). -/
def ARR_CTL_RETIRE_EN : Fld := ⟨Reg.ARR_CTL, 2, 1, 1⟩
/-- ARR_CTL.RETIRE_MODE, bits 3:3, RW-D (R96). -/
def ARR_CTL_RETIRE_MODE : Fld := ⟨Reg.ARR_CTL, 3, 1, 0⟩
/-- ARR_CTL.RETIRE_THRESH, bits 15:8, RW-D (R96). -/
def ARR_CTL_RETIRE_THRESH : Fld := ⟨Reg.ARR_CTL, 8, 8, 3⟩
/-- ARR_CTL.GROUP_ON, bits 31:16, RW-D (R96). -/
def ARR_CTL_GROUP_ON : Fld := ⟨Reg.ARR_CTL, 16, 16, 65535⟩
/-- ARR_STAT.BUSY, bits 0:0, RO (R96). -/
def ARR_STAT_BUSY : Fld := ⟨Reg.ARR_STAT, 0, 1, 0⟩
/-- ARR_STAT.RETIRE_PENDING, bits 1:1, RO (R96). -/
def ARR_STAT_RETIRE_PENDING : Fld := ⟨Reg.ARR_STAT, 1, 1, 0⟩
/-- ARR_STAT.OUT_OF_SERVICE, bits 2:2, RO (R96). -/
def ARR_STAT_OUT_OF_SERVICE : Fld := ⟨Reg.ARR_STAT, 2, 1, 0⟩
/-- ARR_STAT.CFG_IGNORED, bits 3:3, W1C (R96). -/
def ARR_STAT_CFG_IGNORED : Fld := ⟨Reg.ARR_STAT, 3, 1, 0⟩
/-- ARR_STAT.GROUPS_SETTLING, bits 4:4, RO (R96). -/
def ARR_STAT_GROUPS_SETTLING : Fld := ⟨Reg.ARR_STAT, 4, 1, 0⟩
/-- ARR_STAT.W, bits 16:8, RO (R96). -/
def ARR_STAT_W : Fld := ⟨Reg.ARR_STAT, 8, 9, 256⟩
/-- ARR_STAT.W_ON, bits 25:17, RO (R96). -/
def ARR_STAT_W_ON : Fld := ⟨Reg.ARR_STAT, 17, 9, 256⟩
/-- ARR_CHK_CTL.PART_EN, bits 7:0, RW (R96). -/
def ARR_CHK_CTL_PART_EN : Fld := ⟨Reg.ARR_CHK_CTL, 0, 8, 0⟩
/-- ARR_CHK_CTL.ON_UNAVAIL, bits 8:8, RW-D (R96). -/
def ARR_CHK_CTL_ON_UNAVAIL : Fld := ⟨Reg.ARR_CHK_CTL, 8, 1, 0⟩
/-- ARR_CHK_CTL.TOL_ULP, bits 31:16, RW-D (R96). -/
def ARR_CHK_CTL_TOL_ULP : Fld := ⟨Reg.ARR_CHK_CTL, 16, 16, 64⟩
/-- ARR_CHK_STAT.FAILS, bits 15:0, W1C (R96). -/
def ARR_CHK_STAT_FAILS : Fld := ⟨Reg.ARR_CHK_STAT, 0, 16, 0⟩
/-- ARR_CHK_STAT.SKIPS, bits 31:16, W1C (R96). -/
def ARR_CHK_STAT_SKIPS : Fld := ⟨Reg.ARR_CHK_STAT, 16, 16, 0⟩
/-- ARR_COL_FUSEj.BAD, bits 31:0, RO (R96). -/
def ARR_COL_FUSE_BAD (j : Nat) : Fld := ⟨Reg.ARR_COL_FUSE j, 0, 32, 0⟩
/-- ARR_COL_RETIREDj.RETIRED, bits 31:0, RO (R96). -/
def ARR_COL_RETIRED_RETIRED (j : Nat) : Fld := ⟨Reg.ARR_COL_RETIRED j, 0, 32, 0⟩
/-- ARR_COL_RETIRE_REQ.COL, bits 8:0, WO (R96). -/
def ARR_COL_RETIRE_REQ_COL : Fld := ⟨Reg.ARR_COL_RETIRE_REQ, 0, 9, 0⟩
/-- ARR_COLCNT_SEL.SEL, bits 8:0, RW (R96). -/
def ARR_COLCNT_SEL_SEL : Fld := ⟨Reg.ARR_COLCNT_SEL, 0, 9, 0⟩
/-- ARR_COLCNT.COUNT, bits 7:0, RW (R96). -/
def ARR_COLCNT_COUNT : Fld := ⟨Reg.ARR_COLCNT, 0, 8, 0⟩
/-- ARR_UTIL_ISSUED_LO.COUNT, bits 31:0, RO (R97). -/
def ARR_UTIL_ISSUED_LO_COUNT : Fld := ⟨Reg.ARR_UTIL_ISSUED_LO, 0, 32, 0⟩
/-- ARR_UTIL_ISSUED_HI.COUNT, bits 31:0, RO (R97). -/
def ARR_UTIL_ISSUED_HI_COUNT : Fld := ⟨Reg.ARR_UTIL_ISSUED_HI, 0, 32, 0⟩
/-- ARR_UTIL_USEFUL_LO.COUNT, bits 31:0, RO (R97). -/
def ARR_UTIL_USEFUL_LO_COUNT : Fld := ⟨Reg.ARR_UTIL_USEFUL_LO, 0, 32, 0⟩
/-- ARR_UTIL_USEFUL_HI.COUNT, bits 31:0, RO (R97). -/
def ARR_UTIL_USEFUL_HI_COUNT : Fld := ⟨Reg.ARR_UTIL_USEFUL_HI, 0, 32, 0⟩
/-- ARR_UTIL_STALL_LO.COUNT, bits 31:0, RO (R97). -/
def ARR_UTIL_STALL_LO_COUNT : Fld := ⟨Reg.ARR_UTIL_STALL_LO, 0, 32, 0⟩
/-- ARR_UTIL_STALL_HI.COUNT, bits 31:0, RO (R97). -/
def ARR_UTIL_STALL_HI_COUNT : Fld := ⟨Reg.ARR_UTIL_STALL_HI, 0, 32, 0⟩
/-- DRN_CTL.ENABLE, bits 0:0, RW (R128). -/
def DRN_CTL_ENABLE : Fld := ⟨Reg.DRN_CTL, 0, 1, 0⟩
/-- DRN_QMODE.FORCE_STATIC, bits 7:0, RW-D (R128). -/
def DRN_QMODE_FORCE_STATIC : Fld := ⟨Reg.DRN_QMODE, 0, 8, 0⟩
/-- DRN_LFSR_SEED.SEED, bits 31:0, RW-D (R128). -/
def DRN_LFSR_SEED_SEED : Fld := ⟨Reg.DRN_LFSR_SEED, 0, 32, 1⟩
/-- DRN_STAT.BUSY, bits 0:0, RO (R128). -/
def DRN_STAT_BUSY : Fld := ⟨Reg.DRN_STAT, 0, 1, 0⟩
/-- DRN_STAT.CFG_IGNORED, bits 1:1, W1C (R128). -/
def DRN_STAT_CFG_IGNORED : Fld := ⟨Reg.DRN_STAT, 1, 1, 0⟩
/-- DRN_STAT.OPT_SKIP, bits 2:2, W1C (R128). -/
def DRN_STAT_OPT_SKIP : Fld := ⟨Reg.DRN_STAT, 2, 1, 0⟩
/-- DRN_STAT.OPT_SKIPS, bits 31:16, W1C (R128). -/
def DRN_STAT_OPT_SKIPS : Fld := ⟨Reg.DRN_STAT, 16, 16, 0⟩
/-- DRN_SAT_CNT.SAT, bits 15:0, W1C (R128). -/
def DRN_SAT_CNT_SAT : Fld := ⟨Reg.DRN_SAT_CNT, 0, 16, 0⟩
/-- DRN_SAT_CNT.NAN, bits 31:16, W1C (R128). -/
def DRN_SAT_CNT_NAN : Fld := ⟨Reg.DRN_SAT_CNT, 16, 16, 0⟩
/-- MAP_CTL.ENABLE, bits 0:0, RW (R156). -/
def MAP_CTL_ENABLE : Fld := ⟨Reg.MAP_CTL, 0, 1, 0⟩
/-- MAP_CTL.SCRUB_INTERVAL, bits 15:8, RW-D (R156). -/
def MAP_CTL_SCRUB_INTERVAL : Fld := ⟨Reg.MAP_CTL, 8, 8, 16⟩
/-- MAP_STAT.CFG_IGNORED, bits 0:0, W1C (R156). -/
def MAP_STAT_CFG_IGNORED : Fld := ⟨Reg.MAP_STAT, 0, 1, 0⟩
/-- MAP_STAT.CORRECTED, bits 31:16, W1C (R156). -/
def MAP_STAT_CORRECTED : Fld := ⟨Reg.MAP_STAT, 16, 16, 0⟩
/-- MAP_AOj.AO, bits 31:0, RO (R156). -/
def MAP_AO_AO (j : Nat) : Fld := ⟨Reg.MAP_AO j, 0, 32, 0⟩
/-- CRD_CTL.ENABLE, bits 0:0, RW (R156). -/
def CRD_CTL_ENABLE : Fld := ⟨Reg.CRD_CTL, 0, 1, 0⟩
/-- CRD_CTL.SCRUB_INTERVAL, bits 15:8, RW-D (R156). -/
def CRD_CTL_SCRUB_INTERVAL : Fld := ⟨Reg.CRD_CTL, 8, 8, 16⟩
/-- CRD_STAT.CFG_IGNORED, bits 0:0, W1C (R156). -/
def CRD_STAT_CFG_IGNORED : Fld := ⟨Reg.CRD_STAT, 0, 1, 0⟩
/-- CRD_STAT.OPEN_REFUSED, bits 1:1, W1C (R156). -/
def CRD_STAT_OPEN_REFUSED : Fld := ⟨Reg.CRD_STAT, 1, 1, 0⟩
/-- CRD_STAT.OVER_RELEASE, bits 2:2, W1C (R156). -/
def CRD_STAT_OVER_RELEASE : Fld := ⟨Reg.CRD_STAT, 2, 1, 0⟩
/-- CRD_TIMEOUT.US, bits 15:0, RW-D (R156). -/
def CRD_TIMEOUT_US : Fld := ⟨Reg.CRD_TIMEOUT, 0, 16, 20⟩
/-- CRD_WINSEL.TILE, bits 4:0, RW (R156). -/
def CRD_WINSEL_TILE : Fld := ⟨Reg.CRD_WINSEL, 0, 5, 0⟩
/-- CRD_WINSEL.WIN, bits 10:8, RW (R156). -/
def CRD_WINSEL_WIN : Fld := ⟨Reg.CRD_WINSEL, 8, 3, 0⟩
/-- CRD_WINCFG.BASE_ROW, bits 9:0, RW-D (R156). -/
def CRD_WINCFG_BASE_ROW : Fld := ⟨Reg.CRD_WINCFG, 0, 10, 0⟩
/-- CRD_WINCFG.ROWS, bits 25:16, RW-D (R156). -/
def CRD_WINCFG_ROWS : Fld := ⟨Reg.CRD_WINCFG, 16, 10, 0⟩
/-- CRD_WINCFG.PART, bits 30:28, RW-D (R156). -/
def CRD_WINCFG_PART : Fld := ⟨Reg.CRD_WINCFG, 28, 3, 0⟩
/-- CRD_WINCTL.CMD, bits 1:0, WO (R156). -/
def CRD_WINCTL_CMD : Fld := ⟨Reg.CRD_WINCTL, 0, 2, 0⟩
/-- CRD_WINCTL.COUNT, bits 25:16, WO (R156). -/
def CRD_WINCTL_COUNT : Fld := ⟨Reg.CRD_WINCTL, 16, 10, 0⟩
/-- CRD_WINSTAT.STATE, bits 1:0, RO (R156). -/
def CRD_WINSTAT_STATE : Fld := ⟨Reg.CRD_WINSTAT, 0, 2, 0⟩
/-- CRD_WINSTAT.EPOCH, bits 9:2, RO (R156). -/
def CRD_WINSTAT_EPOCH : Fld := ⟨Reg.CRD_WINSTAT, 2, 8, 0⟩
/-- CRD_WINSTAT.OUTSTANDING, bits 19:10, RO (R156). -/
def CRD_WINSTAT_OUTSTANDING : Fld := ⟨Reg.CRD_WINSTAT, 10, 10, 0⟩
/-- CRD_WINSTAT.POOL, bits 29:20, RO (R156). -/
def CRD_WINSTAT_POOL : Fld := ⟨Reg.CRD_WINSTAT, 20, 10, 0⟩
/-- CRD_DROPCNT.COUNT, bits 15:0, W1C (R156). -/
def CRD_DROPCNT_COUNT : Fld := ⟨Reg.CRD_DROPCNT, 0, 16, 0⟩
/-- CRD_DROPCNT.LAST_SRC, bits 23:16, RO (R156). -/
def CRD_DROPCNT_LAST_SRC : Fld := ⟨Reg.CRD_DROPCNT, 16, 8, 0⟩
/-- ACC_STAT.LIVE, bits 7:0, RO (R156). -/
def ACC_STAT_LIVE : Fld := ⟨Reg.ACC_STAT, 0, 8, 0⟩
/-- ACC_STAT.DRAINING, bits 15:8, RO (R156). -/
def ACC_STAT_DRAINING : Fld := ⟨Reg.ACC_STAT, 8, 8, 0⟩
/-- ACC_STAT.PARITY_ERRS, bits 31:16, W1C (R156). -/
def ACC_STAT_PARITY_ERRS : Fld := ⟨Reg.ACC_STAT, 16, 16, 0⟩
/-- HXR_CAP.LEVEL_MIN, bits 3:0, RO (R195). -/
def HXR_CAP_LEVEL_MIN (e : Nat) : Fld := ⟨Reg.HXR_CAP e, 0, 4, 1⟩
/-- HXR_CAP.LEVEL_MAX, bits 7:4, RO (R195). -/
def HXR_CAP_LEVEL_MAX (e : Nat) : Fld := ⟨Reg.HXR_CAP e, 4, 4, 0⟩
/-- HXR_CAP.WORDS_LOG2, bits 11:8, RO (R195). -/
def HXR_CAP_WORDS_LOG2 (e : Nat) : Fld := ⟨Reg.HXR_CAP e, 8, 4, 0⟩
/-- HXR_STAT.STATE, bits 2:0, RO (R195). -/
def HXR_STAT_STATE (e : Nat) : Fld := ⟨Reg.HXR_STAT e, 0, 3, 0⟩
/-- HXR_STAT.LEVEL_BAD, bits 3:3, RO (R195). -/
def HXR_STAT_LEVEL_BAD (e : Nat) : Fld := ⟨Reg.HXR_STAT e, 3, 1, 0⟩
/-- HXR_STAT.CS_LOCKED, bits 4:4, RO (R195). -/
def HXR_STAT_CS_LOCKED (e : Nat) : Fld := ⟨Reg.HXR_STAT e, 4, 1, 0⟩
/-- HXR_STAT.PC, bits 21:8, RO (R195). -/
def HXR_STAT_PC (e : Nat) : Fld := ⟨Reg.HXR_STAT e, 8, 14, 0⟩
/-- HXR_WAIT.QUEUE, bits 12:0, RO (R195). -/
def HXR_WAIT_QUEUE (e : Nat) : Fld := ⟨Reg.HXR_WAIT e, 0, 13, 0⟩
/-- HXR_WAIT.VALID, bits 31:31, RO (R195). -/
def HXR_WAIT_VALID (e : Nat) : Fld := ⟨Reg.HXR_WAIT e, 31, 1, 0⟩
/-- HXR_START.ADDR, bits 13:0, WO (R195). -/
def HXR_START_ADDR (e : Nat) : Fld := ⟨Reg.HXR_START e, 0, 14, 0⟩
/-- HXR_START.PRESET, bits 14:14, WO (R195). -/
def HXR_START_PRESET (e : Nat) : Fld := ⟨Reg.HXR_START e, 14, 1, 0⟩
/-- HXR_START.GO, bits 15:15, WO (R195). -/
def HXR_START_GO (e : Nat) : Fld := ⟨Reg.HXR_START e, 15, 1, 0⟩
/-- HXR_START.PART, bits 18:16, WO (R195). -/
def HXR_START_PART (e : Nat) : Fld := ⟨Reg.HXR_START e, 16, 3, 0⟩
/-- HXR_PRESET_LO.ADDR, bits 31:7, RW (R195). -/
def HXR_PRESET_LO_ADDR (e : Nat) : Fld := ⟨Reg.HXR_PRESET_LO e, 7, 25, 0⟩
/-- HXR_PRESET_HI.ADDR, bits 15:0, RW (R195). -/
def HXR_PRESET_HI_ADDR (e : Nat) : Fld := ⟨Reg.HXR_PRESET_HI e, 0, 16, 0⟩
/-- QM_QSEL.Q, bits 12:0, RW (R196). -/
def QM_QSEL_Q : Fld := ⟨Reg.QM_QSEL, 0, 13, 0⟩
/-- QM_QCFG.DEPTH, bits 8:0, RW-D (R196). -/
def QM_QCFG_DEPTH : Fld := ⟨Reg.QM_QCFG, 0, 9, 0⟩
/-- QM_QCFG.CONSUMER, bits 20:16, RW-D (R196). -/
def QM_QCFG_CONSUMER : Fld := ⟨Reg.QM_QCFG, 16, 5, 0⟩
/-- QM_QCFG.PART, bits 26:24, RW-D (R196). -/
def QM_QCFG_PART : Fld := ⟨Reg.QM_QCFG, 24, 3, 0⟩
/-- QM_QSTAT.COUNT, bits 8:0, RO (R196). -/
def QM_QSTAT_COUNT : Fld := ⟨Reg.QM_QSTAT, 0, 9, 0⟩
/-- QM_QSTAT.CAIRNS, bits 17:9, RO (R196). -/
def QM_QSTAT_CAIRNS : Fld := ⟨Reg.QM_QSTAT, 9, 9, 0⟩
/-- QM_QSTAT.OVERFLOW, bits 18:18, W1C (R196). -/
def QM_QSTAT_OVERFLOW : Fld := ⟨Reg.QM_QSTAT, 18, 1, 0⟩
/-- DMA_CTL.ENABLE, bits 0:0, RW (R264). -/
def DMA_CTL_ENABLE (e : Nat) : Fld := ⟨Reg.DMA_CTL e, 0, 1, 0⟩
/-- DMA_STAT.BUSY, bits 0:0, RO (R264). -/
def DMA_STAT_BUSY (e : Nat) : Fld := ⟨Reg.DMA_STAT e, 0, 1, 0⟩
/-- DMA_STAT.CFG_IGNORED, bits 1:1, W1C (R264). -/
def DMA_STAT_CFG_IGNORED (e : Nat) : Fld := ⟨Reg.DMA_STAT e, 1, 1, 0⟩
/-- DMA_STAT.XFER_ABORT, bits 2:2, W1C (R264). -/
def DMA_STAT_XFER_ABORT (e : Nat) : Fld := ⟨Reg.DMA_STAT e, 2, 1, 0⟩
/-- DMA_STAT.AUTH_FAIL, bits 3:3, W1C (R264). -/
def DMA_STAT_AUTH_FAIL (e : Nat) : Fld := ⟨Reg.DMA_STAT e, 3, 1, 0⟩
/-- DMA_STAT.TAGS_OUT, bits 16:8, RO (R264). -/
def DMA_STAT_TAGS_OUT (e : Nat) : Fld := ⟨Reg.DMA_STAT e, 8, 9, 0⟩
/-- FP_STAT.TAGS_OUT, bits 6:0, RO (R264). -/
def FP_STAT_TAGS_OUT : Fld := ⟨Reg.FP_STAT, 0, 7, 0⟩
/-- FP_STAT.WAITS, bits 23:8, W1C (R264). -/
def FP_STAT_WAITS : Fld := ⟨Reg.FP_STAT, 8, 16, 0⟩
/-- SCH_SHAREp.US, bits 17:0, RW (R287). -/
def SCH_SHARE_US (p : Nat) : Fld := ⟨Reg.SCH_SHARE p, 0, 18, 0⟩
/-- SCH_SHAREp.SPILL, bits 31:31, RW (R287). -/
def SCH_SHARE_SPILL (p : Nat) : Fld := ⟨Reg.SCH_SHARE p, 31, 1, 1⟩
/-- SCH_METERp.USED_US, bits 17:0, RO (R287). -/
def SCH_METER_USED_US (p : Nat) : Fld := ⟨Reg.SCH_METER p, 0, 18, 0⟩
/-- LBY_CTL.SP_LIMIT_US, bits 9:0, RW-D (R287). -/
def LBY_CTL_SP_LIMIT_US : Fld := ⟨Reg.LBY_CTL, 0, 10, 300⟩
/-- LBY_CTL.MIN_RUN_US, bits 19:10, RW-D (R287). -/
def LBY_CTL_MIN_RUN_US : Fld := ⟨Reg.LBY_CTL, 10, 10, 100⟩
/-- LBY_CMD.CMD, bits 1:0, WO (R287). -/
def LBY_CMD_CMD : Fld := ⟨Reg.LBY_CMD, 0, 2, 0⟩
/-- LBY_CMD.PART, bits 4:2, WO (R287). -/
def LBY_CMD_PART : Fld := ⟨Reg.LBY_CMD, 2, 3, 0⟩
/-- LBY_BASEp_LO.ADDR, bits 31:12, RWL (R287). -/
def LBY_BASE_LO_ADDR (p : Nat) : Fld := ⟨Reg.LBY_BASE_LO p, 12, 20, 0⟩
/-- LBY_BASEp_HI.ADDR, bits 15:0, RWL (R287). -/
def LBY_BASE_HI_ADDR (p : Nat) : Fld := ⟨Reg.LBY_BASE_HI p, 0, 16, 0⟩
/-- LBY_STAT.STATE, bits 1:0, RO (R287). -/
def LBY_STAT_STATE : Fld := ⟨Reg.LBY_STAT, 0, 2, 0⟩
/-- LBY_STAT.PART, bits 4:2, RO (R287). -/
def LBY_STAT_PART : Fld := ⟨Reg.LBY_STAT, 2, 3, 0⟩
/-- LBY_STAT.HELD, bits 5:5, RO (R287). -/
def LBY_STAT_HELD : Fld := ⟨Reg.LBY_STAT, 5, 1, 0⟩
/-- LBY_STAT.CFG_IGNORED, bits 6:6, W1C (R287). -/
def LBY_STAT_CFG_IGNORED : Fld := ⟨Reg.LBY_STAT, 6, 1, 0⟩
/-- LBY_STAT.SHAPE_DROP, bits 7:7, W1C (R287). -/
def LBY_STAT_SHAPE_DROP : Fld := ⟨Reg.LBY_STAT, 7, 1, 0⟩
/-- LBY_STAT.PARKED, bits 15:8, RO (R287). -/
def LBY_STAT_PARKED : Fld := ⟨Reg.LBY_STAT, 8, 8, 0⟩
/-- LBY_STAT.LATE, bits 16:16, W1C (R287). -/
def LBY_STAT_LATE : Fld := ⟨Reg.LBY_STAT, 16, 1, 0⟩
/-- LBY_STAT.AUTH, bits 17:17, W1C (R287). -/
def LBY_STAT_AUTH : Fld := ⟨Reg.LBY_STAT, 17, 1, 0⟩
/-- CAM_CTL.PORT_EN, bits 3:0, RW (R307). -/
def CAM_CTL_PORT_EN : Fld := ⟨Reg.CAM_CTL, 0, 4, 0⟩
/-- CAM_CTL.CTX_EN, bits 31:16, RW (R307). -/
def CAM_CTL_CTX_EN : Fld := ⟨Reg.CAM_CTL, 16, 16, 0⟩
/-- CAM_STAT.CFG_IGNORED, bits 0:0, W1C (R307). -/
def CAM_STAT_CFG_IGNORED : Fld := ⟨Reg.CAM_STAT, 0, 1, 0⟩
/-- CAM_STAT.CTX_REFUSED, bits 1:1, W1C (R307). -/
def CAM_STAT_CTX_REFUSED : Fld := ⟨Reg.CAM_STAT, 1, 1, 0⟩
/-- CAM_STAT.LINK_UP, bits 7:4, RO (R307). -/
def CAM_STAT_LINK_UP : Fld := ⟨Reg.CAM_STAT, 4, 4, 0⟩
/-- CAM_PORTn_CFG.PHY, bits 0:0, RW-D (R308). -/
def CAM_PORT_CFG_PHY (n : Nat) : Fld := ⟨Reg.CAM_PORT_CFG n, 0, 1, 0⟩
/-- CAM_PORTn_CFG.LANES, bits 3:1, RW-D (R308). -/
def CAM_PORT_CFG_LANES (n : Nat) : Fld := ⟨Reg.CAM_PORT_CFG n, 1, 3, 4⟩
/-- CAM_PORTn_CFG.RATE, bits 15:4, RW-D (R308). -/
def CAM_PORT_CFG_RATE (n : Nat) : Fld := ⟨Reg.CAM_PORT_CFG n, 4, 12, 1500⟩
/-- CAM_PORTn_CFG.LANE_MAP, bits 23:16, RW-D (R308). -/
def CAM_PORT_CFG_LANE_MAP (n : Nat) : Fld := ⟨Reg.CAM_PORT_CFG n, 16, 8, 228⟩
/-- CAM_PORTn_CFG.POLARITY, bits 27:24, RW-D (R308). -/
def CAM_PORT_CFG_POLARITY (n : Nat) : Fld := ⟨Reg.CAM_PORT_CFG n, 24, 4, 0⟩
/-- CAM_PORTn_CFG.BUS_MODE, bits 30:28, RW-D (R308). -/
def CAM_PORT_CFG_BUS_MODE (n : Nat) : Fld := ⟨Reg.CAM_PORT_CFG n, 28, 3, 0⟩
/-- CAM_PORTn_CFG.PULLUP, bits 31:31, RW-D (R308). -/
def CAM_PORT_CFG_PULLUP (n : Nat) : Fld := ⟨Reg.CAM_PORT_CFG n, 31, 1, 1⟩
/-- CAM_PORTERRn.HDR_BAD, bits 7:0, W1C (R308). -/
def CAM_PORTERR_HDR_BAD (n : Nat) : Fld := ⟨Reg.CAM_PORTERR n, 0, 8, 0⟩
/-- CAM_PORTERRn.UNMAPPED, bits 15:8, W1C (R308). -/
def CAM_PORTERR_UNMAPPED (n : Nat) : Fld := ⟨Reg.CAM_PORTERR n, 8, 8, 0⟩
/-- CAM_PORTERRn.ORPHAN_FE, bits 23:16, W1C (R308). -/
def CAM_PORTERR_ORPHAN_FE (n : Nat) : Fld := ⟨Reg.CAM_PORTERR n, 16, 8, 0⟩
/-- CAM_PORTERRn.PHY, bits 31:24, W1C (R308). -/
def CAM_PORTERR_PHY (n : Nat) : Fld := ⟨Reg.CAM_PORTERR n, 24, 8, 0⟩
/-- CAM_PORTn_STAT.IBI, bits 0:0, W1C (R308). -/
def CAM_PORT_STAT_IBI (n : Nat) : Fld := ⟨Reg.CAM_PORT_STAT n, 0, 1, 0⟩
/-- CAM_PORTn_STAT.IBI_ADDR, bits 7:1, RO (R308). -/
def CAM_PORT_STAT_IBI_ADDR (n : Nat) : Fld := ⟨Reg.CAM_PORT_STAT n, 1, 7, 0⟩
/-- CAM_WSCMD.CTX, bits 3:0, WO (R308). -/
def CAM_WSCMD_CTX : Fld := ⟨Reg.CAM_WSCMD, 0, 4, 0⟩
/-- CAM_WSCMD.FIRST, bits 10:4, WO (R308). -/
def CAM_WSCMD_FIRST : Fld := ⟨Reg.CAM_WSCMD, 4, 7, 0⟩
/-- CAM_WSCMD.COUNT, bits 16:11, WO (R308). -/
def CAM_WSCMD_COUNT : Fld := ⟨Reg.CAM_WSCMD, 11, 6, 0⟩
/-- CAM_WSCMD.NOEPOCH, bits 17:17, WO (R308). -/
def CAM_WSCMD_NOEPOCH : Fld := ⟨Reg.CAM_WSCMD, 17, 1, 0⟩
/-- CAM_WSCMD.GO, bits 31:31, WO (R308). -/
def CAM_WSCMD_GO : Fld := ⟨Reg.CAM_WSCMD, 31, 1, 0⟩
/-- CAM_WSSTATn.PENDING, bits 2:0, RO (R308). -/
def CAM_WSSTAT_PENDING (n : Nat) : Fld := ⟨Reg.CAM_WSSTAT n, 0, 3, 0⟩
/-- CAM_WSSTATn.REFUSED, bits 3:3, W1C (R308). -/
def CAM_WSSTAT_REFUSED (n : Nat) : Fld := ⟨Reg.CAM_WSSTAT n, 3, 1, 0⟩
/-- CAM_WSSTATn.BUS_FAIL, bits 4:4, W1C (R308). -/
def CAM_WSSTAT_BUS_FAIL (n : Nat) : Fld := ⟨Reg.CAM_WSSTAT n, 4, 1, 0⟩
/-- CAM_WSSTATn.LAST_EPOCH, bits 31:16, RO (R308). -/
def CAM_WSSTAT_LAST_EPOCH (n : Nat) : Fld := ⟨Reg.CAM_WSSTAT n, 16, 16, 0⟩
/-- TRG_CFGn.EN, bits 0:0, RW (R308). -/
def TRG_CFG_EN (n : Nat) : Fld := ⟨Reg.TRG_CFG n, 0, 1, 0⟩
/-- TRG_CFGn.MODE, bits 2:1, RW-D (R308). -/
def TRG_CFG_MODE (n : Nat) : Fld := ⟨Reg.TRG_CFG n, 1, 2, 0⟩
/-- TRG_CFGn.POL, bits 3:3, RW-D (R308). -/
def TRG_CFG_POL (n : Nat) : Fld := ⟨Reg.TRG_CFG n, 3, 1, 0⟩
/-- TRG_CFGn.LEVEL, bits 4:4, RW (R308). -/
def TRG_CFG_LEVEL (n : Nat) : Fld := ⟨Reg.TRG_CFG n, 4, 1, 0⟩
/-- TRG_CFGn.CTX, bits 8:5, RW-D (R308). -/
def TRG_CFG_CTX (n : Nat) : Fld := ⟨Reg.TRG_CFG n, 5, 4, 0⟩
/-- TRG_CFGn.EVERY, bits 15:9, RW-D (R308). -/
def TRG_CFG_EVERY (n : Nat) : Fld := ⟨Reg.TRG_CFG n, 9, 7, 1⟩
/-- TRG_CFGn.WIDTH, bits 31:16, RW-D (R308). -/
def TRG_CFG_WIDTH (n : Nat) : Fld := ⟨Reg.TRG_CFG n, 16, 16, 10⟩
/-- TRG_OFFn.OFFSET, bits 27:0, RW-D (R308). -/
def TRG_OFF_OFFSET (n : Nat) : Fld := ⟨Reg.TRG_OFF n, 0, 28, 0⟩
/-- TRG_OFFn.PHASE, bits 31:28, RW-D (R308). -/
def TRG_OFF_PHASE (n : Nat) : Fld := ⟨Reg.TRG_OFF n, 28, 4, 0⟩
/-- ISP_CAP.PIPE0_MAX, bits 7:0, RO (R338). -/
def ISP_CAP_PIPE0_MAX : Fld := ⟨Reg.ISP_CAP, 0, 8, 250⟩
/-- ISP_CAP.PIPE1_MAX, bits 15:8, RO (R338). -/
def ISP_CAP_PIPE1_MAX : Fld := ⟨Reg.ISP_CAP, 8, 8, 250⟩
/-- ISP_CAP.PIPE2_MAX, bits 23:16, RO (R338). -/
def ISP_CAP_PIPE2_MAX : Fld := ⟨Reg.ISP_CAP, 16, 8, 250⟩
/-- ISP_CAP.PIPE3_MAX, bits 31:24, RO (R338). -/
def ISP_CAP_PIPE3_MAX : Fld := ⟨Reg.ISP_CAP, 24, 8, 250⟩
/-- ISP_CTL.PIPE_EN, bits 3:0, RW (R338). -/
def ISP_CTL_PIPE_EN : Fld := ⟨Reg.ISP_CTL, 0, 4, 0⟩
/-- ISP_CTXEN.EN, bits 31:0, RW (R338). -/
def ISP_CTXEN_EN : Fld := ⟨Reg.ISP_CTXEN, 0, 32, 0⟩
/-- ISP_CTXSEL.CTX, bits 4:0, RW (R338). -/
def ISP_CTXSEL_CTX : Fld := ⟨Reg.ISP_CTXSEL, 0, 5, 0⟩
/-- ISP_CTXREC_LO.ADDR, bits 31:7, RW-D (R338). -/
def ISP_CTXREC_LO_ADDR : Fld := ⟨Reg.ISP_CTXREC_LO, 7, 25, 0⟩
/-- ISP_CTXREC_HI.ADDR, bits 15:0, RW-D (R338). -/
def ISP_CTXREC_HI_ADDR : Fld := ⟨Reg.ISP_CTXREC_HI, 0, 16, 0⟩
/-- ISP_WB_RG.R, bits 15:0, RW (R338). -/
def ISP_WB_RG_R : Fld := ⟨Reg.ISP_WB_RG, 0, 16, 0⟩
/-- ISP_WB_RG.G, bits 31:16, RW (R338). -/
def ISP_WB_RG_G : Fld := ⟨Reg.ISP_WB_RG, 16, 16, 0⟩
/-- ISP_WB_B.B, bits 15:0, RW (R338). -/
def ISP_WB_B_B : Fld := ⟨Reg.ISP_WB_B, 0, 16, 0⟩
/-- ISP_FEED.FRAME, bits 15:0, WO (R338). -/
def ISP_FEED_FRAME : Fld := ⟨Reg.ISP_FEED, 0, 16, 0⟩
/-- ISP_FEED.CTX, bits 20:16, WO (R338). -/
def ISP_FEED_CTX : Fld := ⟨Reg.ISP_FEED, 16, 5, 0⟩
/-- ISP_FEED.GO, bits 31:31, WO (R338). -/
def ISP_FEED_GO : Fld := ⟨Reg.ISP_FEED, 31, 1, 0⟩
/-- ISP_STAT.CFG_IGNORED, bits 0:0, W1C (R338). -/
def ISP_STAT_CFG_IGNORED : Fld := ⟨Reg.ISP_STAT, 0, 1, 0⟩
/-- ISP_STAT.CTX_REFUSED, bits 1:1, W1C (R338). -/
def ISP_STAT_CTX_REFUSED : Fld := ⟨Reg.ISP_STAT, 1, 1, 0⟩
/-- ISP_STAT.PIPE_BUSY, bits 5:2, RO (R338). -/
def ISP_STAT_PIPE_BUSY : Fld := ⟨Reg.ISP_STAT, 2, 4, 0⟩
/-- ISP_STAT.TABLE_KIB, bits 15:6, RO (R338). -/
def ISP_STAT_TABLE_KIB : Fld := ⟨Reg.ISP_STAT, 6, 10, 0⟩
/-- ISP_STAT.UNTAKEN, bits 31:16, W1C (R338). -/
def ISP_STAT_UNTAKEN : Fld := ⟨Reg.ISP_STAT, 16, 16, 0⟩
/-- STR_CTL.ENABLE, bits 0:0, RW (R338). -/
def STR_CTL_ENABLE : Fld := ⟨Reg.STR_CTL, 0, 1, 0⟩
/-- STR_CTL.P1, bits 15:8, RW-D (R338). -/
def STR_CTL_P1 : Fld := ⟨Reg.STR_CTL, 8, 8, 8⟩
/-- STR_CTL.P2, bits 23:16, RW-D (R338). -/
def STR_CTL_P2 : Fld := ⟨Reg.STR_CTL, 16, 8, 32⟩
/-- STR_CTL.LR_TOL, bits 27:24, RW-D (R338). -/
def STR_CTL_LR_TOL : Fld := ⟨Reg.STR_CTL, 24, 4, 1⟩
/-- STR_STAT.BUSY, bits 0:0, RO (R338). -/
def STR_STAT_BUSY : Fld := ⟨Reg.STR_STAT, 0, 1, 0⟩
/-- STR_STAT.CFG_IGNORED, bits 1:1, W1C (R338). -/
def STR_STAT_CFG_IGNORED : Fld := ⟨Reg.STR_STAT, 1, 1, 0⟩
/-- CDC_CTL.ENABLE, bits 3:0, RW (R349). -/
def CDC_CTL_ENABLE : Fld := ⟨Reg.CDC_CTL, 0, 4, 0⟩
/-- CDC_STAT.BUSY, bits 3:0, RO (R349). -/
def CDC_STAT_BUSY : Fld := ⟨Reg.CDC_STAT, 0, 4, 0⟩
/-- CDC_STAT.PAIRED, bits 5:4, RO (R349). -/
def CDC_STAT_PAIRED : Fld := ⟨Reg.CDC_STAT, 4, 2, 0⟩
/-- CDC_STAT.ERRORS, bits 31:16, W1C (R349). -/
def CDC_STAT_ERRORS : Fld := ⟨Reg.CDC_STAT, 16, 16, 0⟩
/-- DRC_BULKCAP.L2, bits 7:0, RW (R352). -/
def DRC_BULKCAP_L2 : Fld := ⟨Reg.DRC_BULKCAP, 0, 8, 64⟩
/-- DRC_BULKCAP.CDC, bits 15:8, RW (R352). -/
def DRC_BULKCAP_CDC : Fld := ⟨Reg.DRC_BULKCAP, 8, 8, 64⟩
/-- DRC_BULKCAP.IMG, bits 23:16, RW (R352). -/
def DRC_BULKCAP_IMG : Fld := ⟨Reg.DRC_BULKCAP, 16, 8, 32⟩
/-- DRC_BULKCAP.NET, bits 31:24, RW (R352). -/
def DRC_BULKCAP_NET : Fld := ⟨Reg.DRC_BULKCAP, 24, 8, 64⟩
/-- DRC_BULKCAP2.PCIE, bits 7:0, RW (R352). -/
def DRC_BULKCAP2_PCIE : Fld := ⟨Reg.DRC_BULKCAP2, 0, 8, 128⟩
/-- DRC_CFG.HASH, bits 1:0, RWL (R376). -/
def DRC_CFG_HASH : Fld := ⟨Reg.DRC_CFG, 0, 2, 2⟩
/-- DRC_CFG.IBECC, bits 2:2, RWL (R376). -/
def DRC_CFG_IBECC : Fld := ⟨Reg.DRC_CFG, 2, 1, 0⟩
/-- DRC_CFG.PAGE_DEFAULT, bits 3:3, RWL (R376). -/
def DRC_CFG_PAGE_DEFAULT : Fld := ⟨Reg.DRC_CFG, 3, 1, 0⟩
/-- DRC_CFG.INIT, bits 31:31, RWL (R376). -/
def DRC_CFG_INIT : Fld := ⟨Reg.DRC_CFG, 31, 1, 0⟩
/-- DRC_STAT.READY, bits 0:0, RO (R376). -/
def DRC_STAT_READY : Fld := ⟨Reg.DRC_STAT, 0, 1, 0⟩
/-- DRC_STAT.CFG_IGNORED, bits 1:1, W1C (R376). -/
def DRC_STAT_CFG_IGNORED : Fld := ⟨Reg.DRC_STAT, 1, 1, 0⟩
/-- DRC_STAT.HOT, bits 5:2, RO (R376). -/
def DRC_STAT_HOT : Fld := ⟨Reg.DRC_STAT, 2, 4, 0⟩
/-- DRC_STAT.FORCED, bits 31:16, W1C (R376). -/
def DRC_STAT_FORCED : Fld := ⟨Reg.DRC_STAT, 16, 16, 0⟩
/-- DRC_RH.THRESH, bits 15:0, RW-D (R376). -/
def DRC_RH_THRESH : Fld := ⟨Reg.DRC_RH, 0, 16, 8192⟩
/-- DRC_SKEWSTAT.CH, bits 3:0, RO (R376). -/
def DRC_SKEWSTAT_CH : Fld := ⟨Reg.DRC_SKEWSTAT, 0, 4, 0⟩
/-- DRC_SKEWSTAT.RUN, bits 10:4, RO (R376). -/
def DRC_SKEWSTAT_RUN : Fld := ⟨Reg.DRC_SKEWSTAT, 4, 7, 0⟩
/-- DRC_SKEWSTAT.THROTTLED, bits 27:16, RO (R376). -/
def DRC_SKEWSTAT_THROTTLED : Fld := ⟨Reg.DRC_SKEWSTAT, 16, 12, 0⟩
/-- DRC_SCRUB_CTL.TAGS, bits 7:0, RW-D (R376). -/
def DRC_SCRUB_CTL_TAGS : Fld := ⟨Reg.DRC_SCRUB_CTL, 0, 8, 64⟩
/-- DRC_SCRUB_CTL.PATROL_US, bits 23:8, RW-D (R376). -/
def DRC_SCRUB_CTL_PATROL_US : Fld := ⟨Reg.DRC_SCRUB_CTL, 8, 16, 10⟩
/-- DRC_SCRUB_STAT.DONE, bits 0:0, W1C (R376). -/
def DRC_SCRUB_STAT_DONE : Fld := ⟨Reg.DRC_SCRUB_STAT, 0, 1, 0⟩
/-- DRC_SCRUB_STAT.QUEUED, bits 3:1, RO (R376). -/
def DRC_SCRUB_STAT_QUEUED : Fld := ⟨Reg.DRC_SCRUB_STAT, 1, 3, 0⟩
/-- DRC_TRN_SEL.CH, bits 3:0, RW (R376). -/
def DRC_TRN_SEL_CH : Fld := ⟨Reg.DRC_TRN_SEL, 0, 4, 0⟩
/-- DRC_TRN_SEL.BIT, bits 8:4, RW (R376). -/
def DRC_TRN_SEL_BIT : Fld := ⟨Reg.DRC_TRN_SEL, 4, 5, 0⟩
/-- DRC_TRN_CTL.PATTERN, bits 1:0, RW (R376). -/
def DRC_TRN_CTL_PATTERN : Fld := ⟨Reg.DRC_TRN_CTL, 0, 2, 2⟩
/-- DRC_TRN_CTL.OP, bits 3:2, RW (R376). -/
def DRC_TRN_CTL_OP : Fld := ⟨Reg.DRC_TRN_CTL, 2, 2, 0⟩
/-- DRC_TRN_CTL.OWNER, bits 4:4, RWL (R376). -/
def DRC_TRN_CTL_OWNER : Fld := ⟨Reg.DRC_TRN_CTL, 4, 1, 0⟩
/-- DRC_TRN_CTL.GO, bits 31:31, WO (R376). -/
def DRC_TRN_CTL_GO : Fld := ⟨Reg.DRC_TRN_CTL, 31, 1, 0⟩
/-- DRC_TRN_RES.ERRORS, bits 23:0, RO (R376). -/
def DRC_TRN_RES_ERRORS : Fld := ⟨Reg.DRC_TRN_RES, 0, 24, 0⟩
/-- DRC_TRN_RES.DESKEW, bits 30:24, RO (R376). -/
def DRC_TRN_RES_DESKEW : Fld := ⟨Reg.DRC_TRN_RES, 24, 7, 0⟩
/-- DRC_TRN_RES.DONE, bits 31:31, RO (R376). -/
def DRC_TRN_RES_DONE : Fld := ⟨Reg.DRC_TRN_RES, 31, 1, 0⟩
/-- NET_CTL.ENABLE, bits 0:0, RW (R400). -/
def NET_CTL_ENABLE : Fld := ⟨Reg.NET_CTL, 0, 1, 0⟩
/-- NET_CTL.PORT_EN, bits 6:1, RW (R400). -/
def NET_CTL_PORT_EN : Fld := ⟨Reg.NET_CTL, 1, 6, 0⟩
/-- NET_CTL.GCL_SRC, bits 7:7, RW-D (R400). -/
def NET_CTL_GCL_SRC : Fld := ⟨Reg.NET_CTL, 7, 1, 0⟩
/-- NET_CTL.GPTP_DOMAIN, bits 23:16, RW-D (R400). -/
def NET_CTL_GPTP_DOMAIN : Fld := ⟨Reg.NET_CTL, 16, 8, 0⟩
/-- NET_STAT.CFG_IGNORED, bits 0:0, W1C (R400). -/
def NET_STAT_CFG_IGNORED : Fld := ⟨Reg.NET_STAT, 0, 1, 0⟩
/-- NET_STAT.UNMATCHED, bits 31:16, W1C (R400). -/
def NET_STAT_UNMATCHED : Fld := ⟨Reg.NET_STAT, 16, 16, 0⟩
/-- NET_PORTn_CFG.SPEED, bits 1:0, RW-D (R400). -/
def NET_PORT_CFG_SPEED (n : Nat) : Fld := ⟨Reg.NET_PORT_CFG n, 0, 2, 0⟩
/-- NET_PORTn_CFG.FEC, bits 3:2, RW-D (R400). -/
def NET_PORT_CFG_FEC (n : Nat) : Fld := ⟨Reg.NET_PORT_CFG n, 2, 2, 3⟩
/-- NET_PORTn_CFG.MAX_FRAME, bits 17:4, RW-D (R400). -/
def NET_PORT_CFG_MAX_FRAME (n : Nat) : Fld := ⟨Reg.NET_PORT_CFG n, 4, 14, 1522⟩
/-- NET_PORTn_CFG.LINK, bits 31:31, RO (R400). -/
def NET_PORT_CFG_LINK (n : Nat) : Fld := ⟨Reg.NET_PORT_CFG n, 31, 1, 0⟩
/-- MEP_CFG.DOMAIN, bits 7:0, RW-D (R400). -/
def MEP_CFG_DOMAIN : Fld := ⟨Reg.MEP_CFG, 0, 8, 0⟩
/-- MEP_CFG.PRIO, bits 15:8, RW-D (R400). -/
def MEP_CFG_PRIO : Fld := ⟨Reg.MEP_CFG, 8, 8, 0⟩
/-- MEP_CFG.COLLECT_US, bits 27:16, RW-D (R400). -/
def MEP_CFG_COLLECT_US : Fld := ⟨Reg.MEP_CFG, 16, 12, 400⟩
/-- MEP_CFG2.RAISE_TICKS, bits 7:0, RW-D (R400). -/
def MEP_CFG2_RAISE_TICKS : Fld := ⟨Reg.MEP_CFG2, 0, 8, 30⟩
/-- MEP_CFG2.RAISE_STEP_MHZ, bits 15:8, RW-D (R400). -/
def MEP_CFG2_RAISE_STEP_MHZ : Fld := ⟨Reg.MEP_CFG2, 8, 8, 25⟩
/-- MEP_CFG2.CEIL_MAX_MHZ, bits 27:16, RW-D (R400). -/
def MEP_CFG2_CEIL_MAX_MHZ : Fld := ⟨Reg.MEP_CFG2, 16, 12, 1500⟩
/-- MEP_STAT.STATE, bits 2:0, RO (R400). -/
def MEP_STAT_STATE : Fld := ⟨Reg.MEP_STAT, 0, 3, 0⟩
/-- MEP_STAT.REASON, bits 4:3, RO (R400). -/
def MEP_STAT_REASON : Fld := ⟨Reg.MEP_STAT, 3, 2, 0⟩
/-- MEP_STAT.VERSION, bits 8:5, RO (R400). -/
def MEP_STAT_VERSION : Fld := ⟨Reg.MEP_STAT, 5, 4, 0⟩
/-- MEP_STAT.MEMBER, bits 16:9, RO (R400). -/
def MEP_STAT_MEMBER : Fld := ⟨Reg.MEP_STAT, 9, 8, 0⟩
/-- MEP_STAT.MEMBERS, bits 25:17, RO (R400). -/
def MEP_STAT_MEMBERS : Fld := ⟨Reg.MEP_STAT, 17, 9, 0⟩
/-- NET_RXREL.SESSION, bits 10:0, WO (R400). -/
def NET_RXREL_SESSION : Fld := ⟨Reg.NET_RXREL, 0, 11, 0⟩
/-- NET_RXREL.COUNT, bits 19:11, WO (R400). -/
def NET_RXREL_COUNT : Fld := ⟨Reg.NET_RXREL, 11, 9, 0⟩
/-- NET_BARREC.SLOT, bits 3:0, WO (R400). -/
def NET_BARREC_SLOT : Fld := ⟨Reg.NET_BARREC, 0, 4, 0⟩
/-- NET_BARREC.OFFSET, bits 20:6, WO (R400). -/
def NET_BARREC_OFFSET : Fld := ⟨Reg.NET_BARREC, 6, 15, 0⟩
/-- NET_BARREC.VALID, bits 31:31, WO (R400). -/
def NET_BARREC_VALID : Fld := ⟨Reg.NET_BARREC, 31, 1, 0⟩
/-- NET_BARRIER.JOB, bits 15:0, WO (R400). -/
def NET_BARRIER_JOB : Fld := ⟨Reg.NET_BARRIER, 0, 16, 0⟩
/-- NET_BARRIER.STEP, bits 31:16, WO (R400). -/
def NET_BARRIER_STEP : Fld := ⟨Reg.NET_BARRIER, 16, 16, 0⟩
/-- HIF_CAP.FHP_MIN, bits 3:0, RO (R419). -/
def HIF_CAP_FHP_MIN : Fld := ⟨Reg.HIF_CAP, 0, 4, 1⟩
/-- HIF_CAP.FHP_MAX, bits 7:4, RO (R419). -/
def HIF_CAP_FHP_MAX : Fld := ⟨Reg.HIF_CAP, 4, 4, 2⟩
/-- HIF_CAP.CFMT_MIN, bits 11:8, RO (R419). -/
def HIF_CAP_CFMT_MIN : Fld := ⟨Reg.HIF_CAP, 8, 4, 1⟩
/-- HIF_CAP.CFMT_MAX, bits 15:12, RO (R419). -/
def HIF_CAP_CFMT_MAX : Fld := ⟨Reg.HIF_CAP, 12, 4, 1⟩
/-- HIF_DEVSTAT.BOOT, bits 2:0, RO (R419). -/
def HIF_DEVSTAT_BOOT : Fld := ⟨Reg.HIF_DEVSTAT, 0, 3, 1⟩
/-- HIF_DEVSTAT.FAULT, bits 3:3, RO (R419). -/
def HIF_DEVSTAT_FAULT : Fld := ⟨Reg.HIF_DEVSTAT, 3, 1, 0⟩
/-- HIF_DEVSTAT.TRIAGE_LAPSED, bits 4:4, W1C (R419). -/
def HIF_DEVSTAT_TRIAGE_LAPSED : Fld := ⟨Reg.HIF_DEVSTAT, 4, 1, 0⟩
/-- HIF_DEVSTAT.PAUSED, bits 15:8, RO (R419). -/
def HIF_DEVSTAT_PAUSED : Fld := ⟨Reg.HIF_DEVSTAT, 8, 8, 0⟩
/-- HIF_TRIAGE.PART, bits 7:0, RW (R419). -/
def HIF_TRIAGE_PART : Fld := ⟨Reg.HIF_TRIAGE, 0, 8, 0⟩
/-- HIF_TRIAGE.TIMEOUT_MS, bits 23:8, RW (R419). -/
def HIF_TRIAGE_TIMEOUT_MS : Fld := ⟨Reg.HIF_TRIAGE, 8, 16, 1000⟩
/-- HIF_WINf_LO.ADDR, bits 31:28, RW (R419). -/
def HIF_WIN_LO_ADDR (f : Nat) : Fld := ⟨Reg.HIF_WIN_LO f, 28, 4, 0⟩
/-- HIF_WINf_HI.ADDR, bits 15:0, RW (R419). -/
def HIF_WIN_HI_ADDR (f : Nat) : Fld := ⟨Reg.HIF_WIN_HI f, 0, 16, 0⟩
/-- HIF_FSTAT.STATE, bits 1:0, RO (R419). -/
def HIF_FSTAT_STATE (g : Nat) : Fld := ⟨Reg.HIF_FSTAT g, 0, 2, 0⟩
/-- HIF_FSTAT.REASON, bits 3:2, RO (R419). -/
def HIF_FSTAT_REASON (g : Nat) : Fld := ⟨Reg.HIF_FSTAT g, 2, 2, 0⟩
/-- HIF_FSTAT.VERSION, bits 7:4, RO (R419). -/
def HIF_FSTAT_VERSION (g : Nat) : Fld := ⟨Reg.HIF_FSTAT g, 4, 4, 0⟩
/-- HIF_FSTAT.HOST_VMIN, bits 11:8, RO (R419). -/
def HIF_FSTAT_HOST_VMIN (g : Nat) : Fld := ⟨Reg.HIF_FSTAT g, 8, 4, 0⟩
/-- HIF_FSTAT.HOST_VMAX, bits 15:12, RO (R419). -/
def HIF_FSTAT_HOST_VMAX (g : Nat) : Fld := ⟨Reg.HIF_FSTAT g, 12, 4, 0⟩
/-- HIF_FSTAT.RING_ERR, bits 19:16, W1C (R419). -/
def HIF_FSTAT_RING_ERR (g : Nat) : Fld := ⟨Reg.HIF_FSTAT g, 16, 4, 0⟩
/-- HIF_RINGn_CFG.ENABLE, bits 0:0, RW (R419). -/
def HIF_RING_CFG_ENABLE (g : Nat) (n : Nat) : Fld := ⟨Reg.HIF_RING_CFG g n, 0, 1, 0⟩
/-- HIF_RINGn_CFG.SQ_LOG2, bits 4:1, RW-D (R419). -/
def HIF_RING_CFG_SQ_LOG2 (g : Nat) (n : Nat) : Fld := ⟨Reg.HIF_RING_CFG g n, 1, 4, 1⟩
/-- HIF_RINGn_CFG.CQ_LOG2, bits 8:5, RW-D (R419). -/
def HIF_RING_CFG_CQ_LOG2 (g : Nat) (n : Nat) : Fld := ⟨Reg.HIF_RING_CFG g n, 5, 4, 1⟩
/-- HIF_RINGn_CFG.VECTOR, bits 12:9, RW-D (R419). -/
def HIF_RING_CFG_VECTOR (g : Nat) (n : Nat) : Fld := ⟨Reg.HIF_RING_CFG g n, 9, 4, 0⟩
/-- HIF_SQn_BASE_LO.ADDR, bits 31:12, RW-D (R419). -/
def HIF_SQ_BASE_LO_ADDR (g : Nat) (n : Nat) : Fld := ⟨Reg.HIF_SQ_BASE_LO g n, 12, 20, 0⟩
/-- HIF_CQn_BASE_LO.ADDR, bits 31:12, RW-D (R419). -/
def HIF_CQ_BASE_LO_ADDR (g : Nat) (n : Nat) : Fld := ⟨Reg.HIF_CQ_BASE_LO g n, 12, 20, 0⟩
/-- HIF_SQn_BASE_HI.ADDR, bits 31:0, RW-D (R419). -/
def HIF_SQ_BASE_HI_ADDR (g : Nat) (n : Nat) : Fld := ⟨Reg.HIF_SQ_BASE_HI g n, 0, 32, 0⟩
/-- HIF_CQn_BASE_HI.ADDR, bits 31:0, RW-D (R419). -/
def HIF_CQ_BASE_HI_ADDR (g : Nat) (n : Nat) : Fld := ⟨Reg.HIF_CQ_BASE_HI g n, 0, 32, 0⟩
/-- HIF_SQTAILn.TAIL, bits 11:0, WO (R419). -/
def HIF_SQTAIL_TAIL (g : Nat) (n : Nat) : Fld := ⟨Reg.HIF_SQTAIL g n, 0, 12, 0⟩
/-- HIF_CQHEADn.HEAD, bits 11:0, WO (R419). -/
def HIF_CQHEAD_HEAD (g : Nat) (n : Nat) : Fld := ⟨Reg.HIF_CQHEAD g n, 0, 12, 0⟩
/-- KILN_CAP.CAP_QW, bits 8:0, RW (R442). -/
def KILN_CAP_CAP_QW : Fld := ⟨Reg.KILN_CAP, 0, 9, 300⟩
/-- KILN_CAP.EFF_QW, bits 24:16, RO (R442). -/
def KILN_CAP_EFF_QW : Fld := ⟨Reg.KILN_CAP, 16, 9, 300⟩
/-- KILN_DAMP.GAIN_P, bits 7:0, RW (R442). -/
def KILN_DAMP_GAIN_P : Fld := ⟨Reg.KILN_DAMP, 0, 8, 32⟩
/-- KILN_DAMP.GAIN_I, bits 15:8, RW (R442). -/
def KILN_DAMP_GAIN_I : Fld := ⟨Reg.KILN_DAMP, 8, 8, 16⟩
/-- KILN_DAMP.DMAX, bits 23:16, RW (R442). -/
def KILN_DAMP_DMAX : Fld := ⟨Reg.KILN_DAMP, 16, 8, 192⟩
/-- KILN_DAMPW.W_ACLK, bits 3:0, RW (R442). -/
def KILN_DAMPW_W_ACLK : Fld := ⟨Reg.KILN_DAMPW, 0, 4, 8⟩
/-- KILN_DAMPW.W_HC, bits 7:4, RW (R442). -/
def KILN_DAMPW_W_HC : Fld := ⟨Reg.KILN_DAMPW, 4, 4, 8⟩
/-- KILN_DAMPW.W_IMG, bits 11:8, RW (R442). -/
def KILN_DAMPW_W_IMG : Fld := ⟨Reg.KILN_DAMPW, 8, 4, 8⟩
/-- KILN_DAMPW.W_CDC, bits 15:12, RW (R442). -/
def KILN_DAMPW_W_CDC : Fld := ⟨Reg.KILN_DAMPW, 12, 4, 8⟩
/-- KILN_STAT.D_ACLK, bits 7:0, RO (R442). -/
def KILN_STAT_D_ACLK : Fld := ⟨Reg.KILN_STAT, 0, 8, 0⟩
/-- KILN_STAT.D_HC, bits 15:8, RO (R442). -/
def KILN_STAT_D_HC : Fld := ⟨Reg.KILN_STAT, 8, 8, 0⟩
/-- KILN_STAT.AVAIL_MHZ, bits 27:16, RO (R442). -/
def KILN_STAT_AVAIL_MHZ : Fld := ⟨Reg.KILN_STAT, 16, 12, 1500⟩
/-- KILN_STAT.AT_DMAX, bits 28:28, RO (R442). -/
def KILN_STAT_AT_DMAX : Fld := ⟨Reg.KILN_STAT, 28, 1, 0⟩
/-- KILN_STAT.THROTTLING, bits 29:29, RO (R442). -/
def KILN_STAT_THROTTLING : Fld := ⟨Reg.KILN_STAT, 29, 1, 0⟩
/-- KILN_PWR.IN_QW, bits 9:0, RO (R442). -/
def KILN_PWR_IN_QW : Fld := ⟨Reg.KILN_PWR, 0, 10, 0⟩
/-- KILN_PWR.VIN, bits 27:16, RO (R442). -/
def KILN_PWR_VIN : Fld := ⟨Reg.KILN_PWR, 16, 12, 0⟩
/-- KILN_RAILSEL.RAIL, bits 4:0, RW (R442). -/
def KILN_RAILSEL_RAIL : Fld := ⟨Reg.KILN_RAILSEL, 0, 5, 0⟩
/-- KILN_RAIL.MV, bits 11:0, RO (R442). -/
def KILN_RAIL_MV : Fld := ⟨Reg.KILN_RAIL, 0, 12, 0⟩
/-- KILN_RAIL.CUR, bits 27:12, RO (R442). -/
def KILN_RAIL_CUR : Fld := ⟨Reg.KILN_RAIL, 12, 16, 0⟩
/-- KILN_VFSEL.RAIL, bits 3:0, RW (R442). -/
def KILN_VFSEL_RAIL : Fld := ⟨Reg.KILN_VFSEL, 0, 4, 0⟩
/-- KILN_VFSEL.POINT, bits 7:4, RW (R442). -/
def KILN_VFSEL_POINT : Fld := ⟨Reg.KILN_VFSEL, 4, 4, 0⟩
/-- KILN_VF.MHZ, bits 11:0, RO (R442). -/
def KILN_VF_MHZ : Fld := ⟨Reg.KILN_VF, 0, 12, 0⟩
/-- KILN_VF.MV, bits 25:16, RO (R442). -/
def KILN_VF_MV : Fld := ⟨Reg.KILN_VF, 16, 10, 0⟩
/-- KILN_ACLK.CUR_MHZ, bits 11:0, RO (R442). -/
def KILN_ACLK_CUR_MHZ : Fld := ⟨Reg.KILN_ACLK, 0, 12, 1500⟩
/-- KILN_ACLK.TARGET_MHZ, bits 23:12, RW (R442). -/
def KILN_ACLK_TARGET_MHZ : Fld := ⟨Reg.KILN_ACLK, 12, 12, 1500⟩
/-- KILN_ACLK.POINT, bits 27:24, RO (R442). -/
def KILN_ACLK_POINT : Fld := ⟨Reg.KILN_ACLK, 24, 4, 10⟩
/-- KILN_HCk.FMAX, bits 7:0, RO (R442). -/
def KILN_HC_FMAX (k : Nat) : Fld := ⟨Reg.KILN_HC k, 0, 8, 240⟩
/-- KILN_HCk.TARGET, bits 15:8, RW (R442). -/
def KILN_HC_TARGET (k : Nat) : Fld := ⟨Reg.KILN_HC k, 8, 8, 240⟩
/-- KILN_HCk.CUR, bits 23:16, RO (R442). -/
def KILN_HC_CUR (k : Nat) : Fld := ⟨Reg.KILN_HC k, 16, 8, 240⟩
/-- KILN_HC_FLOOR.FLOOR, bits 7:0, RW (R442). -/
def KILN_HC_FLOOR_FLOOR : Fld := ⟨Reg.KILN_HC_FLOOR, 0, 8, 0⟩
/-- KILN_TH.WARN_C, bits 7:0, RW (R442). -/
def KILN_TH_WARN_C : Fld := ⟨Reg.KILN_TH, 0, 8, 95⟩
/-- KILN_TH.THROTTLE_C, bits 15:8, RW (R442). -/
def KILN_TH_THROTTLE_C : Fld := ⟨Reg.KILN_TH, 8, 8, 100⟩
/-- KILN_TH.TRIP_C, bits 23:16, RW (R442). -/
def KILN_TH_TRIP_C : Fld := ⟨Reg.KILN_TH, 16, 8, 110⟩
/-- KILN_TSEL.SENSOR, bits 4:0, RW (R442). -/
def KILN_TSEL_SENSOR : Fld := ⟨Reg.KILN_TSEL, 0, 5, 0⟩
/-- KILN_TEMP.DEG_Q, bits 15:0, RO (R442). -/
def KILN_TEMP_DEG_Q : Fld := ⟨Reg.KILN_TEMP, 0, 16, 0⟩
/-- KILN_TEMP.HOTTEST, bits 20:16, RO (R442). -/
def KILN_TEMP_HOTTEST : Fld := ⟨Reg.KILN_TEMP, 16, 5, 0⟩
/-- KILN_DROOP.MV, bits 7:0, RW (R442). -/
def KILN_DROOP_MV : Fld := ⟨Reg.KILN_DROOP, 0, 8, 50⟩
/-- KILN_DROOP.COUNT, bits 31:16, W1C (R442). -/
def KILN_DROOP_COUNT : Fld := ⟨Reg.KILN_DROOP, 16, 16, 0⟩
/-- KILN_EMBER.ENTER, bits 0:0, WO (R442). -/
def KILN_EMBER_ENTER : Fld := ⟨Reg.KILN_EMBER, 0, 1, 0⟩
/-- KILN_EMBER.WAKE_EN, bits 3:1, RW (R442). -/
def KILN_EMBER_WAKE_EN : Fld := ⟨Reg.KILN_EMBER, 1, 3, 3⟩
/-- KILN_EMBER.REFUSED, bits 4:4, W1C (R442). -/
def KILN_EMBER_REFUSED : Fld := ⟨Reg.KILN_EMBER, 4, 1, 0⟩
/-- KILN_EMBER.LAST_WAKE, bits 6:5, RO (R442). -/
def KILN_EMBER_LAST_WAKE : Fld := ⟨Reg.KILN_EMBER, 5, 2, 0⟩
/-- KILN_EMBER.WAKE_MS, bits 31:8, RW (R442). -/
def KILN_EMBER_WAKE_MS : Fld := ⟨Reg.KILN_EMBER, 8, 24, 0⟩
/-- EMN_BOOT_STAT.STAGE, bits 2:0, RO (R460). -/
def EMN_BOOT_STAT_STAGE : Fld := ⟨Reg.EMN_BOOT_STAT, 0, 3, 0⟩
/-- EMN_BOOT_STAT.SLOT, bits 3:3, RO (R460). -/
def EMN_BOOT_STAT_SLOT : Fld := ⟨Reg.EMN_BOOT_STAT, 3, 1, 0⟩
/-- EMN_BOOT_STAT.TRIAL, bits 4:4, RO (R460). -/
def EMN_BOOT_STAT_TRIAL : Fld := ⟨Reg.EMN_BOOT_STAT, 4, 1, 0⟩
/-- EMN_BOOT_STAT.SVN_FUSED, bits 14:8, RO (R460). -/
def EMN_BOOT_STAT_SVN_FUSED : Fld := ⟨Reg.EMN_BOOT_STAT, 8, 7, 0⟩
/-- EMN_BOOT_STAT.SEQ, bits 31:16, RO (R460). -/
def EMN_BOOT_STAT_SEQ : Fld := ⟨Reg.EMN_BOOT_STAT, 16, 16, 0⟩
/-- EMN_UPD_ADDR_LO.ADDR, bits 31:12, RW (R460). -/
def EMN_UPD_ADDR_LO_ADDR : Fld := ⟨Reg.EMN_UPD_ADDR_LO, 12, 20, 0⟩
/-- EMN_UPD_ADDR_HI.ADDR, bits 15:0, RW (R460). -/
def EMN_UPD_ADDR_HI_ADDR : Fld := ⟨Reg.EMN_UPD_ADDR_HI, 0, 16, 0⟩
/-- EMN_UPD_CMD.CMD, bits 2:0, WO (R460). -/
def EMN_UPD_CMD_CMD : Fld := ⟨Reg.EMN_UPD_CMD, 0, 3, 0⟩
/-- EMN_UPD_CMD.BUSY, bits 3:3, RO (R460). -/
def EMN_UPD_CMD_BUSY : Fld := ⟨Reg.EMN_UPD_CMD, 3, 1, 0⟩
/-- EMN_UPD_CMD.RESULT, bits 7:4, RO (R460). -/
def EMN_UPD_CMD_RESULT : Fld := ⟨Reg.EMN_UPD_CMD, 4, 4, 0⟩
/-- EMN_UPD_CMD.LEN_KIB, bits 31:8, RW (R460). -/
def EMN_UPD_CMD_LEN_KIB : Fld := ⟨Reg.EMN_UPD_CMD, 8, 24, 0⟩
/-- EMN_PART_ADDR_LO.ADDR, bits 31:6, RW (R480). -/
def EMN_PART_ADDR_LO_ADDR : Fld := ⟨Reg.EMN_PART_ADDR_LO, 6, 26, 0⟩
/-- EMN_PART_ADDR_HI.ADDR, bits 15:0, RW (R480). -/
def EMN_PART_ADDR_HI_ADDR : Fld := ⟨Reg.EMN_PART_ADDR_HI, 0, 16, 0⟩
/-- EMN_PART_ADDR_HI.LEN_KIB, bits 29:16, RW (R480). -/
def EMN_PART_ADDR_HI_LEN_KIB : Fld := ⟨Reg.EMN_PART_ADDR_HI, 16, 14, 0⟩
/-- EMN_PART_CMD.PART, bits 2:0, WO (R480). -/
def EMN_PART_CMD_PART : Fld := ⟨Reg.EMN_PART_CMD, 0, 3, 0⟩
/-- EMN_PART_CMD.CMD, bits 5:3, WO (R480). -/
def EMN_PART_CMD_CMD : Fld := ⟨Reg.EMN_PART_CMD, 3, 3, 0⟩
/-- EMN_PART_CMD.QUARTER, bits 7:6, WO (R480). -/
def EMN_PART_CMD_QUARTER : Fld := ⟨Reg.EMN_PART_CMD, 6, 2, 0⟩
/-- EMN_PART_STAT.STATE, bits 23:0, RO (R480). -/
def EMN_PART_STAT_STATE : Fld := ⟨Reg.EMN_PART_STAT, 0, 24, 4⟩
/-- EMN_PART_STAT.RESULT, bits 26:24, RO (R480). -/
def EMN_PART_STAT_RESULT : Fld := ⟨Reg.EMN_PART_STAT, 24, 3, 0⟩
/-- EMN_PART_STAT.BUSY, bits 27:27, RO (R480). -/
def EMN_PART_STAT_BUSY : Fld := ⟨Reg.EMN_PART_STAT, 27, 1, 0⟩
/-- EMN_PART_STAT.QUAR, bits 31:28, RO (R480). -/
def EMN_PART_STAT_QUAR : Fld := ⟨Reg.EMN_PART_STAT, 28, 4, 0⟩
/-- EMN_DBG.OPEN, bits 0:0, RO (R480). -/
def EMN_DBG_OPEN : Fld := ⟨Reg.EMN_DBG, 0, 1, 0⟩
/-- EMN_DBG.FAILS, bits 2:1, RO (R480). -/
def EMN_DBG_FAILS : Fld := ⟨Reg.EMN_DBG, 1, 2, 0⟩
/-- EMN_DBG.COUNT, bits 31:16, RO (R480). -/
def EMN_DBG_COUNT : Fld := ⟨Reg.EMN_DBG, 16, 16, 0⟩
/-- EMN_ATT_ADDR_LO.ADDR, bits 31:6, RW (R480). -/
def EMN_ATT_ADDR_LO_ADDR : Fld := ⟨Reg.EMN_ATT_ADDR_LO, 6, 26, 0⟩
/-- EMN_ATT_ADDR_HI.ADDR, bits 15:0, RW (R480). -/
def EMN_ATT_ADDR_HI_ADDR : Fld := ⟨Reg.EMN_ATT_ADDR_HI, 0, 16, 0⟩
/-- EMN_ATT_CMD.GO, bits 0:0, WO (R480). -/
def EMN_ATT_CMD_GO : Fld := ⟨Reg.EMN_ATT_CMD, 0, 1, 0⟩
/-- EMN_ATT_CMD.BUSY, bits 1:1, RO (R480). -/
def EMN_ATT_CMD_BUSY : Fld := ⟨Reg.EMN_ATT_CMD, 1, 1, 0⟩
/-- EMN_ATT_CMD.RESULT, bits 3:2, RO (R480). -/
def EMN_ATT_CMD_RESULT : Fld := ⟨Reg.EMN_ATT_CMD, 2, 2, 0⟩
/-- EMN_ATT_CMD.LEN, bits 31:16, RO (R480). -/
def EMN_ATT_CMD_LEN : Fld := ⟨Reg.EMN_ATT_CMD, 16, 16, 0⟩
/-- FLT_CTL.WD, bits 15:0, RW (R501). -/
def FLT_CTL_WD (p : Bool) : Fld := ⟨Reg.FLT_CTL p, 0, 16, 100⟩
/-- FLT_STAT.COUNT, bits 5:0, RO (R501). -/
def FLT_STAT_COUNT (p : Bool) : Fld := ⟨Reg.FLT_STAT p, 0, 6, 0⟩
/-- FLT_STAT.HANDLING, bits 8:6, RO (R501). -/
def FLT_STAT_HANDLING (p : Bool) : Fld := ⟨Reg.FLT_STAT p, 6, 3, 0⟩
/-- FLT_STAT.FAULT_LOST, bits 9:9, W1C (R501). -/
def FLT_STAT_FAULT_LOST (p : Bool) : Fld := ⟨Reg.FLT_STAT p, 9, 1, 0⟩
/-- FLT_STAT.LOST_COUNT, bits 31:16, W1C (R501). -/
def FLT_STAT_LOST_COUNT (p : Bool) : Fld := ⟨Reg.FLT_STAT p, 16, 16, 0⟩
/-- FLT_CMD.CMD, bits 2:0, WO (R501). -/
def FLT_CMD_CMD (p : Bool) : Fld := ⟨Reg.FLT_CMD p, 0, 3, 0⟩
/-- FLT_RECi.DATA, bits 31:0, RO (R501). -/
def FLT_REC_DATA (p : Bool) (i : Nat) : Fld := ⟨Reg.FLT_REC p i, 0, 32, 0⟩
/-- BIST_CTL.CLASS_EN, bits 7:0, RW (R501). -/
def BIST_CTL_CLASS_EN : Fld := ⟨Reg.BIST_CTL, 0, 8, 127⟩
/-- BIST_STAT.CLASS, bits 2:0, RO (R501). -/
def BIST_STAT_CLASS : Fld := ⟨Reg.BIST_STAT, 0, 3, 0⟩
/-- BIST_STAT.RESULT, bits 4:3, RO (R501). -/
def BIST_STAT_RESULT : Fld := ⟨Reg.BIST_STAT, 3, 2, 0⟩
/-- BIST_STAT.PASSES, bits 31:16, W1C (R501). -/
def BIST_STAT_PASSES : Fld := ⟨Reg.BIST_STAT, 16, 16, 0⟩
/-- <P>_ID.INDEX, bits 7:0, RO (R504). -/
def BLK_ID_INDEX (p : Bool) (b : Nat) : Fld := ⟨Reg.BLK_ID p b, 0, 8, 0⟩
/-- <P>_ID.DIE, bits 8:8, RO (R504). -/
def BLK_ID_DIE (p : Bool) (b : Nat) : Fld := ⟨Reg.BLK_ID p b, 8, 1, 0⟩
/-- <P>_ID.REV, bits 23:16, RO (R504). -/
def BLK_ID_REV (p : Bool) (b : Nat) : Fld := ⟨Reg.BLK_ID p b, 16, 8, 17⟩
/-- <P>_EVT.CFG_IGNORED, bits 0:0, W1C (R504). -/
def BLK_EVT_CFG_IGNORED (p : Bool) (b : Nat) : Fld := ⟨Reg.BLK_EVT p b, 0, 1, 0⟩
/-- <P>_EVT.GUARD_DROP, bits 1:1, W1C (R504). -/
def BLK_EVT_GUARD_DROP (p : Bool) (b : Nat) : Fld := ⟨Reg.BLK_EVT p b, 1, 1, 0⟩
/-- <P>_EVT.RSVD_WRITE, bits 2:2, W1C (R504). -/
def BLK_EVT_RSVD_WRITE (p : Bool) (b : Nat) : Fld := ⟨Reg.BLK_EVT p b, 2, 1, 0⟩
/-- <P>_EVT.UNASSIGNED, bits 3:3, W1C (R504). -/
def BLK_EVT_UNASSIGNED (p : Bool) (b : Nat) : Fld := ⟨Reg.BLK_EVT p b, 3, 1, 0⟩
/-- DEV_PART.PART, bits 15:0, RO (R509). -/
def DEV_PART_PART : Fld := ⟨Reg.DEV_PART, 0, 16, 1830⟩
/-- DEV_PART.STEP_LETTER, bits 19:16, RO (R509). -/
def DEV_PART_STEP_LETTER : Fld := ⟨Reg.DEV_PART, 16, 4, 1⟩
/-- DEV_PART.STEP_NUM, bits 23:20, RO (R509). -/
def DEV_PART_STEP_NUM : Fld := ⟨Reg.DEV_PART, 20, 4, 1⟩
/-- DEV_UID_LO.UID, bits 31:0, RO (R509). -/
def DEV_UID_LO_UID : Fld := ⟨Reg.DEV_UID_LO, 0, 32, 0⟩
/-- DEV_UID_HI.UID, bits 31:0, RO (R509). -/
def DEV_UID_HI_UID : Fld := ⟨Reg.DEV_UID_HI, 0, 32, 0⟩
/-- RLOG_STAT.HEAD, bits 5:0, RO (R509). -/
def RLOG_STAT_HEAD : Fld := ⟨Reg.RLOG_STAT, 0, 6, 0⟩
/-- RLOG_STAT.WRAPPED, bits 6:6, W1C (R509). -/
def RLOG_STAT_WRAPPED : Fld := ⟨Reg.RLOG_STAT, 6, 1, 0⟩
/-- RLOG_STAT.COUNT, bits 31:16, W1C (R509). -/
def RLOG_STAT_COUNT : Fld := ⟨Reg.RLOG_STAT, 16, 16, 0⟩
/-- RLOG_IDX.IDX, bits 5:0, RW (R509). -/
def RLOG_IDX_IDX : Fld := ⟨Reg.RLOG_IDX, 0, 6, 0⟩
/-- RLOG_DATAj.WORD, bits 31:0, RO (R509). -/
def RLOG_DATA_WORD (j : Nat) : Fld := ⟨Reg.RLOG_DATA j, 0, 32, 0⟩
/-- CRS_CTL.ENABLE, bits 0:0, RW (R509). -/
def CRS_CTL_ENABLE : Fld := ⟨Reg.CRS_CTL, 0, 1, 0⟩
/-- CRS_STAT.BUSY, bits 0:0, RO (R509). -/
def CRS_STAT_BUSY : Fld := ⟨Reg.CRS_STAT, 0, 1, 0⟩
/-- CRS_STAT.CFG_IGNORED, bits 1:1, W1C (R509). -/
def CRS_STAT_CFG_IGNORED : Fld := ⟨Reg.CRS_STAT, 1, 1, 0⟩

end F

/-- The fields of one register with their access codes. -/
abbrev FieldList := List (Fld × Acc)

/-- Fields of CWY_STAT (R24). -/
def fields_CWY_STAT (p : Bool) : FieldList :=
  [(F.CWY_STAT_LINK_UP p, .ro),
   (F.CWY_STAT_FAILED p, .ro),
   (⟨Reg.CWY_STAT p, 2, 6, 0⟩, .resv),
   (F.CWY_STAT_RETRIES p, .w1c),
   (F.CWY_STAT_SIG_REPEATS p, .w1c)]
/-- Fields of TICK_CTL (R40). -/
def fields_TICK_CTL : FieldList :=
  [(F.TICK_CTL_ENABLE, .rw),
   (F.TICK_CTL_MODE, .rwd),
   (F.TICK_CTL_PLAN_SRC, .rwd),
   (⟨Reg.TICK_CTL, 4, 4, 0⟩, .resv),
   (F.TICK_CTL_PERIOD_US, .rwd),
   (⟨Reg.TICK_CTL, 26, 6, 0⟩, .resv)]
/-- Fields of TICK_STAT (R40). -/
def fields_TICK_STAT : FieldList :=
  [(F.TICK_STAT_PLAN_ID, .ro),
   (F.TICK_STAT_ARMED, .ro),
   (F.TICK_STAT_FALLBACK, .ro),
   (F.TICK_STAT_MISS, .w1c),
   (F.TICK_STAT_PLAN_MISMATCH, .ro),
   (⟨Reg.TICK_STAT, 25, 7, 0⟩, .resv)]
/-- Fields of TICK_NUM_LO (R40). -/
def fields_TICK_NUM_LO : FieldList :=
  [(F.TICK_NUM_LO_COUNT, .ro)]
/-- Fields of TICK_NUM_HI (R40). -/
def fields_TICK_NUM_HI : FieldList :=
  [(F.TICK_NUM_HI_COUNT, .ro)]
/-- Fields of ARR_CAP (R96). -/
def fields_ARR_CAP : FieldList :=
  [(F.ARR_CAP_FMT, .ro),
   (⟨Reg.ARR_CAP, 7, 1, 0⟩, .resv),
   (F.ARR_CAP_MODES, .ro),
   (F.ARR_CAP_CHK_AVAIL, .ro),
   (F.ARR_CAP_IN_SERVICE, .ro),
   (F.ARR_CAP_CHK_REASON, .ro),
   (⟨Reg.ARR_CAP, 15, 1, 0⟩, .resv),
   (F.ARR_CAP_ACLK_MAX_MHZ, .ro),
   (⟨Reg.ARR_CAP, 28, 4, 0⟩, .resv)]
/-- Fields of ARR_CTL (R96). -/
def fields_ARR_CTL : FieldList :=
  [(F.ARR_CTL_ENABLE, .rw),
   (F.ARR_CTL_FUSE_BYPASS, .rwd),
   (F.ARR_CTL_RETIRE_EN, .rwd),
   (F.ARR_CTL_RETIRE_MODE, .rwd),
   (⟨Reg.ARR_CTL, 4, 4, 0⟩, .resv),
   (F.ARR_CTL_RETIRE_THRESH, .rwd),
   (F.ARR_CTL_GROUP_ON, .rwd)]
/-- Fields of ARR_STAT (R96). -/
def fields_ARR_STAT : FieldList :=
  [(F.ARR_STAT_BUSY, .ro),
   (F.ARR_STAT_RETIRE_PENDING, .ro),
   (F.ARR_STAT_OUT_OF_SERVICE, .ro),
   (F.ARR_STAT_CFG_IGNORED, .w1c),
   (F.ARR_STAT_GROUPS_SETTLING, .ro),
   (⟨Reg.ARR_STAT, 5, 3, 0⟩, .resv),
   (F.ARR_STAT_W, .ro),
   (F.ARR_STAT_W_ON, .ro),
   (⟨Reg.ARR_STAT, 26, 6, 0⟩, .resv)]
/-- Fields of ARR_CHK_CTL (R96). -/
def fields_ARR_CHK_CTL : FieldList :=
  [(F.ARR_CHK_CTL_PART_EN, .rw),
   (F.ARR_CHK_CTL_ON_UNAVAIL, .rwd),
   (⟨Reg.ARR_CHK_CTL, 9, 7, 0⟩, .resv),
   (F.ARR_CHK_CTL_TOL_ULP, .rwd)]
/-- Fields of ARR_CHK_STAT (R96). -/
def fields_ARR_CHK_STAT : FieldList :=
  [(F.ARR_CHK_STAT_FAILS, .w1c),
   (F.ARR_CHK_STAT_SKIPS, .w1c)]
/-- Fields of ARR_COL_FUSEj (R96). -/
def fields_ARR_COL_FUSE (j : Nat) : FieldList :=
  [(F.ARR_COL_FUSE_BAD j, .ro)]
/-- Fields of ARR_COL_RETIREDj (R96). -/
def fields_ARR_COL_RETIRED (j : Nat) : FieldList :=
  [(F.ARR_COL_RETIRED_RETIRED j, .ro)]
/-- Fields of ARR_COL_RETIRE_REQ (R96). -/
def fields_ARR_COL_RETIRE_REQ : FieldList :=
  [(F.ARR_COL_RETIRE_REQ_COL, .wo),
   (⟨Reg.ARR_COL_RETIRE_REQ, 9, 23, 0⟩, .resv)]
/-- Fields of ARR_COLCNT_SEL (R96). -/
def fields_ARR_COLCNT_SEL : FieldList :=
  [(F.ARR_COLCNT_SEL_SEL, .rw),
   (⟨Reg.ARR_COLCNT_SEL, 9, 23, 0⟩, .resv)]
/-- Fields of ARR_COLCNT (R96). -/
def fields_ARR_COLCNT : FieldList :=
  [(F.ARR_COLCNT_COUNT, .rw),
   (⟨Reg.ARR_COLCNT, 8, 24, 0⟩, .resv)]
/-- Fields of ARR_UTIL_ISSUED_LO (R97). -/
def fields_ARR_UTIL_ISSUED_LO : FieldList :=
  [(F.ARR_UTIL_ISSUED_LO_COUNT, .ro)]
/-- Fields of ARR_UTIL_ISSUED_HI (R97). -/
def fields_ARR_UTIL_ISSUED_HI : FieldList :=
  [(F.ARR_UTIL_ISSUED_HI_COUNT, .ro)]
/-- Fields of ARR_UTIL_USEFUL_LO (R97). -/
def fields_ARR_UTIL_USEFUL_LO : FieldList :=
  [(F.ARR_UTIL_USEFUL_LO_COUNT, .ro)]
/-- Fields of ARR_UTIL_USEFUL_HI (R97). -/
def fields_ARR_UTIL_USEFUL_HI : FieldList :=
  [(F.ARR_UTIL_USEFUL_HI_COUNT, .ro)]
/-- Fields of ARR_UTIL_STALL_LO (R97). -/
def fields_ARR_UTIL_STALL_LO : FieldList :=
  [(F.ARR_UTIL_STALL_LO_COUNT, .ro)]
/-- Fields of ARR_UTIL_STALL_HI (R97). -/
def fields_ARR_UTIL_STALL_HI : FieldList :=
  [(F.ARR_UTIL_STALL_HI_COUNT, .ro)]
/-- Fields of DRN_CTL (R128). -/
def fields_DRN_CTL : FieldList :=
  [(F.DRN_CTL_ENABLE, .rw),
   (⟨Reg.DRN_CTL, 1, 31, 0⟩, .resv)]
/-- Fields of DRN_QMODE (R128). -/
def fields_DRN_QMODE : FieldList :=
  [(F.DRN_QMODE_FORCE_STATIC, .rwd),
   (⟨Reg.DRN_QMODE, 8, 24, 0⟩, .resv)]
/-- Fields of DRN_LFSR_SEED (R128). -/
def fields_DRN_LFSR_SEED : FieldList :=
  [(F.DRN_LFSR_SEED_SEED, .rwd)]
/-- Fields of DRN_STAT (R128). -/
def fields_DRN_STAT : FieldList :=
  [(F.DRN_STAT_BUSY, .ro),
   (F.DRN_STAT_CFG_IGNORED, .w1c),
   (F.DRN_STAT_OPT_SKIP, .w1c),
   (⟨Reg.DRN_STAT, 3, 13, 0⟩, .resv),
   (F.DRN_STAT_OPT_SKIPS, .w1c)]
/-- Fields of DRN_SAT_CNT (R128). -/
def fields_DRN_SAT_CNT : FieldList :=
  [(F.DRN_SAT_CNT_SAT, .w1c),
   (F.DRN_SAT_CNT_NAN, .w1c)]
/-- Fields of MAP_CTL (R156). -/
def fields_MAP_CTL : FieldList :=
  [(F.MAP_CTL_ENABLE, .rw),
   (⟨Reg.MAP_CTL, 1, 7, 0⟩, .resv),
   (F.MAP_CTL_SCRUB_INTERVAL, .rwd),
   (⟨Reg.MAP_CTL, 16, 16, 0⟩, .resv)]
/-- Fields of MAP_STAT (R156). -/
def fields_MAP_STAT : FieldList :=
  [(F.MAP_STAT_CFG_IGNORED, .w1c),
   (⟨Reg.MAP_STAT, 1, 15, 0⟩, .resv),
   (F.MAP_STAT_CORRECTED, .w1c)]
/-- Fields of MAP_AOj (R156). -/
def fields_MAP_AO (j : Nat) : FieldList :=
  [(F.MAP_AO_AO j, .ro)]
/-- Fields of CRD_CTL (R156). -/
def fields_CRD_CTL : FieldList :=
  [(F.CRD_CTL_ENABLE, .rw),
   (⟨Reg.CRD_CTL, 1, 7, 0⟩, .resv),
   (F.CRD_CTL_SCRUB_INTERVAL, .rwd),
   (⟨Reg.CRD_CTL, 16, 16, 0⟩, .resv)]
/-- Fields of CRD_STAT (R156). -/
def fields_CRD_STAT : FieldList :=
  [(F.CRD_STAT_CFG_IGNORED, .w1c),
   (F.CRD_STAT_OPEN_REFUSED, .w1c),
   (F.CRD_STAT_OVER_RELEASE, .w1c),
   (⟨Reg.CRD_STAT, 3, 29, 0⟩, .resv)]
/-- Fields of CRD_TIMEOUT (R156). -/
def fields_CRD_TIMEOUT : FieldList :=
  [(F.CRD_TIMEOUT_US, .rwd),
   (⟨Reg.CRD_TIMEOUT, 16, 16, 0⟩, .resv)]
/-- Fields of CRD_WINSEL (R156). -/
def fields_CRD_WINSEL : FieldList :=
  [(F.CRD_WINSEL_TILE, .rw),
   (⟨Reg.CRD_WINSEL, 5, 3, 0⟩, .resv),
   (F.CRD_WINSEL_WIN, .rw),
   (⟨Reg.CRD_WINSEL, 11, 21, 0⟩, .resv)]
/-- Fields of CRD_WINCFG (R156). -/
def fields_CRD_WINCFG : FieldList :=
  [(F.CRD_WINCFG_BASE_ROW, .rwd),
   (⟨Reg.CRD_WINCFG, 10, 6, 0⟩, .resv),
   (F.CRD_WINCFG_ROWS, .rwd),
   (⟨Reg.CRD_WINCFG, 26, 2, 0⟩, .resv),
   (F.CRD_WINCFG_PART, .rwd),
   (⟨Reg.CRD_WINCFG, 31, 1, 0⟩, .resv)]
/-- Fields of CRD_WINCTL (R156). -/
def fields_CRD_WINCTL : FieldList :=
  [(F.CRD_WINCTL_CMD, .wo),
   (⟨Reg.CRD_WINCTL, 2, 14, 0⟩, .resv),
   (F.CRD_WINCTL_COUNT, .wo),
   (⟨Reg.CRD_WINCTL, 26, 6, 0⟩, .resv)]
/-- Fields of CRD_WINSTAT (R156). -/
def fields_CRD_WINSTAT : FieldList :=
  [(F.CRD_WINSTAT_STATE, .ro),
   (F.CRD_WINSTAT_EPOCH, .ro),
   (F.CRD_WINSTAT_OUTSTANDING, .ro),
   (F.CRD_WINSTAT_POOL, .ro),
   (⟨Reg.CRD_WINSTAT, 30, 2, 0⟩, .resv)]
/-- Fields of CRD_DROPCNT (R156). -/
def fields_CRD_DROPCNT : FieldList :=
  [(F.CRD_DROPCNT_COUNT, .w1c),
   (F.CRD_DROPCNT_LAST_SRC, .ro),
   (⟨Reg.CRD_DROPCNT, 24, 8, 0⟩, .resv)]
/-- Fields of ACC_STAT (R156). -/
def fields_ACC_STAT : FieldList :=
  [(F.ACC_STAT_LIVE, .ro),
   (F.ACC_STAT_DRAINING, .ro),
   (F.ACC_STAT_PARITY_ERRS, .w1c)]
/-- Fields of HXR_CAP (R195). -/
def fields_HXR_CAP (e : Nat) : FieldList :=
  [(F.HXR_CAP_LEVEL_MIN e, .ro),
   (F.HXR_CAP_LEVEL_MAX e, .ro),
   (F.HXR_CAP_WORDS_LOG2 e, .ro),
   (⟨Reg.HXR_CAP e, 12, 20, 0⟩, .resv)]
/-- Fields of HXR_STAT (R195). -/
def fields_HXR_STAT (e : Nat) : FieldList :=
  [(F.HXR_STAT_STATE e, .ro),
   (F.HXR_STAT_LEVEL_BAD e, .ro),
   (F.HXR_STAT_CS_LOCKED e, .ro),
   (⟨Reg.HXR_STAT e, 5, 3, 0⟩, .resv),
   (F.HXR_STAT_PC e, .ro),
   (⟨Reg.HXR_STAT e, 22, 10, 0⟩, .resv)]
/-- Fields of HXR_WAIT (R195). -/
def fields_HXR_WAIT (e : Nat) : FieldList :=
  [(F.HXR_WAIT_QUEUE e, .ro),
   (⟨Reg.HXR_WAIT e, 13, 18, 0⟩, .resv),
   (F.HXR_WAIT_VALID e, .ro)]
/-- Fields of HXR_START (R195). -/
def fields_HXR_START (e : Nat) : FieldList :=
  [(F.HXR_START_ADDR e, .wo),
   (F.HXR_START_PRESET e, .wo),
   (F.HXR_START_GO e, .wo),
   (F.HXR_START_PART e, .wo),
   (⟨Reg.HXR_START e, 19, 13, 0⟩, .resv)]
/-- Fields of HXR_PRESET_LO (R195). -/
def fields_HXR_PRESET_LO (e : Nat) : FieldList :=
  [(⟨Reg.HXR_PRESET_LO e, 0, 7, 0⟩, .resv),
   (F.HXR_PRESET_LO_ADDR e, .rw)]
/-- Fields of HXR_PRESET_HI (R195). -/
def fields_HXR_PRESET_HI (e : Nat) : FieldList :=
  [(F.HXR_PRESET_HI_ADDR e, .rw),
   (⟨Reg.HXR_PRESET_HI e, 16, 16, 0⟩, .resv)]
/-- Fields of QM_QSEL (R196). -/
def fields_QM_QSEL : FieldList :=
  [(F.QM_QSEL_Q, .rw),
   (⟨Reg.QM_QSEL, 13, 19, 0⟩, .resv)]
/-- Fields of QM_QCFG (R196). -/
def fields_QM_QCFG : FieldList :=
  [(F.QM_QCFG_DEPTH, .rwd),
   (⟨Reg.QM_QCFG, 9, 7, 0⟩, .resv),
   (F.QM_QCFG_CONSUMER, .rwd),
   (⟨Reg.QM_QCFG, 21, 3, 0⟩, .resv),
   (F.QM_QCFG_PART, .rwd),
   (⟨Reg.QM_QCFG, 27, 5, 0⟩, .resv)]
/-- Fields of QM_QSTAT (R196). -/
def fields_QM_QSTAT : FieldList :=
  [(F.QM_QSTAT_COUNT, .ro),
   (F.QM_QSTAT_CAIRNS, .ro),
   (F.QM_QSTAT_OVERFLOW, .w1c),
   (⟨Reg.QM_QSTAT, 19, 13, 0⟩, .resv)]
/-- Fields of DMA_CTL (R264). -/
def fields_DMA_CTL (e : Nat) : FieldList :=
  [(F.DMA_CTL_ENABLE e, .rw),
   (⟨Reg.DMA_CTL e, 1, 31, 0⟩, .resv)]
/-- Fields of DMA_STAT (R264). -/
def fields_DMA_STAT (e : Nat) : FieldList :=
  [(F.DMA_STAT_BUSY e, .ro),
   (F.DMA_STAT_CFG_IGNORED e, .w1c),
   (F.DMA_STAT_XFER_ABORT e, .w1c),
   (F.DMA_STAT_AUTH_FAIL e, .w1c),
   (⟨Reg.DMA_STAT e, 4, 4, 0⟩, .resv),
   (F.DMA_STAT_TAGS_OUT e, .ro),
   (⟨Reg.DMA_STAT e, 17, 15, 0⟩, .resv)]
/-- Fields of FP_STAT (R264). -/
def fields_FP_STAT : FieldList :=
  [(F.FP_STAT_TAGS_OUT, .ro),
   (⟨Reg.FP_STAT, 7, 1, 0⟩, .resv),
   (F.FP_STAT_WAITS, .w1c),
   (⟨Reg.FP_STAT, 24, 8, 0⟩, .resv)]
/-- Fields of SCH_SHAREp (R287). -/
def fields_SCH_SHARE (p : Nat) : FieldList :=
  [(F.SCH_SHARE_US p, .rw),
   (⟨Reg.SCH_SHARE p, 18, 13, 0⟩, .resv),
   (F.SCH_SHARE_SPILL p, .rw)]
/-- Fields of SCH_METERp (R287). -/
def fields_SCH_METER (p : Nat) : FieldList :=
  [(F.SCH_METER_USED_US p, .ro),
   (⟨Reg.SCH_METER p, 18, 14, 0⟩, .resv)]
/-- Fields of LBY_CTL (R287). -/
def fields_LBY_CTL : FieldList :=
  [(F.LBY_CTL_SP_LIMIT_US, .rwd),
   (F.LBY_CTL_MIN_RUN_US, .rwd),
   (⟨Reg.LBY_CTL, 20, 12, 0⟩, .resv)]
/-- Fields of LBY_CMD (R287). -/
def fields_LBY_CMD : FieldList :=
  [(F.LBY_CMD_CMD, .wo),
   (F.LBY_CMD_PART, .wo),
   (⟨Reg.LBY_CMD, 5, 27, 0⟩, .resv)]
/-- Fields of LBY_BASEp_LO (R287). -/
def fields_LBY_BASE_LO (p : Nat) : FieldList :=
  [(⟨Reg.LBY_BASE_LO p, 0, 12, 0⟩, .resv),
   (F.LBY_BASE_LO_ADDR p, .rwl)]
/-- Fields of LBY_BASEp_HI (R287). -/
def fields_LBY_BASE_HI (p : Nat) : FieldList :=
  [(F.LBY_BASE_HI_ADDR p, .rwl),
   (⟨Reg.LBY_BASE_HI p, 16, 16, 0⟩, .resv)]
/-- Fields of LBY_STAT (R287). -/
def fields_LBY_STAT : FieldList :=
  [(F.LBY_STAT_STATE, .ro),
   (F.LBY_STAT_PART, .ro),
   (F.LBY_STAT_HELD, .ro),
   (F.LBY_STAT_CFG_IGNORED, .w1c),
   (F.LBY_STAT_SHAPE_DROP, .w1c),
   (F.LBY_STAT_PARKED, .ro),
   (F.LBY_STAT_LATE, .w1c),
   (F.LBY_STAT_AUTH, .w1c),
   (⟨Reg.LBY_STAT, 18, 14, 0⟩, .resv)]
/-- Fields of CAM_CTL (R307). -/
def fields_CAM_CTL : FieldList :=
  [(F.CAM_CTL_PORT_EN, .rw),
   (⟨Reg.CAM_CTL, 4, 12, 0⟩, .resv),
   (F.CAM_CTL_CTX_EN, .rw)]
/-- Fields of CAM_STAT (R307). -/
def fields_CAM_STAT : FieldList :=
  [(F.CAM_STAT_CFG_IGNORED, .w1c),
   (F.CAM_STAT_CTX_REFUSED, .w1c),
   (⟨Reg.CAM_STAT, 2, 2, 0⟩, .resv),
   (F.CAM_STAT_LINK_UP, .ro),
   (⟨Reg.CAM_STAT, 8, 24, 0⟩, .resv)]
/-- Fields of CAM_PORTn_CFG (R308). -/
def fields_CAM_PORT_CFG (n : Nat) : FieldList :=
  [(F.CAM_PORT_CFG_PHY n, .rwd),
   (F.CAM_PORT_CFG_LANES n, .rwd),
   (F.CAM_PORT_CFG_RATE n, .rwd),
   (F.CAM_PORT_CFG_LANE_MAP n, .rwd),
   (F.CAM_PORT_CFG_POLARITY n, .rwd),
   (F.CAM_PORT_CFG_BUS_MODE n, .rwd),
   (F.CAM_PORT_CFG_PULLUP n, .rwd)]
/-- Fields of CAM_PORTERRn (R308). -/
def fields_CAM_PORTERR (n : Nat) : FieldList :=
  [(F.CAM_PORTERR_HDR_BAD n, .w1c),
   (F.CAM_PORTERR_UNMAPPED n, .w1c),
   (F.CAM_PORTERR_ORPHAN_FE n, .w1c),
   (F.CAM_PORTERR_PHY n, .w1c)]
/-- Fields of CAM_PORTn_STAT (R308). -/
def fields_CAM_PORT_STAT (n : Nat) : FieldList :=
  [(F.CAM_PORT_STAT_IBI n, .w1c),
   (F.CAM_PORT_STAT_IBI_ADDR n, .ro),
   (⟨Reg.CAM_PORT_STAT n, 8, 24, 0⟩, .resv)]
/-- Fields of CAM_WSCMD (R308). -/
def fields_CAM_WSCMD : FieldList :=
  [(F.CAM_WSCMD_CTX, .wo),
   (F.CAM_WSCMD_FIRST, .wo),
   (F.CAM_WSCMD_COUNT, .wo),
   (F.CAM_WSCMD_NOEPOCH, .wo),
   (⟨Reg.CAM_WSCMD, 18, 13, 0⟩, .resv),
   (F.CAM_WSCMD_GO, .wo)]
/-- Fields of CAM_WSSTATn (R308). -/
def fields_CAM_WSSTAT (n : Nat) : FieldList :=
  [(F.CAM_WSSTAT_PENDING n, .ro),
   (F.CAM_WSSTAT_REFUSED n, .w1c),
   (F.CAM_WSSTAT_BUS_FAIL n, .w1c),
   (⟨Reg.CAM_WSSTAT n, 5, 11, 0⟩, .resv),
   (F.CAM_WSSTAT_LAST_EPOCH n, .ro)]
/-- Fields of TRG_CFGn (R308). -/
def fields_TRG_CFG (n : Nat) : FieldList :=
  [(F.TRG_CFG_EN n, .rw),
   (F.TRG_CFG_MODE n, .rwd),
   (F.TRG_CFG_POL n, .rwd),
   (F.TRG_CFG_LEVEL n, .rw),
   (F.TRG_CFG_CTX n, .rwd),
   (F.TRG_CFG_EVERY n, .rwd),
   (F.TRG_CFG_WIDTH n, .rwd)]
/-- Fields of TRG_OFFn (R308). -/
def fields_TRG_OFF (n : Nat) : FieldList :=
  [(F.TRG_OFF_OFFSET n, .rwd),
   (F.TRG_OFF_PHASE n, .rwd)]
/-- Fields of ISP_CAP (R338). -/
def fields_ISP_CAP : FieldList :=
  [(F.ISP_CAP_PIPE0_MAX, .ro),
   (F.ISP_CAP_PIPE1_MAX, .ro),
   (F.ISP_CAP_PIPE2_MAX, .ro),
   (F.ISP_CAP_PIPE3_MAX, .ro)]
/-- Fields of ISP_CTL (R338). -/
def fields_ISP_CTL : FieldList :=
  [(F.ISP_CTL_PIPE_EN, .rw),
   (⟨Reg.ISP_CTL, 4, 28, 0⟩, .resv)]
/-- Fields of ISP_CTXEN (R338). -/
def fields_ISP_CTXEN : FieldList :=
  [(F.ISP_CTXEN_EN, .rw)]
/-- Fields of ISP_CTXSEL (R338). -/
def fields_ISP_CTXSEL : FieldList :=
  [(F.ISP_CTXSEL_CTX, .rw),
   (⟨Reg.ISP_CTXSEL, 5, 27, 0⟩, .resv)]
/-- Fields of ISP_CTXREC_LO (R338). -/
def fields_ISP_CTXREC_LO : FieldList :=
  [(⟨Reg.ISP_CTXREC_LO, 0, 7, 0⟩, .resv),
   (F.ISP_CTXREC_LO_ADDR, .rwd)]
/-- Fields of ISP_CTXREC_HI (R338). -/
def fields_ISP_CTXREC_HI : FieldList :=
  [(F.ISP_CTXREC_HI_ADDR, .rwd),
   (⟨Reg.ISP_CTXREC_HI, 16, 16, 0⟩, .resv)]
/-- Fields of ISP_WB_RG (R338). -/
def fields_ISP_WB_RG : FieldList :=
  [(F.ISP_WB_RG_R, .rw),
   (F.ISP_WB_RG_G, .rw)]
/-- Fields of ISP_WB_B (R338). -/
def fields_ISP_WB_B : FieldList :=
  [(F.ISP_WB_B_B, .rw),
   (⟨Reg.ISP_WB_B, 16, 16, 0⟩, .resv)]
/-- Fields of ISP_FEED (R338). -/
def fields_ISP_FEED : FieldList :=
  [(F.ISP_FEED_FRAME, .wo),
   (F.ISP_FEED_CTX, .wo),
   (⟨Reg.ISP_FEED, 21, 10, 0⟩, .resv),
   (F.ISP_FEED_GO, .wo)]
/-- Fields of ISP_STAT (R338). -/
def fields_ISP_STAT : FieldList :=
  [(F.ISP_STAT_CFG_IGNORED, .w1c),
   (F.ISP_STAT_CTX_REFUSED, .w1c),
   (F.ISP_STAT_PIPE_BUSY, .ro),
   (F.ISP_STAT_TABLE_KIB, .ro),
   (F.ISP_STAT_UNTAKEN, .w1c)]
/-- Fields of STR_CTL (R338). -/
def fields_STR_CTL : FieldList :=
  [(F.STR_CTL_ENABLE, .rw),
   (⟨Reg.STR_CTL, 1, 7, 0⟩, .resv),
   (F.STR_CTL_P1, .rwd),
   (F.STR_CTL_P2, .rwd),
   (F.STR_CTL_LR_TOL, .rwd),
   (⟨Reg.STR_CTL, 28, 4, 0⟩, .resv)]
/-- Fields of STR_STAT (R338). -/
def fields_STR_STAT : FieldList :=
  [(F.STR_STAT_BUSY, .ro),
   (F.STR_STAT_CFG_IGNORED, .w1c),
   (⟨Reg.STR_STAT, 2, 30, 0⟩, .resv)]
/-- Fields of CDC_CTL (R349). -/
def fields_CDC_CTL : FieldList :=
  [(F.CDC_CTL_ENABLE, .rw),
   (⟨Reg.CDC_CTL, 4, 28, 0⟩, .resv)]
/-- Fields of CDC_STAT (R349). -/
def fields_CDC_STAT : FieldList :=
  [(F.CDC_STAT_BUSY, .ro),
   (F.CDC_STAT_PAIRED, .ro),
   (⟨Reg.CDC_STAT, 6, 10, 0⟩, .resv),
   (F.CDC_STAT_ERRORS, .w1c)]
/-- Fields of DRC_BULKCAP (R352). -/
def fields_DRC_BULKCAP : FieldList :=
  [(F.DRC_BULKCAP_L2, .rw),
   (F.DRC_BULKCAP_CDC, .rw),
   (F.DRC_BULKCAP_IMG, .rw),
   (F.DRC_BULKCAP_NET, .rw)]
/-- Fields of DRC_BULKCAP2 (R352). -/
def fields_DRC_BULKCAP2 : FieldList :=
  [(F.DRC_BULKCAP2_PCIE, .rw),
   (⟨Reg.DRC_BULKCAP2, 8, 24, 0⟩, .resv)]
/-- Fields of DRC_CFG (R376). -/
def fields_DRC_CFG : FieldList :=
  [(F.DRC_CFG_HASH, .rwl),
   (F.DRC_CFG_IBECC, .rwl),
   (F.DRC_CFG_PAGE_DEFAULT, .rwl),
   (⟨Reg.DRC_CFG, 4, 27, 0⟩, .resv),
   (F.DRC_CFG_INIT, .rwl)]
/-- Fields of DRC_STAT (R376). -/
def fields_DRC_STAT : FieldList :=
  [(F.DRC_STAT_READY, .ro),
   (F.DRC_STAT_CFG_IGNORED, .w1c),
   (F.DRC_STAT_HOT, .ro),
   (⟨Reg.DRC_STAT, 6, 10, 0⟩, .resv),
   (F.DRC_STAT_FORCED, .w1c)]
/-- Fields of DRC_RH (R376). -/
def fields_DRC_RH : FieldList :=
  [(F.DRC_RH_THRESH, .rwd),
   (⟨Reg.DRC_RH, 16, 16, 0⟩, .resv)]
/-- Fields of DRC_SKEWSTAT (R376). -/
def fields_DRC_SKEWSTAT : FieldList :=
  [(F.DRC_SKEWSTAT_CH, .ro),
   (F.DRC_SKEWSTAT_RUN, .ro),
   (⟨Reg.DRC_SKEWSTAT, 11, 5, 0⟩, .resv),
   (F.DRC_SKEWSTAT_THROTTLED, .ro),
   (⟨Reg.DRC_SKEWSTAT, 28, 4, 0⟩, .resv)]
/-- Fields of DRC_SCRUB_CTL (R376). -/
def fields_DRC_SCRUB_CTL : FieldList :=
  [(F.DRC_SCRUB_CTL_TAGS, .rwd),
   (F.DRC_SCRUB_CTL_PATROL_US, .rwd),
   (⟨Reg.DRC_SCRUB_CTL, 24, 8, 0⟩, .resv)]
/-- Fields of DRC_SCRUB_STAT (R376). -/
def fields_DRC_SCRUB_STAT : FieldList :=
  [(F.DRC_SCRUB_STAT_DONE, .w1c),
   (F.DRC_SCRUB_STAT_QUEUED, .ro),
   (⟨Reg.DRC_SCRUB_STAT, 4, 28, 0⟩, .resv)]
/-- Fields of DRC_TRN_SEL (R376). -/
def fields_DRC_TRN_SEL : FieldList :=
  [(F.DRC_TRN_SEL_CH, .rw),
   (F.DRC_TRN_SEL_BIT, .rw),
   (⟨Reg.DRC_TRN_SEL, 9, 23, 0⟩, .resv)]
/-- Fields of DRC_TRN_CTL (R376). -/
def fields_DRC_TRN_CTL : FieldList :=
  [(F.DRC_TRN_CTL_PATTERN, .rw),
   (F.DRC_TRN_CTL_OP, .rw),
   (F.DRC_TRN_CTL_OWNER, .rwl),
   (⟨Reg.DRC_TRN_CTL, 5, 26, 0⟩, .resv),
   (F.DRC_TRN_CTL_GO, .wo)]
/-- Fields of DRC_TRN_RES (R376). -/
def fields_DRC_TRN_RES : FieldList :=
  [(F.DRC_TRN_RES_ERRORS, .ro),
   (F.DRC_TRN_RES_DESKEW, .ro),
   (F.DRC_TRN_RES_DONE, .ro)]
/-- Fields of NET_CTL (R400). -/
def fields_NET_CTL : FieldList :=
  [(F.NET_CTL_ENABLE, .rw),
   (F.NET_CTL_PORT_EN, .rw),
   (F.NET_CTL_GCL_SRC, .rwd),
   (⟨Reg.NET_CTL, 8, 8, 0⟩, .resv),
   (F.NET_CTL_GPTP_DOMAIN, .rwd),
   (⟨Reg.NET_CTL, 24, 8, 0⟩, .resv)]
/-- Fields of NET_STAT (R400). -/
def fields_NET_STAT : FieldList :=
  [(F.NET_STAT_CFG_IGNORED, .w1c),
   (⟨Reg.NET_STAT, 1, 15, 0⟩, .resv),
   (F.NET_STAT_UNMATCHED, .w1c)]
/-- Fields of NET_PORTn_CFG (R400). -/
def fields_NET_PORT_CFG (n : Nat) : FieldList :=
  [(F.NET_PORT_CFG_SPEED n, .rwd),
   (F.NET_PORT_CFG_FEC n, .rwd),
   (F.NET_PORT_CFG_MAX_FRAME n, .rwd),
   (⟨Reg.NET_PORT_CFG n, 18, 13, 0⟩, .resv),
   (F.NET_PORT_CFG_LINK n, .ro)]
/-- Fields of MEP_CFG (R400). -/
def fields_MEP_CFG : FieldList :=
  [(F.MEP_CFG_DOMAIN, .rwd),
   (F.MEP_CFG_PRIO, .rwd),
   (F.MEP_CFG_COLLECT_US, .rwd),
   (⟨Reg.MEP_CFG, 28, 4, 0⟩, .resv)]
/-- Fields of MEP_CFG2 (R400). -/
def fields_MEP_CFG2 : FieldList :=
  [(F.MEP_CFG2_RAISE_TICKS, .rwd),
   (F.MEP_CFG2_RAISE_STEP_MHZ, .rwd),
   (F.MEP_CFG2_CEIL_MAX_MHZ, .rwd),
   (⟨Reg.MEP_CFG2, 28, 4, 0⟩, .resv)]
/-- Fields of MEP_STAT (R400). -/
def fields_MEP_STAT : FieldList :=
  [(F.MEP_STAT_STATE, .ro),
   (F.MEP_STAT_REASON, .ro),
   (F.MEP_STAT_VERSION, .ro),
   (F.MEP_STAT_MEMBER, .ro),
   (F.MEP_STAT_MEMBERS, .ro),
   (⟨Reg.MEP_STAT, 26, 6, 0⟩, .resv)]
/-- Fields of NET_RXREL (R400). -/
def fields_NET_RXREL : FieldList :=
  [(F.NET_RXREL_SESSION, .wo),
   (F.NET_RXREL_COUNT, .wo),
   (⟨Reg.NET_RXREL, 20, 12, 0⟩, .resv)]
/-- Fields of NET_BARREC (R400). -/
def fields_NET_BARREC : FieldList :=
  [(F.NET_BARREC_SLOT, .wo),
   (⟨Reg.NET_BARREC, 4, 2, 0⟩, .resv),
   (F.NET_BARREC_OFFSET, .wo),
   (⟨Reg.NET_BARREC, 21, 10, 0⟩, .resv),
   (F.NET_BARREC_VALID, .wo)]
/-- Fields of NET_BARRIER (R400). -/
def fields_NET_BARRIER : FieldList :=
  [(F.NET_BARRIER_JOB, .wo),
   (F.NET_BARRIER_STEP, .wo)]
/-- Fields of HIF_CAP (R419). -/
def fields_HIF_CAP : FieldList :=
  [(F.HIF_CAP_FHP_MIN, .ro),
   (F.HIF_CAP_FHP_MAX, .ro),
   (F.HIF_CAP_CFMT_MIN, .ro),
   (F.HIF_CAP_CFMT_MAX, .ro),
   (⟨Reg.HIF_CAP, 16, 16, 0⟩, .resv)]
/-- Fields of HIF_DEVSTAT (R419). -/
def fields_HIF_DEVSTAT : FieldList :=
  [(F.HIF_DEVSTAT_BOOT, .ro),
   (F.HIF_DEVSTAT_FAULT, .ro),
   (F.HIF_DEVSTAT_TRIAGE_LAPSED, .w1c),
   (⟨Reg.HIF_DEVSTAT, 5, 3, 0⟩, .resv),
   (F.HIF_DEVSTAT_PAUSED, .ro),
   (⟨Reg.HIF_DEVSTAT, 16, 16, 0⟩, .resv)]
/-- Fields of HIF_TRIAGE (R419). -/
def fields_HIF_TRIAGE : FieldList :=
  [(F.HIF_TRIAGE_PART, .rw),
   (F.HIF_TRIAGE_TIMEOUT_MS, .rw),
   (⟨Reg.HIF_TRIAGE, 24, 8, 0⟩, .resv)]
/-- Fields of HIF_WINf_LO (R419). -/
def fields_HIF_WIN_LO (f : Nat) : FieldList :=
  [(⟨Reg.HIF_WIN_LO f, 0, 28, 0⟩, .resv),
   (F.HIF_WIN_LO_ADDR f, .rw)]
/-- Fields of HIF_WINf_HI (R419). -/
def fields_HIF_WIN_HI (f : Nat) : FieldList :=
  [(F.HIF_WIN_HI_ADDR f, .rw),
   (⟨Reg.HIF_WIN_HI f, 16, 16, 0⟩, .resv)]
/-- Fields of HIF_FSTAT (R419). -/
def fields_HIF_FSTAT (g : Nat) : FieldList :=
  [(F.HIF_FSTAT_STATE g, .ro),
   (F.HIF_FSTAT_REASON g, .ro),
   (F.HIF_FSTAT_VERSION g, .ro),
   (F.HIF_FSTAT_HOST_VMIN g, .ro),
   (F.HIF_FSTAT_HOST_VMAX g, .ro),
   (F.HIF_FSTAT_RING_ERR g, .w1c),
   (⟨Reg.HIF_FSTAT g, 20, 12, 0⟩, .resv)]
/-- Fields of HIF_RINGn_CFG (R419). -/
def fields_HIF_RING_CFG (g : Nat) (n : Nat) : FieldList :=
  [(F.HIF_RING_CFG_ENABLE g n, .rw),
   (F.HIF_RING_CFG_SQ_LOG2 g n, .rwd),
   (F.HIF_RING_CFG_CQ_LOG2 g n, .rwd),
   (F.HIF_RING_CFG_VECTOR g n, .rwd),
   (⟨Reg.HIF_RING_CFG g n, 13, 19, 0⟩, .resv)]
/-- Fields of HIF_SQn_BASE_LO (R419). -/
def fields_HIF_SQ_BASE_LO (g : Nat) (n : Nat) : FieldList :=
  [(F.HIF_SQ_BASE_LO_ADDR g n, .rwd),
   (⟨Reg.HIF_SQ_BASE_LO g n, 0, 12, 0⟩, .resv)]
/-- Fields of HIF_CQn_BASE_LO (R419). -/
def fields_HIF_CQ_BASE_LO (g : Nat) (n : Nat) : FieldList :=
  [(F.HIF_CQ_BASE_LO_ADDR g n, .rwd),
   (⟨Reg.HIF_CQ_BASE_LO g n, 0, 12, 0⟩, .resv)]
/-- Fields of HIF_SQn_BASE_HI (R419). -/
def fields_HIF_SQ_BASE_HI (g : Nat) (n : Nat) : FieldList :=
  [(F.HIF_SQ_BASE_HI_ADDR g n, .rwd)]
/-- Fields of HIF_CQn_BASE_HI (R419). -/
def fields_HIF_CQ_BASE_HI (g : Nat) (n : Nat) : FieldList :=
  [(F.HIF_CQ_BASE_HI_ADDR g n, .rwd)]
/-- Fields of HIF_SQTAILn (R419). -/
def fields_HIF_SQTAIL (g : Nat) (n : Nat) : FieldList :=
  [(F.HIF_SQTAIL_TAIL g n, .wo)]
/-- Fields of HIF_CQHEADn (R419). -/
def fields_HIF_CQHEAD (g : Nat) (n : Nat) : FieldList :=
  [(F.HIF_CQHEAD_HEAD g n, .wo)]
/-- Fields of KILN_CAP (R442). -/
def fields_KILN_CAP : FieldList :=
  [(F.KILN_CAP_CAP_QW, .rw),
   (⟨Reg.KILN_CAP, 9, 7, 0⟩, .resv),
   (F.KILN_CAP_EFF_QW, .ro),
   (⟨Reg.KILN_CAP, 25, 7, 0⟩, .resv)]
/-- Fields of KILN_DAMP (R442). -/
def fields_KILN_DAMP : FieldList :=
  [(F.KILN_DAMP_GAIN_P, .rw),
   (F.KILN_DAMP_GAIN_I, .rw),
   (F.KILN_DAMP_DMAX, .rw),
   (⟨Reg.KILN_DAMP, 24, 8, 0⟩, .resv)]
/-- Fields of KILN_DAMPW (R442). -/
def fields_KILN_DAMPW : FieldList :=
  [(F.KILN_DAMPW_W_ACLK, .rw),
   (F.KILN_DAMPW_W_HC, .rw),
   (F.KILN_DAMPW_W_IMG, .rw),
   (F.KILN_DAMPW_W_CDC, .rw),
   (⟨Reg.KILN_DAMPW, 16, 16, 0⟩, .resv)]
/-- Fields of KILN_STAT (R442). -/
def fields_KILN_STAT : FieldList :=
  [(F.KILN_STAT_D_ACLK, .ro),
   (F.KILN_STAT_D_HC, .ro),
   (F.KILN_STAT_AVAIL_MHZ, .ro),
   (F.KILN_STAT_AT_DMAX, .ro),
   (F.KILN_STAT_THROTTLING, .ro),
   (⟨Reg.KILN_STAT, 30, 2, 0⟩, .resv)]
/-- Fields of KILN_PWR (R442). -/
def fields_KILN_PWR : FieldList :=
  [(F.KILN_PWR_IN_QW, .ro),
   (⟨Reg.KILN_PWR, 10, 6, 0⟩, .resv),
   (F.KILN_PWR_VIN, .ro),
   (⟨Reg.KILN_PWR, 28, 4, 0⟩, .resv)]
/-- Fields of KILN_RAILSEL (R442). -/
def fields_KILN_RAILSEL : FieldList :=
  [(F.KILN_RAILSEL_RAIL, .rw),
   (⟨Reg.KILN_RAILSEL, 5, 27, 0⟩, .resv)]
/-- Fields of KILN_RAIL (R442). -/
def fields_KILN_RAIL : FieldList :=
  [(F.KILN_RAIL_MV, .ro),
   (F.KILN_RAIL_CUR, .ro),
   (⟨Reg.KILN_RAIL, 28, 4, 0⟩, .resv)]
/-- Fields of KILN_VFSEL (R442). -/
def fields_KILN_VFSEL : FieldList :=
  [(F.KILN_VFSEL_RAIL, .rw),
   (F.KILN_VFSEL_POINT, .rw),
   (⟨Reg.KILN_VFSEL, 8, 24, 0⟩, .resv)]
/-- Fields of KILN_VF (R442). -/
def fields_KILN_VF : FieldList :=
  [(F.KILN_VF_MHZ, .ro),
   (⟨Reg.KILN_VF, 12, 4, 0⟩, .resv),
   (F.KILN_VF_MV, .ro),
   (⟨Reg.KILN_VF, 26, 6, 0⟩, .resv)]
/-- Fields of KILN_ACLK (R442). -/
def fields_KILN_ACLK : FieldList :=
  [(F.KILN_ACLK_CUR_MHZ, .ro),
   (F.KILN_ACLK_TARGET_MHZ, .rw),
   (F.KILN_ACLK_POINT, .ro),
   (⟨Reg.KILN_ACLK, 28, 4, 0⟩, .resv)]
/-- Fields of KILN_HCk (R442). -/
def fields_KILN_HC (k : Nat) : FieldList :=
  [(F.KILN_HC_FMAX k, .ro),
   (F.KILN_HC_TARGET k, .rw),
   (F.KILN_HC_CUR k, .ro),
   (⟨Reg.KILN_HC k, 24, 8, 0⟩, .resv)]
/-- Fields of KILN_HC_FLOOR (R442). -/
def fields_KILN_HC_FLOOR : FieldList :=
  [(F.KILN_HC_FLOOR_FLOOR, .rw),
   (⟨Reg.KILN_HC_FLOOR, 8, 24, 0⟩, .resv)]
/-- Fields of KILN_TH (R442). -/
def fields_KILN_TH : FieldList :=
  [(F.KILN_TH_WARN_C, .rw),
   (F.KILN_TH_THROTTLE_C, .rw),
   (F.KILN_TH_TRIP_C, .rw),
   (⟨Reg.KILN_TH, 24, 8, 0⟩, .resv)]
/-- Fields of KILN_TSEL (R442). -/
def fields_KILN_TSEL : FieldList :=
  [(F.KILN_TSEL_SENSOR, .rw),
   (⟨Reg.KILN_TSEL, 5, 27, 0⟩, .resv)]
/-- Fields of KILN_TEMP (R442). -/
def fields_KILN_TEMP : FieldList :=
  [(F.KILN_TEMP_DEG_Q, .ro),
   (F.KILN_TEMP_HOTTEST, .ro),
   (⟨Reg.KILN_TEMP, 21, 11, 0⟩, .resv)]
/-- Fields of KILN_DROOP (R442). -/
def fields_KILN_DROOP : FieldList :=
  [(F.KILN_DROOP_MV, .rw),
   (⟨Reg.KILN_DROOP, 8, 8, 0⟩, .resv),
   (F.KILN_DROOP_COUNT, .w1c)]
/-- Fields of KILN_EMBER (R442). -/
def fields_KILN_EMBER : FieldList :=
  [(F.KILN_EMBER_ENTER, .wo),
   (F.KILN_EMBER_WAKE_EN, .rw),
   (F.KILN_EMBER_REFUSED, .w1c),
   (F.KILN_EMBER_LAST_WAKE, .ro),
   (⟨Reg.KILN_EMBER, 7, 1, 0⟩, .resv),
   (F.KILN_EMBER_WAKE_MS, .rw)]
/-- Fields of EMN_BOOT_STAT (R460). -/
def fields_EMN_BOOT_STAT : FieldList :=
  [(F.EMN_BOOT_STAT_STAGE, .ro),
   (F.EMN_BOOT_STAT_SLOT, .ro),
   (F.EMN_BOOT_STAT_TRIAL, .ro),
   (⟨Reg.EMN_BOOT_STAT, 5, 3, 0⟩, .resv),
   (F.EMN_BOOT_STAT_SVN_FUSED, .ro),
   (⟨Reg.EMN_BOOT_STAT, 15, 1, 0⟩, .resv),
   (F.EMN_BOOT_STAT_SEQ, .ro)]
/-- Fields of EMN_UPD_ADDR_LO (R460). -/
def fields_EMN_UPD_ADDR_LO : FieldList :=
  [(⟨Reg.EMN_UPD_ADDR_LO, 0, 12, 0⟩, .resv),
   (F.EMN_UPD_ADDR_LO_ADDR, .rw)]
/-- Fields of EMN_UPD_ADDR_HI (R460). -/
def fields_EMN_UPD_ADDR_HI : FieldList :=
  [(F.EMN_UPD_ADDR_HI_ADDR, .rw),
   (⟨Reg.EMN_UPD_ADDR_HI, 16, 16, 0⟩, .resv)]
/-- Fields of EMN_UPD_CMD (R460). -/
def fields_EMN_UPD_CMD : FieldList :=
  [(F.EMN_UPD_CMD_CMD, .wo),
   (F.EMN_UPD_CMD_BUSY, .ro),
   (F.EMN_UPD_CMD_RESULT, .ro),
   (F.EMN_UPD_CMD_LEN_KIB, .rw)]
/-- Fields of EMN_PART_ADDR_LO (R480). -/
def fields_EMN_PART_ADDR_LO : FieldList :=
  [(⟨Reg.EMN_PART_ADDR_LO, 0, 6, 0⟩, .resv),
   (F.EMN_PART_ADDR_LO_ADDR, .rw)]
/-- Fields of EMN_PART_ADDR_HI (R480). -/
def fields_EMN_PART_ADDR_HI : FieldList :=
  [(F.EMN_PART_ADDR_HI_ADDR, .rw),
   (F.EMN_PART_ADDR_HI_LEN_KIB, .rw),
   (⟨Reg.EMN_PART_ADDR_HI, 30, 2, 0⟩, .resv)]
/-- Fields of EMN_PART_CMD (R480). -/
def fields_EMN_PART_CMD : FieldList :=
  [(F.EMN_PART_CMD_PART, .wo),
   (F.EMN_PART_CMD_CMD, .wo),
   (F.EMN_PART_CMD_QUARTER, .wo),
   (⟨Reg.EMN_PART_CMD, 8, 24, 0⟩, .resv)]
/-- Fields of EMN_PART_STAT (R480). -/
def fields_EMN_PART_STAT : FieldList :=
  [(F.EMN_PART_STAT_STATE, .ro),
   (F.EMN_PART_STAT_RESULT, .ro),
   (F.EMN_PART_STAT_BUSY, .ro),
   (F.EMN_PART_STAT_QUAR, .ro)]
/-- Fields of EMN_DBG (R480). -/
def fields_EMN_DBG : FieldList :=
  [(F.EMN_DBG_OPEN, .ro),
   (F.EMN_DBG_FAILS, .ro),
   (⟨Reg.EMN_DBG, 3, 13, 0⟩, .resv),
   (F.EMN_DBG_COUNT, .ro)]
/-- Fields of EMN_ATT_ADDR_LO (R480). -/
def fields_EMN_ATT_ADDR_LO : FieldList :=
  [(⟨Reg.EMN_ATT_ADDR_LO, 0, 6, 0⟩, .resv),
   (F.EMN_ATT_ADDR_LO_ADDR, .rw)]
/-- Fields of EMN_ATT_ADDR_HI (R480). -/
def fields_EMN_ATT_ADDR_HI : FieldList :=
  [(F.EMN_ATT_ADDR_HI_ADDR, .rw),
   (⟨Reg.EMN_ATT_ADDR_HI, 16, 16, 0⟩, .resv)]
/-- Fields of EMN_ATT_CMD (R480). -/
def fields_EMN_ATT_CMD : FieldList :=
  [(F.EMN_ATT_CMD_GO, .wo),
   (F.EMN_ATT_CMD_BUSY, .ro),
   (F.EMN_ATT_CMD_RESULT, .ro),
   (⟨Reg.EMN_ATT_CMD, 4, 12, 0⟩, .resv),
   (F.EMN_ATT_CMD_LEN, .ro)]
/-- Fields of FLT_CTL (R501). -/
def fields_FLT_CTL (p : Bool) : FieldList :=
  [(F.FLT_CTL_WD p, .rw),
   (⟨Reg.FLT_CTL p, 16, 16, 0⟩, .resv)]
/-- Fields of FLT_STAT (R501). -/
def fields_FLT_STAT (p : Bool) : FieldList :=
  [(F.FLT_STAT_COUNT p, .ro),
   (F.FLT_STAT_HANDLING p, .ro),
   (F.FLT_STAT_FAULT_LOST p, .w1c),
   (⟨Reg.FLT_STAT p, 10, 6, 0⟩, .resv),
   (F.FLT_STAT_LOST_COUNT p, .w1c)]
/-- Fields of FLT_CMD (R501). -/
def fields_FLT_CMD (p : Bool) : FieldList :=
  [(F.FLT_CMD_CMD p, .wo),
   (⟨Reg.FLT_CMD p, 3, 29, 0⟩, .resv)]
/-- Fields of FLT_RECi (R501). -/
def fields_FLT_REC (p : Bool) (i : Nat) : FieldList :=
  [(F.FLT_REC_DATA p i, .ro)]
/-- Fields of BIST_CTL (R501). -/
def fields_BIST_CTL : FieldList :=
  [(F.BIST_CTL_CLASS_EN, .rw),
   (⟨Reg.BIST_CTL, 8, 24, 0⟩, .resv)]
/-- Fields of BIST_STAT (R501). -/
def fields_BIST_STAT : FieldList :=
  [(F.BIST_STAT_CLASS, .ro),
   (F.BIST_STAT_RESULT, .ro),
   (⟨Reg.BIST_STAT, 5, 11, 0⟩, .resv),
   (F.BIST_STAT_PASSES, .w1c)]
/-- Fields of <P>_ID (R504). -/
def fields_BLK_ID (p : Bool) (b : Nat) : FieldList :=
  [(F.BLK_ID_INDEX p b, .ro),
   (F.BLK_ID_DIE p b, .ro),
   (⟨Reg.BLK_ID p b, 9, 7, 0⟩, .resv),
   (F.BLK_ID_REV p b, .ro),
   (⟨Reg.BLK_ID p b, 24, 8, 0⟩, .resv)]
/-- Fields of <P>_EVT (R504). -/
def fields_BLK_EVT (p : Bool) (b : Nat) : FieldList :=
  [(F.BLK_EVT_CFG_IGNORED p b, .w1c),
   (F.BLK_EVT_GUARD_DROP p b, .w1c),
   (F.BLK_EVT_RSVD_WRITE p b, .w1c),
   (F.BLK_EVT_UNASSIGNED p b, .w1c),
   (⟨Reg.BLK_EVT p b, 4, 28, 0⟩, .resv)]
/-- Fields of DEV_PART (R509). -/
def fields_DEV_PART : FieldList :=
  [(F.DEV_PART_PART, .ro),
   (F.DEV_PART_STEP_LETTER, .ro),
   (F.DEV_PART_STEP_NUM, .ro),
   (⟨Reg.DEV_PART, 24, 8, 0⟩, .resv)]
/-- Fields of DEV_UID_LO (R509). -/
def fields_DEV_UID_LO : FieldList :=
  [(F.DEV_UID_LO_UID, .ro)]
/-- Fields of DEV_UID_HI (R509). -/
def fields_DEV_UID_HI : FieldList :=
  [(F.DEV_UID_HI_UID, .ro)]
/-- Fields of RLOG_STAT (R509). -/
def fields_RLOG_STAT : FieldList :=
  [(F.RLOG_STAT_HEAD, .ro),
   (F.RLOG_STAT_WRAPPED, .w1c),
   (⟨Reg.RLOG_STAT, 7, 9, 0⟩, .resv),
   (F.RLOG_STAT_COUNT, .w1c)]
/-- Fields of RLOG_IDX (R509). -/
def fields_RLOG_IDX : FieldList :=
  [(F.RLOG_IDX_IDX, .rw),
   (⟨Reg.RLOG_IDX, 6, 26, 0⟩, .resv)]
/-- Fields of RLOG_DATAj (R509). -/
def fields_RLOG_DATA (j : Nat) : FieldList :=
  [(F.RLOG_DATA_WORD j, .ro)]
/-- Fields of CRS_CTL (R509). -/
def fields_CRS_CTL : FieldList :=
  [(F.CRS_CTL_ENABLE, .rw),
   (⟨Reg.CRS_CTL, 1, 31, 0⟩, .resv)]
/-- Fields of CRS_STAT (R509). -/
def fields_CRS_STAT : FieldList :=
  [(F.CRS_STAT_BUSY, .ro),
   (F.CRS_STAT_CFG_IGNORED, .w1c),
   (⟨Reg.CRS_STAT, 2, 30, 0⟩, .resv)]

/-- Registers of the bank of Hexarel engine `e` at offset `o` in the bank (R510). -/
def hxrFields (e o : Nat) : Option FieldList :=
  if o = 0 then some (fields_HXR_CAP e) else if o = 4 then some (fields_HXR_STAT e)
  else if o = 8 then some (fields_HXR_WAIT e) else if o = 0xc then some (fields_HXR_START e)
  else if o = 0x10 then some (fields_HXR_PRESET_LO e) else if o = 0x14 then some (fields_HXR_PRESET_HI e) else none

/-- Index in a register array: `count` registers `stride` bytes apart from `base`, at byte offset `o`. -/
def arrIdx (base count stride o : Nat) : Option Nat :=
  if base ≤ o ∧ (o - base) % stride = 0 ∧ (o - base) / stride < count then some ((o - base) / stride) else none

/-- Registers beyond the common header of compute-die block 19, by offset (R510). -/
def blkC19 (o : Nat) : Option FieldList :=
  if o = 0x14 then some (fields_CWY_STAT false) else
  none

/-- Registers beyond the common header of port-die block 0, by offset (R510). -/
def blkP0 (o : Nat) : Option FieldList :=
  if o = 0x14 then some (fields_CWY_STAT true) else
  none

/-- Registers beyond the common header of compute-die block 16, by offset (R510). -/
def blkC16 (o : Nat) : Option FieldList :=
  if o = 0x10 then some (fields_TICK_CTL) else
  if o = 0x14 then some (fields_TICK_STAT) else
  if o = 0x20 then some (fields_TICK_NUM_LO) else
  if o = 0x24 then some (fields_TICK_NUM_HI) else
  none

/-- Registers beyond the common header of compute-die block 1, by offset (R510). -/
def blkC1 (o : Nat) : Option FieldList :=
  if o = 0x8 then some (fields_ARR_CAP) else
  if o = 0x10 then some (fields_ARR_CTL) else
  if o = 0x14 then some (fields_ARR_STAT) else
  if o = 0x20 then some (fields_ARR_CHK_CTL) else
  if o = 0x24 then some (fields_ARR_CHK_STAT) else
  if o = 0x28 then some (fields_ARR_COL_RETIRE_REQ) else
  if o = 0x2c then some (fields_ARR_COLCNT_SEL) else
  if o = 0x30 then some (fields_ARR_COLCNT) else
  if o = 0x80 then some (fields_ARR_UTIL_ISSUED_LO) else
  if o = 0x84 then some (fields_ARR_UTIL_ISSUED_HI) else
  if o = 0x88 then some (fields_ARR_UTIL_USEFUL_LO) else
  if o = 0x8c then some (fields_ARR_UTIL_USEFUL_HI) else
  if o = 0x90 then some (fields_ARR_UTIL_STALL_LO) else
  if o = 0x94 then some (fields_ARR_UTIL_STALL_HI) else
  if o = 0x240 then some (fields_LBY_CTL) else
  if o = 0x244 then some (fields_LBY_CMD) else
  if o = 0x248 then some (fields_LBY_STAT) else
  if let some i := arrIdx 0x40 8 4 o then some (fields_ARR_COL_FUSE i) else
  if let some i := arrIdx 0x60 8 4 o then some (fields_ARR_COL_RETIRED i) else
  if let some i := arrIdx 0x200 8 8 o then some (fields_SCH_SHARE i) else
  if let some i := arrIdx 0x204 8 8 o then some (fields_SCH_METER i) else
  if let some i := arrIdx 0x280 8 8 o then some (fields_LBY_BASE_LO i) else
  if let some i := arrIdx 0x284 8 8 o then some (fields_LBY_BASE_HI i) else
  if 0x100 ≤ o ∧ o < 0x118 then hxrFields 0 (o - 0x100) else
  none

/-- Registers beyond the common header of compute-die block 2, by offset (R510). -/
def blkC2 (o : Nat) : Option FieldList :=
  if o = 0x10 then some (fields_DRN_CTL) else
  if o = 0x20 then some (fields_DRN_QMODE) else
  if o = 0x24 then some (fields_DRN_LFSR_SEED) else
  if o = 0x14 then some (fields_DRN_STAT) else
  if o = 0x28 then some (fields_DRN_SAT_CNT) else
  if 0x100 ≤ o ∧ o < 0x118 then hxrFields 1 (o - 0x100) else
  none

/-- Registers beyond the common header of compute-die block 4, by offset (R510). -/
def blkC4 (o : Nat) : Option FieldList :=
  if o = 0x10 then some (fields_MAP_CTL) else
  if o = 0x14 then some (fields_MAP_STAT) else
  if let some i := arrIdx 0x20 8 4 o then some (fields_MAP_AO i) else
  none

/-- Registers beyond the common header of compute-die block 5, by offset (R510). -/
def blkC5 (o : Nat) : Option FieldList :=
  if o = 0x10 then some (fields_CRD_CTL) else
  if o = 0x14 then some (fields_CRD_STAT) else
  if o = 0x20 then some (fields_CRD_TIMEOUT) else
  if o = 0x24 then some (fields_CRD_WINSEL) else
  if o = 0x28 then some (fields_CRD_WINCFG) else
  if o = 0x2c then some (fields_CRD_WINCTL) else
  if o = 0x30 then some (fields_CRD_WINSTAT) else
  if o = 0x34 then some (fields_CRD_DROPCNT) else
  none

/-- Registers beyond the common header of compute-die block 3, by offset (R510). -/
def blkC3 (o : Nat) : Option FieldList :=
  if o = 0x14 then some (fields_ACC_STAT) else
  none

/-- Registers beyond the common header of compute-die block 6, by offset (R510). -/
def blkC6 (o : Nat) : Option FieldList :=
  if o = 0x20 then some (fields_QM_QSEL) else
  if o = 0x24 then some (fields_QM_QCFG) else
  if o = 0x28 then some (fields_QM_QSTAT) else
  none

/-- Registers beyond the common header of compute-die block 7, by offset (R510). -/
def blkC7 (o : Nat) : Option FieldList :=
  if o = 0x10 then some (fields_DMA_CTL 0) else
  if o = 0x14 then some (fields_DMA_STAT 0) else
  if 0x100 ≤ o ∧ o < 0x118 then hxrFields 2 (o - 0x100) else
  none

/-- Registers beyond the common header of compute-die block 8, by offset (R510). -/
def blkC8 (o : Nat) : Option FieldList :=
  if o = 0x10 then some (fields_DMA_CTL 1) else
  if o = 0x14 then some (fields_DMA_STAT 1) else
  if 0x100 ≤ o ∧ o < 0x118 then hxrFields 3 (o - 0x100) else
  none

/-- Registers beyond the common header of compute-die block 9, by offset (R510). -/
def blkC9 (o : Nat) : Option FieldList :=
  if o = 0x10 then some (fields_DMA_CTL 2) else
  if o = 0x14 then some (fields_DMA_STAT 2) else
  if 0x100 ≤ o ∧ o < 0x118 then hxrFields 4 (o - 0x100) else
  none

/-- Registers beyond the common header of compute-die block 10, by offset (R510). -/
def blkC10 (o : Nat) : Option FieldList :=
  if o = 0x10 then some (fields_DMA_CTL 3) else
  if o = 0x14 then some (fields_DMA_STAT 3) else
  if 0x100 ≤ o ∧ o < 0x118 then hxrFields 5 (o - 0x100) else
  none

/-- Registers beyond the common header of compute-die block 11, by offset (R510). -/
def blkC11 (o : Nat) : Option FieldList :=
  if o = 0x14 then some (fields_FP_STAT) else
  none

/-- Registers beyond the common header of port-die block 1, by offset (R510). -/
def blkP1 (o : Nat) : Option FieldList :=
  if o = 0x10 then some (fields_CAM_CTL) else
  if o = 0x14 then some (fields_CAM_STAT) else
  if o = 0x50 then some (fields_CAM_WSCMD) else
  if let some i := arrIdx 0x20 4 4 o then some (fields_CAM_PORT_CFG i) else
  if let some i := arrIdx 0x30 4 4 o then some (fields_CAM_PORTERR i) else
  if let some i := arrIdx 0x40 4 4 o then some (fields_CAM_PORT_STAT i) else
  if let some i := arrIdx 0x80 16 4 o then some (fields_CAM_WSSTAT i) else
  if let some i := arrIdx 0x100 16 8 o then some (fields_TRG_CFG i) else
  if let some i := arrIdx 0x104 16 8 o then some (fields_TRG_OFF i) else
  none

/-- Registers beyond the common header of compute-die block 13, by offset (R510). -/
def blkC13 (o : Nat) : Option FieldList :=
  if o = 0x8 then some (fields_ISP_CAP) else
  if o = 0x10 then some (fields_ISP_CTL) else
  if o = 0x20 then some (fields_ISP_CTXEN) else
  if o = 0x24 then some (fields_ISP_CTXSEL) else
  if o = 0x28 then some (fields_ISP_CTXREC_LO) else
  if o = 0x2c then some (fields_ISP_CTXREC_HI) else
  if o = 0x30 then some (fields_ISP_WB_RG) else
  if o = 0x34 then some (fields_ISP_WB_B) else
  if o = 0x38 then some (fields_ISP_FEED) else
  if o = 0x14 then some (fields_ISP_STAT) else
  if 0x100 ≤ o ∧ o < 0x180 then hxrFields (7 + (o - 0x100) / 0x20) ((o - 0x100) % 0x20) else
  none

/-- Registers beyond the common header of compute-die block 14, by offset (R510). -/
def blkC14 (o : Nat) : Option FieldList :=
  if o = 0x10 then some (fields_STR_CTL) else
  if o = 0x14 then some (fields_STR_STAT) else
  if 0x100 ≤ o ∧ o < 0x118 then hxrFields 11 (o - 0x100) else
  none

/-- Registers beyond the common header of compute-die block 15, by offset (R510). -/
def blkC15 (o : Nat) : Option FieldList :=
  if o = 0x10 then some (fields_CDC_CTL) else
  if o = 0x14 then some (fields_CDC_STAT) else
  none

/-- Registers beyond the common header of compute-die block 17, by offset (R510). -/
def blkC17 (o : Nat) : Option FieldList :=
  if o = 0x3c then some (fields_DRC_BULKCAP) else
  if o = 0x40 then some (fields_DRC_BULKCAP2) else
  if o = 0x10 then some (fields_DRC_CFG) else
  if o = 0x14 then some (fields_DRC_STAT) else
  if o = 0x20 then some (fields_DRC_RH) else
  if o = 0x24 then some (fields_DRC_SKEWSTAT) else
  if o = 0x28 then some (fields_DRC_SCRUB_CTL) else
  if o = 0x2c then some (fields_DRC_SCRUB_STAT) else
  if o = 0x30 then some (fields_DRC_TRN_SEL) else
  if o = 0x34 then some (fields_DRC_TRN_CTL) else
  if o = 0x38 then some (fields_DRC_TRN_RES) else
  none

/-- Registers beyond the common header of port-die block 2, by offset (R510). -/
def blkP2 (o : Nat) : Option FieldList :=
  if o = 0x10 then some (fields_NET_CTL) else
  if o = 0x14 then some (fields_NET_STAT) else
  if o = 0x40 then some (fields_MEP_CFG) else
  if o = 0x44 then some (fields_MEP_CFG2) else
  if o = 0x48 then some (fields_MEP_STAT) else
  if o = 0x50 then some (fields_NET_RXREL) else
  if o = 0x54 then some (fields_NET_BARREC) else
  if o = 0x58 then some (fields_NET_BARRIER) else
  if let some i := arrIdx 0x20 6 4 o then some (fields_NET_PORT_CFG i) else
  none

/-- Registers beyond the common header of compute-die block 18, by offset (R510). -/
def blkC18 (o : Nat) : Option FieldList :=
  if o = 0x8 then some (fields_HIF_CAP) else
  if o = 0x14 then some (fields_HIF_DEVSTAT) else
  if o = 0x20 then some (fields_HIF_TRIAGE) else
  if let some i := arrIdx 0x40 8 8 o then some (fields_HIF_WIN_LO i) else
  if let some i := arrIdx 0x44 8 8 o then some (fields_HIF_WIN_HI i) else
  if let some i := arrIdx 0x1000 9 4096 o then some (fields_HIF_FSTAT i) else
  if 0x1100 ≤ o ∧ o < 0xa000 ∧ arrIdx 0x100 4 0x40 ((o - 0x1000) % 0x1000) ≠ none then some (fields_HIF_RING_CFG (o / 0x1000 - 1) (((o % 0x1000) - 0x100) / 0x40)) else
  if 0x1104 ≤ o ∧ o < 0xa000 ∧ arrIdx 0x104 4 0x40 ((o - 0x1000) % 0x1000) ≠ none then some (fields_HIF_SQ_BASE_LO (o / 0x1000 - 1) (((o % 0x1000) - 0x100) / 0x40)) else
  if 0x110c ≤ o ∧ o < 0xa000 ∧ arrIdx 0x10c 4 0x40 ((o - 0x1000) % 0x1000) ≠ none then some (fields_HIF_CQ_BASE_LO (o / 0x1000 - 1) (((o % 0x1000) - 0x100) / 0x40)) else
  if 0x1108 ≤ o ∧ o < 0xa000 ∧ arrIdx 0x108 4 0x40 ((o - 0x1000) % 0x1000) ≠ none then some (fields_HIF_SQ_BASE_HI (o / 0x1000 - 1) (((o % 0x1000) - 0x100) / 0x40)) else
  if 0x1110 ≤ o ∧ o < 0xa000 ∧ arrIdx 0x110 4 0x40 ((o - 0x1000) % 0x1000) ≠ none then some (fields_HIF_CQ_BASE_HI (o / 0x1000 - 1) (((o % 0x1000) - 0x100) / 0x40)) else
  if 0x1114 ≤ o ∧ o < 0xa000 ∧ arrIdx 0x114 4 0x40 ((o - 0x1000) % 0x1000) ≠ none then some (fields_HIF_SQTAIL (o / 0x1000 - 1) (((o % 0x1000) - 0x100) / 0x40)) else
  if 0x1118 ≤ o ∧ o < 0xa000 ∧ arrIdx 0x118 4 0x40 ((o - 0x1000) % 0x1000) ≠ none then some (fields_HIF_CQHEAD (o / 0x1000 - 1) (((o % 0x1000) - 0x100) / 0x40)) else
  none

/-- Registers beyond the common header of port-die block 5, by offset (R510). -/
def blkP5 (o : Nat) : Option FieldList :=
  if o = 0x20 then some (fields_KILN_CAP) else
  if o = 0x24 then some (fields_KILN_DAMP) else
  if o = 0x28 then some (fields_KILN_DAMPW) else
  if o = 0x14 then some (fields_KILN_STAT) else
  if o = 0x2c then some (fields_KILN_PWR) else
  if o = 0x30 then some (fields_KILN_RAILSEL) else
  if o = 0x34 then some (fields_KILN_RAIL) else
  if o = 0x38 then some (fields_KILN_VFSEL) else
  if o = 0x3c then some (fields_KILN_VF) else
  if o = 0x40 then some (fields_KILN_ACLK) else
  if o = 0x64 then some (fields_KILN_HC_FLOOR) else
  if o = 0x68 then some (fields_KILN_TH) else
  if o = 0x6c then some (fields_KILN_TSEL) else
  if o = 0x70 then some (fields_KILN_TEMP) else
  if o = 0x74 then some (fields_KILN_DROOP) else
  if o = 0x78 then some (fields_KILN_EMBER) else
  if let some i := arrIdx 0x44 8 4 o then some (fields_KILN_HC i) else
  none

/-- Registers beyond the common header of port-die block 4, by offset (R510). -/
def blkP4 (o : Nat) : Option FieldList :=
  if o = 0x20 then some (fields_EMN_BOOT_STAT) else
  if o = 0x24 then some (fields_EMN_UPD_ADDR_LO) else
  if o = 0x28 then some (fields_EMN_UPD_ADDR_HI) else
  if o = 0x2c then some (fields_EMN_UPD_CMD) else
  if o = 0x30 then some (fields_EMN_PART_ADDR_LO) else
  if o = 0x34 then some (fields_EMN_PART_ADDR_HI) else
  if o = 0x38 then some (fields_EMN_PART_CMD) else
  if o = 0x3c then some (fields_EMN_PART_STAT) else
  if o = 0x40 then some (fields_EMN_DBG) else
  if o = 0x50 then some (fields_EMN_ATT_ADDR_LO) else
  if o = 0x54 then some (fields_EMN_ATT_ADDR_HI) else
  if o = 0x58 then some (fields_EMN_ATT_CMD) else
  none

/-- Registers beyond the common header of compute-die block 20, by offset (R510). -/
def blkC20 (o : Nat) : Option FieldList :=
  if o = 0x10 then some (fields_FLT_CTL false) else
  if o = 0x14 then some (fields_FLT_STAT false) else
  if o = 0x20 then some (fields_FLT_CMD false) else
  if o = 0x80 then some (fields_BIST_CTL) else
  if o = 0x84 then some (fields_BIST_STAT) else
  if let some i := arrIdx 0x40 16 4 o then some (fields_FLT_REC false i) else
  none

/-- Registers beyond the common header of port-die block 6, by offset (R510). -/
def blkP6 (o : Nat) : Option FieldList :=
  if o = 0x10 then some (fields_FLT_CTL true) else
  if o = 0x14 then some (fields_FLT_STAT true) else
  if o = 0x20 then some (fields_FLT_CMD true) else
  if let some i := arrIdx 0x40 16 4 o then some (fields_FLT_REC true i) else
  none

/-- Registers beyond the common header of compute-die block 0, by offset (R510). -/
def blkC0 (o : Nat) : Option FieldList :=
  if o = 0x20 then some (fields_DEV_PART) else
  if o = 0x24 then some (fields_DEV_UID_LO) else
  if o = 0x28 then some (fields_DEV_UID_HI) else
  if o = 0x30 then some (fields_RLOG_STAT) else
  if o = 0x34 then some (fields_RLOG_IDX) else
  if let some i := arrIdx 0x38 4 4 o then some (fields_RLOG_DATA i) else
  none

/-- Registers beyond the common header of compute-die block 12, by offset (R510). -/
def blkC12 (o : Nat) : Option FieldList :=
  if o = 0x10 then some (fields_CRS_CTL) else
  if o = 0x14 then some (fields_CRS_STAT) else
  if 0x100 ≤ o ∧ o < 0x118 then hxrFields 6 (o - 0x100) else
  none

/-- The fields of the register at offset `o` of a block, if a register occupies it (R508, R510): the common header first. -/
def regFields (p : Bool) (b o : Nat) : Option FieldList :=
  if o = 0 then some (fields_BLK_ID p b) else if o = 4 then some (fields_BLK_EVT p b) else
  if p then (match b with
    | 0 => blkP0 o
    | 1 => blkP1 o
    | 2 => blkP2 o
    | 4 => blkP4 o
    | 5 => blkP5 o
    | 6 => blkP6 o
    | _ => none)
  else (match b with
    | 0 => blkC0 o
    | 1 => blkC1 o
    | 2 => blkC2 o
    | 3 => blkC3 o
    | 4 => blkC4 o
    | 5 => blkC5 o
    | 6 => blkC6 o
    | 7 => blkC7 o
    | 8 => blkC8 o
    | 9 => blkC9 o
    | 10 => blkC10 o
    | 11 => blkC11 o
    | 12 => blkC12 o
    | 13 => blkC13 o
    | 14 => blkC14 o
    | 15 => blkC15 o
    | 16 => blkC16 o
    | 17 => blkC17 o
    | 18 => blkC18 o
    | 19 => blkC19 o
    | 20 => blkC20 o
    | _ => none)

end Sys2Proof.Machine
end

