-- ==== Sys2Proof/Machine/Ops.lean ====
section
/-! DEFINITION. The shared operations over registers, faults, the register-event log, queues, engines and plan items. -/

namespace Sys2Proof.Machine

/-! ### Register fields -/

/-- The key of a field in the stored fields. -/
def Fld.key (x : Fld) : Nat := x.addr * 32 + x.lo

/-- The stored value of a register field (its reset value until something writes it). -/
def getF (s : State) (x : Fld) : Nat := tabGet s.regs x.key x.reset

/-- The state with a register field holding a value, cut to the field's width. -/
def setF (s : State) (x : Fld) (v : Nat) : State :=
  { s with regs := tabPut s.regs x.key (v % 2 ^ x.width) x.reset }

/-- A one-bit field reads 1. -/
def isSet (s : State) (x : Fld) : Bool := getF s x == 1

/-- A counting field that saturates at its greatest value takes `n` more (R24, R501, R509). -/
def bump (s : State) (x : Fld) (n : Nat) : State := setF s x (min (getF s x + n) (2 ^ x.width - 1))

/-! ### Free values -/

/-- The state after one free value has been drawn. -/
def drawn (s : State) : State := { s with free := s.free + 1 }

/-! ### Blocks and dies -/

/-- 802.1AS time of a die (R17, R38). -/
def dieTime (s : State) (port : Bool) : Nat := if port then s.timeP else s.timeC

/-- An event of the port die at its 802.1AS time `t`: both clocks run on to it (R17, R38). -/
def atPort (t : Nat) (s : State) : State :=
  if s.timeP < t then { s with timeP := t, timeC := s.timeC + (t - s.timeP) } else s

/-- An event of the compute die at its copy `t` of that time. -/
def atComp (t : Nat) (s : State) : State :=
  if s.timeC < t then { s with timeC := t, timeP := s.timeP + (t - s.timeC) } else s

/-- Register block of the engine with control-store index `e` (R510). -/
def engBlock (e : Nat) : Nat :=
  if e < 2 then 1 + e else if e < 6 then 5 + e else if e = 6 then 12 else if e < 11 then 13 else 14

/-- Master code of the engine with control-store index `e` (R509). -/
def engCode (e : Nat) : Nat := 21 + e

/-- The compute die is in reset or out of reach (R525), or its clocks are gated (R12, R435). -/
def compDown (s : State) : Bool :=
  s.pwr.dcReset || s.pwr.dcClkStop || !s.pwr.compOn || isSet s (F.CWY_STAT_FAILED true) || !isSet s (F.CWY_STAT_LINK_UP true)

/-! ### Host rings (R405 to R408) -/

/-- Function 0 is the PF, function 1 + p VF p (R511). -/
def getFn (s : State) (g : Nat) : HifFn := nth s.hif.fns g {}
/-- A ring pair. -/
def getRing (s : State) (g n : Nat) : Ring := nth (getFn s g).rings n {}
/-- The state with a ring pair replaced. -/
def setRing (s : State) (g n : Nat) (r : Ring) : State :=
  { s with hif := { s.hif with fns := s.hif.fns.set g { getFn s g with rings := (getFn s g).rings.set n r } } }

/-- Entries of a completion ring. -/
def cqSize (s : State) (g n : Nat) : Nat := 2 ^ getF s (F.HIF_RING_CFG_CQ_LOG2 g n)

/-- A completion with PHASE in its FLAGS (R408). -/
def withPhase (e : Bytes) (phase : Bool) : Bytes :=
  e.set 6 (BitVec.ofNat 8 ((nth e 6 0).toNat / 2 * 2 + if phase then 1 else 0))

/-- A completion is written into a free slot, and its MSI-X message follows unless it is suppressed (R408). -/
def writeCqe (s : State) (g n : Nat) (e : Bytes) (noirq : Bool) : State :=
  let r := getRing s g n
  let size := cqSize s g n
  let wrap := r.cqTail + 1 = size
  let s := setRing s g n { r with cqTail := (r.cqTail + 1) % size, cqUsed := r.cqUsed + 1, phase := if wrap then !r.phase else r.phase }
  let v := getF s (F.HIF_RING_CFG_VECTOR g n)
  { s with hif := { s.hif with posted := some (g, n, r.cqTail, withPhase e r.phase),
                               msix := if noirq then s.hif.msix else some (g, if g = 0 then v else v % 8) } }

/-- The completion ring has a free slot and nothing is held before it. -/
def cqFree (s : State) (g n : Nat) : Bool := decide ((getRing s g n).cqUsed < cqSize s g n) && (getRing s g n).held.isEmpty

/-- A completion is posted, or held while the ring is full (R408); a ring that failed posts nothing (R406). -/
def postCqe (s : State) (g n : Nat) (e : Bytes) (noirq : Bool) : State :=
  let r := getRing s g n
  if r.err then s
  else if cqFree s g n then writeCqe s g n e noirq
  else setRing s g n { r with held := r.held ++ [(e, noirq)] }

/-- The completion entry of an event that carries 16 bytes (R408, R414). -/
def eventCqe (n : Nat) (data : Bytes) (cairn : Bool) : Bytes :=
  leBytes 2 0xFFFF ++ leBytes 1 n ++ leBytes 1 0 ++ leBytes 2 0 ++ leBytes 2 (2 + if cairn then 4 else 0) ++ leBytes 8 0 ++ data

/-- A function's completion ring 0 is in use. -/
def eventRing (s : State) (g : Nat) : Bool := isSet s (F.HIF_RING_CFG_ENABLE g 0) && !(getRing s g 0).err

/-- An event is posted on completion ring 0 of a function. -/
def postEvent (s : State) (g : Nat) (data : Bytes) (cairn : Bool) : State :=
  if eventRing s g then postCqe s g 0 (eventCqe 0 data cairn) false else s

/-! ### Host triage (R417) and lay-by requests (R274) -/

/-- A lay-by entry or exit is under way (R276, R281). -/
def laybyBusy (s : State) : Bool := s.sch.phase == 1 || s.sch.phase == 2

/-- A lay-by of the running step is requested (R274). -/
def laybyRequest (s : State) : State :=
  if s.sch.run.isNone then s
  else if laybyBusy s then { s with sch := { s.sch with again := true } }
  else if s.sch.phase = 3 then s
  else { s with sch := { s.sch with phase := 3, reqAt := s.timeC } }

/-- The host, and not the handler, has a record: its partition is paused for triage (R417, R485). -/
def hostHas (s : State) (r : FaultRec) : Bool :=
  r.cls == 2 && r.code != 0x0103 && s.hif.paused.any (fun x => some x.part == r.part)

/-- A contained fault of a partition under host triage pauses it: a running step is asked to park, and the host gets an event
(R417). -/
def triage (s : State) (r : FaultRec) : State :=
  match r.part with
  | none => s
  | some p =>
    if r.cls = 2 ∧ r.code ≠ 0x0103 ∧ bitOf (getF s F.HIF_TRIAGE_PART) p ∧ s.hif.paused.all (fun x => x.part != p) then
      let s := { s with hif := { s.hif with paused := s.hif.paused ++ [{ part := p, rec_ := r, since := s.timeC }] } }
      let s := setF s F.HIF_DEVSTAT_PAUSED (Nat.lor (getF s F.HIF_DEVSTAT_PAUSED) (2 ^ p))
      let s := if s.sch.run.any (fun x => x.part == p) then laybyRequest s else s
      postEvent s 0 (leBytes 2 r.code ++ leBytes 1 p ++ leBytes 1 r.cls ++ leBytes 4 r.seq ++ leBytes 8 r.tick) false
    else s

/-! ### Fault records (R483, R484) -/

/-- A record enters a queue of 32, displacing the youngest advisory or correctable record for a higher class; the flag
says that a record was lost (R484). -/
def fltPush (q : List FaultRec) (r : FaultRec) : List FaultRec × Bool :=
  if q.length < 32 then (q ++ [r], false)
  else if r.cls ≤ 1 then (q, true)
  else
    let rev := q.reverse
    match rev.findIdx? (fun x => x.cls ≤ 1) with
    | some i => ((rev.eraseIdx i).reverse ++ [r], true)
    | none => (q, true)

/-- The 64 bytes of a fault record (R483). -/
def recBytes (r : FaultRec) : Bytes :=
  leBytes 2 r.code ++ leBytes 1 r.cls
    ++ leBytes 1 (r.part.getD 0 + (if r.part.isSome then 8 else 0) + (if r.double then 16 else 0))
    ++ leBytes 2 (r.block + (if r.port then 0x8000 else 0)) ++ leBytes 2 r.item ++ leBytes 8 r.tick ++ leBytes 8 r.time
    ++ leBytes 4 r.seq ++ leBytes 4 0
    ++ leBytes 8 (nth r.detail 0 0) ++ leBytes 8 (nth r.detail 1 0) ++ leBytes 8 (nth r.detail 2 0)
    ++ leBytes 8 (nth r.detail 3 0)

/-- Base of the save area in Ember retained memory (R491). -/
def saveArea : Nat := 0x0030001FE000

/-- HANDLING: the innermost class being handled plus 1, or 0 (R485, R501). -/
def handlingCode (s : State) : Nat :=
  match s.flt.handling with
  | [] => 0
  | c :: _ => c + 1

/-- The handler is interrupted whenever a queued record's class plus 1 exceeds HANDLING, and the watchdog then times
the TAKE (R485, R486). -/
def interrupt (s : State) : State :=
  if s.flt.interrupted = false ∧ s.flt.comp.queue.any (fun r => handlingCode s < r.cls + 1 && !hostHas s r) then
    { s with flt := { s.flt with interrupted := true,
                                 watch := (false, s.timeC + getF s (F.FLT_CTL_WD false) * 100000) :: s.flt.watch } }
  else s

/-- A lost record sets FAULT_LOST and counts in LOST_COUNT (R484). -/
def fltLost (s : State) (port lost : Bool) : State :=
  if lost then bump (setF s (F.FLT_STAT_FAULT_LOST port) 1) (F.FLT_STAT_LOST_COUNT port) 1 else s

/-- A record enters a die's queue. -/
def fltEnqueue (s : State) (port : Bool) (r : FaultRec) : State :=
  if port then
    let p := fltPush s.flt.port.queue r
    fltLost { s with flt := { s.flt with port := { s.flt.port with queue := p.1 } } } true p.2
  else
    let p := fltPush s.flt.comp.queue r
    interrupt (triage (fltLost { s with flt := { s.flt with comp := { s.flt.comp with queue := p.1 } } } false p.2) r)

/-- The fault unit of a die. -/
def fltDie (s : State) (port : Bool) : FltDie := if port then s.flt.port else s.flt.comp

/-- The record of a fault raised now by a block (R483, R526). -/
def mkRec (s : State) (port : Bool) (code cls : Nat) (part : Option Nat) (block item : Nat) (detail : List Nat) :
    FaultRec :=
  { code := code, cls := cls, part := part, port := port, block := block, item := item, tick := s.tick.num,
    time := dieTime s port, seq := (fltDie s port).seq, detail := detail }

/-- The record count of a die advances (R483). -/
def fltCount (s : State) (port : Bool) : State :=
  if port then { s with flt := { s.flt with port := { s.flt.port with seq := (s.flt.port.seq + 1) % 2 ^ 32 } } }
  else { s with flt := { s.flt with comp := { s.flt.comp with seq := (s.flt.comp.seq + 1) % 2 ^ 32 } } }

/-- Number of records the save area holds of a die (R491). -/
def savedCount (s : State) (port : Bool) : Nat := (rdByte s.mem (saveArea + if port then 2 else 1)).toNat

/-- Emino adds one record to the save area (R492). -/
def saveOne (s : State) (r : FaultRec) : State :=
  let n := savedCount s r.port
  if n < 32 then
    { s with mem := memWrite (memWrite s.mem (saveArea + (if r.port then 2112 else 64) + 64 * n) (recBytes r))
                      (saveArea + if r.port then 2 else 1) (leBytes 1 (n + 1)) }
  else s

/-- The PCIe link is down: the compute die has gone into reset or out of reach (R525). -/
def linkDown (s : State) : State := { s with hif := { s.hif with linkUp := false } }

/-- Emino holds the compute die in reset, drives FAULT_N low and sets BOOT to 4 (R492). -/
def holdCompute (s : State) : State :=
  let s := linkDown (setF s F.HIF_DEVSTAT_BOOT 4)
  { s with flt := { s.flt with held := true, faultN := true, restarting := false, restartDue := false },
           pwr := { s.pwr with dcReset := true } }

/-- A fault is raised: its record is formed and queued in its die's fault unit (R484). A contained or device fault
between the reset of a double fault and tick-ready makes Emino hold the compute die (R492). -/
def raise (s : State) (port : Bool) (code cls : Nat) (part : Option Nat) (block item : Nat) (detail : List Nat) : State :=
  let r := mkRec s port code cls part block item detail
  let s1 := fltEnqueue (fltCount s port) port r
  if s.flt.restarting ∧ 2 ≤ cls then holdCompute (saveOne s1 r) else s1

/-! ### The register-event log (R509) -/

/-- An event enters the log, over the oldest when the log is full. -/
def rlogAdd (s : State) (addr : Nat) (m : Master) (reason data : Nat) : State :=
  let s1 := if (tabGet s.rlog s.rlogHead none).isSome then setF s F.RLOG_STAT_WRAPPED 1 else s
  let e : RlogEntry := { addr := addr, master := m.code, part := m.part, priv := m.priv || m.secure, reason := reason,
                         data := data % 2 ^ 32, time := s.timeC % 2 ^ 32 }
  bump { s1 with rlog := tabPut s1.rlog s1.rlogHead (some e) none, rlogHead := (s1.rlogHead + 1) % 64 } F.RLOG_STAT_COUNT 1

/-- The 16 bytes of a log entry, as one value (R509). -/
def rlogValue (e : RlogEntry) : Nat :=
  e.addr % 2 ^ 48 + e.master % 256 * 2 ^ 48 + e.part % 8 * 2 ^ 56 + (if e.priv then 2 ^ 59 else 0)
    + e.reason % 16 * 2 ^ 60 + e.data * 2 ^ 64 + e.time * 2 ^ 96

/-- The master that an engine is while it works for a partition (R509). -/
def engMaster (e part : Nat) : Master := { code := engCode e, part := part }

/-! ### Memories of one unit (R31, R32) -/

/-- Such a memory. -/
def getB (s : State) (b : Nat) : Buf := tabGet s.bufs b {}
/-- The state with it replaced. -/
def setB (s : State) (b : Nat) (x : Buf) : State := { s with bufs := tabPut s.bufs b x {} }
/-- What its unit reads at byte `i`: zero where no valid tag is set (R31; log entry 192). -/
def bufRead (s : State) (b i : Nat) : Byte := if (getB s b).parts.isEmpty then 0 else Config.bufByte b (getB s b).gen i
/-- Its unit works in it for a partition. -/
def useBuf (s : State) (b part : Nat) : State :=
  let x := getB s b
  setB s b { parts := if x.parts.contains part then x.parts else x.parts ++ [part], gen := x.gen + 1 }
/-- The valid tags of a range of these memories are cleared, or their domain loses them (R30, R31). -/
def dropBufs (s : State) (b n : Nat) : State := { s with bufs := tabDrop s.bufs b n }
/-- A unit that serves partitions in turn takes work of `part`: tags of any other partition are cleared first (R31). -/
def turnBuf (s : State) (b part : Nat) : State := if (getB s b).parts.all (· == part) then s else dropBufs s b 1

/-! ### Queues (R177 to R183) -/

/-- A queue. -/
def getQ (s : State) (q : Nat) : Queue := tabGet s.qm q {}

/-- The state with a queue replaced. -/
def setQ (s : State) (q : Nat) (v : Queue) : State := { s with qm := tabPut s.qm q v {} }

/-- A queue is bound: it has a depth and a consumer that is not reserved (R196). -/
def qBound (q : Queue) : Bool := q.depth != 0 && decide (q.consumer < 28)

/-- Why an entry offered to a queue by a producer of partition `part` is refused (R179). -/
def qRefusal (q : Queue) (part : Nat) : Option Nat :=
  if qBound q = false then some 2
  else if q.part ≠ part then some 3
  else if q.depth ≤ q.entries.length then some 1
  else none

/-- The 16 bytes of a cairn entry (R178). -/
def cairnBytes (seq tick producer part : Nat) : Bytes :=
  leBytes 2 seq ++ leBytes 2 (tick % 65536) ++ leBytes 1 producer ++ leBytes 1 part ++ List.replicate 10 0

/-- QUEUE_OVERFLOW, against the producer's partition (R179). -/
def qOverflow (s : State) (q producer part reason : Nat) : State :=
  raise (setQ s q { getQ s q with overflow := true }) false 0x0135 2 (some part) 6 0xFFFF [reason, q, producer]

/-- The oldest armed codec item that names a queue and has no job yet (R346). -/
def codecBind (s : State) (q : Nat) : Option Nat :=
  (s.tick.armed.find? (fun a => a.item.engine == 0x0A && a.item.arg == q && !s.cdc.bound.contains a.idx)).map (·.idx)

/-- A codec item's start: its job has entered its queue (R46, R346). -/
def bindJob (s : State) (b : Option Nat) : State :=
  match b with
  | none => s
  | some i => { s with cdc := { s.cdc with bound := s.cdc.bound ++ [i] },
                       tick := { s.tick with armed := s.tick.armed.map (fun a => if a.idx = i then { a with started := true } else a) } }

/-- A data entry is offered to a queue; the flag says it was written (R179). An entry of a codec core's queue may bind to a plan
item (R346). -/
def postData (s : State) (q : Nat) (data : Bytes) (producer part : Nat) : State × Bool :=
  match qRefusal (getQ s q) part with
  | some r => (qOverflow s q producer part r, false)
  | none =>
    let u := getQ s q
    let b := if 24 ≤ u.consumer ∧ u.consumer < 28 then codecBind s q else none
    (bindJob (setQ s q { u with entries := u.entries ++ [{ cairn := false, data := data, producer := producer, item := b }] }) b,
      true)

/-- A cairn is offered to a queue (R178, R179). -/
def postCairn (s : State) (q producer part : Nat) : State × Bool :=
  match qRefusal (getQ s q) part with
  | some r => (qOverflow s q producer part r, false)
  | none =>
    let u := getQ s q
    (setQ s q { u with entries := u.entries ++ [{ cairn := true, data := cairnBytes u.seq s.tick.num producer part,
                                                  producer := producer }],
                       seq := (u.seq + 1) % 65536 }, true)

/-- The consumer removes the entry at the head of a queue; a cairn removed marks the position rollback returns to (R183). -/
def popQ (s : State) (q : Nat) : State :=
  let u := getQ s q
  match u.entries with
  | [] => s
  | x :: xs => setQ s q { u with entries := xs, undo := if x.cairn then [] else u.undo ++ [x] }

/-- The entry at the head of a queue. -/
def headQ (s : State) (q : Nat) : Option QEntry := (getQ s q).entries.head?

/-- Entries left when a producer's entries after its last cairn are removed (R488). -/
def rollProducer (code : Nat) : List QEntry → List QEntry
  | [] => []
  | x :: xs =>
    if xs.any (fun y => y.producer == code && y.cairn) || (x.producer != code || x.cairn) then x :: rollProducer code xs
    else rollProducer code xs

/-- Rollback of one queue for a stopped engine, as consumer and as producer (R488). -/
def rollQueue (consumer code : Nat) (q : Queue) : Queue :=
  let q1 := if q.consumer = consumer then { q with entries := q.undo ++ q.entries, undo := [] } else q
  { q1 with entries := rollProducer code q1.entries }

/-- Every queue a stopped engine used returns to its last cairn position (R488). -/
def rollback (s : State) (consumer code : Nat) : State :=
  { s with qm := s.qm.map (fun x => (x.1, rollQueue consumer code x.2)) }

/-! ### Engines (R158, R159) -/

/-- An engine, by control-store index. -/
def getE (s : State) (e : Nat) : Engine := nth s.hx e {}

/-- The state with an engine replaced. -/
def setE (s : State) (e : Nat) (v : Engine) : State := { s with hx := s.hx.set e v }

/-- ITEM_ID of the item an engine works for, or 0xFFFF; an ISP pipe works for the item that took its lane's frame. -/
def engItem (s : State) (e : Nat) : Nat :=
  if 7 ≤ e ∧ e < 11 then
    match (nth s.isp.pipes (e - 7) {}).lane with
    | some (c, n, _) => (((s.isp.frames.find? (fun f => f.ctx == c && f.frame == n)).bind (·.item)).map (·.2.1)).getD 0xFFFF
    | none => 0xFFFF
  else ((getE s e).item.map (·.2)).getD 0xFFFF

/-- Number of words of a control store (R157). -/
def storeWords (e : Nat) : Nat := if e = 0 then 16384 else if e = 1 then 4096 else if e < 6 then 2048 else 1024

/-- An engine goes IDLE and issues no further word: its waits, unentered cairns and staged word are dropped. -/
def idleEngine (g : Engine) : Engine :=
  { g with st := .idle, waitQ := none, granted := false, emits := [], halted := false, staged := none, item := none }

end Sys2Proof.Machine
end

