-- ==== Sys2Proof/Machine/Operands.lean ====
section
/-! DEFINITION. Operand forms: element codes in byte strings (R99, R199), tensor descriptors with their validity, their
addressing, their reads and their writes (R224 to R230), and address generators (R163, R164). -/

namespace Sys2Proof.Machine

/-- The element format of a format code (R199). -/
def fmtElem (c : Nat) : Option Elem :=
  match c with
  | 0 => some .int8 | 1 => some .int4 | 2 => some .e4m3 | 3 => some .e5m2 | 4 => some .fp16
  | 5 => some .bf16 | 6 => some .int16 | 7 => some .int32 | 8 => some .fp32
  | _ => none

/-- Nibbles of an element of a format code. -/
def fmtNib (c : Nat) : Nat := (((fmtElem c).map Elem.bits).getD 8) / 4

/-- Element `i` of a packed byte string: INT4 elements two to a byte, the even one low (R99). -/
def elemAt (fmt : Nat) (bs : Bytes) (i : Nat) : Nat :=
  if fmt = 1 then bitsOf (nth bs (i / 2) 0).toNat (4 * (i % 2)) 4
  else let n := fmtNib fmt / 2; leAt bs (i * n) n

/-- The first `n` elements of a packed byte string. -/
def elemsOf (fmt : Nat) (bs : Bytes) (n : Nat) : List Nat := (List.range n).map (elemAt fmt bs)

/-- Nibble codes of an element, low first. -/
def nibbles : Nat → Nat → List Nat
  | 0, _ => []
  | n + 1, v => v % 16 :: nibbles n (v / 16)

/-- Bytes of a list of nibbles, low nibble first. -/
def packNibbles : List Nat → Bytes
  | [] => []
  | [a] => [BitVec.ofNat 8 a]
  | a :: b :: r => BitVec.ofNat 8 (a + 16 * b) :: packNibbles r

/-! ### Regions of the map (R33) -/

/-- First address of Map Store. -/
def mapBase : Nat := 0x001000000000
/-- First address of the tile memories. -/
def tileBase : Nat := 0x001010000000
/-- First address of a tile memory (R33). -/
def tileAddr (i : Nat) : Nat := tileBase + i * 0x100000
/-- Bytes of a tile memory: 768 rows of 512. -/
def tileBytes : Nat := 0x60000
/-- First address of a control store (R33). -/
def csAddr (j : Nat) : Nat := 0x001200000000 + j * 0x100000
/-- First address of Ember retained memory. -/
def emberBase : Nat := 0x003000000000

/-- Kinds of memory a region of the map holds. -/
inductive Region where
  | dram | mapStore
  | tile (i : Nat)
  | cs (j : Nat)
  | compReg (b : Nat) (o : Nat)
  | portReg (b : Nat) (o : Nat)
  | ember
  | gap
  deriving DecidableEq, Repr

/-- The region an address falls in (R33, R36): the unpopulated part of a stride is a gap. -/
def region (a : Nat) : Region :=
  if a < 0x800000000 then .dram
  else if mapBase ≤ a ∧ a < mapBase + 0x10000000 then .mapStore
  else if tileBase ≤ a ∧ a < tileBase + 24 * 0x100000 then
    (if (a - tileBase) % 0x100000 < tileBytes then .tile ((a - tileBase) / 0x100000) else .gap)
  else if csAddr 0 ≤ a ∧ a < csAddr 12 then
    (let j := (a - csAddr 0) / 0x100000
     if (a - csAddr 0) % 0x100000 < 32 * storeWords j then .cs j else .gap)
  else if 0x002000000000 ≤ a ∧ a < 0x002000150000 then .compReg ((a - 0x002000000000) / 0x10000) (a % 0x10000)
  else if 0x002800000000 ≤ a ∧ a < 0x002800070000 then .portReg ((a - 0x002800000000) / 0x10000) (a % 0x10000)
  else if emberBase ≤ a ∧ a < emberBase + 0x200000 then .ember
  else .gap

/-- Map Store quarter of an address in Map Store. -/
def mapQuarter (a : Nat) : Nat := (a - mapBase) / 0x4000000
/-- Map Store bank of an address in Map Store (R129). -/
def mapBank (a : Nat) : Nat := (a - mapBase) / 0x800000

/-- The DRAM address swizzle of R252; mask 0 leaves the address as it is. -/
def swizzle (a mask : Nat) : Nat :=
  let u := a / 2 ^ 21
  let f := Nat.xor (Nat.xor (u % 4096) (u / 4096 % 4096)) (u / 2 ^ 24 % 8)
  Nat.xor a (Nat.land f mask * 512)

/-! ### Tensor descriptors (R224) -/

/-- A tensor descriptor (R224), with the address it was read from. -/
structure TDesc where
  addr : Nat
  raw : Bytes
  /-- The swizzle mask of the transfer on this side (R252), or 0. -/
  mask : Nat := 0
  deriving DecidableEq, Repr

/-- The descriptor at an address. -/
def tdesc (s : State) (a : Nat) : TDesc := { addr := a, raw := memRead s.mem a 64 }

def TDesc.base (d : TDesc) : Nat := leAt d.raw 0 6
def TDesc.fmt (d : TDesc) : Nat := leAt d.raw 8 1
def TDesc.layout (d : TDesc) : Nat := leAt d.raw 9 1
def TDesc.nblog (d : TDesc) : Nat := bitsOf d.layout 0 3
def TDesc.chkc (d : TDesc) : Bool := bitOf d.layout 3
def TDesc.swap (d : TDesc) : Bool := bitOf d.layout 4
def TDesc.commit (d : TDesc) : Bool := bitOf (leAt d.raw 10 1) 0
def TDesc.bcast (d : TDesc) : Nat := leAt d.raw 11 1
/-- Dimension `k`: D0 to D3. -/
def TDesc.dim (d : TDesc) (k : Nat) : Nat := leAt d.raw (12 + 4 * k) 4
def TDesc.posStride (d : TDesc) : Nat := leAt d.raw 28 4
def TDesc.rowPitch (d : TDesc) : Nat := leAt d.raw 32 4
def TDesc.planeStride (d : TDesc) : Nat := leAt d.raw 40 8
def TDesc.pad (d : TDesc) : Nat := leAt d.raw 48 4 % 16 ^ fmtNib d.fmt
def TDesc.fill (d : TDesc) : Nat := leAt d.raw 52 4 % 16 ^ fmtNib d.fmt
/-- Coordinate offset `k` (R227). -/
def TDesc.off (d : TDesc) (k : Nat) : Int := sext 16 (leAt d.raw (56 + 2 * k) 2)
/-- Nibbles of an element. -/
def TDesc.nib (d : TDesc) : Nat := fmtNib d.fmt
/-- Bytes of the allocation (R225). -/
def TDesc.alloc (d : TDesc) : Nat := (d.dim 3 - 1) * d.planeStride + d.dim 2 * d.rowPitch

/-- Reserved bits of a descriptor are 0 (R224, R225 condition 1). -/
def TDesc.rsvOk (d : TDesc) : Bool :=
  leAt d.raw 6 2 == 0 && bitsOf d.layout 5 3 == 0 && leAt d.raw 10 1 / 2 == 0 && d.bcast / 16 == 0
    && leAt d.raw 36 4 == 0 && leAt d.raw 48 4 / 16 ^ fmtNib d.fmt == 0 && leAt d.raw 52 4 / 16 ^ fmtNib d.fmt == 0

/-- The allocation lies wholly in one memory of condition 7. -/
def TDesc.inOne (d : TDesc) : Bool :=
  let last := d.base + d.alloc - 1
  match region d.base, region last with
  | .dram, .dram => true
  | .mapStore, .mapStore => true
  | .tile i, .tile j => i == j
  | .ember, .ember => true
  | _, _ => false

/-- Condition 8 of R225: the interleave of a Map Store tensor stays in its banks and rows. -/
def TDesc.interleaveOk (d : TDesc) : Bool :=
  match region d.base with
  | .mapStore =>
    let rb := (d.base - mapBase) / 512
    let rows := (d.alloc + 511) / 512
    let nb := 2 ^ d.nblog
    d.nblog == 0 || (decide (rb / 16384 + min nb rows ≤ 32) && decide (rb % 16384 + (rows + nb - 1) / nb ≤ 16384))
  | _ => d.nblog == 0

/-- The first condition of R225 that a descriptor fails. `written`: it is written; `dma`: a stream DMA engine reads it. -/
def TDesc.bad (d : TDesc) (written dma : Bool) : Option Nat :=
  if (fmtElem d.fmt).isNone || !d.rsvOk then some 1
  else if (List.range 4).any (fun k => d.dim k == 0 || decide (16777216 < d.dim k)) || d.base % 512 != 0 then some 2
  else if d.dim 0 * d.nib % 2 ≠ 0 then some 3
  else if 2 * d.posStride % d.nib ≠ 0 ∨ 2 * d.posStride < d.dim 0 * d.nib then some 4
  else if d.rowPitch % 512 ≠ 0 ∨ 2 * d.rowPitch < 2 * (d.dim 1 - 1) * d.posStride + d.dim 0 * d.nib then some 5
  else if d.planeStride % 512 ≠ 0 ∨ d.planeStride < d.dim 2 * d.rowPitch then some 6
  else if !d.inOne then some 7
  else if decide (5 < d.nblog) || !d.interleaveOk then some 8
  else if (written && (d.swap || d.bcast != 0)) || (!written && d.swap && !dma) then some 9
  else none

/-- The stored coordinates of an access (R227), or nothing when it is out of bounds. -/
def TDesc.coords (d : TDesc) (c0 c1 c2 c3 : Int) : Option (Nat × Nat × Nat × Nat) :=
  let a0 := if d.swap then c1 else c0
  let a1 := if d.swap then c0 else c1
  let f := fun (k : Nat) (c : Int) => if bitOf d.bcast k then (0 : Int) else c + d.off k
  let e := f 0 a0; let x := f 1 a1; let y := f 2 c2; let z := f 3 c3
  if 0 ≤ e ∧ e < d.dim 0 ∧ 0 ≤ x ∧ x < d.dim 1 ∧ 0 ≤ y ∧ y < d.dim 2 ∧ 0 ≤ z ∧ z < d.dim 3 then
    some (e.toNat, x.toNat, y.toNat, z.toNat) else none

/-- Nibble offset of a stored element from BASE (R226, in units of half a byte). -/
def TDesc.nibOff (d : TDesc) (c : Nat × Nat × Nat × Nat) : Nat :=
  2 * (c.2.2.2 * d.planeStride + c.2.2.1 * d.rowPitch + c.2.1 * d.posStride) + c.1 * d.nib

/-- Address of byte offset `o` of a tensor: the Map Store interleave of R226, or BASE plus the offset. -/
def TDesc.byteAddr (d : TDesc) (o : Nat) : Nat :=
  if region d.base = .mapStore then
    let l := o / 512
    let nb := 2 ^ d.nblog
    mapBase + ((d.base - mapBase) / 512 + (l % nb) * 16384 + l / nb) * 512 + o % 512
  else if region d.base = .dram then swizzle (d.base + o) d.mask
  else d.base + o

/-- The element stored at a nibble offset. -/
def TDesc.loadAt (d : TDesc) (m : Mem) (no : Nat) : Nat :=
  if d.nib = 1 then bitsOf (rdByte m (d.byteAddr (no / 2))).toNat (4 * (no % 2)) 4
  else leVal ((List.range (d.nib / 2)).map (fun i => rdByte m (d.byteAddr (no / 2 + i))))

/-- A read through a descriptor: PAD out of bounds (R228). -/
def TDesc.read (d : TDesc) (m : Mem) (c0 c1 c2 c3 : Int) : Nat :=
  match d.coords c0 c1 c2 c3 with
  | some c => d.loadAt m (d.nibOff c)
  | none => d.pad

/-- A nibble offset holds an in-bounds element's first nibble. -/
def TDesc.isElem (d : TDesc) (no : Nat) : Bool :=
  let o := no / 2
  let z := o / d.planeStride
  let y := o % d.planeStride / d.rowPitch
  let x := o % d.planeStride % d.rowPitch / d.posStride
  let e2 := 2 * (o % d.planeStride % d.rowPitch % d.posStride) + no % 2
  decide (z < d.dim 3) && decide (y < d.dim 2) && decide (x < d.dim 1) && decide (e2 < d.dim 0 * d.nib)

/-- The keys of a table, each divided by `u`, without repeats. -/
def unitsOf (els : Tab Nat) (u : Nat) : List Nat := (els.map (fun x => x.1 / u)).eraseDups

/-- `n` elements from nibble offset `no` on, as bytes: produced elements, and FILL everywhere else. -/
def TDesc.chunk (d : TDesc) (els : Tab Nat) (no n : Nat) : Bytes :=
  packNibbles ((List.range (n / d.nib)).map (fun i =>
    nibbles d.nib (tabGet els (no + i * d.nib) d.fill))).flatten

/-- Some in-bounds element of the chunk has not been produced (R232). -/
def TDesc.uncovered (d : TDesc) (els : Tab Nat) (no n : Nat) : Bool :=
  (List.range (n / d.nib)).any (fun i =>
    d.isElem (no + i * d.nib) && (els.find? (fun x => x.1 == no + i * d.nib)).isNone)

/-- A write of produced elements (by nibble offset) through a descriptor, by the memory written (R230). -/
def TDesc.write (d : TDesc) (m : Mem) (els : Tab Nat) : Mem :=
  match region d.base with
  | .mapStore => (unitsOf els 1024).foldl (fun m l => memWrite m (d.byteAddr (l * 512)) (d.chunk els (l * 1024) 1024)) m
  | .tile _ => (unitsOf els 16).foldl (fun m l => memWrite m (d.byteAddr (l * 8)) (d.chunk els (l * 16) 16)) m
  | _ =>
    if d.nib = 1 then
      (unitsOf els 2).foldl (fun m b =>
        let old := (rdByte m (d.byteAddr b)).toNat
        let lo := if d.isElem (2 * b) then tabGet els (2 * b) (old % 16) else d.fill
        let hi := if d.isElem (2 * b + 1) then tabGet els (2 * b + 1) (old / 16) else d.fill
        memWrite m (d.byteAddr b) [BitVec.ofNat 8 (lo + 16 * hi)]) m
    else els.foldl (fun m x => memWrite m (d.byteAddr (x.1 / 2)) (leBytes (d.nib / 2) x.2)) m

/-! ### Address generators (R163, R164) -/

/-- `advance()` of R164. -/
def agAdvance (a : Ag) : Ag :=
  let n := if a.count = 0 then 4096 else a.count
  if a.i + 1 = n then { a with p := wrap32 (a.p + a.wrap), i := 0 }
  else { a with p := wrap32 (a.p + a.stride), i := a.i + 1 }

/-- RESTART acts in the word's first cycle only (R164). -/
def agFirst (a : Ag) (agc : Nat) : Ag := if agc = 2 then { a with p := a.base, i := 0 } else a

/-- The row pointers a generator gives over `n` cycles from its state, and its state after them (R164). -/
def agCycles : Nat → Ag → Nat → List Int × Ag
  | 0, a, _ => ([], a)
  | n + 1, a, agc =>
    let r := agCycles n (if agc = 0 then a else agAdvance a) agc
    (a.p :: r.1, r.2)

/-- A generator over a word of `n` cycles (R164). -/
def agWord (a : Ag) (agc n : Nat) : List Int × Ag := agCycles n (agFirst a agc) agc

/-- The row address of R164. -/
def agAddr (a : Ag) (p : Int) : Nat := wrapU 48 (a.seg + p * 512)

/-- Generator parameters of R163 from 60 bits. -/
def agParams (a : Ag) (v : Nat) : Ag :=
  { a with base := bitsOf v 0 24, stride := sext 12 (bitsOf v 24 12), count := bitsOf v 36 12,
           wrap := sext 12 (bitsOf v 48 12) }

end Sys2Proof.Machine
end

