-- ==== Sys2Proof/Machine/DramMap.lean ====
section
/-! DEFINITION. Where a DRAM burst lies (R353, R354), the tags that row-activation throttling withholds (R356, R357),
when a request waits (R352, R364, R365), and what is left to refresh (R359 to R361). -/

namespace Sys2Proof.Machine

/-- The exclusive-OR of the `n` lowest nibbles of a value. -/
def foldNibbles (v : Nat) : Nat → Nat
  | 0 => 0
  | n + 1 => foldNibbles v n ^^^ (v / 16 ^ n % 16)

/-- Where a burst lies: channel, bank, row and 512-byte granule. -/
structure DramPos where
  ch : Nat
  bank : Nat
  row : Nat
  col : Nat
  deriving DecidableEq, Repr

/-- `dram_map` of R353: byte address `a` under kernel `k`. -/
def dramMap (a k : Nat) : DramPos :=
  let u := a / 512
  let v := u / 16
  let row := v / 64
  { ch := foldNibbles u (nth [3, 4, 6, 7] k 7), bank := (v / 4 % 16) ^^^ foldNibbles row (nth [1, 2, 3, 4] k 4),
    row := row % 65536, col := v % 4 }

/-- The position of an address under the kernel of DRC_CFG.HASH (R354). -/
def dramPos (s : State) (a : Nat) : DramPos := dramMap a (getF s F.DRC_CFG_HASH)

/-- Tags of requester `r` (table of R351). -/
def reqTags (s : State) (r : Nat) : Nat :=
  if r < 4 then 256
  else match r with
    | 4 => 64 | 5 => 200 | 6 => getF s F.DRC_SCRUB_CTL_TAGS | 7 => 64 | 8 => 64 | 9 => 32 | 10 => 128 | _ => 64

/-- The largest reported count A among the rows that a requester has activated in the window (R357). -/
def actMax (s : State) (r : Nat) : Nat :=
  s.drc.acts.foldl (fun a x => if x.2.reqs.any (·.1 == r) then max a x.2.rep else a) 0

/-- The tags withheld from a requester (R357). -/
def withheld (s : State) (r : Nat) : Nat :=
  let t := getF s F.DRC_RH_THRESH
  let a := actMax s r
  if a ≤ t then 0 else min (reqTags s r) ((reqTags s r * (a - t) + t - 1) / t)

/-- Register block of the DRAM controllers (R510). -/
def drcBlock : Nat := 17

/-- Refreshes postponed (positive) or pulled in (negative) of a bank. -/
def getRefr (s : State) (ch bank : Nat) : Int := tabGet s.drc.refr (16 * ch + bank) 0
/-- The state with a bank's refresh count replaced. -/
def setRefr (s : State) (ch bank : Nat) (v : Int) : State :=
  { s with drc := { s.drc with refr := tabPut s.drc.refr (16 * ch + bank) v 0 } }

/-- A forced refresh (R360): counted, and reported at most once per second per channel. -/
def forceRefresh (s : State) (ch : Nat) : State :=
  let s := bump s F.DRC_STAT_FORCED 1
  if (tabGet s.drc.forcedAt ch none).all (fun t => decide (t + 1000000000 ≤ s.timeC)) then
    raise { s with drc := { s.drc with forcedAt := tabPut s.drc.forcedAt ch (some s.timeC) none } } false 0x0162 0 none drcBlock
      0xFFFF []
  else s

/-- The channels and banks of the controllers. -/
def allBanks : List (Nat × Nat) := (List.range 256).map (fun i => (i / 16, i % 16))

/-- The lines of 64 bytes that a range touches. -/
def linesOf (a n : Nat) : List Nat := (List.range ((a + n - 1) / 64 - a / 64 + 1)).map (fun i => (a / 64 + i) * 64)

/-- An armed item with an engine code of the plan has started (R46). -/
def itemRuns (s : State) (code : Nat) (f : PlanItem → Bool) : Bool :=
  s.tick.armed.any (fun a => a.started && a.item.engine == code && f a.item)

/-- A retraining step covers a channel (R365). -/
def retraining (s : State) (ch : Nat) : Bool := itemRuns s 0x0C (fun i => bitOf i.arg ch)

/-- The cap of a requester's bulk bursts (R352); the others have none. -/
def bulkCap (s : State) (r : Nat) : Option Nat :=
  match r with
  | 7 => some (getF s F.DRC_BULKCAP_L2)
  | 8 => some (getF s F.DRC_BULKCAP_CDC)
  | 9 => some (getF s F.DRC_BULKCAP_IMG)
  | 10 => some (getF s F.DRC_BULKCAP2_PCIE)
  | 11 => some (getF s F.DRC_BULKCAP_NET)
  | _ => none

/-- A billet of class 5 tests the controller of a channel's quad (R496). -/
def quadTested (s : State) (ch : Nat) : Bool :=
  (nth s.flt.cursors 5 (0, 0)).1 == ch / 4
    && s.tick.armed.any (fun a => a.started && a.item.engine == 0x0B && a.item.arg % 8 == 5 && !s.tick.reports.contains a.idx)

/-- A channel is out of service (R364, R365), or its controller is under test (R496): requests to it wait. -/
def chanOut (s : State) (ch : Nat) : Bool := s.drc.trnRun.contains ch || retraining s ch || quadTested s ch

/-- A burst waits at its requester (R352, R357), or for its channel. -/
def burstWaits (s : State) (r ch : Nat) : Bool := bulkCap s r == some 0 || decide (reqTags s r ≤ withheld s r) || chanOut s ch

/-- An access of requester `r` at `a` waits, where it is one to DRAM. -/
def dramWaits (s : State) (r a : Nat) : Bool := region a == .dram && burstWaits s r (dramPos s a).ch

/-- DRAM at `a` cannot be reached at present, whoever asks. -/
def dramOut (s : State) (a : Nat) : Bool := region a == .dram && chanOut s (dramPos s a).ch

/-- The requester (R351) that a master's accesses to DRAM come from: the L2 for host cores, and the PCIe endpoint, inbound, for the host. -/
def reqOf (m : Master) : Option Nat :=
  if m.code < 8 then some 7
  else if 10 ≤ m.code ∧ m.code < 19 then some 10
  else if 23 ≤ m.code ∧ m.code < 27 then some (m.code - 23)
  else if 28 ≤ m.code ∧ m.code < 33 then some 9
  else if 33 ≤ m.code ∧ m.code < 37 then some 8
  else match m.code with
    | 37 => some 5 | 38 => some 6 | 44 => some 11 | _ => none

/-- A quiet window (R361): every postponed refresh is made up, and eight more per bank are pulled in; on a channel in a retraining step,
once the step has ended (R374). -/
def quietWindow (s : State) : State :=
  allBanks.foldl (fun s b => if retraining s b.1 then s else setRefr s b.1 b.2 (-8)) s

/-- A retraining step ends (R374): postponements beyond the eighth that fell due in it are forced, and a quiet window that waited makes up
and pulls in. -/
def retrainEnd (s : State) (mask : Nat) : State :=
  allBanks.foldl (fun s b =>
    if bitOf mask b.1 then
      let n := getRefr s b.1 b.2
      let s := (List.range (n - 8).toNat).foldl (fun s _ => forceRefresh s b.1) (setRefr s b.1 b.2 (min 8 n))
      if itemRuns s 0x0D (fun _ => true) then setRefr s b.1 b.2 (-8) else s
    else s) s

end Sys2Proof.Machine
end

