-- ==== Sys2Proof/Machine/RegGate.lean ====
section
/-! DEFINITION. What happens to a register access before its block acts on it: reach (R506), powered-down blocks (R29),
the windows of R525, and reserved bits (R507). Registers with a command of their own pass the same gate. -/

namespace Sys2Proof.Machine

/-- Numbers of the separately switched power domains (R27): array groups 0 to 15, Map Store quarters from 16, host cores
from 20, ISP pipes from 28, then stereo, codecs, network and camera. -/
def domQuarter (q : Nat) : Nat := 16 + q
def domCore (k : Nat) : Nat := 20 + k
def domPipe (p : Nat) : Nat := 28 + p
def domStereo : Nat := 32
def domCodec : Nat := 33
def domNet : Nat := 34
def domCam : Nat := 35
/-- There are 36 of them (R27). -/
def domCount : Nat := 36

/-- A switched domain is powered. -/
def powered (s : State) (d : Nat) : Bool := !s.pwr.off.contains d

/-- The switched domain that a register lies in, if any (R27, R510). -/
def regDomain (p : Bool) (b o : Nat) : Option Nat :=
  if p then (if b = 1 then some domCam else if b = 2 ∨ b = 3 then some domNet else none)
  else if b = 13 ∧ 0x100 ≤ o ∧ o < 0x180 then some (domPipe ((o - 0x100) / 0x20))
  else if b = 14 then some domStereo
  else if b = 15 then some domCodec
  else none

/-- A privileged or secure master (R465). -/
def isHigh (m : Master) : Bool := m.priv || m.secure

/-- A port-die master, which R525 keeps from the compute die: Emino. -/
def onPortDie (m : Master) : Bool := m.code == 19

/-- No access goes out: the windows of R525 hold masters of the compute die in reset, and a port-die master reaches only the port die
(`port`: the target is there); the debug access port, master 20, is closed until R472 opens it (R471). -/
def heldBack (s : State) (port : Bool) (m : Master) : Bool :=
  (compDown s && !(port && onPortDie m)) || (m.code == 20 && !isSet s F.EMN_DBG_OPEN)

/-- A master reaches a register (R506 and the reaches the chapters give). -/
def regReach (p : Bool) (b o : Nat) (m : Master) : Bool :=
  if o = 0 ∧ ¬ (p = true ∧ b = 3) then true
  else if p then
    (if b = 2 ∧ o = 0x50 then isHigh m || m.code == 44
     else if b = 2 ∧ (o = 0x40 ∨ o = 0x44) then isHigh m && m.part == 0
     else if b = 4 then
       (if o = 0x50 ∨ o = 0x54 ∨ o = 0x58 then true
        else if 0x24 ≤ o ∧ o ≤ 0x38 then m.secure || (m.priv && m.part == 0)
        else isHigh m)
     else isHigh m)
  else
    (if b = 0 ∧ o = 0x20 then true
     else if b = 1 ∧ 0x280 ≤ o ∧ o < 0x2C0 then isHigh m && m.part == 0
     else if b = 4 ∧ 0x20 ≤ o ∧ o < 0x40 then m.secure
     else if b = 17 ∧ (o = 0x10 ∨ o = 0x34 ∨ o = 0x3C ∨ o = 0x40) then isHigh m && m.part == 0
     else if b = 18 ∧ 0x1000 ≤ o then isHigh m || (decide (11 ≤ m.code) && decide (m.code ≤ 18) && o / 0x1000 - 1 == m.code - 10)
     else isHigh m)

/-- The block that reports a register's access events: the session memory's are reported by NET (R510). -/
def evtBlock (p : Bool) (b : Nat) : Nat := if p ∧ b = 3 then 2 else b

/-- An access refused for the master's reach (R506): GUARD_DROP, and the log with reason 2. -/
def guardDrop (s : State) (p : Bool) (b o : Nat) (m : Master) (data : Nat) : State :=
  rlogAdd (setF s (F.BLK_EVT_GUARD_DROP p (evtBlock p b)) 1) (blkBase p b + o) m 2 data

/-- A write refused for its reserved bits (R507). -/
def rsvdWrite (s : State) (p : Bool) (b o : Nat) (m : Master) (data : Nat) : State :=
  rlogAdd (setF s (F.BLK_EVT_RSVD_WRITE p (evtBlock p b)) 1) (blkBase p b + o) m 3 data

/-- An access to an unassigned offset, or a partial write (R502, R508). -/
def unassigned (s : State) (p : Bool) (b o : Nat) (m : Master) (reason data : Nat) : State :=
  rlogAdd (setF s (F.BLK_EVT_UNASSIGNED p (evtBlock p b)) 1) (blkBase p b + o) m reason data

/-- ADDR_UNREACHABLE against the master's partition (R29, R36, R526). -/
def unreachable (s : State) (m : Master) (reason addr : Nat) : State :=
  raise s false 0x0101 2 (some m.part) (Config.sourceBlock 0x0101) 0xFFFF [reason, addr, m.code]

/-- A write of a field list carries a reserved bit that reads 0 (R507). -/
def rsvBits (fl : FieldList) (v : Nat) : Bool :=
  fl.any (fun x => x.2 == .resv && bitsOf v x.1.lo x.1.width != 0)

/-- What the gate does with a register write: it is refused in a state, or it reaches the block. -/
inductive Gate where
  | refused (s : State)
  | pass
  deriving DecidableEq, Repr

/-- Words of a block's memories: the camera's context records and write sets (R291, R302), the network's session records (R382). -/
def blockMem (p : Bool) (b o : Nat) : Bool :=
  p && o % 4 == 0 && ((b == 1 && ((decide (0x400 ≤ o) && decide (o < 0x600)) || (decide (0x1000 ≤ o) && decide (o < 0x3000)))) || b == 3)

/-- The fields of what stands at an offset of a block, if anything does (R510); a word of a block's memory has none. -/
def fieldsAt (p : Bool) (b o : Nat) : Option FieldList := if blockMem p b o then some [] else regFields p b o

/-- An empty slot of the common header: it reads 0 and ignores writes, and nothing is flagged (R504). -/
def emptySlot (p : Bool) (b o : Nat) : Bool :=
  !(p && b == 3) && [8, 0xC, 0x10, 0x14, 0x18, 0x1C].contains o && (regFields p b o).isNone

/-- The gate before a register access at offset `o` of block `b`, with `v` to write (`wr`) or 0 (R525, R504, R29, R506, R507, R508). -/
def accGate (s : State) (p : Bool) (b o : Nat) (m : Master) (wr : Bool) (v : Nat) : Gate :=
  if heldBack s p m ∨ emptySlot p b o then .refused s
  else if (regDomain p b o).any (fun d => !powered s d) then .refused (unreachable s m 1 (blkBase p b + o))
  else if regReach p b o m = false then .refused (guardDrop s p b o m v)
  else match fieldsAt p b o with
    | none => .refused (unassigned s p b o m 4 v)
    | some fl => if wr && rsvBits fl v then .refused (rsvdWrite s p b o m v) else .pass

/-- The gate before a register write. -/
def regGate (s : State) (p : Bool) (b o : Nat) (m : Master) (v : Nat) : Gate := accGate s p b o m true v

/-- A register write of a command of its own: through the gate, then the block's effect. -/
def gated (s : State) (p : Bool) (b o : Nat) (m : Master) (v : Nat) (act : State → State) : State :=
  match regGate s p b o m v with
  | .refused s' => s'
  | .pass => act s

/-- A register read: refused it gives zero, in the state that the refusal leaves; otherwise `act` gives the state and the value. -/
def readVia (s : State) (p : Bool) (b o : Nat) (m : Master) (act : State → State × Nat) : State × Nat :=
  match accGate s p b o m false 0 with
  | .refused s' => (s', 0)
  | .pass => act s

/-- A register read of a command of its own: the master gets the value. -/
def gatedRead (s : State) (p : Bool) (b o : Nat) (m : Master) (act : State → State × Nat) : State :=
  let r := readVia s p b o m act
  { r.1 with rd := leBytes 4 r.2, rdErr := false }

/-- The CFG_IGNORED flags of a block's own status registers, where it has one (R504). -/
def ownIgnored (p : Bool) (b : Nat) : List Fld :=
  match p, b with
  | false, 1 => [F.ARR_STAT_CFG_IGNORED, F.LBY_STAT_CFG_IGNORED]
  | false, 2 => [F.DRN_STAT_CFG_IGNORED]
  | false, 4 => [F.MAP_STAT_CFG_IGNORED]
  | false, 5 => [F.CRD_STAT_CFG_IGNORED]
  | false, 7 => [F.DMA_STAT_CFG_IGNORED 0]
  | false, 8 => [F.DMA_STAT_CFG_IGNORED 1]
  | false, 9 => [F.DMA_STAT_CFG_IGNORED 2]
  | false, 10 => [F.DMA_STAT_CFG_IGNORED 3]
  | false, 12 => [F.CRS_STAT_CFG_IGNORED]
  | false, 13 => [F.ISP_STAT_CFG_IGNORED]
  | false, 14 => [F.STR_STAT_CFG_IGNORED]
  | false, 17 => [F.DRC_STAT_CFG_IGNORED]
  | true, 1 => [F.CAM_STAT_CFG_IGNORED]
  | true, 2 => [F.NET_STAT_CFG_IGNORED]
  | true, 3 => [F.NET_STAT_CFG_IGNORED]
  | _, _ => []

/-- The flag of the register at offset `o`: block 1 has the lay-by machine's beside the array's. -/
def ignoredFlag (p : Bool) (b o : Nat) : List Fld :=
  if p = false ∧ b = 1 then (if 0x200 ≤ o then [F.LBY_STAT_CFG_IGNORED] else [F.ARR_STAT_CFG_IGNORED]) else ownIgnored p b

/-- An ignored configuration write (R505): the block's EVT flag and its own CFG_IGNORED flag, and the log with reason 1. -/
def cfgIgnored (s : State) (p : Bool) (b o : Nat) (m : Master) (v : Nat) : State :=
  let s := setF s (F.BLK_EVT_CFG_IGNORED p (evtBlock p b)) 1
  rlogAdd ((ignoredFlag p b o).foldl (fun s x => setF s x 1) s) (blkBase p b + o) m 1 v

/-- A write of one RW-D or RWL field (R7, R505): it applies when open; otherwise it is ignored, and counts as ignored only
where it would change the field. -/
def wrField (s : State) (open_ : Bool) (x : Fld) (v : Nat) : State := if open_ then setF s x v else s

/-- The write would change a field that is closed to writes (R505). -/
def ignoredChange (s : State) (open_ : Bool) (x : Fld) (v : Nat) : Bool := !open_ && getF s x != v % 2 ^ x.width

/-- A W1C field: writing 1 to any of its bits clears it (R7). -/
def w1c (s : State) (x : Fld) (v : Nat) : State := if bitsOf v x.lo x.width = 0 then s else setF s x 0

end Sys2Proof.Machine
end

