-- ==== Sys2Proof/Machine/Bus.lean ====
section
/-! DEFINITION. How an access of a master to the memories of the map is filtered, checked and performed: partition filters
(R466), powered-down domains (R29), gaps (R36), array-only regions (R136), Map Store rows (R131), tile memories (R138),
XTS regions (R371), and the ECC check of a read (R151, R152). -/

namespace Sys2Proof.Machine

/-- Ports of Map Store (R130); the stream DMA's flag says that the access uses its crypto path (R136). -/
inductive Port where
  | west | north | drainW | drainR
  | dma (crypt : Bool)
  | crop | image | system | maint
  deriving DecidableEq, Repr

/-- Partition `p`. -/
def getP (s : State) (p : Nat) : Part := nth s.parts p {}
/-- The state with a partition replaced. -/
def setP (s : State) (p : Nat) (x : Part) : State := { s with parts := s.parts.set p x }

/-- The partition that owns a resource named by a test on descriptors; a FREE partition owns nothing (R463, R464). -/
def ownerOf (s : State) (f : Part → Bool) : Option Nat :=
  (List.range 8).find? (fun p => (getP s p).st != 0 && f (getP s p))

/-- Owner of a Map Store bank. -/
def bankOwner (s : State) (b : Nat) : Option Nat := ownerOf s (fun x => bitOf x.banks b)
/-- Owner of a host core and of its tile memory 13 + k (R463). -/
def coreOwner (s : State) (k : Nat) : Option Nat := ownerOf s (fun x => bitOf x.cores k)
/-- Owner of a queue. -/
def queueOwner (s : State) (q : Nat) : Option Nat := ownerOf s (fun x => decide (x.qBase ≤ q) && decide (q < x.qBase + x.qCount))

/-- An address range lies in a DRAM region of a partition. -/
def inRegions (x : Part) (a len : Nat) : Bool := x.regions.any (fun r => decide (r.1 ≤ a) && decide (a + len ≤ r.1 + r.2))

/-- Staging buffers of the network ingress engine in tile memory 23. -/
def stageCount : Nat := 42

/-- The partition an engine's tile memory works for, or last worked for (R152): of the engine's item, step or lane, of a codec core's job,
and of the network ingress engine's packet; a core's or pair's tile memory has an owner. -/
def tilePart (s : State) (i : Nat) : Option Nat :=
  if i < 2 then some (getE s 0).part
  else if i = 2 then some (getE s 1).part
  else if i = 3 then some (getE s 6).part
  else if i < 8 then some (getE s (i + 3)).part
  else if i = 8 then some (getE s 11).part
  else if i < 13 then nth s.cdc.prev (i - 9) none
  else if i < 21 then coreOwner s (i - 13)
  else if i < 23 then some 0
  else tabGet s.net.stagePart ((s.net.stage + stageCount - 1) % stageCount) none

/-- The range touches an XTS region or its tag area (R371). -/
def inXts (x : Xts) (a len : Nat) : Bool :=
  (decide (a < x.base + x.size) && decide (x.base < a + len))
    || (decide (a < x.tags + x.size / 8) && decide (x.tags < a + len))

/-- The DRAM check of R36, R369 and R371: the reason code of ADDR_UNREACHABLE, or nothing. `core`: the access comes from
the host-core cluster or Emino. -/
def dramDenied (s : State) (core : Bool) (a len : Nat) (write : Bool) : Option Nat :=
  if !isSet s F.DRC_STAT_READY then some 4
  else if isSet s F.DRC_CFG_INIT ∧ isSet s F.DRC_CFG_IBECC ∧ 0x7C0000000 < a + len then some 2
  else if s.drc.xts.any (fun x => inXts x a len && (!core || (write && x.lock))) then some 3
  else none

/-- The access belongs to the host-core cluster or to Emino (R371). -/
def fromCore (m : Master) : Bool := decide (m.code < 8) || m.secure

/-- A tile memory is the master's own (R138). -/
def ownTile (m : Master) (i : Nat) : Bool :=
  (decide (m.code < 8) && i == 13 + m.code) || (m.code == 8 && i == 21) || (m.code == 9 && i == 22)

/-- The partition filter passes an access to memory (R466). -/
def filterPass (s : State) (m : Master) (a len : Nat) : Bool :=
  isHigh m ||
    match region a with
    | .dram => (getP s m.part).st != 3 && inRegions (getP s m.part) a len
    | .mapStore => (getP s m.part).st != 3 && bankOwner s (mapBank a) == some m.part
    | .tile i => (getP s m.part).st != 3 && tilePart s i == some m.part
    | .ember => m.part == 0
    | _ => true

/-- Ports that an array-only region admits (R136). -/
def aoAllows (port : Port) (write : Bool) : Bool :=
  match port with
  | .west | .north | .drainR => !write
  | .drainW => write
  | .dma c => c
  | .maint => true
  | _ => false

/-- The array-only bit of the region an address of Map Store lies in (R136). -/
def arrayOnly (s : State) (a : Nat) : Bool :=
  let g := (a - mapBase) / 0x100000
  bitOf (getF s (F.MAP_AO_AO (g / 32))) (g % 32)

/-- PART_FILTER, and the log entry of R466. -/
def partFilter (s : State) (m : Master) (kind a data : Nat) : State :=
  rlogAdd (raise s false 0x0102 2 (some m.part) (Config.sourceBlock 0x0102) 0xFFFF [a, m.code, kind]) a m 7 data

/-- Why an access is refused: nothing there or not to be had (R29, R36), the partition filter (R466), or a rule of the
memory itself. -/
inductive Why where
  | unreach | filter | rule
  deriving DecidableEq, Repr

/-- What the checks before an access answer: it passes, it completes without effect in silence, or it is refused. -/
inductive Bus where
  | pass
  | silent
  | refused (s : State) (why : Why)
  deriving DecidableEq, Repr

/-- The address lies in the first 192 KiB of tile memory 21 or 22, which hold the real-time images, and is write-locked against every master
(R444, R446, R447; log entry 241). -/
def tileLocked (s : State) (a : Nat) : Bool :=
  s.emn.locks && match region a with
    | .tile i => (i == 21 || i == 22) && decide (a - tileAddr i < 0x30000)
    | _ => false

/-- The last address of the range lies in the region of the first. -/
def sameRegion (a len : Nat) : Bool :=
  match region a, region (a + len - 1) with
  | .tile i, .tile j => i == j
  | .cs i, .cs j => i == j
  | .dram, .dram | .mapStore, .mapStore | .ember, .ember => true
  | _, _ => false

/-- The checks of an access to Map Store after its filter (R29, R131, R136, R156). `data` is what the log holds of a write (R509). -/
def mapGate (s : State) (m : Master) (port : Port) (a len : Nat) (write : Bool) (data : Nat := 0) : Bus :=
  if !powered s (domQuarter (mapQuarter a)) then .refused (unreachable s m 1 a) .unreach
  else if port ≠ .maint ∧ !isSet s F.MAP_CTL_ENABLE then .silent
  else if port = .system ∧ write ∧ (a % 512 ≠ 0 ∨ len ≠ 512) then
    .refused (raise s false 0x0120 2 (some m.part) 4 0xFFFF []) .rule
  else if arrayOnly s a ∧ aoAllows port write = false then
    .refused (rlogAdd (raise s false 0x0121 2 (some m.part) 4 0xFFFF []) a m 6 data) .rule
  else .pass

/-- The check of a tile memory's power (R27, R29): tile memory 13 + k lies in the domain of host core k, and so on. -/
def tileGate (s : State) (m : Master) (a i : Nat) : Bus :=
  if 13 ≤ i ∧ i < 21 ∧ !powered s (domCore (i - 13)) then .refused (unreachable s m 1 a) .unreach
  else if 4 ≤ i ∧ i < 8 ∧ !powered s (domPipe (i - 4)) then .refused (unreachable s m 1 a) .unreach
  else if i = 8 ∧ !powered s domStereo then .refused (unreachable s m 1 a) .unreach
  else if 9 ≤ i ∧ i < 13 ∧ !powered s domCodec then .refused (unreachable s m 1 a) .unreach
  else .pass

/-- The address lies in a control store. -/
def isCs (a : Nat) : Bool := match region a with
  | .cs _ => true
  | _ => false

/-- A system-port access to a tile memory that R138 does not let the master reach. -/
def tileClosed (m : Master) (port : Port) (a : Nat) (write : Bool) : Bool := match region a with
  | .tile i => port == .system && !(ownTile m i || (!write && isHigh m && decide (3 ≤ i)))
  | _ => false

/-- Every check before an access of `len` bytes at `a` (R35, R36, R466, then the memory's own). `data` is the value written, of
which the register-event log keeps the low 32 bits, or 0 for a read (R509). -/
def busGate (s : State) (m : Master) (port : Port) (a len : Nat) (write : Bool) (data : Nat := 0) : Bus :=
  if !sameRegion a len then .refused (unreachable s m 2 a) .unreach
  else if isCs a then .refused (rlogAdd s a m 5 data) .rule
  else if tileClosed m port a write then .refused (unreachable s m 2 a) .unreach
  else if write && tileLocked s a then .silent
  else if !filterPass s m a len then .refused (partFilter s m (if write then 1 else 0) a data) .filter
  else match region a with
    | .dram => match dramDenied s (fromCore m) a len write with
      | some r => .refused (unreachable s m r a) .unreach
      | none => .pass
    | .mapStore => mapGate s m port a len write data
    | .tile i => tileGate s m a i
    | _ => .pass

/-! ### ECC (R151, R152) -/

/-- The state of a word's check bits (0 good, 1 single-bit, 2 or more uncorrectable). -/
def wordBad (s : State) (a : Nat) : Nat := tabGet s.mapu.bad (a / 8) 0

/-- Words of the row of an address. -/
def rowWords (a : Nat) : List Nat := (List.range 64).map (fun i => a / 512 * 64 + i)

/-- DETAIL[0] of MEM_ECC_UNCORRECTABLE for an address (R526). -/
def eccMem (a : Nat) : Nat :=
  match region a with
  | .mapStore => 256 * mapBank a
  | .tile i => 1 + 256 * i
  | .cs j => 6 + 256 * j
  | _ => 7

/-- Row number of an address in its memory. -/
def eccRow (a : Nat) : Nat :=
  match region a with
  | .mapStore => (a - mapBase) % 0x800000 / 512
  | .tile i => (a - tileAddr i) / 512
  | .cs j => (a - csAddr j) / 512
  | _ => (a - emberBase) / 512

/-- The partition whose data a row holds (R152). -/
def eccPart (s : State) (m : Master) (a : Nat) : Option Nat :=
  match region a with
  | .mapStore => bankOwner s (mapBank a)
  | .tile i => tilePart s i
  | _ => some m.part

/-- Valid tags guard the rows of the tile memories of engines that serve several partitions in turn (R31, R150). -/
def hasTags (i : Nat) : Bool := decide (i < 13) || i == 23

/-- The row of an address has its valid tag clear: it reads zero, and no ECC is checked (R31, R150). -/
def tagClear (s : State) (a : Nat) : Bool :=
  match region a with
  | .tile i => hasTags i && !tabGet s.mapu.tags (a / 512) false
  | _ => false

/-- A write of `n` bytes at `a` sets the valid tags of the rows it touches (R150). -/
def tagsSet (t : Tab Bool) (a n : Nat) : Tab Bool :=
  match region a with
  | .tile i => if hasTags i then
      (List.range ((a + n - 1) / 512 + 1 - a / 512)).foldl (fun t k => tabPut t (a / 512 + k) true false) t else t
  | _ => t

/-- Block index of the memory of an address. -/
def eccBlock (code a : Nat) : Nat :=
  match region a with
  | .mapStore => 4
  | _ => Config.sourceBlock code

/-- The ECC check of a read of the row at `a` (R151, R152): a corrected word schedules its write-back; an uncorrectable one
poisons the row. The flag says that the row is poisoned. Several single-bit words of one row raise MEM_ECC_CORRECTED and count in CORRECTED
once: R151 speaks of a read that finds an error, and does not count the words (log entry 215). -/
def eccRead (s : State) (m : Master) (a : Nat) : State × Bool :=
  if tagClear s a then (s, false)
  else
    let one := (rowWords a).any (fun w => tabGet s.mapu.bad w 0 == 1)
    let s1 := if one then
        let s := raise s false 0x0122 1 none (eccBlock 0x0122 a) 0xFFFF []
        let s := match region a with
          | .mapStore => bump s F.MAP_STAT_CORRECTED 1
          | _ => s
        { s with mapu := { s.mapu with writeBack := (s.mapu.writeBack.filter (· != a / 512)) ++ [a / 512] } }
      else s
    match (List.range 64).find? (fun i => decide (2 ≤ tabGet s.mapu.bad (a / 512 * 64 + i) 0)) with
    | some i => (raise s1 false 0x0123 2 (eccPart s m a) (eccBlock 0x0123 a) 0xFFFF [eccMem a, eccRow a, i, m.code], true)
    | none => (s1, false)

/-- Memory written: the words written whole take fresh check bits (R152), a write-back of a row of Map Store or a tile
memory that was pending is cancelled (R151), and the valid tags of the rows are set (R150). -/
def memPut (s : State) (a : Nat) (bs : Bytes) : State :=
  let w0 := (a + 7) / 8
  let w1 := (a + bs.length) / 8
  { s with mem := memWrite s.mem a bs,
           mapu := { s.mapu with bad := tabDrop s.mapu.bad w0 (w1 - w0), tags := tagsSet s.mapu.tags a bs.length,
                                 writeBack := s.mapu.writeBack.filter (fun r => !(decide (a / 512 ≤ r) && decide (r ≤ (a + bs.length - 1) / 512))) } }

/-- A range of memory loses its contents, and its rows hold zero data with a good check (R30); so do rows whose valid tags are
cleared (R31, R150). -/
def zeroMem (s : State) (a n : Nat) : State :=
  let wb := s.mapu.writeBack.filter (fun r => !(decide (a / 512 ≤ r) && decide (r < (a + n) / 512)))
  let u := { s.mapu with bad := tabDrop s.mapu.bad (a / 8) (n / 8), writeBack := wb }
  { s with mem := tabDrop s.mem a n, mapu := u }

/-- The valid tags of rows are cleared (R31, R150): a range of tile memory reads zero from then on. -/
def clearRows (s : State) (a n : Nat) : State :=
  let s := zeroMem s a n
  { s with mapu := { s.mapu with tags := tabDrop s.mapu.tags (a / 512) (n / 512) } }

/-- A tile memory's valid tags are cleared (R31). -/
def clearTile (s : State) (i : Nat) : State := clearRows s (tileAddr i) tileBytes

/-- The words of the 64-byte blocks of DRAM that a range touches (R369). -/
def blockWords (a n : Nat) : List Nat := (linesOf a n).flatMap (fun l => (List.range 8).map (fun i => l / 8 + i))

/-- A stored error of the block at `a` under in-band ECC (R369): 1 correctable, 2 not. -/
def markBlock (s : State) (a v : Nat) : State :=
  if isSet s F.DRC_CFG_IBECC then
    { s with mapu := { s.mapu with bad := (blockWords a 1).foldl (fun t w => tabPut t w v 0) s.mapu.bad } }
  else s

/-- The in-band ECC check of a DRAM read (R369, R370): a corrected block is written back; an uncorrectable one poisons the data. -/
def dramEcc (s : State) (m : Master) (a n : Nat) : State × Bool :=
  if !isSet s F.DRC_CFG_IBECC then (s, false)
  else
    let ws := blockWords a n
    let s := if ws.any (fun w => tabGet s.mapu.bad w 0 == 1) then
        raise { s with mapu := { s.mapu with bad := s.mapu.bad.filter (fun x => !(x.2 == 1 && ws.contains x.1)) } } false 0x0164 1 none
          drcBlock 0xFFFF []
      else s
    if ws.any (fun w => decide (2 ≤ tabGet s.mapu.bad w 0)) then
      (raise s false 0x0165 2 (some m.part) drcBlock 0xFFFF [a, (dramPos s a).ch, m.code], true)
    else (s, false)

/-- What a read answers: the state, the bytes (zero where the access had no effect), whether it was performed, and whether
the row it read is poisoned. -/
structure BusRd where
  s : State
  data : Bytes
  ok : Bool
  poison : Bool := false
  why : Option Why := none
  deriving DecidableEq, Repr

/-- A read of `len` bytes, which lie in one row of Map Store or a tile memory where they lie in one of those. -/
def busRead (s : State) (m : Master) (port : Port) (a len : Nat) : BusRd :=
  match busGate s m port a len false with
  | .refused s' y => ⟨s', List.replicate len 0, false, false, some y⟩
  | .silent => ⟨s, List.replicate len 0, false, false, none⟩
  | .pass =>
    let r := match region a with
      | .mapStore | .tile _ | .ember => eccRead s m a
      | .dram => dramEcc s m a len
      | _ => (s, false)
    ⟨r.1, memRead s.mem a len, true, r.2, none⟩

/-- A write; with it, why it was refused, if it was. -/
def busWrite (s : State) (m : Master) (port : Port) (a : Nat) (bs : Bytes) : State × Option Why :=
  match busGate s m port a bs.length true (leVal (bs.take 4)) with
  | .refused s' y => (s', some y)
  | .silent => (s, none)
  | .pass => (memPut s a bs, none)

end Sys2Proof.Machine
end

