-- ==== Sys2Proof/Machine/Windows.lean ====
section
/-! DEFINITION. Windows of the tile memories (R141 to R143): access to them, closing, and the return of credits; and the
stream DMA engines as parts of the state. -/

namespace Sys2Proof.Machine

/-- A window. -/
def getW (s : State) (t w : Nat) : Window := tabGet s.crd.wins (8 * t + w) {}
/-- The state with a window replaced. -/
def setW (s : State) (t w : Nat) (x : Window) : State := { s with crd := { s.crd with wins := tabPut s.crd.wins (8 * t + w) x {} } }

/-- The state with a stream DMA engine replaced. -/
def setD (s : State) (e : Nat) (x : DmaEng) : State := { s with dma := s.dma.set (e - 2) x }

/-- The window closes: OUTSTANDING has reached 0, or the last acknowledgement has arrived (R143). POOL and OUTSTANDING read 0 once it is CLOSED,
and while it is REVOKING OUTSTANDING falls as each holder discards its credits: R143 gives neither value (log entry 214). -/
def windowClosed (x : Window) : Window :=
  { x with st := .closed, pool := 0, outstanding := 0, requests := [], holders := [], revoking := [] }

/-- The epoch increments modulo 256 (R143, R144). -/
def epochUp (s : State) (x : Window) : Window := { x with epoch := (x.epoch + 1) % 256, epochAt := some s.timeC }

/-- WINDOW_CLOSE_COMPLETE: a DRAINING window with nothing outstanding closes (R143). -/
def closeIfEmpty (s : State) (t w : Nat) : State :=
  let x := getW s t w
  if x.st = .draining ∧ x.outstanding = 0 then setW s t w (windowClosed (epochUp s x)) else s

/-- Credits a holder has. -/
def heldBy (x : Window) (code : Nat) : Nat := tabGet x.holders code 0

/-- A holder's credits become `n` fewer, and OUTSTANDING with them. -/
def spend (x : Window) (code n : Nat) : Window :=
  { x with holders := tabPut x.holders code (heldBy x code - n) 0, outstanding := x.outstanding - n }

/-- RETURN k (R141): unused credits go from OUTSTANDING to POOL. -/
def returnCredits (s : State) (code t w k : Nat) : State :=
  let x := getW s t w
  let n := min k (heldBy x code)
  if x.st = .opened ∨ x.st = .draining then
    let y := spend x code n
    closeIfEmpty (setW s t w { y with pool := y.pool + n }) t w
  else s

/-- A stream DMA engine. -/
def getD (s : State) (e : Nat) : DmaEng := nth s.dma (e - 2) {}

/-- The destination row of a burst, with its word and descriptor. -/
def DmaBurst.row (b : DmaBurst) : Nat × Nat × Nat := (b.word, b.desc, b.dst / 512)

/-- Credits that an engine's bursts in flight to a window hold: one each, or one for the row that several make up. -/
def flying (d : DmaEng) (t w : Nat) : Nat :=
  let l := d.bursts.filter (fun b => b.win == w && (match region b.dst with | .tile i => i == t | _ => false))
  (l.filter (fun b => b.need == 0)).length + ((l.filter (fun b => b.need != 0)).map DmaBurst.row).eraseDups.length

/-- Every credit of a holder is returned, in every window (R248, R251). -/
def returnAll (s : State) (code : Nat) : State :=
  (s.crd.wins.map (·.1)).foldl (fun s k => returnCredits s code (k / 8) (k % 8) (heldBy (tabGet s.crd.wins k {}) code)) s

/-- Held OPENs of an engine are dropped (R169, R55). -/
def dropHeldOpens (s : State) (e : Nat) : State :=
  { s with crd := { s.crd with wins := s.crd.wins.map (fun x => (x.1,
      { x.2 with heldOpen := if x.2.heldOpen.map (·.1) = some e then none else x.2.heldOpen,
                 accepted := if x.2.accepted = some e then none else x.2.accepted })) } }

end Sys2Proof.Machine
end

