-- ==== Sys2Proof/Machine/Desc.lean ====
section
/-! DEFINITION. Transfer descriptors of the stream DMA engines (R241, R242), what such an engine may read (R527), inline cryptography
(R254, R255), the lock and the levels of a control store (R185, R186), and the boot port (R245). -/

namespace Sys2Proof.Machine

/-- ENABLE of an engine (R185). -/
def engEnable (s : State) (e : Nat) : Bool :=
  if e = 0 then isSet s F.ARR_CTL_ENABLE
  else if e = 1 then isSet s F.DRN_CTL_ENABLE
  else if e < 6 then isSet s (F.DMA_CTL_ENABLE (e - 2))
  else if e = 6 then isSet s F.CRS_CTL_ENABLE
  else if e < 11 then bitOf (getF s F.ISP_CTL_PIPE_EN) (e - 7)
  else isSet s F.STR_CTL_ENABLE

/-- LEVEL_MAX of every engine (R192). -/
def levelMax (s : State) : Nat := if s.fuse.b1 then 2 else 1

/-! ### Descriptors (R241, R242) -/

def xOp (r : Bytes) : Nat := leAt r 0 1
def xFlags (r : Bytes) : Nat := leAt r 1 1
def xCrypt (r : Bytes) : Nat := leAt r 2 1
def xSlot (r : Bytes) : Nat := leAt r 3 1
def xLen (r : Bytes) : Nat := leAt r 4 4
def xSrc (r : Bytes) : Nat := leAt r 8 6
def xDst (r : Bytes) : Nat := leAt r 16 6
def xWin (r : Bytes) : Nat := leAt r 24 2 % 8
def xSwz (r : Bytes) : Nat := leAt r 28 4
def xTagTab (r : Bytes) : Nat := leAt r 32 6
def xBlock0 (r : Bytes) : Nat := leAt r 40 4
/-- The swizzle masks of the source and the destination side (R252). -/
def xMask (r : Bytes) (dst : Bool) : Nat := if bitOf (xFlags r) (if dst then 3 else 2) then xSwz r % 4096 else 0

/-- A descriptor with XFER's register offsets added to SRC and DST, modulo 2^48 (R215). -/
def addOffsets (r : Bytes) (so do_ : Int) : Bytes :=
  r.take 8 ++ leBytes 6 (wrapU 48 (xSrc r + so)) ++ (r.drop 14).take 2
    ++ leBytes 6 (wrapU 48 (xDst r + do_)) ++ r.drop 22

/-- Reason 1 of R242: reserved codes and bits. -/
def descCodes (r : Bytes) : Bool :=
  decide (3 < xOp r) || xFlags r % 4 == 3 || decide (2 < xCrypt r) || xFlags r / 64 != 0 || leAt r 14 2 != 0 || leAt r 22 2 != 0
    || leAt r 24 2 / 8 != 0 || decide (768 < leAt r 26 2) || xSwz r / 4096 != 0
    || (if xOp r = 3 then leAt r 8 8 != 0 else leAt r 38 2 != 0 || (r.drop 44).any (· != 0))

/-- The bytes of a control store lie from `a` on for `n`. -/
def inStore (a n : Nat) : Bool := match region a with
  | .cs j => decide (a + n ≤ csAddr j + 32 * storeWords j)
  | _ => false

/-- Reason 2 of R242: alignment and length rules (R243, R245, R246, R254, R258). -/
def descForm (r : Bytes) : Bool :=
  let s := xSrc r; let d := xDst r; let n := xLen r
  (match xOp r with
    | 0 => region d == .mapStore && (d % 512 != 0 || n % 512 != 0)
    | 1 => n != 0
    | 2 => d % 32 != 0 || n % 32 != 0 || !inStore d n
        || !(region s == .dram || region s == .mapStore || region s == .ember)
    | _ => n == 0 || decide (32 < n) || !(match region d with
        | .dram | .ember | .tile _ => true
        | _ => false))
  || ((xOp r == 0 || xOp r == 2) && xCrypt r != 0
      && ((if xCrypt r = 1 then s % 4096 != 0 || region s != .dram else d % 4096 != 0 || region d != .dram) || n % 4096 != 0))

/-- A key slot usable by engines of a partition (R255, R469). -/
def keySlot (s : State) (part slot : Nat) : Option KeySlot :=
  if slot / 8 = part then tabGet s.sec.slots slot none else none

/-- The first check of R242 that a descriptor fails, but for the block index; `boot`: it stands in the boot port (R245). -/
def descBad (s : State) (part : Nat) (boot : Bool) (r : Bytes) : Option Nat :=
  if descCodes r then some 1
  else if descForm r then some 2
  else if (xOp r = 2 ∧ part ≠ 0) ∨ (boot ∧ xOp r ≠ 2) then some 3
  else if xCrypt r ≠ 0 ∧ (keySlot s part (xSlot r)).isNone then some 4
  else if xCrypt r ≠ 0 ∧ (xOp r = 1 ∨ xOp r = 3) then some 6
  else none

/-! ### Reads of a stream DMA engine (R527) -/

/-- A tile memory that a stream DMA engine never reads (R527). -/
def dmaNoTile (a : Nat) : Bool := match region a with
  | .tile i => decide (i < 13) || i == 23
  | _ => false

/-- A stream DMA engine stands inside a 4 KiB block of a CRYPT transfer (R276). -/
def midBlock (s : State) (e : Nat) : Bool :=
  decide (2 ≤ e) && decide (e < 6) && (getD s e).xfer.any (fun x =>
    xOp x.raw % 2 == 0 && xCrypt x.raw != 0 && x.status == 0 && x.pos % 4096 != 0 && decide (x.pos < xLen x.raw))

/-- The tile memory an address lies in. -/
def tileOf (a : Nat) : Option Nat := match region a with
  | .tile i => some i
  | _ => none

/-- A read by a stream DMA engine. -/
def dmaRead (s : State) (m : Master) (crypt : Bool) (a n : Nat) : BusRd :=
  if dmaNoTile a then ⟨partFilter s m 0 a 0, List.replicate n 0, false, false, some .filter⟩
  else busRead s m (.dma crypt) a n

/-- The header of a descriptor's tag table is read (R255, R256); the flag: a block of the transfer lies at or beyond BLOCKS, reason 5
of R242. A transfer without CRYPT reads nothing. -/
def tagHeader (s : State) (m : Master) (r : Bytes) : BusRd × Bool :=
  if xCrypt r = 0 then (⟨s, [], true, false, none⟩, false)
  else
    let h := dmaRead s m false (xTagTab r) 16
    (h, decide (leAt h.data 8 4 < xBlock0 r + xLen r / 4096))

/-! ### Inline cryptography (R254, R255) -/

/-- The IV of block `i` (R255): NONCE as stored, then the block index, most significant byte first. -/
def gcmIv (nonce : Bytes) (i : Nat) : Bytes := nonce ++ (leBytes 4 i).reverse

/-- Bytes of a block from offset `o` on, under the keystream; counter 2 is the first block of the data. -/
def gcmXor (key : BitVec 256) (iv : Bytes) (o : Nat) (bs : Bytes) : Bytes :=
  (List.range bs.length).map (fun j =>
    nth bs j 0 ^^^ BitVec.ofNat 8 ((Config.gcmStream key iv (2 + (o + j) / 16)).toNat / 256 ^ ((o + j) % 16)))

/-- The tag of a block, as its 16 bytes. -/
def gcmTagOf (key : BitVec 256) (iv : Bytes) (ct : Bytes) : Bytes := leBytes 16 (Config.gcmTag key iv ct).toNat

/-- The ciphertext of a block gathered so far. -/
def blockText (b : DmaBlock) : Bytes := (b.cipher.map (·.2)).flatten

/-- All 4,096 bytes of a block have been moved and its bursts acknowledged. -/
def blockWhole (b : DmaBlock) : Bool := b.left == 0 && (blockText b).length == 4096

/-! ### Control stores (R184 to R186) -/

/-- LEVEL_BAD of the store is cleared as a CSLOAD into it begins (R186). -/
def clearLevelBad (s : State) (a : Nat) : State := match region a with
  | .cs j => setF s (F.HXR_STAT_LEVEL_BAD j) 0
  | _ => s

/-- The store of an address is locked (R185): its engine's ENABLE reads 1. -/
def storeLocked (s : State) (a : Nat) : Bool := match region a with
  | .cs j => engEnable s j
  | _ => false

/-- HXR_CS_LOCKED against the requester's partition, and the log entry of R185. -/
def csLocked (s : State) (m : Master) (blk item a : Nat) : State := rlogAdd (raise s false 0x0134 2 (some m.part) blk item []) a m 8 0

/-- LEVEL_BAD of a store whose newly written words include one outside the accepted levels (R186). -/
def noteLevels (s : State) (a : Nat) (bs : Bytes) : State :=
  match region a with
  | .cs j =>
    let bad := (List.range bs.length).any (fun i => (a + i) % 32 == 0
      && (let l := (nth bs i 0).toNat % 16; l == 0 || decide (levelMax s < l)))
    if bad then setF s (F.HXR_STAT_LEVEL_BAD j) 1 else s
  | _ => s

/-! ### The boot port (R245) -/

/-- A CSLOAD of partition `part` runs: it clears LEVEL_BAD, then copies word by word and notes the words' levels; ciphertext is
decrypted, and a block that fails its check is zeroed and ends it (R185, R186, R245, R256, R257). -/
def csloadRun (part : Nat) (s : State) (raw : Bytes) : State :=
  let m : Master := { code := 23, part := part }
  if storeLocked s (xDst raw) then csLocked s m 7 0xFFFF (xDst raw)
  else
    let s := clearLevelBad s (xDst raw)
    let n := xLen raw
    let key := ((keySlot s part (xSlot raw)).map (·.key)).getD 0
    let nonce := memRead s.mem (xTagTab raw) 8
    let at_ := fun (p : Nat) => if region (xSrc raw + p) = .dram then swizzle (xSrc raw + p) (xMask raw false) else xSrc raw + p
    let step := fun (s : State) (p : Nat) =>
      let r := dmaRead s m (xCrypt raw != 0) (at_ p) 32
      let bs := if xCrypt raw = 0 then r.data else gcmXor key (gcmIv nonce (xBlock0 raw + p / 4096)) (p % 4096) r.data
      if r.ok ∧ r.poison = false then noteLevels (memPut r.s (xDst raw + p) bs) (xDst raw + p) bs else r.s
    let bad := (List.range (n / 4096)).find? (fun b => xCrypt raw == 1
      && memRead s.mem (xTagTab raw + 16 + 16 * (xBlock0 raw + b)) 16
          != gcmTagOf key (gcmIv nonce (xBlock0 raw + b))
              ((List.range 8).flatMap (fun i => memRead s.mem (at_ (4096 * b + 512 * i)) 512)))
    match bad with
    | some b =>
      let s := ((List.range (128 * (b + 1))).map (· * 32)).foldl step s
      let s := noteLevels (memPut s (xDst raw + 4096 * b) (List.replicate 4096 0)) (xDst raw + 4096 * b) (List.replicate 4096 0)
      raise (setF s (F.DMA_STAT_AUTH_FAIL 0) 1) false 0x0143 2 (some part) 7 0xFFFF [0, xBlock0 raw + b, xSlot raw]
    | none => ((List.range (n / 32)).map (· * 32)).foldl step s

/-- The words that the boot-port CSLOAD has written: none of a locked store, and those up to a failed block (R185, R245, R257). -/
def bootWords (s t : State) (raw : Bytes) : Bytes :=
  if storeLocked s (xDst raw) then [] else memRead t.mem (xDst raw) (xLen raw)

/-- A descriptor of the boot port; the words it has written go back to Emino (R245). -/
def bootCsload (s : State) (raw : Bytes) : State :=
  match descBad s 0 true raw with
  | some c => raise s false 0x0142 2 (some 0) 7 0xFFFF [c]
  | none =>
    let h := tagHeader s { code := 23, part := 0 } raw
    if h.2 then raise h.1.s false 0x0142 2 (some 0) 7 0xFFFF [5]
    else
    let t := csloadRun 0 h.1.s raw
    { t with rd := bootWords h.1.s t raw, rdErr := false }

/-- The descriptor in the boot port runs once no item or step of engine 0 does (R245). -/
def runBootPort (s : State) : State :=
  match s.bootPort with
  | some raw => if (getE s 2).st = .idle ∨ (getE s 2).st = .parked then bootCsload { s with bootPort := none } raw else s
  | none => s

end Sys2Proof.Machine
end

