-- ==== Sys2Proof/Machine/TensorRw.lean ====
section
/-! DEFINITION. Reads and writes of tensor elements row by row (R228, R230), and the commit bit (R213, R233). -/

namespace Sys2Proof.Machine

/-- Checks every line of 512 bytes of a list before its access: the state, the lines that were refused, and whether a row
read is poisoned. `data` gives the value written to a line (R509). -/
def gateLines (s : State) (m : Master) (port : Port) (write : Bool) (data : Nat → Nat) : List Nat → State × List Nat × Bool
  | [] => (s, [], false)
  | l :: ls =>
    let r : State × Bool × Bool := match busGate s m port (512 * l) 512 write (data l) with
      | .refused s' _ => (s', true, false)
      | .silent => (s, true, false)
      | .pass => if write then (s, false, false) else
          let q := match region (512 * l) with
            | .mapStore | .tile _ | .ember => eccRead s m (512 * l)
            | _ => (s, false)
          (q.1, false, q.2)
    let t := gateLines r.1 m port write data ls
    (t.1, if r.2.1 then l :: t.2.1 else t.2.1, r.2.2 || t.2.2)

/-- The element in bounds at coordinates, as line and nibble offset. -/
def TDesc.lineOf (d : TDesc) (c : Nat × Nat × Nat × Nat) : Nat := d.byteAddr (d.nibOff c / 2) / 512

/-- Reads the elements at a list of coordinates (R228): the state, the codes (zero from a refused line), and whether a row
was poisoned. -/
def tensRead (s : State) (m : Master) (port : Port) (d : TDesc) (cs : List (Int × Int × Int × Int)) :
    State × List Nat × Bool :=
  let st := cs.map (fun c => d.coords c.1 c.2.1 c.2.2.1 c.2.2.2)
  let lines := (st.filterMap (fun c => c.map d.lineOf)).eraseDups
  let g := gateLines s m port false (fun _ => 0) lines
  (g.1, st.map (fun c => match c with
    | none => d.pad
    | some c => if g.2.1.contains (d.lineOf c) then 0 else d.loadAt s.mem (d.nibOff c)), g.2.2)

/-- The elements of a table whose line was not refused. -/
def TDesc.kept (d : TDesc) (refused : List Nat) (els : Tab Nat) : Tab Nat :=
  els.filter (fun x => !refused.contains (d.byteAddr (x.1 / 2) / 512))

/-- Words of 64 bits that the lines of a write cover whole take fresh check bits (R152): every word of a Map Store row, and
the words written of a tile memory. -/
def freshBad (d : TDesc) (els : Tab Nat) (bad : Tab Nat) : Tab Nat :=
  match region d.base with
  | .mapStore => (unitsOf els 1024).foldl (fun t l => tabDrop t (d.byteAddr (l * 512) / 8) 64) bad
  | .tile _ => (unitsOf els 16).foldl (fun t l => tabDrop t (d.byteAddr (l * 8) / 8) 1) bad
  | _ => bad

/-- Writes produced elements (by nibble offset) through a descriptor (R230): refused lines are dropped. -/
def tensWrite (s : State) (m : Master) (port : Port) (d : TDesc) (els : Tab Nat) : State :=
  let lines := (els.map (fun x => d.byteAddr (x.1 / 2) / 512)).eraseDups
  let g := gateLines s m port true (fun l => memLe (d.write s.mem els) (512 * l) 4) lines
  let kept := d.kept g.2.1 els
  { g.1 with mem := d.write g.1.mem kept,
             mapu := { g.1.mapu with bad := freshBad d kept g.1.mapu.bad,
                                     tags := (lines.filter (fun l => !g.2.1.contains l)).foldl (fun t l => tagsSet t (512 * l) 512) g.1.mapu.tags,
                                     writeBack := g.1.mapu.writeBack.filter (fun r => !lines.contains r) } }

/-- The commit bit of a descriptor is written (R213): in Map Store its row is read and written back whole, elsewhere its
commit byte alone. A poisoned row is not written back, and the flag says so. -/
def putCommit (s : State) (m : Master) (a : Nat) (v : Bool) : State × Bool :=
  let new := fun (s : State) => [(rdByte s.mem (a + 10) &&& 0xFE#8) ||| (if v then 1#8 else 0#8)]
  match region a with
  | .mapStore =>
    let r := busRead s m .drainR (a / 512 * 512) 512
    if r.poison then (r.s, true)
    else if r.ok then
      let row := memRead (memWrite r.s.mem (a + 10) (new r.s)) (a / 512 * 512) 512
      ((busWrite r.s m .drainW (a / 512 * 512) row).1, false)
    else (r.s, false)
  | _ => ((busWrite s m .drainW (a + 10) (new s)).1, false)

/-- Coordinates of element `k` of a tensor in descriptor order: first dimension fastest. -/
def TDesc.flat (d : TDesc) (k : Nat) : Int × Int × Int × Int :=
  let d0 := d.dim 0; let d1 := d.dim 1; let d2 := d.dim 2
  ((k % d0 : Nat), (k / d0 % d1 : Nat), (k / (d0 * d1) % d2 : Nat), (k / (d0 * d1 * d2) : Nat))

end Sys2Proof.Machine
end

