-- ==== Sys2Proof/Machine/Stop.lean ====
section
/-! DEFINITION. Stopping an engine (R55): its datapath drops the work in hand, and its queues roll back (R488). -/

namespace Sys2Proof.Machine

/-! ### A unit drops its work -/

/-- An ISP pipe. -/
def getPipe (s : State) (p : Nat) : IspPipe := nth s.isp.pipes p {}
/-- The state with an ISP pipe replaced. -/
def setPipe (s : State) (p : Nat) (x : IspPipe) : State := { s with isp := { s.isp with pipes := s.isp.pipes.set p x } }

/-- A value with one bit cleared. -/
def clearBit (v i : Nat) : Nat := if bitOf v i then v - 2 ^ i else v
/-- A value with one bit set. -/
def setBit (v i : Nat) : Nat := if bitOf v i then v else v + 2 ^ i

/-- A write of 0 to ENABLE that waited for the engine's item takes effect (R96, R128, R264, R338, R509). -/
def applyDisable (s : State) (e : Nat) : State :=
  if e = 0 then
    if s.arr.disablePending then setF { s with arr := { s.arr with disablePending := false } } F.ARR_CTL_ENABLE 0 else s
  else if e = 1 then
    if s.drn.disablePending then setF { s with drn := { s.drn with disablePending := false } } F.DRN_CTL_ENABLE 0 else s
  else if e < 6 then
    if (getD s e).disablePending then setF (setD s e { getD s e with disablePending := false }) (F.DMA_CTL_ENABLE (e - 2)) 0 else s
  else if e = 6 then
    if s.vis.crsDisable then setF { s with vis := { s.vis with crsDisable := false } } F.CRS_CTL_ENABLE 0 else s
  else if e < 11 then
    if (getPipe s (e - 7)).disablePending then
      setF (setPipe s (e - 7) { getPipe s (e - 7) with disablePending := false }) F.ISP_CTL_PIPE_EN
        (clearBit (getF s F.ISP_CTL_PIPE_EN) (e - 7))
    else s
  else s

/-- The array drops its operation: its live slots are released unread, and what was on its way is lost (R55, R147). -/
def dropArray (s : State) : State :=
  let slots := s.arr.slots.map (fun (x : Slot) => if x.st = .live then ({} : Slot) else x)
  { s with arr := { s.arr with op := none, closing := 0, shadow := none, fills := [], shares := [], strPos := 0, strSteps := 0,
                               atTileEnd := true, slots := slots } }

/-- The whole rows that the DRAIN word in force has produced so far are written as they become whole (R212, R230). -/
def wholeRows (s : State) : State :=
  let d := tdesc s s.drn.outDesc
  let els := s.drn.out
  let m := engMaster 1 (getE s 1).part
  match region d.base with
  | .mapStore =>
    let bad := (unitsOf els 1024).filter (fun l => d.uncovered els (1024 * l) 1024)
    tensWrite s m .drainW d (els.filter (fun x => !bad.contains (x.1 / 1024)))
  | _ => tensWrite s m .drainW d els

/-- The drain holds no word, scale row, chain or running value. -/
def clearDrain (s : State) : State :=
  { s with drn := { s.drn with chain := [], chainSet := false, reduce := [], deposits := [], scale := none, out := [], pos := 0,
                               half := [] } }

/-- The drain drops its word, its held scale row, its chain and its running values (R55, R127); the rows its word has completed stand. -/
def dropDrain (s : State) : State := clearDrain (if s.drn.out.isEmpty then s else wholeRows s)

/-- A stream DMA engine issues no further burst, asks for nothing more and returns its credits; tags of reads in flight stay held (R251). -/
def dropDma (s : State) (e : Nat) : State :=
  let d := getD s e
  let c := engCode e
  let s := { s with crd := { s.crd with wins := s.crd.wins.map (fun x => (x.1, { x.2 with requests := x.2.requests.filter (·.1 != c) })) },
                    fp := { s.fp with held := s.fp.held.filter (·.code != c), granted := s.fp.granted.filter (· != c),
                                      waiting := s.fp.waiting.filter (· != c) } }
  returnAll (setD s e { d with words := [], xfer := none, bursts := [], blocks := [], commits := [], noCairn := [], ended := [],
                               orphan := d.orphan + d.bursts.length }) (engCode e)

/-- A pipe runs its lane no more, and the lane's frame knows it (R324). -/
def dropPipe (s : State) (p : Nat) : State :=
  let frames := s.isp.frames.map (fun f => { f with lanes := f.lanes.map (fun l => if l.pipe = some p then { l with pipe := none } else l) })
  setPipe { s with isp := { s.isp with frames := frames } } p { getPipe s p with lane := none }

/-- The datapath of a stopped engine drops the work in hand (R55). -/
def stopUnit (s : State) (e : Nat) : State :=
  let s := dropHeldOpens s e
  let s := if e = 0 then dropArray s else if e = 1 then dropDrain s else if e < 6 then dropDma s e
    else if e = 6 then { s with vis := { s.vis with boxes := 0 } } else if e < 11 then dropPipe s (e - 7)
    else { s with vis := { s.vis with band := false } }
  applyDisable s e

/-- Engine e stops as under R55: it issues no further word, its datapath drops the work in hand, and its queues roll
back (R488). A descriptor that waits in the boot port of stream DMA 0 then runs (R245). -/
def stopEngine (s : State) (e : Nat) : State :=
  let s := stopUnit s e
  let s := rollback s e (engCode e)
  let s := setE s e (idleEngine (getE s e))
  if e = 2 then runBootPort s else s

end Sys2Proof.Machine
end

