-- ==== Sys2Proof/Machine/CodecJob.lean ====
section
/-! DEFINITION. How a codec job ends (R341, R342, R346, R347): what it writes, its completion, and its stop. -/

namespace Sys2Proof.Machine

def jOp (r : Bytes) : Nat := leAt r 0 1
def jCodec (r : Bytes) : Nat := leAt r 1 1
def jFlags (r : Bytes) : Nat := leAt r 2 1
def jCq (r : Bytes) : Nat := leAt r 6 2
def jPicY (r : Bytes) : Nat := leAt r 8 8
def jPicC (r : Bytes) : Nat := leAt r 16 8
def jBs (r : Bytes) : Nat := leAt r 24 8
def jBsBytes (r : Bytes) : Nat := leAt r 32 4
def jStream (r : Bytes) : Nat := leAt r 40 8
def jId (r : Bytes) : Nat := leAt r 48 2

/-- The job that a core runs. -/
def getJob (s : State) (k : Nat) : Option CdcJob := nth s.cdc.jobs k none

/-- The master that a codec core is while it works for a partition (R509). -/
def codecMaster (k part : Nat) : Master := { code := 33 + k, part := part }

/-- Bytes that nobody but the core determines, from draw `d` (log entry 22). -/
def freeBytes (d n : Nat) : Bytes := (List.range n).map (Config.codecByte d)

/-- A picture's elements, which the standard and not this specification determines, from draw `d` (log entry 22). -/
def freePicture (d : Nat) (t : TDesc) : Tab Nat :=
  (List.range (t.dim 0 * t.dim 1 * t.dim 2)).map (fun k =>
    (2 * (k / (t.dim 0 * t.dim 1) * t.rowPitch + k / t.dim 0 % t.dim 1 * t.posStride) + k % t.dim 0 * t.nib,
      Config.codecPix d k % 16 ^ t.nib))

/-- What a job writes: an encoder `n` bytes of bitstream, a decoder its pictures (R341). -/
def jobWrites (s : State) (k : Nat) (j : CdcJob) (n : Nat) : State :=
  let m := codecMaster k j.part
  if jOp j.desc = 0 then (busWrite (drawn s) m .system (jBs j.desc) (freeBytes s.free n)).1
  else
    let s1 := tensWrite (drawn s) m .system (tdesc s (jPicY j.desc)) (freePicture s.free (tdesc s (jPicY j.desc)))
    if jPicC j.desc = 0 then s1
    else tensWrite (drawn s1) m .system (tdesc s1 (jPicC j.desc)) (freePicture s1.free (tdesc s1 (jPicC j.desc)))

/-- Bytes of the state area a job rewrites (R342): R + 1 pictures of the stream and 64 KiB. -/
def stateBytes (s : State) (j : CdcJob) : Nat :=
  let y := tdesc s (jPicY j.desc)
  let f := y.dim 1 * y.dim 2 * (if bitOf (jFlags j.desc) 2 then 2 else 1) * 3 / 2
  (if jOp j.desc = 0 then 2 else Config.codecDpb s.free % (if jCodec j.desc = 1 then 9 else 17) + 1) * f + 65536

/-- A transfer of a job to or from DRAM waits (R352): its bitstream, its state area or a picture. -/
def codecWaits (s : State) (j : CdcJob) : Bool :=
  [jBs j.desc, jStream j.desc, (tdesc s (jPicY j.desc)).base, (tdesc s (jPicC j.desc)).base].any (dramWaits s 8)

/-- The state area after a job that ended well. -/
def writeState (s : State) (k : Nat) (j : CdcJob) : State :=
  (busWrite (drawn s) (codecMaster k j.part) .system (jStream j.desc) (freeBytes s.free (stateBytes s j))).1

/-- The completion entry of a job (R347). -/
def codecEntry (s : State) (k : Nat) (j : CdcJob) (status flags bytes : Nat) : Bytes :=
  leBytes 2 (jId j.desc) ++ leBytes 1 status ++ leBytes 1 flags ++ leBytes 4 bytes ++ leBytes 2 (s.tick.num % 65536) ++ leBytes 1 k
    ++ List.replicate 5 0

/-- A core's ENABLE that was to be cleared at the end of its job (R349). -/
def settleCore (s : State) (k : Nat) : State :=
  if bitOf s.cdc.disabling k then
    setF { s with cdc := { s.cdc with disabling := clearBit s.cdc.disabling k } } F.CDC_CTL_ENABLE (clearBit (getF s F.CDC_CTL_ENABLE) k)
  else s

/-- ITEM_ID of the plan item that an entry or a job is bound to (R346). -/
def boundId (s : State) (i : Option Nat) : Nat :=
  ((i.bind (fun x => s.tick.armed.find? (fun a => a.idx == x))).map (·.item.id)).getD 0xFFFF

/-- A job ends with a status (R346, R347): its completion is posted, its item ends unless it was stopped, and the core is free. -/
def jobEnd (s : State) (k : Nat) (j : CdcJob) (status flags bytes : Nat) : State :=
  let s := (postData s (jCq j.desc) (codecEntry s k j status flags bytes) (33 + k) j.part).1
  let others := s.cdc.keyNext.filter (· != jStream j.desc)
  let jobs := (s.cdc.jobs.set k none)
  let jobs := if j.pair then jobs.set (k + 1) none else jobs
  let s := { s with cdc := { s.cdc with jobs := jobs, keyNext := if status = 0 then others else others ++ [jStream j.desc] } }
  let s := if 2 ≤ status then bump s F.CDC_STAT_ERRORS 1 else s
  let s := if 3 ≤ status then raise s false 0x0153 0 (some j.part) 15 (boundId s j.item) [] else s
  let s := match j.item with
    | some i => if status = 1 then s else { s with tick := { s.tick with reports := s.tick.reports ++ [i] } }
    | none => s
  settleCore (if j.pair then settleCore s (k + 1) else s) k

/-- The core of a codec item's job stops (R346). -/
def stopCodec (s : State) (idx : Nat) : State :=
  match (List.range 4).find? (fun k => ((getJob s k).bind (·.item)) == some idx) with
  | some k => match getJob s k with
    | some j => jobEnd (if codecWaits s j then s else jobWrites s k j (jBsBytes j.desc)) k j 1 0 0
    | none => s
  | none => s

end Sys2Proof.Machine
end

