-- ==== Sys2Proof/Machine/CamSet.lean ====
section
/-! DEFINITION. Camera contexts and write-set memory (R291, R302), and the posting of a write set (R302, R304), which firmware
and the exposure loop of R330 share. -/

namespace Sys2Proof.Machine

/-- Register block of camera intake on the port die (R510). -/
def camBlock : Nat := 1

/-- A direct context. -/
def getC (s : State) (c : Nat) : CamCtx := tabGet s.cam.ctx c {}
/-- The state with a direct context replaced. -/
def setC (s : State) (c : Nat) (x : CamCtx) : State := { s with cam := { s.cam with ctx := tabPut s.cam.ctx c x {} } }

/-- The context record of context `c` (R291). -/
def camRec (s : State) (c : Nat) : Bytes := memRead s.cam.mem (0x400 + 32 * c) 32

def cFlags (r : Bytes) : Nat := leAt r 0 1
def cPort (r : Bytes) : Nat := leAt r 1 1 % 4
def cVc (r : Bytes) : Nat := leAt r 1 1 / 4 % 16
def cDt (r : Bytes) : Nat := leAt r 2 1
def cDelay (r : Bytes) : Nat := bitsOf (cFlags r) 2 2
def cWidth (r : Bytes) : Nat := leAt r 4 2
def cLines (r : Bytes) : Nat := leAt r 6 2
def cRbBase (r : Bytes) : Nat := leAt r 8 2
def cRbRows (r : Bytes) : Nat := leAt r 10 2
def cAdmit (r : Bytes) : Nat := leAt r 12 2
/-- Raw-buffer rows of a line (R294). -/
def cLineRows (r : Bytes) : Nat := (cWidth r + 511) / 512

/-- A context is enabled. -/
def ctxOn (s : State) (c : Nat) : Bool := bitOf (getF s F.CAM_CTL_CTX_EN) c

/-- The enabled contexts of a port and virtual channel, lowest first. -/
def ctxsOf (s : State) (port vc : Nat) : List Nat :=
  (List.range 16).filter (fun c => ctxOn s c && cPort (camRec s c) == port && cVc (camRec s c) == vc)

/-- The partition that owns an ISP context (R463). -/
def ctxPart (s : State) (c : Nat) : Option Nat := ownerOf s (fun x => bitOf x.ispCtx c)

/-- Address of entry `i` of a port's write-set memory in the camera block (R302, R510). -/
def wsAddr (port i : Nat) : Nat := 0x1000 + 0x800 * port + 16 * i
/-- Entry `i` of a port's write-set memory. -/
def wsEntry (s : State) (port i : Nat) : Bytes := memRead s.cam.mem (wsAddr port i) 16
/-- VALUE of a write-set entry. -/
def wsValue (r : Bytes) : Nat := leAt r 4 4
/-- The state with VALUE of an entry replaced. -/
def setWsValue (s : State) (port i v : Nat) : State :=
  { s with cam := { s.cam with mem := memWrite s.cam.mem (wsAddr port i + 4) (leBytes 4 v) } }
/-- The entry is a READ (R302). -/
def wsRead (r : Bytes) : Bool := bitOf (leAt r 0 1) 5
/-- The entry is a CHECK (R302). -/
def wsCheck (r : Bytes) : Bool := bitOf (leAt r 0 1) 4
/-- Register-address bytes of an entry. -/
def wsAddrBytes (r : Bytes) : Nat := leAt r 0 1 % 4
/-- Value bytes of an entry: 1, 2, or 4 for the codes that are neither (log entry 20). -/
def wsBytes (r : Bytes) : Nat := let c := leAt r 0 1 / 4 % 4; if c = 1 ∨ c = 2 then c else 4

/-- A set is posted for a context, or refused (R302, R304): the count and range, the queue of four, and READ entries only in
sets without an epoch. -/
def postSet (s : State) (c first count : Nat) (noEpoch : Bool) : State :=
  let x := getC s c
  let port := cPort (camRec s c)
  if count = 0 ∨ 32 < count ∨ 128 < first + count ∨ 4 ≤ x.posted.length
      ∨ (!noEpoch && (List.range count).any (fun i => wsRead (wsEntry s port (first + i)))) then
    setF s (F.CAM_WSSTAT_REFUSED c) 1
  else setC s c { x with posted := x.posted ++ [{ first := first, count := count, noEpoch := noEpoch }] }

end Sys2Proof.Machine
end

