-- ==== Sys2Proof/Machine/IspPix.lean ====
section
/-! DEFINITION. What the ISP computes of a pixel (R314 to R317, R328): unpacking, the correction stages in their order, scaling,
the encoding of outputs, and the statistics of a pixel. -/

namespace Sys2Proof.Machine

/-! ### Context records and tables (R312, R314) -/

def iFlags (r : Bytes) : Nat := leAt r 0 1
/-- SRC: 1 when the frames come through a source descriptor. -/
def iSrc (r : Bytes) : Bool := bitOf (iFlags r) 0
def iAeHw (r : Bytes) : Bool := bitOf (iFlags r) 1
def iAwbHw (r : Bytes) : Bool := bitOf (iFlags r) 2
def iMono (r : Bytes) : Bool := bitOf (iFlags r) 3
def iCfa (r : Bytes) : Nat := bitsOf (iFlags r) 4 2
def iDepth (r : Bytes) : Nat := leAt r 1 1
def iLanes (r : Bytes) : Nat := leAt r 2 1
def iScale (r : Bytes) : Nat := leAt r 3 1
/-- The downscale factor f. -/
def iF (r : Bytes) : Nat := 2 ^ iScale r
def iWidth (r : Bytes) : Nat := leAt r 4 2
def iHeight (r : Bytes) : Nat := leAt r 6 2
def iEntry (r : Bytes) (j : Nat) : Nat := leAt r (8 + 2 * j) 2
def iOutA (r : Bytes) : Nat := leAt r 40 8
def iOutY (r : Bytes) : Nat := leAt r 48 8
def iSrcDesc (r : Bytes) : Nat := leAt r 56 8
def iStats (r : Bytes) : Nat := leAt r 64 8
def iTabBytes (r : Bytes) : Nat := leAt r 80 4
def iStatsN (r : Bytes) : Nat := leAt r 84 2
def iDoneQ (r : Bytes) : Nat := leAt r 86 2
def iAuto (r : Bytes) : Nat := leAt r 100 1 % 16
def iAutoDl (r : Bytes) : Nat := leAt r 104 4
def iFeed (r : Bytes) : Nat := leAt r 112 8

/-- A signed 16-bit table value. -/
def t16 (t : Bytes) (o : Nat) : Int := sext 16 (leAt t o 2)
/-- A table block with a remap mesh (R314). -/
def hasMesh (r : Bytes) : Bool := iTabBytes r == 19202
/-- Mesh displacement in eighths of a pixel: axis 0 dx, 1 dy, at point (i, j). -/
def meshAt (t : Bytes) (axis i j : Nat) : Int := sext 8 (leAt t (12832 + axis * 3185 + j * 65 + i) 1)
/-- The largest displacement of the mesh in whole pixels, rounded up. -/
def meshReach (t : Bytes) : Nat :=
  (((t.drop 12832).foldl (fun (a : Nat) (b : Byte) => max a (sext 8 b.toNat).natAbs) 0) + 7) / 8

/-! ### Pixels of a frame -/

/-- The mirror position of a coordinate in `n` (R317). -/
def mirror (n : Nat) (k : Int) : Nat :=
  let j : Int := if k < 0 then -k else if (n : Int) ≤ k then 2 * ((n : Int) - 1) - k else k
  min j.toNat (n - 1)

/-- Red, green and blue. -/
structure Rgb where
  r : Nat
  g : Nat
  b : Nat
  deriving DecidableEq, Repr

/-- Three 16-bit channels of a 48-bit value, red lowest. -/
def rgbOf (v : BitVec 48) : Rgb := ⟨bitsOf v.toNat 0 16, bitsOf v.toNat 16 16, bitsOf v.toNat 32 16⟩

/-- A channel-wise map. -/
def Rgb.map (p : Rgb) (f : Nat → Nat) : Rgb := ⟨f p.r, f p.g, f p.b⟩

/-- Clamp of an integer to 0 to 65,535. -/
def clamp16 (v : Int) : Nat := (clampI v 0 65535).toNat

/-- The raw code of pixel `x` of a line in the CSI-2 order of its data type (R289; the packing is CSI-2's, log entry 23). -/
def csiRaw (dt : Nat) (b : Nat → Nat) (x : Nat) : Nat :=
  match dt with
  | 0x2B => b (5 * (x / 4) + x % 4) * 4 + bitsOf (b (5 * (x / 4) + 4)) (2 * (x % 4)) 2
  | 0x2C => b (3 * (x / 2) + x % 2) * 16 + bitsOf (b (3 * (x / 2) + 2)) (4 * (x % 2)) 4
  | 0x2D =>
    let o := 7 * (x / 4)
    b (o + x % 4) * 64 + bitsOf (b (o + 4) + 256 * b (o + 5) + 65536 * b (o + 6)) (6 * (x % 4)) 6
  | 0x2E => b (2 * x) * 256 + b (2 * x + 1)
  | _ => b x

/-- A frame's data type carries colour (R315): YUV422 or RGB888. -/
def colourDt (dt : Nat) : Bool := dt == 0x1E || dt == 0x24

/-- Colour of pixel `x` of a line of such a frame (R315, log entry 21). -/
def csiRgb (dt : Nat) (b : Nat → Nat) (x : Nat) : Rgb :=
  if dt = 0x1E then rgbOf (Config.yuvRgb (b (4 * (x / 2) + 1 + 2 * (x % 2))) (b (4 * (x / 2))) (b (4 * (x / 2) + 2)))
  else ⟨(Config.rgb16 (b (3 * x + 2))).toNat, (Config.rgb16 (b (3 * x + 1))).toNat, (Config.rgb16 (b (3 * x))).toNat⟩

/-- What a lane's pixels are computed from: the context's record, tables and gains, the STAGES bits, the frame's data type, and
its raw codes and colours by coordinates in the frame. -/
structure PixEnv where
  r : Bytes
  t : Bytes
  wb : Nat × Nat × Nat
  stages : Nat
  colour : Bool
  raw : Nat → Nat → Nat
  rgb : Nat → Nat → Rgb

/-- Stage `k` is enabled. -/
def PixEnv.on (e : PixEnv) (k : Nat) : Bool := bitOf e.stages k
def PixEnv.w (e : PixEnv) : Nat := iWidth e.r
def PixEnv.h (e : PixEnv) : Nat := iHeight e.r

/-- An image of the frame, read at mirrored coordinates (R317). -/
def PixEnv.at_ {α : Type} (e : PixEnv) (f : Nat → Nat → α) (x y : Int) : α := f (mirror e.w x) (mirror e.h y)

/-- CFA position of a pixel. -/
def cfaPh (x y : Nat) : Nat := 2 * (y % 2) + x % 2

/-- Stage 0, black level. -/
def PixEnv.s0 (e : PixEnv) (x y : Nat) : Nat :=
  let r16 := e.raw x y * 2 ^ (16 - iDepth e.r) % 65536
  if e.on 0 then
    clamp16 ((((r16 : Int) - leAt e.t (2 * cfaPh x y) 2) * leAt e.t (8 + 2 * cfaPh x y) 2 + 8192) / 16384)
  else r16

/-- The values of a list in ascending order. -/
def sorted4 (l : List Nat) : List Nat :=
  l.foldl (fun acc v => acc.filter (· ≤ v) ++ [v] ++ acc.filter (fun a => v < a)) []

/-- A pixel is in the table's list of defects. -/
def defectAt (t : Bytes) (x y : Nat) : Bool :=
  (List.range (min (leAt t 18 2) 1024)).any (fun i => leAt t (8736 + 4 * i) 4 == x + 65536 * y)

/-- Stage 1, defective pixels: replaced by the mean of the middle two of the four neighbours at distance 2. -/
def PixEnv.s1 (e : PixEnv) (x y : Nat) : Nat :=
  let v := e.s0 x y
  if e.on 1 then
    let n := sorted4 [e.at_ e.s0 ((x : Int) - 2) y, e.at_ e.s0 ((x : Int) + 2) y, e.at_ e.s0 x ((y : Int) - 2), e.at_ e.s0 x ((y : Int) + 2)]
    let thr := leAt e.t 16 2
    if defectAt e.t x y ∨ (0 < thr ∧ (nth n 3 0 + thr < v ∨ v + thr < nth n 0 0)) then (nth n 1 0 + nth n 2 0 + 1) / 2 else v
  else v

/-- Stage 2, lens shading over the 33 × 25 grid of the pixel's CFA position. -/
def PixEnv.s2 (e : PixEnv) (x y : Nat) : Nat :=
  let v := e.s1 x y
  if e.on 2 then
    let xd := e.w - 1; let yd := e.h - 1
    let i := min 31 (x * 32 / xd); let j := min 23 (y * 24 / yd)
    let s := fun (i j : Nat) => (leAt e.t (2136 + 1650 * cfaPh x y + 66 * j + 2 * i) 2 : Int)
    let g := Config.bilinear [s i j, s (i + 1) j, s i (j + 1), s (i + 1) (j + 1)] [x * 32 - i * xd, xd, y * 24 - j * yd, yd]
    min 65535 ((v * g.toNat + 2048) / 4096)
  else v

/-- Coordinates of a 5 × 5 window, rows first. -/
def win5 : List (Int × Int) := (List.range 25).map (fun i => ((i % 5 : Nat) - 2, (i / 5 : Nat) - 2))

/-- Stage 3, demosaic; colour frames enter after it. Without it, and with MONO, the value stands for all three channels (R315 says so for MONO;
log entry 232). -/
def PixEnv.s3 (e : PixEnv) (x y : Nat) : Rgb :=
  if e.colour then e.rgb x y
  else
    let v := e.s2 x y
    if e.on 3 && !iMono e.r then
      rgbOf (Config.demosaic (win5.map (fun d => e.at_ e.s2 (x + d.1) (y + d.2))) (cfaPh x y) (iCfa e.r))
    else ⟨v, v, v⟩

/-- Stage 4, white balance. -/
def PixEnv.s4 (e : PixEnv) (x y : Nat) : Rgb :=
  let p := e.s3 x y
  let g := fun (c w : Nat) => min 65535 ((c * w + 2048) / 4096)
  if e.on 4 then ⟨g p.r e.wb.1, g p.g e.wb.2.1, g p.b e.wb.2.2⟩ else p

/-- A 3 × 3 matrix with offsets, both from the table block (stages 5 and 8). -/
def colMat (t : Bytes) (mat : Nat) (off : Nat → Int) (p : Rgb) : Rgb :=
  let f := fun (i : Nat) => clamp16 ((t16 t (mat + 6 * i) * p.r + t16 t (mat + 6 * i + 2) * p.g + t16 t (mat + 6 * i + 4) * p.b
    + off i + 2048) / 4096)
  ⟨f 0, f 1, f 2⟩

/-- Stage 5, colour correction. -/
def PixEnv.s5 (e : PixEnv) (x y : Nat) : Rgb :=
  if e.on 5 then colMat e.t 26 (fun i => sext 32 (leAt e.t (44 + 4 * i) 4)) (e.s4 x y) else e.s4 x y

/-- Stage 6, noise reduction; NR_STRENGTH 0 disables it. -/
def PixEnv.s6 (e : PixEnv) (x y : Nat) : Rgb :=
  let n := leAt e.t 80 1
  if e.on 6 && n != 0 then
    let w := win5.map (fun d => e.at_ e.s5 (x + d.1) (y + d.2))
    ⟨(Config.bilateral (w.map (·.r)) n).toNat, (Config.bilateral (w.map (·.g)) n).toNat, (Config.bilateral (w.map (·.b)) n).toNat⟩
  else e.s5 x y

/-- The tone curve of stage 7. -/
def toneMap (t : Bytes) (v : Nat) : Nat :=
  let c := fun (i : Nat) => (leAt t (84 + 2 * i) 2 : Int)
  wrapU 16 (c (v / 64) + ((c (v / 64 + 1) - c (v / 64)) * (v % 64 : Nat) + 32) / 64)

/-- Stages 7 and 8, tone map and colour space. -/
def PixEnv.s8 (e : PixEnv) (x y : Nat) : Rgb :=
  let p := if e.on 7 then (e.s6 x y).map (toneMap e.t) else e.s6 x y
  if e.on 8 then colMat e.t 56 (fun i => t16 e.t (74 + 2 * i) * 4096) p else p

/-- The displacement of the mesh at a pixel on one axis, in units of 1 / 65,536 pixel. -/
def PixEnv.disp (e : PixEnv) (axis x y : Nat) : Int :=
  let xd := e.w - 1; let yd := e.h - 1
  let i := min 63 (x * 64 / xd); let j := min 47 (y * 48 / yd)
  let m := fun (i j : Nat) => meshAt e.t axis i j * 8192
  Config.bilinear [m i j, m (i + 1) j, m i (j + 1), m (i + 1) (j + 1)] [x * 64 - i * xd, xd, y * 48 - j * yd, yd]

/-- Stage 9's remap: the image sampled bilinearly at the displaced position. -/
def PixEnv.s9 (e : PixEnv) (x y : Nat) : Rgb :=
  if e.on 9 && hasMesh e.r then
    let px := (x : Int) * 65536 + e.disp 0 x y
    let py := (y : Int) * 65536 + e.disp 1 x y
    let x0 := px / 65536; let y0 := py / 65536
    let fr := [(px % 65536).toNat, 65536, (py % 65536).toNat, 65536]
    let x1 := if px % 65536 = 0 then x0 else x0 + 1
    let y1 := if py % 65536 = 0 then y0 else y0 + 1
    let q := [e.at_ e.s8 x0 y0, e.at_ e.s8 x1 y0, e.at_ e.s8 x0 y1, e.at_ e.s8 x1 y1]
    let f := fun (ch : Rgb → Nat) => clamp16 (Config.bilinear (q.map (fun p => (ch p : Int))) fr)
    ⟨f (·.r), f (·.g), f (·.b)⟩
  else e.s8 x y

/-- Luma of R316. -/
def luma (p : Rgb) : Nat := (77 * p.r + 150 * p.g + 29 * p.b) / 256

/-- Stage 9's box average: output pixel (ox, oy) over f × f pixels. -/
def PixEnv.box (e : PixEnv) (ox oy : Nat) : Rgb :=
  let f := iF e.r
  let ps := (List.range (f * f)).map (fun i => e.at_ e.s9 (ox * f + i % f : Nat) (oy * f + i / f : Nat))
  let a := fun (ch : Rgb → Nat) => (ps.foldl (fun s p => s + ch p) 0 + f * f / 2) / (f * f)
  ⟨a (·.r), a (·.g), a (·.b)⟩

/-- A 16-bit value encoded by an output descriptor's format (R316). -/
def ispEnc (fmt v : Nat) : Nat :=
  match fmt with
  | 0 => wrapU 8 ((v / 256 : Nat) - 128)
  | 6 => wrapU 16 ((v : Int) - 32768)
  | _ => (narrow (.fin false v 65535) .fp16 .rne).code

/-- Formats that R316 allows for an output. -/
def ispFmtOk (fmt : Nat) : Bool := fmt == 0 || fmt == 6 || fmt == 4

/-- The reaches of R315 added over the enabled stages. -/
def ispReach (r t : Bytes) (stages : Nat) : Nat :=
  (if bitOf stages 1 then 2 else 0) + (if bitOf stages 3 then 2 else 0) + (if bitOf stages 6 then 2 else 0)
    + (if bitOf stages 9 then (if hasMesh r then meshReach t else 0) + iF r - 1 else 0)

/-! ### Statistics of a pixel (R328) -/

/-- Zone of a pixel among 16 × 12, which divide the frame evenly (log entry 232). -/
def PixEnv.zone (e : PixEnv) (x y : Nat) : Nat := 16 * (y * 12 / e.h) + x * 16 / e.w

/-- Luma at the output of white balance. -/
def PixEnv.luma4 (e : PixEnv) (x y : Nat) : Nat := luma (e.s4 x y)

/-- The focus measure of a pixel: |4Y minus its four neighbours| >> 4. -/
def PixEnv.focusAt (e : PixEnv) (x y : Nat) : Nat :=
  let n : Nat := e.at_ e.luma4 ((x : Int) - 1) y + e.at_ e.luma4 ((x : Int) + 1) y + e.at_ e.luma4 x ((y : Int) - 1)
    + e.at_ e.luma4 x ((y : Int) + 1)
  ((4 * e.luma4 x y : Int) - n).natAbs / 16

end Sys2Proof.Machine
end

