-- ==== Sys2Proof/Machine/Frames.lean ====
section
/-! DEFINITION. Frames from intake to completion: their release, stop and completion in the ISP (R318, R324 to R331), and
their status words (R297 to R299). -/

namespace Sys2Proof.Machine

/-! ### Frames of the ISP -/

/-- An ISP context. -/
def getI (s : State) (c : Nat) : IspCtx := tabGet s.isp.ctx c {}
/-- The state with an ISP context replaced. -/
def setI (s : State) (c : Nat) (x : IspCtx) : State := { s with isp := { s.isp with ctx := tabPut s.isp.ctx c x {} } }
/-- An ISP context is enabled. -/
def ispOn (s : State) (c : Nat) : Bool := bitOf (getF s F.ISP_CTXEN_EN) c

/-- The frame `n` of context `c`. -/
def findFrame (s : State) (c n : Nat) : Option IspFrame := s.isp.frames.find? (fun f => f.ctx == c && f.frame == n)
/-- The state with a frame replaced. -/
def setFrame (s : State) (f : IspFrame) : State :=
  { s with isp := { s.isp with frames := s.isp.frames.map (fun x => if x.ctx = f.ctx ∧ x.frame = f.frame then f else x) } }
/-- The state without a frame. -/
def removeFrame (s : State) (f : IspFrame) : State :=
  { s with isp := { s.isp with frames := s.isp.frames.filter (fun x => !(x.ctx == f.ctx && x.frame == f.frame)) } }

/-- FLAGS of a frame status word. -/
def wordFlags (f : IspFrame) : Nat := leAt (f.word.getD []) 8 2
/-- EPOCH of a frame status word. -/
def wordEpoch (f : IspFrame) : Nat := leAt (f.word.getD []) 10 2

/-- The frame completion entry (R324), for a context that names a queue. -/
def ispPost (s : State) (f : IspFrame) (status idx : Nat) : State :=
  let r := (getI s f.ctx).record
  if ispOn s f.ctx ∧ iDoneQ r ≠ 0xFFFF then
    (postData s (iDoneQ r) (leBytes 4 f.frame ++ leBytes 1 f.ctx ++ leBytes 1 status ++ leBytes 2 (wordFlags f) ++ leBytes 2 (wordEpoch f)
      ++ leBytes 2 idx ++ leBytes 2 ((f.item.map (·.2.1)).getD 0xFFFF) ++ leBytes 2 0) (engCode 7) f.part).1
  else s

/-- Lines up to `n` of a frame are released, and intake is notified (R295, R326). -/
def releaseLines (s : State) (f : IspFrame) (n : Nat) : State × IspFrame :=
  let s := if !f.fed ∧ f.released < n then
      { s with cam := { s.cam with notices := s.cam.notices ++ [(f.ctx, (n - f.released) * f.rpl)] } } else s
  (s, { f with released := max f.released n })

/-- A frame ends: its context's rows are released, and nothing of it remains once its status word has come (R324). -/
def endFrame (s : State) (f : IspFrame) : State :=
  let r := releaseLines s f f.linesIn
  if f.fed ∨ f.word.isSome then removeFrame r.1 f
  else setFrame r.1 { r.2 with dead := true, lanes := [] }

/-- Every lane of a frame stops, its rows are released and its completion is posted (R318, R324). -/
def stopFrame (s : State) (f : IspFrame) (status : Nat) : State :=
  if f.dead then s
  else
    let s := f.lanes.foldl (fun s l => match l.pipe with
      | some p => stopEngine s (7 + p)
      | none => s) s
    endFrame (ispPost s f status 0xFFFF) f

/-- The frame a plan item has taken. -/
def itemFrame (s : State) (idx : Nat) : Option IspFrame :=
  s.isp.frames.find? (fun f => !f.dead && (f.item.map (·.1)) == some idx)

/-- The context is to be disabled and runs no lane: its bit clears, and its untaken frames are discarded (R338). -/
def settleCtx (s : State) (c : Nat) : State :=
  if (getI s c).disabling ∧ !(s.isp.frames.any (fun f => f.ctx == c && f.lanes.any (·.pipe.isSome))) then
    let s := (s.isp.frames.filter (fun f => f.ctx == c)).foldl (fun s f => stopFrame s f 3) s
    setI (setF s F.ISP_CTXEN_EN (clearBit (getF s F.ISP_CTXEN_EN) c)) c { recAddr := (getI s c).recAddr }
  else s

/-! ### Completion of a frame (R324, R328 to R331) -/

/-- Every lane of the frame has written its last row and ended. -/
def frameDone (r : Bytes) (f : IspFrame) : Bool :=
  f.lanes.length == iLanes r && f.lanes.all (fun l => l.issued && l.pipe.isNone && decide (iHeight r ≤ l.rows))

/-- The frame status word's epoch has CHECK entries (R329). -/
def epochChecked (s : State) (c e : Nat) : Bool := (getC s c).epochs.any (fun x => x.num == e && x.check)

/-- AE_ELIGIBLE (R329). -/
def aeEligible (s : State) (f : IspFrame) : Bool :=
  let fl := wordFlags f
  decide (f.ctx < 16) && decide (wordEpoch f = (getC s f.ctx).lastEpoch) && (getC s f.ctx).posted.isEmpty
    && !([0, 1, 6, 7, 10, 11]).any (fun b => bitOf fl b) && (bitOf fl 5 || !epochChecked s f.ctx (wordEpoch f))

/-- The statistics record of a frame (R328). -/
def statsRecord (f : IspFrame) (eligible : Bool) : Bytes :=
  let w := f.word.getD []
  leBytes 4 f.frame ++ leBytes 2 (wordEpoch f) ++ leBytes 2 (leAt w 12 2) ++ leBytes 2 (wordFlags f) ++ leBytes 1 f.ctx
    ++ leBytes 1 (if eligible then 1 else 0) ++ leBytes 4 0 ++ leBytes 8 ((f.item.map (·.2.2)).getD (2 ^ 64 - 1))
    ++ leBytes 8 (leAt w 16 8) ++ List.replicate 32 0
    ++ ((List.range 64).map (fun i => leBytes 4 (tabGet f.hist i 0))).flatten
    ++ ((List.range 576).map (fun i => leBytes 4 (tabGet f.zones i 0))).flatten
    ++ ((List.range 192).map (fun i => leBytes 4 (min (tabGet f.focus i 0) 0xFFFFFFFF))).flatten ++ List.replicate 704 0

/-- A quotient of `ae_update`; by zero it is a free value (log entry 25). -/
def aeDiv (n d : Nat) : Nat := if d = 0 then Config.aeDivZero n else n / d

/-- The hardware exposure loop (`ae_update` of R330). -/
def aeUpdate (s : State) (f : IspFrame) : State :=
  let x := getI s f.ctx
  let r := x.record
  let tot : Nat := f.hist.foldl (fun a b => a + b.2) 0
  if tot = 0 then s
  else
    let m : Nat := 65536 * f.hist.foldl (fun a b => a + b.2 * (2 * b.1 + 1)) 0 / (128 * tot)
    let e := x.ae.1 * x.ae.2
    let e1 := max (e / 2) (min (2 * e) (e * leAt r 88 2 / max m 1))
    if 32 * ((e1 : Int) - e).natAbs < e then s
    else
      let gmin := leAt r 92 2; let gmax := leAt r 94 2
      let l1 := (clampI (aeDiv e1 gmin : Nat) 1 (leAt r 90 2)).toNat
      let g1 := (clampI (aeDiv (2 * e1 + l1) (2 * l1) : Nat) gmin gmax).toNat
      let port := cPort (camRec s f.ctx)
      let first := leAt r 96 1
      let s := setWsValue (setWsValue s port (first + leAt r 98 1) l1) port (first + leAt r 99 1) g1
      setI (postSet s f.ctx first (leAt r 97 1) false) f.ctx { x with ae := (l1, g1) }

/-- The hardware white-balance loop (R331). -/
def awbUpdate (s : State) (f : IspFrame) : State :=
  let x := getI s f.ctx
  let sum : Nat → Nat := fun k => f.zones.foldl (fun a b => if b.1 % 3 = k then a + b.2 else a) 0
  let g := sum 1
  let step := fun (w c : Nat) => if c = 0 then w else
    let t := (clampI (4096 * g / c : Nat) 1024 32767)
    ((w : Int) + (t - w) / 4).toNat
  setI s f.ctx { x with wb := (step x.wb.1 (sum 0), 4096, step x.wb.2.2 (sum 2)) }

/-- The frame's last lane has ended and its status word has come (R324): the commit bits, the statistics record, the completion,
the item's end, and the loops of R330 and R331. -/
def completeFrame (s : State) (f : IspFrame) : State :=
  let r := (getI s f.ctx).record
  if f.dead ∨ f.word.isNone ∨ frameDone r f = false then s
  else
    let m := engMaster 7 f.part
    let s := (putCommit s m (iOutA r) true).1
    let s := if iOutY r = 0 then s else (putCommit s m (iOutY r) true).1
    let stats := f.lanes.all (fun l => bitOf l.stages 10)
    let el := aeEligible s f
    let idx := f.frame % iStatsN r
    let s := if stats then
        (List.range 8).foldl (fun s i =>
          (busWrite s m .image (iStats r + 4096 * idx + 512 * i) (((statsRecord f el).drop (512 * i)).take 512)).1) s
      else s
    let s := ispPost s f 0 (if stats then idx else 0xFFFF)
    let s := match f.item with
      | some i => { s with tick := { s.tick with reports := s.tick.reports ++ [i.1] } }
      | none => s
    let s := if stats && el && iAeHw r then aeUpdate s f else s
    let s := if stats && iAwbHw r && !bitOf (wordFlags f) 0 && !bitOf (wordFlags f) 1 then awbUpdate s f else s
    settleCtx (endFrame s f) f.ctx

/-! ### Frame status words (R297) -/

/-- The 64 bytes of a frame status word. -/
def statusWord (s : State) (c : Nat) (f : CamFrame) : Bytes :=
  let r := camRec s c
  leBytes 4 f.frame ++ leBytes 2 f.fn ++ leBytes 1 c ++ leBytes 1 (leAt r 1 1) ++ leBytes 2 f.flags ++ leBytes 2 f.epoch
    ++ leBytes 2 f.conf ++ leBytes 1 (cDt r) ++ leBytes 1 f.reason ++ leBytes 8 f.fsTime ++ leBytes 8 f.feTime
    ++ leBytes 2 f.lines ++ leBytes 2 f.crc ++ leBytes 2 f.hdr ++ leBytes 2 f.len ++ leBytes 4 f.rbFirst
    ++ leBytes 2 ((f.item.map (·.2.1)).getD 0xFFFF) ++ leBytes 2 0 ++ leBytes 8 ((f.item.map (·.2.2.1)).getD (2 ^ 64 - 1))
    ++ List.replicate 8 0

/-- A status word reaches the compute die: its ring entry, and the ISP (R297, R324). -/
def deliverStatus (s : State) (c : Nat) (cf : CamFrame) : State :=
  let r := camRec s c
  let w := statusWord s c cf
  let part := (ctxPart s c).getD 0
  let s := (busWrite s (engMaster 7 part) .image (leAt r 16 6 + 64 * (cf.frame % leAt r 24 2)) w).1
  let bad := bitOf cf.flags 0 || bitOf cf.flags 1
  match findFrame s c cf.frame with
  | none =>
    if bitOf cf.flags 0 then
      ispPost s { ctx := c, frame := cf.frame, dt := cDt r, part := part, fed := false, word := some w } 2 0xFFFF
    else s
  | some f =>
    let f := { f with word := some w }
    let s := setFrame s f
    if f.dead then endFrame s f
    else if bad then settleCtx (stopFrame s f (if bitOf cf.flags 0 then 2 else 1)) c
    else completeFrame s f

/-- An open frame of a context is closed (R297, R298): its flags are completed, and its status word queues behind its lines. -/
def closeFrame (s : State) (c extra : Nat) : State :=
  let x := getC s c
  match x.cur with
  | none => s
  | some f =>
    let r := camRec s c
    let crcDrop := bitOf (cFlags r) 1 && f.crc != 0 && f.reason == 0
    let f := if crcDrop then { f with reason := 4 } else f
    let short := f.admitted && (f.reason == 0 || f.reason == 4) && decide (f.lines < cLines r)
    let late := (f.item.map (fun i => decide (i.2.2.2 < s.timeP))).getD false
    let fl := f.flags ||| extra ||| (if f.reason = 0 then 0 else 1) ||| (if short then 2 else 0) ||| (if late then 8 else 0)
    let f := { f with flags := fl, feTime := s.timeP }
    let port := cPort r
    let next := if f.admitted then (f.rbFirst + f.lines * cLineRows r) % cRbRows r else x.next
    let s := setC s c { x with cur := none, next := next }
    { s with cam := { s.cam with fifo := s.cam.fifo.set port (nth s.cam.fifo port [] ++ [.status c f]) } }

/-- The open frame of an intake item that is stopped at its deadline is closed as TRUNCATED (R300). -/
def stopIntake (s : State) (idx : Nat) : State :=
  (List.range 16).foldl (fun s c =>
    if ((getC s c).cur.bind (·.item)).map (·.1) = some idx then closeFrame s c 2 else s) s

end Sys2Proof.Machine
end

