-- ==== Sys2Proof/Machine/Items.lean ====
section
/-! DEFINITION. Stopping engines and plan items: the stop of R55, cancellation through DEPS (R56), the clearing of commit
bits (R57), the safe state and the save of R490 and R491, and the paths of device-class faults (R493). -/

namespace Sys2Proof.Machine

/-! ### Stopping an item -/

/-- Control-store index of the Hexarel engine an engine code of R46 names, if it names one directly. -/
def codeEngine (c : Nat) : Option Nat :=
  if c ≤ 6 then some c else if c = 8 then some 11 else none

/-- A started item of an engine that is no Hexarel engine is stopped: its frame, its codec job, its billet, its step (R55, R300,
R324, R346, R374, R497). -/
def stopOther (s : State) (a : Armed) : State :=
  match a.item.engine with
  | 0x07 => match itemFrame s a.idx with
    | some f => settleCtx (stopFrame s f 1) f.ctx
    | none => s
  | 0x09 => stopIntake s a.idx
  | 0x0A => stopCodec s a.idx
  | 0x0B => { setF (setF s F.BIST_STAT_CLASS (a.item.arg % 8)) F.BIST_STAT_RESULT 2 with sec := { s.sec with locked := false } }
  | 0x0C => retrainEnd s a.item.arg
  | _ => s

/-- The engine of a started item is stopped (R55). -/
def stopItem (s : State) (a : Armed) : State :=
  if a.started then
    match codeEngine a.item.engine with
    | some e => if (getE s e).item.map (·.1) = some a.idx then stopEngine s e else s
    | none => stopOther s a
  else s

/-! ### Outcomes of items -/

/-- The commit bit of a tensor descriptor is cleared (R57, R224). -/
def clearCommit (s : State) (d : Nat) : State :=
  if region (d + 10) = .gap then s else
  { s with mem := memWrite s.mem (d + 10) [rdByte s.mem (d + 10) &&& 0xFE#8] }

/-- The plan in force: the one TICK_STAT.PLAN_ID names. -/
def planNow (s : State) : Option Plan := s.tick.plans.find? (fun p => p.id == getF s F.TICK_STAT_PLAN_ID)

/-- A plan of plan memory. -/
def planOf (s : State) (id : Nat) : Option Plan := s.tick.plans.find? (fun p => p.id == id)

/-- The plans of a fallback chain, from plan `id` on (R62). -/
def chainFrom (s : State) : Nat → Nat → List Plan
  | 0, _ => []
  | n + 1, id => match planOf s id with
    | some p => p :: chainFrom s n p.fallback
    | none => []

/-- The plan activated last and its fallback chain. -/
def chainNow (s : State) : List Plan := match s.tick.base with
  | some id => chainFrom s 16 id
  | none => []

/-- The plan that R62 runs at the ceiling in force, and whether it is a fallback. -/
def choosePlan (s : State) : Option (Plan × Bool) :=
  match chainNow s with
  | [] => none
  | p :: r => match (p :: r).find? (fun x => decide (x.floor ≤ s.tick.ceiling)) with
    | some x => some (x, x.id != p.id)
    | none => some (p, false)

/-- Activations that name the edge, or an earlier one, take effect (R49). -/
def takeActivations (s : State) (n : Nat) : State :=
  let due := s.tick.pending.filter (fun x => decide (x.2 ≤ n))
  { s with tick := { s.tick with pending := s.tick.pending.filter (fun x => decide (n < x.2)),
                                 base := (due.getLast?.map (·.1)).orElse (fun _ => s.tick.base) } }

/-- A change of ceiling announced for the edge takes effect (R61). -/
def takeCeiling (s : State) (n : Nat) : State :=
  match s.tick.nextCeil with
  | some (k, v) => if k ≤ n then { s with tick := { s.tick with ceiling := v, nextCeil := none } } else s
  | none => s

/-- The descriptor addresses of an item's output list (R45); zero marks an unused entry. -/
def outsOf (s : State) (it : PlanItem) : List Nat :=
  if it.outlist = 0xFFFF then [] else (nth ((planNow s).map (·.outs) |>.getD []) it.outlist []).filter (· ≠ 0)

/-- An outcome is entered for the tick's milestone record, and the item's outputs are to be uncommitted (R57, R59). -/
def logOutcome (s : State) (it : PlanItem) (outcome late queue : Nat) : State :=
  let l := s.tick.log
  let s := (outsOf s it).foldl clearCommit s
  { s with tick := { s.tick with log :=
      { l with entries := l.entries ++ [{ id := it.id, outcome := outcome, engine := it.engine, late := late, queue := queue, part := it.part }],
               misses := l.misses + 1, uncommit := l.uncommit ++ outsOf s it } } }

/-- An item leaves the armed items; its index is remembered for the tick, and its end for the next item on its engine (R44, R47, R48). -/
def disarm (s : State) (idx : Nat) : State :=
  { s with tick := { s.tick with armed := s.tick.armed.filter (fun a => a.idx != idx),
                                 log := { s.tick.log with ended := s.tick.log.ended ++ [idx],
                                                          endAt := tabPut s.tick.log.endAt idx (some s.timeC) none } } }

/-- An armed item is cancelled: stopped if it has started, and never started otherwise (R56). -/
def cancelArmed (s : State) (a : Armed) : State :=
  disarm (logOutcome (stopItem s a) a.item 3 0xFFFFFFFF 0xFFFF) a.idx

/-- The indices that depend on an index of `set` among the armed items, added `n` times over (R56). -/
def depSet (armed : List Armed) : Nat → List Nat → List Nat
  | 0, set => set
  | n + 1, set =>
    depSet armed n (set ++ (armed.filter (fun a => !set.contains a.idx && a.item.deps.any (fun d => set.contains d))).map (·.idx))

/-- Every armed item that depends on item `idx`, to every depth, is cancelled (R56). -/
def cancelDeps (s : State) (idx : Nat) : State :=
  let set := depSet s.tick.armed s.tick.armed.length [idx]
  (s.tick.armed.filter (fun a => a.idx != idx && set.contains a.idx)).foldl cancelArmed s

/-- The armed item of an index. -/
def armedOf (s : State) (idx : Nat) : Option Armed := s.tick.armed.find? (fun a => a.idx == idx)

/-- An item is reported to the tick unit as cancelled, and everything that depends on it is cancelled (R56, R194). -/
def cancelItem (s : State) (idx : Nat) : State :=
  match armedOf s idx with
  | some a => cancelDeps (cancelArmed s a) idx
  | none => s

/-! ### Elastic steps (R265 to R269) -/

/-- A step has ended with a status; the scheduler is to post its completion (R267). -/
def postStep (s : State) (x : Step) (status : Nat) : State :=
  { s with sch := { s.sch with ended := s.sch.ended ++ [({ x with saved := none }, status)] } }

/-- Engines PARKED for no step that is parked any longer are IDLE (R159). -/
def settleParked (s : State) : State :=
  { s with hx := s.hx.zipIdx.map (fun g =>
      if g.1.st = .parked ∧ !((s.sch.parked ++ s.sch.run.toList).any (fun x => x.engs.any (fun y => y.1 == g.2))) then idleEngine g.1 else g.1) }

/-- The array time since the last charge goes to the step that holds the array and to its partition's meter (R268). -/
def chargeStep (s : State) : State :=
  match s.sch.run with
  | none => s
  | some x =>
    let d := s.timeC - s.sch.since
    { s with sch := { s.sch with run := some { x with array := x.array + d }, since := s.timeC,
                                 meter := s.sch.meter.set x.part (nth s.sch.meter x.part 0 + d) } }

/-- The step that holds the array no longer does, and any lay-by request for it lapses (R284). -/
def leaveArray (s : State) : State :=
  { s with sch := { s.sch with run := none, phase := 0, again := false, frozen := [], wins := [] } }

/-- The running step ends with a status: its engines stop, unless they have ended, and its completion is posted (R267). -/
def endStep (s : State) (status : Nat) : State :=
  let s := chargeStep s
  match s.sch.run with
  | none => s
  | some x =>
    let s := x.engs.foldl (fun s e => if (getE s e.1).st = .idle then s else stopEngine s e.1) s
    let s := applyDisable s 0
    postStep (leaveArray s) x status

/-- The steps of a partition are discarded, running, parked and submitted alike (R267, R474, R487). -/
def discardSteps (s : State) (p status : Nat) : State :=
  let s := if s.sch.run.any (fun x => x.part == p) then endStep s status else s
  let gone := (s.sch.parked ++ s.sch.submitted).filter (fun x => x.part == p)
  settleParked (gone.foldl (fun s x => postStep s x status)
    { s with sch := { s.sch with parked := s.sch.parked.filter (fun x => x.part != p),
                                 submitted := s.sch.submitted.filter (fun x => x.part != p),
                                 resume := s.sch.resume.filter (· != p) } })

/-- A fault stopped an engine that works for no plan item: the elastic step it belongs to fails (R267, R284). -/
def stepFaulted (s : State) (e : Nat) : State :=
  if s.sch.run.any (fun x => x.engs.any (fun y => y.1 == e)) then endStep s 1 else s

/-- An engine's program has ended; the step ends with its last engine (R265). -/
def stepEnded (s : State) : State :=
  match s.sch.run with
  | some x => if s.sch.phase ≠ 1 ∧ s.sch.phase ≠ 2 ∧ x.engs.all (fun y => (getE s y.1).st == .idle) then endStep s 0 else s
  | none => s

/-! ### Engine faults -/

/-- A fault stopped a lane: its frame stops, and the frame's item is cancelled (R324, R337). -/
def laneFault (s : State) (c n : Nat) : State :=
  match findFrame s c n with
  | some f =>
    let s := settleCtx (stopFrame s f 1) c
    match f.item with
    | some i => cancelItem s i.1
    | none => s
  | none => s

/-- A fault an engine raises stops it; its item is reported as cancelled, or its elastic step ends (R194, R127, R95). -/
def engHalt (s : State) (e : Nat) : State :=
  let g := getE s e
  let lane := if 7 ≤ e ∧ e < 11 then (getPipe s (e - 7)).lane else none
  let s := stopEngine s e
  match g.item, lane with
  | some (idx, _), _ => cancelItem s idx
  | none, some (c, n, _) => laneFault s c n
  | none, none => stepFaulted s e

/-- A contained fault of an engine, against the partition it works for. -/
def engFault (s : State) (e code : Nat) (detail : List Nat) : State :=
  let g := getE s e
  engHalt (raise s false code 2 (some g.part) (engBlock e) (engItem s e) detail) e

/-- The faults of R194 that carry the word's address and the engine's control-store index (R526). -/
def hxrFault (s : State) (e code reason : Nat) : State :=
  engFault s e code [reason, (getE s e).pc, e]

/-! ### Safe state, save and device-class paths -/

/-- Safe state (R490): every engine, the stream DMA engines and the lay-by mover stop, BOOT is 3 and FAULT_N is low. -/
def safeState (s : State) : State :=
  let s := leaveArray ((List.range 12).foldl stopEngine s)
  let s := setF s F.HIF_DEVSTAT_BOOT 3
  { s with flt := { s.flt with safe := true, faultN := true },
           tick := { s.tick with log := { s.tick.log with forceFail := true } } }

/-- The save area (R491): header, then the compute-die records, then the port-die records, each with the one held in FLT_REC.
With the causeway failed only the port-die queue is saved (R499). RESTARTS counts the restart that follows, if one does (`n`). -/
def saveFaults (s : State) (n : Nat) : State :=
  let failed := isSet s (F.CWY_STAT_FAILED true)
  let comp := if failed then [] else (s.flt.comp.recd.toList ++ s.flt.comp.queue).take 32
  let port := ((if failed then [] else s.flt.port.recd.toList) ++ s.flt.port.queue).take 32
  let hdr := leBytes 1 1 ++ leBytes 1 comp.length ++ leBytes 1 port.length ++ leBytes 1 0 ++ leBytes 4 (s.flt.reboots + n)
    ++ leBytes 8 s.timeP ++ List.replicate 48 0
  let body := hdr ++ (comp.map recBytes).flatten ++ List.replicate (2048 - 64 * comp.length) 0
    ++ (port.map recBytes).flatten ++ List.replicate (2048 - 64 * port.length) 0
  { s with mem := memWrite s.mem saveArea body,
           flt := { s.flt with port := { s.flt.port with queue := [] }, acked := [], restartDue := true } }

/-- A double fault (R489, R490): the DOUBLE_FAULT record enters the port-die queue and is not sent on, then safe state
and the save. `trigger` is the code of the triggering fault. -/
def doubleFault (s : State) (reason trigger : Nat) : State :=
  let held := s.flt.restarting
  let r := mkRec s true 0x0106 3 none 4 0xFFFF [reason, trigger]
  let s := fltEnqueue (fltCount s true) true r
  if held then holdCompute (saveOne s r) else saveFaults (safeState s) 1

/-- A device-class fault: FAULT_N low, then the path of its code (R493). -/
def raiseDevice (s : State) (port : Bool) (code block item : Nat) (detail : List Nat) : State :=
  let held := s.flt.restarting
  let s := raise s port code 3 none block item detail
  let s := { s with flt := { s.flt with faultN := true } }
  if held then s
  else if code = 0x0114 then s
  else if code = 0x0167 then setF { s with flt := { s.flt with trainFail := true } } F.HIF_DEVSTAT_BOOT 1
  else if code = 0x0107 then holdCompute (saveFaults (safeState s) 0)
  else saveFaults (safeState s) 1

end Sys2Proof.Machine
end

