-- ==== Sys2Proof/Machine/MapStore.lean ====
section
/-! DEFINITION. Map Store and memory upkeep (R129 to R136, R151 to R153): accesses through the nine ports, write-backs and
patrol scrub. -/

namespace Sys2Proof.Machine

/-- The port of a port number (R130); `crypt`: the stream DMA's crypto path. -/
def portOf (n : Nat) (crypt : Bool) : Port :=
  match n with
  | 0 => .west | 1 => .north | 2 => .drainW | 3 => .drainR | 4 => .dma crypt | 5 => .crop | 6 => .image | 7 => .system
  | _ => .maint

/-- Errors that a read finds: words of the row at `a`, and whether each is uncorrectable. They stay until rewritten (R152). A row whose
valid tag is clear has none to find (R150). -/
def markErrs (s : State) (a : Nat) (errs : List (Nat × Bool)) : State :=
  if tagClear s a then s else
  { s with mapu := { s.mapu with bad := errs.foldl (fun t x => if x.1 < 64 then
      tabPut t (a / 512 * 64 + x.1) (if x.2 then 2 else 1) 0 else t) s.mapu.bad } }

/-- The bytes of a read with the uncorrectable words as zero (R152, system port). -/
def zeroBad (s : State) (a : Nat) (bs : Bytes) : Bytes :=
  (List.range bs.length).map (fun i => if 2 ≤ tabGet s.mapu.bad ((a + i) / 8) 0 then 0 else nth bs i 0)

/-- An access that a port takes (R131): a naturally aligned read of up to a row on the system port, a whole row elsewhere;
any write reaches the system port, which drops what is not a whole row. -/
def accessForm (port a len : Nat) (write : Bool) : Bool :=
  decide (0 < len) && (decide (a % 512 + len ≤ 512) || (port == 7 && write))
    && (if port = 7 then write || ([1, 2, 4, 8, 16, 32, 64, 128, 256, 512].contains len && a % len == 0)
        else a % 512 == 0 && len == 512)

/-- MAP_STORE_ACCESS (R134): a bank performs a port's access to one row, with its ECC check. `errs` are the errors that the
read finds. -/
def mapStoreAccess (m : Master) (port : Nat) (crypt : Bool) (a len : Nat) (wr : Option Bytes) (errs : List (Nat × Bool))
    (s : State) : State :=
  if region a ≠ .mapStore ∨ 8 < port ∨ !accessForm port a len wr.isSome then s
  else match wr with
  | some bs => (busWrite s m (portOf port crypt) a (bs.take len ++ List.replicate (len - bs.length) 0)).1
  | none =>
    let s0 := match busGate s m (portOf port crypt) a len false with
      | .pass => markErrs s a errs
      | _ => s
    let r := busRead s0 m (portOf port crypt) a len
    { r.s with rd := if r.poison ∧ port = 7 then zeroBad r.s a r.data else r.data, rdErr := r.poison }

/-- MAP_STORE_ACCESS. -/
def execMapStoreAccess (m : Master) (port : Nat) (crypt : Bool) (a len : Nat) (wr : Option Bytes) (errs : List (Nat × Bool))
    (s : State) : Host.Outcome State Fault Refusal := .next (mapStoreAccess m port crypt a len wr errs s)

/-- ECC_WRITE_BACK (R151): a corrected row is written back, unless another write came in between. -/
def eccWriteBack (row : Nat) (s : State) : State :=
  if s.mapu.writeBack.contains row then
    { s with mapu := { s.mapu with
        writeBack := s.mapu.writeBack.filter (· != row),
        bad := s.mapu.bad.filter (fun x => !(decide (row * 64 ≤ x.1) && decide (x.1 < row * 64 + 64) && x.2 == 1)) } }
  else s

/-- ECC_WRITE_BACK of the row of 512 bytes at address 512 × `row`. -/
def execEccWriteBack (row : Nat) (s : State) : Host.Outcome State Fault Refusal := .next (eccWriteBack row s)

/-- The maintenance master (R509). -/
def maintMaster : Master := { code := 45 }

/-! ### Billets on memory (R154, R496 to R498) -/

/-- Address of the window of 8 rows that target `t` of billet class 1 or 2 is. -/
def billetWindow (c t : Nat) : Nat := if c = 1 then mapBase + 4096 * t else tileAddr (t / 96) + 4096 * (t % 96)

/-- The window is copied into the shadow buffer (R154): its rows are read with their ECC checks, and the copy holds the corrected words. -/
def shadowFill (s : State) (a : Nat) : State :=
  let s := (List.range 8).foldl (fun s i => (eccRead s maintMaster (a + 512 * i)).1) s
  { s with mapu := { s.mapu with shadow := some a,
                                 bad := s.mapu.bad.filter (fun x => !(decide (a / 8 ≤ x.1) && decide (x.1 < a / 8 + 512) && x.2 == 1)),
                                 writeBack := s.mapu.writeBack.filter (fun r => !(decide (a / 512 ≤ r) && decide (r < a / 512 + 8))) } }

/-- The shadow buffer is copied back (R154, R497): the window's rows hold what the buffer held. Where the test failed, `words` of the window's
512 fail again when they are read (R498). -/
def shadowBack (s : State) (words : List Nat) (corrected : Bool) : State :=
  match s.mapu.shadow with
  | none => s
  | some a =>
    let s := { s with mapu := { s.mapu with shadow := none } }
    words.foldl (fun s w => if w < 512 then markErrs s (a + w / 64 * 512) [(w % 64, !corrected)] else s) s

/-- Scrubs the rows at a list of addresses, each with the errors found there (R153). -/
def scrubRows (errs : List (Nat × Nat × Bool)) : List (Nat × Nat) → State → State
  | [], s => s
  | (i, a) :: r, s =>
    let s := markErrs s a ((errs.filter (fun x => x.1 == i)).map (·.2))
    scrubRows errs r (eccRead s maintMaster a).1

/-- MAP_PATROL_SCRUB (R153): one row of every powered bank; `errs` are the errors found (bank, word, uncorrectable). -/
def mapPatrol (errs : List (Nat × Nat × Bool)) (s : State) : State :=
  if getF s F.MAP_CTL_SCRUB_INTERVAL = 0 then s
  else
    let c := s.mapu.cursor
    let s := scrubRows errs (((List.range 32).filter (fun b => powered s (domQuarter (b / 8)))).map
      (fun b => (b, mapBase + b * 0x800000 + c * 512))) s
    { s with mapu := { s.mapu with cursor := (c + 1) % 16384 } }

/-- MAP_PATROL_SCRUB. -/
def execMapPatrolScrub (errs : List (Nat × Nat × Bool)) (s : State) : Host.Outcome State Fault Refusal := .next (mapPatrol errs s)

/-- A tile memory is powered (R27). -/
def tilePowered (s : State) (i : Nat) : Bool :=
  match tileGate s maintMaster (tileAddr i) i with
  | .pass => true
  | _ => false

/-- TILE_PATROL_SCRUB (R153): one row of every powered tile memory. -/
def tilePatrol (errs : List (Nat × Nat × Bool)) (s : State) : State :=
  if getF s F.CRD_CTL_SCRUB_INTERVAL = 0 then s
  else
    let c := s.crd.tileCursor
    let s := scrubRows errs (((List.range 24).filter (tilePowered s)).map (fun i => (i, tileAddr i + c * 512))) s
    { s with crd := { s.crd with tileCursor := (c + 1) % 768 } }

/-- TILE_PATROL_SCRUB. -/
def execTilePatrolScrub (errs : List (Nat × Nat × Bool)) (s : State) : Host.Outcome State Fault Refusal := .next (tilePatrol errs s)

end Sys2Proof.Machine
end

