-- ==== Sys2Proof/Machine/Arrive.lean ====
section
/-! DEFINITION. The arrival of a frame and of its lines at the ISP (R295, R318, R324). -/

namespace Sys2Proof.Machine

/-- The oldest started ISP item of a context that has taken no frame yet (R318). -/
def waitingIsp (s : State) (c : Nat) : Option Armed :=
  s.tick.armed.find? (fun a => a.item.engine == 0x07 && a.item.arg == c && a.started && !s.isp.taken.contains a.idx)

/-- An ISP item takes a frame (R318, R320). -/
def takeFrame (s : State) (a : Armed) (f : IspFrame) : State :=
  setFrame { s with isp := { s.isp with taken := s.isp.taken ++ [a.idx] } }
    { f with item := some (a.idx, a.item.id, s.tick.num), mask := a.item.preset % 16, deadline := a.deadline, auto := false }

/-- A frame that no item has taken and that is no auto frame. -/
def untaken (f : IspFrame) : Bool := !f.dead && f.item.isNone && !f.auto

/-- Earlier untaken frames of a context are discarded (R318). -/
def discardUntaken (s : State) (c : Nat) : State :=
  (s.isp.frames.filter (fun f => f.ctx == c && untaken f)).foldl (fun s f => bump (stopFrame s f 3) F.ISP_STAT_UNTAKEN 1) s

/-- An admitted or fed frame arrives (R318, R320): an item that waits takes it, or it is an auto frame, or it waits. A frame of a
context that the ISP has not enabled is released as it comes. -/
def frameArrive (s : State) (f : IspFrame) : State :=
  if !ispOn s f.ctx then { s with isp := { s.isp with frames := s.isp.frames ++ [{ f with dead := true }] } }
  else
    let r := (getI s f.ctx).record
    let s := discardUntaken s f.ctx
    let f := { f with lanes := List.replicate (iLanes r) {} }
    match waitingIsp s f.ctx with
    | some a => takeFrame { s with isp := { s.isp with frames := s.isp.frames ++ [f] } } a f
    | none =>
      let f := if iAuto r = 0 then f else { f with auto := true, mask := iAuto r, deadline := f.fsTime + 1000 * iAutoDl r }
      { s with isp := { s.isp with frames := s.isp.frames ++ [f] } }

/-- A line of a direct frame reaches the raw buffer (R294): its bytes, padded with zero to whole rows, from ring row `row` on. -/
def lineArrive (s : State) (c frame row : Nat) (data : Bytes) : State :=
  let r := camRec s c
  let rows := (data.length + 511) / 512
  let put := fun (m : Tab Byte) (i : Nat) =>
    memWrite m (512 * (cRbBase r + (row + i) % cRbRows r)) (((data.drop (512 * i)).take 512) ++ List.replicate (512 - ((data.drop (512 * i)).take 512).length) 0)
  let s := { s with isp := { s.isp with raw := (List.range rows).foldl put s.isp.raw } }
  match findFrame s c frame with
  | some f =>
    let f := { f with linesIn := f.linesIn + 1 }
    if f.dead then let q := releaseLines s f f.linesIn; setFrame q.1 q.2
    else setFrame s f
  | none => { s with cam := { s.cam with notices := s.cam.notices ++ [(c, rows)] } }

end Sys2Proof.Machine
end

