-- ==== Sys2Proof/Machine/Camera.lean ====
section
/-! DEFINITION. Camera intake and sensor control (R288 to R309): packets, admission, the intake FIFO, frame status words, write
sets, and triggers. -/

namespace Sys2Proof.Machine

/-! ### Counters and links -/

/-- Register block 1 of the port die raises an advisory fault (R309). -/
def camRaise (s : State) (code : Nat) (part : Option Nat) (item : Nat) (detail : List Nat) : State :=
  raise s true code 0 part camBlock item detail

/-- An error count of a port grows: CAM_LINK_ERROR, at most once per port per millisecond (R299). -/
def linkErr (s : State) (port : Nat) (x : Fld) : State :=
  let s := bump s x 1
  if (nth s.cam.linkErrAt port none).all (fun t => decide (t + 1000000 ≤ s.timeP)) then
    camRaise { s with cam := { s.cam with linkErrAt := s.cam.linkErrAt.set port (some s.timeP) } } 0x0203 none 0xFFFF [port]
  else s

/-- A port receives: it is enabled and its domain is powered (R27, R307). -/
def portOn (s : State) (port : Nat) : Bool := decide (port < 4) && powered s domCam && bitOf (getF s F.CAM_CTL_PORT_EN) port

/-! ### The intake FIFO (R295, R296) -/

/-- FREE of a context's ring (R295). -/
def camFree (s : State) (c : Nat) : Nat := cRbRows (camRec s c) - (getC s c).used

/-- The FIFO of a port. -/
def getFifo (s : State) (port : Nat) : List CamFifo := nth s.cam.fifo port []
/-- The state with a port's FIFO replaced. -/
def setFifo (s : State) (port : Nat) (l : List CamFifo) : State := { s with cam := { s.cam with fifo := s.cam.fifo.set port l } }

/-- Payload bytes that wait in a FIFO. -/
def fifoBytes (l : List CamFifo) : Nat := l.foldl (fun n x => match x with
  | .line _ _ _ d => n + d.length
  | .status _ _ => n) 0

/-- A line is sent: its rows leave FREE, and it arrives (R295). -/
def sendLine (s : State) (c frame row : Nat) (data : Bytes) : State :=
  let x := getC s c
  lineArrive (setC s c { x with used := x.used + (data.length + 511) / 512 }) c frame row data

/-- A frame status word is written and delivered; the frame's fault is raised and its intake item ends (R297, R299, R300): the item of
this tick, for indices name other items in the next. -/
def statusOut (s : State) (c : Nat) (f : CamFrame) : State :=
  let s := deliverStatus s c f
  let part := ctxPart s c
  let id := (f.item.map (·.2.1)).getD 0xFFFF
  let s := if bitOf f.flags 0 then camRaise s 0x0201 part id [c, f.frame, f.reason] else s
  let s := if bitOf f.flags 1 then camRaise s 0x0202 part id [c, f.frame] else s
  match f.item with
  | none => s
  | some i =>
    if i.2.2.1 ≠ s.tick.num then s
    else if bitOf f.flags 0 || bitOf f.flags 1 then cancelItem s i.1
    else { s with tick := { s.tick with reports := s.tick.reports ++ [i.1] } }

/-- What waits in a port's FIFO goes on, in order, as far as ring space allows. -/
def drainFifo : Nat → Nat → State → State
  | 0, _, s => s
  | n + 1, port, s =>
    match getFifo s port with
    | [] => s
    | .line c fr row d :: rest =>
      if camFree s c < (d.length + 511) / 512 then s else drainFifo n port (sendLine (setFifo s port rest) c fr row d)
    | .status c f :: rest => drainFifo n port (statusOut (setFifo s port rest) c f)

/-- The FIFO of a port after something has changed. -/
def runFifo (s : State) (port : Nat) : State := drainFifo (getFifo s port).length port s

/-- Every port's FIFO, after a stop at a deadline may have closed a frame (R300). -/
def runFifos (s : State) : State := (List.range 4).foldl runFifo s

/-! ### Frame starts (R294, R296, R298, R300, R304) -/

/-- The oldest started intake item of a context that has bound no frame (R300): the one that started first, and of two the lower index. -/
def waitingIntake (s : State) (c : Nat) : Option Armed :=
  (s.tick.armed.filter (fun a => a.item.engine == 0x09 && a.item.arg == c && a.started && !s.cam.bound.contains a.idx)).foldl
    (fun b a => match b with
      | none => some a
      | some x => if a.start < x.start then some a else some x) none

/-- The epoch believed in force for a frame: the last with a first frame no later (R304). -/
def epochOf (x : CamCtx) (frame : Nat) : Option Epoch := (x.epochs.filter (fun e => decide (e.from_ ≤ frame))).getLast?

/-- FLAGS that the epoch gives a frame: WS_SPLIT and WS_FAILED (R304). -/
def epochFlags (e : Option Epoch) (frame : Nat) : Nat :=
  match e with
  | none => 0
  | some e => (if frame < e.split then 0x80 else 0) + (if e.failed then 0x400 else 0)

/-- A frame start cuts the write set that runs for its context (R304): frames before its number plus D carry WS_SPLIT. -/
def cutSet (s : State) (c port frame : Nat) : State :=
  match nth s.cam.run port none with
  | some r =>
    if r.ctx = c ∧ r.hold = 0 then
      let s := { s with cam := { s.cam with run := s.cam.run.set port (some { r with hold := 1 }) } }
      let x := getC s c
      setC s c { x with epochs := x.epochs.map (fun e => if some e.num = r.epoch ∧ x.lastEpoch = e.num then
        { e with split := frame + cDelay (camRec s c) } else e) }
    else s
  | none => s

/-- Frame-start pulses of the trigger outputs (R306). -/
def frameTriggers (s : State) (c : Nat) : State :=
  { s with cam := { s.cam with trig := (List.range 16).map (fun n =>
      let t := nth s.cam.trig n {}
      if isSet s (F.TRG_CFG_EN n) ∧ getF s (F.TRG_CFG_MODE n) = 2 ∧ getF s (F.TRG_CFG_CTX n) = c then
        { t with sched := t.sched ++ [s.timeP + 8 * getF s (F.TRG_OFF_OFFSET n)] } else t) } }

/-- A frame of a context starts: an open frame is closed, and the new one is bound, admitted or dropped. -/
def frameStart (s : State) (c fn hdr : Nat) : State :=
  let r := camRec s c
  let s := closeFrame s c 0x100
  let x := getC s c
  let n := x.counter + 1
  let s := cutSet (setC s c { x with counter := n, interval := x.lastFs.map (fun t => s.timeP - t), lastFs := some s.timeP, blank := none }) c
    (cPort r) n
  let x := getC s c
  let it := waitingIntake s c
  let planned := bitOf (cFlags r) 0
  let reason := if planned && it.isNone then 3 else if camFree s c < cAdmit r then 1 else 0
  let e := epochOf x n
  let f : CamFrame := { frame := n, fn := fn, flags := (if planned then 0 else 0x200) + epochFlags e n,
                        epoch := (e.map (·.num)).getD 0, reason := reason, fsTime := s.timeP, hdr := hdr, rbFirst := x.next,
                        admitted := reason == 0, item := it.map (fun a => (a.idx, a.item.id, s.tick.num, a.deadline)) }
  let s := setC s c { x with cur := some f }
  let s := match it with
    | some a => { s with cam := { s.cam with bound := s.cam.bound ++ [a.idx] } }
    | none => s
  let s := frameTriggers s c
  if reason = 0 then
    frameArrive s { ctx := c, frame := n, dt := cDt r, part := (ctxPart s c).getD 0, fed := false, rbFirst := x.next,
                    rpl := cLineRows r, fsTime := s.timeP }
  else s

/-- CSI_FRAME_START: a frame start packet at time `t`; `hdr` is 0 for a good header, 1 for a corrected one, else it is not
correctable (R298). -/
def csiFrameStart (port vc fn hdr t : Nat) (s : State) : State :=
  let s := atPort t s
  if !portOn s port then s
  else if 1 < hdr then linkErr s port (F.CAM_PORTERR_HDR_BAD port)
  else match ctxsOf s port vc with
    | [] => linkErr s port (F.CAM_PORTERR_UNMAPPED port)
    | l => runFifo (l.foldl (fun s c => frameStart s c (fn % 65536) hdr) s) port

/-- CSI_FRAME_START. -/
def execCsiFrameStart (port vc fn hdr t : Nat) (s : State) : Host.Outcome State Fault Refusal :=
  .next (csiFrameStart port vc fn hdr t s)

/-! ### Long packets (R293, R296, R298, R305) -/

/-- The state with the open frame of a context replaced. -/
def setCur (s : State) (c : Nat) (f : CamFrame) : State := setC s c { getC s c with cur := some f }

/-- A checked register's value in an embedded-data line (R305). -/
def embHas (be : Bool) (d : Bytes) (k : CheckReg) : Bool :=
  let b := (d.drop k.off).take k.bytes
  b.length == k.bytes && leVal (if be then b.reverse else b) == k.value

/-- The first embedded-data line is compared with the epoch believed in force (R305). -/
def embCheck (s : State) (c : Nat) (d : Bytes) : State :=
  let x := getC s c
  match x.cur with
  | none => s
  | some f =>
    if f.emb ∨ 0 < f.lines then s
    else
      let f := { f with emb := true }
      match epochOf x f.frame with
      | none => setCur s c f
      | some e =>
        if e.check = false then setCur s c f
        else
          let be := bitOf (cFlags (camRec s c)) 5
          if e.vals.all (embHas be d) then setCur s c { f with flags := f.flags ||| 0x20, conf := e.num }
          else
            let old := e.vals.all (fun k => e.prevVals.any (fun o => o.dev == k.dev && o.reg == k.reg && embHas be d o))
            setCur s c { f with flags := f.flags ||| 0x40, conf := if old then e.prev else 0xFFFF }

/-- EMB_MISSING at the frame's first pixel line (R305). -/
def embMissing (x : CamCtx) (r : Bytes) (f : CamFrame) : Bool :=
  f.lines == 0 && !f.emb && bitOf (cFlags r) 4 && ((epochOf x f.frame).map (·.check)).getD false

/-- A pixel line of the open frame of a context. -/
def pixelLine (s : State) (c : Nat) (d : Bytes) (crcOk : Bool) : State :=
  let r := camRec s c
  let x := getC s c
  match x.cur with
  | none => s
  | some f =>
    let f := if embMissing x r f then { f with flags := f.flags ||| 0x800 } else f
    if f.reason ≠ 0 then setCur s c f
    else if cLines r ≤ f.lines then setCur s c { f with flags := f.flags ||| 0x10 }
    else
      let w := cWidth r
      let data := d.take w ++ List.replicate (w - d.length) 0
      let off := d.length != w
      let g := { f with lines := f.lines + 1, crc := f.crc + (if crcOk then 0 else 1), len := f.len + (if off then 1 else 0),
                        flags := f.flags ||| (if crcOk then 0 else 4) ||| (if off then 0x10 else 0) }
      let row := (f.rbFirst + f.lines * cLineRows r) % cRbRows r
      let q := getFifo s (cPort r)
      if q.isEmpty ∧ cLineRows r ≤ camFree s c then sendLine (setCur s c g) c f.frame row data
      else if fifoBytes q + w ≤ 65536 then setFifo (setCur s c g) (cPort r) (q ++ [.line c f.frame row data])
      else setCur s c { f with reason := 2 }

/-- CSI_LONG_PACKET: a long packet with its payload, whether its CRC is right, and its header as for a frame start. A
line start or line end (2, 3) is ignored, and a generic short packet is a packet of its data type without payload (R288). -/
def csiLongPacket (port vc dt : Nat) (d : Bytes) (crcOk : Bool) (hdr : Nat) (s : State) : State :=
  if !portOn s port then s
  else if 1 < hdr then linkErr s port (F.CAM_PORTERR_HDR_BAD port)
  else if dt = 2 ∨ dt = 3 then s
  else
    let emb := dt == 0x12
    match (ctxsOf s port vc).find? (fun c => if emb then bitOf (cFlags (camRec s c)) 4 else cDt (camRec s c) == dt) with
    | none => linkErr s port (F.CAM_PORTERR_UNMAPPED port)
    | some c =>
      let s := match (getC s c).cur with
        | some f => setCur s c { f with hdr := f.hdr + hdr }
        | none => s
      if emb then embCheck s c d else pixelLine s c d crcOk

/-- CSI_LONG_PACKET. -/
def execCsiLongPacket (port vc dt : Nat) (d : Bytes) (crcOk : Bool) (hdr : Nat) (s : State) : Host.Outcome State Fault Refusal :=
  .next (csiLongPacket port vc dt d crcOk hdr s)

/-! ### Frame ends and errors -/

/-- A frame end acts on one context: its open frame is closed, and its vertical blanking begins (R297, R303). -/
def frameEnd (s : State) (c hdr : Nat) : State :=
  let x := getC s c
  match x.cur with
  | none => s
  | some f =>
    let s := closeFrame (setCur s c { f with hdr := f.hdr + hdr }) c 0
    setC s c { getC s c with blank := some (f.frame, s.timeP, false) }

/-- CSI_FRAME_END at time `t`. -/
def csiFrameEnd (port vc hdr t : Nat) (s : State) : State :=
  let s := atPort t s
  if !portOn s port then s
  else if 1 < hdr then linkErr s port (F.CAM_PORTERR_HDR_BAD port)
  else
    let l := ctxsOf s port vc
    if l.isEmpty then linkErr s port (F.CAM_PORTERR_UNMAPPED port)
    else if l.all (fun c => (getC s c).cur.isNone) then linkErr s port (F.CAM_PORTERR_ORPHAN_FE port)
    else runFifo (l.foldl (fun s c => frameEnd s c hdr) s) port

/-- CSI_FRAME_END. -/
def execCsiFrameEnd (port vc hdr t : Nat) (s : State) : Host.Outcome State Fault Refusal := .next (csiFrameEnd port vc hdr t s)

/-- CSI_PHY_ERROR (R298): the packet is lost, and counted. -/
def execCsiPhyError (port : Nat) (s : State) : Host.Outcome State Fault Refusal :=
  .next (if portOn s port then linkErr s port (F.CAM_PORTERR_PHY port) else s)

/-- CSI_SYNC_CHANGE (R307): LINK_UP of a port, which receives only while it is enabled. -/
def csiSyncChange (port : Nat) (up : Bool) (s : State) : State :=
  let v := getF s F.CAM_STAT_LINK_UP
  if 4 ≤ port ∨ (up ∧ portOn s port = false) then s else setF s F.CAM_STAT_LINK_UP (if up then setBit v port else clearBit v port)

/-- CSI_SYNC_CHANGE. -/
def execCsiSyncChange (port : Nat) (up : Bool) (s : State) : Host.Outcome State Fault Refusal := .next (csiSyncChange port up s)

/-- RAW_RELEASE_NOTICE (R295): the oldest release notice arrives; FREE rises, and waiting lines proceed. -/
def releaseNotice (s : State) : State :=
  match s.cam.notices with
  | [] => s
  | (c, n) :: rest =>
    let s := { s with cam := { s.cam with notices := rest } }
    let x := getC s c
    runFifo (setC s c { x with used := x.used - n }) (cPort (camRec s c))

/-- RAW_RELEASE_NOTICE. -/
def execRawReleaseNotice (s : State) : Host.Outcome State Fault Refusal := .next (releaseNotice s)

/-! ### CAM_CTL (R292, R307, R308) -/

/-- LANES and RATE of a port's configuration are supported (R288, R308). -/
def portCfgOk (s : State) (n : Nat) : Bool :=
  let c := getF s (F.CAM_PORT_CFG_PHY n) == 1
  let l := getF s (F.CAM_PORT_CFG_LANES n)
  let r := 2 * getF s (F.CAM_PORT_CFG_RATE n)
  decide (1 ≤ l) && decide (l ≤ if c then 3 else 4) && (if c then decide (500 ≤ r) && decide (r ≤ 6000) else decide (80 ≤ r) && decide (r ≤ 4500))

/-- A pixel data type of R288. -/
def pixelDt (d : Nat) : Bool := [0x2A, 0x2B, 0x2C, 0x2D, 0x2E, 0x1E, 0x24].contains d || (decide (0x30 ≤ d) && decide (d ≤ 0x37))

/-- The enabled contexts. -/
def enabledCtxs (s : State) : List Nat := (List.range 16).filter (ctxOn s)

/-- An enable of a context is refused (R292). -/
def ctxRefused (s : State) (c : Nat) : Bool :=
  let r := camRec s c
  let others := (enabledCtxs s).filter (· != c)
  cDelay r == 0 || decide (0x40 ≤ cFlags r) || decide (0x40 ≤ leAt r 1 1) || leAt r 28 4 != 0 || !pixelDt (cDt r)
    || decide (8192 < cRbBase r + cRbRows r)
    || others.any (fun o => let q := camRec s o
        decide (cRbBase q < cRbBase r + cRbRows r) && decide (cRbBase r < cRbBase q + cRbRows q))
    || decide (cRbRows r < cAdmit r) || decide (cRbRows r < cLineRows r)
    || others.any (fun o => let q := camRec s o
        cPort q == cPort r && cVc q == cVc r && cDt q == cDt r)
    || decide (8 ≤ (others.filter (fun o => cPort (camRec s o) == cPort r)).length)
    || !bitOf (getF s F.CAM_CTL_PORT_EN) (cPort r)

/-- Port `n` is enabled, or refused, or its open frames are closed as TRUNCATED. -/
def portEn (v : Nat) (s : State) (n : Nat) : State :=
  let cur := getF s F.CAM_CTL_PORT_EN
  if bitOf v n = bitOf cur n then s
  else if bitOf v n then
    (if portCfgOk s n then setF s F.CAM_CTL_PORT_EN (setBit cur n) else setF s F.CAM_STAT_CTX_REFUSED 1)
  else ((List.range 16).filter (fun c => cPort (camRec s c) == n)).foldl (fun s c => closeFrame s c 2)
    (setF (setF s F.CAM_CTL_PORT_EN (clearBit cur n)) F.CAM_STAT_LINK_UP (clearBit (getF s F.CAM_STAT_LINK_UP) n))

/-- Context `c` is disabled: its open frame is closed as TRUNCATED, and its posted sets are discarded. -/
def ctxOff (v : Nat) (s : State) (c : Nat) : State :=
  let cur := getF s F.CAM_CTL_CTX_EN
  if bitOf v c ∨ bitOf cur c = false then s
  else
    let s := closeFrame (setF s F.CAM_CTL_CTX_EN (clearBit cur c)) c 2
    let s := setC s c { getC s c with posted := [], blank := none, lastFs := none, interval := none }
    { s with cam := { s.cam with run := s.cam.run.map (fun r => if r.any (fun r => r.ctx == c && r.hold == 2) then none else r) } }

/-- Context `c` is enabled, or refused (R292): its frame counter restarts, and the sets issued so far are in force. -/
def ctxUp (v : Nat) (s : State) (c : Nat) : State :=
  let cur := getF s F.CAM_CTL_CTX_EN
  if bitOf v c = false ∨ bitOf cur c then s
  else if ctxRefused s c then setF s F.CAM_STAT_CTX_REFUSED 1
  else
    let x := getC s c
    setC (setF s F.CAM_CTL_CTX_EN (setBit cur c)) c
      { x with counter := 0, next := 0, cur := none, epochs := x.epochs.map (fun e => { e with from_ := 0, split := 0 }) }

/-- CAM_CTL is written: ports, then contexts that are disabled, then contexts that are enabled. -/
def camCtlWrite (m : Master) (v : Nat) (s : State) : State :=
  gated s true camBlock 0x10 m v (fun s =>
    let s := (List.range 4).foldl (portEn (bitsOf v 0 4)) s
    let s := (List.range 16).foldl (ctxOff (bitsOf v 16 16)) s
    let s := (List.range 16).foldl (ctxUp (bitsOf v 16 16)) s
    runFifos s)

/-- CAM_CTL_WRITE. -/
def execCamCtlWrite (m : Master) (v : BitVec 32) (s : State) : Host.Outcome State Fault Refusal := .next (camCtlWrite m v.toNat s)

/-- CAM_WSCMD_POST (R302): with GO, a set is posted. -/
def camWscmdPost (m : Master) (v : Nat) (s : State) : State :=
  gated s true camBlock 0x50 m v (fun s =>
    if bitOf v 31 then postSet s (bitsOf v 0 4) (bitsOf v 4 7) (bitsOf v 11 6) (bitOf v 17) else s)

/-- CAM_WSCMD_POST. -/
def execCamWscmdPost (m : Master) (v : BitVec 32) (s : State) : Host.Outcome State Fault Refusal := .next (camWscmdPost m v.toNat s)

/-! ### Write sets (R301 to R304) -/

/-- Nanoseconds of a bit on a port's bus; nothing when the bus is off (R301, R308). -/
def bitTime (s : State) (port : Nat) : Option Nat :=
  match getF s (F.CAM_PORT_CFG_BUS_MODE port) with
  | 1 => some 10000 | 2 => some 2500 | 3 => some 1000 | 4 => some 80 | _ => none

/-- The nominal duration of a set (R303). -/
def setNs (s : State) (port bit : Nat) (w : WsPost) : Nat :=
  (List.range w.count).foldl (fun n i =>
    let e := wsEntry s port (w.first + i)
    n + (2 + 9 * (1 + wsAddrBytes e + wsBytes e)) * bit + 2000) 0

/-- A context of a port whose posted set is next, in order of frame end and then of context (R303); sets without an epoch of
contexts that are not enabled come after. -/
def nextSet (s : State) (port : Nat) : Option Nat :=
  let mine := (List.range 16).filter (fun c => cPort (camRec s c) == port && !(getC s c).posted.isEmpty)
  let key := fun (c : Nat) => ((getC s c).blank.map (fun b => b.2.1)).getD 0
  let inBlank := mine.filter (fun c => ctxOn s c && ((getC s c).blank.map (fun b => !b.2.2)).getD false)
  match inBlank.foldl (fun b c => match b with
      | none => some c
      | some d => if key c < key d then some c else some d) (none : Option Nat) with
  | some c => some c
  | none => mine.find? (fun c => !ctxOn s c && ((getC s c).posted.head?.map (·.noEpoch)).getD false)

/-- The blanking of a context has had its set, or its deferral. -/
def markBlank (x : CamCtx) : CamCtx := { x with blank := x.blank.map (fun b => (b.1, b.2.1, true)) }

/-- The set may start in the blanking (R303): it ends by the predicted frame start less the guard. -/
def setFits (s : State) (c ns : Nat) : Bool :=
  let x := getC s c
  match x.lastFs, x.interval with
  | some t, some i => decide (s.timeP + ns + 1000 * leAt (camRec s c) 14 2 ≤ t + i)
  | _, _ => false

/-- The sequencer starts a context's next set (R304): with the next epoch, in force from frame n + D. -/
def beginSet (s : State) (port c : Nat) (w : WsPost) : State :=
  let x := getC s c
  let num := x.lastEpoch % 0xFFFE + 1
  let n := (x.blank.map (·.1)).getD x.counter + cDelay (camRec s c)
  let vals := (x.epochs.getLast?.map (·.vals)).getD []
  let y := { markBlank x with posted := x.posted.drop 1 }
  let y := if w.noEpoch then y else
    let e : Epoch := { num := num, prev := x.lastEpoch, from_ := n, split := n, vals := vals, prevVals := vals }
    { y with lastEpoch := num, epochs := (y.epochs ++ [e]).drop (y.epochs.length - 7) }
  let s := setC s c y
  { s with cam := { s.cam with run := s.cam.run.set port (some { ctx := c, set := w, epoch := if w.noEpoch then none else some num }) } }

/-- WRITE_SET_START at time `t`: the rest of a cut set goes on in its context's blanking; else the next set starts, or is
deferred. -/
def writeSetStart (port t : Nat) (s : State) : State :=
  let s := atPort t s
  if 4 ≤ port ∨ !powered s domCam then s
  else match bitTime s port, nth s.cam.run port none with
    | none, _ => s
    | some _, some r =>
      if r.hold ≠ 0 ∧ ((getC s r.ctx).blank.map (fun b => decide (b.2.1 + 1000 * leAt (camRec s r.ctx) 26 2 ≤ s.timeP))).getD false then
        setC { s with cam := { s.cam with run := s.cam.run.set port (some { r with hold := 0 }) } } r.ctx (markBlank (getC s r.ctx))
      else s
    | some bit, none =>
      match nextSet s port with
      | none => s
      | some c =>
        match (getC s c).posted with
        | [] => s
        | w :: _ =>
          if !ctxOn s c then beginSet s port c w
          else if s.timeP < ((getC s c).blank.map (fun b => b.2.1)).getD 0 + 1000 * leAt (camRec s c) 26 2 then s
          else if setFits s c (setNs s port bit w) then beginSet s port c w
          else setC s c (markBlank (getC s c))

/-- WRITE_SET_START. -/
def execWriteSetStart (port t : Nat) (s : State) : Host.Outcome State Fault Refusal := .next (writeSetStart port t s)

/-- The checked registers after an entry has been written (R305): up to sixteen per context. -/
def trackReg (l : List CheckReg) (k : CheckReg) (check : Bool) : List CheckReg :=
  if l.any (fun o => o.dev == k.dev && o.reg == k.reg) then
    l.map (fun o => if o.dev = k.dev ∧ o.reg = k.reg then { o with value := k.value, bytes := k.bytes, off := if check then k.off else o.off } else o)
  else if check ∧ l.length < 16 then l ++ [k] else l

/-- An entry has been written or read (R302, R305). -/
def entryDone (s : State) (port : Nat) (r : WsRun) (rd : Nat) : State :=
  let i := r.set.first + r.done
  let e := wsEntry s port i
  let mask := 256 ^ wsBytes e
  if wsRead e then setWsValue s port i (rd % mask)
  else
    let dev := if leAt e 1 1 = 0 then leAt (camRec s r.ctx) 3 1 else leAt e 1 1
    let k : CheckReg := { dev := dev, reg := leAt e 2 2, off := leAt e 8 2, bytes := wsBytes e, value := wsValue e % mask }
    let x := getC s r.ctx
    setC s r.ctx { x with epochs := x.epochs.map (fun y => if some y.num = r.epoch ∧ x.lastEpoch = y.num then
      { y with check := y.check || wsCheck e, vals := trackReg y.vals k (wsCheck e) } else y) }

/-- WRITE_SET_ENTRY: the bus transaction of the entry in progress ends, acknowledged or not, with the value read (R304). -/
def writeSetEntry (port : Nat) (ack : Bool) (rd : Nat) (s : State) : State :=
  match nth s.cam.run port none with
  | none => s
  | some r =>
    if r.hold = 2 then s
    else
      let put := fun (s : State) (x : Option WsRun) => { s with cam := { s.cam with run := s.cam.run.set port x } }
      let cut := if r.hold = 1 then 2 else 0
      if ack then
        let s := entryDone s port r rd
        put s (if r.set.count ≤ r.done + 1 then none else some { r with done := r.done + 1, tries := 0, hold := cut })
      else if r.tries < 2 then put s (some { r with tries := r.tries + 1, hold := cut })
      else
        let x := getC s r.ctx
        let s := setC (put s none) r.ctx { x with epochs := x.epochs.map (fun y => if some y.num = r.epoch ∧ x.lastEpoch = y.num then
          { y with failed := true } else y) }
        camRaise (setF s (F.CAM_WSSTAT_BUS_FAIL r.ctx) 1) 0x0204 (ctxPart s r.ctx) 0xFFFF [r.ctx]

/-- WRITE_SET_ENTRY. -/
def execWriteSetEntry (port : Nat) (ack : Bool) (rd : Nat) (s : State) : Host.Outcome State Fault Refusal :=
  .next (writeSetEntry port ack rd s)

/-- I3C_IBI (R301): an in-band interrupt is latched with its address. -/
def execI3cIbi (port addr : Nat) (s : State) : Host.Outcome State Fault Refusal :=
  .next (
    if port < 4 ∧ getF s (F.CAM_PORT_CFG_BUS_MODE port) = 4 then
      setF (setF s (F.CAM_PORT_STAT_IBI port) 1) (F.CAM_PORT_STAT_IBI_ADDR port) addr
    else s)

/-! ### Triggers (R306) -/

/-- The state with a trigger output replaced. -/
def setTrig (s : State) (n : Nat) (x : Trig) : State := { s with cam := { s.cam with trig := s.cam.trig.set n x } }

/-- TRIGGER_PULSE at time `t`: an output's next pulse begins, or extends the one it drives. -/
def triggerPulse (n t : Nat) (s : State) : State :=
  let s := atPort t s
  let x := nth s.cam.trig n {}
  match x.sched with
  | [] => s
  | a :: rest =>
    if isSet s (F.TRG_CFG_EN n) ∧ a ≤ s.timeP then
      setTrig s n { sched := rest, endAt := some (a + 1000 * getF s (F.TRG_CFG_WIDTH n)) }
    else s

/-- TRIGGER_PULSE. -/
def execTriggerPulse (n t : Nat) (s : State) : Host.Outcome State Fault Refusal := .next (triggerPulse n t s)

/-- TRIGGER_PULSE_END at time `t`: WIDTH has passed, and no later pulse extends it. -/
def triggerPulseEnd (n t : Nat) (s : State) : State :=
  let s := atPort t s
  let x := nth s.cam.trig n {}
  if x.endAt.any (fun e => decide (e ≤ s.timeP)) then setTrig s n { x with endAt := none } else s

/-- TRIGGER_PULSE_END. -/
def execTriggerPulseEnd (n t : Nat) (s : State) : Host.Outcome State Fault Refusal := .next (triggerPulseEnd n t s)

end Sys2Proof.Machine
end

