-- ==== Sys2Proof/Machine/Hexarel.lean ====
section
/-! DEFINITION. What is common to the twelve Hexarel engines (R157 to R196): the fields of a control word, the checks at
issue, scalar operations, comparators, generators, loops, branches, cairns, starts, and the common classes. -/

namespace Sys2Proof.Machine

/-! ### The control word (R160) -/

/-- Bits `lo` to `lo + n - 1` of a control word. -/
def wF (w : BitVec 256) (lo n : Nat) : Nat := bitsOf w.toNat lo n
/-- Payload bits (R197): payload bit n is word bit 136 + n. -/
def pF (w : BitVec 256) (lo n : Nat) : Nat := wF w (136 + lo) n
/-- LEVEL. -/
def wLevel (w : BitVec 256) : Nat := wF w 0 4
/-- CLASS. -/
def wClass (w : BitVec 256) : Nat := wF w 4 4
/-- REPEAT. -/
def wRepeat (w : BitVec 256) : Nat := wF w 8 12
/-- AGC of generator `k`. -/
def wAgc (w : BitVec 256) (k : Nat) : Nat := wF w (20 + 2 * k) 2
/-- LOOP.OP. -/
def wLoopOp (w : BitVec 256) : Nat := wF w 28 2
/-- LOOP.IDX. -/
def wLoopIdx (w : BitVec 256) : Nat := wF w 30 2
/-- LOOP.SRC. -/
def wLoopSrc (w : BitVec 256) : Bool := bitOf w.toNat 32
/-- LOOP.COUNT. -/
def wLoopCount (w : BitVec 256) : Nat := wF w 33 12
/-- LOOP.END. -/
def wLoopEnd (w : BitVec 256) : Nat := wF w 45 14 % 16384
/-- BR.OP. -/
def wBrOp (w : BitVec 256) : Nat := wF w 59 3
/-- BR.K. -/
def wBrK (w : BitVec 256) : Nat := wF w 62 2
/-- BR.TARGET. -/
def wBrTarget (w : BitVec 256) : Nat := wF w 64 14
/-- CAIRN.WAIT. -/
def wWait (w : BitVec 256) : Bool := bitOf w.toNat 78
/-- CAIRN.EMIT. -/
def wEmit (w : BitVec 256) : Bool := bitOf w.toNat 79
/-- CAIRN.WQ. -/
def wWq (w : BitVec 256) : Nat := wF w 80 13
/-- CAIRN.EQ. -/
def wEq (w : BitVec 256) : Nat := wF w 93 13
/-- SC.OP. -/
def wScOp (w : BitVec 256) : Nat := wF w 106 5
/-- SC.DST. -/
def wScDst (w : BitVec 256) : Nat := wF w 111 5
/-- SC.A. -/
def wScA (w : BitVec 256) : Nat := wF w 116 5
/-- SC.B, 15 bits with the selector of bit 14 (R160). -/
def wScB (w : BitVec 256) : Nat := wF w 121 15

/-! ### Registers (R165) -/

/-- A register index that an operation may read. -/
def regReadable (i : Nat) : Bool := decide (i < 30)
/-- A register index that an operation may write. -/
def regWritable (i : Nat) : Bool := decide (i < 24)

/-- The value a register index reads (R165). -/
def regRead (s : State) (g : Engine) (i : Nat) : BitVec 32 :=
  if i < 16 then nth g.sregs i 0
  else if i < 24 then nth g.cregs (i - 16) 0
  else if i < 28 then BitVec.ofNat 32 (nth g.loops (i - 24) {}).counter
  else if i = 28 then BitVec.ofNat 32 s.tick.num
  else 0

/-- A write of a register index (R165). -/
def regWrite (g : Engine) (i : Nat) (v : BitVec 32) : Engine :=
  if i < 16 then { g with sregs := g.sregs.set i v }
  else if i < 24 then { g with cregs := g.cregs.set (i - 16) v }
  else g

/-- Operand B of a scalar operation (R160). -/
def scB (s : State) (g : Engine) (w : BitVec 256) : BitVec 32 :=
  if bitOf (wScB w) 14 then regRead s g (wScB w % 32) else BitVec.ofInt 32 (sext 14 (wScB w))

/-- Scalar operation codes that are defined (R166). -/
def scDefined (op : Nat) : Bool := decide (op ≤ 0x0E) || (decide (0x10 ≤ op) && decide (op ≤ 0x15))
/-- Scalar operations of format level 2 (R166, R192). -/
def scLevel2 (op : Nat) : Bool := decide (0x10 ≤ op)

/-- The result of a scalar operation on a and b (R166); `ctr`: the destination is a counter (R165). -/
def scResult (op : Nat) (ctr : Bool) (a b : BitVec 32) : BitVec 32 :=
  let sat := fun (v : Int) => BitVec.ofInt 32 (clampI v 0 4294967295)
  match op with
  | 0x01 => b
  | 0x02 => if ctr then sat ((a.toNat : Int) + b.toInt) else a + b
  | 0x03 => if ctr then sat ((a.toNat : Int) - b.toInt) else a - b
  | 0x04 => a * b
  | 0x05 => a &&& b
  | 0x06 => a ||| b
  | 0x07 => a ^^^ b
  | 0x08 => a <<< (b.toNat % 32)
  | 0x09 => a >>> (b.toNat % 32)
  | 0x0A => a.sshiftRight (b.toNat % 32)
  | 0x0B => if a.toInt ≤ b.toInt then a else b
  | 0x0C => if a.toInt ≤ b.toInt then b else a
  | 0x0D => BitVec.ofInt 32 (sat32 (a.toInt + b.toInt))
  | 0x10 => BitVec.ofNat 32 (fAdd a.toNat b.toNat)
  | 0x11 => BitVec.ofNat 32 (fMul a.toNat b.toNat)
  | 0x12 => BitVec.ofNat 32 (fMin a.toNat b.toNat)
  | 0x13 => BitVec.ofNat 32 (fMax a.toNat b.toNat)
  | 0x14 => BitVec.ofNat 32 (cvtF a.toInt)
  | 0x15 => BitVec.ofInt 32 (cvtI a.toNat)
  | _ => 0

/-- The scalar operation of a word on an engine, its operands read from `g0`, the engine before the word (R166, R171). -/
def scalarOp (s : State) (g0 g : Engine) (w : BitVec 256) : Engine :=
  let op := wScOp w
  if op = 0 ∨ op = 0x0E then g
  else regWrite g (wScDst w) (scResult op (decide (16 ≤ wScDst w)) (regRead s g0 (wScA w)) (scB s g0 w))

/-! ### Comparators (R167) -/

/-- Comparator relations that are defined. -/
def relDefined (r : Nat) : Bool := decide (r ≤ 6) || (decide (8 ≤ r) && decide (r ≤ 10))

/-- A relation between two register values (R167). -/
def relHolds (r : Nat) (a b : BitVec 32) : Bool :=
  match r with
  | 0 => a == b
  | 1 => a != b
  | 2 => decide (a.toInt < b.toInt)
  | 3 => decide (b.toInt ≤ a.toInt)
  | 4 => decide (a.toNat < b.toNat)
  | 5 => decide (b.toNat ≤ a.toNat)
  | 6 => (a &&& b) != 0
  | 8 => !isNaN32 a.toNat && !isNaN32 b.toNat && decide (fNum a.toNat < fNum b.toNat)
  | 9 => !isNaN32 a.toNat && !isNaN32 b.toNat && decide (fNum b.toNat ≤ fNum a.toNat)
  | 10 => !isNaN32 a.toNat && !isNaN32 b.toNat && decide (fNum a.toNat = fNum b.toNat)
  | _ => false

/-- A comparator as a branch tests it: false while disabled (R167). -/
def cmpTrue (s : State) (g : Engine) (k : Nat) : Bool :=
  let c := nth g.cmps k {}
  c.en && relHolds c.rel (regRead s g c.srcA)
    (if c.bkind then regRead s g (c.b % 32) else BitVec.ofInt 32 (sext 15 c.b))

/-! ### Loops and branches (R172 to R176) -/

/-- The active loop that ends at `a` and began last. -/
def innerLoop (ls : List Loop) (a : Nat) : Option Nat :=
  ((List.range 4).filter (fun i => (nth ls i {}).counter != 0 && (nth ls i {}).last == a)).foldl
    (fun b i => match b with
      | none => some i
      | some j => if (nth ls j {}).first < (nth ls i {}).first then some i else some j) none

/-- Loop ends at address `a` (R175), innermost first: the loops and the next address. -/
def loopEnds : Nat → List Loop → Nat → List Loop × Nat
  | 0, ls, a => (ls, a + 1)
  | n + 1, ls, a =>
    match innerLoop ls a with
    | none => (ls, a + 1)
    | some i =>
      let l := nth ls i {}
      let ls' := ls.set i { l with counter := l.counter - 1 }
      if 1 < l.counter then (ls', l.first) else loopEnds n ls' a

/-- A taken branch deactivates every active loop whose body does not contain its target (R175). -/
def loopsAtTarget (ls : List Loop) (t : Nat) : List Loop :=
  ls.map (fun l => if l.first ≤ t ∧ t ≤ l.last then l else { l with counter := 0 })

/-- A BEGIN word breaks the rules of R176. -/
def beginBad (g : Engine) (w : BitVec 256) : Bool :=
  let act := g.loops.filter (fun l => l.counter != 0)
  let b := g.pc
  let e := wLoopEnd w
  (nth g.loops (wLoopIdx w) {}).counter != 0 || decide (e ≤ b)
    || act.any (fun l => !(decide (l.first ≤ b + 1) && decide (e ≤ l.last))) || act.any (fun l => l.last == b)

/-- The loops and the next address after a word (R172, R174, R175): `g0` is the engine before the word, `g` after its
first cycle, whose registers a BEGIN's count and a comparator read (R171 step 6). -/
def nextPc (s : State) (g0 g : Engine) (w : BitVec 256) : List Loop × Nat :=
  if wLoopOp w = 1 then
    let n := if wLoopSrc w then (regRead s g (wLoopCount w % 32)).toNat else wLoopCount w
    if n = 0 then loopEnds 4 g.loops (wLoopEnd w)
    else (g.loops.set (wLoopIdx w) { counter := n, first := g0.pc + 1, last := wLoopEnd w }, g0.pc + 1)
  else if wLoopOp w = 2 then
    let l := nth g.loops (wLoopIdx w) {}
    loopEnds 4 (g.loops.set (wLoopIdx w) { l with counter := min l.counter 1 }) g0.pc
  else if wBrOp w = 1 ∨ (wBrOp w = 2 ∧ cmpTrue s g (wBrK w)) ∨ (wBrOp w = 3 ∧ cmpTrue s g (wBrK w) = false) then
    (loopsAtTarget g.loops (wBrTarget w), wBrTarget w)
  else loopEnds 4 g.loops g0.pc

/-! ### Checks at issue (R162, R171, R194) -/

/-- The word's level is accepted (R192). -/
def levelOk (s : State) (w : BitVec 256) : Bool := decide (1 ≤ wLevel w) && decide (wLevel w ≤ levelMax s)

/-- A class an engine lists (R161, R200). -/
def classKnown (e c : Nat) : Bool :=
  decide (c ≤ 5) || (c == 6 && !(decide (2 ≤ e) && decide (e ≤ 5)))
    || (e == 0 && decide (8 ≤ c) && decide (c ≤ 0xD)) || (e == 1 && decide (8 ≤ c) && decide (c ≤ 0xB)) || c == 8

/-- Register indices the scalar operation of a word misuses (R165, R166). -/
def scRegBad (w : BitVec 256) : Bool :=
  let op := wScOp w
  let bBad := bitOf (wScB w) 14 && !regReadable (wScB w % 32)
  if op = 0 then false
  else if op = 1 then !regWritable (wScDst w) || bBad
  else if op = 0x14 ∨ op = 0x15 then !regWritable (wScDst w) || !regReadable (wScA w)
  else if op = 0x0E then decide (3 < wScDst w) || !regReadable (wScA w) || bBad
  else !regWritable (wScDst w) || !regReadable (wScA w) || bBad

/-- The reasons of R194 that the common fields of a word give on an engine. -/
def commonReasons (s : State) (e : Nat) (w : BitVec 256) : List Nat :=
  (if !classKnown e (wClass w) || (List.range 4).any (fun k => wAgc w k == 3) || wLoopOp w == 3 || decide (4 ≤ wBrOp w)
      || !scDefined (wScOp w) || (scLevel2 (wScOp w) && decide (wLevel w < 2)) then [1] else [])
  ++ (if scRegBad w || (wLoopOp w == 1 && wLoopSrc w && !regReadable (wLoopCount w % 32)) then [3] else [])
  ++ (if (wBrOp w != 0 && decide (storeWords e ≤ wBrTarget w)) || (wLoopOp w == 1 && decide (storeWords e ≤ wLoopEnd w))
      then [4] else [])
  ++ (if wBrOp w != 0 && wLoopOp w != 0 then [5] else [])
  ++ (if wWait w && !(qBound (getQ s (wWq w)) && (getQ s (wWq w)).consumer == e) then [7] else [])

/-- The lowest-numbered reason (R194). -/
def lowest (l : List Nat) : Option Nat := l.foldl (fun b x => match b with
  | none => some x
  | some y => some (min x y)) none

/-! ### Issue (R171) -/

/-- What a word's payload does at issue: it acts, it stops its engine with a fault, it holds, or it stays in
force without holding (an XFER word that has descriptors to issue, R215). -/
inductive Eff where
  | act (s : State)
  | stopped (s : State)
  | hold (s : State)
  | stay (s : State)
  deriving DecidableEq, Repr

/-- The generators of an engine after a word of `n` cycles, and AGB's new pointer from the next word on (R164, R166). -/
def stepAgs (s : State) (g0 g : Engine) (w : BitVec 256) (n : Nat) : Engine :=
  let ags := (List.range 4).map (fun k => (agWord (nth g.ags k {}) (wAgc w k) n).2)
  let ags := if wScOp w = 0x0E then
      let k := wScDst w
      ags.set k { nth ags k {} with p := (regRead s g0 (wScA w) + scB s g0 w).toInt, i := 0 }
    else ags
  { g with ags := ags }

/-- The end of a word that has acted (R171 steps 3 to 6): the scalar operation, the generators, the emitted cairn, and
the next address; a program counter past the last word raises HXR_ILLEGAL (R172). `g0` is the engine before the word. -/
def finishWord (s : State) (e : Nat) (w : BitVec 256) (g0 : Engine) : State :=
  let g1 := scalarOp s g0 (getE s e) w
  let nx := nextPc s g0 g1 w
  let g2 := stepAgs s g0 g1 w (wRepeat w + 1)
  let halt := wClass w == 5
  let g3 := { g2 with loops := nx.1, pc := if halt then g2.pc else nx.2, granted := false, st := .run,
                      emits := if wEmit w then g2.emits ++ [{ q := wEq w, after := g2.eff, own := wClass w == 8 && decide (2 ≤ e) && decide (e < 6) }]
        else g2.emits, halted := halt, cur := g0.pc }
  let s := setE s e g3
  if halt = false ∧ storeWords e ≤ nx.2 then hxrFault (setE s e { g3 with pc := g0.pc }) e 0x0130 6 else s

/-- The wait of a word (R182): the state with the cairn removed, or nothing when the word must wait. -/
def takeCairn (s : State) (e : Nat) (w : BitVec 256) : Option State :=
  if wWait w = false ∨ (getE s e).granted then some s
  else match headQ s (wWq w) with
    | some x => if x.cairn then some (popQ s (wWq w)) else none
    | none => none

/-- A word reaches issue on an engine in RUN (R171): its checks, its wait, its payload's act, and its end. `bad` are the
reasons its payload gives (R162, R198); `act` is what the payload does. A word on an engine that is not in RUN issues
nothing. -/
def issue (s : State) (e : Nat) (w : BitVec 256) (bad : List Nat) (act : State → Eff) : State :=
  let g := getE s e
  if g.st ≠ .run ∨ g.halted ∨ g.staged.isSome then s
  else if !levelOk s w then hxrFault s e 0x0132 0
  else match lowest (commonReasons s e w ++ bad) with
  | some r => hxrFault s e 0x0130 r
  | none =>
    if wLoopOp w = 1 ∧ beginBad g w then hxrFault s e 0x0131 0
    else match takeCairn s e w with
    | none => setE s e { g with st := .wait, waitQ := some (wWq w), cur := g.pc }
    | some s1 =>
      let s2 := if wWait w then setE s1 e { g with granted := true } else s1
      match act s2 with
      | .act s3 => finishWord s3 e w g
      | .stopped s3 => s3
      | .hold s3 => setE s3 e { getE s3 e with st := .held, cur := g.pc }
      | .stay s3 => setE s3 e { getE s3 e with cur := g.pc }

/-- A payload that must be zero (R162): reason 2 when a bit of it is set. -/
def rsvReason (v : Nat) : List Nat := if v = 0 then [] else [2]

/-- A condition that gives a reason. -/
def when (b : Bool) (r : Nat) : List Nat := if b then [r] else []

/-- Single-cycle classes take no REPEAT (R198). -/
def singleCycle (w : BitVec 256) : List Nat := when (wRepeat w != 0) 1

/-! ### Common classes -/

/-- NOP (R161): the common fields only. A reserved class comes here too, and is refused at issue. -/
def nopWord (e : Nat) (w : BitVec 256) (s : State) : State :=
  issue s e w [] .act

/-- Generators `k` and `k + 1` take the parameter halves of an AGSET payload when their AGC is RESTART (R163). -/
def agSet (s : State) (e : Nat) (w : BitVec 256) (k : Nat) : State :=
  let g := getE s e
  let f := fun (j lo : Nat) (ags : List Ag) =>
    if wAgc w j = 2 then ags.set j (agParams (nth ags j {}) (pF w lo 60)) else ags
  setE s e { g with ags := f (k + 1) 60 (f k 0 g.ags) }

/-- AGSET_LO: AG0 and AG1 (R161, R163). -/
def agsetLoWord (e : Nat) (w : BitVec 256) (s : State) : State :=
  issue s e w [] (fun s => .act (agSet s e w 0))

/-- AGSET_HI: AG2 and AG3 (R161, R163). -/
def agsetHiWord (e : Nat) (w : BitVec 256) (s : State) : State :=
  issue s e w [] (fun s => .act (agSet s e w 2))

/-- A SETS entry is enabled (R168). -/
def setsEn (w : BitVec 256) (k : Nat) : Bool := pF w (38 * k + 37) 1 == 1

/-- The register loads of a SETS word, in entry order (R168, R170). -/
def setsRegs (g : Engine) (w : BitVec 256) : Engine :=
  (List.range 3).foldl (fun g k =>
    if setsEn w k then regWrite g (pF w (38 * k + 32) 5) (BitVec.ofNat 32 (pF w (38 * k) 32)) else g) g

/-- SETS (R168). -/
def setsWord (e : Nat) (w : BitVec 256) (s : State) : State :=
  issue s e w
    (rsvReason (pF w 114 6) ++ when ((List.range 3).any (fun k => setsEn w k && !regWritable (pF w (38 * k + 32) 5))) 3)
    (fun s => .act (setE s e (setsRegs (getE s e) w)))

/-- A KSET entry replaces its comparator (R167). -/
def ksetWr (w : BitVec 256) (k : Nat) : Bool := pF w (30 * k + 26) 1 == 1

/-- The comparators after a KSET word (R167). -/
def ksetCmps (g : Engine) (w : BitVec 256) : Engine :=
  (List.range 4).foldl (fun g k =>
    if ksetWr w k then
      { g with cmps := g.cmps.set k { en := pF w (30 * k) 1 == 1, srcA := pF w (30 * k + 1) 5, rel := pF w (30 * k + 6) 4,
                                      bkind := pF w (30 * k + 10) 1 == 1, b := pF w (30 * k + 11) 15 } }
    else g) g

/-- The reasons a KSET entry gives (R162, R167). -/
def ksetReasons (w : BitVec 256) (k : Nat) : List Nat :=
  if ksetWr w k then
    when (!relDefined (pF w (30 * k + 6) 4) || (decide (8 ≤ pF w (30 * k + 6) 4) && decide (wLevel w < 2))) 1
      ++ rsvReason (pF w (30 * k + 27) 3)
      ++ when (!regReadable (pF w (30 * k + 1) 5)
          || (pF w (30 * k + 10) 1 == 1 && !regReadable (pF w (30 * k + 11) 5))) 3
  else []

/-- KSET (R167): the configurations take effect before the word's own branch (R170). -/
def ksetWord (e : Nat) (w : BitVec 256) (s : State) : State :=
  issue s e w (((List.range 4).map (ksetReasons w)).flatten) (fun s => .act (setE s e (ksetCmps (getE s e) w)))

end Sys2Proof.Machine
end

