-- ==== Sys2Proof/Machine/Engines.lean ====
section
/-! DEFINITION. Starting, staging and ending Hexarel engines (R184 to R191), and the cairn, hold and start commands. -/

namespace Sys2Proof.Machine

/-- A preset record has a non-zero reserved bit (R189). -/
def presetBad (r : Bytes) : Bool :=
  (List.range 4).any (fun k => leAt r (8 * k) 8 % 512 != 0 || leAt r (8 * k + 6) 2 != 0 || leAt r (39 + 8 * k) 1 / 16 != 0)

/-- The state an engine takes at a start (R188): from a preset record (R189), or zero without one. -/
def freshEngine (r : Option Bytes) : Engine :=
  match r with
  | none => {}
  | some r =>
    { ags := (List.range 4).map (fun k => agParams { seg := leAt r (8 * k) 6 } (leAt r (32 + 8 * k) 8)),
      sregs := (List.range 16).map (fun k => BitVec.ofNat 32 (leAt r (64 + 4 * k) 4)) }

/-- Why an engine refuses a start (R187, R189): HXR_LEVEL, which R194 ranks first, or HXR_STATE. `armedItem`: a register start finds a
plan item of the engine armed. An engine that a lay-by left PARKED takes another item's start, as chapter 10's worked example has item 40
start on the array sequencer of a parked step (log entry 94). -/
def startRefusal (s : State) (e : Nat) (preset : Option Bytes) (armedItem : Bool) : Option Nat :=
  if isSet s (F.HXR_STAT_LEVEL_BAD e) then some 0x0132
  else if engEnable s e = false ∨ ((getE s e).st ≠ .idle ∧ (getE s e).st ≠ .parked) ∨ armedItem ∨ (preset.map presetBad).getD false then some 0x0133
  else none

/-- The engine takes its start state, with its first word staged to issue at `at` (R41, R188, R190). -/
def beginEngine (s : State) (e addr part : Nat) (item : Option (Nat × Nat)) (preset : Option Bytes) (at_ : Nat) : State :=
  let s := if e = 1 then
      { s with drn := { s.drn with chain := [], chainSet := false, reduce := [], half := [],
                                   force := bitOf (getF s F.DRN_QMODE_FORCE_STATIC) part } }
    else s
  setE s e { freshEngine preset with st := .run, pc := addr, part := part, item := item, staged := some at_ }

/-- A start of an engine (R187): the state, and whether it was accepted. A refusal leaves the engine as it was. -/
def startEngine (s : State) (e addr part : Nat) (item : Option (Nat × Nat)) (preset : Option Bytes) (armedItem : Bool)
    (at_ : Nat) : State × Bool :=
  match startRefusal s e preset armedItem with
  | some c =>
    (raise s false c 2 (some part) (engBlock e) ((item.map (·.2)).getD 0xFFFF) [0, addr, e], false)
  | none => (beginEngine s e addr part item preset at_, true)

/-- A plan item of an engine is armed (R187). -/
def itemArmed (s : State) (e : Nat) : Bool :=
  s.tick.armed.any (fun a => codeEngine a.item.engine == some e || (a.item.engine == 7 && decide (7 ≤ e) && decide (e < 11)
    && bitOf a.item.preset (e - 7)))

/-- An effect the engine issued up to serial `after` has not been acknowledged (R181, R173). -/
def unacked (s : State) (e after : Nat) : Bool :=
  if e = 0 then s.arr.fills.any (fun f => decide (f.serial ≤ after))
  else if e = 1 then s.drn.deposits.any (fun x => decide (x.2.2 ≤ after)) || (!s.drn.reduce.isEmpty && decide (s.drn.redSer ≤ after))
  else if e < 6 then (getD s e).words.any (fun w => decide (w.serial ≤ after))
  else false

/-- CAIRN_ENTER (R181): once every effect of the engine up to the emitting word is acknowledged, its oldest emitted cairn
enters its queue; a refused emission stops the engine (R179), and the cairn of an XFER word with an
abandoned transfer is not emitted (R249). -/
def cairnEnter (e : Nat) (s : State) : State :=
  let g := getE s e
  match g.emits with
  | [] => s
  | m :: rest =>
    if unacked s e m.after then s
    else if m.own ∧ (getD s e).noCairn.contains m.after then setE s e { g with emits := rest }
    else
      let r := postCairn (setE s e { g with emits := rest }) m.q (engCode e) g.part
      if r.2 then r.1 else engHalt r.1 e

/-- CAIRN_ENTER. -/
def execCairnEnter (e : Nat) (s : State) : Host.Outcome State Fault Refusal := .next (cairnEnter e s)

/-- CAIRN_WAIT (R182): a cairn at the head of the queue waited on is removed, and the waiting word may issue. -/
def cairnWait (e : Nat) (s : State) : State :=
  let g := getE s e
  match g.st, g.waitQ with
  | .wait, some q =>
    if (headQ s q).any (·.cairn) then setE (popQ s q) e { g with st := .run, waitQ := none, granted := true } else s
  | _, _ => s

/-- CAIRN_WAIT. -/
def execCairnWait (e : Nat) (s : State) : Host.Outcome State Fault Refusal := .next (cairnWait e s)

/-- ENGINE_HOLD_RELEASE (R76, R222): a held engine tries its word again; a hold changes no other state. `n` is the ACLK cycles that the
hold has lasted, which count in ARR_UTIL_STALL where the engine is the array sequencer; an OPEN goes on only once it is accepted (R169). -/
def holdRelease (e n : Nat) (s : State) : State :=
  if (getE s e).st = .held ∧ (s.sch.frozen.all (fun x => x.1 != e) ∨ midBlock s e) then
    let s := if e = 0 then { s with arr := { s.arr with stall := s.arr.stall + n } } else s
    if s.crd.wins.all (fun x => (x.2.heldOpen.map (·.1)) != some e) then setE s e { getE s e with st := .run } else s
  else s

/-- ENGINE_HOLD_RELEASE. -/
def execEngineHoldRelease (e : HoldEnd) (s : State) : Host.Outcome State Fault Refusal := .next (holdRelease e.e e.cycles s)

/-- Address of the preset record a register start names (R188, R195). -/
def presetAddr (s : State) (e : Nat) : Nat :=
  getF s (F.HXR_PRESET_LO_ADDR e) * 128 + getF s (F.HXR_PRESET_HI_ADDR e) * 2 ^ 32

/-- A register start (R187): with `rec`, from the preset record that HXR_PRESET names (R188), read under the filter of the partition the
engine is to work for; a poisoned record starts nothing (DESIGN CHOICE, log entry 227). The state, and whether the engine started. -/
def registerStart (s : State) (e addr part : Nat) (rec : Bool) : State × Bool :=
  if rec ∧ (startRefusal s e none (itemArmed s e)).isNone then
    let r := busRead s (engMaster e part) .system (presetAddr s e) 128
    if r.poison then (r.s, false) else startEngine r.s e addr part none (some r.data) (itemArmed s e) (s.timeC + 1000)
  else startEngine s e addr part none none (itemArmed s e) (s.timeC + 1000)

/-- The write of HXR_START (R187, R195): with GO set, a register start for the partition it names. -/
def hxrStart (m : Master) (e : Nat) (v : Nat) (s : State) : State :=
  gated s false (engBlock e) (hxrBank e % 0x10000 + 0xc) m v (fun s =>
    if bitOf v 15 then (registerStart s e (bitsOf v 0 14) (bitsOf v 16 3) (bitOf v 14)).1 else s)

/-- HXR_START_GO. -/
def execHxrStartGo (m : Master) (e : Nat) (v : BitVec 32) (s : State) : Host.Outcome State Fault Refusal :=
  .next (hxrStart m e v.toNat s)

/-- The array path changes partition (R77, R150): cells, stationary sets, border and valid tags are cleared, and the
rows of tile memories 0 to 2. -/
def clearArrayPath (s : State) (p : Nat) : State :=
  clearTile (clearTile (clearTile { s with arr := { s.arr with
    active := {}, shadow := none, cells := [], borderCol := [], borderRow := [], acc := [], accErr := [], atTileEnd := true,
    prevPart := some p } } 0) 1) 2

/-- STAGED_WORD_ISSUE (R41, R44, R150): the staged first word of an engine may issue. The array sequencer of another
partition than before waits until the drain has freed every slot, and then the array path is cleared (R77, R150). A first
word beyond the store raises HXR_ILLEGAL reason 6 (R172). -/
def stagedIssue (e : Nat) (s : State) : State :=
  let g := getE s e
  match g.staged with
  | none => s
  | some _ =>
    let go := setE s e { g with staged := none }
    if storeWords e ≤ g.pc then hxrFault go e 0x0130 6
    else if e = 0 ∧ s.arr.prevPart ≠ some g.part then
      (if s.arr.slots.all (fun x => x.st == .free) then clearArrayPath go g.part else s)
    else go

/-- A parity error on the word in flight (R482): CTRL_PARITY against the engine's partition, and the word does not issue. -/
def wordDamaged (e : Nat) (s : State) : State :=
  if (getE s e).staged.isSome then engFault (setE s e { getE s e with staged := none }) e 0x0104 [] else s

/-- STAGED_WORD_ISSUE. -/
def execStagedWordIssue (e : StagedAt) (s : State) : Host.Outcome State Fault Refusal :=
  .next (if e.par then wordDamaged e.e s else stagedIssue e.e s)

/-- The units of the engine have finished what the program started (R191, R208). -/
def unitDone (s : State) (e : Nat) : Bool :=
  if e = 0 then s.arr.op.isNone && s.arr.shares.isEmpty && s.arr.slots.all (fun x => x.st != .live) && s.arr.fills.isEmpty
  else if e = 1 then s.drn.deposits.isEmpty && s.drn.scale.isNone
  else if e < 6 then (getD s e).words.isEmpty
  else true

/-- The end of an item is reported to the tick unit (R46). -/
def reportEnd (s : State) (item : Option (Nat × Nat)) : State :=
  match item with
  | some (idx, _) => { s with tick := { s.tick with reports := s.tick.reports ++ [idx] } }
  | none => s

end Sys2Proof.Machine
end

