-- ==== Sys2Proof/Machine/Credit.lean ====
section
/-! DEFINITION. The credit unit (R139 to R144, R156, R169): windows of the tile memories, credits, remote writes, closing
and revocation, WIN words and CRD_WINCTL; and what a refused credit does to a stream DMA transfer (R249). -/

namespace Sys2Proof.Machine

/-! ### What a refusal does to a stream DMA transfer (R249) -/

/-- The unspent credits of an engine's transfer are returned (R248). -/
def returnUnspent (s : State) (e t w : Nat) : State :=
  returnCredits s (engCode e) t w (heldBy (getW s t w) (engCode e) - flying (getD s e) t w)

/-- A word's first status that is not OK (R250). -/
def noteStatus (d : DmaEng) (serial idx st : Nat) : DmaEng :=
  { d with words := d.words.map (fun x => if x.serial = serial ∧ x.status = 0 then { x with status := st, bad := idx } else x) }

/-- A transfer ends with a credit completion code (R249): no further burst of it, its credits returned, XFER_ABORT, the
advisory fault, and the word's cairn withheld; a block that it leaves in part is checked no more. -/
def abortXfer (s : State) (e serial idx t w st : Nat) : State :=
  let d := getD s e
  if d.ended.contains (serial, idx) then s
  else
    let d := noteStatus d serial idx st
    let d := { d with ended := d.ended ++ [(serial, idx)], noCairn := d.noCairn ++ [serial],
                      blocks := d.blocks.filter (fun b => !(b.word == serial && b.desc == idx) || (blockText b).length == 4096),
                      commits := d.commits.filter (fun c => !(c.1 == serial && c.2.1 == idx)),
                      xfer := d.xfer.map (fun x => if x.idx = idx ∧ d.words.any (fun y => y.serial == serial && !y.issued) then
                        { x with status := st } else x) }
    let s := returnUnspent (setD s e d) e t w
    let s := setF s (F.DMA_STAT_XFER_ABORT (e - 2)) 1
    raise s false 0x0144 0 (some (getE s e).part) (engBlock e) (engItem s e) [t, w, st]

/-- A credit request is answered (R141, R142): the completion code, the number of credits and the window's epoch. A refusal ends the transfer
of the stream DMA engine that asked. -/
def creditAnswer (s : State) (code t w st n : Nat) : State :=
  let s := { s with crd := { s.crd with answer := (code, st, n), answerEpoch := (getW s t w).epoch } }
  if st ≠ 0 ∧ 23 ≤ code ∧ code ≤ 26 then
    let e := code - 21
    match (getD s e).xfer, (getD s e).words.getLast? with
    | some x, some y => if x.tile = some t ∧ leAt x.raw 24 2 % 8 = w ∧ y.issued = false then abortXfer s e y.serial x.idx t w st else s
    | _, _ => s
  else s

/-! ### Requests and grants (R141) -/

/-- The credits that a stream DMA engine asks for at a time: min(CBATCH, rows still to write), for the window of the transfer in force
(R248). It asks again only when its last request has been answered. -/
def dmaWant (s : State) (e t w : Nat) : Nat :=
  match (getD s e).xfer with
  | some x =>
    if x.tile = some t ∧ xWin x.raw = w ∧ x.status = 0 ∧ (getW s t w).requests.all (fun y => y.1 != engCode e) then
      let batch := if leAt x.raw 26 2 = 0 then 16 else leAt x.raw 26 2
      let rows := if xOp x.raw = 1 then (tdesc s (xDst x.raw)).alloc / 512 - x.pos
        else if xLen x.raw ≤ x.pos then 0 else (xDst x.raw + xLen x.raw - 1) / 512 - (xDst x.raw + x.pos) / 512 + 1
      min batch rows
    else 0
  | none => 0

/-- CREDIT_REQUEST (R141): a sender asks for `n` credits, a stream DMA engine for what its transfer takes (R248); the request is queued,
or refused by ENABLE, the window's partition or its state. -/
def creditRequest (m : Master) (t w n : Nat) (s : State) : State :=
  let x := getW s t w
  let n := if 23 ≤ m.code ∧ m.code ≤ 26 then dmaWant s (m.code - 21) t w else n
  if 23 < t ∨ 7 < w ∨ n = 0 then s
  else if !isSet s F.CRD_CTL_ENABLE || x.st == .closed then creditAnswer s m.code t w 2 0
  else if x.part ≠ m.part then
    creditAnswer (partFilter s m 2 (tileAddr t + 512 * x.base) 0) m.code t w 4 0
  else if x.st ≠ .opened then creditAnswer s m.code t w 1 0
  else setW s t w { x with requests := x.requests ++ [(m.code, n)] }

/-- CREDIT_REQUEST. -/
def execCreditRequest (m : Master) (t w n : Nat) (s : State) : Host.Outcome State Fault Refusal := .next (creditRequest m t w n s)

/-- CREDIT_GRANT (R141): the request at the head is answered with min(n, POOL) credits once POOL is at least 1. -/
def creditGrant (t w : Nat) (s : State) : State :=
  let x := getW s t w
  match x.requests with
  | [] => s
  | (code, n) :: rest =>
    if isSet s F.CRD_CTL_ENABLE ∧ x.st = .opened ∧ 1 ≤ x.pool then
      let k := min n x.pool
      creditAnswer (setW s t w { x with requests := rest, pool := x.pool - k, outstanding := x.outstanding + k,
                                        holders := tabPut x.holders code (heldBy x code + k) 0 }) code t w 0 k
    else s

/-- CREDIT_GRANT. -/
def execCreditGrant (t w : Nat) (s : State) : Host.Outcome State Fault Refusal := .next (creditGrant t w s)

/-- CREDIT_RETURN (R141). -/
def execCreditReturn (m : Master) (t w k : Nat) (s : State) : Host.Outcome State Fault Refusal :=
  .next (returnCredits s m.code t w k)

/-! ### Remote writes (R139, R142) -/

/-- A discarded write is counted in CRD_DROPCNT (R142, R156). -/
def dropWrite (s : State) (t code : Nat) : State :=
  let d := tabGet s.crd.drops t (0, 0)
  { s with crd := { s.crd with drops := tabPut s.crd.drops t (min (d.1 + 1) 0xFFFF, code) (0, 0) } }

/-- A remote write arrives (R142): the state, and its completion code. -/
def remoteWrite (s : State) (m : Master) (t w epoch row : Nat) (ws : RowWords) : State × Nat :=
  let x := getW s t w
  if !isSet s F.CRD_CTL_ENABLE || !(x.st == .opened || x.st == .draining) || epoch != x.epoch then (dropWrite s t m.code, 2)
  else
    let s := setW s t w (spend x m.code 1)
    if x.base ≤ row ∧ row < x.base + x.rows then
      (closeIfEmpty (if tileLocked s (tileAddr t + 512 * row) then s
        else ws.foldl (fun s p => memPut s (tileAddr t + 512 * row + 8 * p.1) p.2) s) t w, 0)
    else (closeIfEmpty (raise s false 0x0124 2 (some m.part) 5 0xFFFF []) t w, 3)

/-- REMOTE_WRITE: a sender's write of whole words of one row, with a credit of the epoch it names. A sender that holds no
credit of the current epoch does not send it (R139). -/
def remoteWriteCmd (m : Master) (t w epoch row : Nat) (ws : RowWords) (s : State) : State :=
  let x := getW s t w
  if 23 < t ∨ 7 < w ∨ 767 < row ∨ ws = [] ∨ ws.any (fun p => decide (63 < p.1) || p.2.length != 8)
      ∨ (epoch = x.epoch ∧ heldBy x m.code = 0 ∧ (x.st = .opened ∨ x.st = .draining)) then s
  else
    let r := remoteWrite s m t w epoch row ws
    { r.1 with crd := { r.1.crd with answer := (m.code, r.2, 0) } }

/-- REMOTE_WRITE. -/
def execRemoteWrite (m : Master) (t w epoch row : Nat) (ws : RowWords) (s : State) : Host.Outcome State Fault Refusal :=
  .next (remoteWriteCmd m t w epoch row ws s)

/-! ### Closing (R143) -/

/-- CLOSE (R143): DRAINING, the timeout starts, and queued requests are refused. -/
def closeWindow (s : State) (t w : Nat) : State :=
  let x := getW s t w
  if x.st = .opened then
    let s := setW s t w { x with st := .draining, requests := [], deadline := s.timeC + 1000 * getF s F.CRD_TIMEOUT_US }
    closeIfEmpty (x.requests.foldl (fun s r => creditAnswer s r.1 t w 1 0) s) t w
  else s

/-! ### Windows and engines at a lay-by entry (R276) -/

/-- A stream DMA engine returns the credits that none of its bursts in flight carries (R248). -/
def returnSpare (s : State) (e : Nat) : State :=
  (s.crd.wins.map (·.1)).foldl (fun s k => returnCredits s (engCode e) (k / 8) (k % 8)
    (heldBy (tabGet s.crd.wins k {}) (engCode e) - flying (getD s e) (k / 8) (k % 8))) s

/-- The windows of tile memories 0 to 2 that are open for a partition (R276). -/
def stepWindows (s : State) (p : Nat) : List (Nat × Nat × Nat × Nat) :=
  ((List.range 24).filter (fun k => (getW s (k / 8) (k % 8)).st == .opened && (getW s (k / 8) (k % 8)).part == p)).map
    (fun k => (k / 8, k % 8, (getW s (k / 8) (k % 8)).base, (getW s (k / 8) (k % 8)).rows))

/-- With every stream DMA engine of the entering step stopped, the windows of its partition are recorded and close (R276 step 4). -/
def closeStep (s : State) : State :=
  match s.sch.run with
  | some x =>
    if s.sch.phase = 1 ∧ s.sch.wins = [] ∧ x.engs.all (fun y => !midBlock s y.1) then
      let ws := stepWindows s x.part
      let s := ws.foldl (fun s y => closeWindow s y.1 y.2.1) s
      { s with sch := { s.sch with wins := ws } }
    else s
  | none => s

/-- An entry waits for the engine, which has come to the end of its block or of its transfer (R276 step 3). -/
def laybyDue (s : State) (e : Nat) : Bool := s.sch.phase == 1 && s.sch.frozen.any (fun x => x.1 == e) && !midBlock s e

/-- Holders in descending order of count: an insertion. -/
def insertHolder (h : Nat × Nat) : List (Nat × Nat) → List (Nat × Nat)
  | [] => [h]
  | x :: r => if x.2 < h.2 then h :: x :: r else x :: insertHolder h r

/-- Holder `j` packed for CREDIT_TIMEOUT (R526). -/
def packHolder (l : List (Nat × Nat)) (j : Nat) : Nat :=
  match l[j]? with
  | some h => h.1 % 256 + 256 * (h.2 % 1024)
  | none => 0xFF

/-- CREDIT_TIMEOUT (R143): the epoch increments, revocations go to every holder, and the fault names up to four. -/
def creditTimeout (t w : Nat) (s : State) : State :=
  let x := getW s t w
  if x.st = .draining ∧ 0 < x.outstanding ∧ x.deadline ≤ s.timeC then
    let hs := x.holders.foldl (fun l h => insertHolder h l) []
    let s := setW s t w (epochUp s { x with st := .revoking, revoking := x.holders.map (·.1) })
    raise s false 0x0125 2 (some x.part) 5 0xFFFF
      [t + 256 * w + 65536 * x.epoch + 2 ^ 32 * (x.outstanding % 1024), packHolder hs 0 + 2 ^ 32 * packHolder hs 1,
       packHolder hs 2 + 2 ^ 32 * packHolder hs 3]
  else s

/-- CREDIT_TIMEOUT. -/
def execCreditTimeout (t w : Nat) (s : State) : Host.Outcome State Fault Refusal := .next (creditTimeout t w s)

/-- REVOCATION (R143): a holder receives the revocation, discards its credits and acknowledges. -/
def revocation (code t w : Nat) (s : State) : State :=
  let x := getW s t w
  if x.st = .revoking ∧ x.revoking.contains code then setW s t w (spend x code (heldBy x code)) else s

/-- REVOCATION. -/
def execRevocation (code t w : Nat) (s : State) : Host.Outcome State Fault Refusal := .next (revocation code t w s)

/-- REVOCATION_ACK (R143): with the last acknowledgement the window is CLOSED. -/
def revocationAck (code t w : Nat) (s : State) : State :=
  let x := getW s t w
  if x.st = .revoking ∧ x.revoking.contains code ∧ heldBy x code = 0 then
    let r := x.revoking.filter (· != code)
    if r = [] then setW s t w (windowClosed x) else setW s t w { x with revoking := r }
  else s

/-- REVOCATION_ACK. -/
def execRevocationAck (code t w : Nat) (s : State) : Host.Outcome State Fault Refusal := .next (revocationAck code t w s)

/-! ### Opening (R141, R144, R169) -/

/-- The window is not yet CLOSED, or its epoch changed less than 1 µs ago (R144). -/
def openTooSoon (s : State) (x : Window) : Bool := x.st != .closed || (x.epochAt.map (fun a => decide (s.timeC < a + 1000))).getD false

/-- The last three cases of R141: overlap, no rows, or rows beyond 768. -/
def openBad (s : State) (t w base rows : Nat) : Bool :=
  rows == 0 || decide (768 < base + rows)
    || (List.range 8).any (fun v => v != w && (let y := getW s t v; y.st != .closed && decide (y.base < base + rows) && decide (base < y.base + y.rows)))

/-- The window enters OPEN with POOL equal to its row count (R141). -/
def openWindow (s : State) (t w base rows part : Nat) : State :=
  let x := getW s t w
  setW s t w { x with base := base, rows := rows, part := part, st := .opened, pool := rows, outstanding := 0, holders := [],
                      requests := [], revoking := [], heldOpen := none }

/-- RELEASE k (R141): POOL is limited to the row count minus OUTSTANDING. -/
def releaseRows (s : State) (t w k : Nat) : State :=
  let x := getW s t w
  if x.st = .opened ∨ x.st = .draining then
    let s := if x.rows - x.outstanding < x.pool + k then setF s F.CRD_STAT_OVER_RELEASE 1 else s
    setW s t w { x with pool := min (x.pool + k) (x.rows - x.outstanding) }
  else s

/-- The tile memory a WIN word acts on (R169). -/
def winTile (e : Nat) (w : BitVec 256) : Nat := if e = 0 then pF w 2 1 else if e = 1 then 2 else if e = 6 then 3 else if e < 11 then e - 3 else 8

/-- The reasons a WIN word gives (R169, R162): `op` is the OP of the command's row, `base` and `rows` whether it uses them. -/
def winReasons (e : Nat) (w : BitVec 256) (base rows : Bool) : List Nat :=
  when (rows && (pF w 16 10 == 0 || decide (768 < pF w 16 10))) 1
    ++ when ((!base && pF w 6 10 != 0) || (!rows && pF w 16 10 != 0) || (e != 0 && pF w 2 1 != 0) || pF w 26 94 != 0) 2
    ++ singleCycle w

/-- OPEN acts (R169): it holds until the window is CLOSED and its microsecond has passed; refused under R141 it raises
HXR_ILLEGAL reason 8. -/
def winOpenAct (e : Nat) (w : BitVec 256) (s : State) : Eff :=
  let t := winTile e w; let i := pF w 3 3
  let x := getW s t i
  if x.accepted = some e then .act (setW s t i { x with accepted := none })
  else if openTooSoon s x then
    .hold (setW s t i { x with heldOpen := some (e, pF w 6 10, pF w 16 10, (getE s e).part) })
  else if openBad s t i (pF w 6 10) (pF w 16 10) then .stopped (hxrFault (setF s F.CRD_STAT_OPEN_REFUSED 1) e 0x0130 8)
  else .act (openWindow s t i (pF w 6 10) (pF w 16 10) (getE s e).part)

/-- WIN_OPEN. -/
def winOpenWord (e : Nat) (w : BitVec 256) (s : State) : State :=
  issue s e w (winReasons e w true true) (winOpenAct e w)

/-- WIN_CLOSE: it does not wait for the close (R169). -/
def winCloseWord (e : Nat) (w : BitVec 256) (s : State) : State :=
  issue s e w (winReasons e w false false) (fun s => .act (closeWindow s (winTile e w) (pF w 3 3)))

/-- WIN_RELEASE (R169, R141). -/
def winReleaseWord (e : Nat) (w : BitVec 256) (s : State) : State :=
  issue s e w (winReasons e w false true) (fun s => .act (releaseRows s (winTile e w) (pF w 3 3) (pF w 16 10)))

/-- WINDOW_OPEN_ACCEPT (R144, R169): a held OPEN is accepted, or refused in the last three cases of R141, which stops the
engine. -/
def windowOpenAccept (t w : Nat) (s : State) : State :=
  let x := getW s t w
  match x.heldOpen with
  | some (e, base, rows, part) =>
    if openTooSoon s x then s
    else if openBad s t w base rows then
      hxrFault (setF (setW s t w { x with heldOpen := none }) F.CRD_STAT_OPEN_REFUSED 1) e 0x0130 8
    else
      let s := openWindow s t w base rows part
      setW s t w { getW s t w with accepted := some e }
  | none => s

/-- WINDOW_OPEN_ACCEPT. -/
def execWindowOpenAccept (t w : Nat) (s : State) : Host.Outcome State Fault Refusal := .next (windowOpenAccept t w s)

/-! ### CRD_WINCTL (R141, R156) -/

/-- The window CRD_WINSEL selects; none above tile memory 23. -/
def winSel (s : State) : Option (Nat × Nat) :=
  let t := getF s F.CRD_WINSEL_TILE
  if t < 24 then some (t, getF s F.CRD_WINSEL_WIN) else none

/-- The write of CRD_WINCTL (R156): OPEN with the window's configuration, CLOSE, or RELEASE. -/
def winCtl (m : Master) (v : Nat) (s : State) : State :=
  gated s false 5 0x2c m v (fun s =>
    match winSel s with
    | none => s
    | some (t, w) =>
      let x := getW s t w
      match v % 4 with
      | 1 =>
        if openTooSoon s x ∨ openBad s t w x.base x.rows then setF s F.CRD_STAT_OPEN_REFUSED 1
        else openWindow s t w x.base x.rows x.part
      | 2 => closeWindow s t w
      | 3 => releaseRows s t w (bitsOf v 16 10)
      | _ => s)

/-- CRD_WINCTL_OPEN. -/
def execCrdWinctlOpen (m : Master) (s : State) : Host.Outcome State Fault Refusal := .next (winCtl m 1 s)
/-- CRD_WINCTL_CLOSE. -/
def execCrdWinctlClose (m : Master) (s : State) : Host.Outcome State Fault Refusal := .next (winCtl m 2 s)
/-- CRD_WINCTL_RELEASE of COUNT rows. -/
def execCrdWinctlRelease (m : Master) (n : BitVec 10) (s : State) : Host.Outcome State Fault Refusal :=
  .next (winCtl m (3 + 65536 * n.toNat) s)

end Sys2Proof.Machine
end

