-- ==== Sys2Proof/Machine/Array.lean ====
section
/-! DEFINITION. The matrix array and its sequencer (R65 to R97, R145 to R150, R201 to R208): columns, operations, loads,
streams, fills, the checksum border, slots, retirement and the array's own register commands. -/

namespace Sys2Proof.Machine

/-! ### Columns (R66, R67) -/

/-- A physical column is usable (R67). -/
def colUsable (s : State) (c : Nat) : Bool :=
  !(isSet s F.ARR_CTL_FUSE_BYPASS && bitOf s.fuse.colBad c) && !(isSet s F.ARR_CTL_RETIRE_EN && bitOf s.arr.retired c)

/-- The presented width W (R67). -/
def widthW (s : State) : Nat := ((List.range 256).filter (colUsable s)).length

/-- A column group is powered (R66, R94). -/
def groupOn (s : State) (g : Nat) : Bool := !s.pwr.off.contains g && !s.arr.settling.contains g

/-- The usable columns of powered groups in ascending order: logical column j is the physical column at place j (R67). A group that is
still settling counts as powered here, so in W_on and in CHK_AVAIL too: R67 and R89 ask for power, which R94 keeps apart from
settling (log entry 198). -/
def physCols (s : State) : List Nat := (List.range 256).filter (fun c => colUsable s c && !s.pwr.off.contains (c / 16))

/-- The physical column of logical column `j` (R67); 256, which no column has, at or beyond W_on. -/
def physCol (s : State) (j : Nat) : Nat := nth (physCols s) j 256

/-- The usable width W_on (R67), settling groups included (log entry 198). -/
def widthOn (s : State) : Nat := (physCols s).length

/-- A failure counter (R88). -/
def colCount (s : State) (i : Nat) : Nat := tabGet s.arr.colCnt i 0

/-- CHK_REASON of R89 and R96: 0 available; 1 border fused bad; 2 border counter at threshold; 3 group 0 or 15 off. -/
def chkReason (s : State) : Nat :=
  if s.fuse.borderBad then 1
  else if getF s F.ARR_CTL_RETIRE_THRESH ≤ colCount s 256 ∨ getF s F.ARR_CTL_RETIRE_THRESH ≤ colCount s 257 then 2
  else if s.pwr.off.contains 0 ∨ s.pwr.off.contains 15 then 3
  else 0

/-- CHK_AVAIL (R89). -/
def chkAvail (s : State) : Bool := chkReason s == 0

/-! ### Operand pairs (R69, R72) -/

/-- Rate classes (R72). -/
inductive Rate where
  | double | full | quarter
  deriving DecidableEq, Repr

/-- The rate class of a weight and an activation format, or nothing for an unsupported pair (R69). -/
def rateOf (w a : Nat) : Option Rate :=
  if w = 1 then (if a = 1 ∨ a = 0 then some .double else none)
  else if w = 0 then (if a = 0 then some .full else none)
  else if w = 2 ∨ w = 3 then (if a = 2 ∨ a = 3 then some .full else none)
  else if w = 4 ∨ w = 5 ∨ w = 6 then (if a = w then some .quarter else none)
  else none

/-- Weight and activation formats of an operation (R68). -/
def opPair (fmtN fmtW : Nat) (wside : Bool) : Nat × Nat := if wside then (fmtW, fmtN) else (fmtN, fmtW)

/-- Rate class of an operation. -/
def opRate (o : ArrOp) : Option Rate := let p := opPair o.fmtN o.fmtW o.wside; rateOf p.1 p.2

/-- A floating-point format code among those the array takes. -/
def fmtFp (c : Nat) : Bool := c == 2 || c == 3 || c == 4 || c == 5

/-! ### OPBEGIN (R201) -/

/-- The array runs an operation: ARR_STAT.BUSY (R96). -/
def arrBusy (s : State) : Bool := s.arr.op.isSome || !s.arr.shares.isEmpty || s.arr.closing != 0

/-- The first failing check of OPBEGIN, as a reason of R95. -/
def opRefusal (s : State) (mode fmtN fmtW : Nat) (wside : Bool) (wdecl : Nat) (part : Nat) : Option Nat :=
  let p := opPair fmtN fmtW wside
  if s.arr.outOfService then some 5
  else if mode = 3 then some 1
  else if (rateOf p.1 p.2).isNone then some 2
  else if widthOn s < wdecl then some 3
  else if bitOf (getF s F.ARR_CHK_CTL_PART_EN) part && !chkAvail s && isSet s F.ARR_CHK_CTL_ON_UNAVAIL then some 4
  else none

/-- The operation an OPBEGIN payload names (R201). -/
def opOf (s : State) (w : BitVec 256) (part : Nat) : ArrOp :=
  { mode := pF w 0 2, fmtN := pF w 2 4, fmtW := pF w 6 4, wside := pF w 10 1 == 1, wdecl := pF w 11 9, optag := pF w 20 4,
    rowgroup := pF w 24 4, opid := pF w 28 16, part := part,
    chk := bitOf (getF s F.ARR_CHK_CTL_PART_EN) part && chkAvail s }

/-- OPBEGIN acts: the checks of R201, then the operation opens with checksum mode as sampled (R81); one that asked for
checksums and runs without raises ARRAY_CHK_UNAVAIL (R89). It holds while a group settles (R94), while ENABLE is 0 (R96), and while a
retirement is being applied, which begins as soon as no operation runs (R92). A refused OPBEGIN leaves the cells, with a set waiting in the
shadow registers, unchanged (R95). -/
def opBegin (e : Nat) (w : BitVec 256) (s : State) : Eff :=
  let part := (getE s e).part
  let o := opOf s w part
  if !s.arr.settling.isEmpty || !isSet s F.ARR_CTL_ENABLE || (!s.arr.retireReq.isEmpty && !arrBusy s) then .hold s
  else match opRefusal s o.mode o.fmtN o.fmtW o.wside o.wdecl part with
  | some r =>
    let t := engFault s e 0x0110 [r]
    .stopped { t with arr := { t.arr with shadow := s.arr.shadow.filter (fun l => l.set.isSome) } }
  | none =>
    let s := if bitOf (getF s F.ARR_CHK_CTL_PART_EN) part && !chkAvail s then
        raise s false 0x0112 0 (some part) 1 (engItem s e) [o.opid] else s
    .act { s with arr := { s.arr with op := some { o with ser := s.arr.opened + 1 }, opened := s.arr.opened + 1 } }

/-- OPBEGIN: format codes 9 to 15 are reserved (R199, R201). -/
def opbeginWord (e : Nat) (w : BitVec 256) (s : State) : State :=
  issue s e w
    (when (pF w 11 9 == 0 || decide (256 < pF w 11 9) || decide (8 < pF w 2 4) || decide (8 < pF w 6 4) || s.arr.op.isSome) 1 ++ rsvReason (pF w 44 76) ++ singleCycle w)
    (opBegin e w)

/-! ### LOAD (R202) -/

/-- Tile-memory rows of a set of `k` by `n` elements (R202). -/
def setRows (fmt k n : Nat) : Nat := (k * n * fmtNib fmt + 1023) / 1024

/-- The reasons LOAD gives (R198, R202). -/
def loadReasons (s : State) (w : BitVec 256) : List Nat :=
  let k := pF w 0 11; let n := pF w 11 9; let trow := pF w 20 10
  match s.arr.op with
  | none => [1]
  | some o =>
    when (k == 0 || decide (1024 < k) || n == 0 || decide (o.wdecl < n) || o.mode == 1 || s.arr.shadow.isSome
      || decide (768 < trow + setRows o.fmtN k n)) 1

/-- LOAD: the North feed starts loading the shadow registers (R202). -/
def loadWord (e : Nat) (w : BitVec 256) (s : State) : State :=
  issue s e w (loadReasons s w ++ rsvReason (pF w 30 90) ++ singleCycle w)
    (fun s => .act { s with arr := { s.arr with shadow := some { k := pF w 0 11, n := pF w 11 9, trow := pF w 20 10 } } })

/-- A row of a tile memory is one that a pending FILL has yet to write (R204, R206). -/
def fillPending (s : State) (tgt row : Nat) : Bool :=
  s.arr.fills.any (fun f => f.tgt == tgt && ((decide (f.trow + f.done ≤ row) && decide (row < f.trow + f.rows))
    || f.bad.any (fun i => f.trow + i == row)))

/-- LOAD_COMPLETE (R202, R73): the set's rows are in the shadow registers. A row that a FILL has yet to write delays it; the
cycles of that wait count as the row arrives (`loadWaited`). -/
def loadComplete (s : State) : State :=
  match s.arr.op, s.arr.shadow with
  | some o, some l =>
    if l.set.isNone ∧ (List.range (setRows o.fmtN l.k l.n)).all (fun i => !fillPending s 1 (l.trow + i)) then
      let bs := memRead s.mem (tileAddr 1 + 512 * l.trow) (512 * setRows o.fmtN l.k l.n)
      { s with arr := { s.arr with shadow := some { l with set := some { k := l.k, n := l.n, trow := l.trow,
                                                                         els := elemsOf o.fmtN bs (l.k * l.n), fmt := o.fmtN,
                                                                         phys := (physCols s).take l.n } } } }
    else s
  | _, _ => s

/-- LOAD_COMPLETE. -/
def execLoadComplete (s : State) : Host.Outcome State Fault Refusal := .next (loadComplete s)

/-- A set as the logical columns see it now (R67): a column whose physical column has another logical number since the load is
found there, and a column that holds no part of the set holds zero (R74). -/
def seenSet (s : State) (st : StatSet) : StatSet :=
  let now := physCols s
  if now.take st.n = st.phys then st
  else
    { st with n := now.length, phys := now,
              els := ((List.range st.k).map (fun k => now.map (fun p =>
                match st.phys.idxOf? p with
                | some i => nth st.els (k * st.n + i) 0
                | none => 0))).flatten }

/-! ### Cell arithmetic (R70, R104) -/

/-- One product added to a running sum (R70, R104): exact product; `wrap32` addition of integers, rounded FP32 addition. -/
def macStep (fp : Bool) (fa fb : Nat) (acc a b : Nat) : Nat :=
  match fmtElem fa, fmtElem fb with
  | some ea, some eb =>
    if fp then fp32.rn ((fp32.decode acc).add ((ea.value a).mul (eb.value b)))
    else wrapU 32 ((acc : Int) + sext ea.bits a * sext eb.bits b)
  | _, _ => acc

/-- Two running sums added (R70): a pass's result and its lane's accumulator. -/
def accAdd (fp : Bool) (a b : Nat) : Nat := if fp then fAdd a b else (a + b) % 2 ^ 32

/-- The partial sum of a streamed vector and column `n` of a set: products of rows 0 to 1,023 in rising k from zero (R70). The rows from K
on add zero times zero (R74), which turns a sum of -0 into +0 and changes no other, however many they are. -/
def colDot (fp : Bool) (fx fs : Nat) (x : List Nat) (st : StatSet) (n : Nat) : Nat :=
  let v := (List.range st.k).foldl (fun acc k => macStep fp fx fs acc (nth x k 0) (nth st.els (k * st.n + n) 0)) 0
  if st.k < 1024 then accAdd fp v 0 else v

/-- The lanes of one step (R70, R74): lanes of unused columns are zero. -/
def stepLanes (fp : Bool) (fx fs : Nat) (x : List Nat) (st : StatSet) : List Nat :=
  (List.range st.n).map (colDot fp fx fs x st)

/-- An element as a border sum takes it: FP32, or 32-bit two's complement (R84, R85). -/
def borderElem (fp : Bool) (f a : Nat) : Nat :=
  match fmtElem f with
  | some el => if fp then el.toF32 a else wrapU 32 (sext el.bits a)
  | none => 0

/-- Row sum S·e of row k, in column order (R82, R85). -/
def rowSum (fp : Bool) (fs : Nat) (st : StatSet) (k : Nat) : Nat :=
  (List.range st.n).foldl (fun acc n => accAdd fp acc (borderElem fp fs (nth st.els (k * st.n + n) 0))) 0

/-- A border product with a sum: FP32 or 32-bit integers (R84, R85). -/
def borderMac (fp : Bool) (f acc a sum : Nat) : Nat :=
  if fp then macStep true f 8 acc a sum else macStep false f 7 acc a sum

/-- The border column's value for a vector: x·(S·e) (R82). -/
def rowRefOf (fp : Bool) (fx fs : Nat) (x : List Nat) (st : StatSet) : Nat :=
  (List.range st.k).foldl (fun acc k => borderMac fp fx acc (nth x k 0) (rowSum fp fs st k)) 0

/-- Sum of the streamed vectors, element by element (R82). -/
def vecSum (fp : Bool) (fx : Nat) (xs : List (List Nat)) (k : Nat) : List Nat :=
  (List.range k).map (fun i => xs.foldl (fun acc x => accAdd fp acc (borderElem fp fx (nth x i 0))) 0)

/-- The appended vector's result in each column: (Σx)·S (R82). -/
def colRefOf (fp : Bool) (fx fs : Nat) (xs : List (List Nat)) (st : StatSet) : List Nat :=
  let sx := vecSum fp fx xs st.k
  (List.range st.n).map (fun n =>
    (List.range st.k).foldl (fun acc k => borderMac fp fs acc (nth st.els (k * st.n + n) 0) (nth sx k 0)) 0)

/-! ### STREAM (R203 to R205) -/

/-- Granules of piece `j`: 0 means 16 (R203). -/
def pieceLen (w : BitVec 256) (j : Nat) : Nat := let l := pF w (16 + 4 * j) 4; if l = 0 then 16 else l
/-- Granules of the North vector in output-stationary mode. -/
def northLen (w : BitVec 256) : Nat := let l := pF w 32 4; if l = 0 then 16 else l
/-- Pieces of a STREAM word. -/
def pieces (w : BitVec 256) : Nat := pF w 14 2 + 1

/-- Byte address a generator gives STREAM in each word cycle: SEG + p × 64 (R203). -/
def streamAddrs (g : Engine) (w : BitVec 256) (k : Nat) : List Int :=
  let a := nth g.ags k {}
  (agWord a (wAgc w k) (wRepeat w + 1)).1.map (fun p => (a.seg : Int) + p * 64)

/-- Addresses of `len` granules that do not lie in rows 0 to 767 of a tile memory (R198). -/
def outsideTile (i : Nat) (len : Nat) (a : Int) : Bool :=
  !(decide ((tileAddr i : Int) ≤ a) && decide (a + 64 * len ≤ (tileAddr i + tileBytes : Nat)))

/-- The reasons STREAM gives (R198, R203). -/
def streamReasons (s : State) (e : Nat) (w : BitVec 256) : List Nat :=
  let g := getE s e
  match s.arr.op with
  | none => [1]
  | some o =>
    when (decide (32 < ((List.range (pieces w)).map (pieceLen w)).sum) || (o.mode == 1 && pieces w == 4)) 1
      ++ when ((List.range (pieces w)).any (fun j => (streamAddrs g w j).any (outsideTile 0 (pieceLen w j)))) 1
      ++ when (o.mode == 1 && (streamAddrs g w 3).any (outsideTile 1 (northLen w))) 1

/-- The concatenated pieces of word cycle `i` (R203). -/
def cycleBytes (s : State) (g : Engine) (w : BitVec 256) (i : Nat) : Bytes :=
  ((List.range (pieces w)).map (fun j =>
    memRead s.mem (nth (streamAddrs g w j) i 0).toNat (64 * pieceLen w j))).flatten

/-- Tile-memory rows the pieces of word cycle `i` need (R204). -/
def cycleRows (g : Engine) (w : BitVec 256) (i : Nat) : List Nat :=
  (((List.range (pieces w)).map (fun j =>
    let a := (nth (streamAddrs g w j) i 0).toNat - tileAddr 0
    (List.range ((a + 64 * pieceLen w j - 1) / 512 - a / 512 + 1)).map (fun r => a / 512 + r))).flatten).eraseDups

/-- The vectors of a word cycle (R203): one, or two halves at the double rate, cut or extended to K elements. -/
def cycleVecs (fmtW : Nat) (k : Nat) (dbl : Bool) (bs : Bytes) : List (List Nat) :=
  if dbl then
    let h := bs.length / 2
    [elemsOf fmtW (bs.take h) (min k (2 * h / fmtNib fmtW)), elemsOf fmtW (bs.drop h) (min k (2 * h / fmtNib fmtW))]
  else [elemsOf fmtW bs (min k (2 * bs.length / fmtNib fmtW))]

/-- Holds of R204 over `n` word cycles from cycle `i` on: rows beyond four. -/
def rowHolds (g : Engine) (w : BitVec 256) (i n : Nat) : Nat :=
  ((List.range n).map (fun k => ((cycleRows g w (i + k)).length + 3) / 4 - 1)).sum

/-- A slot of the array by number. -/
def getSlot (s : State) (i : Nat) : Slot := nth s.arr.slots i {}
/-- The state with a slot replaced. -/
def setSlot (s : State) (i : Nat) (x : Slot) : State := { s with arr := { s.arr with slots := s.arr.slots.set i x } }

/-- The slot that holds an output tile of an operation, in a given state (R205). -/
def slotOf (s : State) (st : SlotSt) (optag ot : Nat) : Option Nat :=
  (List.range 8).find? (fun i => let x := getSlot s i; x.st == st && x.optag == optag && x.ot == ot)

/-- What an allocation finds (R146): the lowest free slot; no free one yet, but one draining or an earlier share still on its way to its
checks; or every slot live. -/
inductive Alloc where
  | got (i : Nat)
  | wait
  | full
  deriving DecidableEq, Repr

/-- The allocation of R146. The shares sent before reach their checks before the new tile's first partial sum is written, so the
allocation fails only when none of them is left (log entry 202). -/
def slotAlloc (s : State) : Alloc :=
  match (List.range 8).find? (fun i => (getSlot s i).st == .free) with
  | some i => .got i
  | none => if s.arr.slots.any (fun x => x.st == .draining) || !s.arr.shares.isEmpty then .wait else .full

/-- A slot allocated to a tile of the open operation (R146, R205): it starts from zero. -/
def takeSlot (s : State) (i : Nat) (o : ArrOp) (ot : Nat) : State :=
  let s := setSlot s i { st := .live, optag := o.optag, ot := ot, opid := o.opid, mode := o.mode, wdecl := o.wdecl,
                         fp := fmtFp o.fmtW, part := o.part, rowgroup := o.rowgroup, ser := o.ser }
  { s with arr := { s.arr with acc := tabDrop s.arr.acc (512 * i) 512, accErr := tabDrop s.arr.accErr (512 * i) 512 } }

/-- The slot for a share's tile: the one it holds, or one allocated at its first partial sum (R205). -/
def shareSlot (s : State) (o : ArrOp) (ot : Nat) : Option (State × Nat) ⊕ Unit :=
  match slotOf s .live o.optag ot with
  | some i => .inl (some (s, i))
  | none =>
    match slotAlloc s with
    | .got i => .inl (some (takeSlot s i o ot, i))
    | .wait => .inl none
    | .full => .inr ()

/-- ACC_OVERFLOW at an allocation (R146, R147, R119): the operation, the tile and the count of live slots. -/
def accOverflow (s : State) (e : Nat) (o : ArrOp) (ot : Nat) : State := engFault s e 0x0115 [o.opid, ot, 8]

/-- The set in force, with a LOAD's set swapped in when one is ready (R73): the state, or nothing while the load runs. -/
def swapIn (s : State) : Option State :=
  match s.arr.shadow with
  | none => some s
  | some l =>
    match l.set with
    | none => none
    | some st =>
      some { s with arr := { s.arr with active := st, shadow := none, pass := s.arr.pass + 1,
                                        op := s.arr.op.map (fun o => { o with depth := st.k, started := true }) } }

/-- The steps of a STREAM word in weight- and input-stationary modes: the streamed vectors in order. -/
def streamVecs (s : State) (g : Engine) (w : BitVec 256) (o : ArrOp) : List (List Nat) :=
  ((List.range (wRepeat w + 1)).map (fun i =>
    cycleVecs o.fmtW (seenSet s s.arr.active).k (opRate o == some .double) (cycleBytes s g w i))).flatten

/-- One tile share of a STREAM word (R82, R205): the vectors' results, with the references of its checks. -/
def mkShare (o : ArrOp) (st : StatSet) (pass : Nat) (w : BitVec 256) (slot ot : Nat) (xs : List (List Nat)) : Share :=
  let fp := fmtFp o.fmtW
  { slot := slot, ot := ot, opid := o.opid, part := o.part, fp := fp, chk := o.chk, first := pF w 12 1 == 1,
    last := pF w 13 1 == 1, rowgroup := o.rowgroup, depth := o.depth, pass := pass,
    vecs := (List.range xs.length).map (fun i => (i, stepLanes fp o.fmtW o.fmtN (nth xs i []) st)),
    rowRef := if o.chk then xs.map (fun x => rowRefOf fp o.fmtW o.fmtN x st) else [],
    colRef := if o.chk then colRefOf fp o.fmtW o.fmtN xs st else [] }

/-- Streamed vectors of a word cycle of an operation (R203). -/
def cycleSteps (o : ArrOp) : Nat := if opRate o == some .double then 2 else 1

/-- Word cycles of a STREAM word up to cycle `b` are done: the MACs issued, and the holds of R204 (R97). -/
def countSteps (e : Nat) (w : BitVec 256) (o : ArrOp) (b : Nat) (s : State) : State :=
  let a := s.arr.strSteps
  { s with arr := { s.arr with issued := s.arr.issued + (b - a) * cycleSteps o * widthOn s,
                               stall := s.arr.stall + rowHolds (getE s e) w a (b - a), strSteps := max a b } }

/-- The tile shares of a STREAM word from share `j` on (R205): each takes its slot, and its results leave for their
checks. The word holds where a slot must drain first (R146); ACC_OVERFLOW where every slot is live. -/
def sendShares (e : Nat) (w : BitVec 256) (o : ArrOp) (vecs : List (List Nat)) : Nat → Nat → State → Eff
  | 0, j, s => .act { s with arr := { s.arr with strPos := j } }
  | n + 1, j, s =>
    let ot := pF w 0 12 + j
    match shareSlot s o ot with
    | .inr _ => .stopped (accOverflow s e o ot)
    | .inl none => .hold { s with arr := { s.arr with strPos := j } }
    | .inl (some (s, i)) =>
      let xs := (vecs.drop (512 * j)).take 512
      let sh := mkShare o (seenSet s s.arr.active) s.arr.pass w i ot xs
      sendShares e w o vecs n (j + 1) (countSteps e w o (min (wRepeat w + 1) (512 * (j + 1) / cycleSteps o))
        { s with arr := { s.arr with shares := s.arr.shares ++ [sh] } })

/-- A piece of the word reads a row that a pending FILL has not written (R204). -/
def streamWaits (s : State) (g : Engine) (w : BitVec 256) (o : ArrOp) : Bool :=
  (List.range (wRepeat w + 1)).any (fun i => (cycleRows g w i).any (fillPending s 0))
    || (o.mode == 1 && (streamAddrs g w 3).any (fun a =>
          let r := (a.toNat - tileAddr 1) / 512
          fillPending s 1 r || fillPending s 1 ((a.toNat - tileAddr 1 + 64 * northLen w - 1) / 512)))

/-! #### Output-stationary mode (R70, R71, R83) -/

/-- Array rows a West column of `n` elements reaches (R74): in a floating-point operation the rows beyond it take part with
zeros, whose products may be -0 plus +0 or 0 times infinity; in an integer one they change nothing. -/
def westRows (fp : Bool) (n : Nat) : Nat := if fp then 1024 else n

/-- One reduction index added to the cells: `a` the West column, `b` the North row, whose element n meets the cells of physical
column `cols` n (R67, R70). -/
def cellStep (fp : Bool) (fa fb : Nat) (cols : List Nat) (cells : Tab Nat) (a b : List Nat) : Tab Nat :=
  (List.range (westRows fp a.length)).foldl (fun t p =>
    (List.range b.length).foldl (fun t n =>
      let i := 256 * p + nth cols n 0
      tabPut t i (macStep fp fa fb (tabGet t i 0) (nth a p 0) (nth b n 0)) 0) t) cells

/-- Two reduction indices of one cycle at the double rate: the two integer products are added together exactly first,
which gives the same 32-bit sum (R70). -/
def cellSteps (fp : Bool) (fa fb : Nat) (cols : List Nat) (cells : Tab Nat) (l : List (List Nat × List Nat)) : Tab Nat :=
  l.foldl (fun t x => cellStep fp fa fb cols t x.1 x.2) cells

/-- The border column over the steps: row p accumulates A[p,k] × Σ B[k,·] (R83). -/
def borderColOf (fp : Bool) (fa fb : Nat) (old : List Nat) (l : List (List Nat × List Nat)) : List Nat :=
  (List.range 1024).map (fun p => l.foldl (fun acc x =>
    let sb := x.2.foldl (fun t b => accAdd fp t (borderElem fp fb b)) 0
    if p < westRows fp x.1.length then borderMac fp fa acc (nth x.1 p 0) sb else acc) (nth old p 0))

/-- The border row over the steps: column n accumulates Σ A[·,k] × B[k,n] (R83). -/
def borderRowOf (fp : Bool) (fa fb : Nat) (old : List Nat) (l : List (List Nat × List Nat)) : List Nat :=
  (List.range 256).map (fun n => l.foldl (fun acc x =>
    let sa := x.1.foldl (fun t a => accAdd fp t (borderElem fp fa a)) 0
    if n < x.2.length then borderMac fp fb acc (nth x.2 n 0) sa else acc) (nth old n 0))

/-- The columns and rows that the word cycles `a` to `b` - 1 of an output-stationary STREAM bring, step by step (R203). -/
def osSteps (s : State) (g : Engine) (w : BitVec 256) (o : ArrOp) (a b : Nat) : List (List Nat × List Nat) :=
  ((List.range' a (b - a)).map (fun i =>
    let dbl := opRate o == some .double
    let nb := memRead s.mem (nth (streamAddrs g w 3) i 0).toNat (64 * northLen w)
    let as := cycleVecs o.fmtW 1024 dbl (cycleBytes s g w i)
    let bs := cycleVecs o.fmtN o.wdecl dbl nb
    as.zip bs)).flatten

/-- The cells of the columns `cols`, one vector for each array row, as they are unloaded (R205). -/
def osVecs (cells : Tab Nat) (cols : List Nat) : List (Nat × List Nat) :=
  (List.range 1024).map (fun v => (v, cols.map (fun c => tabGet cells (256 * v + c) 0)))

/-- STREAM in output-stationary mode (R203, R205): the cells accumulate; LAST unloads them into two slots, as one share whose
row and column checks are evaluated together (R83). A hold before cycle `cut` leaves the rest for later (R171). -/
def streamOs (e : Nat) (w : BitVec 256) (cut : Option Nat) (o : ArrOp) (s : State) : Eff :=
  let g := getE s e
  let fp := fmtFp o.fmtW
  let stop := cut.filter (fun c => decide (c ≤ wRepeat w))
  let b := stop.getD (wRepeat w + 1)
  let l := osSteps s g w o s.arr.strSteps b
  let first := pF w 12 1 == 1 && s.arr.strSteps == 0
  let cols := (physCols s).take o.wdecl
  let cells := cellSteps fp o.fmtW o.fmtN cols (if first then [] else s.arr.cells) l
  let bc := if o.chk then borderColOf fp o.fmtW o.fmtN (if first then [] else s.arr.borderCol) l else []
  let br := if o.chk then borderRowOf fp o.fmtW o.fmtN (if first then [] else s.arr.borderRow) l else []
  let depth := (if first then 0 else o.depth) + l.length
  let last := pF w 13 1 == 1
  let ot := pF w 0 12
  let upd := fun (s : State) =>
    let s := countSteps e w o b s
    { s with arr := { s.arr with cells := cells, borderCol := bc, borderRow := br, atTileEnd := last && stop.isNone,
                                 op := some { o with depth := depth, started := true } } }
  let done := fun (s : State) => { s with arr := { s.arr with strSteps := 0 } }
  if stop.isSome then .hold (upd s)
  else if last then
    match shareSlot s o ot with
    | .inr _ => .stopped (accOverflow s e o ot)
    | .inl none => .hold s
    | .inl (some (s1, i)) =>
      match shareSlot s1 o (ot + 1) with
      | .inr _ => .stopped (accOverflow s1 e o (ot + 1))
      | .inl none => .hold s
      | .inl (some (s2, j)) =>
        let s3 := done (upd s2)
        .act { s3 with arr := { s3.arr with pass := s3.arr.pass + 1, shares := s3.arr.shares ++
          [{ slot := i, slot2 := some j, ot := ot, opid := o.opid, part := o.part, fp := fp, chk := o.chk, first := true, last := true,
             rowgroup := 0, depth := depth, pass := s3.arr.pass + 1, vecs := osVecs cells cols, rowRef := bc,
             colRef := br.take o.wdecl }] } }
  else .act (done (upd s))

/-- STREAM acts (R203 to R205): it holds for the load, for unwritten rows and for a slot; otherwise the word's steps run. The cycles of
those holds count when they end (ENGINE_HOLD_RELEASE); a word whose LAST is 0 ends no tile, since a later pass still adds to it (R207).
A damper bubble, a droop stretch or a stop may come before cycle `cut`: the word holds there with the cycles before it done (R171). -/
def streamAct (e : Nat) (w : BitVec 256) (cut : Option Nat) (s : State) : Eff :=
  let g := getE s e
  match s.arr.op with
  | none => .act s
  | some _ =>
    match swapIn s with
    | none => .hold s
    | some s1 =>
      match s1.arr.op with
      | none => .act s1
      | some o =>
        if streamWaits s1 g w o then .hold s
        else if o.mode = 1 then streamOs e w cut o s1
        else
          let vecs := streamVecs s1 g w o
          let stop := cut.filter (fun c => decide (c ≤ wRepeat w))
          let tiles := match stop with
            | some c => c * cycleSteps o / 512
            | none => (vecs.length + 511) / 512
          let start := s1.arr.strPos
          match sendShares e w o vecs (tiles - start) start { s1 with arr := { s1.arr with atTileEnd := pF w 13 1 == 1 } }, stop with
          | .act s2, some c => .hold { countSteps e w o c s2 with arr := { (countSteps e w o c s2).arr with atTileEnd := false } }
          | .act s2, none => .act { s2 with arr := { s2.arr with strPos := 0, strSteps := 0 } }
          | r, _ => r

/-- STREAM. -/
def streamWord (e : Nat) (w : BitVec 256) (cut : Option Nat) (s : State) : State :=
  issue s e w (streamReasons s e w ++ rsvReason (pF w 36 84)) (streamAct e w cut)

/-! ### FILL (R206) -/

/-- FILL acts: a fifth pending FILL to one tile memory holds. -/
def fillAct (e : Nat) (w : BitVec 256) (s : State) : Eff :=
  let tgt := pF w 0 1
  if 4 ≤ (s.arr.fills.filter (fun f => f.tgt == tgt)).length then .hold s
  else
    let src := (regRead s (getE s e) (pF w 21 5)).toNat
    let g := getE s e
    .act (setE { s with arr := { s.arr with fills := s.arr.fills ++
      [{ tgt := tgt, trow := pF w 1 10, rows := pF w 11 10, src := src, nblog := pF w 26 3, serial := g.eff + 1 }] } } e
      { g with eff := g.eff + 1 })

/-- FILL. -/
def fillWord (e : Nat) (w : BitVec 256) (s : State) : State :=
  issue s e w
    (when (pF w 11 10 == 0 || decide (768 < pF w 1 10 + pF w 11 10) || decide (5 < pF w 26 3)) 1
      ++ rsvReason (pF w 29 91) ++ when (!regReadable (pF w 21 5)) 3 ++ singleCycle w)
    (fillAct e w)

/-- Map Store row index of destination row `i` of a FILL (R206). -/
def fillRow (f : FillReq) (i : Nat) : Nat := f.src + (i % 2 ^ f.nblog) * 16384 + i / 2 ^ f.nblog

/-- FILL_ROW_ARRIVE (R206): the next row of the oldest pending FILL to a tile memory is written. A source row outside Map
Store completes under R36, and a row in a powered-down quarter under R29; the row then stays unwritten (R223). -/
def fillArrive (tgt : Nat) (s : State) : State :=
  match s.arr.fills.find? (fun f => f.tgt == tgt && decide (f.done < f.rows)) with
  | none => s
  | some f =>
    let a := mapBase + fillRow f f.done * 512
    let m := engMaster 0 (getE s 0).part
    let upd := fun (s : State) (f' : FillReq) =>
      let l := s.arr.fills.map (fun x => if x = f then f' else x)
      { s with arr := { s.arr with fills := l.filter (fun x => decide (x.done < x.rows) || !x.bad.isEmpty) } }
    if region a ≠ .mapStore then unreachable (upd s { f with done := f.done + 1, bad := f.bad ++ [f.done] }) m 2 a
    else
      let r := busRead s m (if tgt = 0 then .west else .north) a 512
      if r.poison then engHalt r.s 0
      else memPut (upd r.s { f with done := f.done + 1 }) (tileAddr tgt + 512 * (f.trow + f.done)) r.data

/-- The load in the background waits for a row that a FILL has yet to write to tile memory 1 (R202). -/
def loadWaits (s : State) (row : Nat) : Bool :=
  match s.arr.op, s.arr.shadow with
  | some o, some l => l.set.isNone && decide (l.trow ≤ row) && decide (row < l.trow + setRows o.fmtN l.k l.n)
  | _, _ => false

/-- The cycles that the load waited for the row that arrives next count in ARR_UTIL_STALL (R202, R222). -/
def loadWaited (x : RowArrival) (s : State) : State :=
  match s.arr.fills.find? (fun f => f.tgt == x.tgt && decide (f.done < f.rows)) with
  | some f => if x.tgt = 1 ∧ loadWaits s (f.trow + f.done) then { s with arr := { s.arr with stall := s.arr.stall + x.waited } } else s
  | none => s

/-- FILL_ROW_ARRIVE. -/
def execFillRowArrive (x : RowArrival) (s : State) : Host.Outcome State Fault Refusal := .next (fillArrive x.tgt (loadWaited x s))

/-! ### SAFE and OPEND (R207, R208) -/

/-- A SAFE word is at a safe point, inside an operation or between two: the last step issued ended a tile and no output-stationary unload
is in progress (R78, R207). -/
def atSafePoint (s : State) : Bool := s.arr.atTileEnd && s.arr.shares.all (fun x => x.slot2.isNone)

/-- A safe point is reached while a request waits (R275, R276): entry begins. The step's engines issue nothing more, but for a stream DMA
engine inside a block of a CRYPT transfer, which goes on to the block's end. -/
def enterLayby (s : State) : State :=
  match s.sch.run with
  | none => s
  | some x =>
    let fr := x.engs.map (fun y => (y.1, (getE s y.1).st))
    let s := x.engs.foldl (fun s y => if (getE s y.1).st = .idle ∨ midBlock s y.1 then s else setE s y.1 { getE s y.1 with st := .held }) s
    let s := x.engs.foldl (fun s y => if 2 ≤ y.1 ∧ midBlock s y.1 = false then returnSpare s y.1 else s) s
    closeStep { s with sch := { s.sch with phase := 1, frozen := fr, wins := [] } }

/-- SAFE (R207): at a safe point a pending lay-by request is taken, and entry begins; elsewhere it is a NOP. -/
def safeWord (e : Nat) (w : BitVec 256) (s : State) : State :=
  let s1 := issue s e w (rsvReason (pF w 0 120)) .act
    if e = 0 ∧ (getE s e).st = .run ∧ (getE s1 e).st = .run ∧ atSafePoint s ∧ s.sch.phase = 3 then enterLayby s1 else s1

/-- OPEND (R208): the operation closes; its last results follow. -/
def opendWord (e : Nat) (w : BitVec 256) (s : State) : State :=
  issue s e w (when s.arr.op.isNone 1 ++ rsvReason (pF w 0 120) ++ singleCycle w)
    (fun s => .act { s with arr := { s.arr with op := none, closing := s.arr.closing + 1 } })

/-- OPERATION_END (R75, R96, R208): the last results of the closed operations have been written and checked. A 0 written to
ARR_CTL.ENABLE meanwhile takes effect. -/
def operationEnd (s : State) : State :=
  if s.arr.shares.isEmpty then
    if s.arr.closing = 0 then s else applyDisable { s with arr := { s.arr with closing := 0 } } 0
  else s

/-- OPERATION_END. -/
def execOperationEnd (s : State) : Host.Outcome State Fault Refusal := .next (operationEnd s)

/-! ### TILE_CHECK (R82 to R88) -/

/-- A value may enter a floating-point check (R86). -/
def finite32 (a : Nat) : Bool := !isNaN32 a && !isInf32 a

/-- The exact magnitude of an FP32 code, as numerator over 2^149. -/
def scaled149 (a : Nat) : Int :=
  match fp32.decode a with
  | .fin n x y => let m : Int := ((x * 2 ^ 149 / y : Nat) : Int); if n then -m else m
  | _ => 0

/-- What one check gives. -/
inductive Check where
  | pass | fail | skip
  deriving DecidableEq, Repr

/-- One check (R84, R85, R86): reference, compared sum, and the outputs summed into it. -/
def checkOne (fp : Bool) (tol : Nat) (r v : Nat) (ys : List Nat) : Check :=
  if fp then
    if !(finite32 r && finite32 v && ys.all finite32) then .skip
    else
      let a := (scaled149 r).natAbs; let b := (scaled149 v).natAbs
      let m := ys.foldl (fun t y => max t (scaled149 y).natAbs) (max a b)
      if m = 0 then .pass
      else
        let e := max (floorLog2 m (2 ^ 149)) (-126)
        let ulp := pow2 (e - 23 + 149)
        if (scaled149 r - scaled149 v).natAbs * ulp.2 ≤ tol * ulp.1 then .pass else .fail
  else if r = v then .pass else .fail

/-- Sum of outputs as the accumulator write path or the border row forms it (R82). -/
def sumOut (fp : Bool) (ys : List Nat) : Nat := ys.foldl (accAdd fp) 0

/-- The row checks of a share, by vector (R82). -/
def rowChecks (tol : Nat) (sh : Share) : List Check :=
  (List.range sh.vecs.length).map (fun i =>
    let ys := (nth sh.vecs i (0, [])).2
    checkOne sh.fp tol (nth sh.rowRef i 0) (sumOut sh.fp ys) ys)

/-- The column checks over vectors, by lane (R82, R83). -/
def colChecks (tol : Nat) (fp : Bool) (ref : List Nat) (vecs : List (Nat × List Nat)) : List Check :=
  (List.range ref.length).map (fun n =>
    let ys := vecs.map (fun x => nth x.2 n 0)
    checkOne fp tol (nth ref n 0) (sumOut fp ys) ys)

/-- A failed check charges a counter, and at the threshold the automatic mode asks for retirement (R88, R92). -/
def chargeCol (s : State) (i : Nat) : State :=
  let n := min (colCount s i + 1) 255
  let s := { s with arr := { s.arr with colCnt := tabPut s.arr.colCnt i n 0 } }
  if i < 256 ∧ isSet s F.ARR_CTL_RETIRE_MODE = false ∧ getF s F.ARR_CTL_RETIRE_THRESH ≤ n ∧ bitOf s.arr.retired i = false
      ∧ s.arr.retireReq.contains i = false then
    { s with arr := { s.arr with retireReq := s.arr.retireReq ++ [i] } }
  else s

/-- Indices of the failed checks. -/
def failedAt (l : List Check) : List Nat := (List.range l.length).filter (fun i => nth l i .pass == .fail)

/-- The counters a failed tile share charges (R67, R88): the physical column of each failing logical one, the border row or the border column.
A border is charged once for the share, however many of its checks failed: R88 says 'exactly one counter' and gives no count for several
(log entry 199). -/
def chargeFails (s : State) (rows cols : List Check) : State :=
  if (failedAt cols).isEmpty then chargeCol s 256
  else if (failedAt rows).isEmpty then chargeCol s 257
  else ((failedAt cols).map (physCol s)).foldl chargeCol s

/-- Results of an upset: the lanes of the vectors it names, changed (the fault the border exists to catch). -/
def upsetVecs (vecs : List (Nat × List Nat)) (up : List (Nat × Nat × BitVec 32)) : List (Nat × List Nat) :=
  vecs.map (fun x => (x.1, up.foldl (fun ys u => if u.1 = x.1 then ys.set u.2.1 (Nat.xor (nth ys u.2.1 0) u.2.2.toNat) else ys) x.2))

/-- Writes vectors of a share into one of its slots (R70, R205): under FIRST the pass's results replace what the slot holds, starting from
zero, and otherwise they are added lane by lane. The slot's depth grows once for each pass (R97); a second share of the pass leaves
the vectors of the first. -/
def writeVecs (s : State) (sh : Share) (i : Nat) (vecs : List (Nat × List Nat)) : State :=
  let x := getSlot s i
  let more := x.pass == some sh.pass
  let fresh := sh.first && !more
  let acc := vecs.foldl (fun t v =>
    let k := 512 * i + v.1
    let old := if sh.first then [] else tabGet t k []
    tabPut t k (if sh.slot2.isSome then v.2 else
      (List.range (max old.length v.2.length)).map (fun n => accAdd sh.fp (nth old n 0) (nth v.2 n 0))) [])
    (if fresh then tabDrop s.arr.acc (512 * i) 512 else s.arr.acc)
  let err := vecs.foldl (fun t v => tabPut t (512 * i + v.1) 0 0) (if fresh then tabDrop s.arr.accErr (512 * i) 512 else s.arr.accErr)
  let n := vecs.foldl (fun t v => max t (v.1 + 1)) (if fresh then 0 else x.vecs)
  setSlot { s with arr := { s.arr with acc := acc, accErr := err } } i
    { x with vecs := n, depth := if more then x.depth else if sh.first then sh.depth else x.depth + sh.depth, pass := some sh.pass,
             complete := x.complete || sh.last }

/-- Writes a share's vectors into its slot, or an output-stationary tile's array rows into its two slots (R205). -/
def writeShare (s : State) (sh : Share) (vecs : List (Nat × List Nat)) : State :=
  let s := writeVecs s sh sh.slot (vecs.filter (fun v => decide (v.1 < 512)))
  match sh.slot2 with
  | some j => writeVecs s sh j ((vecs.filter (fun v => decide (512 ≤ v.1))).map (fun v => (v.1 - 512, v.2)))
  | none => s

/-- The slots of a completed tile pass to draining: alone, or with every tile of its row group (R205). -/
def passToDrain (s : State) (i : Nat) : State :=
  let x := getSlot s i
  if x.rowgroup < 2 then setSlot s i { x with st := .draining }
  else
    let g0 := x.ot / x.rowgroup * x.rowgroup
    let mem := (List.range 8).filter (fun j => let y := getSlot s j
      y.st == .live && y.optag == x.optag && decide (g0 ≤ y.ot) && decide (y.ot < g0 + x.rowgroup))
    if mem.length = x.rowgroup ∧ mem.all (fun j => (getSlot s j).complete) then
      mem.foldl (fun s j => setSlot s j { getSlot s j with st := .draining }) s
    else s

/-- A tile's failed checks (R87, R88): the counters, ARRAY_CHECKSUM with the first failing check, and the array stops. The record
names the kind of check by a number that the spec does not give: 0 a row check, 1 a column check; the row is the vector's, or the array row of
an output-stationary tile (log entry 199). -/
def tileFails (s : State) (sh : Share) (rows cols : List Check) : State :=
  let nf := (failedAt rows).length + (failedAt cols).length
  let s := bump s F.ARR_CHK_STAT_FAILS nf
  let s := chargeFails s rows cols
  let d := match failedAt rows, failedAt cols with
    | r :: _, _ => [sh.opid, sh.ot, 0, (nth sh.vecs r (0, [])).1]
    | [], c :: _ => [sh.opid, sh.ot, 1, c]
    | [], [] => [sh.opid, sh.ot]
  engFault s 0 0x0111 d

/-- TILE_CHECK (R82 to R88, R205): the oldest share's checks are evaluated on its results as they reach the write path,
`up` being what an upset changed in them. A share that passes is written to its slot; its tile passes to draining after
LAST. -/
def tileCheck (up : List (Nat × Nat × BitVec 32)) (s : State) : State :=
  match s.arr.shares with
  | [] => s
  | sh :: rest =>
    let s := { s with arr := { s.arr with shares := rest } }
    let vecs := upsetVecs sh.vecs up
    let sh' := { sh with vecs := vecs }
    let tol := getF s F.ARR_CHK_CTL_TOL_ULP
    let rows := if sh.chk then rowChecks tol sh' else []
    let cols := if sh.chk then colChecks tol sh.fp sh.colRef vecs else []
    let skips := (rows ++ cols).countP (· == .skip)
    let s := bump s F.ARR_CHK_STAT_SKIPS skips
    if (failedAt rows).isEmpty ∧ (failedAt cols).isEmpty then
      let s := writeShare s sh' vecs
      if sh.last then (sh.slot :: sh.slot2.toList).foldl passToDrain s else s
    else tileFails s sh' rows cols

/-- TILE_CHECK. -/
def execTileCheck (up : List (Nat × Nat × BitVec 32)) (s : State) : Host.Outcome State Fault Refusal := .next (tileCheck up s)

/-! ### Retirement, groups and the array's register commands (R92 to R96) -/

/-- The write of ARR_COL_RETIRE_REQ (R92, R96): a column of 256 or above is ignored. -/
def retireReqWrite (m : Master) (v : Nat) (s : State) : State :=
  gated s false 1 0x28 m v (fun s =>
    let c := v % 512
    if c < 256 ∧ s.arr.retireReq.contains c = false ∧ bitOf s.arr.retired c = false then
      { s with arr := { s.arr with retireReq := s.arr.retireReq ++ [c] } } else s)

/-- ARR_COL_RETIRE_REQ. -/
def execArrColRetireReq (m : Master) (v : BitVec 32) (s : State) : Host.Outcome State Fault Refusal := .next (retireReqWrite m v.toNat s)

/-- W has fallen below 240 (R93): once, ARRAY_OUT_OF_SERVICE. The record's DETAIL[0] carries W, which R93 does not name (log entry 200). -/
def checkService (s : State) : State :=
  if widthW s < 240 ∧ s.arr.outOfService = false then
    raiseDevice (setF { s with arr := { s.arr with outOfService := true } } F.ARR_STAT_OUT_OF_SERVICE 1) false 0x0114 1 0xFFFF
      [widthW s]
  else s

/-- RETIREMENT_APPLY (R92, R93): the oldest pending retirement, while the sequencer is idle and no lay-by is in progress. -/
def retireApply (s : State) : State :=
  match s.arr.retireReq with
  | [] => s
  | c :: rest =>
    if arrBusy s ∨ laybyBusy s then s
    else
      let s := { s with arr := { s.arr with retireReq := rest, retired := Nat.lor s.arr.retired (2 ^ c) } }
      checkService (raise s false 0x0113 0 none 1 0xFFFF [c, widthW s])

/-- RETIREMENT_APPLY. -/
def execRetirementApply (s : State) : Host.Outcome State Fault Refusal := .next (retireApply s)

/-- GROUP_POWER_UP (R94): a settling column group is up. -/
def execGroupPowerUp (g : Nat) (s : State) : Host.Outcome State Fault Refusal :=
  .next { s with arr := { s.arr with settling := s.arr.settling.filter (· != g) } }

/-- The elements of a set in the physical columns of a powered-down group are lost (R30). -/
def loseCols (g : Nat) (st : StatSet) : StatSet :=
  { st with els := st.els.zipIdx.map (fun x => if nth st.phys (x.2 % st.n) 256 / 16 = g then 0 else x.1) }

/-- A powered-down column group loses its cells, its stationary registers and the accumulator lanes of its columns (R27, R30, R67). -/
def loseGroup (s : State) (g : Nat) : State :=
  { s with arr := { s.arr with
      cells := s.arr.cells.filter (fun x => x.1 % 256 / 16 != g),
      active := loseCols g s.arr.active, shadow := s.arr.shadow.map (fun l => { l with set := l.set.map (loseCols g) }),
      acc := s.arr.acc.map (fun x => (x.1, x.2.zipIdx.map (fun l => if physCol s l.2 / 16 = g then 0 else l.1))),
      borderCol := if g = 15 then [] else s.arr.borderCol, borderRow := if g = 0 then [] else s.arr.borderRow } }

/-- The power of the column groups follows GROUP_ON (R94): groups that come up settle. -/
def applyGroups (s : State) (mask : Nat) : State :=
  let on := (List.range 16).filter (fun g => bitOf mask g)
  let off := (List.range 16).filter (fun g => !bitOf mask g)
  let up := on.filter (fun g => s.pwr.off.contains g)
  let s := (off.filter (fun g => !s.pwr.off.contains g)).foldl loseGroup s
  { s with pwr := { s.pwr with off := (s.pwr.off.filter (fun d => !up.contains d)) ++ off.filter (fun g => !s.pwr.off.contains g) },
           arr := { s.arr with settling := s.arr.settling.filter (fun g => !off.contains g) ++ up } }

/-- The write of ARR_CTL (R96, R505): the RW-D fields act while ENABLE reads 0; a 0 written to ENABLE during an operation
waits for its end. -/
def arrCtlWrite (m : Master) (v : Nat) (s : State) : State :=
  gated s false 1 0x10 m v (fun s =>
    let open_ := !isSet s F.ARR_CTL_ENABLE
    let th := if bitsOf v 8 8 = 0 then 1 else bitsOf v 8 8
    let bad := ignoredChange s open_ F.ARR_CTL_FUSE_BYPASS (bitsOf v 1 1) || ignoredChange s open_ F.ARR_CTL_RETIRE_EN (bitsOf v 2 1)
      || ignoredChange s open_ F.ARR_CTL_RETIRE_MODE (bitsOf v 3 1) || ignoredChange s open_ F.ARR_CTL_RETIRE_THRESH th
      || ignoredChange s open_ F.ARR_CTL_GROUP_ON (bitsOf v 16 16)
    let s := if bad then cfgIgnored s false 1 0x10 m v else s
    let s := wrField s open_ F.ARR_CTL_FUSE_BYPASS (bitsOf v 1 1)
    let s := wrField s open_ F.ARR_CTL_RETIRE_EN (bitsOf v 2 1)
    let s := wrField s open_ F.ARR_CTL_RETIRE_MODE (bitsOf v 3 1)
    let s := wrField s open_ F.ARR_CTL_RETIRE_THRESH th
    let s := if open_ then applyGroups (setF s F.ARR_CTL_GROUP_ON (bitsOf v 16 16)) (bitsOf v 16 16) else s
    let s := checkService s
    if bitOf v 0 then setF { s with arr := { s.arr with disablePending := false } } F.ARR_CTL_ENABLE 1
    else if !arrBusy s then setF s F.ARR_CTL_ENABLE 0
    else { s with arr := { s.arr with disablePending := true } })

/-- ARR_CTL_WRITE. -/
def execArrCtlWrite (m : Master) (v : BitVec 32) (s : State) : Host.Outcome State Fault Refusal := .next (arrCtlWrite m v.toNat s)

/-- The write of ARR_COLCNT (R96): it sets the selected counter; no counter is selected above 257. -/
def colcntWrite (m : Master) (v : Nat) (s : State) : State :=
  gated s false 1 0x30 m v (fun s =>
    let i := getF s F.ARR_COLCNT_SEL_SEL
    if i < 258 then { s with arr := { s.arr with colCnt := tabPut s.arr.colCnt i (v % 256) 0 } } else s)

/-- ARR_COLCNT_WRITE. -/
def execArrColcntWrite (m : Master) (v : BitVec 32) (s : State) : Host.Outcome State Fault Refusal := .next (colcntWrite m v.toNat s)

end Sys2Proof.Machine
end

