-- ==== Sys2Proof/Machine/Tensor.lean ====
section
/-! DEFINITION. An engine's first use of a tensor descriptor (R225, R233). -/

namespace Sys2Proof.Machine

/-- What the first use of a descriptor gives: the descriptor, or an engine that has stopped. -/
inductive Use where
  | ok (s : State) (d : TDesc)
  | stop (s : State)
  deriving DecidableEq, Repr

/-- First use of the descriptor at `a` by engine `e` (R225, R233 item 4, R152). -/
def useDesc (s : State) (e : Nat) (port : Port) (a : Nat) (written dma : Bool) : Use :=
  let r := busRead s (engMaster e (getE s e).part) port a 64
  if r.poison then .stop (engHalt r.s e)
  else
    let d : TDesc := { addr := a, raw := r.data }
    match d.bad written dma with
    | some c => .stop (engFault r.s e 0x0140 [c, a])
    | none => if !written && d.chkc && !d.commit then .stop (engFault r.s e 0x0141 []) else .ok r.s d

end Sys2Proof.Machine
end

