-- ==== Sys2Proof/Machine/Drain.lean ====
section
/-! DEFINITION. The drain (R105 to R128, R209 to R214, R231 to R236): chains and their checks, stage arithmetic,
quantisation, scale rows, the optimiser stage, commits, deposits and DRN_CTL. -/

namespace Sys2Proof.Machine

/-! ### Stage records (R210, R211) -/

/-- A stage record from its 32 bytes (R210). -/
def parseStage (r : Bytes) : Stage :=
  let c := leAt r 0 1; let f := leAt r 1 1
  { code := c % 16, perCh := bitOf f 0, tsrc := bitOf f 1, round := bitsOf f 2 2, mode := bitsOf f 4 2, odom := bitOf f 6,
    static := bitOf f 7, fmt := leAt r 2 1, reg := leAt r 3 1, trow := leAt r 4 4, tstride := leAt r 8 2,
    p0 := leAt r 12 4, p1 := leAt r 16 4, p2 := leAt r 20 4, aux := leAt r 24 8, rsv := c / 16 + 16 * leAt r 10 2 }

/-- The stages in force: those before an End of chain record (R209). -/
def activeStages : List Stage → List Stage
  | [] => []
  | s :: r => if s.code = 0 then [] else s :: activeStages r

/-- The quantise stage of a chain. -/
def quantOf (ch : List Stage) : Option Stage := ch.find? (fun s => s.code == 8)

/-- The table fields of a record are zero. -/
def noTable (s : Stage) : Bool := !s.perCh && !s.tsrc && s.trow == 0 && s.tstride == 0

/-- The table fields of a record with one table are zero where it has none, and TSTRIDE in any case. -/
def oneTable (s : Stage) : Bool := if s.perCh then s.tstride == 0 else noTable s

/-- Stage fields that the stage does not use are zero (R211); under FORCE_STATIC 0 the static values are ignored (R126). A per-tensor stage
uses no table field and a per-channel one none of the parameters that its tables replace; ROUND, which R211 lists for the whole rescale
stage, and the bits of P0 and P1 above the named ones are taken as used, and may hold anything (log entry 208). -/
def unusedOk (s : Stage) (force : Bool) : Bool :=
  let z := fun (rd md od fm rg p0 p1 p2 ax : Bool) =>
    (rd || s.round == 0) && (md || s.mode == 0) && (od || !s.odom) && (fm || s.fmt == 0) && (rg || s.reg == 0)
      && (p0 || s.p0 == 0) && (p1 || s.p1 == 0) && (p2 || s.p2 == 0) && (ax || s.aux == 0)
  match s.code with
  | 1 => z false false false false false (!s.perCh) false false false && oneTable s
  | 2 => z true false true false false (!s.perCh) (!s.perCh && !s.odom) false false
      && (if s.odom then oneTable s else s.perCh || noTable s)
  | 3 => z false false false false false true false false false && s.tstride == 0
  | 4 => z false false false false false true true false false && noTable s
  | 5 => z false false false false false true true false false && !s.perCh && s.tstride == 0
  | 6 => z true false false true false true true true true && noTable s
  | 7 => z false true false false true false false false false && noTable s
  | 8 =>
    if s.mode = 0 then z true true false true false (!s.perCh) (!s.perCh) (!s.perCh) false && (s.perCh || noTable s)
    else if !s.static then z true true false true false true false false true && noTable s
    else if !force then z true true false true false true true true true
    else if s.perCh then z true true false true false true false false true
    else z true true false true false true true true true && !s.tsrc && s.trow == 0 && s.tstride == 0
  | _ => z true false false false false false false false true && noTable s

/-- Integer formats of R199. -/
def fmtInt (c : Nat) : Bool := c == 0 || c == 1 || c == 6 || c == 7

/-- QMAX of R118, for the formats that per-row and per-segment modes accept. -/
def qmax (c : Nat) : Option Nat :=
  match c with
  | 0 => some 127 | 1 => some 7 | 2 => some 448 | 3 => some 57344
  | _ => none

/-- The reasons of R127 that a stage gives on its own, in the domain `fp` it receives. -/
def stageReasons (s : Stage) (fp force last alone : Bool) : List Nat :=
  let sr := s.round == 2
  when (decide (9 < s.code) || s.rsv != 0 || s.round == 3 || (s.static && !(s.code == 8 && (s.mode == 1 || s.mode == 2)))
      || !unusedOk s force) 1
  ++ (match s.code with
    | 2 => when (fp && !s.odom) 2 ++ when sr 5
    | 3 => when fp 2
    | 5 => when (bitsOf s.p0 23 8 == 255) 1 ++ when (!fp) 2
    | 6 => when (decide (8 < s.fmt)) 1
        ++ when (decide (s.fmt ≤ 8) && (if fp then s.fmt == 0 || s.fmt == 1 || s.fmt == 6 || s.fmt == 7
            else !(s.fmt == 0 || s.fmt == 6 || s.fmt == 7))) 2
        ++ when sr 5
    | 7 => when (decide (1 < s.mode) || decide (15 < s.reg)) 1
    | 8 => when (s.mode == 3 || decide (8 < s.fmt)) 1 ++ when (!last) 3
        ++ (if s.mode = 0 then when (!fp && decide (s.fmt ≤ 8) && !fmtInt s.fmt) 2 ++ when (sr && fmtInt s.fmt) 5
            else when (decide (s.fmt ≤ 8) && (qmax s.fmt).isNone) 4 ++ when (force && !s.static) 6
              ++ when (force && sr && fmtInt s.fmt) 5)
    | 9 => when (!alone) 3
    | _ => [])

/-- The domain a stage hands on. -/
def stageDom (s : Stage) (fp : Bool) : Bool := if s.code = 2 then s.odom else fp

/-- The reasons of a chain from stage to stage (R107, R127). -/
def chainReasons (force alone : Bool) : List Stage → Bool → List Nat
  | [], _ => []
  | s :: r, fp => stageReasons s fp force r.isEmpty alone ++ chainReasons force alone r (stageDom s fp)

/-- The lowest reason a chain gives with vectors of a domain (R127). -/
def chainBad (ch : List Stage) (force fp : Bool) : Option Nat := lowest (chainReasons force (ch.length ≤ 1) ch fp)

/-- The domain and then the element format that a chain hands on (R105). -/
def chainOut (fp : Bool) : List Stage → Nat
  | [] => if fp then 8 else 7
  | [s] => if s.code = 8 then s.fmt else if stageDom s fp then 8 else 7
  | s :: r => chainOut (stageDom s fp) r

/-- The reason that refuses a chain: the lowest one in the domain of the open operation (R107, R127). With no operation open the domain is not
known yet (log entry 69): a chain that is good in one domain passes, and one that is bad in both gives the lowest reason common to both. -/
def chainRefusal (dom : Option Bool) (f : Bool → List Nat) : Option Nat :=
  match dom with
  | some fp => lowest (f fp)
  | none =>
    if (f false).isEmpty || (f true).isEmpty then none
    else match lowest ((f false).filter (f true).contains) with
      | some r => some r
      | none => lowest (f false ++ f true)

/-! ### Deposits and scale rows (R111, R121) -/

/-- The reduce stage's value as it is deposited (R111): INT MAX and SUM (narrowed by `sat32`), or the FP32 pattern. -/
def reduceValue (v : Bool × Int) : Nat := wrapU 32 (sat32 v.2)

/-- FP reduce values are codes, carried as two's complement; their deposit is the code. -/
def depositOf (ch : List Stage) (ser i : Nat) (v : Bool × Int) : Nat × Nat × Nat :=
  ((ch[i]?.map Stage.reg).getD 0, reduceValue v, ser)

/-- The running values go out as deposits (R111). -/
def sendDeposits (s : State) : State :=
  { s with drn := { s.drn with deposits := s.drn.deposits ++ s.drn.reduce.map (fun x => depositOf s.drn.chain s.drn.redSer x.1 x.2),
                               reduce := [] } }

/-- The scale row a descriptor's held entries make: every entry of the row in bounds, FILL where none was produced (R121). -/
def scaleRow (d : TDesc) (row : Nat) (ent : Tab Nat) : Tab Nat :=
  ((List.range 128).filter (fun i => d.isElem (1024 * row + 8 * i))).map (fun i =>
    (1024 * row + 8 * i, tabGet ent (1024 * row + 8 * i) d.fill))

/-- The held scale row is written (R121). -/
def flushScale (s : State) : State :=
  match s.drn.scale with
  | none => s
  | some (a, row, ent) =>
    let d := tdesc s a
    tensWrite { s with drn := { s.drn with scale := none } } (engMaster 1 (getE s 1).part) .drainW d (scaleRow d row ent)

/-- An entry of the scale tensor is produced: an entry of another row first writes the held row (R121). -/
def addScale (s : State) (a : Nat) (c : Int × Int × Int × Int) (v : Nat) : State :=
  let d := tdesc s a
  match d.coords c.1 c.2.1 c.2.2.1 c.2.2.2 with
  | none => s
  | some c =>
    let no := d.nibOff c
    let row := no / 1024
    let s := match s.drn.scale with
      | some (a', r', _) => if a' = a ∧ r' = row then s else flushScale s
      | none => s
    let ent := (s.drn.scale.map (·.2.2)).getD []
    { s with drn := { s.drn with scale := some (a, row, tabPut ent no v (d.fill + 2 ^ 32)) } }

/-- What a CHAIN, COMMIT or HALT word does before it acts (R111, R121). -/
def drainSettle (s : State) : State := flushScale (sendDeposits s)

/-- HALT (R161, R191): the program ends after this word; on the drain the held scale row is written first, and the reduce
stages' values are deposited (R111, R121). -/
def haltWord (e : Nat) (w : BitVec 256) (s : State) : State :=
  issue s e w (when (wBrOp w != 0 || wLoopOp w != 0) 9 ++ when (e == 0 && s.arr.op.isSome) 10)
    (fun s => .act (if e = 1 then drainSettle s else s))

/-- The operation whose vectors the running values fold is over: it is closed, and every slot of it has been drained (R111). -/
def redOver (s : State) : Bool :=
  s.arr.op.all (fun o => o.ser != s.drn.redOp) && s.arr.slots.all (fun x => x.st == .free || x.ser != s.drn.redOp)

/-- REDUCE_DEPOSIT (R111, R173): a deposit lands in the array sequencer's scalar register. The value of an operation that
has ended is sent first where it is still running. -/
def reduceDeposit (s : State) : State :=
  let s := if s.drn.deposits = [] ∧ redOver s then sendDeposits s else s
  match s.drn.deposits with
  | [] => s
  | (r, v, _) :: rest =>
    let g := getE s 0
    setE { s with drn := { s.drn with deposits := rest } } 0 { g with sregs := g.sregs.set r (BitVec.ofNat 32 v) }

/-- REDUCE_DEPOSIT. -/
def execReduceDeposit (s : State) : Host.Outcome State Fault Refusal := .next (reduceDeposit s)

/-! ### CHAIN (R209, R107, R233) -/

/-- A DRAIN_CONFIG fault (R127). -/
def drainConfig (s : State) (r : Nat) : State := engFault s 1 0x0117 [r]

/-- Lanes seeded under R103. -/
def seedLanes (s : State) : List (BitVec 32) := (List.range 256).map (lfsrSeed (getF s F.DRN_LFSR_SEED_SEED))

/-- AG `k`'s address in a word's first cycle. -/
def agFirstAddr (g : Engine) (w : BitVec 256) (k : Nat) : Nat :=
  let a := nth g.ags k {}
  agAddr a (agFirst a (wAgc w k)).p

/-- The commit bit of an output's descriptor is cleared at its first use (R233). -/
def clearOut (s : State) (a : Nat) : State ⊕ State :=
  let r := putCommit s (engMaster 1 (getE s 1).part) a false
  if r.2 then .inl (engHalt r.1 1) else .inr r.1

/-- First use of a written descriptor by the drain, whose commit bit is cleared (R233). -/
def openOut (s : State) (a : Nat) : Use :=
  match useDesc s 1 .drainR a true false with
  | .stop s => .stop s
  | .ok s d => match clearOut s a with
    | .inl s => .stop s
    | .inr s => .ok s d

/-- The scale descriptor of a chain that ends in a per-row or per-segment quantise stage (R121). -/
def scaleDesc (ch : List Stage) : Option Nat := (quantOf ch).bind (fun q => if q.mode = 0 then none else some q.aux)

/-- A chain's scale descriptor is used (R225); the state comes back with its format, FP32 where there is none. -/
def openScale (s : State) (ch : List Stage) : State ⊕ (State × Nat) :=
  match scaleDesc ch with
  | none => .inr (s, 8)
  | some a => match useDesc s 1 .drainR a true false with
    | .stop s => .inl s
    | .ok s d => .inr (s, d.fmt)

/-- The row length of the optimiser's gradient tensor is a multiple of 256 elements (R122): its descriptor is the first of the list at
AUX. The check belongs to CHAIN, since R122 places none elsewhere (R127). -/
def gradOk (s : State) (ch : List Stage) : State ⊕ (State × Bool) :=
  match ch.find? (fun x => x.code == 9) with
  | none => .inr (s, true)
  | some st =>
    let r := busRead s (engMaster 1 (getE s 1).part) .drainR st.aux 8
    if r.poison then .inl (engHalt r.s 1)
    else .inr (r.s, decide ((tdesc r.s (leVal r.data % 2 ^ 48)).dim 0 % 256 = 0))

/-- Reads rows of tile memory 2 with their ECC checks (R151, R152): the state, and whether one of them was poisoned. -/
def tileRows (s : State) (rows : List Nat) : State × Bool :=
  rows.foldl (fun q r => let x := eccRead q.1 (engMaster 1 (getE s 1).part) (tileAddr 2 + 512 * r); (x.1, q.2 || x.2)) (s, false)

/-- Reasons CHAIN gives at issue (R198): its records reach past row 767. -/
def chainIssue (w : BitVec 256) : List Nat :=
  when (decide (pF w 0 4 ≤ 8) && decide (768 * 16 < pF w 4 10 * 16 + pF w 14 4 + pF w 0 4)) 1 ++ rsvReason (pF w 22 98)
    ++ singleCycle w

/-- The stage records a CHAIN word names. -/
def chainRecords (s : State) (w : BitVec 256) : List Stage :=
  (List.range (pF w 0 4)).map (fun j =>
    parseStage (memRead s.mem (tileAddr 2 + 512 * pF w 4 10 + 32 * (pF w 14 4 + j)) 32))

/-- CHAIN acts (R209): deposits and the held scale row go out, the chain is checked with its descriptors (R127), and then RESEED seeds the
lanes and the commit bits of its outputs are cleared. -/
def chainAct (w : BitVec 256) (s : State) : Eff :=
  let s := drainSettle s
  let g := getE s 1
  let n := pF w 0 4
  if 8 < n then .stopped (drainConfig s 8)
  else
    let row := tileRows s ((List.range ((pF w 14 4 + n + 15) / 16)).map (pF w 4 10 + ·))
    if row.2 ∧ n ≠ 0 then .stopped (engHalt row.1 1)
    else
      let s := if n = 0 then s else row.1
      let ch := activeStages (chainRecords s w)
      let dom := s.arr.op.map (fun o => fmtFp o.fmtW)
      let own := fun fp => chainReasons s.drn.force (ch.length ≤ 1) ch fp
      match chainRefusal dom own with
      | some r => .stopped (drainConfig s r)
      | none => match useDesc s 1 .drainR (agFirstAddr g w 0 + 64 * pF w 19 3) true false with
        | .stop s => .stopped s
        | .ok s d => match openScale s ch with
          | .inl s => .stopped s
          | .inr (s, sf) => match gradOk s ch with
            | .inl s => .stopped s
            | .inr (s, ok) =>
              let opt := ch.any (fun x => x.code == 9)
              match chainRefusal dom (fun fp => own fp ++ when (!opt && chainOut fp ch != d.fmt || sf != 8) 2 ++ when (!ok) 7) with
              | some r => .stopped (drainConfig s r)
              | none =>
                let s := if pF w 18 1 = 1 then { s with drn := { s.drn with lfsr := seedLanes s } } else s
                match clearOut s d.addr with
                | .inl s => .stopped s
                | .inr s =>
                  let s := { s with drn := { s.drn with chain := ch, chainSet := true, outDesc := d.addr, reduce := [] } }
                  match scaleDesc ch with
                  | none => .act s
                  | some a => match clearOut s a with
                    | .inl s => .stopped s
                    | .inr s => .act s

/-- CHAIN. -/
def chainWord (w : BitVec 256) (s : State) : State :=
  issue s 1 w (chainIssue w) (chainAct w)

/-! ### Stage arithmetic (R108 to R126) -/

/-- A vector in the drain: lanes as 32-bit codes, their channels, which of them are in bounds, their output coordinates, and
its domain. -/
structure Vec where
  vals : List Nat
  chans : List Nat
  inb : List Bool
  pos : List (Int × Int × Int × Int)
  fp : Bool
  deriving DecidableEq, Repr

/-- What a vector's stages do beside its lanes: lane LFSRs, counted events, reduce values and scale entries. -/
structure Side where
  lfsr : List (BitVec 32)
  sat : Nat := 0
  nan : Nat := 0
  reduce : Tab (Bool × Int)
  scales : List Nat := []
  deriving DecidableEq, Repr

/-- Table `k` of a stage at channel `c` (R106, R211): tile memory 2 or Map Store. -/
def tableAddr (s : Stage) (k c : Nat) : Nat :=
  (if s.tsrc && s.code != 5 then mapBase else tileAddr 2) + 512 * (s.trow + k * s.tstride) + 4 * c

/-- A 32-bit table entry; past row 767 of tile memory 2 or past Map Store there is none, and the drain reads 0. -/
def tableVal (m : Mem) (s : Stage) (k c : Nat) : Nat :=
  let a := tableAddr s k c
  if region a = (if s.tsrc && s.code != 5 then .mapStore else .tile 2) then memLe m a 4 else 0

/-- Value `k` of a stage for channel `c`: its table, or P0 to P2 of a per-tensor stage (R211). -/
def stageVal (m : Mem) (s : Stage) (k c : Nat) : Nat :=
  if s.perCh then tableVal m s k c else if k = 0 then s.p0 else if k = 1 then s.p1 else s.p2

/-- Two's complement of a 32-bit code. -/
def i32 (v : Nat) : Int := sext 32 v
/-- The 32-bit code of an integer. -/
def u32 (v : Int) : Nat := wrapU 32 v

/-- Rounding mode of a stage with a lane's random bits (R101, R103). -/
def stageMode (s : Stage) (rnd : Nat) : RMode := if s.round = 1 then .rna else if s.round = 2 then .sr rnd else .rne

/-- `rn` of an exact value into FP32. -/
def rn32 (v : FV) : Nat := fp32.rn v

/-- An FP32 code, canonical where it is a NaN (R100). -/
def canon32 (v : Nat) : Nat := if isNaN32 v then fp32.nan else v

/-- The activation stage on one lane (R109). -/
def activation (m : Mem) (s : Stage) (v : Nat) : Nat :=
  match fp32.decode v with
  | .nan => fp32.nan
  | x =>
    let idx : Nat := match x with
      | .inf n => if n then 0 else 255
      | _ => match x.add (fp32.decode s.p0).neg with
        | .fin n a b =>
          let q := pow2 (-(sext 8 (s.p1 % 256)))
          (clampI (floorFV n (a * q.1) (b * q.2)) 0 255).toNat
        | _ => 0
    let a := tableVal m s 0 (2 * idx); let b := tableVal m s 0 (2 * idx + 1)
    if isInf32 v ∧ a % 2 ^ 31 = 0 then canon32 b
    else rn32 (((fp32.decode a).mul x).add (fp32.decode b))

/-- The residual stage on one lane (R110): `r` is the operand's code. -/
def residual (s : Stage) (fp : Bool) (v r : Nat) : Nat :=
  if fp then
    match fmtElem s.fmt with
    | some el => fAdd v (rn32 ((el.value r).mul (fp32.decode s.p0)))
    | none => v
  else
    let x := sext ((fmtElem s.fmt).map Elem.bits |>.getD 32) r
    u32 (sat32 (i32 v + roundShift ((x - i32 s.p2) * i32 s.p0) (s.p1 % 64) (s.round == 1)))

/-- Clip on FP32 codes: a NaN lane passes (R108). -/
def clipFp (lo hi v : Nat) : Nat :=
  if isNaN32 v then v
  else if !isNaN32 lo && decide (fNum v < fNum lo) then lo
  else if !isNaN32 hi && decide (fNum hi < fNum v) then hi
  else v

/-- Stages 1 to 6 on one lane; `res` is the residual operand's code. -/
def laneStage (m : Mem) (s : Stage) (fp : Bool) (c v res : Nat) : Nat :=
  match s.code with
  | 1 => if fp then fAdd v (stageVal m s 0 c) else u32 (sat32 (i32 v + i32 (stageVal m s 0 c)))
  | 2 =>
    if s.odom then
      rn32 ((if fp then fp32.decode v else fvInt (i32 v)).mul (fp32.decode (stageVal m s 0 c)))
    else u32 (sat32 (roundShift (i32 v * i32 (stageVal m s 0 c)) (stageVal m s 1 c % 64) (s.round == 1)))
  | 3 => u32 (wrap32 (i32 v - i32 s.p0 * i32 (tableVal m s 0 c)))
  | 4 => if fp then clipFp s.p0 s.p1 v else u32 (clampI (i32 v) (i32 s.p0) (i32 s.p1))
  | 5 => activation m s v
  | 6 => residual s fp v res
  | _ => v

/-- Lanes in bounds, out-of-bounds ones as +0 (R111). -/
def inLanes (v : Vec) : List Nat := (List.range v.vals.length).map (fun n => if nth v.inb n false then nth v.vals n 0 else 0)

/-- One level of the pairwise tree of R111. -/
def pairUp : List Nat → List Nat
  | [] => []
  | [a] => [fAdd a 0]
  | a :: b :: r => fAdd a b :: pairUp r

/-- The eight levels of the tree on 256 lanes. -/
def treeSum (l : List Nat) : Nat :=
  nth ((List.range 8).foldl (fun l _ => pairUp l) (l ++ List.replicate (256 - l.length) 0)) 0 0

/-- The reduce stage's running value at its start (R111). -/
def reduceInit (fp : Bool) (sum : Bool) : Bool × Int :=
  if sum then (false, 0) else if fp then (false, i32 0xFF800000) else (false, -2147483648)

/-- The vectors of `wd` lanes that a row's slots hold, each with its own tree of sums (R111): their totals join the running value in order. -/
def sumVecs (wd : Nat) (l : List Nat) (acc : Nat) : Nat :=
  (List.range ((l.length + wd - 1) / wd)).foldl (fun t j => fAdd t (treeSum ((l.drop (wd * j)).take wd))) acc

/-- A row of vectors of `wd` lanes folds into the running value (R111). -/
def reduceFold (sum : Bool) (wd : Nat) (v : Vec) (acc : Bool × Int) : Bool × Int :=
  let lanes := (List.range v.vals.length).filter (fun n => nth v.inb n false) |>.map (fun n => nth v.vals n 0)
  if v.fp then
    if sum then (true, i32 (sumVecs wd (inLanes v) (u32 acc.2)))
    else lanes.foldl (fun t x =>
      if isNaN32 x then (if t.1 then t else (false, i32 fp32.nan))
      else if !t.1 || decide (fKey (u32 t.2) < fKey x) then (true, i32 x) else t) acc
  else if sum then lanes.foldl (fun t x => (true, t.2 + i32 x)) acc
  else lanes.foldl (fun t x => (true, max t.2 (i32 x))) acc

/-! #### Quantisation -/

/-- A clamp that counts when it changes a value. -/
def clampSat (v lo hi : Int) : Int × Bool := (clampI v lo hi, clampI v lo hi != v)

/-- An exact value on the grid of integers (R101), with its NAN count. -/
def gridInt (x : FV) (mode : RMode) : Int × Bool :=
  match x with
  | .fin n a b => (roundInt mode n a b, false)
  | _ => (0, true)

/-- The static quantise stage on one lane (R113), and as R126 forces it: code, SAT, NAN. A per-channel stage with FP input and integer output
takes ZP_OUT from table 2, as one with INT input does: R211 lists no table for it there (log entry 209). -/
def quantStatic (m : Mem) (s : Stage) (fp forced : Bool) (c v rnd : Nat) : Narrowed :=
  match fmtElem s.fmt with
  | none => { code := 0 }
  | some el =>
    let lo : Int := if forced then -(((qmax s.fmt).getD 0 : Nat) : Int) else -(2 ^ (el.bits - 1) : Nat)
    let hi : Int := if forced then (((qmax s.fmt).getD 0 : Nat) : Int) else ((2 ^ (el.bits - 1) - 1 : Nat) : Int)
    if fp = false ∧ forced = false then
      let y := clampSat (roundShift (i32 v * i32 (stageVal m s 0 c)) (stageVal m s 1 c % 64) (s.round == 1)
        + i32 (stageVal m s 2 c)) lo hi
      { code := wrapU el.bits y.1, sat := y.2 }
    else
      let v32 := if fp then v else cvtF (i32 v)
      let inv := if forced ∧ s.perCh = false then s.p1 else stageVal m s 0 c
      let x := (fp32.decode v32).mul (fp32.decode inv)
      if fmtInt s.fmt then
        let g := gridInt x (stageMode s rnd)
        let y := clampSat (g.1 + if forced then 0 else i32 (stageVal m s 2 c)) lo hi
        { code := wrapU el.bits y.1, sat := y.2, nan := g.2 }
      else narrow x el (stageMode s rnd)

/-- The scale SC that a forced stage writes for a channel (R126), canonical where it is a NaN (R100). -/
def forcedScale (m : Mem) (s : Stage) (c : Nat) : Nat := canon32 (if s.perCh then tableVal m s 1 c else s.p2)

/-- Largest finite magnitude of lanes, as an FP32 code (R118). -/
def rowMax (l : List Nat) : Nat :=
  l.foldl (fun t x => if isNaN32 x || isInf32 x then t else max t (x % 2 ^ 31)) 0

/-- a, sc and inv of R118 from rowmax. -/
def rowScale (s : Stage) (rm : Nat) : Nat × Nat × Nat :=
  let q := (qmax s.fmt).getD 1
  let al := if s.p0 % 65536 = 0 then 65536 else s.p0 % 65536
  let a := rn32 ((FV.fin false al 65536).mul (fp32.decode rm))
  let sc := rn32 ((fp32.decode a).div (.fin false q 1))
  let inv := rn32 ((FV.fin false q 1).div (fp32.decode a))
  if a = 0 ∨ sc = 0 ∨ isInf32 inv then (a, 0, inv) else (a, sc, inv)

/-- The second read of R118 on one lane: with a scale of 0 the lane is narrowed, and its events counted, before it becomes 0. -/
def quantRow (s : Stage) (k : Nat × Nat × Nat) (v rnd : Nat) : Narrowed :=
  match fmtElem s.fmt with
  | none => { code := 0 }
  | some el =>
    let x := if isNaN32 v then v else clipFp (k.1 + 2 ^ 31) k.1 v
    let r := narrow ((fp32.decode x).mul (fp32.decode k.2.2)) el (stageMode s rnd)
    let y := if fmtInt s.fmt then
        let q : Int := (((qmax s.fmt).getD 0 : Nat) : Int)
        let y := clampSat (sext el.bits r.code) (-q) q
        { code := wrapU el.bits y.1, sat := r.sat || y.2, nan := r.nan }
      else r
    if k.2.1 = 0 ∧ isNaN32 v = false then { y with code := 0 } else y

/-- The random bits of lane `n` of vectors of `wd` lanes: each vector steps every lane once (R103). -/
def laneRnd (lf : List (BitVec 32)) (wd n : Nat) : Nat :=
  ((List.range (n / wd)).foldl (fun t _ => lfsrStep t) (nth lf (n % wd) 1)).toNat % 65536

/-- The lanes' LFSRs after `k` vectors (R103). -/
def stepLfsr (k : Nat) (lf : List (BitVec 32)) : List (BitVec 32) :=
  (List.range k).foldl (fun l _ => l.map lfsrStep) lf

/-- Counts a narrowed lane where it is in bounds (R101). -/
def countLanes (sd : Side) (inb : List Bool) (l : List Narrowed) : Side :=
  let c := fun (f : Narrowed → Bool) => ((List.range l.length).filter (fun n => nth inb n false && f (nth l n { code := 0 }))).length
  { sd with sat := sd.sat + c (·.sat), nan := sd.nan + c (·.nan) }

/-- The quantise stage on a vector of slots of `wd` lanes: codes, and the side effects (R113, R118, R120, R126). A forced per-row stage with
PER_CH = 1 has one entry for a row of many channels, and writes SC of the row's first channel there; R126 names none (log entry 210). -/
def quantVec (m : Mem) (s : Stage) (force : Bool) (wd : Nat) (v : Vec) (sd : Side) : List Nat × Side :=
  let n := v.vals.length
  let vecs := (n + wd - 1) / wd
  let rnd := fun i => if s.round = 2 then laneRnd sd.lfsr wd i else 0
  let sd1 := if s.round = 2 then { sd with lfsr := stepLfsr vecs sd.lfsr } else sd
  if s.mode = 0 ∨ force then
    let l := (List.range n).map (fun i => quantStatic m s v.fp (s.mode != 0) (nth v.chans i 0) (nth v.vals i 0) (rnd i))
    let sd2 := countLanes sd1 v.inb l
    let segs := if s.mode = 0 then 0 else if s.mode = 1 then 1 else vecs
    (l.map (·.code), { sd2 with scales := (List.range segs).map (fun j => forcedScale m s (nth v.chans (j * wd) 0)) })
  else
    let f := v.vals.map (fun x => if v.fp then x else cvtF (i32 x))
    let grp := if s.mode = 1 then n else wd
    let segs := if s.mode = 1 then 1 else vecs
    let ks := (List.range segs).map (fun j => rowScale s (rowMax
      (((List.range n).filter (fun i => i / grp == j && nth v.inb i false)).map (fun i => nth f i 0))))
    let l := (List.range n).map (fun i => quantRow s (nth ks (i / grp) (0, 0, 0)) (nth f i 0) (rnd i))
    let sd2 := countLanes sd1 v.inb l
    (l.map (·.code), { sd2 with scales := ks.map (·.2.1) })

/-- The stages of a chain on a vector (R105): the codes, their format, and the side effects. `res` gives the residual
operand's codes of each stage; `i` is the stage's index. -/
def runStages (m : Mem) (force : Bool) (wd : Nat) (res : Nat → List Nat) : List Stage → Nat → Vec → Side → List Nat × Nat × Side
  | [], _, v, sd => (if v.fp then (v.vals.map canon32, 8, sd) else (v.vals, 7, sd))
  | s :: r, i, v, sd =>
    if s.code = 7 then
      let acc := (sd.reduce.find? (fun x => x.1 == i)).map (·.2) |>.getD (reduceInit v.fp (s.mode == 1))
      runStages m force wd res r (i + 1) v
        { sd with reduce := sd.reduce.filter (fun x => x.1 < i) ++ [(i, reduceFold (s.mode == 1) wd v acc)]
            ++ sd.reduce.filter (fun x => i < x.1) }
    else if s.code = 8 then
      let q := quantVec m s force wd v sd
      (q.1, s.fmt, q.2)
    else
      let vals := (List.range v.vals.length).map (fun n =>
        laneStage m s v.fp (nth v.chans n 0) (nth v.vals n 0) (nth (res i) n 0))
      runStages m force wd res r (i + 1) { v with vals := vals, fp := if s.code = 2 then s.odom else v.fp } sd

/-! ### DRAIN (R212, R231, R232) -/

/-- Tiles per row: NSEG. -/
def drainSeg (w : BitVec 256) : Nat := pF w 25 4

/-- The reasons DRAIN gives at issue (R198, R212). -/
def drainReasons (s : State) (w : BitVec 256) : List Nat :=
  when (drainSeg w == 0 || decide (8 < drainSeg w)
      || (decide (1 < drainSeg w) && !((quantOf s.drn.chain).any (fun q => q.mode == 1)))) 1 ++ rsvReason (pF w 45 75)

/-- Output coordinates of a lane (R231): `p` the streamed-row coordinate, `c` the lane's channel or position. -/
def laneCoords (d : TDesc) (swapped : Bool) (p : Int) (c : Nat) : Int × Int × Int × Int :=
  let pos : Int := if swapped then c else p
  let ch : Int := if swapped then p else c
  let d0 : Int := d.dim 0; let d1 : Int := d.dim 1; let d2 : Int := d.dim 2
  (ch % d0, pos % d1, pos / d1 % d2, pos / (d1 * d2) + ch / d0)

/-- The tables that a stage reads in the domain `fp` it receives (R106, R113, R126, R211). -/
def stageTables (s : Stage) (force fp : Bool) : List Nat :=
  match s.code with
  | 1 => if s.perCh then [0] else []
  | 2 => if s.perCh then (if s.odom then [0] else [0, 1]) else []
  | 3 => [0]
  | 8 =>
    if !s.perCh then []
    else if s.mode = 0 then (if !fp then [0, 1, 2] else if fmtInt s.fmt then [0, 2] else [0])
    else if force then [0, 1] else []
  | _ => []

/-- The rows, by address over 512, that a chain's tables occupy for the channels of a vector of domain `fp`, in Map Store or in tile
memory 2; an activation stage has the four of its table (R106, R109). -/
def tableLines (force : Bool) (chans : List Nat) : List Stage → Bool → List Nat
  | [], _ => []
  | s :: r, fp =>
    ((if s.code = 5 then (List.range 4).map (fun i => tableAddr s 0 0 / 512 + i)
      else ((stageTables s force fp).map (fun k => chans.map (fun c => tableAddr s k c / 512))).flatten)
      ++ tableLines force chans r (stageDom s fp)).eraseDups

/-- The residual operands of a vector, stage by stage (R236): the state, the codes by stage index, and whether a row was
poisoned. -/
def residuals (m : Master) (pos : List (Int × Int × Int × Int)) : List Stage → Nat → State → State × Tab (List Nat) × Bool
  | [], _, s => (s, [], false)
  | st :: r, i, s =>
    if st.code = 6 then
      let x := tensRead s m .drainR (tdesc s st.aux) pos
      let t := residuals m pos r (i + 1) x.1
      (t.1, (i, x.2.1) :: t.2.1, x.2.2 || t.2.2)
    else residuals m pos r (i + 1) s

/-- The residual descriptors of a chain at their first use in a word (R225, R233). -/
def openResiduals : List Stage → State → State ⊕ State
  | [], s => .inr s
  | st :: r, s =>
    if st.code = 6 then
      match useDesc s 1 .drainR st.aux false false with
      | .stop s => .inl s
      | .ok s _ => openResiduals r s
    else openResiduals r s

/-- The slots of a word cycle's vector: NSEG draining tiles from `ot` on. -/
def drainSlots (s : State) (optag ot nseg : Nat) : Option (List Nat) :=
  (List.range nseg).foldr (fun j t => match slotOf s .draining optag (ot + j), t with
    | some i, some l => some (i :: l)
    | _, _ => none) (some [])

/-- A slot's vector read; the slot is freed with the last vector the array wrote to it (R148, R212). -/
def readSlot (s : State) (i v : Nat) : State :=
  let x := getSlot s i
  if x.vecs ≤ v + 1 then setSlot s i {} else setSlot s i { x with drained := max x.drained (v + 1) }

/-- The vector of one word cycle: its lanes from its slots (R212, R231). -/
def drainVec (s : State) (w : BitVec 256) (d : TDesc) (p : Int) (v : Nat) (slots : List Nat) : Vec :=
  let x0 := getSlot s (nth slots 0 0)
  let wd := x0.wdecl
  let n := wd * slots.length
  let chans := (List.range n).map (fun i => pF w 29 16 + i)
  let pos := chans.map (laneCoords d (x0.mode == 2) p)
  { vals := ((slots.map (fun i => (List.range wd).map (fun l => nth (tabGet s.arr.acc (512 * i + v) []) l 0))).flatten),
    chans := chans, pos := pos, fp := x0.fp,
    inb := pos.map (fun c => (d.coords c.1 c.2.1 c.2.2.1 c.2.2.2).isSome) }

/-- Where a scale entry belongs (R121): per-row entries in descriptor order by row; segment j of a row at (j, row). -/
def scalePos (sd : TDesc) (perRow : Bool) (p : Nat) (seg : Nat) : Int × Int × Int × Int :=
  if perRow then sd.flat p
  else ((seg : Nat), (p % sd.dim 1 : Nat), (p / sd.dim 1 % sd.dim 2 : Nat), (p / (sd.dim 1 * sd.dim 2) : Nat))

/-- The end of a DRAIN word: the rows it has produced whole are written, and a row that lacks an element stops the item
with reason 9 (R230, R232). -/
def drainFinish (s : State) : Eff :=
  let d := tdesc s s.drn.outDesc
  let els := s.drn.out
  let s := { s with drn := { s.drn with out := [], pos := 0 } }
  let m := engMaster 1 (getE s 1).part
  match region d.base with
  | .mapStore =>
    let bad := (unitsOf els 1024).filter (fun l => d.uncovered els (1024 * l) 1024)
    let s := tensWrite s m .drainW d (els.filter (fun x => !bad.contains (x.1 / 1024)))
    if bad.isEmpty then .act s else .stopped (drainConfig s 9)
  | _ => .act (tensWrite s m .drainW d els)

/-- Running values of another operation than the one a slot belongs to are deposited before its vector enters (R111). -/
def reduceFor (s : State) (slot : Nat) : State :=
  let k := (getSlot s slot).ser
  let s := if s.drn.redOp = k then s else sendDeposits s
  { s with drn := { s.drn with redOp := k, redSer := if s.drn.reduce.isEmpty then (getE s 1).eff else s.drn.redSer } }

/-- One word cycle's vector goes through the chain (R105, R212): the state with its effects, or the engine stopped. -/
def drainOne (w : BitVec 256) (p : Int) (v : Nat) (slots : List Nat) (s : State) : State ⊕ State :=
  let s := reduceFor s (nth slots 0 0)
  let d := tdesc s s.drn.outDesc
  let m := engMaster 1 (getE s 1).part
  let x := drainVec s w d p v slots
  let wd := (getSlot s (nth slots 0 0)).wdecl
  let ch := s.drn.chain
  let lines := tableLines s.drn.force x.chans ch x.fp
  let g := gateLines s m .drainR false (fun _ => 0) (lines.filter (fun l => region (512 * l) = .mapStore))
  let tl := tileRows g.1 ((lines.filter (fun l => region (512 * l) = .tile 2)).map (fun l => l - tileAddr 2 / 512))
  let r := residuals m x.pos ch 0 tl.1
  if g.2.2 ∨ tl.2 ∨ r.2.2 then .inl (engHalt r.1 1)
  else
    let o := runStages r.1.mem r.1.drn.force wd (fun i => tabGet r.2.1 i []) ch 0 x { lfsr := r.1.drn.lfsr, reduce := r.1.drn.reduce }
    if o.2.1 ≠ d.fmt then .inl (drainConfig r.1 2)
    else
      let out := (List.range x.vals.length).foldl (fun t n =>
        if nth x.inb n false then
          match d.coords (nth x.pos n (0, 0, 0, 0)).1 (nth x.pos n (0, 0, 0, 0)).2.1 (nth x.pos n (0, 0, 0, 0)).2.2.1
              (nth x.pos n (0, 0, 0, 0)).2.2.2 with
          | some c => tabPut t (d.nibOff c) (nth o.1 n 0) (2 ^ 32)
          | none => t
        else t) r.1.drn.out
      let s := { r.1 with drn := { r.1.drn with lfsr := o.2.2.lfsr, reduce := o.2.2.reduce, out := out } }
      let s := bump (bump s F.DRN_SAT_CNT_SAT o.2.2.sat) F.DRN_SAT_CNT_NAN o.2.2.nan
      let s := match quantOf ch with
        | some q => if 0 ≤ p then (List.range o.2.2.scales.length).foldl (fun s j =>
              addScale s q.aux (scalePos (tdesc s q.aux) (q.mode == 1) p.toNat (pF w 29 16 / wd + j)) (nth o.2.2.scales j 0)) s
            else s
        | none => s
      let s := (List.range slots.length).foldl (fun s j =>
        let i := nth slots j 0
        let n := ((List.range wd).filter (fun l => nth x.inb (j * wd + l) false)).length
        readSlot { s with arr := { s.arr with useful := s.arr.useful + (getSlot s i).depth * n } } i v) s
      .inr s

/-- A lane of a vector that is there turns bad in accumulator memory (R145, R149); a vector whose valid tag is clear has no parity to fail
(R150). -/
def parityUpset (s : State) (k : Nat) : State :=
  if (tabGet s.arr.acc k []).isEmpty then s else { s with arr := { s.arr with accErr := tabPut s.arr.accErr k 1 0 } }

/-- The word cycles of a DRAIN word from cycle `i` on: it holds for a tile that is not draining; a parity error in the
vector read, `par` being the cycle before which an upset strikes, stops the item (R149). A hold before cycle `cut` leaves
the rest for later (R171). -/
def drainCycles (w : BitVec 256) (ps : List Int) (par cut : Option Nat) : Nat → Nat → State → Eff
  | 0, _, s => drainFinish s
  | n + 1, i, s =>
    if cut = some i then .hold { s with drn := { s.drn with pos := i } } else
    let vi := pF w 16 9 + i
    let nseg := drainSeg w
    match drainSlots s (pF w 0 4) (pF w 4 12 + nseg * (vi / 512)) nseg with
    | none => .hold { s with drn := { s.drn with pos := i } }
    | some slots =>
      match chainBad s.drn.chain s.drn.force (getSlot s (nth slots 0 0)).fp with
      | some r => .stopped (drainConfig s r)
      | none =>
        let s := if par = some i then parityUpset s (512 * nth slots 0 0 + vi % 512) else s
        if slots.any (fun j => tabGet s.arr.accErr (512 * j + vi % 512) 0 != 0) then
          .stopped (engHalt (raise (bump s F.ACC_STAT_PARITY_ERRS 1) false 0x0116 2 (some (getE s 1).part) 3 (engItem s 1) []) 1)
        else match drainOne w (nth ps i 0) (vi % 512) slots s with
          | .inl s => .stopped s
          | .inr s => drainCycles w ps par cut n (i + 1) s

/-- The output and scale descriptors of the chain in force at their first use in a DRAIN word (R225). -/
def reopenOut (s : State) : Use :=
  match useDesc s 1 .drainR s.drn.outDesc true false with
  | .stop s => .stop s
  | .ok s d => match openScale s s.drn.chain with
    | .inl s => .stop s
    | .inr (s, _) => .ok s d

/-- DRAIN acts (R212). Without a CHAIN in the item the output descriptor is the one at AG0's address. -/
def drainAct (w : BitVec 256) (par cut : Option Nat) (s : State) : Eff :=
  let s := if s.drn.pos = 0 then setE s 1 { getE s 1 with eff := (getE s 1).eff + 1 } else s
  let g := getE s 1
  if s.drn.chain.any (fun x => x.code == 9) then .stopped (drainConfig s 2)
  else
    let o : Use := if s.drn.pos ≠ 0 then .ok s (tdesc s s.drn.outDesc)
      else if s.drn.chainSet then reopenOut s else openOut s (agFirstAddr g w 0)
    match o with
    | .stop s => .stopped s
    | .ok s d =>
      let s := { s with drn := { s.drn with chainSet := true, outDesc := d.addr } }
      match (if s.drn.pos = 0 then openResiduals s.drn.chain s else .inr s) with
      | .inl s => .stopped s
      | .inr s =>
        drainCycles w (agWord (nth g.ags 1 {}) (wAgc w 1) (wRepeat w + 1)).1 par cut (wRepeat w + 1 - s.drn.pos) s.drn.pos s

/-- DRAIN; `par` is the word cycle whose vector shows a parity error, if any. -/
def drainWord (w : BitVec 256) (par cut : Option Nat) (s : State) : State :=
  issue s 1 w (drainReasons s w) (drainAct w par cut)

/-! ### COMMIT (R213) -/

/-- Sets the commit bits of `n` descriptors from `a` on; a poisoned row stops the item. -/
def commitAll (m : Master) : Nat → Nat → State → Eff
  | 0, _, s => .act s
  | n + 1, a, s =>
    let r := putCommit s m a true
    if r.2 then .stopped (engHalt r.1 1) else commitAll m n (a + 64) r.1

/-- COMMIT. -/
def commitWord (w : BitVec 256) (s : State) : State :=
  issue s 1 w (when (pF w 3 3 == 0) 1 ++ rsvReason (pF w 6 114) ++ singleCycle w) (fun s =>
    let s := drainSettle s
    let g := getE s 1
    commitAll (engMaster 1 g.part) (pF w 3 3) (agFirstAddr g w 0 + 64 * pF w 0 3) s)

/-! ### OPTSTEP (R122 to R125, R214) -/

/-- Coordinates of lane `n` of block `b` of a tensor of rows of D0 elements (R123). -/
def blockPos (d : TDesc) (b : Int) (n : Nat) : Int × Int × Int × Int :=
  let per : Int := ((d.dim 0 + 255) / 256 : Nat)
  let r := b / per
  let d1 : Int := d.dim 1; let d2 : Int := d.dim 2
  (b % per * 256 + n, r % d1, r / d1 % d2, r / (d1 * d2))

/-- Rows of elements that become complete are written; the rest are held (R125). -/
def putRows (s : State) (m : Master) (d : TDesc) (els : Tab Nat) : State :=
  let held := s.drn.half.filter (fun x => x.1 == d.addr) |>.map (fun x => (x.2.1, x.2.2))
  let all := els.foldl (fun t x => tabPut t x.1 x.2 (2 ^ 32)) held
  match region d.base with
  | .mapStore =>
    let wait := fun (x : Nat × Nat) => d.uncovered all (x.1 / 1024 * 1024) 1024
    let s := { s with drn := { s.drn with half := s.drn.half.filter (fun x => x.1 != d.addr)
                                           ++ (all.filter wait).map (fun x => (d.addr, x.1, x.2)) } }
    tensWrite s m .drainW d (all.filter (fun x => !wait x))
  | _ => tensWrite s m .drainW d els

/-- One entry of a scale row is replaced: its row is read and written (R125). -/
def putScale (s : State) (m : Master) (d : TDesc) (k v : Nat) : State :=
  match (let c := d.flat k; d.coords c.1 c.2.1 c.2.2.1 c.2.2.2) with
  | none => s
  | some c =>
    let a := d.byteAddr (d.nibOff c / 2)
    let r := busRead s m .drainR (a / 512 * 512) 512
    (busWrite r.s m .drainW (a / 512 * 512)
      ((r.data.take (a % 512)) ++ leBytes (d.nib / 2) v ++ r.data.drop (a % 512 + d.nib / 2))).1

/-- One lane of the optimiser stage (R125): parameters, then g, m, v and w as FP32 codes; m1, v1 and the exact new weight. -/
def optLane (p : List Nat) (g m v w : Nat) : Nat × Nat × FV :=
  let m1 := fAdd (fMul (nth p 0 0) m) (fMul (nth p 1 0) g)
  let v1 := fAdd (fMul (nth p 2 0) v) (fMul (nth p 3 0) (fMul g g))
  let d := fAdd (fSqrt v1) (nth p 4 0)
  let u := fAdd (fDiv m1 d) (fMul (nth p 6 0) w)
  (m1, v1, fp32.decode (fSub w (fMul (nth p 5 0) u)))

/-- A block of moments quantised (R123): the FP16 block scale, and the codes with the NAN events they count (R101). A NaN lane takes no part
in bmax, and an infinite one does: R123 does not say what either does there (log entry 211). -/
def optQuant (l : List Nat) : Nat × List Narrowed :=
  let bmax := l.foldl (fun t x => if isNaN32 x then t else max t (x % 2 ^ 31)) 0
  let sc := (narrow ((fp32.decode bmax).div (.fin false 127 1)) .fp16 .rne).code
  if sc = 0 then (0, l.map (fun _ => { code := 0 }))
  else
    let inv := rn32 ((FV.fin false 1 1).div (fp16.decode sc))
    (sc, l.map (fun x =>
      let g := gridInt ((fp32.decode x).mul (fp32.decode inv)) .rne
      { code := wrapU 8 (clampI g.1 (-127) 127), nan := g.2 }))

/-- Descriptors of the optimiser's list at first use in a word: seven addresses at AUX; the first two are read only, and the
other five are read and written (R211, R225). -/
def openOpt (aux : Nat) : Nat → State → List TDesc → State ⊕ (State × List TDesc)
  | 0, s, l => .inr (s, l.reverse)
  | n + 1, s, l =>
    let i := 6 - n
    let r := busRead s (engMaster 1 (getE s 1).part) .drainR (aux + 8 * i) 8
    if r.poison then .inl (engHalt r.s 1)
    else match useDesc r.s 1 .drainR (leVal r.data % 2 ^ 48) false false with
      | .stop s => .inl s
      | .ok s d => if 2 ≤ i ∧ d.bcast ≠ 0 then .inl (engFault s 1 0x0140 [9, d.addr]) else openOpt aux n s (d :: l)

/-- Formats of the optimiser's seven tensors (R122 to R124). -/
def optFmts : List Nat := [3, 8, 0, 4, 0, 4, 5]

/-- One block of the optimiser stage (R125): the state, or the engine stopped by a poisoned row. Every block steps the lane LFSRs of a
stage in SR mode (R103). A skipped block's old codes fill their halves of the code rows that it shares with the next block. -/
def optBlock (st : Stage) (ds : List TDesc) (b : Int) (s : State) : State ⊕ State :=
  let m := engMaster 1 (getE s 1).part
  let dd := fun i => nth ds i { addr := 0, raw := [] }
  let rd := fun (s : State) (i : Nat) => tensRead s m .drainR (dd i) ((List.range 256).map (blockPos (dd i) b))
  let one := fun (s : State) (i k : Nat) => tensRead s m .drainR (dd i) [(dd i).flat k]
  let per := (dd 0).dim 0 / 256
  let rg := rd s 0
  let rs := one rg.1 1 (b.toNat / per)
  let rm := rd rs.1 2
  let rms := one rm.1 3 b.toNat
  let rv := rd rms.1 4
  let rvs := one rv.1 5 b.toNat
  let rw := rd rvs.1 6
  if rg.2.2 ∨ rs.2.2 ∨ rm.2.2 ∨ rms.2.2 ∨ rv.2.2 ∨ rvs.2.2 ∨ rw.2.2 then .inl (engHalt rw.1 1)
  else
    let s := rw.1
    let gs := nth rs.2.1 0 0
    let g := rg.2.1.map (fun c => rn32 ((e5m2.decode c).mul (fp32.decode gs)))
    let lf := s.drn.lfsr
    let s := if st.round = 2 then { s with drn := { s.drn with lfsr := stepLfsr 1 lf } } else s
    let place := fun (i n : Nat) => let c := blockPos (dd i) b n; (dd i).coords c.1 c.2.1 c.2.2.1 c.2.2.2
    let els := fun (i : Nat) (cs : List Nat) => (List.range 256).foldl (fun (t : Tab Nat) n =>
      match place i n with
      | some c => tabPut t ((dd i).nibOff c) (nth cs n 0) (2 ^ 32)
      | none => t) []
    if g.any (fun x => !finite32 x) then
      let s := bump (setF s F.DRN_STAT_OPT_SKIP 1) F.DRN_STAT_OPT_SKIPS 1
      .inr (putRows (putRows s m (dd 2) (els 2 rm.2.1)) m (dd 4) (els 4 rv.2.1))
    else
      let dq := fun (codes scale : List Nat) => codes.map (fun c => rn32 ((fvInt (sext 8 c)).mul (fp16.decode (nth scale 0 0))))
      let ml := dq rm.2.1 rms.2.1
      let vl := dq rv.2.1 rvs.2.1
      let ps := (List.range 7).map (fun i => (nth (getE s 1).sregs (8 + i) 0).toNat)
      let lanes := (List.range 256).map (fun n =>
        optLane ps (nth g n 0) (nth ml n 0) (nth vl n 0) (Elem.toF32 .bf16 (nth rw.2.1 n 0)))
      let rnd := fun n => if st.round = 2 then (nth lf n 1).toNat % 65536 else 0
      let ws := (List.range 256).map (fun n => narrow (nth lanes n (0, 0, .nan)).2.2 .bf16 (stageMode st (rnd n)))
      let qm := optQuant (lanes.map (·.1))
      let qv := optQuant (lanes.map (·.2.1))
      let inb := fun i => (List.range 256).map (fun n => (place i n).isSome)
      let c := countLanes (countLanes (countLanes { lfsr := [], reduce := [] } (inb 6) ws) (inb 2) qm.2) (inb 4) qv.2
      let s := bump (bump s F.DRN_SAT_CNT_SAT c.sat) F.DRN_SAT_CNT_NAN c.nan
      let s := putRows s m (dd 6) (els 6 (ws.map (·.code)))
      let s := putRows s m (dd 2) (els 2 (qm.2.map (·.code)))
      let s := putRows s m (dd 4) (els 4 (qv.2.map (·.code)))
      .inr (putScale (putScale s m (dd 3) b.toNat qm.1) m (dd 5) b.toNat qv.1)

/-- The blocks of an OPTSTEP word from block `i` on; a hold before block `cut` leaves the rest for later (R171). -/
def optBlocks (st : Stage) (ds : List TDesc) (cut : Option Nat) : Nat → List Int → State → Eff
  | _, [], s => .act { s with drn := { s.drn with pos := 0 } }
  | i, b :: r, s =>
    if cut = some i then .hold { s with drn := { s.drn with pos := i } }
    else if b < 0 then optBlocks st ds cut (i + 1) r s
    else match optBlock st ds b s with
      | .inl s => .stopped s
      | .inr s => optBlocks st ds cut (i + 1) r s

/-- The optimiser's descriptors as a word that held part-way uses them again. -/
def optAgain (s : State) (aux : Nat) : List TDesc :=
  (List.range 7).map (fun i => tdesc s (memLe s.mem (aux + 8 * i) 8 % 2 ^ 48))

/-- OPTSTEP acts (R214): under any other chain it is refused with reason 2. -/
def optAct (w : BitVec 256) (cut : Option Nat) (s : State) : Eff :=
  match s.drn.chain with
  | [st] =>
    if st.code ≠ 9 then .stopped (drainConfig s 2)
    else match (if s.drn.pos = 0 then openOpt st.aux 7 s [] else .inr (s, optAgain s st.aux)) with
      | .inl s => .stopped s
      | .inr (s, ds) =>
        if (List.range 7).any (fun i => (nth ds i { addr := 0, raw := [] }).fmt != nth optFmts i 0) then .stopped (drainConfig s 2)
        else optBlocks st ds cut s.drn.pos ((agWord (nth (getE s 1).ags 1 {}) (wAgc w 1) (wRepeat w + 1)).1.drop s.drn.pos) s
  | _ => .stopped (drainConfig s 2)

/-- OPTSTEP. -/
def optstepWord (w : BitVec 256) (cut : Option Nat) (s : State) : State :=
  issue s 1 w (rsvReason (pF w 0 120)) (optAct w cut)

/-! ### DRN_CTL (R103, R128) -/

/-- The write of DRN_CTL: a change of ENABLE from 0 to 1 seeds the lanes; a 0 during an item waits for its end. -/
def drnCtlWrite (m : Master) (v : Nat) (s : State) : State :=
  gated s false 2 0x10 m v (fun s =>
    if bitOf v 0 then
      if isSet s F.DRN_CTL_ENABLE then { s with drn := { s.drn with disablePending := false } }
      else
        let s := setF s F.DRN_CTL_ENABLE 1
        { s with drn := { s.drn with lfsr := seedLanes s, disablePending := false } }
    else if (getE s 1).st = .idle ∨ (getE s 1).st = .parked then setF s F.DRN_CTL_ENABLE 0
    else { s with drn := { s.drn with disablePending := true } })

/-- DRN_CTL_WRITE. -/
def execDrnCtlWrite (m : Master) (v : BitVec 32) (s : State) : Host.Outcome State Fault Refusal := .next (drnCtlWrite m v.toNat s)

end Sys2Proof.Machine
end

