-- ==== Sys2Proof/Machine/Isp.lean ====
section
/-! DEFINITION. The image pipeline (R310 to R332): contexts, feeding, lanes and their output rows. -/

namespace Sys2Proof.Machine

/-- Register block of the ISP (R510). -/
def ispBlock : Nat := 13

/-- Reads `n` bytes from `a` in pieces of at most 512: the state, the bytes, and whether a piece was poisoned. -/
def readBytes (s : State) (m : Master) (port : Port) : Nat → Nat → Nat → State × Bytes × Bool
  | 0, _, _ => (s, [], false)
  | _, _, 0 => (s, [], false)
  | k + 1, a, n =>
    let l := min n 512
    let r := busRead s m port a l
    let t := readBytes r.s m port k (a + 512) (n - l)
    (t.1, r.data ++ t.2.1, r.poison || t.2.2)

/-! ### Contexts (R312, R313) -/

/-- A power of two from 1 to 256. -/
def pow2To256 (n : Nat) : Bool := [1, 2, 4, 8, 16, 32, 64, 128, 256].contains n

/-- Bytes of table blocks of the enabled contexts (R311). -/
def tableBytes (s : State) : Nat :=
  ((List.range 32).filter (ispOn s)).foldl (fun n c => n + iTabBytes (getI s c).record) 0

/-- A record and its table block break a rule of R313 for context `c`. -/
def ispRefused (s : State) (c : Nat) (r t : Bytes) : Bool :=
  decide (64 ≤ iFlags r) || leAt r 101 3 != 0 || leAt r 108 4 != 0 || leAt r 120 8 != 0 || leAt t 81 3 != 0 || leAt t 2134 2 != 0
    || iSrc r != decide (16 ≤ c) || (iAeHw r && decide (16 ≤ c))
    || iLanes r == 0 || decide (16 < iLanes r) || decide (iDepth r < 8) || decide (16 < iDepth r) || decide (2 < iScale r)
    || !(iTabBytes r == 12832 || iTabBytes r == 19202) || !pow2To256 (iStatsN r)
    || decide (524288 < tableBytes s + iTabBytes r)

/-- VALUE of entry `i` of a context's exposure template (R330). -/
def aeValue (s : State) (c : Nat) (r : Bytes) (i : Nat) : Nat := wsValue (wsEntry s (cPort (camRec s c)) (leAt r 96 1 + i))

/-- A context is enabled (R313): its record and tables are read; or the enable is refused, as it is on a poisoned read (R152). -/
def ispEnable (s : State) (c : Nat) : State :=
  let a := (getI s c).recAddr
  let m := engMaster 7 ((ctxPart s c).getD 0)
  let q := readBytes s m .image 1 a 128
  let bad := q.2.2
  let r := q.2.1
  let n := if iTabBytes r = 12832 ∨ iTabBytes r = 19202 then iTabBytes r else 0
  let q := readBytes q.1 m .image 38 (leAt r 72 8) n
  let s := q.1
  let t := q.2.1
  if bad || q.2.2 || ispRefused s c r t then setF s F.ISP_STAT_CTX_REFUSED 1
  else
    setI (setF s F.ISP_CTXEN_EN (setBit (getF s F.ISP_CTXEN_EN) c)) c
      { recAddr := a, record := r, tables := t, wb := (leAt t 20 2, leAt t 22 2, leAt t 24 2),
        ae := if iAeHw r then (aeValue s c r (leAt r 98 1), aeValue s c r (leAt r 99 1)) else (0, 0) }

/-- The bit of one context in a write of ISP_CTXEN. -/
def ctxenBit (v : Nat) (s : State) (c : Nat) : State :=
  if bitOf v c then
    (if ispOn s c then setI s c { getI s c with disabling := false } else ispEnable s c)
  else if ispOn s c then settleCtx (setI s c { getI s c with disabling := true }) c
  else s

/-- ISP_CTXEN is written (R313, R338): bits that clear first, then bits that set. -/
def ctxenWrite (m : Master) (v : Nat) (s : State) : State :=
  gated s false ispBlock 0x20 m v (fun s =>
    let l := List.range 32
    (l.filter (fun c => bitOf v c)).foldl (ctxenBit v) ((l.filter (fun c => !bitOf v c)).foldl (ctxenBit v) s))

/-- ISP_CTXEN_WRITE. -/
def execIspCtxenWrite (m : Master) (v : BitVec 32) (s : State) : Host.Outcome State Fault Refusal := .next (ctxenWrite m v.toNat s)

/-- The frame number whose low 16 bits a feeder gives: the first from the frame fed last on. -/
def fullFrame (last low : Nat) : Nat := last + (low + 65536 - last % 65536) % 65536

/-- ISP_FEED is written (R318, R338): with GO, the feeder's frame arrives, unless what the feeder
wrote for it is poisoned (log entry 235). -/
def feedWrite (m : Master) (v : Nat) (s : State) : State :=
  gated s false ispBlock 0x38 m v (fun s =>
    let c := bitsOf v 16 5
    let x := getI s c
    let r := x.record
    if bitOf v 31 = false then s
    else if c < 16 ∨ ispOn s c = false ∨ iSrc r = false then cfgIgnored s false ispBlock 0x38 m v
    else
      let n := fullFrame x.lastFed (bitsOf v 0 16)
      let im := engMaster 7 ((ctxPart s c).getD 0)
      let q := readBytes s im .image 1 (iSrcDesc r) 64
      let w := readBytes q.1 im .image 1 (iFeed r + 64 * (n % leAt q.2.1 24 4)) 64
      if q.2.2 || w.2.2 then w.1
      else
        frameArrive (setI w.1 c { x with lastFed := n })
          { ctx := c, frame := n, dt := leAt w.2.1 14 1, part := (ctxPart s c).getD 0, fed := true, linesIn := iHeight r,
            fsTime := leAt w.2.1 16 8, word := some w.2.1 })

/-- ISP_FEED_WRITE. -/
def execIspFeedWrite (m : Master) (v : BitVec 32) (s : State) : Host.Outcome State Fault Refusal := .next (feedWrite m v.toNat s)

/-! ### Dispatch (R318 to R321) -/

/-- The ready lanes that pipe `p` may take: rank, frame, lane index. -/
def readyLanes (s : State) (p : Nat) : List ((Nat × Nat × Nat × Nat) × IspFrame × Nat) :=
  let reserved := s.tick.armed.any (fun a => a.item.engine == 0x07 && bitOf a.item.preset p)
  (s.isp.frames.filter (fun f => !f.dead && bitOf f.mask p && !(getI s f.ctx).disabling
      && (if f.auto then !reserved else f.item.isSome))).flatMap (fun f =>
    ((List.range f.lanes.length).filter (fun j => !(nth f.lanes j {}).taken)).map
      (fun j => ((if f.auto then 1 else 0, f.deadline, f.ctx, j), f, j)))

/-- The order of R320. -/
def rankLt (a b : Nat × Nat × Nat × Nat) : Bool :=
  decide (a.1 < b.1) || (a.1 == b.1 && (decide (a.2.1 < b.2.1) || (a.2.1 == b.2.1 && (decide (a.2.2.1 < b.2.2.1)
    || (a.2.2.1 == b.2.2.1 && decide (a.2.2.2 < b.2.2.2))))))

/-- The highest-ranked lane of a list. -/
def bestLane (l : List ((Nat × Nat × Nat × Nat) × IspFrame × Nat)) : Option (IspFrame × Nat) :=
  (l.foldl (fun b x => match b with
    | none => some x
    | some y => if rankLt x.1 y.1 then some x else some y) (none : Option ((Nat × Nat × Nat × Nat) × IspFrame × Nat))).map (·.2)

/-- The state with lane `j` of a frame replaced. -/
def setLane (s : State) (f : IspFrame) (j : Nat) (l : LaneSt) : State := setFrame s { f with lanes := f.lanes.set j l }

/-- A pipe takes a lane (R319, R321, R331, R31): a change of partition clears its memories, and its program starts. -/
def takeLane (s : State) (p : Nat) (f : IspFrame) (j : Nat) : State :=
  let x := getPipe s p
  let s := turnBuf (if x.part.all (· == f.part) then s else clearTile s (4 + p)) p f.part
  let f := { f with gains := some (f.gains.getD (getI s f.ctx).wb) }
  let s := setLane s f j { nth f.lanes j {} with taken := true, pipe := some p }
  let s := setPipe s p { x with lane := some (f.ctx, f.frame, j), held := some f.ctx, part := some f.part }
  let r := startEngine s (7 + p) (iEntry (getI s f.ctx).record j) f.part none none false s.timeC
  if r.2 then
    let g := getE r.1 (7 + p)
    setE r.1 (7 + p) { g with sregs := ((g.sregs.set 0 (BitVec.ofNat 32 j)).set 1 (BitVec.ofNat 32 f.frame)).set 2 (BitVec.ofNat 32 f.ctx) }
  else laneFault (dropPipe r.1 p) f.ctx f.frame

/-- LANE_DISPATCH (R320): a free pipe takes the highest-ranked ready lane. -/
def laneDispatch (p : Nat) (s : State) : State :=
  if p < 4 ∧ powered s (domPipe p) ∧ engEnable s (7 + p) ∧ (getPipe s p).lane.isNone ∧ (getE s (7 + p)).st = .idle then
    match bestLane (readyLanes s p) with
    | some (f, j) => takeLane s p f j
    | none => s
  else s

/-- LANE_DISPATCH. -/
def execLaneDispatch (p : Nat) (s : State) : Host.Outcome State Fault Refusal := .next (laneDispatch p s)

/-! ### LANE (R220, R317, R323, R337) -/

/-- Columns of an output in Map Store begin and end its rows (R323): `a` first column, `b` one past the last, in output columns. -/
def colsAligned (d : TDesc) (a b : Nat) (last : Bool) : Bool :=
  match region d.base with
  | .mapStore => (a + d.off 1) * d.posStride % 512 == 0 && (last || (b + d.off 1) * d.posStride % 512 == 0)
  | _ => true

/-- The reason of R337 for which a LANE word is refused, if any: `outs` are OUT_A and, if there is one, OUT_Y. -/
def laneBad (x : IspCtx) (f : IspFrame) (w : BitVec 256) (a : TDesc) (y : Option TDesc) : Option Nat :=
  let r := x.record
  let x0 := pF w 5 14; let lw := pF w 19 14; let st := pF w 53 11
  let vl := pF w 33 5; let vr := pF w 38 5; let vt := pF w 43 5; let vb := pF w 48 5
  let k := iF r
  let reach := ispReach r x.tables st
  let last := x0 + lw == iWidth r
  if x0 % k != 0 || lw % k != 0 || decide (iWidth r < x0 + lw)
      || f.lanes.any (fun l => l.issued && decide (x0 < l.x0 + l.lw) && decide (l.x0 < x0 + lw)) then some 1
  else if decide (vl < reach) || decide (vr < reach) || decide (vt < reach) || decide (vb < reach) then some 2
  else if 8192 < lw + vl + vr then some 3
  else if !colsAligned a (x0 / k) ((x0 + lw) / k) last || !(y.map (fun d => colsAligned d x0 (x0 + lw) last)).getD true then some 4
  else if !(ispFmtOk a.fmt && a.dim 0 == 3) || !(y.map (fun d => ispFmtOk d.fmt && d.dim 0 == 1)).getD true then some 5
  else if pF w 0 5 ≠ f.ctx then some 6
  else if colourDt f.dt ∧ st % 16 ≠ 0 then some 8
  else none

/-- A LANE word begins: its descriptors are used, its columns checked, and its lane is in force (R220, R225, R337). -/
def laneBegin (s : State) (e : Nat) (w : BitVec 256) (f : IspFrame) (j : Nat) : Eff :=
  let x := getI s f.ctx
  let r := x.record
  match useDesc s e .image (iOutA r) true false with
  | .stop s => .stopped s
  | .ok s a =>
    match (if iOutY r = 0 then Use.ok s a else useDesc s e .image (iOutY r) true false) with
    | .stop s => .stopped s
    | .ok s y =>
      match (if f.fed then useDesc s e .image (iSrcDesc r) false false else Use.ok s a) with
      | .stop s => .stopped s
      | .ok s _ =>
        match laneBad x f w a (if iOutY r = 0 then none else some y) with
        | some k => .stopped (engFault s e 0x0150 [k])
        | none =>
          .hold (setLane (useBuf s (e - 7) f.part) f j
            { nth f.lanes j {} with issued := true, x0 := pF w 5 14, lw := pF w 19 14, vl := pF w 33 5, vr := pF w 38 5,
                                    vt := pF w 43 5, vb := pF w 48 5, stages := pF w 53 11 })

/-- What LANE does at issue: its lane begins; then it holds until the last row is written (R220, R222). -/
def laneAct (e : Nat) (w : BitVec 256) (s : State) : Eff :=
  match (getPipe s (e - 7)).lane with
  | none => .stopped (engFault s e 0x0150 [6])
  | some (c, n, j) =>
    match findFrame s c n with
    | none => .stopped (engFault s e 0x0150 [6])
    | some f =>
      let l := nth f.lanes j {}
      if l.fin then .stopped (engFault s e 0x0150 [7])
      else if l.issued = false then laneBegin s e w f j
      else if iHeight (getI s c).record ≤ l.rows then .act (setLane s f j { l with fin := true })
      else .hold s

/-- LANE. -/
def laneWord (e : Nat) (w : BitVec 256) (s : State) : State :=
  if 7 ≤ e ∧ e < 11 then
      issue s e w (rsvReason (pF w 64 56) ++ singleCycle w
        ++ when (pF w 19 14 == 0 || decide (16 < pF w 33 5) || decide (16 < pF w 38 5) || decide (16 < pF w 43 5) || decide (16 < pF w 48 5)) 1)
        (laneAct e w)
    else s

/-! ### Output rows (R315, R316, R322, R326, R328) -/

/-- Byte `i` of line `k` of a direct frame in the raw buffer (R294). -/
def rawByte (s : State) (f : IspFrame) (k i : Nat) : Nat :=
  let r := camRec s f.ctx
  (rdByte s.isp.raw (512 * (cRbBase r + (f.rbFirst + k * f.rpl + i / 512) % cRbRows r) + i % 512)).toNat

/-- The pixels of a fed frame that a lane reads for output row `y`, verges included (R317, R322), through its source descriptor: the state,
their codes by channel and coordinates, and whether a row was poisoned. -/
def fedPixels (s : State) (p : Nat) (f : IspFrame) (l : LaneSt) (y : Nat) : State × (Nat → Nat → Nat → Nat) × Bool :=
  let r := (getI s f.ctx).record
  let d := tdesc s (iSrcDesc r)
  let plane := f.frame % d.dim 3
  let nx := l.lw + l.vl + l.vr
  let nc := if colourDt f.dt then 3 else 1
  let at_ := (List.range (nx * (l.vt + l.vb + 1) * nc)).map (fun k =>
    (k % nc, mirror (iWidth r) ((l.x0 + k / nc % nx : Nat) - l.vl), mirror (iHeight r) ((y + k / nc / nx : Nat) - l.vt)))
  let q := tensRead s (engMaster (7 + p) f.part) .image d (at_.map (fun c =>
    (((c.1 : Nat) : Int), ((c.2.1 : Nat) : Int), ((c.2.2 : Nat) : Int), ((plane : Nat) : Int))))
  (q.1, fun c px py => ((at_.idxOf? (c, px, py)).map (fun k => nth q.2.1 k 0)).getD 0, q.2.2)

/-- What a lane computes from; `fed` gives the pixels of a fed frame. -/
def laneEnv (s : State) (f : IspFrame) (l : LaneSt) (fed : Nat → Nat → Nat → Nat) : PixEnv :=
  let x := getI s f.ctx
  { r := x.record, t := x.tables, wb := f.gains.getD x.wb, stages := l.stages, colour := colourDt f.dt,
    raw := fun px py => if f.fed then fed 0 px py else csiRaw f.dt (rawByte s f py) px,
    rgb := fun px py =>
      if f.fed then
        let g := fun (c : Nat) => (Config.rgb16 (fed c px py)).toNat
        ⟨g 0, g 1, g 2⟩
      else csiRgb f.dt (rawByte s f py) px }

/-- Elements of a row of an output, by nibble offset: `v` gives channel `ch` of output column `x`. -/
def rowEls (d : TDesc) (x0 n y : Nat) (v : Nat → Nat → Nat) : Tab Nat :=
  ((List.range n).flatMap (fun (i : Nat) => (List.range (d.dim 0)).map (fun (ch : Nat) =>
    (d.coords ch (x0 + i : Nat) y 0).map (fun c => (d.nibOff c, ispEnc d.fmt (v (x0 + i) ch)))))).filterMap id

/-- A channel of a pixel. -/
def Rgb.ch (p : Rgb) (i : Nat) : Nat := if i = 0 then p.r else if i = 1 then p.g else p.b

/-- Output row `y` of a lane is written (R316): OUT_Y at full resolution, OUT_A once its box rows are complete. -/
def writeRow (s : State) (e : PixEnv) (p : Nat) (f : IspFrame) (l : LaneSt) (y : Nat) : State :=
  let r := (getI s f.ctx).record
  let m := engMaster (7 + p) f.part
  let k := iF r
  if e.on 9 then
    let s := if iOutY r = 0 then s else
      let d := tdesc s (iOutY r)
      tensWrite s m .image d (rowEls d l.x0 l.lw y (fun x _ => luma (e.s9 x y)))
    if y % k = k - 1 ∨ y + 1 = iHeight r then
      let d := tdesc s (iOutA r)
      tensWrite s m .image d (rowEls d (l.x0 / k) (l.lw / k) (y / k) (fun x ch => (e.box x (y / k)).ch ch))
    else s
  else s

/-- The statistics of one row of a lane are added (R328). -/
def rowStats (e : PixEnv) (f : IspFrame) (l : LaneSt) (y : Nat) : IspFrame :=
  if e.on 10 then
    let add := fun (t : Tab Nat) (k v : Nat) => tabPut t k (tabGet t k 0 + v) 0
    (List.range l.lw).foldl (fun f i =>
      let x := l.x0 + i
      let q := e.s3 x y
      let z := e.zone x y
      let zones := if q.r < 65280 ∧ q.g < 65280 ∧ q.b < 65280 then
        add (add (add f.zones (3 * z) (q.r / 256)) (3 * z + 1) (q.g / 256)) (3 * z + 2) (q.b / 256) else f.zones
      { f with hist := add f.hist (e.luma4 x y / 1024) 1, zones := zones, focus := add f.focus z (e.focusAt x y) }) f
  else f

/-- Lines of a frame that every lane has passed (R326). -/
def passedLines (r : Bytes) (f : IspFrame) : Nat :=
  f.lanes.foldl (fun n l => min n (if l.issued = false then 0 else if iHeight r ≤ l.rows then iHeight r else l.rows - l.vt)) f.linesIn

/-- ISP_OUTPUT_ROW (R322): the lane on a pipe completes its next output row, whose input lines have come; a fed frame's
pixels in DRAM may have to wait (R352). -/
def outputRow (p : Nat) (s : State) : State :=
  match (getPipe s p).lane with
  | none => s
  | some (c, n, j) =>
    match findFrame s c n with
    | none => s
    | some f =>
      let l := nth f.lanes j {}
      let h := iHeight (getI s c).record
      if l.issued ∧ l.rows < h ∧ (getE s (7 + p)).st = .held ∧ min (h - 1) (l.rows + l.vb) < f.linesIn
          ∧ !(f.fed && dramWaits s 9 (tdesc s (iSrcDesc (getI s c).record)).base) then
        let px := if f.fed then fedPixels s p f l l.rows else (s, fun _ _ _ => 0, false)
        if px.2.2 then engHalt px.1 (7 + p)
        else
          let e := laneEnv px.1 f l px.2.1
          let f1 := rowStats e f l l.rows
          let f1 := { f1 with lanes := f1.lanes.set j { l with rows := l.rows + 1 } }
          let q := releaseLines (writeRow px.1 e p f l l.rows) f1 (passedLines (getI s c).record f1)
          setFrame q.1 q.2
      else s

/-- ISP_OUTPUT_ROW. -/
def execIspOutputRow (p : Nat) (s : State) : Host.Outcome State Fault Refusal := .next (outputRow p s)

end Sys2Proof.Machine
end

