-- ==== Sys2Proof/Machine/Codec.lean ====
section
/-! DEFINITION. The codec cores (R339 to R349): choice, checks, start and completion of jobs. What a codec computes is left to its
standard, and its results are free (log entry 22). -/

namespace Sys2Proof.Machine

/-- The head job of a queue of core `k`: its rank (R344), the queue and the entry. -/
def codecHeads (s : State) (k : Nat) : List ((Nat × Nat × Nat) × Nat × QEntry) :=
  s.qm.filterMap (fun x =>
    if x.2.consumer = 24 + k ∧ qBound x.2 then
      match x.2.entries.head? with
      | some e => if e.cairn then none else
          match e.item.bind (armedOf s) with
          | some a => some ((0, a.deadline, x.1), x.1, e)
          | none => some ((1, 0, x.1), x.1, e)
      | none => none
    else none)

/-- The job a core chooses (R344). -/
def codecChoice (s : State) (k : Nat) : Option (Nat × QEntry) :=
  ((codecHeads s k).foldl (fun b x => match b with
    | none => some x
    | some y => if x.1.1 < y.1.1 ∨ (x.1.1 = y.1.1 ∧ (x.1.2.1 < y.1.2.1 ∨ (x.1.2.1 = y.1.2.1 ∧ x.1.2.2 < y.1.2.2))) then some x else some y)
    (none : Option ((Nat × Nat × Nat) × Nat × QEntry))).map (·.2)

/-- A chroma plane's size fits its luma's (R339, R341). -/
def chromaFits (codec w h cw ch : Nat) : Bool :=
  (cw == (w + 1) / 2 && ch == (h + 1) / 2) || (codec == 3 && (ch == h && (cw == (w + 1) / 2 || cw == w)))

/-- The largest picture of a codec (R339). -/
def codecMax (codec : Nat) : Nat × Nat := if codec < 2 then (8192, 4352) else if codec = 2 then (4096, 2304) else (16384, 16384)

/-- A job descriptor on core `k` breaks a rule of R339, R341 or R343: `y` and `c` are its picture descriptors. -/
def codecRefused (k : Nat) (r : Bytes) (y c : TDesc) : Bool :=
  let fl := jFlags r
  let codec := jCodec r
  let dec := decide (2 ≤ k)
  let ten := bitOf fl 2
  let rgb := bitOf fl 3
  let fmt := if ten then 6 else 0
  decide (1 < jOp r) || decide (3 < codec) || decide (16 ≤ fl) || decide (2 < leAt r 3 1) || (r.drop 50).any (· != 0)
    || (jOp r == 1) != dec || (bitOf fl 0 && (k % 2 == 1 || decide (2 ≤ codec))) || (ten && decide (2 ≤ codec)) || (rgb && (dec || ten))
    || (codec == 3 && !dec && (leAt r 4 2 == 0 || decide (100 < leAt r 4 2)))
    || (y.bad dec false).isSome || y.dim 0 != (if rgb then 3 else 1) || y.fmt != fmt || decide ((codecMax codec).1 < y.dim 1)
    || decide ((codecMax codec).2 < y.dim 2)
    || (if rgb then false
        else if jPicC r = 0 then !(codec == 1 || codec == 3)
        else (c.bad dec false).isSome || c.dim 0 != 2 || c.fmt != fmt || !chromaFits codec (y.dim 1) (y.dim 2) (c.dim 1) (c.dim 2))

/-- The commit bits of a decoder's outputs (R341). -/
def codecCommit (s : State) (k : Nat) (j : CdcJob) (v : Bool) : State :=
  let m := codecMaster k j.part
  let s := (putCommit s m (jPicY j.desc) v).1
  if jPicC j.desc = 0 then s else (putCommit s m (jPicC j.desc) v).1

/-- The state with a core's job replaced. -/
def setJob (s : State) (k : Nat) (j : Option CdcJob) : State := { s with cdc := { s.cdc with jobs := s.cdc.jobs.set k j } }

/-- A core takes a job: at a change of partition its tile memory and its share of the codec buffers are cleared (R31). -/
def coreTurn (s : State) (k part : Nat) : State :=
  useBuf (turnBuf (if (nth s.cdc.prev k none).all (· == part) then s else clearTile s (9 + k)) (5 + k) part) (5 + k) part

/-- A checked job begins on core `k` (R31, R340, R341). -/
def beginJob (s : State) (k : Nat) (j : CdcJob) : State :=
  let s := coreTurn s k j.part
  let s := { s with cdc := { s.cdc with prev := s.cdc.prev.set k (some j.part) } }
  let one := j.pair && decide (2 ≤ k) && Config.codecOneTile s.free
  let j := { j with pair := j.pair && !one, single := one }
  let s := setJob (drawn s) k (some j)
  let s := if j.pair then
      let s := coreTurn s (k + 1) j.part
      setJob { s with cdc := { s.cdc with prev := s.cdc.prev.set (k + 1) (some j.part) } } (k + 1) (some j)
    else s
  if 2 ≤ k then codecCommit s k j false else s

/-- A descriptor asks its readers for a commit bit that is clear (R233 item 4). -/
def uncommitted (d : TDesc) : Bool := d.chkc && !d.commit

/-- Core `k` is enabled and runs nothing. -/
def coreFree (s : State) (k : Nat) : Bool := bitOf (getF s F.CDC_CTL_ENABLE) k && (getJob s k).isNone

/-- A core's job is stopped by a fault: its completion has status 1, and its item is cancelled (R56, R347). -/
def stopJob (s : State) (k : Nat) (j : CdcJob) : State :=
  let s := jobEnd s k j 1 0 0
  match j.item with
  | some i => cancelItem s i
  | none => s

/-- CODEC_JOB_START (R343, R344, R348): a free core chooses its next job, which begins or is refused; a paired job waits for both
cores. An encoder does not begin on a picture that asks for a commit bit that is clear: TENSOR_UNCOMMITTED, and the job is stopped (R233);
a poisoned descriptor stops it too (R152). -/
def codecStart (k : Nat) (s : State) : State :=
  if 4 ≤ k ∨ !powered s domCodec ∨ !coreFree s k then s
  else match codecChoice s k with
    | none => s
    | some (q, e) =>
      if dramWaits s 8 (leAt e.data 0 8) then s else
      let part := (getQ s q).part
      let m := codecMaster k part
      let d := readBytes s m .system 1 (leAt e.data 0 8) 64
      let y := readBytes d.1 m .system 1 (jPicY d.2.1) 64
      let c := if jPicC d.2.1 = 0 then (y.1, [], false) else readBytes y.1 m .system 1 (jPicC d.2.1) 64
      let bad := d.2.2 || y.2.2 || c.2.2
      let d := d.2.1
      let j : CdcJob := { desc := d, part := part, item := e.item, pair := bitOf (jFlags d) 0 }
      let yd : TDesc := { addr := jPicY d, raw := y.2.1 }
      let cd : TDesc := { addr := jPicC d, raw := c.2.1 }
      if bad then stopJob (popQ c.1 q) k { j with pair := false }
      else if codecRefused k d yd cd then
        jobEnd (raise (popQ c.1 q) false 0x0152 2 (some part) 15 (boundId s e.item) []) k { j with pair := false } 2 0 0
      else if j.pair ∧ !coreFree s (k + 1) then s
      else if k < 2 ∧ (uncommitted yd ∨ (jPicC d ≠ 0 ∧ !bitOf (jFlags d) 3 ∧ uncommitted cd)) then
        stopJob (raise (popQ c.1 q) false 0x0141 2 (some part) 15 (boundId s e.item) []) k { j with pair := false }
      else beginJob (popQ c.1 q) k j

/-- CODEC_JOB_START. -/
def execCodecJobStart (k : Nat) (s : State) : Host.Outcome State Fault Refusal := .next (codecStart k s)

/-- What a job reads (R228, R341): an encoder its picture, a decoder its bitstream; the flag says that a row was poisoned. -/
def jobReads (s : State) (k : Nat) (j : CdcJob) : State × Bool :=
  let m := codecMaster k j.part
  let all := fun (d : TDesc) => (List.range (d.dim 0 * d.dim 1 * d.dim 2)).map (fun i => d.flat i)
  if 2 ≤ k then
    let r := readBytes s m .system (jBsBytes j.desc / 512 + 1) (jBs j.desc) (jBsBytes j.desc)
    (r.1, r.2.2)
  else
    let y := tdesc s (jPicY j.desc)
    let r := tensRead s m .system y (all y)
    if jPicC j.desc = 0 ∨ bitOf (jFlags j.desc) 3 then (r.1, r.2.2)
    else
      let c := tdesc s (jPicC j.desc)
      let t := tensRead r.1 m .system c (all c)
      (t.1, r.2.2 || t.2.2)

/-- CODEC_JOB_COMPLETE (R341, R346, R347): the job of core `k` ends, with its results. -/
def codecComplete (k : Nat) (s : State) : State :=
  match getJob s k with
  | none => s
  | some j =>
    if (j.pair ∧ k % 2 = 1) ∨ codecWaits s j then s
    else
      let r := jobReads s k j
      if r.2 then stopJob (jobWrites r.1 k j (jBsBytes j.desc)) k j
      else
        let s := r.1
        let d := s.free
        let len := Config.codecLen d
        let status := if 2 ≤ k then (if Config.codecBad d then 3 else 0) else if jBsBytes j.desc < len then 4 else 0
        let n := min len (jBsBytes j.desc)
        let key := decide (k < 2) && (bitOf (jFlags j.desc) 1 || s.cdc.keyNext.contains (jStream j.desc) || Config.codecKey d)
        let s := jobWrites (drawn s) k j n
        let s := if status = 0 then writeState s k j else s
        let s := if status = 0 ∧ 2 ≤ k then codecCommit s k j true else s
        jobEnd s k j status ((if key then 1 else 0) + (if j.single then 2 else 0)) n

/-- CODEC_JOB_COMPLETE. -/
def execCodecJobComplete (k : Nat) (s : State) : Host.Outcome State Fault Refusal := .next (codecComplete k s)

end Sys2Proof.Machine
end

