-- ==== Sys2Proof/Machine/Dram.lean ====
section
/-! DEFINITION. The DRAM controllers (R350 to R376): bursts, the skew monitor, refresh, training, error correction, XTS regions
and the scrub engine. -/

namespace Sys2Proof.Machine

/-- The master that the scrub engine is (R509). -/
def scrubMaster : Master := { code := 38, priv := true }

/-! ### XTS regions (R371, R372) -/

/-- The XTS region that holds an address. -/
def xtsOf (s : State) (a : Nat) : Option Xts := s.drc.xts.find? (fun x => decide (x.base ≤ a) && decide (a < x.base + x.size))

/-- The tag of a line as memory holds the line, and the address of its place in the tag area. -/
def lineTag (s : State) (x : Xts) (l : Nat) : Nat × Bytes :=
  (x.tags + (l - x.base) / 8, leBytes 8 (Config.xtsTag x.keys l (memRead s.mem l 64)).toNat)

/-- The tags of the lines of a range are written (R371). -/
def xtsSeal (s : State) (a n : Nat) : State :=
  (linesOf a n).foldl (fun s l => match xtsOf s l with
    | some x => memPut s (lineTag s x l).1 (lineTag s x l).2
    | none => s) s

/-- A line of the range fails its check (R372). -/
def xtsBad (s : State) (a n : Nat) : Bool :=
  (linesOf a n).any (fun l => (xtsOf s l).any (fun x => memRead s.mem (lineTag s x l).1 8 != (lineTag s x l).2))

/-- DRAM written, with the tags of XTS lines. -/
def dramPut (s : State) (a : Nat) (bs : Bytes) : State := xtsSeal (memPut s a bs) a bs.length

/-! ### DRAM_BURST (R351 to R357, R362, R368 to R372) -/

/-- The burst finds its row open: kept open since less than 9 µs (R362). -/
def rowOpen (s : State) (p : DramPos) : Bool :=
  let o := tabGet s.drc.open_ (16 * p.ch + p.bank) (0, 0)
  o.1 == p.row + 1 && decide (s.timeC < o.2 + 9000)

/-- DRAM_ROW_THROTTLE for a requester with its master's code and partition, at most once per 60 s (R357). -/
def throttleReport (s : State) (q : Nat × Nat × Nat) (p : DramPos) : State :=
  if (tabGet s.drc.thrAt q.1 none).all (fun t => decide (t + 60000000000 ≤ s.timeC)) then
    raise { s with drc := { s.drc with thrAt := tabPut s.drc.thrAt q.1 (some s.timeC) none } } false 0x0161 0 (some q.2.2) drcBlock 0xFFFF
      [q.2.1, p.ch, p.bank, p.row]
  else s

/-- The row is activated: its tracker counts (R356), and the throttle is reported of every requester that has activated the row (R357). -/
def activate (s : State) (m : Master) (r : Nat) (p : DramPos) : State :=
  let k := 65536 * (16 * p.ch + p.bank) + p.row
  let x := tabGet s.drc.acts k {}
  let n := x.count + 1
  let rep := n - Config.rhUnder s.free % 2077
  let reqs := if x.reqs.any (·.1 == r) then x.reqs else x.reqs ++ [(r, m.code, m.part)]
  let s := drawn { s with drc := { s.drc with
    acts := tabPut s.drc.acts k { count := n, rep := rep, reqs := reqs } {},
    open_ := tabPut s.drc.open_ (16 * p.ch + p.bank) (p.row + 1, s.timeC) (0, 0) } }
  if getF s F.DRC_RH_THRESH < rep then reqs.foldl (fun s q => throttleReport s q p) s else s

/-- The row is left as the page hint says: 1 keep open, 2 close after access, else as PAGE_DEFAULT (R362, R241). -/
def leaveRow (s : State) (p : DramPos) (page : Nat) : State :=
  if page = 2 ∨ (page ≠ 1 ∧ isSet s F.DRC_CFG_PAGE_DEFAULT) then
    { s with drc := { s.drc with open_ := tabPut s.drc.open_ (16 * p.ch + p.bank) (0, 0) (0, 0) } }
  else s

/-- What a read finds: a link error, 1 corrected or 2 uncorrectable after its repeats (R368); and, under in-band ECC, a stored error, 1
correctable or 2 not, which stands until it is written back or rewritten (R369, R370). Any other number: no such error. The flag says that
the data is poisoned. -/
def dramErr (s : State) (m : Master) (a len : Nat) (p : DramPos) (link ecc : Nat) : State × Bool :=
  let l := if link = 1 then (raise s false 0x0164 1 none drcBlock 0xFFFF [], false)
    else if link = 2 then (raise s false 0x0165 2 (some m.part) drcBlock 0xFFFF [a, p.ch, m.code], true)
    else (s, false)
  let c := dramEcc (if ecc = 1 ∨ ecc = 2 then markBlock l.1 a ecc else l.1) m a len
  (c.1, l.2 || c.2)

/-- The page hint that a request carries (R253): a stream DMA engine's, requesters 0 to 3, is that of the transfer whose burst it is; other
requests carry none, and the controller decides. -/
def pageHint (s : State) (r a : Nat) : Nat :=
  if r < 4 then (((getD s (r + 2)).bursts.find? (fun b => b.src / 512 == a / 512 || b.dst / 512 == a / 512)).map (·.page)).getD 0 else 0

/-- The burst of requester `r`, whose master is `m`, at `a` for `len` bytes (within one burst of 512): a write of `wr`, or a
read, which leaves its bytes with the master and finds the errors `link` and `ecc`. -/
def dramBurst (m : Master) (r a len : Nat) (wr : Option Bytes) (link ecc : Nat) (s : State) : State :=
  if len = 0 ∨ 512 < a % 512 + len ∨ 12 ≤ r ∨ region a ≠ .dram then s
  else if burstWaits s r (dramPos s a).ch then s
  else match busGate s m .system a len wr.isSome (leVal ((wr.getD []).take 4)) with
  | .refused s' _ => { s' with rd := List.replicate (if wr.isSome then 0 else len) 0, rdErr := false }
  | .silent => s
  | .pass =>
    let p := dramPos s a
    let s := if rowOpen s p then s else activate s m r p
    let s := leaveRow s p (pageHint s r a)
    match wr with
    | some bs => dramPut s a (bs.take len ++ List.replicate (len - bs.length) 0)
    | none =>
      let e := dramErr s m a len p link ecc
      if xtsBad e.1 a len then
        { raise e.1 false 0x0166 2 (some m.part) drcBlock 0xFFFF [] with rd := memRead s.mem a len, rdErr := true }
      else { e.1 with rd := memRead s.mem a len, rdErr := e.2 }

/-- DRAM_BURST. -/
def execDramBurst (m : Master) (r a len : Nat) (wr : Option Bytes) (link ecc : Nat) (s : State) :
    Host.Outcome State Fault Refusal := .next (dramBurst m r a len wr link ecc s)

/-! ### The skew monitor (R355) -/

/-- A channel is skewed in a window: its occupancy exceeds four times the mean of the 16, which is not zero. -/
def skewed (occ : List Nat) (ch : Nat) : Bool :=
  let sum := (List.range 16).foldl (fun a i => a + nth occ i 0) 0
  decide (sum ≠ 0) && decide (4 * sum < 16 * nth occ ch 0)

/-- The judgement of one channel: 64 consecutive skewed windows raise DRAM_SKEW, and every further 60,000 do. -/
def skewOne (occ : List Nat) (holders : List (Nat × Nat)) (s : State) (ch : Nat) : State :=
  let n := if skewed occ ch then nth s.drc.skew ch 0 + 1 else 0
  let s := { s with drc := { s.drc with skew := s.drc.skew.set ch n } }
  if 64 ≤ n ∧ (n - 64) % 60000 = 0 then
    let h := nth holders ch (0, 0)
    raise s false 0x0160 0 (some h.2) drcBlock 0xFFFF [ch, h.1]
  else s

/-- SKEW_WINDOW: `occ` are the window's occupancies by channel in one common unit, `holders` the master code and partition
with the largest share of each. -/
def skewWindow (occ : List Nat) (holders : List (Nat × Nat)) (s : State) : State :=
  if isSet s F.DRC_STAT_READY then (List.range 16).foldl (skewOne occ holders) s else s

/-- SKEW_WINDOW. -/
def execSkewWindow (occ : List Nat) (holders : List (Nat × Nat)) (s : State) : Host.Outcome State Fault Refusal :=
  .next (skewWindow occ holders s)

/-- RH_WINDOW_START (R356): the tracker of a bank clears. -/
def rhWindow (ch bank : Nat) (s : State) : State :=
  { s with drc := { s.drc with acts := tabDrop s.drc.acts (65536 * (16 * ch + bank)) 65536 } }

/-- RH_WINDOW_START. -/
def execRhWindowStart (ch bank : Nat) (s : State) : Host.Outcome State Fault Refusal := .next (rhWindow ch bank s)

/-! ### Temperature and refresh (R358 to R361) -/

/-- DRAM_TEMP_READ: the packages' temperatures in thousandths of a degree; HOT marks those above 85 °C. -/
def tempRead (t : List Int) (s : State) : State :=
  setF s F.DRC_STAT_HOT ((List.range 4).foldl (fun v p => if 85000 < nth t p 0 then v + 2 ^ p else v) 0)

/-- DRAM_TEMP_READ. -/
def execDramTempRead (t : List Int) (s : State) : Host.Outcome State Fault Refusal := .next (tempRead t s)

/-- A refresh of a bank falls due (R359, R360, R365); `busy`: the bank has requests queued. Whatever row is open closes
(R362). -/
def refreshDue (ch bank : Nat) (busy : Bool) (s : State) : State :=
  if 16 ≤ ch ∨ 16 ≤ bank then s
  else
    let n := getRefr s ch bank
    let s := { s with drc := { s.drc with open_ := tabPut s.drc.open_ (16 * ch + bank) (0, 0) (0, 0) } }
    if n < 0 then setRefr s ch bank (n + 1)
    else if retraining s ch then setRefr s ch bank (n + 1)
    else if !busy then setRefr s ch bank 0
    else if n < 8 then setRefr s ch bank (n + 1)
    else forceRefresh (setRefr s ch bank 8) ch

/-- REFRESH_DUE. -/
def execRefreshDue (ch bank : Nat) (busy : Bool) (s : State) : Host.Outcome State Fault Refusal := .next (refreshDue ch bank busy s)

/-- WRITE_LINK_POLL (R368): for each package, whether its count of corrected and of uncorrectable write-link errors rose. -/
def writeLinkPoll (l : List (Bool × Bool)) (s : State) : State :=
  (l.take 4).foldl (fun s x =>
    let s := if x.1 then raise s false 0x0164 1 none drcBlock 0xFFFF [] else s
    if x.2 then raiseDevice s false 0x0165 drcBlock 0xFFFF [] else s) s

/-- WRITE_LINK_POLL. -/
def execWriteLinkPoll (l : List (Bool × Bool)) (s : State) : Host.Outcome State Fault Refusal := .next (writeLinkPoll l s)

/-! ### Initialisation and training (R354, R363 to R366, R369) -/

/-- The write of DRC_CFG (R354, R374, R505). -/
def drcCfgWrite (m : Master) (v : Nat) (s : State) : State :=
  gated s false drcBlock 0x10 m v (fun s =>
    let fs := [(F.DRC_CFG_HASH, bitsOf v 0 2), (F.DRC_CFG_IBECC, bitsOf v 2 1), (F.DRC_CFG_PAGE_DEFAULT, bitsOf v 3 1),
      (F.DRC_CFG_INIT, bitsOf v 31 1)]
    if isSet s F.DRC_CFG_INIT then
      if fs.any (fun x => ignoredChange s false x.1 x.2) then cfgIgnored s false drcBlock 0x10 m v else s
    else fs.foldl (fun s x => setF s x.1 x.2) s)

/-- DRC_CFG_INIT: DRC_CFG is written with INIT = 1. -/
def execDrcCfgInit (m : Master) (v : BitVec 32) (s : State) : Host.Outcome State Fault Refusal :=
  .next (if bitOf v.toNat 31 then drcCfgWrite m v.toNat s else s)

/-- 31 GiB: the part of DRAM that holds no check bits under in-band ECC (R364, R369). -/
def ibeccLimit : Nat := 0x7C0000000

/-- READY, after the zero-fill that in-band ECC asks for (R364, R369). -/
def dramReady (s : State) : State :=
  setF (if isSet s F.DRC_CFG_IBECC then { s with mem := tabDrop s.mem 0 ibeccLimit } else s) F.DRC_STAT_READY 1

/-- DRAM_TRAINING (R363): `ok1` and `ok2` say whether the first sequence and its repetition succeed.
DRAM is not brought up in recovery (R460). -/
def dramTraining (ok1 ok2 : Bool) (s : State) : State :=
  if compDown s ∨ !isSet s F.DRC_CFG_INIT ∨ isSet s F.DRC_STAT_READY ∨ getF s F.EMN_BOOT_STAT_STAGE = 7 then s
  else if ok1 || ok2 then dramReady s
  else raiseDevice s false 0x0167 drcBlock 0xFFFF []

/-- DRAM_TRAINING. -/
def execDramTraining (ok1 ok2 : Bool) (s : State) : Host.Outcome State Fault Refusal := .next (dramTraining ok1 ok2 s)

/-- DRAM_RETRAIN_OVERDUE (R365). -/
def execDramRetrainOverdue (_ch : Nat) (s : State) : Host.Outcome State Fault Refusal :=
  .next (raise s false 0x0163 0 none drcBlock 0xFFFF [])

/-- The write of DRC_TRN_CTL (R364, R366, R376): OWNER locks with INIT, and GO starts a run on the selected channel. -/
def drcTrnWrite (m : Master) (v : Nat) (s : State) : State :=
  gated s false drcBlock 0x34 m v (fun s =>
    let lock := isSet s F.DRC_CFG_INIT
    let s := if lock ∧ ignoredChange s false F.DRC_TRN_CTL_OWNER (bitsOf v 4 1) then cfgIgnored s false drcBlock 0x34 m v else s
    let s := wrField s (!lock) F.DRC_TRN_CTL_OWNER (bitsOf v 4 1)
    let s := setF (setF s F.DRC_TRN_CTL_PATTERN (bitsOf v 0 2)) F.DRC_TRN_CTL_OP (bitsOf v 2 2)
    let ch := getF s F.DRC_TRN_SEL_CH
    if bitOf v 31 ∧ bitsOf v 2 2 ≠ 3 then
      let x := tabGet s.drc.trn ch {}
      { s with drc := { s.drc with trnRun := s.drc.trnRun.filter (· != ch) ++ [ch],
                                   trn := tabPut s.drc.trn ch { x with done := false } {} } }
    else s)

/-- DRC_TRN_GO: DRC_TRN_CTL is written with GO = 1. -/
def execDrcTrnGo (m : Master) (v : BitVec 32) (s : State) : Host.Outcome State Fault Refusal :=
  .next (if bitOf v.toNat 31 then drcTrnWrite m v.toNat s else s)

/-- DRC_TRN_DONE (R364): a helper's run ends, with its error counts and deskews by bit (0 to 15 DQ, 16 and 17 DMI). -/
def trnDone (ch : Nat) (errors deskew : List Nat) (s : State) : State :=
  if s.drc.trnRun.contains ch then
    { s with drc := { s.drc with
        trnRun := s.drc.trnRun.filter (· != ch),
        trn := tabPut s.drc.trn ch { errors := (errors.take 18).map (min 0xFFFFFF), deskew := (deskew.take 18).map (· % 128),
                                     done := true } {} } }
  else s

/-- DRC_TRN_DONE. -/
def execDrcTrnDone (ch : Nat) (errors deskew : List Nat) (s : State) : Host.Outcome State Fault Refusal :=
  .next (trnDone ch errors deskew s)

/-! ### The scrub engine (R373, R374) -/

/-- A ZERO enters the scrub engine; a fifth that would wait is not taken. -/
def zeroQueue (s : State) (base len : Nat) (down : Bool) : State :=
  if s.drc.zero.length < 5 then { s with drc := { s.drc with zero := s.drc.zero ++ [(base, len, down)] } } else s

/-- SCRUB_ZERO: Emino or the system partition's firmware starts a ZERO over a range aligned to 2 MiB. -/
def scrubZero (m : Master) (base len : Nat) (s : State) : State :=
  if (m.secure ∨ (m.priv ∧ m.part = 0)) ∧ base % 0x200000 = 0 ∧ len % 0x200000 = 0 ∧ 0 < len ∧ base + len ≤ 0x800000000 then
    zeroQueue s base len false
  else s

/-- SCRUB_ZERO. -/
def execScrubZero (m : Master) (base len : Nat) (s : State) : Host.Outcome State Fault Refusal := .next (scrubZero m base len s)

/-- SCRUB_ZERO_DONE: the last write of the ZERO that runs is acknowledged. -/
def scrubDone (s : State) : State :=
  match s.drc.zero with
  | [] => s
  | (base, len, down) :: rest =>
    let s := { s with drc := { s.drc with zero := rest }, sec := { s.sec with scrubLeft := s.sec.scrubLeft - if down then 1 else 0 } }
    let s := match busGate s scrubMaster .system base len true with
      | .pass => zeroMem s base len
      | .refused s' _ => s'
      | .silent => s
    setF s F.DRC_SCRUB_STAT_DONE 1

/-- SCRUB_ZERO_DONE. -/
def execScrubZeroDone (s : State) : Host.Outcome State Fault Refusal := .next (scrubDone s)

/-- The partition whose DRAM region holds an address. -/
def dramOwner (s : State) (a : Nat) : Option Nat := ownerOf s (fun x => inRegions x a 1)

/-- DRAM_PATROL: rows are patrolled, which finds errors in 64-byte blocks (address, and whether it is uncorrectable). -/
def dramPatrol (errs : List (Nat × Bool)) (s : State) : State :=
  if !isSet s F.DRC_CFG_IBECC ∨ !isSet s F.DRC_STAT_READY ∨ getF s F.DRC_SCRUB_CTL_PATROL_US = 0 ∨ s.drc.zero ≠ [] then s
  else errs.foldl (fun s x =>
    if ibeccLimit ≤ x.1 then s
    else if x.2 then
      raise (markBlock s x.1 2) false 0x0165 2 (dramOwner s x.1) drcBlock 0xFFFF [x.1, (dramPos s x.1).ch, scrubMaster.code]
    else raise s false 0x0164 1 none drcBlock 0xFFFF []) s

/-- DRAM_PATROL. -/
def execDramPatrol (errs : List (Nat × Bool)) (s : State) : Host.Outcome State Fault Refusal := .next (dramPatrol errs s)

end Sys2Proof.Machine
end

