-- ==== Sys2Proof/Machine/Dma.lean ====
section
/-! DEFINITION. The stream DMA engines (R215, R238 to R258, R527): XFER words and their descriptors, bursts and tags, COPY,
TENSOR, CSLOAD and SMALL transfers, inline cryptography and completions, and the writes of the footpath into tile memories (R261). -/

namespace Sys2Proof.Machine

/-! ### XFER (R215) -/

/-- The word in force: the last one, while bursts of it remain to be issued. -/
def wordNow (d : DmaEng) : Option DmaWord := d.words.getLast?.filter (fun x => !x.issued)

/-- The state with the word in force replaced. -/
def setWord (d : DmaEng) (x : DmaWord) : DmaEng := { d with words := d.words.map (fun y => if y.serial = x.serial then x else y) }

/-- The transfer in force ends (R248): its unused credits return, and the next descriptor follows. -/
def endXfer (s : State) (e : Nat) : State :=
  let d := getD s e
  match d.xfer, wordNow d with
  | some x, some w =>
    let s := setD s e (setWord { d with xfer := none } { w with next := w.next + 1 })
    match x.tile with
    | some t => returnUnspent s e t (xWin x.raw)
    | none => s
  | _, _ => s

/-- The completion entry of R250. -/
def xferEntry (w : DmaWord) (e tick : Nat) : Bytes :=
  leBytes 2 w.pc ++ leBytes 1 e ++ leBytes 1 w.status ++ leBytes 4 w.bytes ++ leBytes 2 w.bad ++ leBytes 2 (tick % 65536)
    ++ leBytes 4 0

/-- The completion entry of a word that POST names a queue for: the state, and whether the queue took it (R250). -/
def postEntry (s : State) (e : Nat) (w : DmaWord) : State × Bool :=
  match w.post with
  | some q => postData s q (xferEntry w e s.tick.num) (engCode e) (getE s e).part
  | none => (s, true)

/-- A word ends with status 5 or 6 on a descriptor (R249): its entry is posted whatever the status (R250). -/
def endWord (s : State) (e serial idx st : Nat) : State :=
  let s := setD s e (noteStatus (getD s e) serial idx st)
  match (getD s e).words.find? (fun w => w.serial == serial) with
  | some w => (postEntry s e w).1
  | none => s

/-- Status 6 (R249): the item stops as under R194. -/
def dmaUnreach (s : State) (e idx : Nat) : State :=
  match wordNow (getD s e) with
  | some w => engHalt (endWord s e w.serial idx 6) e
  | none => engHalt s e

/-- The next descriptor of a word is read and checked (R215, R241, R242); its block indices are checked as the transfer begins (R247). -/
def fetchDesc (s : State) (e : Nat) (w : DmaWord) : Eff :=
  let m := engMaster e (getE s e).part
  let a := nth w.descs w.next 0
  let skip := fun (s : State) => Eff.stay (setD s e (setWord (getD s e) { w with next := w.next + 1 }))
  match region a with
  | .mapStore | .ember | .tile _ =>
    let r := dmaRead s m false a 64
    if r.poison then .stopped (engHalt r.s e)
    else if r.why = some .unreach then .stopped (dmaUnreach r.s e w.next)
    else if dmaNoTile a ∨ (r.why = some .filter ∧ region a ≠ .mapStore ∧ region a ≠ .ember) then skip r.s
    else
      let raw := addOffsets r.data w.srcOff w.dstOff
      match descBad r.s m.part false raw with
      | some c => .stopped (engFault r.s e 0x0142 [c])
      | none => .stay (setD r.s e { getD r.s e with xfer := some { idx := w.next, addr := a, raw := raw } })
  | _ => .stopped (dmaUnreach (unreachable s m 2 a) e w.next)

/-- XFER acts (R215): the word comes into force, reads its descriptors one after another as each is carried out, and ends
when every burst has been issued. -/
def xferAct (e : Nat) (w : BitVec 256) (s : State) : Eff :=
  let g := getE s e
  let d := getD s e
  if laybyDue s e then .hold (closeStep (returnSpare s e)) else
  match wordNow d with
  | none =>
    let n := if pF w 0 8 = 0 then 256 else pF w 0 8
    let a := nth g.ags 0 {}
    let descs := ((agWord a (wAgc w 0) (wRepeat w + 1)).1.map (fun p =>
      (List.range n).map (fun k => (agAddr a p + 64 * k) % 2 ^ 48))).flatten
    let x : DmaWord := { serial := g.eff + 1, pc := g.pc, descs := descs, srcOff := (regRead s g (pF w 8 5)).toInt,
                         dstOff := (regRead s g (pF w 13 5)).toInt, taglim := if pF w 18 9 = 0 then 256 else pF w 18 9,
                         post := if pF w 27 1 = 1 then some (pF w 28 13) else none,
                         emit := if wEmit w then some (wEq w) else none }
    fetchDesc (setE (setD s e { d with words := d.words ++ [x] }) e { g with eff := g.eff + 1 }) e x
  | some x =>
    match d.xfer with
    | some y => if y.status ≠ 0 then .stay (endXfer s e) else .stay s
    | none =>
      if x.next < x.descs.length then fetchDesc s e x
      else .act (setD s e (setWord d { x with issued := true }))

/-- XFER. -/
def xferWord (e : Nat) (w : BitVec 256) (s : State) : State :=
  issue s e w (when (decide (256 < pF w 18 9)) 1 ++ rsvReason (pF w 41 79)
    ++ when (!regReadable (pF w 8 5) || !regReadable (pF w 13 5)) 3) (xferAct e w)

/-! ### Issuing bursts -/

/-- Tags outstanding (R251). -/
def tagsOut (d : DmaEng) : Nat := d.bursts.length + d.orphan

/-- The engine holds (R222). -/
def dmaHold (s : State) (e : Nat) : State := setE s e { getE s e with st := .held }

/-- A burst needs a credit that the engine does not hold (R248). -/
def noCredit (s : State) (e t w : Nat) : Bool := decide (heldBy (getW s t w) (engCode e) ≤ flying (getD s e) t w)

/-- The engine waits for a tag or for a credit of the transfer in force (R262). -/
def dmaStarved (s : State) (e : Nat) : Bool :=
  let d := getD s e
  match d.xfer, wordNow d with
  | some x, some w =>
    if xOp x.raw = 3 then s.fp.held.any (fun k => k.code == engCode e)
    else decide (min w.taglim (256 - withheld s (e - 2)) ≤ tagsOut d) || x.tile.any (fun t => noCredit s e t (xWin x.raw))
  | _, _ => false

/-- The epoch of the credits an engine holds (R141, R143): that of the window, or the one before while it is revoking. -/
def heldEpoch (x : Window) : Nat := if x.st = .revoking then (x.epoch + 255) % 256 else x.epoch

/-- A burst enters flight, and its block takes its ciphertext. -/
def pushBurst (s : State) (e : Nat) (b : DmaBurst) (blk : Option (DmaBlock × Nat × Bytes)) : State :=
  let d := getD s e
  let d := { d with bursts := d.bursts ++ [b] }
  match blk with
  | none => setD s e d
  | some (k, o, ct) =>
    let same := fun (x : DmaBlock) => x.word == k.word && x.desc == k.desc && x.idx == k.idx
    let old := (d.blocks.find? same).getD k
    let new := { old with cipher := tabPut old.cipher o ct [], left := old.left + 1 }
    setD s e { d with blocks := (if d.blocks.any same then d.blocks.map (fun x => if same x then new else x) else d.blocks ++ [new]) }

/-- One burst of a COPY or CSLOAD (R238, R243): the engine stopped, or the state. A burst into Map Store is a piece of a row that is written
whole. -/
def copyBurst (s : State) (e : Nat) (w : DmaWord) (x : DmaXfer) (g : Engine) : State ⊕ State :=
  let m := engMaster e g.part
  let sa := xSrc x.raw + x.pos
  let da := xDst x.raw + x.pos
  let n := min (xLen x.raw - x.pos) (min (512 - sa % 512) (512 - da % 512))
  let sa' := if region sa = .dram then swizzle sa (xMask x.raw false) else sa
  let da' := if region da = .dram then swizzle da (xMask x.raw true) else da
  let r := dmaRead s m (xCrypt x.raw != 0) sa' n
  if r.poison then .inl (engHalt r.s e)
  else if r.why = some .unreach then .inl (dmaUnreach r.s e x.idx)
  else
    let x' := { x with pos := x.pos + n }
    let s := setD r.s e { getD r.s e with xfer := some x' }
    if (tileOf sa).isSome ∧ r.why = some .filter then .inr s
    else
      let bi := xBlock0 x.raw + x.pos / 4096
      let o := x.pos % 4096
      let key := ((keySlot s m.part (xSlot x.raw)).map (·.key)).getD 0
      let iv := gcmIv x.nonce bi
      let out := if xCrypt x.raw = 0 then r.data else gcmXor key iv o r.data
      let ep := match tileOf da with
        | some t => heldEpoch (getW s t (xWin x.raw))
        | none => 0
      let b : DmaBurst := { word := w.serial, desc := x.idx, dst := da', data := out, src := sa', page := xFlags x.raw % 4,
                            cs := xOp x.raw == 2, win := xWin x.raw, epoch := ep, need := if region da = .mapStore then 512 else 0,
                            blk := if xCrypt x.raw = 0 then none else some bi }
      let k : DmaBlock := { word := w.serial, desc := x.idx, daddr := x.addr, idx := bi, slot := xSlot x.raw,
                            tagAt := xTagTab x.raw + 16 + 16 * bi, nonce := x.nonce, encrypt := xCrypt x.raw == 2 }
      .inr (pushBurst s e b (if xCrypt x.raw = 0 then none else some (k, o, if xCrypt x.raw = 1 then r.data else out)))

/-- The bursts of a COPY or CSLOAD, until it ends, holds or stops (R215, R248). -/
def copyLoop (e : Nat) : Nat → State → State
  | 0, s => s
  | n + 1, s =>
    let d := getD s e
    match d.xfer, wordNow d with
    | some x, some w =>
      if laybyDue s e then closeStep (returnSpare (dmaHold s e) e)
      else if x.status ≠ 0 ∨ xLen x.raw ≤ x.pos then endXfer s e
      else if min w.taglim (256 - withheld s (e - 2)) ≤ tagsOut d then dmaHold s e
      else if (tileOf (xDst x.raw + x.pos)).any (fun t => noCredit s e t (xWin x.raw)) then dmaHold s e
      else match copyBurst s e w x (getE s e) with
        | .inl s => s
        | .inr s => copyLoop e n s
    | _, _ => s

/-- A transfer in force of a given kind on an engine that runs, with its earlier writes acknowledged where FENCE asks for
it (R247). -/
def xferReady (s : State) (e op : Nat) : Option DmaXfer :=
  if (getE s e).st = .run ∧ (wordNow (getD s e)).isSome then (getD s e).xfer.filter (fun x => xOp x.raw == op) else none

/-- FENCE holds the engine at the start of a transfer while bursts are in flight (R247). -/
def fenced (s : State) (e : Nat) (x : DmaXfer) : Bool := bitOf (xFlags x.raw) 5 && x.pos == 0 && !(getD s e).bursts.isEmpty

/-- A COPY or CSLOAD begins: the tile memory it takes credits for, its tag table's header and the check of its block indices (R242 reason 5,
R256), and the header that CRYPT 2 writes with the key's next nonce (R258). -/
def openXfer (s : State) (e : Nat) (x : DmaXfer) : State ⊕ State :=
  let m := engMaster e (getE s e).part
  let x := { x with opened := true, tile := tileOf (xDst x.raw) }
  let h := tagHeader s m x.raw
  let s := h.1.s
  if h.1.poison then .inl (engHalt s e)
  else if h.1.why = some .unreach then .inl (dmaUnreach s e x.idx)
  else if h.2 then .inl (engFault s e 0x0142 [5])
  else if xCrypt x.raw ≠ 2 then .inr (setD s e { getD s e with xfer := some { x with nonce := h.1.data.take 8 } })
  else
    let k := (tabGet s.sec.slots (xSlot x.raw) none).getD { key := 0 }
    let c := (k.nonce + 1) % 2 ^ 64
    let s := { s with sec := { s.sec with slots := tabPut s.sec.slots (xSlot x.raw) (some { k with nonce := c }) none,
                                          nonces := s.sec.nonces.filter (fun y => y.1 != k.key) ++ [(k.key, c)] } }
    let s := (busWrite s m (.dma false) (xTagTab x.raw) (leBytes 8 c ++ (h.1.data.drop 8).take 4 ++ leBytes 4 0)).1
    .inr (setD s e { getD s e with xfer := some { x with nonce := leBytes 8 c } })

/-- DMA_COPY (R243): the COPY descriptor in force issues the bursts its tags and credits allow. -/
def dmaCopy (e : Nat) (s : State) : State :=
  match xferReady s e 0 with
  | none => s
  | some x =>
    if fenced s e x then dmaHold s e
    else match (if x.opened then .inr s else openXfer s e x) with
      | .inl s => s
      | .inr s => copyLoop e (xLen x.raw + 1) s

/-- DMA_COPY. -/
def execDmaCopy (e : Nat) (s : State) : Host.Outcome State Fault Refusal := .next (dmaCopy e s)

/-- DMA_CSLOAD (R245): a store that is locked, or becomes so while the transfer runs, refuses it and stops the item (R185). -/
def dmaCsload (e : Nat) (s : State) : State :=
  match xferReady s e 2 with
  | none => s
  | some x =>
    if fenced s e x then dmaHold s e
    else if storeLocked s (xDst x.raw) then
      engHalt (csLocked s (engMaster e (getE s e).part) (engBlock e) (engItem s e) (xDst x.raw)) e
    else match (if x.opened then .inr s else openXfer (clearLevelBad s (xDst x.raw)) e x) with
      | .inl s => s
      | .inr s => copyLoop e (xLen x.raw + 1) s

/-- DMA_CSLOAD. -/
def execDmaCsload (e : Nat) (s : State) : Host.Outcome State Fault Refusal := .next (dmaCsload e s)

/-! ### TENSOR (R244) -/

/-- Stored coordinates of the element at a nibble offset. -/
def TDesc.at_ (d : TDesc) (no : Nat) : Nat × Nat × Nat × Nat :=
  let o := no / 2
  let r := o % d.planeStride % d.rowPitch
  ((2 * (r % d.posStride) + no % 2) / d.nib, r / d.posStride, o % d.planeStride / d.rowPitch, o / d.planeStride)

/-- In-bounds elements of logical line `l` of a tensor, by nibble offset. -/
def lineElems (d : TDesc) (l : Nat) : List Nat :=
  ((List.range (1024 / d.nib)).map (fun i => 1024 * l + i * d.nib)).filter d.isElem

/-- Access coordinates that a stored element of a written descriptor has (R227). -/
def accessAt (d : TDesc) (no : Nat) : Int × Int × Int × Int :=
  let c := d.at_ no
  (c.1 - d.off 0, c.2.1 - d.off 1, c.2.2.1 - d.off 2, c.2.2.2 - d.off 3)

/-- A source line of a read cannot be reached (R36). -/
def srcUnreach (s : State) (m : Master) (d : TDesc) (cs : List (Int × Int × Int × Int)) : Bool :=
  cs.any (fun c => match d.coords c.1 c.2.1 c.2.2.1 c.2.2.2 with
    | some c => (match busGate s m (.dma false) (512 * d.lineOf c) 512 false with
      | .refused _ .unreach => true
      | _ => false)
    | none => false)

/-- Source lines of the elements of a destination line, in the order in which they are first needed: each is the source of one burst (R238). -/
def sourceLines (sd : TDesc) (cs : List (Int × Int × Int × Int)) : List Nat :=
  (cs.filterMap (fun c => (sd.coords c.1 c.2.1 c.2.2.1 c.2.2.2).map sd.lineOf)).eraseDups

/-- One burst of a TENSOR copy: the elements of one destination line that one source line holds; those that read PAD come with the first.
The pieces of a row of Map Store or of a tile memory are written together (R230). -/
def tensorBurst (s : State) (e : Nat) (w : DmaWord) (x : DmaXfer) (sd dd : TDesc) (part : Nat) : State ⊕ State :=
  let m := engMaster e part
  let all := lineElems dd x.pos
  let lines := sourceLines sd (all.map (accessAt dd))
  let mine := fun (no : Nat) => match (let c := accessAt dd no; (sd.coords c.1 c.2.1 c.2.2.1 c.2.2.2).map sd.lineOf) with
    | some l => lines[x.sub]? == some l
    | none => x.sub == 0
  let nos := all.filter mine
  let cs := nos.map (accessAt dd)
  let x' := if lines.length ≤ x.sub + 1 then { x with pos := x.pos + 1, sub := 0 } else { x with sub := x.sub + 1 }
  let s := setD s e { getD s e with xfer := some x' }
  if nos = [] then .inr s
  else if (tileOf sd.base).isSome ∧ (dmaNoTile sd.base ∨ filterPass s m sd.base 1 = false) then .inr (partFilter s m 0 sd.base 0)
  else
    let un := srcUnreach s m sd cs
    let r := tensRead s m (.dma false) sd cs
    if un then .inl (dmaUnreach r.1 e x.idx)
    else if r.2.2 then .inl (engHalt r.1 e)
    else
      let els := (List.range nos.length).map (fun i => (nth nos i 0, nth r.2.1 i 0))
      let a := dd.byteAddr (512 * x.pos)
      let ep := match tileOf a with
        | some t => heldEpoch (getW r.1 t (xWin x.raw))
        | none => 0
      .inr (pushBurst r.1 e { word := w.serial, desc := x.idx, dst := a, data := [], src := 512 * nth lines x.sub 0,
                              page := xFlags x.raw % 4, tdst := some dd.addr, mask := dd.mask, els := els,
                              need := if region a = .mapStore ∨ (tileOf a).isSome then all.length else 0,
                              win := xWin x.raw, epoch := ep } none)

/-- The descriptor of a tensor, with the transfer's swizzle mask. -/
def tdescM (s : State) (a mask : Nat) : TDesc := { addr := a, raw := memRead s.mem a 64, mask := mask }

/-- The bursts of a TENSOR copy. -/
def tensorLoop (e : Nat) : Nat → State → State
  | 0, s => s
  | n + 1, s =>
    let d := getD s e
    match d.xfer, wordNow d with
    | some x, some w =>
      let sd := tdescM s (xSrc x.raw) (xMask x.raw false)
      let dd := tdescM s (xDst x.raw) (xMask x.raw true)
      if x.status ≠ 0 ∨ dd.alloc ≤ 512 * x.pos then endXfer s e
      else if min w.taglim (256 - withheld s (e - 2)) ≤ tagsOut d then dmaHold s e
      else if x.sub = 0 ∧ (tileOf (dd.byteAddr (512 * x.pos))).any (fun t => noCredit s e t (xWin x.raw)) then dmaHold s e
      else match tensorBurst s e w x sd dd (getE s e).part with
        | .inl s => s
        | .inr s => tensorLoop e n s
    | _, _ => s

/-- First use of a tensor descriptor by a stream DMA engine (R225, R233, R527): the engine stopped or the transfer ended, or the
descriptor. From a tile memory that the engine may not read it issues nothing. -/
def dmaDesc (s : State) (e : Nat) (x : DmaXfer) (a : Nat) (written : Bool) : State ⊕ (State × TDesc) :=
  let r := dmaRead s (engMaster e (getE s e).part) false a 64
  let d : TDesc := { addr := a, raw := r.data }
  if r.poison then .inl (engHalt r.s e)
  else if r.why = some .unreach then .inl (dmaUnreach r.s e x.idx)
  else if (tileOf a).isSome ∧ r.why = some .filter then .inl (endXfer r.s e)
  else match d.bad written true with
    | some c => .inl (engFault r.s e 0x0140 [c, a])
    | none => if !written && d.chkc && !d.commit then .inl (engFault r.s e 0x0141 []) else .inr (r.s, d)

/-- First use of the two descriptors of a TENSOR copy (R225, R233, R244): equal formats, and the destination's commit bit
cleared. -/
def openTensor (s : State) (e : Nat) (x : DmaXfer) : State ⊕ State :=
  match dmaDesc s e x (xSrc x.raw) false with
  | .inl s => .inl s
  | .inr (s, sd) =>
    match dmaDesc s e x (xDst x.raw) true with
    | .inl s => .inl s
    | .inr (s, dd) =>
      if sd.fmt ≠ dd.fmt then .inl (engFault s e 0x0140 [10, dd.addr])
      else
        let r := putCommit s (engMaster e (getE s e).part) dd.addr false
        if r.2 then .inl (engHalt r.1 e)
        else
          let d := getD r.1 e
          let ser := ((wordNow d).map (·.serial)).getD 0
          let c := if bitOf (xFlags x.raw) 4 then [(ser, x.idx, dd.addr)] else []
          .inr (setD r.1 e { d with commits := d.commits ++ c, xfer := some { x with tile := tileOf dd.base, opened := true } })

/-- A word has a descriptor with CRYPT to come. -/
def cryptAhead (s : State) (d : DmaEng) (ser : Nat) : Bool :=
  d.words.any (fun w => w.serial == ser && !w.issued && (w.descs.drop w.next).any (fun a =>
    let r := memRead s.mem a 64
    (xOp r == 0 || xOp r == 2) && xCrypt r != 0))

/-- A commit bit is set once every write of its transfer has been acknowledged (R244) and every block of its word has verified (R256). -/
def settleCommits (s : State) (e : Nat) : State :=
  let d := getD s e
  let busy := fun (c : Nat × Nat × Nat) => d.bursts.any (fun b => b.word == c.1 && b.desc == c.2.1)
    || (d.words.any (fun w => w.serial == c.1 && !w.issued) && d.xfer.any (fun x => x.idx == c.2.1))
    || d.blocks.any (fun b => b.word == c.1 && !b.ok) || cryptAhead s d c.1
  let go := d.commits.filter (fun c => !busy c)
  let s := setD s e { d with commits := d.commits.filter busy }
  go.foldl (fun s c => (putCommit s (engMaster e (getE s e).part) c.2.2 true).1) s

/-- DMA_TENSOR (R244). -/
def dmaTensor (e : Nat) (s : State) : State :=
  match xferReady s e 1 with
  | none => s
  | some x =>
    if fenced s e x then dmaHold s e
    else
      match (if x.opened then .inr s else openTensor s e x) with
      | .inl s => s
      | .inr s => settleCommits (tensorLoop e (((tdesc s (xDst x.raw)).alloc / 512 + 2) * 1024) s) e

/-- DMA_TENSOR. -/
def execDmaTensor (e : Nat) (s : State) : Host.Outcome State Fault Refusal := .next (dmaTensor e s)

/-! ### SMALL (R246, R261) -/

/-- Bytes from address `a` on as the whole 64-bit words of a row that hold them, zero elsewhere (R139). -/
def wordsOf (a : Nat) (bs : Bytes) : RowWords :=
  let lo := a / 8 * 8
  let n := ((a + bs.length + 7) / 8 * 8 - lo) / 8
  let pad := List.replicate (a - lo) (0 : Byte) ++ bs ++ List.replicate (8 * n - (a - lo) - bs.length) 0
  (List.range n).map (fun i => (lo / 8 % 64 + i, (pad.drop (8 * i)).take 8))

/-- The first window that is OPEN, contains a row and belongs to a partition (R261). -/
def fpWindow (s : State) (t row part : Nat) : Option Nat :=
  (List.range 8).find? (fun w => let x := getW s t w
    x.st == .opened && x.part == part && decide (x.base ≤ row) && decide (row < x.base + x.rows))

/-- The credit completion code of a footpath write that finds no window (R249, R261): closing, another partition's, closed. -/
def fpRefusal (s : State) (t row part : Nat) : Nat :=
  let c := (List.range 8).filter (fun w => let x := getW s t w
    x.st != .closed && decide (x.base ≤ row) && decide (row < x.base + x.rows))
  if c.any (fun w => (getW s t w).part == part) then 1 else if c.isEmpty then 2 else 4

/-- Credits that a master holds for a window beside those of its bursts in flight. -/
def spareCredits (s : State) (m : Master) (t w : Nat) : Nat :=
  heldBy (getW s t w) m.code - (if 23 ≤ m.code ∧ m.code ≤ 26 then flying (getD s (m.code - 21)) t w else 0)

/-- A footpath write into a tile memory (R261): it waits for its credit behind the requests that came before it (R141), or it is done
with a completion code. -/
def fpTileWrite (s : State) (m : Master) (a : Nat) (bs : Bytes) : State ⊕ (State × Nat) :=
  match tileOf a with
  | none => .inl s
  | some t =>
    let row := (a - tileAddr t) / 512
    match fpWindow s t row m.part with
    | none => .inr (s, fpRefusal s t row m.part)
    | some w =>
      let x := getW s t w
      if !isSet s F.CRD_CTL_ENABLE then .inr (s, 2)
      else if 0 < spareCredits s m t w then .inr (remoteWrite s m t w x.epoch row (wordsOf a bs))
      else if x.requests.isEmpty ∧ 0 < x.pool then
        let s := setW s t w { x with pool := x.pool - 1, outstanding := x.outstanding + 1,
                                     holders := tabPut x.holders m.code (heldBy x m.code + 1) 0 }
        .inr (remoteWrite s m t w x.epoch row (wordsOf a bs))
      else .inl (setW s t w { x with requests := if x.requests.any (fun y => y.1 == m.code) then x.requests else x.requests ++ [(m.code, 1)] })

/-- Footpath tags in use. -/
def fpTags (s : State) : Nat := s.fp.held.length + s.fp.granted.length

/-- Bytes cut into naturally aligned accesses of up to 64 bytes (R259). -/
def naturalParts : Nat → Nat → Bytes → List (Nat × Bytes)
  | 0, _, _ => []
  | k + 1, a, bs =>
    if bs = [] then []
    else
      let n := ([64, 32, 16, 8, 4, 2].find? (fun p => a % p == 0 && decide (p ≤ bs.length))).getD 1
      (a, bs.take n) :: naturalParts k (a + n) (bs.drop n)

/-- The footpath accesses of a SMALL (R246, R259): in a tile memory over whole 64-bit words, whose other bytes are zero (R139). -/
def smallParts (raw : Bytes) : List (Nat × Bytes) :=
  let a := xDst raw
  let bs := (raw.drop 32).take (xLen raw)
  if (tileOf a).isSome then
    let lo := a / 8 * 8
    let n := (a + bs.length + 7) / 8 * 8 - lo
    naturalParts 64 lo (List.replicate (a - lo) 0 ++ bs ++ List.replicate (n - (a - lo) - bs.length) 0)
  else naturalParts 64 a bs

/-- Bytes of the descriptor that a footpath access of it carries. -/
def partBytes (raw : Bytes) (p : Nat × Bytes) : Nat := min (p.1 + p.2.length) (xDst raw + xLen raw) - max p.1 (xDst raw)

/-- A word has written `n` bytes more (R250). -/
def countBytes (s : State) (e ser n : Nat) : State :=
  let d := getD s e
  setD s e { d with words := d.words.map (fun w => if w.serial = ser then { w with bytes := min (w.bytes + n) 0xFFFFFFFF } else w) }

/-- The engine's next footpath access may go: it holds a tag for it, has been granted one, or finds one free with none waiting (R260). -/
def smallTag (s : State) (k : FpAcc) : Option State :=
  if s.fp.held.contains k then some { s with fp := { s.fp with held := s.fp.held.erase k } }
  else if s.fp.granted.contains k.code then some { s with fp := { s.fp with granted := s.fp.granted.erase k.code } }
  else if fpTags s < 64 ∧ s.fp.waiting.isEmpty then some s
  else none

/-- The accesses of a SMALL, each under a footpath tag (R260), until it ends, waits or stops; `pos` counts those done. -/
def smallLoop (e : Nat) : Nat → State → State
  | 0, s => s
  | n + 1, s =>
    match (getD s e).xfer, wordNow (getD s e) with
    | some x, some w =>
      let m := engMaster e (getE s e).part
      match (smallParts x.raw)[x.pos]? with
      | none => endXfer s e
      | some p =>
        let k : FpAcc := { code := m.code, part := m.part, addr := p.1, len := p.2.length, wr := some p.2 }
        let on := fun (s : State) (got : Nat) =>
          let s := countBytes s e w.serial got
          smallLoop e n (setD s e { getD s e with xfer := some { x with pos := x.pos + 1 } })
        match smallTag s k with
        | none =>
          let s := bump s F.FP_STAT_WAITS 1
          dmaHold { s with fp := { s.fp with waiting := if s.fp.waiting.contains m.code then s.fp.waiting else s.fp.waiting ++ [m.code] } } e
        | some s =>
          match tileOf p.1 with
          | some t => match tileGate s m p.1 t with
            | .refused s _ => dmaUnreach s e x.idx
            | _ => match fpTileWrite s m p.1 p.2 with
              | .inl s => dmaHold { s with fp := { s.fp with held := s.fp.held ++ [k] } } e
              | .inr (s, 0) => on s (partBytes x.raw p)
              | .inr (s, c) => endXfer (abortXfer s e w.serial x.idx t ((fpWindow s t ((p.1 - tileAddr t) / 512) m.part).getD 0) c) e
          | none =>
            let r := busWrite s m (.dma false) (if region p.1 = .dram then swizzle p.1 (xMask x.raw true) else p.1) p.2
            if r.2 = some .unreach then dmaUnreach r.1 e x.idx else on r.1 (if r.2 = none then partBytes x.raw p else 0)
    | _, _ => s

/-- An earlier burst in flight goes to a row that a SMALL writes (R247). -/
def smallBehind (s : State) (e : Nat) (x : DmaXfer) : Bool :=
  (smallParts x.raw).any (fun p =>
    let a := if region p.1 = .dram then swizzle p.1 (xMask x.raw true) else p.1
    (getD s e).bursts.any (fun b => b.dst / 512 == a / 512))

/-- DMA_SMALL (R246): up to 32 inline bytes over the footpath, behind the engine's earlier writes to the same rows (R247). -/
def dmaSmall (e : Nat) (s : State) : State :=
  match xferReady s e 3 with
  | none => s
  | some x => if fenced s e x || smallBehind s e x then dmaHold s e else smallLoop e 65 s

/-- DMA_SMALL. -/
def execDmaSmall (e : Nat) (s : State) : Host.Outcome State Fault Refusal := .next (dmaSmall e s)

/-! ### BURST_COMPLETE (R239, R142, R245) -/

/-- Words that a tensor burst writes into a tile memory's row (R139, R230). -/
def tensorWords (d : TDesc) (els : Tab Nat) : RowWords :=
  (unitsOf els 16).map (fun l => (d.byteAddr (l * 8) / 8 % 64, d.chunk els (l * 16) 16))

/-- Bytes or elements that a burst brings. -/
def DmaBurst.size (b : DmaBurst) : Nat := if b.tdst.isSome then b.els.length else b.data.length

/-- What a destination write gives: the state, the bytes written, a credit completion code, whether the destination cannot be reached, and
whether it is a locked control store. -/
structure Landed where
  s : State
  n : Nat := 0
  code : Nat := 0
  unreach : Bool := false
  locked : Bool := false
  deriving DecidableEq, Repr

/-- A burst's destination write (R139, R185, R230, R245). -/
def burstWrite (s : State) (e : Nat) (b : DmaBurst) : Landed :=
  let m := engMaster e (getE s e).part
  let n := match b.tdst with
    | some a => b.els.length * (tdesc s a).nib / 2
    | none => b.data.length
  match tileOf b.dst with
  | some t =>
    let row := (b.dst - tileAddr t) / 512
    let ws := match b.tdst with
      | some a => tensorWords (tdescM s a b.mask) b.els
      | none => wordsOf b.dst b.data
    let r := remoteWrite s m t b.win b.epoch row ws
    { s := r.1, n := if r.2 = 0 then n else 0, code := r.2 }
  | none =>
    if b.cs then
      if storeLocked s b.dst then { s := csLocked s m (engBlock e) (engItem s e) b.dst, locked := true }
      else { s := noteLevels (memPut s b.dst b.data) b.dst b.data, n := n }
    else
      match b.tdst with
      | some a =>
        let g := busGate s m (.dma false) (b.dst / 512 * 512) 512 true
        let t := tensWrite s m (.dma false) (tdescM s a b.mask) b.els
        match g with
        | .pass => { s := t, n := n }
        | .refused _ .unreach => { s := t, unreach := true }
        | _ => { s := t }
      | none =>
        let r := busWrite s m (.dma b.blk.isSome) b.dst b.data
        { s := r.1, n := if r.2 = none then n else 0, unreach := r.2 == some .unreach }

/-- The block of a completed burst has one burst fewer in flight, and one destination more where its data was written; an encrypted block
that is whole writes its tag (R258). -/
def blockDone (s : State) (e : Nat) (wrote : Bool) (b : DmaBurst) : State :=
  match b.blk with
  | none => s
  | some i =>
    let d := getD s e
    let same := fun (x : DmaBlock) => x.word == b.word && x.desc == b.desc && x.idx == i
    let s := setD s e { d with blocks := d.blocks.map (fun x => if same x then
      { x with left := x.left - 1, dsts := if wrote then x.dsts ++ [(b.dst, b.data.length)] else x.dsts } else x) }
    match (getD s e).blocks.find? same with
    | some k =>
      if k.encrypt ∧ blockWhole k then
        let key := ((tabGet s.sec.slots k.slot none).map (·.key)).getD 0
        let s := (busWrite s (engMaster e (getE s e).part) (.dma false) k.tagAt (gcmTagOf key (gcmIv k.nonce k.idx) (blockText k))).1
        let d := getD s e
        setD s e { d with blocks := d.blocks.map (fun x => if same x then { x with ok := true } else x) }
      else s
    | none => s

/-- The bursts that a destination write takes: a burst that stands alone, or the pieces of its row that have arrived with it. -/
def matesOf (d : DmaEng) (i : Nat) (b : DmaBurst) : List DmaBurst :=
  if b.need = 0 then [b]
  else ((d.bursts.zipIdx.filter (fun x => x.1.row == b.row && x.1.need != 0 && (x.1.here || x.2 == i))).map (·.1))

/-- A burst in flight before number `i`, other than a piece of the same row write, goes to the same destination row: writes to a row are
performed in descriptor order (R247). -/
def rowBehind (d : DmaEng) (i : Nat) (b : DmaBurst) : Bool :=
  (d.bursts.take i).any (fun x => x.dst / 512 == b.dst / 512 && (b.need == 0 || x.row != b.row))

/-- BURST_COMPLETE (R239): the data of burst `i` in flight has arrived; with the destination write acknowledged its tag is freed. A row that
is written whole waits for its last piece; a burst whose channel is out of service waits for it (R364). A number beyond the bursts in flight frees a tag of a stopped engine (R251). -/
def burstComplete (e i : Nat) (s : State) : State :=
  let d := getD s e
  match d.bursts[i]? with
  | none => if 0 < d.orphan then setD s e { d with orphan := d.orphan - 1 } else s
  | some b =>
    let ms := matesOf d i b
    if rowBehind d i b ∨ dramOut s b.src ∨ dramOut s b.dst then s
    else if b.need ≠ 0 ∧ (ms.map DmaBurst.size).sum < b.need then
      setD s e { d with bursts := d.bursts.set i { b with here := true } }
    else
      let r := burstWrite s e { b with dst := (ms.head?.getD b).dst, data := (ms.map (·.data)).flatten, els := (ms.map (·.els)).flatten }
      let d := getD r.s e
      let left := if b.need = 0 then d.bursts.eraseIdx i else d.bursts.filter (fun x => !(x.row == b.row && x.need != 0))
      let s := setD r.s e { d with bursts := left }
      if r.locked then engHalt s e
      else if r.unreach then engHalt (endWord s e b.word b.desc 6) e
      else
        let s := match r.code, tileOf b.dst with
          | 0, _ => countBytes s e b.word r.n
          | c, some t => abortXfer s e b.word b.desc t b.win c
          | _, none => s
        settleCommits (ms.foldl (fun s x => blockDone s e (r.n != 0) x) s) e

/-- BURST_COMPLETE. -/
def execBurstComplete (e k : Nat) (s : State) : Host.Outcome State Fault Refusal := .next (burstComplete e k s)

/-! ### BLOCK_AUTH (R256, R257) -/

/-- Destination bytes that a failed block and the later ones of its word have written are zeroed (R257). -/
def zeroBlocks (s : State) (m : Master) (l : List DmaBlock) : State :=
  l.foldl (fun s b => b.dsts.foldl (fun s r => match region r.1 with
    | .mapStore => (busWrite s m (.dma true) (r.1 / 512 * 512) (List.replicate 512 0)).1
    | .dram | .ember => (busWrite s m (.dma true) r.1 (List.replicate r.2 0)).1
    | _ => noteLevels (memPut s r.1 (List.replicate r.2 0)) r.1 (List.replicate r.2 0)) s) s

/-- BLOCK_AUTH (R256): the check of the oldest whole block completes; a mismatch raises WEIGHT_AUTH and stops the item
(R257). -/
def blockAuth (e : Nat) (s : State) : State :=
  let d := getD s e
  match d.blocks.findIdx? (fun b => !b.encrypt && !b.ok && blockWhole b) with
  | none => s
  | some i =>
    match d.blocks[i]? with
    | none => s
    | some b =>
      let key := ((tabGet s.sec.slots b.slot none).map (·.key)).getD 0
      let m := engMaster e (getE s e).part
      let r := dmaRead s m false b.tagAt 16
      let s := r.s
      if r.poison then engHalt s e
      else if r.data = gcmTagOf key (gcmIv b.nonce b.idx) (blockText b) then
        let d := getD s e
        setD s e { d with blocks := d.blocks.set i { b with ok := true } }
      else
        let later := (d.blocks.drop i).filter (fun x => x.word == b.word)
        let s := zeroBlocks s m later
        let s := setF s (F.DMA_STAT_AUTH_FAIL (e - 2)) 1
        engFault (endWord s e b.word b.desc 5) e 0x0143 [b.daddr, b.idx, b.slot]

/-- BLOCK_AUTH. -/
def execBlockAuth (e : Nat) (s : State) : Host.Outcome State Fault Refusal := .next (blockAuth e s)

/-! ### XFER_COMPLETE (R250) -/

/-- XFER_COMPLETE (R250): the last transfer of the oldest word has ended, every block verified; its entry is posted. -/
def xferComplete (e : Nat) (s : State) : State :=
  let s := settleCommits s e
  let d := getD s e
  match d.words with
  | [] => s
  | w :: rest =>
    if w.issued ∧ !d.bursts.any (fun b => b.word == w.serial) ∧ d.blocks.all (fun b => b.word != w.serial || b.ok) then
      let s := setD s e { d with words := rest, blocks := d.blocks.filter (fun b => b.word != w.serial),
                                 ended := d.ended.filter (fun x => x.1 != w.serial) }
      let r := postEntry s e w
      if r.2 then r.1 else engHalt r.1 e
    else s

/-- XFER_COMPLETE. -/
def execXferComplete (e : Nat) (s : State) : Host.Outcome State Fault Refusal := .next (xferComplete e s)

/-- BOOT_PORT_DESCRIPTOR: only Emino reaches the boot port (R245). -/
def bootPortDescriptor (m : Master) (raw : Bytes) (s : State) : State :=
  if m.secure ∧ raw.length = 64 ∧ s.bootPort.isNone ∧ compDown s = false then runBootPort { s with bootPort := some raw } else s

/-- BOOT_PORT_DESCRIPTOR. -/
def execBootPortDescriptor (m : Master) (raw : Bytes) (s : State) : Host.Outcome State Fault Refusal :=
  .next (bootPortDescriptor m raw s)

end Sys2Proof.Machine
end

