-- ==== Sys2Proof/Machine/Layby.lean ====
section
/-! DEFINITION. Elastic steps and lay-bys (R265 to R287): submission, shares, shape entries, requests, and the mover's entry and
exit. -/

namespace Sys2Proof.Machine

/-! ### The scheduler's queues -/

/-- Real-time pair 0 as a master: it runs the scheduler, for the system partition (R509). -/
def schedMaster : Master := { code := 8, priv := true }

/-- The consumer code of the pair that runs the scheduler (R196, R489). -/
def schedConsumer (s : State) : Nat := if s.flt.pair0Reset then 21 else 20

/-- The data entry at the head of a queue that the scheduler consumes. -/
def schedHead (s : State) (q : Nat) : Option QEntry :=
  if qBound (getQ s q) ∧ (getQ s q).consumer = schedConsumer s then (headQ s q).filter (fun x => !x.cairn) else none

/-- Address of a partition's lay-by area; 0 means none (R287). -/
def laybyBase (s : State) (p : Nat) : Nat := getF s (F.LBY_BASE_LO_ADDR p) * 4096 + getF s (F.LBY_BASE_HI_ADDR p) * 2 ^ 32

/-- Bytes `a` to `a + n - 1` lie in a partition's DRAM or Map Store (R266). -/
def inPartition (s : State) (p a n : Nat) : Bool :=
  match region a with
  | .dram => inRegions (getP s p) a n
  | .mapStore => bankOwner s (mapBank a) == some p && bankOwner s (mapBank (a + n - 1)) == some p
  | _ => false

/-- The engines of a step descriptor, by control-store index, with first address and preset address (R266). -/
def stepEngines (d : Bytes) : List (Nat × Nat × Nat) :=
  ((List.range 6).filter (fun i => bitOf (leAt d 0 1) i)).map (fun i => (i, leAt d (4 + 2 * i) 2, leAt d (16 + 8 * i) 8))

/-- A step descriptor is valid (R266). -/
def stepDescOk (d : Bytes) : Bool := bitOf (leAt d 0 1) 0 && decide (leAt d 0 1 < 64) && leAt d 1 3 == 0

/-- A partition has array time left of its share (R268); the meter is in ns. -/
def belowShare (s : State) (p : Nat) : Bool := decide (nth (chargeStep s).sch.meter p 0 < 1000 * nth s.sch.share p 0)

/-- STEP_SUBMIT (R266, R267): the scheduler takes the entry at the head of a submission queue; an invalid step is refused with
status 2, and a step that runs on spill gives way to a partition below its share (R269). -/
def stepSubmit (q : Nat) (s : State) : State :=
  match schedHead s q with
  | none => s
  | some x =>
    let p := (getQ s q).part
    let a := leAt x.data 0 6
    let s := popQ s q
    let ok := a % 64 == 0 && inPartition s p a 64 && laybyBase s p != 0
    let r := if ok then busRead s schedMaster .system a 64 else ⟨s, [], false, false, none⟩
    let st : Step := { id := leAt x.data 8 2, cq := leAt x.data 10 2, part := p, engs := stepEngines r.data }
    if ok && r.ok && stepDescOk r.data then
      let s := { r.s with sch := { r.s.sch with submitted := r.s.sch.submitted ++ [st] } }
      if s.sch.run.any (·.spill) && belowShare s p then laybyRequest s else s
    else postStep r.s st 2

/-- STEP_SUBMIT. -/
def execStepSubmit (q : Nat) (s : State) : Host.Outcome State Fault Refusal := .next (stepSubmit q s)

/-- The completion entry of a step (R267). -/
def stepEntry (s : State) (x : Step) (status : Nat) : Bytes :=
  leBytes 2 x.id ++ leBytes 1 status ++ leBytes 1 (min x.laybys 255) ++ leBytes 4 (x.array / 1000) ++ leBytes 8 s.tick.num

/-- STEP_COMPLETION (R267): the scheduler posts the completion of the step that ended first. -/
def stepCompletion (s : State) : State :=
  match s.sch.ended with
  | [] => s
  | (x, st) :: rest => (postData { s with sch := { s.sch with ended := rest } } x.cq (stepEntry s x st) 8 x.part).1

/-- STEP_COMPLETION. -/
def execStepCompletion (s : State) : Host.Outcome State Fault Refusal := .next (stepCompletion s)

/-! ### Lead requests (R278) -/

/-- The tick period in force, in µs (R39). -/
def periodUs (s : State) : Nat := if getF s F.TICK_CTL_MODE = 1 then s.tick.memberPeriod else getF s F.TICK_CTL_PERIOD_US

/-- The lead of R278, in ns. -/
def leadNs (s : State) : Nat := 1000 * getF s F.LBY_CTL_SP_LIMIT_US + 100000

/-- An item runs in tick `n` (R45). -/
def runsIn (it : PlanItem) (n : Nat) : Bool := n % it.every == it.phase

/-- The Hexarel engines that an item needs free: its own, or those that a billet of its class tests (R496). -/
def itemEngines (s : State) (it : PlanItem) : List Nat :=
  match codeEngine it.engine with
  | some e => [e]
  | none =>
    if it.engine ≠ 0x0B then []
    else match it.arg % 8 with
      | 0 | 3 => [0]
      | 6 => [0, 1]
      | 4 => [2 + (nth s.flt.cursors 4 (0, 0)).1]
      | _ => []

/-- The plan of the next tick as things stand: activations and a ceiling announced for its edge count, and a plan of another period, or safe
state, arms nothing (R40, R49, R61, R62, R490). -/
def nextPlan (s : State) : Option Plan :=
  ((choosePlan (takeCeiling (takeActivations s (s.tick.num + 1)) (s.tick.num + 1))).map (·.1)).filter
    (fun p => p.period == periodUs s && !s.flt.safe)

/-- Start times of plan items, in this tick or the next, on an engine of a list (R278). -/
def nextStarts (s : State) (engs : List Nat) : List Nat :=
  let mine := fun (it : PlanItem) => (itemEngines s it).any (fun e => engs.contains e)
  let now := (s.tick.armed.filter (fun a => !a.started && mine a.item)).map (·.start)
  let later := match nextPlan s with
    | some p => (p.items.filter (fun it => runsIn it (s.tick.num + 1) && mine it)).map (fun it => s.tick.edge + 1000 * periodUs s + it.start)
    | none => []
  if s.tick.running then now ++ later else now

/-- The next lead request for the engines of a list, or nothing (R278): an absolute time, possibly past. -/
def leadAt (s : State) (engs : List Nat) : Option Int :=
  match nextStarts s engs with
  | [] => none
  | a :: r => some ((r.foldl min a : Nat) - (leadNs s : Int))

/-- LAYBY_LEAD_REQUEST at time `t` (R278): the lead time before the next item on a held engine has come. -/
def leadRequest (t : Nat) (s : State) : State :=
  let s := atComp t s
  match s.sch.run with
  | none => s
  | some x => if (leadAt s (x.engs.map (·.1))).any (fun (l : Int) => decide (l ≤ (s.timeC : Int))) then laybyRequest s else s

/-- LAYBY_LEAD_REQUEST. -/
def execLaybyLeadRequest (t : Nat) (s : State) : Host.Outcome State Fault Refusal := .next (leadRequest t s)

/-- SHARE_EXPIRY at time `t` (R268): the meter of the running step's partition reaches its share. A step on spill has none to
reach (R269). -/
def shareExpiry (p t : Nat) (s : State) : State :=
  let s := chargeStep (atComp t s)
  match s.sch.run with
  | some x => if x.part = p ∧ x.spill = false ∧ belowShare s p = false then laybyRequest s else s
  | none => s

/-- SHARE_EXPIRY. -/
def execShareExpiry (p t : Nat) (s : State) : Host.Outcome State Fault Refusal := .next (shareExpiry p t s)

/-! ### Choice and start (R267, R269) -/

/-- The step a partition would run next: its parked step, or else the first it has submitted. -/
def stepOf (s : State) (p : Nat) : Option Step :=
  match s.sch.parked.find? (fun x => x.part == p) with
  | some x => some x
  | none => s.sch.submitted.find? (fun x => x.part == p)

/-- The partitions after the one that last held the array, in order (R269). -/
def schedOrder (s : State) : List Nat := (List.range 8).map (fun i => (s.sch.last + 1 + i) % 8)

/-- The partition that the scheduler chooses, and whether on spill (R269); none that is paused for triage (R417), and none in safe
state (R490). -/
def schedChoice (s : State) : Option (Nat × Bool) :=
  let has := (schedOrder s).filter (fun p => (stepOf s p).isSome && s.hif.paused.all (fun x => x.part != p) && !s.flt.safe)
  match has.find? (belowShare s) with
  | some p => some (p, false)
  | none => (has.find? (fun p => isSet s (F.SCH_SHARE_SPILL p))).map (fun p => (p, true))

/-- Register starts of a step's engines for its partition, each with HXR_PRESET written first where it has a preset record (R187, R188,
R267): the state, and whether each was accepted. -/
def startAll (s : State) (p : Nat) : List (Nat × Nat × Nat) → State × Bool
  | [] => (s, true)
  | (e, addr, pre) :: rest =>
    let s := if pre = 0 then s else
      setF (setF s (F.HXR_PRESET_LO_ADDR e) (bitsOf pre 7 25)) (F.HXR_PRESET_HI_ADDR e) (bitsOf pre 32 16)
    let r := registerStart s e addr p (pre != 0)
    if r.2 then startAll r.1 p rest else (r.1, false)

/-- ELASTIC_STEP_START at time `t` (R269): with the array free of elastic work, the scheduler starts the step of its choice, or asks
for the resume of a parked one. -/
def stepStart (t : Nat) (s : State) : State :=
  let s := atComp t s
  if s.sch.run.isSome ∨ s.sch.phase ≠ 0 ∨ s.sch.resume.isSome then s
  else match schedChoice s with
    | none => s
    | some (p, spill) =>
      match stepOf s p with
      | none => s
      | some x =>
        let engs := x.engs.map (·.1)
        if (leadAt s engs).any (fun (l : Int) => decide (l < ((s.timeC + 1000 * getF s F.LBY_CTL_MIN_RUN_US : Nat) : Int))) then s
        else if x.saved.isSome then
          { s with sch := { s.sch with resume := some p, parked := s.sch.parked.map (fun y => if y.part = p then { y with spill := spill } else y) } }
        else if engs.any (fun e => itemArmed s e || !((getE s e).st == .idle || (getE s e).st == .parked)) then s
        else
          let s := { s with sch := { s.sch with submitted := s.sch.submitted.eraseP (fun y => y.part == p), run := some { x with spill := spill },
                                                since := s.timeC, last := p, again := false } }
          let r := startAll s p x.engs
          if r.2 then r.1 else endStep r.1 1

/-- ELASTIC_STEP_START. -/
def execElasticStepStart (t : Nat) (s : State) : Host.Outcome State Fault Refusal := .next (stepStart t s)

/-! ### Shape entries (R271) -/

/-- A preset record with scalar registers replaced. -/
def shapeRecord (r : Bytes) (reg : Nat) (v : Bytes) : Bytes := r.take (64 + 4 * reg) ++ v ++ r.drop (64 + 4 * reg + v.length)

/-- SHAPE_ENTRY at time `t`: the scheduler writes a shape entry into the shadow of its item's preset record, or discards it. -/
def shapeEntry (q t : Nat) (s : State) : State :=
  let s := atComp t s
  match schedHead s q with
  | none => s
  | some x =>
    let part := (getQ s q).part
    let s := popQ s q
    let reg := leAt x.data 2 1
    let n := leAt x.data 3 1
    let drop := setF s F.LBY_STAT_SHAPE_DROP 1
    match planNow s with
    | none => drop
    | some pl =>
      match pl.items.find? (fun it => it.id == leAt x.data 0 2) with
      | none => drop
      | some it =>
        if it.batch = false ∨ it.part ≠ part ∨ n = 0 ∨ 3 < n ∨ 16 < reg + n ∨ pl.presets.length ≤ it.preset then drop
        else
          let old := match s.sch.shadows.find? (fun y => y.1 == pl.id && y.2.1 == it.preset) with
            | some y => y.2.2.1
            | none => nth pl.presets it.preset []
          let new := shapeRecord old reg ((x.data.drop 4).take (4 * n))
          { s with sch := { s.sch with shadows := s.sch.shadows.filter (fun y => !(y.1 == pl.id && y.2.1 == it.preset))
              ++ [(pl.id, it.preset, new, s.timeC + 10000)] } }

/-- SHAPE_ENTRY. -/
def execShapeEntry (q t : Nat) (s : State) : Host.Outcome State Fault Refusal := .next (shapeEntry q t s)

/-! ### Requests (R274, R275) -/

/-- The write of LBY_CMD (R274, R281, R287): the scheduler requests entry of the running elastic step, or the resume of a partition's
parked step. -/
def lbyCmdWrite (m : Master) (v : Nat) (s : State) : State :=
  gated s false 1 0x244 m v (fun s =>
    let p := bitsOf v 2 3
    if v % 4 = 1 then laybyRequest s
    else if v % 4 = 2 ∧ s.sch.parked.any (fun x => x.part == p) then { s with sch := { s.sch with resume := some p } }
    else s)

/-- LBY_CMD_ENTER. -/
def execLbyCmdEnter (m : Master) (s : State) : Host.Outcome State Fault Refusal := .next (lbyCmdWrite m 1 s)

/-- LBY_CMD_RESUME. -/
def execLbyCmdResume (m : Master) (p : BitVec 3) (s : State) : Host.Outcome State Fault Refusal := .next (lbyCmdWrite m (2 + 4 * p.toNat) s)

/-- Every slot in use is freed unread (R275, R276, R283). -/
def freeSlots (s : State) : State := { s with arr := { s.arr with slots := s.arr.slots.map (fun _ => ({} : Slot)) } }

/-- LAYBY_LATE at time `t` (R275): no safe point within SP_LIMIT_US of the request; the step is stopped and nothing saved. -/
def laybyLate (t : Nat) (s : State) : State :=
  let s := atComp t s
  match s.sch.run with
  | some x =>
    if s.sch.phase = 3 ∧ s.sch.reqAt + 1000 * getF s F.LBY_CTL_SP_LIMIT_US ≤ s.timeC then
      freeSlots (endStep (raise (setF s F.LBY_STAT_LATE 1) false 0x0145 2 (some x.part) 1 0xFFFF []) 1)
    else s
  | none => s

/-- LAYBY_LATE. -/
def execLaybyLate (t : Nat) (s : State) : Host.Outcome State Fault Refusal := .next (laybyLate t s)

/-! ### The mover (R276, R277, R281) -/

/-- The lay-by mover as a master (R509), while it works for a partition. -/
def moverMaster (p : Nat) : Master := { code := 37, part := p }

/-- Blocks of the lay-by area that are written for a saved array: the state record, the slots in use, and the tile memories. -/
def laybyBlocks (slots : List Slot) : List Nat :=
  List.range 4 ++ ((List.range 8).filter (fun k => (nth slots k {}).st != .free)).flatMap (fun k => (List.range 128).map (fun i => 16 + 128 * k + i))
    ++ (List.range 288).map (fun i => 1040 + i)

/-- The 1,024 bytes of an accumulator vector. -/
def vecBytes (v : List Nat) : Bytes := ((List.range 256).map (fun l => leBytes 4 (nth v l 0))).flatten

/-- The plain text of a block (R277): four accumulator vectors, or rows of a tile memory; the state record's is the device's own. -/
def laybyPlain (s : State) (i : Nat) : Bytes :=
  if i < 16 then (List.range 4096).map (fun j => Config.laybyByte s.free (4096 * i + j))
  else if i < 1040 then ((List.range 4).map (fun j => vecBytes (tabGet s.arr.acc (512 * ((i - 16) / 128) + 4 * ((i - 16) % 128) + j) []))).flatten
  else memRead s.mem (tileAddr ((i - 1040) / 96) + 4096 * ((i - 1040) % 96)) 4096

/-- The lay-by key of a partition with its counter (R277); partition 0's is drawn as Stage 1 creates it (R462). Once the opening of debug has
destroyed every lay-by key (R472), which key the mover takes is free (log entry 228). -/
def laybyKey (s : State) (p : Nat) : KeySlot :=
  (tabGet s.sch.keys p none).getD
    { key := if p = 0 ∧ isSet s F.EMN_DBG_OPEN = false then Config.partition0Key s.sch.key0 else Config.noLaybyKey p s.sch.key0 }

/-- One block is encrypted, tagged and written. -/
def saveBlock (p : Nat) (key : BitVec 256) (nonce : Bytes) (src : State) (s : State) (i : Nat) : State :=
  let base := laybyBase s p
  let ct := gcmXor key (gcmIv nonce i) 0 (laybyPlain src i)
  let s := (busWrite s (moverMaster p) .system (base + 4096 * i) ct).1
  (busWrite s (moverMaster p) .system (base + 0x4000 + 16 + 16 * i) (gcmTagOf key (gcmIv nonce i) ct)).1

/-- The mover's reads of the tile memories (R152): the state, and whether a row was poisoned. -/
def laybyTiles (s : State) (p : Nat) : State × Bool :=
  (List.range 2304).foldl (fun q i => let r := eccRead q.1 (moverMaster p) (tileAddr (i / 768) + 512 * (i % 768)); (r.1, q.2 || r.2)) (s, false)

/-- Entry may complete (R276): results, loads, fills, deposits and bursts are done, no engine is still on its way to a block's end, and the
windows are closed. -/
def entryReady (s : State) (x : Step) : Bool :=
  x.engs.all (fun y => !midBlock s y.1 && (getE s y.1).st != .run) && s.arr.shares.isEmpty && s.arr.fills.isEmpty && s.arr.shadow.all (fun l => l.set.isSome) && s.drn.deposits.isEmpty
    && x.engs.all (fun y => decide (y.1 < 2) || decide (5 < y.1) || (getD s y.1).bursts.isEmpty)
    && s.sch.wins.all (fun w => (getW s w.1 w.2.1).st == .closed)

/-- What a lay-by keeps of the step beside the blocks: no cell and no border, whose contents no lay-by saves (R78). -/
def savedOf (s : State) (x : Step) : Saved :=
  { engs := x.engs.map (fun y => (y.1, { getE s y.1 with st := ((s.sch.frozen.find? (fun z => z.1 == y.1)).map (·.2)).getD .idle })),
    arr := { s.arr with cells := [], borderCol := [], borderRow := [] }, accKeys := s.arr.acc.map (·.1), drn := s.drn,
    dmas := (x.engs.filter (fun y => decide (2 ≤ y.1) && decide (y.1 < 6))).map (fun y => (y.1, getD s y.1)), wins := s.sch.wins }

/-- The drain and the stream DMA engines after their state has been saved or thrown away. -/
def clearStepUnits (s : State) (x : Step) : State :=
  let s := if x.engs.any (fun y => y.1 == 1) then clearDrain s else s
  x.engs.foldl (fun s y => if 2 ≤ y.1 ∧ y.1 < 6 then
    setD s y.1 { orphan := (getD s y.1).orphan, disablePending := (getD s y.1).disablePending } else s) s

/-- LAYBY_ENTRY_COMPLETE at time `t` (R276, R277, R284): the state is saved and the engines are PARKED; `par` says that the mover met
an accumulator vector with a parity error. -/
def laybyEntry (par : Bool) (t : Nat) (s : State) : State :=
  let s := closeStep (atComp t s)
  match s.sch.run with
  | none => s
  | some x =>
    if s.sch.phase ≠ 1 ∨ entryReady s x = false then s
    else
      let p := x.part
      let s := chargeStep s
      let r := laybyTiles s p
      let s := if par then raise (bump r.1 F.ACC_STAT_PARITY_ERRS 1) false 0x0116 2 (some p) 3 0xFFFF [] else r.1
      let x := (s.sch.run.getD x)
      if par ∨ r.2 then applyDisable (freeSlots (clearArrayPath (endStep s 3) p)) 0
      else
        let k := laybyKey s p
        let c := (k.nonce + 1) % 2 ^ 64
        let sv := savedOf s x
        let src := s
        let s := { drawn s with sch := { s.sch with keys := tabPut s.sch.keys p (some { k with nonce := c }) none } }
        let blocks := laybyBlocks s.arr.slots
        let s := (busWrite s (moverMaster p) .system (laybyBase s p + 0x4000) (leBytes 8 c ++ leBytes 4 1536 ++ leBytes 4 0)).1
        let s := blocks.foldl (saveBlock p k.key (leBytes 8 c) src) s
        let s := clearStepUnits s x
        let s := { s with arr := { s.arr with op := none, closing := 0, shares := [], fills := [], strPos := 0 } }
        let s := freeSlots (clearArrayPath s p)
        let s := x.engs.foldl (fun s y => setE s y.1 { idleEngine (getE s y.1) with st := .parked }) s
        let s := leaveArray { s with sch := { s.sch with parked := s.sch.parked ++ [{ x with saved := some sv, laybys := x.laybys + 1 }] } }
        let s := applyDisable (if x.engs.any (fun y => y.1 == 1) then applyDisable s 1 else s) 0
        let s := if x.engs.any (fun y => y.1 == 2) then runBootPort s else s
        if s.flt.restarts.any (fun r => r.part == p) then discardSteps s p 3 else s

/-- LAYBY_ENTRY_COMPLETE. -/
def execLaybyEntryComplete (par : Bool) (t : Nat) (s : State) : Host.Outcome State Fault Refusal := .next (laybyEntry par t s)

/-- LAYBY_EXIT_BEGIN at time `t` (R281): the conditions of a requested resume hold. -/
def laybyExitBegin (t : Nat) (s : State) : State :=
  let s := atComp t s
  match s.sch.resume.bind (fun p => s.sch.parked.find? (fun x => x.part == p)) with
  | none => s
  | some x =>
    if s.sch.phase = 0 ∧ s.sch.run.isNone ∧ isSet s F.ARR_CTL_ENABLE ∧ s.arr.slots.all (fun z => z.st == .free)
        ∧ x.engs.all (fun y => ((getE s y.1).st == .idle || (getE s y.1).st == .parked) && !itemArmed s y.1) then
      { s with sch := { s.sch with phase := 2, run := some x, since := s.timeC, last := x.part, again := false, resume := none,
                                   parked := s.sch.parked.filter (fun y => y.part != x.part) } }
    else s

/-- LAYBY_EXIT_BEGIN. -/
def execLaybyExitBegin (t : Nat) (s : State) : Host.Outcome State Fault Refusal := .next (laybyExitBegin t s)

/-- A block as read from the area: its plain text, and whether its tag is right (R281, R256). -/
def loadBlock (s : State) (p : Nat) (key : BitVec 256) (i : Nat) : Bytes × Bool :=
  let base := laybyBase s p
  let nonce := memRead s.mem (base + 0x4000) 8
  let ct := memRead s.mem (base + 4096 * i) 4096
  (gcmXor key (gcmIv nonce i) 0 ct, memRead s.mem (base + 0x4000 + 16 + 16 * i) 16 == gcmTagOf key (gcmIv nonce i) ct)

/-- Tile memories 0 to 2 and the saved accumulator vectors, as restored from the area. -/
def restoreMemories (s : State) (p : Nat) (key : BitVec 256) (sv : Saved) : State :=
  let s := (List.range 288).foldl (fun s i =>
    memPut s (tileAddr (i / 96) + 4096 * (i % 96)) (loadBlock s p key (1040 + i)).1) s
  let vec := fun (k : Nat) =>
    let b := (loadBlock s p key (16 + k / 4)).1
    (List.range 256).map (fun l => leAt b (1024 * (k % 4) + 4 * l) 4)
  { s with arr := { s.arr with acc := sv.accKeys.map (fun k => (k, vec k)) } }

/-- A stationary set reloaded from tile memory 1 as it now stands (R281). -/
def reloadSet (s : State) (x : StatSet) : StatSet :=
  if x.k = 0 then x
  else { x with els := elemsOf x.fmt (memRead s.mem (tileAddr 1 + 512 * x.trow) (512 * setRows x.fmt x.k x.n)) (x.k * x.n),
                phys := (physCols s).take x.n }

/-- The array of a resumed step: as saved, with its vectors restored and its sets reloaded, each in its own format; what belongs to the
array and not to the step stays, and the cells hold what they hold (R78). -/
def restoreArray (s : State) (sv : Saved) : State :=
  let a := sv.arr
  { s with arr := { s.arr with op := a.op, opened := a.opened, closing := a.closing, pass := a.pass, atTileEnd := a.atTileEnd, slots := a.slots,
                               strPos := a.strPos, active := reloadSet s a.active,
                               shadow := a.shadow.map (fun l => { l with set := l.set.map (reloadSet s) }) } }

/-- A recorded window reopens with a new epoch (R281). -/
def reopen (p : Nat) (s : State) (w : Nat × Nat × Nat × Nat) : State :=
  openWindow (setW s w.1 w.2.1 (epochUp s (getW s w.1 w.2.1))) w.1 w.2.1 w.2.2.1 w.2.2.2 p

/-- LAYBY_EXIT_COMPLETE at time `t` (R281 to R283): the restore and the reloads are complete, or a tag has failed. -/
def laybyExit (t : Nat) (s : State) : State :=
  let s := atComp t s
  match s.sch.run with
  | none => s
  | some x =>
    match x.saved with
    | none => s
    | some sv =>
      if s.sch.phase ≠ 2 then s
      else
        let p := x.part
        let key := (laybyKey s p).key
        if (laybyBlocks sv.arr.slots).any (fun i => !(loadBlock s p key i).2) then
          let s := raise (setF s F.LBY_STAT_AUTH 1) false 0x0146 2 (some p) 1 0xFFFF []
          settleParked (endStep (freeSlots (clearArrayPath s p)) 3)
        else
          let s := restoreArray (restoreMemories (clearArrayPath s p) p key sv) sv
          let s := sv.wins.foldl (reopen p) s
          let s := { s with drn := if x.engs.any (fun y => y.1 == 1) then { sv.drn with disablePending := s.drn.disablePending } else s.drn }
          let s := sv.dmas.foldl (fun s d => setD s d.1 { d.2 with disablePending := (getD s d.1).disablePending }) s
          let s := sv.engs.foldl (fun s g => setE s g.1 g.2) s
          let s := chargeStep s
          let again := s.sch.again
          let s := { s with sch := { s.sch with phase := 0, again := false, run := s.sch.run.map (fun y => { y with saved := none }) } }
          match sv.arr.op with
          | some o => match opRefusal s o.mode o.fmtN o.fmtW o.wside o.wdecl o.part with
            | some r => freeSlots (endStep (raise s false 0x0110 2 (some p) 1 0xFFFF [r]) 1)
            | none => if again then laybyRequest s else s
          | none => if again then laybyRequest s else s

/-- LAYBY_EXIT_COMPLETE. -/
def execLaybyExitComplete (t : Nat) (s : State) : Host.Outcome State Fault Refusal := .next (laybyExit t s)

end Sys2Proof.Machine
end

