-- ==== Sys2Proof/Machine/Faults.lean ====
section
/-! DEFINITION. The fault unit's commands (R485, R486, R493, R501), partition restart (R487), lockstep mismatches (R489), and
the end of a self-test billet (R496 to R498). -/

namespace Sys2Proof.Machine

/-! ### Partition restart (R487) -/

/-- Engines that work for a partition. -/
def enginesOf (s : State) (p : Nat) : List Nat :=
  (List.range 12).filter (fun e => (getE s e).st != .idle && (getE s e).part == p)

/-- Items of a partition that have started are cancelled as their engines stop (R487 step 2, R56). -/
def cancelStarted (s : State) (p : Nat) : State :=
  (s.tick.armed.filter (fun a => a.item.part == p && a.started)).foldl (fun s a => cancelItem s a.idx) s

/-- Steps 1 to 3 of R487. While the partition's step is in lay-by entry, the entry completes first (R499). -/
def partRestart (s : State) (p : Nat) : State :=
  if s.flt.restarts.any (fun r => r.part == p) then s
  else
    let entering := s.sch.phase = 1 ∧ s.sch.run.any (fun x => x.part == p)
    let s := if entering then s else discardSteps s p 3
    let s := cancelStarted s p
    let s := (if entering then [] else enginesOf s p).foldl stopEngine s
    { s with flt := { s.flt with restarts := s.flt.restarts ++ [{ part := p, since := s.timeC, fromTick := s.tick.num }] },
             tick := { s.tick with log := { s.tick.log with restart := s.tick.log.restart ++ [p] } } }

/-- A record for which the on-device handler restarts the partition (R487): the requester, in DETAIL[3] of an ECC record and DETAIL[1] of a
filter record (R526), is a host core of that partition. -/
def restartsFor (s : State) (r : FaultRec) : Bool :=
  let own := fun k => decide (k < 8) && coreOwner s k == r.part
  r.cls == 2 && r.part.isSome &&
    (r.code == 0x0104 || r.code == 0x0166
      || ((r.code == 0x0123 || r.code == 0x0165) && own (nth r.detail 3 99))
      || (r.code == 0x0102 && own (nth r.detail 1 99)))

/-! ### The handler's commands (R485, R501) -/

/-- The highest class queued. -/
def topClass (q : List FaultRec) : Nat := q.foldl (fun c r => max c r.cls) 0

/-- The oldest record of the highest queued class. -/
def nextRec (q : List FaultRec) : Option FaultRec := q.find? (fun r => r.cls == topClass q)

/-- Removes the first record equal to one. -/
def dropRec (q : List FaultRec) (r : FaultRec) : List FaultRec := q.erase r

/-- The watchdog's limit in ns (R486). -/
def wdLimit (s : State) : Nat := getF s (F.FLT_CTL_WD false) * 100000

/-- The watchdog's limits without the innermost one of a kind. -/
def dropWatch (kind : Bool) : List (Bool × Nat) → List (Bool × Nat)
  | [] => []
  | x :: xs => if x.1 = kind then xs else x :: dropWatch kind xs

/-- TAKE on the compute die (R485): the record moves to FLT_REC, its class is pushed on the stack of at most four, and the DONE limit
starts. -/
def takeComp (s : State) : State :=
  match nextRec (s.flt.comp.queue.filter (fun r => !hostHas s r)) with
  | none => s
  | some r =>
    let s := { s with flt := { s.flt with
      comp := { s.flt.comp with queue := dropRec s.flt.comp.queue r, recd := some r },
      handling := (r.cls :: s.flt.handling).take 4, interrupted := false,
      watch := (true, s.timeC + wdLimit s) :: dropWatch false s.flt.watch } }
    if restartsFor s r then partRestart s (r.part.getD 0) else s

/-- TAKE on the port die (R501). -/
def takePort (s : State) : State :=
  match nextRec s.flt.port.queue with
  | none => s
  | some r => { s with flt := { s.flt with port := { s.flt.port with queue := dropRec s.flt.port.queue r, recd := some r } } }

/-- DONE: the class is popped, and a waiting record may interrupt again (R485). -/
def doneComp (s : State) : State :=
  interrupt { s with flt := { s.flt with handling := s.flt.handling.tail, watch := dropWatch true s.flt.watch } }

/-- KICK restarts the innermost DONE limit (R486). -/
def kickComp (s : State) : State :=
  if s.flt.watch.any (·.1) then
    { s with flt := { s.flt with watch := (true, s.timeC + wdLimit s) :: dropWatch true s.flt.watch } }
  else s

/-- RESTART requests a restart of the compute die without safe state (R493). -/
def restartComp (s : State) : State := if s.flt.held then s else { s with flt := { s.flt with restartDue := true } }

/-- The effect of a value written to FLT_CMD.CMD of a die (R501). -/
def fltCmdAct (port : Bool) (c : Nat) (s : State) : State :=
  match c with
  | 1 => if port then takePort s else takeComp s
  | 2 => if port then s else doneComp s
  | 3 => if port then s else kickComp s
  | 4 => if port then s else restartComp s
  | _ => s

/-- A write of FLT_CMD through the register gate. -/
def fltCmd (m : Master) (port : Bool) (v : Nat) (s : State) : State :=
  gated s port (if port then 6 else 20) 0x20 m v (fltCmdAct port (v % 8))

/-- A record that a fault unit presents fails its check (R489): a double fault with reason 2, and the record is saved with CLASS 0xFF
(R483). -/
def recordDamaged (port : Bool) (s : State) : State :=
  let d := fltDie s port
  match nextRec (d.queue.filter (fun r => port || !hostHas s r)) with
  | none => s
  | some r =>
    let d := { d with queue := d.queue.map (fun x => if x = r then { x with cls := 0xFF, double := true } else x) }
    doubleFault { s with flt := if port then { s.flt with port := d } else { s.flt with comp := d } } 2 r.code

/-- FLT_TAKE. -/
def execFltTake (m : Master) (src : TakeFrom) (s : State) : Host.Outcome State Fault Refusal :=
  .next (if src.bad then gated s src.port (if src.port then 6 else 20) 0x20 m 1 (recordDamaged src.port) else fltCmd m src.port 1 s)
/-- FLT_DONE. -/
def execFltDone (m : Master) (port : Bool) (s : State) : Host.Outcome State Fault Refusal := .next (fltCmd m port 2 s)
/-- FLT_KICK. -/
def execFltKick (m : Master) (port : Bool) (s : State) : Host.Outcome State Fault Refusal := .next (fltCmd m port 3 s)
/-- FLT_RESTART. -/
def execFltRestart (m : Master) (port : Bool) (s : State) : Host.Outcome State Fault Refusal := .next (fltCmd m port 4 s)

/-! ### Double faults and lockstep (R486, R489) -/

/-- WATCHDOG_EXPIRY at time `t`: a TAKE or DONE is late, which is a double fault with reason 4; the record concerned carries
DOUBLE. -/
def watchdogExpiry (t : Nat) (s : State) : State :=
  let s := atComp t s
  match s.flt.watch.find? (fun w => decide (w.2 < s.timeC)) with
  | none => s
  | some w =>
    let c := s.flt.comp
    let r := if w.1 then c.recd else nextRec c.queue
    let mark := fun (x : FaultRec) => if some x = r then { x with double := true } else x
    doubleFault { s with flt := { s.flt with comp := { c with queue := c.queue.map mark, recd := c.recd.map mark }, watch := [] } }
      4 ((r.map (·.code)).getD 0)

/-- WATCHDOG_EXPIRY. -/
def execWatchdogExpiry (t : Nat) (s : State) : Host.Outcome State Fault Refusal := .next (watchdogExpiry t s)

/-- RT_LOCKSTEP: pair 0 is held in reset, and pair 1 runs the scheduler from the next edge (R489). -/
def rtLockstep (s : State) : State :=
  if s.flt.pair0Reset then s
  else
    let s := raise s false 0x0105 2 (some 0) (Config.sourceBlock 0x0105) 0xFFFF []
    { s with flt := { s.flt with pair0Reset := true, takeover := true } }

/-- RT_LOCKSTEP. -/
def execRtLockstep (s : State) : Host.Outcome State Fault Refusal := .next (rtLockstep s)

/-- PAIR1_LOCKSTEP_MISMATCH: a double fault with reason 3; no record triggers it (R489). -/
def execPair1LockstepMismatch (s : State) : Host.Outcome State Fault Refusal := .next (doubleFault s 3 0)

/-- At the takeover every queue of consumer 20 is bound to consumer 21 (R489). -/
def rebindPair (s : State) : State :=
  if s.flt.takeover then
    { s with qm := s.qm.map (fun x => (x.1, if x.2.consumer = 20 ∧ x.2.depth ≠ 0 then { x.2 with consumer := 21 } else x.2)),
             flt := { s.flt with takeover := false } }
  else s

/-! ### Billets (R496 to R498) -/

/-- Targets of a pass of each billet class (R496). -/
def billetTargets (c : Nat) : Nat := nth [17, 65536, 2304, 8, 4, 4, 1] c 1
/-- Billets of a target (R496). -/
def billetsOf (c t : Nat) : Nat := if c = 0 then (if t = 16 then 4 else 3) else nth [0, 1, 1, 1, 2, 2, 4] c 1
/-- The longest billet of a class in ns (R496). -/
def billetLongest (c : Nat) : Nat := nth [100000, 3000, 3000, 6000, 60000, 80000, 100000] c 0

/-- A billet does nothing and is incomplete (R496): class 7, a budget too short, or its class disabled. -/
def billetIdle (s : State) (it : PlanItem) : Bool :=
  let c := it.arg % 8
  c == 7 || decide (it.deadline - it.start < billetLongest c) || !bitOf (getF s F.BIST_CTL_CLASS_EN) c

/-- A passed or failed billet advances its class's cursor; a completed Map Store pass counts (R496, R501). -/
def advanceCursor (s : State) (c : Nat) : State :=
  let k := nth s.flt.cursors c (0, 0)
  if k.2 + 1 < billetsOf c k.1 then { s with flt := { s.flt with cursors := s.flt.cursors.set c (k.1, k.2 + 1) } }
  else
    let t := (k.1 + 1) % billetTargets c
    let s := { s with flt := { s.flt with cursors := s.flt.cursors.set c (t, 0) } }
    if t = 0 ∧ c = 1 then bump s F.BIST_STAT_PASSES 1 else s

/-- The partition that R152 names for the row of a class 1 or 2 target. -/
def billetPart (s : State) (c t : Nat) : Option Nat :=
  if c = 1 then bankOwner s (t / 2048) else tilePart s (t / 96)

/-- BIST_FAIL of a class (R498): `cols` are the columns a failing pattern isolates (256 the border column, 257 the border row),
`corrected` says that SECDED corrects every failing word. -/
def bistFail (s : State) (c t item : Nat) (cols : List Nat) (corrected : Bool) : State :=
  if c = 0 then cols.foldl chargeCol (raise s false 0x0107 0 none 20 item [c, t])
  else if c < 3 then
    (if corrected then raise s false 0x0107 1 none 20 item [c, t]
     else raise s false 0x0107 2 (billetPart s c t) 20 item [c, t])
  else raiseDevice s false 0x0107 20 item [c, t]

/-- BILLET_END: the running billet has restored its target and ends (R497): 0 pass, 1 fail, 2 incomplete. -/
def billetEnd (res : Nat) (cols : List Nat) (corrected : Bool) (s : State) : State :=
  match s.tick.armed.find? (fun a => a.item.engine == 0x0B && a.started && !s.tick.reports.contains a.idx) with
  | none => s
  | some a =>
    let c := a.item.arg % 8
    let t := (nth s.flt.cursors c (0, 0)).1
    let res := if res < 2 then res else 2
    let s := setF (setF s F.BIST_STAT_CLASS c) F.BIST_STAT_RESULT res
    let s := { s with sec := { s.sec with locked := false }, tick := { s.tick with reports := s.tick.reports ++ [a.idx] } }
    let s := if c = 1 ∨ c = 2 then shadowBack s (if res = 1 then cols else []) corrected else s
    let s := if res = 2 then s else advanceCursor s c
    if res = 1 then bistFail s c t a.item.id cols corrected else s

/-- BILLET_END. -/
def execBilletEnd (res : Nat) (cols : List Nat) (corrected : Bool) (s : State) : Host.Outcome State Fault Refusal :=
  .next (billetEnd res cols corrected s)

end Sys2Proof.Machine
end

