-- ==== Sys2Proof/Machine/Causeway.lean ====
section
/-! DEFINITION. The causeway (R14 to R24): data flits with their sequence numbers, credits and retry, training, and the
messages of the signalling lanes. -/

namespace Sys2Proof.Machine

/-! ### Failure -/

/-- Block index of an end of the causeway (R510). -/
def cwyBlock (port : Bool) : Nat := if port then 0 else 19

/-- CAUSEWAY_FAIL, raised by an end: the causeway carries no data from that moment (R23, R24, R493), and the PCIe link is down (R525). -/
def cwyFail (s : State) (port : Bool) : State :=
  let s := setF (setF s (F.CWY_STAT_FAILED true) 1) (F.CWY_STAT_FAILED false) 1
  let s := setF (setF s (F.CWY_STAT_LINK_UP true) 0) (F.CWY_STAT_LINK_UP false) 0
  raiseDevice (linkDown s) port 0x0181 (cwyBlock port) 0xFFFF []

/-- The causeway carries data: trained, not failed, and both dies in reach (R23, R24, R525). -/
def cwyUp (s : State) : Bool := !compDown s

/-- One direction of the causeway; `toComp` is the one from the port die. -/
def cwyDir (s : State) (toComp : Bool) : CwyDir := if toComp then s.cwy.toComp else s.cwy.toPort
/-- The state with a direction replaced. -/
def setCwyDir (s : State) (toComp : Bool) (d : CwyDir) : State :=
  if toComp then { s with cwy := { s.cwy with toComp := d } } else { s with cwy := { s.cwy with toPort := d } }

/-! ### Data flits (R15, R16, R18, R22) -/

/-- CLASS, SEQ, RET_CLASS, RET_COUNT, LAST and the reserved bits of a flit's header (R15). -/
def flitClass (f : Flit) : Nat := bitsOf f.header.toNat 0 2
def flitSeq (f : Flit) : Nat := bitsOf f.header.toNat 2 10
def flitRetClass (f : Flit) : Nat := bitsOf f.header.toNat 12 2
def flitRet (f : Flit) : Nat := bitsOf f.header.toNat 14 6
def flitLast (f : Flit) : Bool := bitOf f.header.toNat 20
def flitRsv (f : Flit) : Nat := bitsOf f.header.toNat 21 3

/-- The receiver's check of a flit (R15, R22). -/
def flitGood (f : Flit) : Bool := flitRsv f == 0 && f.crc == Config.crc24 f.header f.payload

/-- Item `i` of a list of numbers, increased or reduced. -/
def addAt (l : List Nat) (i n : Nat) : List Nat := l.set i (nth l i 0 + n)
def subAt (l : List Nat) (i n : Nat) : List Nat := l.set i (nth l i 0 - n)

/-! ### Slots (R16, R17) -/

/-- The class whose guaranteed slot is slot `k` of a frame: even slots are the pixel class's 64, and the register class's 23 stand evenly
among the odd ones, of which the network class has the other 41 (DESIGN CHOICE, log entry 193). -/
def slotClass (k : Nat) : Nat :=
  if k % 2 = 0 then 0 else if k / 2 * 23 / 64 < (k / 2 + 1) * 23 / 64 then 2 else 1

/-- The class that sends in slot `k`: the one the slot belongs to, or the next in the order pixel, network, register and footpath, pixel
that has a flit and a credit (R16). -/
def slotTaker (d : CwyDir) (queued : List Nat) (k : Nat) : Option Nat :=
  let o := slotClass k
  [o, (o + 1) % 3, (o + 2) % 3].find? (fun c => queued.contains c && decide (0 < nth d.credits c 0))

/-! ### Sending and receiving (R15, R16, R18, R22) -/

/-- The credits that a flit returns for the opposite direction (R15). -/
def returnFlits (back : CwyDir) (f : Flit) : CwyDir :=
  if flitRetClass f < 3 then { back with credits := addAt back.credits (flitRetClass f) (flitRet f) } else back

/-- The receiver takes an accepted flit of a class: its payload joins the class's packet, LAST ends the packet, and its credit is owed back
(R16, R18). Every 16th accepted flit sends an acknowledgement (R22). -/
def takeFlit (d : CwyDir) (f : Flit) : CwyDir :=
  let c := flitClass f
  let body := nth d.packet c [] ++ f.payload
  let next := (d.rxNext + 1) % 1024
  let due := decide (15 ≤ d.sinceAck)
  { d with rxNext := next, nakSeq := none, nakCount := 0, sinceAck := if due then 0 else d.sinceAck + 1,
           acks := if due then d.acks ++ [next] else d.acks,
           owed := addAt d.owed c 1,
           packet := d.packet.set c (if flitLast f then [] else body),
           done := if flitLast f then d.done.set c body else d.done }

/-- A flit reaches the receiver: a bad one of any class is answered with a NAK, one out of sequence is passed over until the replay brings
it, and a good one is taken and returns its credits, once (R18, R22). The second direction is the opposite one. -/
def receiveFlit (x : CwyDir × CwyDir) (f : Flit) : CwyDir × CwyDir :=
  if !flitGood f then ({ x.1 with nakSeq := some x.1.rxNext }, x.2)
  else if flitClass f = 3 then (x.1, returnFlits x.2 f)
  else if flitSeq f = x.1.rxNext then (takeFlit x.1 f, returnFlits x.2 f)
  else x

/-- The sender may send a flit in slot `k`: link control is not sequenced and takes any slot; a data class needs the slot, its next SEQ, a
credit and room in the retry buffer; the credits it returns are owed by its own receiver (R15, R16, R22). -/
def mayPush (d back : CwyDir) (queued : List Nat) (k : Nat) (f : Flit) : Bool :=
  flitRsv f == 0 && f.payload.length == 128 && (flitRet f == 0 || (decide (flitRetClass f < 3) && decide (flitRet f ≤ nth back.owed (flitRetClass f) 0)))
    && (if flitClass f = 3 then flitSeq f == 0
        else flitSeq f == d.nextSeq && slotTaker d (flitClass f :: queued) k == some (flitClass f) && decide (d.retry.length < 64))

/-- The sender's side of a flit in slot `k`. -/
def pushFlit (d : CwyDir) (k : Nat) (f : Flit) : CwyDir :=
  if flitClass f = 3 then { d with slot := (k + 1) % 128 }
  else { d with slot := (k + 1) % 128, nextSeq := (d.nextSeq + 1) % 1024, retry := d.retry ++ [(flitSeq f, f)],
                credits := subAt d.credits (flitClass f) 1 }

/-- Credits leave the sender's account with the flit that returns them; those of a link-control flit that arrives bad, which nothing
replays, stay owed (DESIGN CHOICE, log entry 194). -/
def chargeOwed (back : CwyDir) (sent got : Flit) : CwyDir :=
  if flitRet sent = 0 ∨ (flitClass sent = 3 ∧ flitGood got = false) then back
  else { back with owed := subAt back.owed (flitRetClass sent) (flitRet sent) }

/-- The state with both directions replaced: the one that `toComp` names, and the opposite one. -/
def setCwyDirs (s : State) (toComp : Bool) (x : CwyDir × CwyDir) : State := setCwyDir (setCwyDir s (!toComp) x.2) toComp x.1

/-- CAUSEWAY_DATA_FLIT: after `idle` slots in which no class had a flit and a credit, a flit is sent in a direction while `queued` are the
other classes that have one, and the receiver gets `got` of it (R15, R16, R22). -/
def dataFlit (toComp : Bool) (idle : Nat) (queued : List Nat) (sent got : Flit) (s : State) : State :=
  let d := cwyDir s toComp
  let b := cwyDir s (!toComp)
  let k := (d.slot + idle) % 128
  if cwyUp s = true ∧ mayPush d b queued k sent = true then
    setCwyDirs s toComp (receiveFlit (pushFlit d k sent, chargeOwed b sent got) got)
  else s

/-- CAUSEWAY_DATA_FLIT. -/
def execCausewayDataFlit (toComp : Bool) (sent : Sent) (got : Flit) (s : State) : Host.Outcome State Fault Refusal :=
  .next (dataFlit toComp sent.idle sent.queued sent.flit got s)

/-- Flits of the retry buffer from a sequence number on. -/
def retryFrom (seq : Nat) : List (Nat × Flit) → List (Nat × Flit)
  | [] => []
  | x :: xs => if x.1 = seq then x :: xs else retryFrom seq xs

/-- The replayed flits reach the receiver; the first `good` of them pass the check, and the next one, if any, is answered with a further
NAK (R22). -/
def replay : Nat → List (Nat × Flit) → CwyDir × CwyDir → CwyDir × CwyDir
  | _, [], x => x
  | 0, _ :: _, x => ({ x.1 with nakSeq := some x.1.rxNext }, x.2)
  | n + 1, y :: ys, x => replay n ys (if y.1 = x.1.rxNext then (takeFlit x.1 y.2, returnFlits x.2 y.2) else x)

/-- CAUSEWAY_NAK: the sender of a direction replays from the failed sequence number. Each replay raises CAUSEWAY_RETRY at the
receiving end and counts there; a NAK for a link-control flit with nothing outstanding replays nothing. The eighth NAK in a row for one
number is CAUSEWAY_FAIL (R22, R23). -/
def causewayNak (toComp : Bool) (good : Nat) (s : State) : State :=
  let d := cwyDir s toComp
  match d.nakSeq with
  | none => s
  | some q =>
    if !cwyUp s then s
    else if d.nakCount + 1 = 8 then cwyFail s toComp
    else
      let n := d.nakCount + 1
      let l := retryFrom q d.retry
      if l = [] then setCwyDir s toComp { d with nakSeq := none, nakCount := n }
      else
        let x := replay good l ({ d with nakSeq := none, nakCount := n }, cwyDir s (!toComp))
        let d1 := { x.1 with nakCount := if x.1.rxNext = q then n else 0 }
        raise (bump (setCwyDirs s toComp (d1, x.2)) (F.CWY_STAT_RETRIES (!toComp)) 1) (!toComp) 0x0180 1 none (cwyBlock (!toComp)) 0xFFFF []

/-- CAUSEWAY_NAK. -/
def execCausewayNak (toComp : Bool) (good : Nat) (s : State) : Host.Outcome State Fault Refusal := .next (causewayNak toComp good s)

/-- CAUSEWAY_ACK: the oldest acknowledgement under way arrives, or one that the receiver sends before the 16th flit, and the sender frees
every flit that had been accepted when it was sent (R22). -/
def causewayAck (toComp : Bool) (s : State) : State :=
  if cwyUp s then
    let d := cwyDir s toComp
    setCwyDir s toComp (match d.acks with
      | [] => { d with retry := retryFrom d.rxNext d.retry, sinceAck := 0 }
      | a :: r => { d with retry := retryFrom a d.retry, acks := r })
  else s

/-- CAUSEWAY_ACK. -/
def execCausewayAck (toComp : Bool) (s : State) : Host.Outcome State Fault Refusal := .next (causewayAck toComp s)

/-- CAUSEWAY_ACK_TIMEOUT: flits are outstanding and no acknowledgement has come for 2 µs (R23). -/
def ackTimeout (toComp : Bool) (s : State) : State :=
  if cwyUp s = true ∧ (cwyDir s toComp).retry ≠ [] then cwyFail s toComp else s

/-- CAUSEWAY_ACK_TIMEOUT. -/
def execCausewayAckTimeout (toComp : Bool) (s : State) : Host.Outcome State Fault Refusal := .next (ackTimeout toComp s)

/-! ### Training (R24) -/

/-- CAUSEWAY_TRAINING: both directions are trained afresh and pass data. -/
def training (s : State) : State :=
  if s.pwr.compOn = true ∧ s.pwr.dcReset = false ∧ s.pwr.dcClkStop = false ∧ isSet s (F.CWY_STAT_FAILED true) = false ∧ isSet s (F.CWY_STAT_LINK_UP true) = false then
    setF (setF { s with cwy := { s.cwy with toComp := {}, toPort := {} } } (F.CWY_STAT_LINK_UP true) 1) (F.CWY_STAT_LINK_UP false) 1
  else s

/-- CAUSEWAY_TRAINING. -/
def execCausewayTraining (s : State) : Host.Outcome State Fault Refusal := .next (training s)

/-- CAUSEWAY_TRAINING_TIMEOUT: CAUSEWAY_FAIL, and Emino holds the compute die in reset. -/
def trainingTimeout (s : State) : State :=
  if s.pwr.compOn = true ∧ isSet s (F.CWY_STAT_LINK_UP true) = false then
    let s := cwyFail s true
    { s with pwr := { s.pwr with dcReset := true } }
  else s

/-- CAUSEWAY_TRAINING_TIMEOUT. -/
def execCausewayTrainingTimeout (s : State) : Host.Outcome State Fault Refusal := .next (trainingTimeout s)

/-! ### Signalling lanes (R21) -/

/-- The value nearest to `own` whose low 52 bits are `low` (R21). -/
def nearest (own low : Nat) : Nat :=
  let base := own / 2 ^ 52 * 2 ^ 52 + low % 2 ^ 52
  if own + 2 ^ 51 < base ∧ 2 ^ 52 ≤ base then base - 2 ^ 52
  else if base + 2 ^ 51 < own then base + 2 ^ 52
  else base

/-- A message is delivered when the copy on either lane passes its check (R21), and the dies reach each other. -/
def delivered (s : State) (copy22 copy23 : Bool) : Bool := cwyUp s && (copy22 || copy23)

/-- TIME_SYNC: the tick unit corrects its copy of 802.1AS time (R21, R38). -/
def timeSync (copy22 copy23 : Bool) (s : State) : State :=
  if delivered s copy22 copy23 then { s with timeC := nearest s.timeC s.timeP } else s

/-- TIME_SYNC. -/
def execTimeSync (copy22 copy23 : Bool) (s : State) : Host.Outcome State Fault Refusal := .next (timeSync copy22 copy23 s)

/-- TICK_ANNOUNCEMENT: the tick unit completes the edge's time and tick number from its own copies (R21, R38). -/
def tickAnnouncement (copy22 copy23 : Bool) (s : State) : State :=
  match s.cwy.ann with
  | none => s
  | some a =>
    if delivered s copy22 copy23 then
      { s with tick := { s.tick with announced := some (nearest s.timeC a.edge, nearest s.tick.num a.tick) },
               cwy := { s.cwy with ann := some { a with received := true } } }
    else s

/-- TICK_ANNOUNCEMENT. -/
def execTickAnnouncement (copy22 copy23 : Bool) (s : State) : Host.Outcome State Fault Refusal := .next (tickAnnouncement copy22 copy23 s)

/-- TICK_EDGE_MESSAGE: delivered, it gives the port die the edge; lost, the port die drives its triggers from the earlier
announcement (R21). -/
def tickEdgeMessage (copy22 copy23 : Bool) (s : State) : State :=
  if delivered s copy22 copy23 then { s with cwy := { s.cwy with portEdge := some (s.tick.num, s.tick.edge) } }
  else match s.cwy.ann with
    | some a => { s with cwy := { s.cwy with portEdge := some (a.tick, a.edge) } }
    | none => s

/-- TICK_EDGE_MESSAGE. -/
def execTickEdgeMessage (copy22 copy23 : Bool) (s : State) : Host.Outcome State Fault Refusal := .next (tickEdgeMessage copy22 copy23 s)

/-- The oldest port-die record whose notification is not acknowledged; a DOUBLE_FAULT record is not sent (R484, R489). -/
def toNotify (s : State) : Option FaultRec :=
  s.flt.port.queue.find? (fun r => !s.flt.acked.contains r.seq && r.code != 0x0106)

/-- FAULT_NOTIFICATION: the record enters the compute-die queue, and the compute die acknowledges it (R21, R484). -/
def faultNotification (copy22 copy23 : Bool) (s : State) : State :=
  match toNotify s with
  | none => s
  | some r =>
    if delivered s copy22 copy23 then
      fltEnqueue { s with flt := { s.flt with acked := s.flt.acked ++ [r.seq] } } false r
    else s

/-- FAULT_NOTIFICATION. -/
def execFaultNotification (copy22 copy23 : Bool) (s : State) : Host.Outcome State Fault Refusal := .next (faultNotification copy22 copy23 s)

/-- SIGNAL_ACKNOWLEDGEMENT of a fault notification or a tick announcement: an acknowledged record leaves the port-die queue
(R484), and repetition stops (R21). -/
def signalAck (ofFault copy22 copy23 : Bool) (s : State) : State :=
  if !delivered s copy22 copy23 then s
  else if ofFault then
    { s with flt := { s.flt with port := { s.flt.port with queue := s.flt.port.queue.filter (fun r => !s.flt.acked.contains r.seq) },
                                 acked := [] } }
  else { s with cwy := { s.cwy with ann := s.cwy.ann.map (fun a => if a.received then { a with acked := true } else a) } }

/-- SIGNAL_ACKNOWLEDGEMENT. -/
def execSignalAcknowledgement (ofFault copy22 copy23 : Bool) (s : State) : Host.Outcome State Fault Refusal :=
  .next (signalAck ofFault copy22 copy23 s)

/-- SIGNAL_REPEAT: an unacknowledged announcement or fault notification is sent again and counted (R21, R24). -/
def signalRepeat (ofFault : Bool) (s : State) : State :=
  if !cwyUp s then s
  else if (if ofFault then !s.flt.port.queue.isEmpty else s.cwy.ann.any (fun a => !a.acked)) then bump s (F.CWY_STAT_SIG_REPEATS true) 1
  else s

/-- SIGNAL_REPEAT. -/
def execSignalRepeat (ofFault : Bool) (s : State) : Host.Outcome State Fault Refusal := .next (signalRepeat ofFault s)

/-- ANNOUNCE_ACK_DEADLINE at time `t`: the announcement is unacknowledged 5 µs before its edge (R21). -/
def announceDeadline (t : Nat) (s : State) : State :=
  let s := atPort t s
  if s.cwy.ann.any (fun a => !a.acked && decide (a.edge ≤ s.timeP + 5000)) ∧ cwyUp s then cwyFail s true else s

/-- ANNOUNCE_ACK_DEADLINE. -/
def execAnnounceAckDeadline (t : Nat) (s : State) : Host.Outcome State Fault Refusal := .next (announceDeadline t s)

end Sys2Proof.Machine
end

