-- ==== Sys2Proof/Machine/Plan.lean ====
section
/-! DEFINITION. Plans (R45): their bytes, their validation by the scheduler (R52, R53), and plan memory. -/

namespace Sys2Proof.Machine

/-! ### The bytes of a plan (R45) -/

/-- An item record of 32 bytes. -/
def planItem (b : Bytes) : PlanItem :=
  let fl := leAt b 3 1
  { id := leAt b 0 2, engine := leAt b 2 1, finish := bitOf fl 0, batch := bitOf fl 1, part := bitsOf fl 2 3, start := leAt b 4 4,
    deadline := leAt b 8 4, wfix := leAt b 12 4, waclk := leAt b 16 4, arg := leAt b 20 2, preset := leAt b 22 2,
    deps := ((List.range 4).map (fun i => leAt b (24 + i) 1)).filter (· ≠ 0xFF), outlist := leAt b 28 2, every := leAt b 30 1,
    phase := leAt b 31 1 }

/-- Item records that a plan's bytes hold. -/
def planCount (b : Bytes) : Nat := leAt b 4 2

/-- The record of item `i`. -/
def itemBytes (b : Bytes) (i : Nat) : Bytes := (b.drop (32 + 32 * i)).take 32

/-- Output lists and preset records that the items name, counted from the first. -/
def listsUsed (its : List PlanItem) : Nat := its.foldl (fun n i => if i.outlist = 0xFFFF then n else max n (i.outlist + 1)) 0
def presetsUsed (its : List PlanItem) : Nat :=
  its.foldl (fun n i => if i.preset = 0xFFFF ∨ i.engine = 0x07 then n else max n (i.preset + 1)) 0

/-- A plan from its bytes. -/
def parsePlan (b : Bytes) : Plan :=
  let its := (List.range (planCount b)).map (fun i => planItem (itemBytes b i))
  let oo := leAt b 24 4
  let po := leAt b 28 4
  { id := leAt b 2 2, fallback := leAt b 6 2, period := leAt b 8 4, ceil := leAt b 12 2, floor := leAt b 14 2, margin := leAt b 16 1,
    items := its,
    outs := (List.range (listsUsed its)).map (fun i => (List.range 8).map (fun k => leAt b (oo + 64 * i + 8 * k) 8)),
    presets := (List.range (presetsUsed its)).map (fun i => (b.drop (po + 128 * i)).take 128),
    size := b.length }

/-! ### Validation (R52, R53) -/

/-- Items that form one chain of starts (R47): one engine code, but for ISP, intake and codec items, whose engines are the pipes of the
mask, the context and the core. Items 10 and 11 of the worked example of R327 start and run together on code 0x07; intake items of one
context may be armed together (R300); and a codec item starts when its job enters the queue, among several bound ones (R46, R344). DEDUCED,
log entry 49. -/
def sameEngine (a b : PlanItem) : Bool := a.engine == b.engine && a.engine != 0x07 && a.engine != 0x09 && a.engine != 0x0A

/-- Two items run in a common tick (R45). -/
def coRun (a b : PlanItem) : Bool := (a.phase : Int) % Nat.gcd a.every b.every == (b.phase : Int) % Nat.gcd a.every b.every

/-- The times of R52 are kept exact as multiples of `1 / D`, where `D` is the ceiling in MHz times `100 - m`. -/
def scaleD (f m : Nat) : Nat := f * (100 - m)

/-- W(f) / (1 - m) of an item, times `D` (R52). -/
def scaledW (it : PlanItem) (f : Nat) : Nat := (it.wfix * f + it.waclk * 1000) * 100

/-- The fused maxima of the four ISP pipes in MHz (ISP_CAP, R310). -/
def pipeMhz (s : State) : List Nat :=
  [F.ISP_CAP_PIPE0_MAX, F.ISP_CAP_PIPE1_MAX, F.ISP_CAP_PIPE2_MAX, F.ISP_CAP_PIPE3_MAX].map (fun x => 4 * getF s x)

/-- The frequency an item is validated at: the ceiling, or for an ISP item the lowest fused maximum among the pipes in its mask, which are
`pm` (R64). No engine code names a set of host cores. -/
def itemMhz (pm : List Nat) (f : Nat) (it : PlanItem) : Nat :=
  if it.engine = 0x07 then ((pm.zipIdx.filter (fun x => bitOf it.preset x.2)).map (·.1)).foldl min 1000 else f

/-- Worst-case issue and end of every item, times its own `D`, in plan order (R52). -/
def worstEnds (pm : List Nat) (f m : Nat) : List PlanItem → List (PlanItem × Nat × Nat) → List (PlanItem × Nat × Nat)
  | [], done => done
  | it :: rest, done =>
    let g := itemMhz pm f it
    let d := scaleD g m
    let prev := ((done.filter (fun x => sameEngine x.1 it && coRun x.1 it)).map (fun x => x.2.2 + 200 * d))
    let s := prev.foldl max ((it.start + 160) * d)
    worstEnds pm f m rest (done ++ [(it, s, s + scaledW it g + 40 * d)])

/-- Every item's worst-case end meets its deadline at a ceiling (R52, R64). -/
def meetsAt (pm : List Nat) (p : Plan) (f : Nat) : Bool :=
  f != 0 && (worstEnds pm f p.margin p.items []).all (fun x => decide (x.2.2 ≤ x.1.deadline * scaleD (itemMhz pm f x.1) p.margin))

/-- Reason 1: FORMAT unknown, a reserved field not zero, or a field outside the values R45 gives it. -/
def planMalformed (b : Bytes) (p : Plan) : Bool :=
  leAt b 0 2 != 1 || leAt b 17 7 != 0 || p.id == 0xFFFF || p.items.isEmpty || decide (256 < p.items.length) || decide (25 < p.margin)
    || decide (b.length < 32 + 32 * planCount b)
    || decide (b.length < leAt b 24 4 + 64 * p.outs.length) || decide (b.length < leAt b 28 4 + 128 * p.presets.length)
    || (List.range (planCount b)).any (fun i => leAt (itemBytes b i) 3 1 / 32 != 0)
    || p.items.any (fun it => it.every == 0 || decide (it.every ≤ it.phase) || it.deps.any (fun d => decide (p.items.length ≤ d))
        || (it.engine == 0x0B && it.arg / 8 != 0) || (it.engine == 0x0D && it.arg != 0)
        || ((it.engine == 0x07 || it.engine == 0x09) && decide (31 < it.arg)))

/-- The ticks `n` with `n mod m = r` that an item runs in too: their least one and their step, if there are any (R45). -/
def meetTicks (r m : Nat) (it : PlanItem) : Option (Nat × Nat) :=
  ((List.range it.every).find? (fun k => (r + k * m) % it.every == it.phase)).map (fun k => (r + k * m, Nat.lcm m it.every))

/-- The greatest number of items that some tick `n` with `n mod m = r` arms. -/
def mostArmed : List PlanItem → Nat → Nat → Nat
  | [], _, _ => 0
  | it :: rest, r, m =>
    match meetTicks r m it with
    | none => mostArmed rest r m
    | some (q, l) => if l = m then 1 + mostArmed rest r m else max (1 + mostArmed rest q l) (mostArmed rest r m)

/-- More than 32 items armed at once (reason 4): every item that a tick runs is armed from its edge (R48). -/
def tooManyArmed (its : List PlanItem) : Bool := decide (32 < its.length) && decide (32 < mostArmed its 0 1)

/-- The span an item may take in a tick, in ns: a billet, a retraining step or a quiet window takes it to its deadline, any other
item from its earliest issue to its worst end at the floor. -/
def spansOf (pm : List Nat) (p : Plan) : List (PlanItem × Nat × Nat) :=
  (worstEnds pm p.floor p.margin p.items []).map (fun x =>
    let d := scaleD (itemMhz pm p.floor x.1) p.margin
    if x.1.engine = 0x0B ∨ x.1.engine = 0x0C ∨ x.1.engine = 0x0D then (x.1, x.1.start, x.1.deadline)
    else (x.1, x.1.start, (x.2.2 + d - 1) / d))

/-- Two items of a plan overlap, the first of one kind and the second of another. -/
def overlaps (pm : List Nat) (p : Plan) (f g : PlanItem → Bool) : Bool :=
  let l := spansOf pm p
  l.zipIdx.any (fun a => f a.1.1 && l.zipIdx.any (fun b => a.2 != b.2 && g b.1.1 && coRun a.1.1 b.1.1
    && decide (a.1.2.1 < b.1.2.2) && decide (b.1.2.1 < a.1.2.2)))

/-- A billet of a class. -/
def isBillet (cs : List Nat) (it : PlanItem) : Bool := it.engine == 0x0B && cs.contains (it.arg % 8)
/-- An item of a stream DMA engine. -/
def isDma (it : PlanItem) : Bool := decide (2 ≤ it.engine) && decide (it.engine ≤ 5)
/-- An ISP context works outside DRAM: it is enabled, and neither its outputs nor the planes it is fed from lie in DRAM. -/
def ctxOffDram (s : State) (c : Nat) : Bool :=
  let r := (tabGet s.isp.ctx c {}).record
  ispOn s c && ([iOutA r] ++ (if iOutY r = 0 then [] else [iOutY r]) ++ (if iSrc r then [iSrcDesc r] else [])).all
    (fun a => region (tdesc s a).base != .dram)
/-- An item whose time rests on the DRAM bound (R50): its engine is a bulk requester of R351's table (DEDUCED, log entry 49). -/
def onDram (s : State) (it : PlanItem) : Bool :=
  isDma it || it.engine == 0x08 || it.engine == 0x0A || (it.engine == 0x07 && !ctxOffDram s it.arg)

/-- The switched domains an item's engine lies in are powered (reason 6). -/
def engPowered (s : State) (it : PlanItem) : Bool :=
  match it.engine with
  | 0x07 => (List.range 4).all (fun k => !bitOf it.preset k || powered s (domPipe k))
  | 0x08 => powered s domStereo
  | 0x09 => powered s domCam
  | 0x0A => powered s domCodec
  | _ => true

/-- The first reason of R53 for which the scheduler refuses a plan, reason 8 apart. -/
def planRefusal (s : State) (b : Bytes) (p : Plan) : Option Nat :=
  if planMalformed b p then some 1
  else if p.items.any (fun it => decide (p.period * 1000 < it.deadline + 1000) || decide (it.deadline ≤ it.start)) then some 2
  else if !meetsAt (pipeMhz s) p p.ceil || !meetsAt (pipeMhz s) p p.floor then some 3
  else if tooManyArmed p.items then some 4
  else if overlaps (pipeMhz s) p (onDram s) (fun it => it.engine == 0x0D || isBillet [5] it) then some 5
  else if p.items.any (fun it => decide (0x0D < it.engine) || !engPowered s it || (it.engine == 0x07 && it.preset % 16 == 0)
      || (it.engine == 0x0B && decide (500000 < it.deadline - it.start)))
      || overlaps (pipeMhz s) p (isBillet [0, 3, 6]) (fun it => it.engine == 0)
      || overlaps (pipeMhz s) p (isBillet [4]) isDma || overlaps (pipeMhz s) p (fun it => it.engine == 0x0C) (onDram s) then some 6
  else if p.ceil < p.floor ∨ s.fuse.aclkMax < p.ceil then some 7
  else none

/-- Plan memory has room for a plan (R45): 64 KiB, 16 plans and 1,536 items; an identifier it holds already is not taken twice. -/
def planRoom (s : State) (p : Plan) : Bool :=
  decide (s.tick.plans.length < 16) && decide ((s.tick.plans.foldl (fun n q => n + q.size) 0) + p.size ≤ 65536)
    && decide ((s.tick.plans.foldl (fun n q => n + q.items.length) 0) + p.items.length ≤ 1536) && s.tick.plans.all (fun q => q.id != p.id)

/-- The scheduler validates a plan and writes it into plan memory, or gives the reason of R53. -/
def addPlan (s : State) (b : Bytes) : State × Option Nat :=
  let p := parsePlan b
  match planRefusal s b p with
  | some r => (s, some r)
  | none => if planRoom s p then ({ s with tick := { s.tick with plans := s.tick.plans ++ [p] } }, none) else (s, some 8)

/-- An activation (R49): at least two ticks after it is written; a plan that is not in plan memory is refused with reason 8. Of two that
name one edge, the one written later replaces the other (DESIGN CHOICE, log entry 197). -/
def activatePlan (s : State) (id n : Nat) : State × Option Nat :=
  if (planOf s id).isNone ∨ (s.tick.running = true ∧ n < s.tick.num + 2) then (s, some 8)
  else ({ s with tick := { s.tick with pending := s.tick.pending.filter (fun x => x.2 != n) ++ [(id, n)] } }, none)

/-- A plan is in force or in the fallback chain of the plan in force, or an activation names it (R285, R413). -/
def planHeld (s : State) (id : Nat) : Bool := (chainNow s).any (fun p => p.id == id) || s.tick.pending.any (fun x => x.1 == id)

/-- The removal of a plan (R285). -/
def removePlan (s : State) (id : Nat) : State × Option Nat :=
  if planHeld s id ∨ (planOf s id).isNone then (s, some 8)
  else ({ s with tick := { s.tick with plans := s.tick.plans.filter (fun p => p.id != id) } }, none)

end Sys2Proof.Machine
end

