-- ==== Sys2Proof/Machine/Tick.lean ====
section
/-! DEFINITION. The tick unit (R38 to R62): edges, the start of items, ends and deadline misses, and the milestone record. -/

namespace Sys2Proof.Machine

/-! ### Starting items (R41, R44, R46, R47) -/

/-- An item of the plan in force, by index. -/
def itemAt (s : State) (i : Nat) : Option PlanItem := (planNow s).bind (fun p => p.items[i]?)

/-- No earlier item of the tick on the same engine is still armed (R47). -/
def chainFree (s : State) (a : Armed) : Bool := s.tick.armed.all (fun b => a.idx ≤ b.idx || !sameEngine b.item a.item)

/-- An earlier item of the tick on the same engine has ended after the item's own start time: the item waited for it (R44, R47). -/
def hasPred (s : State) (a : Armed) : Bool :=
  s.tick.log.ended.any (fun i => decide (i < a.idx) && (itemAt s i).any (fun it => sameEngine it a.item)
    && (tabGet s.tick.log.endAt i none).any (fun e => decide (a.start < e)))

/-- An elastic step still holds the item's engine: the item starts when its lay-by entry completes (R275, R284). -/
def stepHolds (s : State) (a : Armed) : Bool :=
  match codeEngine a.item.engine with
  | some e => s.sch.run.any (fun x => x.engs.any (fun y => y.1 == e))
  | none => false

/-- Items of the partition are cancelled at their start: it is paused (R417), restarting (R487) or torn down (R474). -/
def partBlocked (s : State) (p : Nat) : Bool :=
  s.hif.paused.any (fun x => x.part == p) || s.flt.restarts.any (fun x => x.part == p) || (getP s p).st == 3

/-- The armed item `idx` is marked as started. -/
def markStarted (s : State) (idx : Nat) : State :=
  { s with tick := { s.tick with armed := s.tick.armed.map (fun a => if a.idx = idx then { a with started := true } else a) } }

/-- A billet begins (R496): it may end at once as incomplete; one on Map Store or a tile memory copies its window into the shadow buffer
(R154); while one scans logic with keys, key release is locked (R473). -/
def billetBegin (s : State) (a : Armed) : State :=
  let c := a.item.arg % 8
  if billetIdle s a.item then
    let s := setF (setF s F.BIST_STAT_CLASS c) F.BIST_STAT_RESULT 2
    { s with tick := { s.tick with reports := s.tick.reports ++ [a.idx] } }
  else if c = 1 ∨ c = 2 then shadowFill s (billetWindow c (nth s.flt.cursors c (0, 0)).1)
  else if c = 4 ∨ c = 5 then { s with sec := { s.sec with locked := true } }
  else s

/-- An ISP item starts: its context's oldest admitted frame that nothing has taken becomes its own (R318). -/
def ispBegin (s : State) (a : Armed) : State :=
  match s.isp.frames.find? (fun f => f.ctx == a.item.arg && untaken f) with
  | some f => takeFrame s a f
  | none => s

/-- An item starts; the first word of a Hexarel engine is to issue at `at_`. A refused start is reported as a cancellation (R187,
R194). -/
def beginItem (s : State) (a : Armed) (at_ : Nat) : State :=
  if partBlocked s a.item.part then cancelItem s a.idx
  else
    let s := markStarted s a.idx
    match codeEngine a.item.engine with
    | some e =>
      let r := startEngine s e a.item.arg a.item.part (some (a.idx, a.item.id)) a.preset false at_
      if r.2 then r.1 else cancelItem r.1 a.idx
    | none => match a.item.engine with
      | 0x07 => ispBegin s a
      | 0x0B => billetBegin s a
      | 0x0D => quietWindow s
      | _ => s

/-- An armed item that has not started starts, when its time has come and its engine is free. -/
def tryStart (s : State) (idx at_ : Nat) : State :=
  match armedOf s idx with
  | some a => if a.started = false ∧ a.start ≤ s.timeC ∧ chainFree s a ∧ stepHolds s a = false ∧ s.flt.safe = false then beginItem s a at_ else s
  | none => s

/-- ITEM_OFFSET_START at time `t`: the item's START_OFFSET_NS after the edge has passed, and it waits for no item before it on its engine,
or that ended by then (R44, R47). -/
def offsetStart (idx t : Nat) (s : State) : State :=
  let s := atComp t s
  match armedOf s idx with
  | some a => if hasPred s a then s else tryStart s idx (a.start + 160)
  | none => s

/-- A parity error on an item's start message (R482): CTRL_PARITY against its partition, and the item is cancelled. -/
def startDamaged (idx t : Nat) (s : State) : State :=
  let s := atComp t s
  match armedOf s idx with
  | some a =>
    if a.started = false ∧ a.start ≤ s.timeC then
      cancelItem (raise s false 0x0104 2 (some a.item.part) (Config.sourceBlock 0x0104) a.item.id []) idx
    else s
  | none => s

/-- ITEM_OFFSET_START. -/
def execItemOffsetStart (idx : Nat) (t : TickMsg) (s : State) : Host.Outcome State Fault Refusal :=
  .next (if t.par then startDamaged idx t.t s else offsetStart idx t.t s)

/-- ITEM_CHAINED_START at time `t`: the item before it on its engine, for which it waited past its own start time, has ended (R44, R47). -/
def chainedStart (idx t : Nat) (s : State) : State :=
  let s := atComp t s
  match armedOf s idx with
  | some a => if hasPred s a then tryStart s idx (s.timeC + 200) else s
  | none => s

/-- ITEM_CHAINED_START. -/
def execItemChainedStart (idx t : Nat) (s : State) : Host.Outcome State Fault Refusal := .next (chainedStart idx t s)

/-! ### Deadlines and ends (R54 to R57) -/

/-- Time of the next edge. -/
def nextEdge (s : State) : Nat := s.tick.edge + 1000 * periodUs s

/-- LATE_QUEUE of an item (R183, R262): the queue its engine waits on; for a stream DMA engine held for tags or credits the queue of the
word's own cairn or completion; for a CROP word held on an empty box queue that queue. -/
def lateQueue (s : State) (a : Armed) : Nat :=
  match codeEngine a.item.engine with
  | none =>
    if a.item.engine ≠ 7 then 0xFFFF
    else
      let waits := (s.isp.frames.filter (fun f => f.item.map (·.1) == some a.idx)).flatMap (fun f => f.lanes.filterMap (fun l =>
        l.pipe.bind (fun p => if (getE s (7 + p)).st = .wait then (getE s (7 + p)).waitQ else none)))
      waits.headD 0xFFFF
  | some e =>
    let g := getE s e
    if a.started = false ∨ g.item.map (·.1) ≠ some a.idx then 0xFFFF
    else match g.st, g.waitQ with
      | .wait, some q => q
      | st, _ =>
        if 2 ≤ e ∧ e < 6 then
          (if st = .held ∧ dmaStarved s e then ((wordNow (getD s e)).bind (fun w => w.emit.orElse (fun _ => w.post))).getD 0xFFFF else 0xFFFF)
        else if e = 6 ∧ st = .held then
          let w := BitVec.ofNat 256 (memLe s.mem (csAddr 6 + 32 * g.pc) 32)
          if wClass w ≠ 8 ∨ bitOf (pF w 0 13) 12 then 0xFFFF else pF w 13 13
        else 0xFFFF

/-- DEADLINE_MISS (R54 to R56): the fault is raised; with ON_MISS 0 the item is stopped and its outcome recorded, with ON_MISS 1 it runs
on, and its entry will name the queue of this moment (R183). Its dependants are cancelled in both cases. -/
def missItem (s : State) (a : Armed) : State :=
  let late := s.timeC - a.deadline
  let q := lateQueue s a
  let s := raise s false 0x0103 2 (some a.item.part) 16 a.item.id [late]
  let s := setF s F.TICK_STAT_MISS 1
  let s := if a.item.finish then
      { s with tick := { s.tick with armed := s.tick.armed.map (fun b => if b.idx = a.idx then { b with missed := true, lateQ := q } else b) } }
    else disarm (logOutcome (stopItem s a) a.item 1 0xFFFFFFFF q) a.idx
  runFifos (cancelDeps s a.idx)

/-- The comparator of an armed item fires at the present time: its deadline has passed, and its end has not come. A quiet window ends at
its deadline (R46). -/
def fires (s : State) (a : Armed) : Bool :=
  !a.missed && a.item.engine != 0x0D && (decide (a.deadline < s.timeC) || (a.deadline == s.timeC && !s.tick.reports.contains a.idx))

/-- DEADLINE_MISS at time `t`. -/
def deadlineMiss (idx t : Nat) (s : State) : State :=
  let s := atComp t s
  match armedOf s idx with
  | some a => if fires s a then missItem s a else s
  | none => s

/-- DEADLINE_MISS. -/
def execDeadlineMiss (idx t : Nat) (s : State) : Host.Outcome State Fault Refusal := .next (deadlineMiss idx t s)

/-- An item that missed and runs on is stopped 1 µs before the next edge (R55). -/
def stopRunOn (s : State) (a : Armed) : State := runFifos (disarm (logOutcome (stopItem s a) a.item 1 0xFFFFFFFF a.lateQ) a.idx)

/-- ITEM_RUNON_LIMIT at time `t`. -/
def runonLimit (idx t : Nat) (s : State) : State :=
  let s := atComp t s
  match armedOf s idx with
  | some a => if a.missed ∧ nextEdge s ≤ s.timeC + 1000 then stopRunOn s a else s
  | none => s

/-- ITEM_RUNON_LIMIT. -/
def execItemRunonLimit (idx t : Nat) (s : State) : Host.Outcome State Fault Refusal := .next (runonLimit idx t s)

/-- An item that ends on time gives the least slack of the tick (R59). -/
def noteSlack (s : State) (slack : Int) : State :=
  { s with tick := { s.tick with log := { s.tick.log with minSlack := min s.tick.log.minSlack slack } } }

/-- The end condition has reached the tick unit (R46): the item is on time, or late and recorded as finished late (R54, R55). A retraining
step's end lets refreshes that fell due in it be forced (R374). -/
def endItem (s : State) (a : Armed) : State :=
  let s := if a.item.engine = 0x0C then retrainEnd s a.item.arg else s
  let s := { s with tick := { s.tick with reports := s.tick.reports.filter (· != a.idx) } }
  if a.missed then disarm (logOutcome s a.item 2 (s.timeC - a.deadline) a.lateQ) a.idx
  else disarm (noteSlack s ((a.deadline : Int) - (s.timeC : Int))) a.idx

/-- A retraining step is complete: it has begun, and no training helper runs on a channel of its mask (R46, R365). -/
def stepComplete (s : State) (a : Armed) : Bool :=
  a.item.engine == 0x0C && a.started && s.drc.trnRun.all (fun c => !bitOf a.item.arg c)

/-- The end condition of an item holds: it is reported, or the item is a quiet window at its deadline, or a retraining step that is
complete (R46). Its ITEM_END is then the end's arrival at the tick unit. -/
def ended (s : State) (a : Armed) : Bool :=
  s.tick.reports.contains a.idx || (a.item.engine == 0x0D && a.started && decide (a.deadline ≤ s.timeC)) || stepComplete s a

/-- ITEM_END at time `t`. Where the deadline has passed before the end arrives, the comparator has fired first (R54). -/
def itemEnd (idx t : Nat) (s : State) : State :=
  let s := atComp t s
  match armedOf s idx with
  | none => s
  | some a =>
    if ended s a = false then s
    else
      let s := if fires s a then missItem s a else s
      match armedOf s idx with
      | some a => endItem s a
      | none => s

/-- ITEM_END. -/
def execItemEnd (idx t : Nat) (s : State) : Host.Outcome State Fault Refusal := .next (itemEnd idx t s)

/-- Every comparator that is due fires, and every item that has run on to its limit stops, before an edge (R54, R55). -/
def sweep (s : State) : State :=
  let s := (s.tick.armed.map (·.idx)).foldl (fun s i => match armedOf s i with
    | some a => if ended s a ∧ fires s a = false then endItem s a else if fires s a then missItem s a else s
    | none => s) s
  (s.tick.armed.map (·.idx)).foldl (fun s i => match armedOf s i with
    | some a => if a.missed then stopRunOn s a else s
    | none => s) s

/-! ### The edge (R38, R48, R49, R62) -/

/-- Shadow preset records written at least 10 µs before the edge come into use (R271). -/
def swapShadows (s : State) : State :=
  let due := s.sch.shadows.filter (fun x => decide (x.2.2.2 ≤ s.tick.edge))
  let plans := s.tick.plans.map (fun p => due.foldl (fun p x => if x.1 = p.id then { p with presets := p.presets.set x.2.1 x.2.2.1 } else p) p)
  { s with tick := { s.tick with plans := plans }, sch := { s.sch with shadows := s.sch.shadows.filter (fun x => decide (s.tick.edge < x.2.2.2)) } }

/-- Shares come into force and meters start anew at an edge (R268); a step that ran on spill runs on its share again, if there is one. -/
def freshShares (s : State) : State :=
  let s := chargeStep s
  let run := s.sch.run.map (fun x => { x with spill := x.spill && getF s (F.SCH_SHARE_US x.part) == 0 })
  { s with sch := { s.sch with run := run, share := (List.range 8).map (fun p => getF s (F.SCH_SHARE_US p)), meter := List.replicate 8 0, since := s.timeC } }

/-- Partition restarts begun at least 1 ms before the edge are over (R487 step 4), and pauses that a FAULT_RESUME has ended (R417). -/
def liftBlocks (s : State) : State :=
  let gone := (s.hif.paused.filter (·.resume)).map (·.part)
  let mask := (List.range 8).foldl (fun v p => if gone.contains p then clearBit v p else v) (getF s F.HIF_DEVSTAT_PAUSED)
  setF { s with flt := { s.flt with restarts := s.flt.restarts.filter (fun r => decide (s.tick.edge < r.since + 1000000)) },
                hif := { s.hif with paused := s.hif.paused.filter (fun x => !x.resume) } } F.HIF_DEVSTAT_PAUSED mask

/-- The log of the tick that ends is set aside for its record, with what the kiln gathered, and a new one begins (R59, R432). -/
def rollLog (s : State) (n edge : Nat) : State :=
  let k := s.kiln
  let old := { s.tick.log with avail := k.avail.getD (getF s F.KILN_STAT_AVAIL_MHZ), pace := k.pace.getD 0, peak := k.peak }
  { s with tick := { s.tick with closing := if s.tick.running then some old else none, log := { tick := n, edge := edge }, running := true,
                                 num := n, edge := edge, announced := none },
           kiln := { k with avail := none, pace := none, peak := 0 } }

/-- The items of a plan that run in tick `n`, armed from its edge (R45, R48). -/
def armItems (p : Plan) (n edge : Nat) : List Armed :=
  (((p.items.zipIdx).filter (fun x => runsIn x.1 n)).map (fun x =>
    { idx := x.2, item := x.1, start := edge + x.1.start, deadline := edge + x.1.deadline,
      preset := if x.1.engine = 0x07 ∨ x.1.preset = 0xFFFF then none else p.presets[x.1.preset]? })).take 32

/-- Auto frames whose lanes run on the pipes of an arming ISP item are discarded (R320). -/
def preemptAuto (s : State) (mask : Nat) : State :=
  (s.isp.frames.filter (fun f => f.auto && f.lanes.any (fun l => l.pipe.any (fun p => bitOf mask p)))).foldl
    (fun s f => settleCtx (stopFrame s f 1) f.ctx) s

/-- The pipes in the masks of the armed ISP items. -/
def ispMask (l : List Armed) : Nat := l.foldl (fun v a => if a.item.engine = 0x07 then Nat.lor v (a.item.preset % 16) else v) 0

/-- Bindings of codec entries and jobs end with the tick whose items they name (log entry 234). -/
def unbindCodec (s : State) : State :=
  let free := fun (e : QEntry) => { e with item := none }
  { s with qm := s.qm.map (fun x => (x.1, { x.2 with entries := x.2.entries.map free, undo := x.2.undo.map free })),
           cdc := { s.cdc with bound := [], jobs := s.cdc.jobs.map (Option.map (fun j => { j with item := none })) } }

/-- The plan of the tick comes into force and its items are armed; with the wrong period, or in safe state, none is (R40, R490). -/
def enterPlan (s : State) (n : Nat) : State :=
  match choosePlan s with
  | none => setF (setF (setF s F.TICK_STAT_PLAN_ID 0xFFFF) F.TICK_STAT_FALLBACK 0) F.TICK_STAT_PLAN_MISMATCH 0
  | some (p, fb) =>
    let bad := p.period != periodUs s
    let s := setF (setF (setF s F.TICK_STAT_PLAN_ID p.id) F.TICK_STAT_FALLBACK (if fb then 1 else 0)) F.TICK_STAT_PLAN_MISMATCH (if bad then 1 else 0)
    let armed := if bad ∨ s.flt.safe then [] else armItems p n s.tick.edge
    let s := unbindCodec (preemptAuto s (ispMask armed))
    { s with tick := { s.tick with armed := armed, log := { s.tick.log with plan := p.id, fallback := fb, mismatch := bad } },
             isp := { s.isp with taken := [] }, cam := { s.cam with bound := [] } }

/-- Items whose start is the edge start (R41). -/
def startAtEdge (s : State) : State :=
  ((s.tick.armed.filter (fun a => a.item.start == 0)).map (·.idx)).foldl (fun s i => tryStart s i (s.tick.edge + 160)) s

/-- The events of an edge with number `n`, in their order. -/
def edgeActs (s : State) (n edge : Nat) : State :=
  let s := sweep s
  let s := rollLog s n edge
  let s := { s with tick := { s.tick with armed := [], reports := [], memberPeriod := if s.net.mep.period = 0 then s.tick.memberPeriod else s.net.mep.period } }
  let s := takeCeiling (takeActivations s n) n
  let s := { s with tick := { s.tick with log := { s.tick.log with ceiling := s.tick.ceiling } } }
  let s := liftBlocks (rebindPair (freshShares (swapShadows s)))
  let s := { s with tick := { s.tick with log := { s.tick.log with restart := s.flt.restarts.map (·.part) } } }
  interrupt (startAtEdge (enterPlan s n))

/-- A refused device generates no edge (R390). -/
def mepRefused (s : State) : Bool := getF s F.TICK_CTL_MODE == 1 && getF s F.MEP_STAT_STATE == 4

/-- TICK_EDGE at time `t`: the local time has reached the announced edge (R38). -/
def tickEdge (t : Nat) (s : State) : State :=
  let s := atComp t s
  match s.tick.announced with
  | none => s
  | some (edge, n) =>
    if isSet s F.TICK_CTL_ENABLE ∧ edge ≤ s.timeC ∧ mepRefused s = false then edgeActs s n edge else s

/-- TICK_EDGE. -/
def execTickEdge (t : TickMsg) (s : State) : Host.Outcome State Fault Refusal :=
  .next (if t.par then raiseDevice (atComp t.t s) false 0x0104 (Config.sourceBlock 0x0104) 0xFFFF [] else tickEdge t.t s)

/-! ### The ceiling rule (R395) -/

/-- Least of a list, or a bound. -/
def leastOf (l : List Nat) (b : Nat) : Nat := l.foldl min b

/-- The ceiling of edge n + 2 and the streak, from the ceiling of edge n + 1, the reports of tick n (PACE_MHZ, AVAIL_MHZ), whether every
member's came, and the lowest FUSED_MHZ (R395, R396). -/
def formCeiling (s : State) (c1 : Nat) (reps : List (Nat × Nat)) (all_ : Bool) (fused streak : Nat) : Nat × Nat :=
  let good := all_ && reps.all (fun r => r.1 == 0 && decide (c1 < r.2))
  let st := if good then streak + 1 else 0
  let paces := (reps.map (·.1)).filter (· != 0)
  if paces ≠ [] then (leastOf paces c1, st)
  else if getF s F.MEP_CFG2_RAISE_TICKS ≤ st then
    (leastOf (fused :: (c1 + getF s F.MEP_CFG2_RAISE_STEP_MHZ) :: reps.map (·.2)) (getF s F.MEP_CFG2_CEIL_MAX_MHZ), st)
  else (c1, st)

/-! ### The milestone record (R59, R415) -/

/-- Entries in ITEM_ID order. -/
def insertEntry (e : LogEntry) : List LogEntry → List LogEntry
  | [] => [e]
  | x :: xs => if e.id < x.id then e :: x :: xs else x :: insertEntry e xs
def sortEntries (l : List LogEntry) : List LogEntry := l.foldl (fun t e => insertEntry e t) []

/-- The 16 bytes of an entry. -/
def entryBytes (e : LogEntry) : Bytes :=
  leBytes 2 e.id ++ leBytes 1 e.outcome ++ leBytes 1 e.engine ++ leBytes 4 e.late ++ leBytes 2 e.queue ++ List.replicate 6 0

/-- The milestone record of a tick with the entries a reader is given (R59, R415). -/
def recordBytes (l : TickLog) (entries : List LogEntry) : Bytes :=
  let failed := l.misses != 0 || l.forceFail || !l.restart.isEmpty
  let st := (if failed then 1 else 0) + (if l.fallback then 2 else 0) + (if 32 < l.entries.length then 4 else 0) + (if l.mismatch then 8 else 0)
  leBytes 8 l.tick ++ leBytes 8 l.edge ++ leBytes 2 l.plan ++ leBytes 1 st ++ leBytes 1 (min l.misses 255) ++ leBytes 2 l.avail
    ++ leBytes 2 l.pace ++ leBytes 2 l.ceiling ++ leBytes 1 entries.length ++ leBytes 1 l.peak
    ++ leBytes 4 (wrapU 32 (clampI l.minSlack (-2147483648) 2147483647)) ++ (entries.map entryBytes).flatten

/-- The entries that a record carries: at most 32 (R59). -/
def recordEntries (l : TickLog) : List LogEntry := (sortEntries l.entries).take 32

/-- The record as function `g` gets it (R415): a VF only its own partition's entries. -/
def recordFor (l : TickLog) (g : Nat) : Bytes :=
  recordBytes l (if g = 0 then recordEntries l else (recordEntries l).filter (fun e => e.part == g - 1))

/-- The record is written to a function's milestone ring, and an event follows (R415). -/
def ringRecord (l : TickLog) (s : State) (g : Nat) : State :=
  match (getFn s g).milestone with
  | some (_, slots) =>
    let slot := l.tick % slots
    postEvent { s with hif := { s.hif with milestone := some (g, slot, recordFor l g) } } g (leBytes 8 l.tick ++ leBytes 2 slot ++ List.replicate 6 0) false
  | none => s

/-- A MEP message of this device (R389). -/
def mepMsg (s : State) (type tick : Nat) (payload : Bytes) : Bytes :=
  let st := getF s F.MEP_STAT_STATE
  leBytes 1 1 ++ leBytes 1 type ++ leBytes 1 (getF s F.MEP_CFG_DOMAIN) ++ leBytes 1 (getF s F.MEP_STAT_MEMBER) ++ leBytes 2 payload.length
    ++ leBytes 2 (if st = 2 ∨ st = 3 ∨ st = 5 then 1 else 0) ++ leBytes 8 s.fuse.uid ++ leBytes 8 tick ++ payload

/-- The state with the protocol's part replaced. -/
def setMep (s : State) (m : Mep) : State := { s with net := { s.net with mep := m } }

/-- What becomes of a record across the domain (R393 to R395): a member sends it as its REPORT, the master keeps it as one, and a
standalone device forms its own ceiling. -/
def shareRecord (s : State) (l : TickLog) : State :=
  let st := getF s F.MEP_STAT_STATE
  if getF s F.TICK_CTL_MODE = 0 then
    let r := formCeiling s s.tick.ceiling [(l.pace, l.avail)] true s.fuse.aclkMax s.net.mep.streak
    setMep { s with tick := { s.tick with nextCeil := some (l.tick + 2, r.1) } } { s.net.mep with streak := r.2 }
  else if st = 3 then
    setMep s { s.net.mep with reports := s.net.mep.reports ++ [(l.tick, getF s F.MEP_STAT_MEMBER, l.pace, l.avail)] }
  else if st = 2 ∨ st = 5 then setMep s { s.net.mep with out := mepMsg s 5 l.tick (recordBytes l (recordEntries l)) }
  else s

/-- The record of a tick is written (R57, R59): its commit bits are cleared first. -/
def writeRecord (s : State) (l : TickLog) : State :=
  let s := l.uncommit.foldl clearCommit s
  let s := { s with tick := { s.tick with record := recordBytes l (recordEntries l), recordTick := l.tick } }
  shareRecord ((List.range 9).foldl (ringRecord l) s) l

/-- MILESTONE_RECORD at time `t`: 2 µs after the edge that ends the tick; when edge generation has been stopped, 2 µs after the end of
its last tick (R40, R59). In safe state no record is written (R490). -/
def milestoneRecord (t : Nat) (s : State) : State :=
  let s := atComp t s
  match s.tick.closing with
  | some l =>
    if s.timeC < s.tick.edge + 2000 then s
    else
      let s := { s with tick := { s.tick with closing := none } }
      if s.flt.safe ∨ l.forceFail then s else writeRecord s l
  | none =>
    if s.tick.running = true ∧ isSet s F.TICK_CTL_ENABLE = false ∧ nextEdge s + 2000 ≤ s.timeC then
      let s := rollLog (sweep s) s.tick.num s.tick.edge
      let l := s.tick.closing.getD {}
      let s := { s with tick := { s.tick with closing := none, running := false, armed := [] } }
      if s.flt.safe ∨ l.forceFail then s else writeRecord s l
    else s

/-- MILESTONE_RECORD. -/
def execMilestoneRecord (t : Nat) (s : State) : Host.Outcome State Fault Refusal := .next (milestoneRecord t s)

/-! ### The tick unit's registers (R39, R40, R97) -/

/-- Edge generation is switched on: a standalone device starts again at tick 0, a standalone device and a master at CEIL_MAX_MHZ
(R39, R396); the protocol joins or forms the domain by MODE. -/
def tickOn (s : State) : State :=
  let mode := getF s F.TICK_CTL_MODE
  let s := { s with tick := { s.tick with announced := none, running := false,
                                          ceiling := if mode = 1 then s.tick.ceiling else getF s F.MEP_CFG2_CEIL_MAX_MHZ,
                                          nextCeil := none },
                    cwy := { s.cwy with ann := none } }
  if mode = 0 then setMep (setF s F.MEP_STAT_STATE 0) {}
  else if mode = 1 then (if getF s F.MEP_STAT_STATE = 0 ∨ getF s F.MEP_STAT_STATE = 3 then setMep (setF (setF s F.MEP_STAT_STATE 1) F.MEP_STAT_VERSION 0) {} else s)
  else
    let p := getF s F.TICK_CTL_PERIOD_US
    let o := (s.timeP / (1000 * p) + 1) * (1000 * p)
    let s := setF (setF (setF (setF s F.MEP_STAT_STATE 3) F.MEP_STAT_MEMBER 0) F.MEP_STAT_MEMBERS 1) F.MEP_STAT_VERSION 1
    setMep s { s.net.mep with origin := some (o : Nat), period := p, members := [], master := none, reports := [], streak := 0, yield_ := false,
                              sched := none }

/-- The write of TICK_CTL (R39, R40, R505). -/
def tickCtlWrite (m : Master) (v : Nat) (s : State) : State :=
  gated s false 16 0x10 m v (fun s =>
    let on := isSet s F.TICK_CTL_ENABLE
    let mode := bitsOf v 1 2
    let per := min (max (bitsOf v 8 18) 1000) 200000
    let bad := (mode == 3 && getF s F.TICK_CTL_MODE != 3) || (mode != 3 && ignoredChange s (!on) F.TICK_CTL_MODE mode)
      || ignoredChange s (!on) F.TICK_CTL_PLAN_SRC (bitsOf v 3 1) || ignoredChange s (!on) F.TICK_CTL_PERIOD_US per
    let s := if bad then cfgIgnored s false 16 0x10 m v else s
    let s := if mode = 3 then s else wrField s (!on) F.TICK_CTL_MODE mode
    let s := wrField (wrField s (!on) F.TICK_CTL_PLAN_SRC (bitsOf v 3 1)) (!on) F.TICK_CTL_PERIOD_US per
    let s := setF s F.TICK_CTL_ENABLE (bitsOf v 0 1)
    if bitOf v 0 ∧ !on then tickOn s else s)

/-- TICK_CTL_WRITE. -/
def execTickCtlWrite (m : Master) (v : BitVec 32) (s : State) : Host.Outcome State Fault Refusal := .next (tickCtlWrite m v.toNat s)

/-- The value of TICK_NUM_LO as read, which latches the high half (R40, R97). -/
def tickLoRead (s : State) : State × Nat := (setF s F.TICK_NUM_HI_COUNT (s.tick.num / 2 ^ 32), s.tick.num % 2 ^ 32)

/-- TICK_NUM_LO_READ. -/
def execTickNumLoRead (m : Master) (s : State) : Host.Outcome State Fault Refusal := .next (gatedRead s false 16 0x20 m tickLoRead)

/-- A utilisation counter of 64 bits: 0 ISSUED, 1 USEFUL, both in units of 1,024 MACs, 2 STALL (R97). -/
def utilCount (s : State) (k : Nat) : Nat :=
  (if k = 0 then s.arr.issued else if k = 1 then s.arr.useful / 1024 else s.arr.stall) % 2 ^ 64

/-- The low half of a utilisation counter as read, which latches its high half (R97). -/
def utilLoRead (k : Nat) (s : State) : State × Nat :=
  let v := utilCount s k
  let hi := if k = 0 then F.ARR_UTIL_ISSUED_HI_COUNT else if k = 1 then F.ARR_UTIL_USEFUL_HI_COUNT else F.ARR_UTIL_STALL_HI_COUNT
  (setF s hi (v / 2 ^ 32), v % 2 ^ 32)

/-- UTIL_LO_READ of counter `k`. -/
def execUtilLoRead (m : Master) (k : Fin 3) (s : State) : Host.Outcome State Fault Refusal :=
  .next (gatedRead s false 1 (0x80 + 8 * k.val) m (utilLoRead k.val))

end Sys2Proof.Machine
end

