-- ==== Sys2Proof/Machine/Switch.lean ====
section
/-! DEFINITION. The TSN switch (R377 to R379, R381): forwarding between its seven ports, learned addresses, traffic classes and their gates,
and the counters of filters, gates and meters. Port 6 is the internal one. -/

namespace Sys2Proof.Machine

/-! ### Shared -/

/-- Register block of the network on the port die (R510). -/
def netBlock : Nat := 2

/-- The network ingress engine as a master working for a partition (R509). -/
def netMaster (part : Nat) : Master := { code := 44, part := part }

/-- A network fault, advisory (R399). -/
def netRaise (s : State) (code : Nat) (part : Option Nat) : State := raise s true code 0 part netBlock 0xFFFF []

/-- The switch and sessions run: the domain is powered and NET_CTL.ENABLE is 1. -/
def netOn (s : State) : Bool := powered s domNet && isSet s F.NET_CTL_ENABLE

/-- A port passes frames: enabled, and its link is up (R378, R400). -/
def portUp (s : State) (p : Nat) : Bool :=
  netOn s && decide (p < 6) && bitOf (getF s F.NET_CTL_PORT_EN) p && isSet s (F.NET_PORT_CFG_LINK p)

/-- A big-endian value of `n` bytes at offset `o` of a frame. -/
def beAt (b : Bytes) (o n : Nat) : Nat := leVal ((b.drop o).take n).reverse

/-- The state with the network replaced. -/
def setNet (s : State) (n : Net) : State := { s with net := n }

/-- A port's count of dropped frames (R378). -/
def portDrop (s : State) (p : Nat) : State := setNet s { s.net with portDrops := s.net.portDrops.set p (nth s.net.portDrops p 0 + 1) }

/-! ### Addresses and VLANs (R379) -/

/-- The VLAN a frame is forwarded on; an untagged one takes the default VLAN 1 of IEEE 802.1Q (PRESUMED, log entry 229). -/
def vlanOf (vid : Nat) : Nat := if vid = 0 then 1 else vid

/-- The member ports of a VLAN: every port, unless listed otherwise, as no register or message configures them (DESIGN CHOICE, log entry 229). -/
def vlanPorts (s : State) (v : Nat) : Nat := tabGet s.net.vlans v 127

/-- A port takes frames from the switch: the internal one, or one that is enabled. -/
def switchPort (s : State) (p : Nat) : Bool := p == 6 || (decide (p < 6) && bitOf (getF s F.NET_CTL_PORT_EN) p)

/-- The learned addresses that have not aged: 300 s, the value of IEEE 802.1Q (PRESUMED, log entry 229). -/
def fdbLive (s : State) : List FdbEntry := s.net.fdb.filter (fun x => decide (s.timeP < x.seen + 300000000000))

/-- The switch learns a frame's source address, while the table of 16,384 has room (R379). -/
def fdbLearn (s : State) (port vid : Nat) (d : Bytes) : State :=
  let mac := leAt d 6 6
  let l := (fdbLive s).filter (fun x => !(x.vlan == vlanOf vid && x.mac == mac))
  if bitOf mac 0 ∨ 16384 ≤ l.length then setNet s { s.net with fdb := l }
  else setNet s { s.net with fdb := l ++ [{ vlan := vlanOf vid, mac := mac, port := port, seen := s.timeP }] }

/-- The destination is one of the addresses that a bridge does not forward, 01-80-C2-00-00-00 to -0F; the internal port alone gets such a
frame (PRESUMED, log entry 229). -/
def linkLocal (d : Bytes) : Bool := beAt d 0 5 == 0x0180C20000 && decide (beAt d 5 1 < 16)

/-- The ports that a frame goes to (R379): the one its destination was learned at, else every other port of its VLAN. -/
def switchTo (s : State) (port vid : Nat) (d : Bytes) : List Nat :=
  let all := (List.range 7).filter (fun p => p != port && bitOf (vlanPorts s (vlanOf vid)) p && switchPort s p)
  if linkLocal d then all.filter (· == 6)
  else if bitOf (leAt d 0 6) 0 then all
  else match (fdbLive s).find? (fun x => x.vlan == vlanOf vid && x.mac == leAt d 0 6) with
    | some x => all.filter (· == x.port)
    | none => all

/-! ### Queues and gates (R378, R379, R381) -/

/-- The traffic class of a frame: its PCP, and class 7 for the Milestone Exchange Protocol and 802.1AS. -/
def classOf (pcp : Nat) (d : Bytes) : Nat := if beAt d 12 2 = 0x88B5 ∨ beAt d 12 2 = 0x88F7 then 7 else pcp % 8

/-- A frame with a VLAN tag. -/
def withTag (vid pcp : Nat) (d : Bytes) : Bytes :=
  d.take 12 ++ (leBytes 2 0x8100).reverse ++ (leBytes 2 (pcp * 8192 + vid)).reverse ++ d.drop 12

/-- A frame is queued at a port, or dropped and counted there where the link is down or the frame too large (R378, R400): the state, and
whether it is queued. -/
def enqueue (cls : Nat) (f : Bytes) (q : State × List Nat) (p : Nat) : State × List Nat :=
  let s := q.1
  if portUp s p = false ∨ getF s (F.NET_PORT_CFG_MAX_FRAME p) < f.length + 4 then (portDrop s p, q.2)
  else (setNet s { s.net with egress := tabPut s.net.egress (8 * p + cls) (tabGet s.net.egress (8 * p + cls) [] ++ [f]) [] }, q.2 ++ [p])

/-- A frame is queued at the external ports of a list: the state, and the ports that took it. -/
def enqueueAll (s : State) (cls : Nat) (f : Bytes) (outs : List Nat) : State × List Nat :=
  (outs.filter (· != 6)).foldl (enqueue cls f) (s, [])

/-- The classes whose gates are open at a port: all without a list; the device's own lists keep class 7 open (R381). -/
def openGates (s : State) (p : Nat) : Nat :=
  let l := nth s.net.gcl p []
  if l = [] then 255
  else
    let m := (Config.gateMask l s.timeP).toNat
    if isSet s F.NET_CTL_GCL_SRC then m else Nat.lor m 128

/-- The frames of a class whose gate is open leave its queue. -/
def serveClass (p : Nat) (s : State) (c : Nat) : State :=
  if bitOf (openGates s p) c then
    setNet s { s.net with wire := s.net.wire ++ (tabGet s.net.egress (8 * p + c) []).map (fun f => (p, f)),
                          egress := tabPut s.net.egress (8 * p + c) [] [] }
  else s

/-- A port whose link is up sends its classes by strict priority, class 7 first (R379). -/
def servePort (s : State) (p : Nat) : State := if portUp s p then [7, 6, 5, 4, 3, 2, 1, 0].foldl (serveClass p) s else s

/-- The external ports send what their gates let out. -/
def netServe (s : State) : State := (List.range 6).foldl servePort (setNet s { s.net with wire := [] })

/-- The frames queued for a port whose link goes down are dropped and counted (R378). -/
def flushPort (s : State) (p : Nat) : State :=
  let n := ((List.range 8).map (fun c => (tabGet s.net.egress (8 * p + c) []).length)).sum
  setNet s { s.net with egress := tabDrop s.net.egress (8 * p) 8, portDrops := s.net.portDrops.set p (nth s.net.portDrops p 0 + n) }

/-! ### Filters, gates and meters (R379) -/

/-- The number of an object among the counters: 1,024 stream filters, 256 stream gates, 512 flow meters. -/
def qciIdx : Qci → Nat
  | .filter n => n.val
  | .gate n => 1024 + n.val
  | .meter n => 1280 + n.val

/-- A frame that an object drops is counted in its counter and raises no fault (R379). -/
def qciDrop (s : State) (x : Qci) : State :=
  setNet s { s.net with qciDrops := tabPut s.net.qciDrops (qciIdx x) (tabGet s.net.qciDrops (qciIdx x) 0 + 1) 0 }

end Sys2Proof.Machine
end

