-- ==== Sys2Proof/Machine/Network.lean ====
section
/-! DEFINITION. The network (R377 to R400): links, partner sessions, GigE Vision streams, device time, tick announcements, the
Milestone Exchange Protocol and step barriers. -/

namespace Sys2Proof.Machine

/-! ### Links (R378) -/

/-- A link is lost or gained. -/
def linkChange (p : Nat) (up : Bool) (s : State) : State :=
  if 6 ≤ p ∨ powered s domNet = false ∨ isSet s (F.NET_PORT_CFG_LINK p) = up then s
  else if up then setF s (F.NET_PORT_CFG_LINK p) 1
  else netRaise (flushPort (setF s (F.NET_PORT_CFG_LINK p) 0) p) 0x0210 none

/-- LINK_CHANGE of port `p`. -/
def execLinkChange (p : Nat) (up : Bool) (s : State) : Host.Outcome State Fault Refusal := .next (linkChange p up s)

/-! ### Session records (R382) -/

/-- Session record `k`. -/
def sesRec (s : State) (k : Nat) : Bytes := memRead s.net.mem (32 * k) 32
def sOn (r : Bytes) : Bool := bitOf (leAt r 0 1) 0
def sKind (r : Bytes) : Nat := bitsOf (leAt r 0 1) 1 2
def sHold (r : Bytes) : Bool := bitOf (leAt r 0 1) 3
def sPart (r : Bytes) : Nat := bitsOf (leAt r 0 1) 4 3
def sVid (r : Bytes) : Nat := leAt r 2 2 % 4096
def sPcp (r : Bytes) : Nat := bitsOf (leAt r 2 2) 12 3
def sTagged (r : Bytes) : Bool := bitOf (leAt r 2 2) 15
def sRxq (r : Bytes) : Nat := leAt r 16 2
def sTxq (r : Bytes) : Nat := leAt r 18 2
def sHoldNs (r : Bytes) : Nat := 1000 * leAt r 20 2
def sCtx (r : Bytes) : Nat := leAt r 22 1
/-- Receive slots. -/
def sSlots (r : Bytes) : Nat := 2 ^ min (leAt r 23 1) 8
def sRing (r : Bytes) : Nat := leAt r 24 6

/-- A session at work. -/
def getSes (s : State) (k : Nat) : NetSess := tabGet s.net.sess k {}
/-- The state with a session replaced. -/
def setSes (s : State) (k : Nat) (x : NetSess) : State := setNet s { s.net with sess := tabPut s.net.sess k x {} }

/-- The frame is UDP over IPv4 to local port `key` (R382). -/
def udpTo (d : Bytes) (key : Nat) : Bool :=
  beAt d 12 2 == 0x0800 && leAt d 23 1 == 17 && beAt d (14 + 4 * (leAt d 14 1 % 16) + 2) 2 == key

/-- A received frame matches every field of a session (R382). -/
def sesMatch (r : Bytes) (port vid : Nat) (d : Bytes) : Bool :=
  sOn r && bitOf (leAt r 1 1) port && sVid r == vid
    && (leAt r 4 6 == 0 || leAt r 4 6 == leAt d 6 6)
    && (match sKind r with
      | 0 => beAt d 12 2 == leAt r 10 2
      | 3 => false
      | _ => udpTo d (leAt r 10 2) && (leAt r 12 4 == 0 || leAt r 12 4 == beAt d 26 4))

/-- The lowest-numbered session that a frame matches. -/
def sesOf (s : State) (port vid : Nat) (d : Bytes) : Option Nat :=
  (List.range 2048).find? (fun k => sesMatch (sesRec s k) port vid d)

/-! ### Receive (R382 to R384) -/

/-- A write by the network ingress engine, in pieces of 512 bytes; in Map Store the last row is filled with zeros (R131). -/
def netWrite (s : State) (m : Master) : Nat → Nat → Bytes → State
  | 0, _, _ => s
  | k + 1, a, b =>
    if b.isEmpty then s
    else
      let c := b.take 512
      let c := if region a = .mapStore then c ++ List.replicate (512 - c.length) 0 else c
      netWrite (busWrite s m .system a c).1 m k (a + 512) (b.drop 512)

/-- A read by the network ingress engine, row by row; nothing when a piece is refused or poisoned (R152). -/
def netRead (s : State) (m : Master) : Nat → Nat → Nat → State × Option Bytes
  | 0, _, _ => (s, some [])
  | k + 1, a, n =>
    if n = 0 then (s, some [])
    else
      let l := min n (512 - a % 512)
      let r := busRead s m .system a l
      if r.ok ∧ r.poison = false then
        let t := netRead r.s m k (a + l) (n - l)
        (t.1, t.2.map (fun x => r.data ++ x))
      else (r.s, none)

/-- A receive entry (R383). -/
def rxEntry (k len port slot time : Nat) : Bytes :=
  leBytes 2 k ++ leBytes 2 len ++ leBytes 1 port ++ leBytes 1 0 ++ leBytes 2 slot ++ leBytes 8 time

/-- Where a staging buffer stands. -/
def stageAddr (i : Nat) : Nat := tileAddr 23 + 9216 * i

/-- The next staging buffer in which no frame waits. -/
def stageNext (s : State) : Option Nat :=
  ((List.range stageCount).map (fun i => (s.net.stage + i) % stageCount)).find? (fun i => s.net.staged.all (fun x => x.buf != i))

/-- The ingress engine stages a packet in the next staging buffer, which is cleared first where its last packet was of another partition's
session (R31, R387). -/
def stagePacket (s : State) (part : Nat) (d : Bytes) : State :=
  let i := (stageNext s).getD s.net.stage
  let p := tabGet s.net.stagePart i none
  let s := if p.all (· == part) then s else clearRows s (stageAddr i) 9216
  setNet (memPut s (stageAddr i) (d.take 9216))
    { s.net with stage := (i + 1) % stageCount, stagePart := tabPut s.net.stagePart i (some part) none }

/-- A frame is written into its slot, and RXQ gets its entry (R383). -/
def rxStore (s : State) (k port slot : Nat) (d : Bytes) (rx : Nat) : State :=
  let r := sesRec s k
  (postData (netWrite s (netMaster (sPart r)) 19 (sRing r + 9216 * slot) d) (sRxq r) (rxEntry k d.length port slot rx) 44 (sPart r)).1

/-- Frames that waited in staging buffers go on, in order, where their rings can be written again (R352). -/
def runStaged (s : State) : State :=
  s.net.staged.foldl (fun s x =>
    if dramWaits s 11 (sRing (sesRec s x.sess) + 9216 * x.slot) ∨ s.net.staged.any (fun y => y.sess == x.sess) then
      setNet s { s.net with staged := s.net.staged ++ [x] }
    else rxStore s x.sess x.port x.slot (memRead s.mem (stageAddr x.buf) x.len) x.rx) (setNet s { s.net with staged := [] })

/-- A frame enters the causeway: it is staged and takes the session's next slot, into which it is written (R383); a frame for a ring in DRAM
may wait where it is staged (R352). -/
def rxTake (s : State) (k port : Nat) (d : Bytes) (rx : Nat) : State :=
  let r := sesRec s k
  let x := getSes s k
  let buf := (stageNext s).getD s.net.stage
  let s := setSes (stagePacket s (sPart r) d) k { x with next := (x.next + 1) % sSlots r, used := x.used + 1 }
  if dramWaits s 11 (sRing r + 9216 * x.next) ∨ s.net.staged.any (fun y => y.sess == k) then
    setNet s { s.net with staged := s.net.staged ++ [{ sess := k, port := port, len := min 9216 d.length, slot := x.next, rx := rx, buf := buf }] }
  else rxStore s k port x.next d rx

/-- A frame of a session is dropped (R384). -/
def sesDrop (s : State) (k : Nat) : State :=
  let x := getSes s k
  let due := x.dropAt.all (fun t => decide (t + 1000000000 ≤ s.timeP))
  let s := setSes s k { x with drops := x.drops + 1, dropAt := if due then some s.timeP else x.dropAt }
  if due then netRaise s 0x0211 (some (sPart (sesRec s k))) else s

/-- A slot is free for a session, a staging buffer is free, and the causeway carries frames. -/
def slotFree (s : State) (k : Nat) : Bool := decide ((getSes s k).used < sSlots (sesRec s k)) && cwyUp s && (stageNext s).isSome

/-- Bytes in the port die's frame buffer. -/
def heldBytes (s : State) : Nat := s.net.held.foldl (fun n h => n + h.data.length) 0

/-- Held frames of a session enter while slots are free, in arrival order (R384). -/
def admitHeld (k : Nat) : Nat → State → State
  | 0, s => s
  | n + 1, s =>
    match s.net.held.find? (fun h => h.sess == k) with
    | some h =>
      if slotFree s k then
        admitHeld k n (rxTake (setNet s { s.net with held := s.net.held.erase h }) k h.port h.data h.rx)
      else s
    | none => s

/-- Frames that wait for the causeway's far end go on: those in staging, then those held on the port die (R352, R384). -/
def resumeNet (s : State) : State :=
  s.net.held.foldl (fun s h => admitHeld h.sess 256 s) (runStaged s)

/-- The session's policy (R384). -/
def rxPolicy (s : State) (k port : Nat) (d : Bytes) (rx : Nat) : State :=
  if slotFree s k ∧ s.net.held.all (fun h => h.sess != k) then rxTake s k port d rx
  else if sHold (sesRec s k) ∧ heldBytes s + d.length ≤ 2097152 then
    setNet s { s.net with held := s.net.held ++ [{ sess := k, port := port, data := d, rx := rx, since := s.timeP }] }
  else sesDrop s k

/-- The queue of a session that does not belong to its partition (R382). -/
def sesForeign (s : State) (r : Bytes) : Option Nat :=
  if (getQ s (sRxq r)).part ≠ sPart r then some (sRxq r)
  else if sTxq r ≠ 0xFFFF ∧ (getQ s (sTxq r)).part ≠ sPart r then some (sTxq r)
  else none

/-- A frame reaches the internal port: it goes to its session, or is counted as unmatched (R382). Frames of GigE Vision sessions go to the
commands of their own. -/
def sessionTake (s : State) (port vid : Nat) (d : Bytes) (t : Nat) : State :=
  match sesOf s port vid d with
  | none => bump s F.NET_STAT_UNMATCHED 1
  | some k =>
    let r := sesRec s k
    match sesForeign s r with
    | some q => qOverflow s q 44 (sPart r) 3
    | none => if sKind r = 2 then s else rxPolicy s k port d t

/-- A received frame passes through the switch: its source is learned, and it goes to each port that its destination names (R379). -/
def switchFrame (s : State) (port vid pcp : Nat) (d : Bytes) (t : Nat) : State :=
  let s := fdbLearn s port vid d
  let outs := switchTo s port vid d
  let s := (enqueueAll s (classOf pcp d) (if vid = 0 then d else withTag vid pcp d) outs).1
  netServe (if outs.contains 6 then sessionTake (resumeNet s) port vid d t else s)

/-- An IEEE 802.3x pause frame, which is ignored (R377). -/
def pauseFrame (d : Bytes) : Bool := linkLocal d && beAt d 12 2 == 0x8808

/-- A frame is received at `port` at time `t` on VLAN `vid` (0: untagged) with priority `pcp`; `d` runs from the destination address to the
end of the payload, without its tag. `qci`: the filter, gate or meter that drops it. -/
def frameReceive (port vid pcp : Nat) (d : Bytes) (qci : Option Qci) (t : Nat) (s : State) : State :=
  let s := atPort t s
  if portUp s port = false then s
  else if pauseFrame d then s
  else if vid = 4095 ∨ getF s (F.NET_PORT_CFG_MAX_FRAME port) < d.length + 4 + (if vid = 0 then 0 else 4) then portDrop s port
  else match qci with
    | some x => qciDrop s x
    | none => switchFrame s port vid pcp d t

/-- NET_FRAME_RECEIVE. -/
def execNetFrameReceive (port : Nat) (tag : FrameTag) (d : Bytes) (t : Nat) (s : State) : Host.Outcome State Fault Refusal :=
  .next (frameReceive port tag.vid tag.pcp.val d tag.qci t s)

/-- NET_HOLD_EXPIRY at time `t`: held frames past their HOLD_US are dropped (R384). -/
def holdExpiry (t : Nat) (s : State) : State :=
  let s := atPort t s
  let old := fun (h : NetHeld) => decide (h.since + sHoldNs (sesRec s h.sess) ≤ s.timeP)
  (s.net.held.filter old).foldl (fun s h => sesDrop s h.sess) (setNet s { s.net with held := s.net.held.filter (fun h => !old h) })

/-- NET_HOLD_EXPIRY. -/
def execNetHoldExpiry (t : Nat) (s : State) : Host.Outcome State Fault Refusal := .next (holdExpiry t s)

/-- NET_RXREL is written (R384, R400). -/
def rxrelWrite (m : Master) (v : Nat) (s : State) : State :=
  gated s true netBlock 0x50 m v (fun s =>
    let k := bitsOf v 0 11
    let x := getSes s k
    admitHeld k 256 (setSes s k { x with used := x.used - min x.used (bitsOf v 11 9) }))

/-- NET_RXREL_WRITE. -/
def execNetRxrelWrite (m : Master) (v : BitVec 32) (s : State) : Host.Outcome State Fault Refusal := .next (rxrelWrite m v.toNat s)

/-! ### Transmit (R385) -/

/-- The frame as its ports get it, before its FCS: with the VLAN tag of a TAGGED session. -/
def txFrame (r d : Bytes) : Bytes := if sTagged r then withTag (sVid r) (sPcp r) d else d

/-- A session's frame enters the switch at its internal port (R379, R385): it has status 0 once it is queued at a port, and status 1 where
it is dropped. -/
def txSwitch (s : State) (r d : Bytes) (qci : Option Qci) : State :=
  match qci with
  | some x => let s := qciDrop s x; setNet s { s.net with lastTx := some ([], txFrame r d, 1) }
  | none =>
    let s := fdbLearn s 6 (sVid r) d
    let q := enqueueAll s (classOf (sPcp r) d) (txFrame r d) (switchTo s 6 (sVid r) d)
    netServe (setNet q.1 { q.1.net with lastTx := some (q.2, txFrame r d, if q.2 = [] then 1 else 0) })

/-- A transmit entry of a session is performed (R385). -/
def txFrameOut (s : State) (q : Nat) (e : Bytes) (qci : Option Qci) : State :=
  let k := leAt e 10 2
  let r := sesRec s k
  if 2048 ≤ k ∨ sOn r = false ∨ sTxq r ≠ q then s
  else match sesForeign s r with
    | some f => qOverflow s f 44 (sPart r) 3
    | none =>
      let g := netRead s (netMaster (sPart r)) 129 (leAt e 0 8 % 2 ^ 48) (leAt e 8 2)
      match g.2 with
      | none => g.1
      | some d =>
        let s := txSwitch g.1 r d qci
        if leAt e 12 2 = 0xFFFF then s
        else
          let f := Config.doneEntry s.free
          (postData (drawn s) (leAt e 12 2) (rxEntry k (leAt e 8 2) f.1 0xFFFF f.2) 44 (sPart r)).1

/-- NET_TX_ENTRY at time `t`: the ingress engine takes the entry at the head of a queue it consumes, and the switch forwards its frame. -/
def txEntry (q : Nat) (qci : Option Qci) (t : Nat) (s : State) : State :=
  let s := atPort t s
  if netOn s = false ∨ cwyUp s = false ∨ qBound (getQ s q) = false ∨ (getQ s q).consumer ≠ 22 then s
  else match headQ s q with
    | none => s
    | some e =>
      if e.cairn then popQ s q
      else if dramWaits s 11 (leAt e.data 0 8 % 2 ^ 48) then s
      else txFrameOut (popQ s q) q e.data qci

/-- NET_TX_ENTRY. -/
def execNetTxEntry (q : Nat) (qci : Option Qci) (t : Nat) (s : State) : Host.Outcome State Fault Refusal := .next (txEntry q qci t s)

/-! ### GigE Vision streams (R386, R387) -/

/-- The block a session receives. -/
def getBlk (s : State) (k : Nat) : Option GvspBlk := tabGet s.net.gvsp k none
/-- The state with a session's block replaced. -/
def setBlk (s : State) (k : Nat) (b : Option GvspBlk) : State := setNet s { s.net with gvsp := tabPut s.net.gvsp k b none }

/-- Session `k` receives a GVSP stream into an enabled fed context. -/
def gvspOn (s : State) (k : Nat) : Bool :=
  let r := sesRec s k
  netOn s && cwyUp s && decide (k < 2048) && sOn r && sKind r == 2 && decide (16 ≤ sCtx r) && decide (sCtx r < 32) && ispOn s (sCtx r)
    && iSrc (getI s (sCtx r)).record

/-- A frame of session `k`'s stream is taken: dropped where a queue of the session is not its partition's (R382). -/
def gvspTake (s : State) (k : Nat) (f : State → State) : State :=
  if gvspOn s k = false then s
  else match sesForeign s (sesRec s k) with
    | some q => qOverflow s q 44 (sPart (sesRec s k)) 3
    | none => f s

/-- The descriptor of a fed context's planes. -/
def srcDesc (s : State) (c : Nat) (m : Master) : State × TDesc :=
  let a := iSrcDesc (getI s c).record
  let q := netRead s m 2 a 64
  (q.1, { addr := a, raw := q.2.getD (List.replicate 64 0) })

/-- The frame status word of a network-fed frame (R297, R387): the intake-only fields are zero. -/
def gvspWord (c : Nat) (b : GvspBlk) (fe : Nat) : Bytes :=
  leBytes 4 b.frame ++ leBytes 2 b.block ++ leBytes 1 c ++ leBytes 1 0 ++ leBytes 2 (if b.reason = 0 then 0 else 1) ++ leBytes 2 0
    ++ leBytes 2 0xFFFF ++ leBytes 1 0 ++ leBytes 1 b.reason ++ leBytes 8 b.fsTime ++ leBytes 8 fe ++ List.replicate 32 0

/-- A block ends: its status word is written, and the frame is fed, or the block is reported incomplete (R387). -/
def gvspEnd (s : State) (k : Nat) (b : GvspBlk) : State :=
  let r := sesRec s k
  let c := sCtx r
  let m := netMaster (sPart r)
  let q := srcDesc s c m
  let w := gvspWord c b s.timeP
  let s := netWrite q.1 m 1 (iFeed (getI s c).record + 64 * (b.frame % q.2.dim 3)) w
  let s := setBlk s k none
  if b.reason ≠ 0 then raise s false 0x0212 0 (some (sPart r)) (Config.sourceBlock 0x0212) 0xFFFF []
  else frameArrive s { ctx := c, frame := b.frame, dt := 0, part := sPart r, fed := true, linesIn := iHeight (getI s c).record,
                       fsTime := b.fsTime, word := some w }

/-- The plane of a fed frame is still in use: a frame that has it is not done with (R387). -/
def planeBusy (s : State) (c n d3 : Nat) : Bool :=
  s.isp.frames.any (fun f => f.ctx == c && !f.dead && f.frame % d3 == n % d3)

/-- GVSP_LEADER of block `block` at time `t`: an open block ends with a packet missing, and the new one begins. -/
def gvspLeader (k block w h depth t : Nat) (s : State) : State :=
  gvspTake (atPort t s) k (fun s =>
    let s := match getBlk s k with
      | some b => gvspEnd s k { b with reason := if b.reason = 0 then 5 else b.reason }
      | none => s
    let c := sCtx (sesRec s k)
    let x := getI s c
    let n := (x.lastFed + 1) % 2 ^ 32
    let q := srcDesc s c (netMaster (sPart (sesRec s k)))
    let why := if planeBusy s c n (q.2.dim 3) then 1
      else if iWidth x.record ≠ w ∨ iHeight x.record ≠ h ∨ iDepth x.record ≠ depth then 6 else 0
    let s := setI q.1 c { x with lastFed := n }
    match (if why = 0 then q.2.bad true false else none) with
    | some r => raise (setBlk s k none) false 0x0140 2 (some (sPart (sesRec s k))) (Config.sourceBlock 0x0140) 0xFFFF [r, q.2.addr]
    | none => setBlk s k (some { block := block, frame := n, fsTime := s.timeP, reason := why }))

/-- GVSP_LEADER. -/
def execGvspLeader (k block w h depth t : Nat) (s : State) : Host.Outcome State Fault Refusal :=
  .next (gvspLeader k block w h depth t s)

/-- The pixels of a payload: bytes, or right-aligned 16-bit values (R318, R386). -/
def gvspPixels (depth : Nat) (d : Bytes) : List Nat :=
  if depth = 8 then d.map BitVec.toNat else (List.range (d.length / 2)).map (fun i => leAt d (2 * i) 2)

/-- The elements of a plane that pixels `from_` on of a block make, with the earlier ones of the line that they begin in (R230). -/
def planeEls (d : TDesc) (plane : Nat) (pix : List Nat) (from_ : Nat) : Tab Nat :=
  let size := d.dim 0 * d.dim 1 * d.dim 2
  let at_ := fun (i : Nat) => d.nibOff (i % d.dim 0, i / d.dim 0 % d.dim 1, i / (d.dim 0 * d.dim 1), plane)
  ((pix.take size).zipIdx.map (fun x => (at_ x.2, x.1))).filter (fun x => decide (at_ from_ / 1024 ≤ x.1 / 1024))

/-- GVSP_PAYLOAD: packet `pkt` of the block; its pixels go to plane FRAME mod D3. A write to DRAM may have to wait (R352). -/
def gvspPayload (k block pkt : Nat) (d : Bytes) (s : State) : State :=
  gvspTake s k (fun s => match getBlk s k with
    | none => s
    | some b =>
      if b.block ≠ block then s
      else if b.reason ≠ 0 then s
      else if pkt ≠ b.next then setBlk s k (some { b with reason := 5 })
      else
        let r := sesRec s k
        let m := netMaster (sPart r)
        let q := srcDesc (stagePacket s (sPart r) d) (sCtx r) m
        if dramWaits s 11 q.2.base then s else
        let pix := b.pix ++ gvspPixels (iDepth (getI s (sCtx r)).record) d
        let s := tensWrite q.1 m .system q.2 (planeEls q.2 (b.frame % q.2.dim 3) pix b.pix.length)
        setBlk s k (some { b with next := b.next + 1, pix := pix }))

/-- GVSP_PAYLOAD. -/
def execGvspPayload (k block pkt : Nat) (d : Bytes) (s : State) : Host.Outcome State Fault Refusal :=
  .next (gvspPayload k block pkt d s)

/-- GVSP_TRAILER of the block at time `t`, with packet number `pkt`. -/
def gvspTrailer (k block pkt t : Nat) (s : State) : State :=
  gvspTake (atPort t s) k (fun s => match getBlk s k with
    | none => s
    | some b =>
      if b.block ≠ block then s
      else gvspEnd s k { b with reason := if b.reason = 0 ∧ pkt ≠ b.next then 5 else b.reason })

/-- GVSP_TRAILER. -/
def execGvspTrailer (k block pkt t : Nat) (s : State) : Host.Outcome State Fault Refusal := .next (gvspTrailer k block pkt t s)

/-! ### Device time and gates (R380, R381) -/

/-- A tick domain is formed on this device (R380, R388). -/
def domainFormed (s : State) : Bool := let st := getF s F.MEP_STAT_STATE; st == 2 || st == 3 || st == 5

/-- GPTP_SYNC at time `t`: the grandmaster's time is ahead by `offset` ns. Time steps, or slews at no more than 100 ppm, after
holdover until it has reached the grandmaster's and while a domain is formed (R380). -/
def gptpSync (offset : Int) (t : Nat) (s : State) : State :=
  let s := atPort t s
  if netOn s = false then s
  else
    let lim : Int := (((s.timeP - s.net.syncAt.getD s.timeP) / 10000 : Nat) : Int)
    let slow := s.net.holdover || s.net.slew
    let d := if slow || domainFormed s then clampI offset (-lim) lim else offset
    let s := { s with timeP := (s.timeP + d).toNat }
    setNet s { s.net with syncAt := some s.timeP, holdover := false, slew := slow && d != offset }

/-- GPTP_SYNC. -/
def execGptpSync (offset : Int) (t : Nat) (s : State) : Host.Outcome State Fault Refusal := .next (gptpSync offset t s)

/-- SYNC_TIMEOUT: holdover (R380). -/
def syncTimeout (s : State) : State :=
  if netOn s ∧ s.net.syncAt.isSome ∧ s.net.holdover = false then netRaise (setNet s { s.net with holdover := true }) 0x0213 none else s

/-- SYNC_TIMEOUT. -/
def execSyncTimeout (s : State) : Host.Outcome State Fault Refusal := .next (syncTimeout s)

/-- GCL_CYCLE_START of a port: a new gate control list takes effect, the host's, or with GCL_SRC 0 the firmware's `own` (R381). -/
def gclStart (port : Nat) (own : Bytes) (s : State) : State :=
  if netOn s = false ∨ 6 ≤ port then s
  else if isSet s F.NET_CTL_GCL_SRC then
    match nth s.net.gclNext port none with
    | some l => netServe (setNet s { s.net with gcl := s.net.gcl.set port l, gclNext := s.net.gclNext.set port none })
    | none => s
  else netServe (setNet s { s.net with gcl := s.net.gcl.set port own })

/-- GCL_CYCLE_START. -/
def execGclCycleStart (port : Nat) (own : Bytes) (s : State) : Host.Outcome State Fault Refusal := .next (gclStart port own s)

/-! ### Tick announcements (R21, R38, R39, R306) -/

/-- Time of edge `k` of the domain (R388). -/
def domainEdge (s : State) (k : Nat) : Nat := (s.net.mep.origin.getD 0 + ((k * s.net.mep.period * 1000 : Nat) : Int)).toNat

/-- The first edge of the domain that can still be announced at the port die's time. -/
def firstEdge (s : State) : Nat :=
  let per := s.net.mep.period * 1000
  let from_ : Int := (s.timeP : Int) + 10000 - s.net.mep.origin.getD 0
  if from_ ≤ 0 then 0 else (from_.toNat + per - 1) / per

/-- The edge to announce, as time and number: a standalone device starts with tick 0 at `first`; the master's follow ORIGIN; a member's are
those of its schedule (R39, R388, R393). -/
def nextAnnounce (s : State) (first : Nat) : Option (Nat × Nat) :=
  if getF s F.TICK_CTL_MODE = 0 then
    match s.cwy.ann with
    | none => some (first, 0)
    | some a => some (a.edge + 1000 * periodUs s, a.tick + 1)
  else if getF s F.MEP_STAT_STATE = 3 then
    let k := match s.cwy.ann with
      | none => firstEdge s
      | some a => a.tick + 1
    some (domainEdge s k, k)
  else match s.net.mep.sched with
    | none => none
    | some x => if s.cwy.ann.all (fun a => decide (a.tick < x.1)) then some (x.2.1, x.1) else none

/-- Tick pulses of the trigger outputs at an announced edge (R306). -/
def tickTriggers (s : State) (edge n : Nat) : State :=
  let f := fun (k : Nat) =>
    let t := nth s.cam.trig k {}
    if isSet s (F.TRG_CFG_EN k) ∧ getF s (F.TRG_CFG_MODE k) = 1 ∧ n % getF s (F.TRG_CFG_EVERY k) = getF s (F.TRG_OFF_PHASE k) then
      { t with sched := t.sched ++ [edge + 8 * getF s (F.TRG_OFF_OFFSET k)] } else t
  { s with cam := { s.cam with trig := (List.range 16).map f } }

/-- TICK_ANNOUNCE_SEND at time `t`: at least 10 µs before its edge the port die sends the edge's announcement pair (R21, R38). `first` is the
time that a standalone device sets its first edge for. -/
def announceSend (t first : Nat) (s : State) : State :=
  let s := atPort t s
  if cwyUp s = false ∨ isSet s F.TICK_CTL_ENABLE = false ∨ mepRefused s ∨ s.cwy.ann.any (fun a => decide (s.timeP < a.edge)) then s
  else match nextAnnounce s first with
    | none => s
    | some (e, n) =>
      if e < s.timeP + 10000 then s
      else tickTriggers { s with cwy := { s.cwy with ann := some { edge := e, tick := n } } } e n

/-- TICK_ANNOUNCE_SEND. -/
def execTickAnnounceSend (t first : Nat) (s : State) : Host.Outcome State Fault Refusal := .next (announceSend t first s)

/-! ### The Milestone Exchange Protocol (R388 to R397) -/

/-- The device's priority (R392): 255 for a configured master. -/
def ownPrio (s : State) : Nat := if getF s F.TICK_CTL_MODE = 2 then 255 else getF s F.MEP_CFG_PRIO

/-- A device, as priority and SENDER, is better than another (R392). -/
def better (a b : Nat × Nat) : Bool := decide (b.1 < a.1) || (a.1 == b.1 && decide (a.2 < b.2))

/-- The protocol takes part on this device. -/
def mepActive (s : State) : Bool := netOn s && getF s F.MEP_STAT_STATE != 0

/-- Fields of a message. -/
def mType (b : Bytes) : Nat := leAt b 1 1
def mMember (b : Bytes) : Option Nat := if bitOf (leAt b 6 2) 0 then some (leAt b 3 1) else none
def mSender (b : Bytes) : Nat := leAt b 8 8
def mTick (b : Bytes) : Nat := leAt b 16 8
def mBody (b : Bytes) : Bytes := (b.drop 24).take (leAt b 4 2)

/-- A message of a type is taken: a good FCS, the device's domain, and the version the device uses (R389, R390). -/
def mepTakes (s : State) (b : Bytes) (fcs : Bool) (type : Nat) : Bool :=
  mepActive s && fcs && leAt b 2 1 == getF s F.MEP_CFG_DOMAIN && mType b == type && (type == 1 || type == 3 || leAt b 0 1 == 1)

/-- The device sends a message. -/
def mepSend (s : State) (type tick : Nat) (body : Bytes) : State := setMep s { s.net.mep with out := mepMsg s type tick body }

/-- HELLO's payload (R389). -/
def helloBody (s : State) : Bytes :=
  let role := if getF s F.TICK_CTL_MODE = 2 then 2 else if getF s F.MEP_CFG_PRIO = 0 then 0 else 1
  [1, 1] ++ leBytes 1 (ownPrio s) ++ leBytes 1 role ++ leBytes 2 s.fuse.aclkMax ++ leBytes 2 0

/-- MEP_HELLO_TIMER at time `t` (R389). -/
def helloTimer (t : Nat) (s : State) : State :=
  let s := atPort t s
  if mepActive s ∧ s.net.mep.helloAt.all (fun x => decide (x + 100000000 ≤ s.timeP)) then
    setMep s { s.net.mep with helloAt := some s.timeP, out := mepMsg s 1 s.tick.num (helloBody s) }
  else s

/-- MEP_HELLO_TIMER. -/
def execMepHelloTimer (t : Nat) (s : State) : Host.Outcome State Fault Refusal := .next (helloTimer t s)

/-- MEMBERS follows the master's list. -/
def countMembers (s : State) : State := setF s F.MEP_STAT_MEMBERS (s.net.mep.members.length + 1)

/-- The index a master gives a device: the one it has already where that is free, else the lowest free one (R391). -/
def freeIndex (s : State) (want : Option Nat) : Option Nat :=
  let free := (List.range 256).filter (fun i => i != getF s F.MEP_STAT_MEMBER && s.net.mep.members.all (fun x => x.idx != i))
  match want with
  | some w => if free.contains w then some w else free.head?
  | none => free.head?

/-- The master answers a HELLO (R390, R391, R396); a configured master better than itself it will join, and does not admit (R392). -/
def masterHello (s : State) (b : Bytes) : State :=
  let d := mBody b
  let id := mSender b
  let mep := s.net.mep
  match mep.members.find? (fun x => x.id == id) with
  | some x =>
    let s := setMep s { mep with members := mep.members.map (fun y => if y.id = id then { y with fused := leAt d 4 2 } else y) }
    if (mMember b).isSome then s else mepSend s 2 (mTick b) (leBytes 1 x.idx ++ [1])
  | none =>
    if leAt d 3 1 = 2 ∧ better (255, id) (ownPrio s, s.fuse.uid) then s
    else if !(decide (leAt d 0 1 ≤ 1) && decide (1 ≤ leAt d 1 1)) then mepSend s 3 (mTick b) [1]
    else match freeIndex s (mMember b) with
      | some i =>
        if 255 ≤ mep.members.length then mepSend s 3 (mTick b) [2]
        else mepSend (countMembers (setMep s { mep with members := mep.members ++ [{ idx := i, id := id, fused := leAt d 4 2 }] })) 2 (mTick b)
          (leBytes 1 i ++ [1])
      | none => mepSend s 3 (mTick b) [2]

/-- MEP_HELLO at time `t`. -/
def mepHello (b : Bytes) (fcs : Bool) (t : Nat) (s : State) : State :=
  let s := atPort t s
  if mepTakes s b fcs 1 = false ∨ mSender b = s.fuse.uid then s
  else
    let p := if leAt (mBody b) 3 1 = 2 then 255 else leAt (mBody b) 2 1
    let s := setMep s { s.net.mep with hellos := s.net.mep.hellos.filter (fun x => x.1 != mSender b) ++ [(mSender b, p, s.timeP)] }
    if getF s F.MEP_STAT_STATE = 3 then masterHello s b else s

/-- MEP_HELLO. -/
def execMepHello (b : Bytes) (fcs : Bool) (t : Nat) (s : State) : Host.Outcome State Fault Refusal := .next (mepHello b fcs t s)

/-- MEP_ADMIT: a joining or refused device takes its index and version (R391). A member that its master had removed is admitted again, and
takes the index it now has (R394; log entry 238). -/
def mepAdmit (b : Bytes) (fcs : Bool) (s : State) : State :=
  let st := getF s F.MEP_STAT_STATE
  if ¬ (mepTakes s b fcs 2 ∧ leAt (mBody b) 1 1 = 1) then s
  else if st = 1 ∨ st = 4 then
    setF (setF (setF (setF s F.MEP_STAT_STATE 1) F.MEP_STAT_REASON 0) F.MEP_STAT_MEMBER (leAt (mBody b) 0 1)) F.MEP_STAT_VERSION 1
  else if (st = 2 ∨ st = 5) ∧ s.net.mep.master.any (fun x => x.2 == mSender b) then setF s F.MEP_STAT_MEMBER (leAt (mBody b) 0 1)
  else s

/-- MEP_ADMIT. -/
def execMepAdmit (b : Bytes) (fcs : Bool) (s : State) : Host.Outcome State Fault Refusal := .next (mepAdmit b fcs s)

/-- MEP_REFUSE: the refusal state (R390). -/
def mepRefuse (b : Bytes) (fcs : Bool) (s : State) : State :=
  if mepTakes s b fcs 3 ∧ getF s F.MEP_STAT_STATE = 1 then
    netRaise (setF (setF s F.MEP_STAT_STATE 4) F.MEP_STAT_REASON (leAt (mBody b) 0 1)) 0x0220 none
  else s

/-- MEP_REFUSE. -/
def execMepRefuse (b : Bytes) (fcs : Bool) (s : State) : Host.Outcome State Fault Refusal := .next (mepRefuse b fcs s)

/-- A member takes a SCHEDULE (R388, R391 to R393, R397). One for an edge before the one it has a schedule of only ends extrapolation. -/
def takeSchedule (s : State) (b : Bytes) : State :=
  let d := mBody b
  let n := mTick b
  let from_ := (leAt d 14 1, mSender b)
  let mep := s.net.mep
  let worse := mep.master.any (fun x => x.2 != from_.2 && !better from_ x) && decide (mep.missed < 3)
  let changed := mep.master.any (fun x => x.2 != from_.2) && !worse
  let same := mep.sched.filter (fun x => x.1 == n)
  let edge : Nat := match same with
    | some x => if worse then x.2.1 else leAt d 0 8
    | none => leAt d 0 8
  let ceil := match same with
    | some x => min x.2.2 (leAt d 12 2)
    | none => leAt d 12 2
  let per := leAt d 8 4
  if mep.sched.any (fun x => decide (n < x.1)) then setF s F.MEP_STAT_STATE 2 else
  let s := setMep s { mep with sched := some (n, edge, ceil), origin := some ((edge : Int) - ((n * per * 1000 : Nat) : Int)), period := per,
                               missed := 0, master := if worse then mep.master else some from_ }
  let s := setF { s with tick := { s.tick with nextCeil := some (n, ceil) } } F.MEP_STAT_STATE 2
  if changed then netRaise s 0x0222 none else s

/-- MEP_SCHEDULE. A master only marks that a better one has appeared (R392). -/
def mepSchedule (b : Bytes) (fcs : Bool) (s : State) : State :=
  let st := getF s F.MEP_STAT_STATE
  if mepTakes s b fcs 4 = false then s
  else if st = 3 then
    (if better (leAt (mBody b) 14 1, mSender b) (ownPrio s, s.fuse.uid) then
      setMep s { s.net.mep with yield_ := true, master := some (leAt (mBody b) 14 1, mSender b) } else s)
  else if st = 2 ∨ st = 5 ∨ (st = 1 ∧ getF s F.MEP_STAT_VERSION = 1) then takeSchedule s b
  else s

/-- MEP_SCHEDULE. -/
def execMepSchedule (b : Bytes) (fcs : Bool) (s : State) : Host.Outcome State Fault Refusal := .next (mepSchedule b fcs s)

/-- MEP_REPORT: the master keeps a member's report of a tick whose collection is still open (R393, R394). -/
def mepReport (b : Bytes) (fcs : Bool) (s : State) : State :=
  let mep := s.net.mep
  if mepTakes s b fcs 5 = false ∨ getF s F.MEP_STAT_STATE ≠ 3 ∨ mep.sched.any (fun x => decide (mTick b + 2 ≤ x.1)) then s
  else match mep.members.find? (fun x => x.id == mSender b) with
    | some x => setMep s { mep with reports := mep.reports.filter (fun r => !(r.1 == mTick b && r.2.1 == x.idx))
                                                 ++ [(mTick b, x.idx, leAt (mBody b) 22 2, leAt (mBody b) 20 2)] }
    | none => s

/-- MEP_REPORT. -/
def execMepReport (b : Bytes) (fcs : Bool) (s : State) : Host.Outcome State Fault Refusal := .next (mepReport b fcs s)

/-- A member has reported tick `n`. -/
def hasReport (m : Mep) (n idx : Nat) : Bool := m.reports.any (fun r => r.1 == n && r.2.1 == idx)

/-- The members after the collection of tick `n`: a missing report counts, and the eighth in a row removes the member (R394). -/
def afterCollect (m : Mep) (n : Nat) : List MepMember :=
  (m.members.map (fun x => { x with missing := if hasReport m n x.idx then 0 else x.missing + 1 })).filter (fun x => decide (x.missing < 8))

/-- The ceiling and streak the master forms from the reports of tick `n`, under the fused ceilings of all (R395, R396). -/
def masterCeiling (s : State) (n : Nat) : Nat × Nat :=
  let mep := s.net.mep
  let fused := leastOf (mep.members.map (·.fused)) s.fuse.aclkMax
  let reps := (mep.reports.filter (fun r => r.1 == n)).map (·.2.2)
  let all_ := hasReport mep n (getF s F.MEP_STAT_MEMBER) && mep.members.all (fun x => hasReport mep n x.idx)
  let r := formCeiling s s.tick.ceiling reps all_ fused mep.streak
  (min r.1 fused, r.2)

/-- The SCHEDULE of edge `k` is sent (R393); a master that yields to a better one then joins it (R392). -/
def sendSchedule (s : State) (k ceil streak : Nat) : State :=
  let mep := s.net.mep
  let e := domainEdge s k
  let body := leBytes 8 e ++ leBytes 4 mep.period ++ leBytes 2 ceil ++ leBytes 1 (ownPrio s) ++ [0]
  let s := setMep s { mep with sched := some (k, e, ceil), streak := streak, out := mepMsg s 4 k body, yield_ := false,
                               reports := mep.reports.filter (fun r => decide (k ≤ r.1 + 1)) }
  let s := { s with tick := { s.tick with nextCeil := some (k, ceil) } }
  if mep.yield_ then netRaise (setF (setF s F.MEP_STAT_STATE 1) F.MEP_STAT_VERSION 0) 0x0222 none else s

/-- MEP_COLLECT_DEADLINE at time `t` of tick n + 1 (R393 to R395). -/
def collectDeadline (t : Nat) (s : State) : State :=
  let s := atPort t s
  let mep := s.net.mep
  let k := s.tick.num + 1
  if mepActive s = false ∨ getF s F.MEP_STAT_STATE ≠ 3 ∨ s.tick.running = false ∨ s.timeP < s.tick.edge + 1000 * getF s F.MEP_CFG_COLLECT_US
      ∨ mep.sched.any (fun x => decide (k ≤ x.1)) then s
  else if s.tick.num = 0 then sendSchedule s k (min s.tick.ceiling (leastOf (mep.members.map (·.fused)) s.fuse.aclkMax)) 0
  else
    let n := s.tick.num - 1
    let c := masterCeiling s n
    let kept := afterCollect mep n
    let s := countMembers (setMep s { mep with members := kept })
    let s := (List.range (mep.members.length - kept.length)).foldl (fun s _ => netRaise s 0x0223 none) s
    sendSchedule s k c.1 c.2

/-- MEP_COLLECT_DEADLINE. -/
def execMepCollectDeadline (t : Nat) (s : State) : Host.Outcome State Fault Refusal := .next (collectDeadline t s)

/-- MEP_SCHEDULE_MISSING at time `t`, 20 µs before the next edge: the member extrapolates (R393). -/
def scheduleMissing (t : Nat) (s : State) : State :=
  let s := atPort t s
  let mep := s.net.mep
  let k := s.tick.num + 1
  let st := getF s F.MEP_STAT_STATE
  let e := domainEdge s k
  if mepActive s = false ∨ ¬ (st = 2 ∨ st = 5) ∨ s.tick.running = false ∨ mep.sched.any (fun x => decide (k ≤ x.1)) ∨ s.timeP + 20000 < e then s
  else
    let pace := leAt s.tick.record 22 2
    let c := if pace = 0 then s.tick.ceiling else min s.tick.ceiling pace
    let s := setMep s { mep with sched := some (k, e, c), missed := mep.missed + 1 }
    netRaise (setF { s with tick := { s.tick with nextCeil := some (k, c) } } F.MEP_STAT_STATE 5) 0x0221 none

/-- MEP_SCHEDULE_MISSING. -/
def execMepScheduleMissing (t : Nat) (s : State) : Host.Outcome State Fault Refusal := .next (scheduleMissing t s)

/-- MEP_MASTER_TAKEOVER at time `t` (R392): the candidate continues the numbers, ORIGIN, period and ceiling. -/
def masterTakeover (t : Nat) (s : State) : State :=
  let s := atPort t s
  let mep := s.net.mep
  let st := getF s F.MEP_STAT_STATE
  let heard := mep.hellos.any (fun x => decide (s.timeP < x.2.2 + 300000000) && decide (0 < x.2.1) && better (x.2.1, x.1) (ownPrio s, s.fuse.uid))
  if mepActive s ∧ (st = 2 ∨ st = 5) ∧ 0 < ownPrio s ∧ 3 ≤ mep.missed ∧ heard = false then
    let s := setMep s { mep with master := none, members := [], reports := [], streak := 0, missed := 0, yield_ := false }
    netRaise (countMembers (setF s F.MEP_STAT_STATE 3)) 0x0222 none
  else s

/-- MEP_MASTER_TAKEOVER. -/
def execMepMasterTakeover (t : Nat) (s : State) : Host.Outcome State Fault Refusal := .next (masterTakeover t s)

/-! ### Step barriers (R398) -/

/-- A registered job. -/
def getBar (s : State) (i : Nat) : Option Barrier := tabGet s.net.bars i none
/-- The state with a job slot replaced. -/
def setBar (s : State) (i : Nat) (x : Option Barrier) : State := setNet s { s.net with bars := tabPut s.net.bars i x none }

/-- The barrier record of a job, in Ember retained memory. -/
def barRec (s : State) (x : Barrier) : Bytes := memRead s.mem x.addr 64
def barJob (s : State) (x : Barrier) : Nat := leAt (barRec s x) 0 2
def barQueue (s : State) (x : Barrier) : Nat := leAt (barRec s x) 2 2
/-- The participants' member indices. -/
def barWho (s : State) (x : Barrier) : List Nat := (List.range 256).filter (fun i => bitOf (leAt (barRec s x) 32 32) i)

/-- The slot a job is registered in. -/
def barOf (s : State) (job : Nat) : Option (Nat × Barrier) :=
  (List.range 16).findSome? (fun i => match getBar s i with
    | some x => if barJob s x = job then some (i, x) else none
    | none => none)

/-- The release entry is posted; `late` sets its byte 2 (R398). -/
def barPost (s : State) (x : Barrier) (late : Bool) : State :=
  let q := barQueue s x
  (postData s q (leBytes 2 (barJob s x) ++ [if late then 1 else 0, 0] ++ leBytes 4 x.step ++ List.replicate 8 0) 44 (getQ s q).part).1

/-- The barrier is released once every participant has arrived at the step the device waits on. -/
def barCheck (s : State) (i : Nat) : State :=
  match getBar s i with
  | some x =>
    if x.wait.isSome ∧ (barWho s x).all (fun p => x.arrived.contains (p, x.step)) then
      barPost (setBar s i (some { x with wait := none, arrived := x.arrived.filter (fun y => y.2 != x.step) })) x false
    else s
  | none => s

/-- A participant's ARRIVE is noted. -/
def barArrive (s : State) (i who step : Nat) : State :=
  match getBar s i with
  | some x => barCheck (setBar s i (some { x with arrived := if x.arrived.contains (who, step) then x.arrived else x.arrived ++ [(who, step)] })) i
  | none => s

/-- MEP_ARRIVE. -/
def mepArrive (b : Bytes) (fcs : Bool) (s : State) : State :=
  if mepTakes s b fcs 6 then
    match mMember b, barOf s (leAt (mBody b) 0 2) with
    | some w, some (i, _) => barArrive s i w (leAt (mBody b) 4 4)
    | _, _ => s
  else s

/-- MEP_ARRIVE. -/
def execMepArrive (b : Bytes) (fcs : Bool) (s : State) : Host.Outcome State Fault Refusal := .next (mepArrive b fcs s)

/-- NET_BARREC is written (R398, R400): a record that overlaps the save area is not registered. -/
def barrecWrite (m : Master) (v : Nat) (s : State) : State :=
  gated s true netBlock 0x54 m v (fun s =>
    let a := emberBase + 64 * bitsOf v 6 15
    if bitOf v 31 = false then setBar s (bitsOf v 0 4) none
    else if saveArea ≤ a then cfgIgnored s true netBlock 0x54 m v
    else setBar s (bitsOf v 0 4) (some { addr := a }))

/-- NET_BARREC_REGISTER: the write of NET_BARREC with VALID 1. -/
def execNetBarrecRegister (m : Master) (v : BitVec 31) (s : State) : Host.Outcome State Fault Refusal :=
  .next (barrecWrite m (v.toNat + 2 ^ 31) s)

/-- NET_BARREC_UNREGISTER: the write of NET_BARREC with VALID 0. -/
def execNetBarrecUnregister (m : Master) (v : BitVec 31) (s : State) : Host.Outcome State Fault Refusal :=
  .next (barrecWrite m v.toNat s)

/-- The 32-bit step number from its low half and the job's previous step (R400). -/
def fullStep (prev low : Nat) : Nat := (prev + (low + 65536 - prev % 65536) % 65536) % 2 ^ 32

/-- NET_BARRIER is written: the device multicasts ARRIVE and waits (R398). -/
def barrierWrite (m : Master) (v : Nat) (s : State) : State :=
  gated s true netBlock 0x58 m v (fun s =>
    match barOf s (bitsOf v 0 16) with
    | none => cfgIgnored s true netBlock 0x58 m v
    | some (i, x) =>
      let step := fullStep x.step (bitsOf v 16 16)
      let s := mepSend s 6 s.tick.num (leBytes 2 (bitsOf v 0 16) ++ leBytes 2 0 ++ leBytes 4 step)
      let s := setBar s i (some { x with step := step, wait := some (s.timeP + 1000000 * leAt (barRec s x) 4 2) })
      barArrive s i (getF s F.MEP_STAT_MEMBER) step)

/-- NET_BARRIER_WRITE. -/
def execNetBarrierWrite (m : Master) (v : BitVec 32) (s : State) : Host.Outcome State Fault Refusal := .next (barrierWrite m v.toNat s)

/-- BARRIER_TIMEOUT of a job slot at time `t` (R398). -/
def barrierTimeout (i t : Nat) (s : State) : State :=
  let s := atPort t s
  match getBar s i with
  | some x =>
    if x.wait.any (fun w => decide (w ≤ s.timeP)) then
      netRaise (barPost (setBar s i (some { x with wait := none })) x true) 0x0224 none
    else s
  | none => s

/-- BARRIER_TIMEOUT. -/
def execBarrierTimeout (k t : Nat) (s : State) : Host.Outcome State Fault Refusal := .next (barrierTimeout k t s)

end Sys2Proof.Machine
end

