-- ==== Sys2Proof/Machine/Power.lean ====
section
/-! DEFINITION. The separately switched power domains (R27 to R30): what a domain loses when it powers down. -/

namespace Sys2Proof.Machine

/-- The registers of a range of addresses return to their reset values. -/
def resetRegs (s : State) (a n : Nat) : State := { s with regs := tabDrop s.regs (32 * a) (32 * n) }

/-- An engine stops and forgets its state. -/
def loseEngine (s : State) (e : Nat) : State := setE (stopEngine s e) e {}

/-- The camera domain loses its registers, context records, write sets and frames (R27, R30). -/
def loseCamera (s : State) : State := resetRegs { s with cam := {} } (blkBase true 1) 0x10000

/-- The network domain loses its registers, sessions and frames (R27, R30). -/
def loseNetwork (s : State) : State :=
  resetRegs (resetRegs { s with net := {}, pins := { s.pins with ppsEnd := none } } (blkBase true 2) 0x10000)
    (blkBase true 3) 0x10000

/-- What powering a domain down loses (R27, R30); a Map Store quarter's regions are no longer array-only (R136). -/
def loseDomain (s : State) (d : Nat) : State :=
  if d < 16 then loseGroup s d
  else if d < 20 then
    let q := d - 16
    setF (setF (zeroMem s (mapBase + q * 0x4000000) 0x4000000) (F.MAP_AO_AO (2 * q)) 0) (F.MAP_AO_AO (2 * q + 1)) 0
  else if d < 28 then dropBufs (zeroMem s (tileAddr (13 + (d - 20))) tileBytes) (9 + (d - 20)) 1
  else if d < 32 then
    let p := d - 28
    resetRegs (zeroMem (zeroMem (dropBufs (loseEngine s (7 + p)) p 1) (csAddr (7 + p)) 0x8000) (tileAddr (4 + p)) tileBytes)
      (hxrBank (7 + p)) 0x20
  else if d = domStereo then resetRegs (zeroMem (dropBufs (loseEngine s 11) 4 1) (tileAddr 8) tileBytes) (blkBase false 14) 0x10000
  else if d = domCodec then
    resetRegs ((List.range 4).foldl (fun s k => zeroMem s (tileAddr (9 + k)) tileBytes) (dropBufs { s with cdc := {} } 5 4)) (blkBase false 15) 0x10000
  else if d = domNet then loseNetwork s
  else loseCamera s

/-- A switched domain powers down. -/
def domainDown (s : State) (d : Nat) : State :=
  if d < domCount ∧ powered s d then
    let s := loseDomain s d
    { s with pwr := { s.pwr with off := s.pwr.off ++ [d] }, arr := { s.arr with settling := s.arr.settling.filter (· != d) } }
  else s

/-- Clock domains of a switched domain, which leave reset with it: a host core's, an ISP pipe's, the stereo engine's, the codecs' (R25, R27). -/
def domClks (d : Nat) : List Nat :=
  if 20 ≤ d ∧ d < 28 then [d - 18] else if 28 ≤ d ∧ d < 32 then [d - 16] else if d = domStereo then [16] else if d = domCodec then [18, 19] else []

/-- A switched domain powers up, its clocks' counts from 0 (R425); a column group settles first (R94). -/
def domainUp (s : State) (d : Nat) : State :=
  if d < domCount ∧ !powered s d then
    let s := { s with pwr := { s.pwr with off := s.pwr.off.filter (· != d), cyc := (domClks d).foldl (fun l i => l.set i 0) s.pwr.cyc } }
    if d < 16 then { s with arr := { s.arr with settling := s.arr.settling ++ [d] } } else s
  else s

/-- DOMAIN_POWER_DOWN. -/
def execDomainPowerDown (d : Nat) (s : State) : Host.Outcome State Fault Refusal := .next (domainDown s d)

/-- DOMAIN_POWER_UP. -/
def execDomainPowerUp (d : Nat) (s : State) : Host.Outcome State Fault Refusal := .next (domainUp s d)

end Sys2Proof.Machine
end

