-- ==== Sys2Proof/Machine/Boot.lean ====
section
/-! DEFINITION. Boot, reset, restart and update (R443 to R461, R518): what each reset loses, the selection of an image, and the
update of the flash. -/

namespace Sys2Proof.Machine

/-! ### What a reset loses (R27 to R30, R449, R450) -/

/-- Partitions 1 to 7 are FREE, and partition 0 is as stage 1 creates it (R462). -/
def freshParts (s : State) : State := { s with parts := State.reset.parts }

/-- The scheduler after a reset of the compute die: every step is lost and its completion waits with status 3 (R267, R284), and Stage 1
creates partition 0 anew, with a lay-by key of its own (R277, R462). -/
def lostSteps (c : Sch) : Sch :=
  { key0 := c.key0 + 1,
    ended := c.ended ++ (c.run.toList ++ c.parked ++ c.submitted).map (fun x => ({ x with saved := none }, 3)) }

/-- A reset of the compute die (R418, R450): its registers, memories, engines and queues; DRAM bytes and Ember retained memory stay. -/
def resetComp (s : State) : State :=
  let owner := getF s F.DRC_TRN_CTL_OWNER
  let s := { s with mem := tabDrop s.mem 0x800000000 (emberBase - 0x800000000), regs := tabDrop s.regs (32 * blkBase false 0) (32 * 0x800000000),
                    rlogHead := 0, rlog := [], hx := State.reset.hx, qm := [], tick := {}, crd := {}, mapu := {}, arr := {}, drn := {}, drc := {},
                    dma := State.reset.dma, bootPort := none, fp := {}, sch := lostSteps s.sch, isp := {}, vis := {}, cdc := {}, bufs := tabDrop s.bufs 0 18 }
  let s := { s with hif := { perst := s.hif.perst }, cam := { s.cam with notices := [], bound := [] },
                    cwy := { portEdge := s.cwy.portEdge }, net := { s.net with staged := [] },
                    sec := { s.sec with slots := [], containers := [], quar := 0, cmd := none, scrubLeft := 0, locked := false },
                    pwr := { s.pwr with off := s.pwr.off.filter (fun d => d == domNet || d == domCam), dcReset := false, dcClkStop := false, cyc := List.replicate 27 0 } }
  let s := { s with flt := { s.flt with comp := {}, acked := [], handling := [], interrupted := false, watch := [], safe := false,
                                        restartDue := false, pair0Reset := false, takeover := false, restarts := [],
                                        cursors := State.reset.flt.cursors } }
  let s := { s with emn := { s.emn with locks := false } }
  setF (setF (setF (freshParts s) (F.CWY_STAT_LINK_UP true) 0) (F.CWY_STAT_FAILED true) 0) F.DRC_TRN_CTL_OWNER owner

/-- A reset of the port base domain (R28): its registers and units. The flash, Emino's always-on register and Ember's own state stay. -/
def resetPort (s : State) : State :=
  let e := s.emn
  { s with regs := tabDrop s.regs (32 * blkBase true 0) (32 * 0x70000), cam := {}, net := {}, sec := {}, cwy := {}, bufs := tabDrop s.bufs 18 1,
           flt := { s.flt with port := {}, acked := [] },
           kiln := { cap := 300, temps := s.kiln.temps, tripped := s.kiln.tripped, vinFault := s.kiln.vinFault, rails := s.kiln.rails,
                     ember := s.kiln.ember, emberAt := s.kiln.emberAt, badSince := s.kiln.badSince, goodSince := s.kiln.goodSince },
           emn := { journal := e.journal, slots := e.slots, dbgCount := e.dbgCount, trnOwner := e.trnOwner, sealed_ := e.sealed_,
                    sealKey := e.sealKey, drcKept := e.drcKept, straps := e.straps, resetLow := e.resetLow },
           pins := { s.pins with latched := List.replicate 4 false, ppsEnd := none },
           pwr := { s.pwr with off := s.pwr.off.filter (fun d => d != domNet && d != domCam) } }

/-- DRAM contents are lost (R436, R518). -/
def loseDram (s : State) : State := { s with mem := tabDrop s.mem 0 0x800000000 }

/-- The compute die and every domain on it are off (R28, R435). -/
def compOff (s : State) : State :=
  let s := resetComp s
  { s with pwr := { s.pwr with compOn := false } }

/-- Every domain except the Ember domain is off (R436, R437, R518). -/
def allOff (s : State) : State :=
  let s := resetPort (compOff s)
  { s with pwr := { s.pwr with portOn := false } }

/-! ### The journal and the image (R454 to R456) -/

/-- A SLOT record is confirmed. -/
def jConfirmed (j : List JRec) (r : JRec) : Bool := j.any (fun x => x.kind == 3 && x.seq == r.seq)
/-- TRY records of a SLOT record. -/
def jTries (j : List JRec) (r : JRec) : Nat := (j.filter (fun x => x.kind == 2 && x.seq == r.seq)).length

/-- Inserts a SLOT record, highest SEQ first. -/
def insertSlot (r : JRec) : List JRec → List JRec
  | [] => [r]
  | x :: xs => if x.seq < r.seq then r :: x :: xs else x :: insertSlot r xs
/-- The SLOT records, highest SEQ first. -/
def slotRecs (j : List JRec) : List JRec := (j.filter (fun x => x.kind == 1)).foldl (fun l r => insertSlot r l) []
/-- The highest SEQ of a SLOT record. -/
def topSeq (j : List JRec) : Nat := (slotRecs j).foldl (fun n r => max n r.seq) 0

/-- The live records (R456): the highest SLOT record of each slot, with its TRY and CONFIRM records. -/
def liveRecs (j : List JRec) : List JRec :=
  let live := ((slotRecs j).find? (fun r => r.slot == 0)).toList ++ ((slotRecs j).find? (fun r => r.slot == 1)).toList
  j.filter (fun x => live.any (fun r => r.seq == x.seq))

/-- A record is appended; a full sector of 1,024 records is compacted first (R443, R456). -/
def jAppend (s : State) (r : JRec) : State :=
  let j := s.emn.journal
  { s with emn := { s.emn with journal := (if 1024 ≤ j.length then liveRecs j else j) ++ [r] } }

/-- The image a slot holds. -/
def slotImg (s : State) (i : Nat) : Option SlotImg := nth s.emn.slots i none

/-- A manifest is accepted (R444): up to 16 components within their limits, an SVN from the counter to 64, and its signatures. -/
def imgAccepted (s : State) (x : SlotImg) : Bool :=
  x.signed && decide (s.fuse.svn ≤ x.svn) && decide (x.svn ≤ 64) && decide (x.comps.length ≤ 16)

/-- A record qualifies (R455). -/
def recQualifies (s : State) (r : JRec) : Bool :=
  (slotImg s r.slot).any (fun x => x.digest == r.digest && imgAccepted s x)
    && (jConfirmed s.emn.journal r || decide (jTries s.emn.journal r < 3))

/-- The anti-rollback counter rises to an SVN (R458). -/
def raiseSvn (s : State) (v : Nat) : State := { s with fuse := { s.fuse with svn := max s.fuse.svn v } }

/-- At every boot the counter follows the highest confirmed record (R458). -/
def followConfirmed (s : State) : State :=
  match (slotRecs s.emn.journal).find? (jConfirmed s.emn.journal) with
  | some r => match slotImg s r.slot with
    | some x => if x.digest = r.digest then raiseSvn s x.svn else s
    | none => s
  | none => s

/-- An Emino fault (R461, R479). -/
def emnRaise (s : State) (code : Nat) : State := raise s true code 0 none 4 0xFFFF []

/-- Recovery (R459): the compute die is powered, and FAULT_N is low; without stage 1 there is no partition, and the PF alone is up. -/
def recovery (s : State) : State :=
  let s := setF s F.EMN_BOOT_STAT_STAGE 7
  { s with parts := List.replicate 8 {},
           flt := { s.flt with faultN := true }, pwr := { s.pwr with compOn := true, portOn := true }, emn := { s.emn with booted := none } }

/-- Stage 1 stands in Emino's SRAM, the host-core boot image in the L2 locked region and the real-time images in tile memories 21 and 22,
which are locked (R444, R447, R453). -/
def loadImages (s : State) : State :=
  let s := useBuf (useBuf s 18 0) 17 0
  { s with emn := { s.emn with locks := true } }

/-- The records in turn, until one qualifies and its components match their digests (R446, R449, R455). -/
def pickRec : List JRec → State → State
  | [], s => recovery (raise s true 0x0241 3 none 4 0xFFFF [])
  | r :: rs, s =>
    if recQualifies s r = false then pickRec rs (emnRaise s 0x0240)
    else
      let conf := jConfirmed s.emn.journal r
      let s := if conf then s else jAppend s { kind := 2, slot := r.slot, seq := r.seq }
      if (slotImg s r.slot).any (·.good) then
        let s := setF (setF (setF (setF s F.EMN_BOOT_STAT_STAGE 2) F.EMN_BOOT_STAT_SLOT r.slot) F.EMN_BOOT_STAT_TRIAL (if conf then 0 else 1))
          F.EMN_BOOT_STAT_SEQ r.seq
        followConfirmed (loadImages { s with emn := { s.emn with booted := some r }, pwr := { s.pwr with compOn := true, portOn := true } })
      else pickRec rs (emnRaise s 0x0240)

/-- Boot from the 12 ms step: the journal is read and an image selected (R448, R455). -/
def selectImage (s : State) : State := pickRec (slotRecs s.emn.journal) s

/-- A cold boot up to the compute die's release (R445, R448): every domain starts anew, blown column fuses take effect, DRAM training has
the owner that the flash names, and STRAP1 tied to ground leads to recovery (R520). -/
def coldBoot (straps : Nat) (s : State) : State :=
  let s := allOff s
  let f := s.fuse
  let s := { s with fuse := { f with colBad := Nat.lor f.colBad f.colBlown, colBlown := 0 },
                    kiln := { temps := s.kiln.temps, rails := s.kiln.rails },
                    flt := { s.flt with restarting := false, held := false, faultN := false, trainFail := false, reboots := 0 },
                    pwr := { s.pwr with portOn := true }, emn := { s.emn with straps := straps % 16, drcKept := none } }
  let s := setF s F.DRC_TRN_CTL_OWNER s.emn.trnOwner
  if bitOf straps 1 then selectImage s else recovery s

/-- Column fuses that Emino blew on request since the last cold boot (R91): at most 16 in all. The spec gives no command for the request, so
the cold boot that puts a fuse into effect names its column (log entry 37). -/
def blowFuses (cols : List Nat) (s : State) : State :=
  cols.foldl (fun s c =>
    let have_ := Nat.lor s.fuse.colBad s.fuse.colBlown
    if c < 256 ∧ bitOf have_ c = false ∧ (List.range 256).countP (bitOf have_) < 16 then
      { s with fuse := { s.fuse with colBlown := Nat.lor s.fuse.colBlown (2 ^ c) } }
    else s) s

/-- POWER_ON: VIN reaches 10.8 V; nothing but flash, fuses and straps has outlasted the loss of power (R448, R517). -/
def powerOn (straps : Nat) (blown : List Nat) (s : State) : State :=
  let s := blowFuses blown s
  let e := s.emn
  coldBoot straps { s with mem := [], flt := {}, kiln := {}, pwr := {},
                           emn := { journal := e.journal, slots := e.slots, dbgCount := e.dbgCount, trnOwner := e.trnOwner } }

/-- POWER_ON. -/
def execPowerOn (part : PartRead) (s : State) : Host.Outcome State Fault Refusal := .next (powerOn part.straps part.blown s)

/-- RESET_N is recognised low, or is released (R518). -/
def resetN (low : Bool) (straps : Nat) (blown : List Nat) (s : State) : State :=
  if low then
    if s.emn.resetLow then s
    else
      let s := loseDram (allOff s)
      { s with emn := { s.emn with resetLow := true, sealKey := false, update := none }, kiln := { s.kiln with ember := 0 },
               flt := { s.flt with faultN := false, held := false, restarting := false } }
  else if s.emn.resetLow then
    let s := blowFuses blown s
    coldBoot straps { s with emn := { s.emn with resetLow := false } }
  else s

/-- RESET_N. -/
def execResetN (low : Bool) (part : PartRead) (s : State) : Host.Outcome State Fault Refusal :=
  .next (resetN low part.straps part.blown s)

/-! ### Restart of the compute die (R450, R490) -/

/-- Every sensor reads below the warning level less 10 °C (R435). -/
def allCool (s : State) : Bool := s.kiln.temps.all (fun t => decide (t < 4 * (getF s F.KILN_TH_WARN_C : Int) - 40))

/-- The compute die is reset and loaded from flash again. -/
def reload (s : State) : State :=
  let s := loadImages (resetComp s)
  setF { s with pwr := { s.pwr with compOn := true } } F.EMN_BOOT_STAT_STAGE 2

/-- COMPUTE_DIE_RESTART: after a double fault, a causeway failure or FLT_CMD.RESTART, or once a thermal trip has cooled down, by a full cold
boot where the port base was powered down too (R435, R450, R490, R493). -/
def compRestart (s : State) : State :=
  if s.emn.resetLow then s
  else if s.kiln.tripped then
    if allCool s then
      (if s.pwr.portOn then
        let s := reload s
        { s with kiln := { s.kiln with tripped := false }, flt := { s.flt with reboots := s.flt.reboots + 1 } }
       else coldBoot s.emn.straps s)
    else s
  else if s.flt.restartDue ∧ s.flt.held = false then
    let safe := s.flt.safe
    let s := reload s
    { s with flt := { s.flt with restarting := safe, reboots := s.flt.reboots + 1 } }
  else s

/-- COMPUTE_DIE_RESTART. -/
def execComputeDieRestart (s : State) : Host.Outcome State Fault Refusal := .next (compRestart s)

/-- TICK_READY: the boot under way has an image, the causeway and DRAM are up (R448); FAULT_N is released (R435, R490). -/
def tickReady (s : State) : State :=
  let st := getF s F.EMN_BOOT_STAT_STAGE
  if (st = 2 ∨ st = 4) ∧ s.emn.booted.isSome ∧ compDown s = false ∧ isSet s F.DRC_STAT_READY ∧ getF s F.HIF_DEVSTAT_BOOT = 1 ∧ s.flt.held = false
      ∧ s.flt.trainFail = false then
    let s := setF (setF s F.HIF_DEVSTAT_BOOT 2) F.EMN_BOOT_STAT_STAGE 3
    { s with flt := { s.flt with faultN := false, restarting := false } }
  else s

/-- TICK_READY. -/
def execTickReady (s : State) : Host.Outcome State Fault Refusal := .next (tickReady s)

/-- HOST_TRAINING_TIMEOUT: with training on the host, DRC_STAT.READY has not come within 10 s (R449). -/
def hostTrainingTimeout (s : State) : State :=
  if isSet s F.DRC_TRN_CTL_OWNER ∧ isSet s F.DRC_STAT_READY = false ∧ getF s F.HIF_DEVSTAT_BOOT = 1 ∧ s.pwr.compOn
      ∧ getF s F.EMN_BOOT_STAT_STAGE ≠ 7 then
    raiseDevice s true 0x0167 4 0xFFFF []
  else s

/-- HOST_TRAINING_TIMEOUT. -/
def execHostTrainingTimeout (s : State) : Host.Outcome State Fault Refusal := .next (hostTrainingTimeout s)

/-! ### Update (R457 to R459) -/

/-- RESULT of the update register; 1, 3 and 4 raise UPDATE_FAILED (R461). -/
def updResult (s : State) (r : Nat) : State :=
  let s := setF s F.EMN_UPD_CMD_RESULT r
  if r = 1 ∨ r = 3 ∨ r = 4 then emnRaise s 0x0242 else s

/-- The slot that holds no record in force. -/
def otherSlot (s : State) : Nat := match s.emn.booted with
  | some r => 1 - r.slot
  | none => 0

/-- START (R457): the manifest is checked, and the other slot is erased. `img` is what Emino reads at EMN_UPD_ADDR. -/
def updStart (img : SlotImg) (s : State) : State :=
  if s.emn.update.isSome ∨ s.kiln.ember ≠ 0 then updResult s 2
  else if imgAccepted s img = false ∨ 16128 < getF s F.EMN_UPD_CMD_LEN_KIB then updResult s 1
  else
    let k := otherSlot s
    let s := setF (setF s F.EMN_UPD_CMD_BUSY 1) F.EMN_BOOT_STAT_STAGE 5
    { s with emn := { s.emn with update := some (img, k), slots := s.emn.slots.set k none } }

/-- The update under way is over. -/
def updDone (s : State) (r : Nat) : State :=
  let s := setF (setF s F.EMN_UPD_CMD_BUSY 0) F.EMN_BOOT_STAT_STAGE 3
  updResult { s with emn := { s.emn with update := none } } r

/-- UPDATE_COMPLETE: the readback matches, and the SLOT record is appended; or it does not (R457). -/
def updateComplete (ok : Bool) (s : State) : State :=
  match s.emn.update with
  | none => s
  | some (img, k) =>
    let s := { s with emn := { s.emn with slots := s.emn.slots.set k (some { img with good := ok }) } }
    if ok then updDone (jAppend s { kind := 1, slot := k, seq := topSeq s.emn.journal + 1, digest := img.digest }) 0
    else updDone s 3

/-- UPDATE_COMPLETE. -/
def execUpdateComplete (ok : Bool) (s : State) : Host.Outcome State Fault Refusal := .next (updateComplete ok s)

/-- HEALTHY (R458). -/
def healthy (s : State) : State := { s with emn := { s.emn with healthy := true } }

/-- CONFIRM (R458): ignored before HEALTHY; otherwise the booted record is confirmed and the counter rises to its image's SVN. -/
def confirm (s : State) : State :=
  match s.emn.booted with
  | some r =>
    if s.emn.healthy then
      let s := if jConfirmed s.emn.journal r then s else jAppend s { kind := 3, slot := r.slot, seq := r.seq }
      setF (match slotImg s r.slot with
        | some x => raiseSvn s x.svn
        | none => s) F.EMN_BOOT_STAT_TRIAL 0
    else s
  | none => s

/-- REC_CHUNK (R459): in recovery a chunk is programmed into slot A; with the last one the image `img` that slot A then holds is verified, and
a cold boot starts. -/
def recChunk (last : Bool) (img : SlotImg) (s : State) : State :=
  if getF s F.EMN_BOOT_STAT_STAGE ≠ 7 then s
  else if last = false then { s with emn := { s.emn with slots := s.emn.slots.set 0 none } }
  else
    let s := { s with emn := { s.emn with slots := s.emn.slots.set 0 (some img) } }
    if imgAccepted s img = false then updResult s 1
    else if img.good = false then updResult s 3
    else
      let s := jAppend (updResult s 0) { kind := 1, slot := 0, seq := topSeq s.emn.journal + 1, digest := img.digest }
      coldBoot s.emn.straps s

/-- A write of EMN_UPD_CMD: LEN_KIB is stored, and the command acts (R460). `img` and `last` are what the write's command goes by. -/
def updCmdWrite (m : Master) (v : Nat) (img : SlotImg) (last : Bool) (s : State) : State :=
  gated s true 4 0x2C m v (fun s =>
    let s := setF s F.EMN_UPD_CMD_LEN_KIB (bitsOf v 8 24)
    match bitsOf v 0 3 with
    | 1 => updStart img s
    | 2 => healthy s
    | 3 => confirm s
    | 4 => recChunk last img s
    | _ => s)

/-- UPD_START: EMN_UPD_CMD is written with CMD START; the image Emino reads has these digest, verdict on its signatures, SVN and components. -/
def execUpdStart (m : Master) (len : BitVec 24) (digest : BitVec 384) (signed : Bool) (svn : Nat) (comps : List (Nat × BitVec 384)) (s : State) :
    Host.Outcome State Fault Refusal :=
  .next (updCmdWrite m (256 * len.toNat + 1) { digest := digest, signed := signed, svn := svn, comps := comps } false s)

/-- HEALTHY. -/
def execHealthy (m : Master) (len : BitVec 24) (s : State) : Host.Outcome State Fault Refusal :=
  .next (updCmdWrite m (256 * len.toNat + 2) { digest := 0, signed := false, svn := 0 } false s)

/-- CONFIRM. -/
def execConfirm (m : Master) (len : BitVec 24) (s : State) : Host.Outcome State Fault Refusal :=
  .next (updCmdWrite m (256 * len.toNat + 3) { digest := 0, signed := false, svn := 0 } false s)

/-- REC_CHUNK. -/
def execRecChunk (m : Master) (len : BitVec 24) (last : Bool) (digest : BitVec 384) (signed good : Bool) (svn : Nat)
    (comps : List (Nat × BitVec 384)) (s : State) : Host.Outcome State Fault Refusal :=
  .next (updCmdWrite m (256 * len.toNat + 4) { digest := digest, signed := signed, svn := svn, comps := comps, good := good } last s)

end Sys2Proof.Machine
end

