-- ==== Sys2Proof/Machine/Kiln.lean ====
section
/-! DEFINITION. The kiln (R420 to R442): dampers, droop, voltage and frequency steps, availability, thermal control, the input
supply, and Ember. -/

namespace Sys2Proof.Machine

/-- Register block of the kiln on the port die (R510). -/
def kilnBlock : Nat := 5

/-- The state with the kiln replaced. -/
def setKiln (s : State) (k : Kiln) : State := { s with kiln := k }

/-- An advisory fault of the kiln (R441). -/
def kilnRaise (s : State) (code : Nat) : State := raise s true code 0 none kilnBlock 0xFFFF []

/-- A second has passed since an advisory fault was last raised. -/
def secondPast (s : State) (last : Option Nat) : Bool := last.all (fun t => decide (t + 1000000000 ≤ s.timeP))

/-- CAP_EFF in units of 0.25 W (R422, R434): the thermal cap counts while THROTTLING is set. -/
def capEff (s : State) : Nat :=
  let c := getF s F.KILN_CAP_CAP_QW
  if isSet s F.KILN_STAT_THROTTLING then min c s.kiln.cap else c

/-! ### Dampers (R424, R426, R430) -/

/-- The integral term after an interval of input power `p` mW, and `d` (R424). -/
def damper (s : State) (p : Nat) : Int × Int :=
  let c : Int := capEff s * 250
  let dmax : Int := getF s F.KILN_DAMP_DMAX
  let u : Int := 256 * ((p : Int) - c) / c
  let acc := clampI (s.kiln.acc + (getF s F.KILN_DAMP_GAIN_I : Int) * u / 256) 0 dmax
  (acc, clampI ((getF s F.KILN_DAMP_GAIN_P : Int) * u / 16 + acc) 0 dmax)

/-- The fraction of each group (R424). -/
def groupFractions (s : State) (d : Nat) : List Nat :=
  [F.KILN_DAMPW_W_ACLK, F.KILN_DAMPW_W_HC, F.KILN_DAMPW_W_IMG, F.KILN_DAMPW_W_CDC].map
    (fun w => min (getF s F.KILN_DAMP_DMAX) (d * getF s w / 8))

/-- The clock domains of the four groups, numbered in the order of R25's table: ACLK 0, the host cores 2 to 9, ISP pipes, stereo engine and
crop-and-resize unit 12 to 17, the codecs 18 and 19 (R423). -/
def clkDamped (i : Nat) : Bool := i == 0 || (decide (2 ≤ i) && decide (i < 10)) || (decide (12 ≤ i) && decide (i < 20))

/-- The cycle counts after an interval in which domain `i` had `nth cyc i 0` cycles (R425). -/
def cycNext (s : State) (cyc : List Nat) : List Nat :=
  (List.range 27).map (fun i => if clkDamped i then (nth s.pwr.cyc i 0 + nth cyc i 0) % 256 else nth s.pwr.cyc i 0)

/-- The bubbles among `n` cycles from count `k` on at fraction `d` (R425): each cycle at which the floor of count times fraction over 256 grows. -/
def bubbles (k n d : Nat) : Nat := (k + n) * d / 256 - k * d / 256

/-- DAMPER_UPDATE: a 1 µs interval ends, with the input power `p` in mW, VIN in units of 10 mV, the rails' samples and the cycles of each clock
domain; `lost` are the array's bubbles dropped under R42, `sa` its stretched cycles that are not bubbles, and `sh` the HC group's in 1/256. The
array's bubbles and stretches are holds (R76, R421, R424, R425, R427). -/
def damperUpdate (p vin : Nat) (rails : List (Nat × Nat)) (cyc : List Nat) (lost sa sh : Nat) (s : State) : State :=
  let r := damper s p
  let k := s.kiln
  let d := r.2.toNat
  let n := nth cyc 0 0
  let holds := bubbles (nth s.pwr.cyc 0 0) n (nth k.dg 0 0) - lost + sa
  let s := { s with pwr := { s.pwr with cyc := cycNext s cyc }, arr := { s.arr with stall := s.arr.stall + holds } }
  let da := min 255 (nth k.dg 0 0 + 256 * sa / n)
  let dh := min 255 (nth k.dg 1 0 + sh)
  let atMax := decide (d = getF s F.KILN_DAMP_DMAX)
  let s := setKiln s { k with acc := r.1, d := d, dg := k.dNext, dNext := groupFractions s d, atMax := k.atMax && atMax,
                              hcZero := k.hcZero && decide (dh = 0), peak := max k.peak (100 * da / 256), rails := rails.take 19 }
  setF (setF (setF (setF s F.KILN_STAT_D_ACLK da) F.KILN_STAT_D_HC dh) F.KILN_STAT_AT_DMAX (if atMax then 1 else 0)) F.KILN_PWR_VIN vin

/-- DAMPER_UPDATE. -/
def execDamperUpdate (p vin : Nat) (rails : List (Nat × Nat)) (cyc : List Nat) (lost sa sh : Nat) (s : State) : Host.Outcome State Fault Refusal :=
  .next (damperUpdate p vin rails cyc lost sa sh s)

/-- The fused frequency of point `i` of host core `k`, in MHz (R428). -/
def hcMhz (s : State) (k i : Nat) : Nat := nth (nth s.fuse.hcCurves k []) i 0

/-- Core `k` runs at the lower of its target and what its point allows (R430). -/
def hcApply (s : State) (k : Nat) : State :=
  setF s (F.KILN_HC_CUR k) (min (getF s (F.KILN_HC_TARGET k)) (hcMhz s k (nth s.kiln.hcPoint k 0) / 10))

/-- A core can step down: it stands above the lowest point, and the next point is not below the floor (R430). -/
def canDown (s : State) (k : Nat) : Bool :=
  let i := nth s.kiln.hcPoint k 0
  decide (0 < i) && decide (10 * getF s F.KILN_HC_FLOOR_FLOOR ≤ hcMhz s k (i - 1))

/-- A core steps to the next point below. -/
def hcDown (s : State) (k : Nat) : State :=
  if canDown s k then
    hcApply (setKiln s { s.kiln with hcPoint := s.kiln.hcPoint.set k (nth s.kiln.hcPoint k 0 - 1), hcUp := s.kiln.hcUp.set k false }) k
  else s

/-- A core below its target begins a step up; its frequency follows after the slew (R430). -/
def hcRaise (s : State) (k : Nat) : State :=
  if getF s (F.KILN_HC_CUR k) < getF s (F.KILN_HC_TARGET k) ∧ nth s.kiln.hcPoint k 0 < 12 then
    setKiln s { s.kiln with hcUp := s.kiln.hcUp.set k true }
  else s

/-- POWER_WINDOW at time `t`: a 1 ms window ends with the average input power `avg` in mW; `stretched` lists the domains in which stretches
took more than 5 % of the cycles (R426, R427, R430). -/
def powerWindow (avg : Nat) (stretched : List Nat) (t : Nat) (s : State) : State :=
  let s := atPort t s
  let k := s.kiln
  let excess := k.atMax && decide (capEff s * 250 < avg)
  let calm := if k.hcZero ∧ 100 * avg ≤ 95 * (capEff s * 250) then k.calm + 1 else 0
  let low := (List.range 8).all (fun c => !canDown s c)
  let due := excess && k.floored && low && secondPast s k.unheldAt
  let s := setF s F.KILN_PWR_IN_QW (min 1023 (avg / 250))
  let s := if excess then (List.range 8).foldl hcDown s else if 10 ≤ calm then (List.range 8).foldl hcRaise s else s
  let floor := excess && (List.range 8).all (fun c => !canDown s c)
  let s := setKiln s { s.kiln with atMax := true, hcZero := true, calm := if 10 ≤ calm then 0 else calm, floored := floor,
                                   unheldAt := if due then some s.timeP else k.unheldAt }
  let s := if due then kilnRaise s 0x0230 else s
  stretched.foldl (fun s d =>
    if secondPast s (tabGet s.kiln.droopAt d none) then
      kilnRaise (setKiln s { s.kiln with droopAt := tabPut s.kiln.droopAt d (some s.timeP) none }) 0x0231 else s) s

/-- POWER_WINDOW. -/
def execPowerWindow (avg : Nat) (stretched : List Nat) (t : Nat) (s : State) : Host.Outcome State Fault Refusal :=
  .next (powerWindow avg stretched t s)

/-! ### Droop (R427) -/

/-- DROOP_DETECT: the clock period of domain `d` doubles, an episode that counts. -/
def droopDetect (d : Nat) (s : State) : State :=
  if s.kiln.droop.contains d then s
  else bump (setKiln s { s.kiln with droop := s.kiln.droop ++ [d] }) F.KILN_DROOP_COUNT 1

/-- DROOP_DETECT. -/
def execDroopDetect (d : Nat) (s : State) : Host.Outcome State Fault Refusal := .next (droopDetect d s)

/-- DROOP_RECOVER: the clock period returns to normal. -/
def droopRecover (d : Nat) (s : State) : State := setKiln s { s.kiln with droop := s.kiln.droop.filter (· != d) }

/-- DROOP_RECOVER. -/
def execDroopRecover (d : Nat) (s : State) : Host.Outcome State Fault Refusal := .next (droopRecover d s)

/-! ### Voltage and frequency (R428 to R430) -/

/-- The lowest ARRAY point whose fused frequency is at least `f` (R428). -/
def pointFor (s : State) (f : Nat) : Nat := ((List.range 11).find? (fun i => decide (f ≤ nth s.fuse.arrCurve i 0))).getD 10

/-- Set point of a point, in mV. -/
def pointMv (i : Nat) : Nat := 600 + 25 * i

/-- An ACLK frequency within its limits (R396, R429). -/
def aclkClamp (s : State) (f : Nat) : Nat := max 500 (min f s.fuse.aclkMax)

/-- The frequency the kiln knows is to come (R429): of the ceiling announced last, or TARGET_MHZ. -/
def aclkWanted (s : State) : Nat :=
  if isSet s F.TICK_CTL_ENABLE then aclkClamp s ((s.tick.nextCeil.map (·.2)).getD s.tick.ceiling) else getF s F.KILN_ACLK_TARGET_MHZ

/-- The point the ARRAY rail steps to. -/
def arrGoal (s : State) : Nat := pointFor s (max (aclkWanted s) (getF s F.KILN_ACLK_CUR_MHZ))

/-- A 25 mV step of the ARRAY rail ends; two steps start at least 1 ms apart, and a step slews in at most 50 µs (R428). -/
def arrStep (s : State) : State :=
  let k := s.kiln
  if arrGoal s = k.point ∨ k.stepAt.any (fun t => decide (s.timeP < t + 950000)) then s
  else
    let p := if k.point < arrGoal s then k.point + 1 else k.point - 1
    setKiln s { k with point := p, top := max k.top p, stepAt := some s.timeP }

/-- VOLTAGE_STEP of rail 0 (ARRAY) or 1 to 8 (host cores) at time `t`. -/
def voltageStep (rail t : Nat) (s : State) : State :=
  let s := atPort t s
  if rail = 0 then arrStep s
  else if rail ≤ 8 ∧ nth s.kiln.hcUp (rail - 1) false then
    let c := rail - 1
    hcApply (setKiln s { s.kiln with hcPoint := s.kiln.hcPoint.set c (min 12 (nth s.kiln.hcPoint c 0 + 1)), hcUp := s.kiln.hcUp.set c false }) c
  else s

/-- VOLTAGE_STEP. -/
def execVoltageStep (rail t : Nat) (s : State) : Host.Outcome State Fault Refusal := .next (voltageStep rail t s)

/-- When the next edge comes: as announced, or a period after the last one (R38). -/
def edgeToCome (s : State) : Nat :=
  match s.cwy.ann with
  | some a => if s.tick.edge < a.edge then a.edge else nextEdge s
  | none => nextEdge s

/-- ACLK may change now: in the last microsecond before an edge, or while no edges are generated (R43, R61, R429). -/
def aclkMoves (s : State) : Bool :=
  (!isSet s F.TICK_CTL_ENABLE && !s.tick.running) || (decide (edgeToCome s ≤ s.timeP + 1000) && decide (s.timeP ≤ edgeToCome s))

/-- ACLK_CHANGE at time `t`, in the microsecond before an edge (R43, R61, R429): a lower frequency applies at once, a higher one as far as the settled voltage
supports it. -/
def aclkChange (t : Nat) (s : State) : State :=
  let s := atPort t s
  if aclkMoves s = false then s else
  let cur := getF s F.KILN_ACLK_CUR_MHZ
  let f := if isSet s F.TICK_CTL_ENABLE then
      aclkClamp s (match s.tick.nextCeil with
        | some (n, v) => if n ≤ s.tick.num + 1 ∨ s.tick.running = false then v else s.tick.ceiling
        | none => s.tick.ceiling)
    else getF s F.KILN_ACLK_TARGET_MHZ
  setF s F.KILN_ACLK_CUR_MHZ (if f ≤ cur then f else max cur (min f (nth s.fuse.arrCurve s.kiln.point 0)))

/-- ACLK_CHANGE. -/
def execAclkChange (t : Nat) (s : State) : Host.Outcome State Fault Refusal := .next (aclkChange t s)

/-! ### Availability (R431, R432) -/

/-- MARGIN_PCT of the plan in force, or 8. -/
def marginNow (s : State) : Nat := ((planNow s).map (·.margin)).getD 8

/-- A candidate frequency qualifies (R431), with `d` in units of 1/65,536 and `v` the highest set point in mV. -/
def availOk (s : State) (d f v f2 : Nat) : Bool :=
  let v2 := pointMv (pointFor s f2)
  decide ((100 - marginNow s) * (f2 * v2 * v2) * 65536 ≤ (65536 - min d 65536) * (f * v * v) * 100)

/-- The highest candidate from 500 + `n` MHz down that qualifies, or 500. -/
def availFrom (s : State) (d f v : Nat) : Nat → Nat
  | 0 => 500
  | n + 1 => if availOk s d f v (501 + n) then 501 + n else availFrom s d f v n

/-- avail_w of a window (R431). -/
def availOf (s : State) (d : Nat) : Nat :=
  let f := getF s F.KILN_ACLK_CUR_MHZ
  let a := availFrom s d f (pointMv (max s.kiln.top s.kiln.point)) (s.fuse.aclkMax - 500)
  if isSet s F.KILN_STAT_THROTTLING then min a f else a

/-- The lower of a value and one gathered before. -/
def lower (o : Option Nat) (v : Nat) : Nat := match o with
  | some x => min x v
  | none => v

/-- AVAIL_WINDOW: a 100 µs window ends, with ACLK fraction `d` in units of 1/65,536. -/
def availWindow (d : Nat) (s : State) : State :=
  if s.tick.running = false then s
  else
    let a := availOf s d
    let k := s.kiln
    let pace := if marginNow s * 65536 < d * 100 then some (lower k.pace a) else k.pace
    setF (setKiln s { k with avail := some (lower k.avail a), pace := pace, top := k.point }) F.KILN_STAT_AVAIL_MHZ a

/-- AVAIL_WINDOW. -/
def execAvailWindow (d : Nat) (s : State) : Host.Outcome State Fault Refusal := .next (availWindow d s)

/-! ### Thermal control (R433 to R435) -/

/-- The three levels in quarters of a degree (R433, R442). -/
def warnQ (s : State) : Int := 4 * (getF s F.KILN_TH_WARN_C : Int)
def throttleQ (s : State) : Int := 4 * (max (getF s F.KILN_TH_THROTTLE_C) (getF s F.KILN_TH_WARN_C) : Nat)
def tripQ (s : State) : Int := 4 * (max (getF s F.KILN_TH_TRIP_C) (max (getF s F.KILN_TH_THROTTLE_C) (getF s F.KILN_TH_WARN_C)) : Nat)

/-- A reading at or above trip (R435): the record is saved, FAULT_N is low, and the compute die, its clocks gated through DC_CLKSTOP (R12),
is off, or with a sensor from 16 on the port base too, which drives that line. -/
def thermalTrip (s : State) : State :=
  let deep := (s.kiln.temps.drop 16).any (fun t => decide (tripQ s ≤ t))
  let s := raise s true 0x0234 3 none kilnBlock 0xFFFF []
  let s := if s.kiln.ember = 2 then s else saveFaults s 1
  let s := if deep then allOff s else (let s := compOff s; { s with pwr := { s.pwr with dcClkStop := true } })
  { s with flt := { s.flt with faultN := true, restarting := false }, kiln := { s.kiln with tripped := true, ember := 0 },
           emn := { s.emn with sealKey := false } }

/-- THERMAL_SAMPLE at time `t`: the 24 sensors are read, in quarters of a degree; in Ember only sensors 16 to 23 (R433, R438). -/
def thermalSample (temps : List Int) (t : Nat) (s : State) : State :=
  let s := atPort t s
  let new := (List.range 24).map (fun i => if s.kiln.ember = 2 ∧ i < 16 then nth s.kiln.temps i 0 else nth temps i (nth s.kiln.temps i 0))
  let k := s.kiln
  let hot := new.any (fun x => decide (warnQ s ≤ x))
  let cool := new.all (fun x => decide (x < warnQ s - 12))
  let warn := hot && !k.warned
  let s := setKiln s { k with temps := new, warned := (k.warned || hot) && !cool,
                              coolSince := if new.all (fun x => decide (x < throttleQ s - 12)) then some (k.coolSince.getD s.timeP) else none }
  let s := if warn then kilnRaise s 0x0232 else s
  let s := if new.any (fun x => decide (throttleQ s ≤ x)) ∧ isSet s F.KILN_STAT_THROTTLING = false then
      let c := getF s F.KILN_CAP_CAP_QW
      kilnRaise (setF (setKiln s { s.kiln with cap := c, capAt := some s.timeP }) F.KILN_STAT_THROTTLING 1) 0x0233
    else s
  if new.any (fun x => decide (tripQ s ≤ x)) ∧ s.kiln.tripped = false then thermalTrip s else s

/-- THERMAL_SAMPLE. -/
def execThermalSample (temps : List Int) (t : Nat) (s : State) : Host.Outcome State Fault Refusal := .next (thermalSample temps t s)

/-- THERMAL_CAP_STEP at time `t` (R434): down by 1 W every 10 ms, or up by 1 W every 100 ms until the cap reaches CAP_QW. -/
def thermalCapStep (t : Nat) (s : State) : State :=
  let s := atPort t s
  let k := s.kiln
  let after := fun (n : Nat) => k.capAt.all (fun x => decide (x + n ≤ s.timeP))
  if isSet s F.KILN_STAT_THROTTLING = false then s
  else if k.temps.any (fun x => decide (throttleQ s ≤ x)) then
    (if after 10000000 then setKiln s { k with cap := max 100 (k.cap - 4), capAt := some s.timeP } else s)
  else if k.coolSince.any (fun x => decide (x + 100000000 ≤ s.timeP)) ∧ after 100000000 then
    let c := min (getF s F.KILN_CAP_CAP_QW) (k.cap + 4)
    let s := setKiln s { k with cap := c, capAt := some s.timeP }
    if c = getF s F.KILN_CAP_CAP_QW then setF s F.KILN_STAT_THROTTLING 0 else s
  else s

/-- THERMAL_CAP_STEP. -/
def execThermalCapStep (t : Nat) (s : State) : Host.Outcome State Fault Refusal := .next (thermalCapStep t s)

/-! ### Input supply (R436) -/

/-- VIN_FAULT: every domain but Ember's is off, the DRAM rails too. -/
def vinFault (s : State) : State :=
  let s := raise s true 0x0236 3 none kilnBlock 0xFFFF []
  let s := loseDram (allOff s)
  { s with flt := { s.flt with faultN := true, restarting := false }, kiln := { s.kiln with vinFault := true, ember := 0, badSince := none, goodSince := none },
           emn := { s.emn with sealKey := false } }

/-- Below 6.0 V the Ember domain resets, and nothing but flash, fuses and straps remains (R436). -/
def vinLost (s : State) : State :=
  let e := s.emn
  let s := loseDram (allOff s)
  { s with mem := [], flt := {}, kiln := {},
           emn := { journal := e.journal, slots := e.slots, dbgCount := e.dbgCount, trnOwner := e.trnOwner, straps := e.straps, resetLow := e.resetLow } }

/-- VIN_SAMPLE at time `t`, in mV. -/
def vinSample (mv t : Nat) (s : State) : State :=
  let s := atPort t s
  let k := s.kiln
  let inRange := decide (10800 ≤ mv) && decide (mv ≤ 13200)
  let bad := decide (mv < 9600) || decide (14000 < mv)
  let since := fun (b : Bool) (o : Option Nat) => if b then some (o.getD s.timeP) else none
  let lasts := fun (o : Option Nat) (n : Nat) => o.any (fun x => decide (x + n ≤ s.timeP))
  if mv < 6000 then vinLost s
  else
    let k := { k with rangeSince := since (!inRange) k.rangeSince, badSince := since bad k.badSince, goodSince := since inRange k.goodSince }
    let due := lasts k.rangeSince 1000000 && secondPast s k.rangeAt
    let s := setKiln s { k with rangeAt := if due then some s.timeP else k.rangeAt }
    let s := if due then kilnRaise s 0x0235 else s
    if lasts k.badSince 10000 ∧ k.vinFault = false then vinFault s
    else if k.vinFault ∧ lasts k.goodSince 10000000 ∧ s.emn.resetLow = false then coldBoot s.emn.straps s
    else s

/-- VIN_SAMPLE. -/
def execVinSample (mv t : Nat) (s : State) : Host.Outcome State Fault Refusal := .next (vinSample mv t s)

/-! ### Ember (R437 to R439, R451 to R453) -/

/-- The completion of a command that is stopped (R410, R437). -/
def abortCqe (e : Bytes) : Bytes := e.take 3 ++ [8] ++ leBytes 2 0 ++ (e.drop 6).take 2 ++ List.replicate 24 0

/-- The running commands of a function complete with STATUS 8. -/
def abortFn (f : HifFn) : HifFn :=
  { f with rings := f.rings.map (fun r => { r with running := r.running.map (fun x => (abortCqe x.1, x.2)), hello := if r.running.isSome then none else r.hello }) }

/-- ENTER is refused (R437, R492). -/
def emberRefused (s : State) : Bool :=
  isSet s F.TICK_CTL_ENABLE || !s.tick.armed.isEmpty || s.kiln.tripped || s.kiln.vinFault || s.flt.held

/-- Entry to Ember begins: the host command interface stops fetching, and the scheduler discards every step (R437 steps 1 and 2). -/
def emberBegin (s : State) : State :=
  let s := setF s F.HIF_DEVSTAT_BOOT 5
  let s := { s with kiln := { s.kiln with ember := 1 }, hif := { s.hif with fns := s.hif.fns.map abortFn } }
  (List.range 8).foldl (fun s p => discardSteps s p 3) s

/-- The write of KILN_EMBER (R437, R440, R442): its fields, and with ENTER a request of the system partition. -/
def kilnEmberWrite (m : Master) (v : Nat) (s : State) : State :=
  gated s true kilnBlock 0x78 m v (fun s =>
    let s := setF (setF (w1c s F.KILN_EMBER_REFUSED v) F.KILN_EMBER_WAKE_EN (bitsOf v 1 3)) F.KILN_EMBER_WAKE_MS (bitsOf v 8 24)
    if bitOf v 0 = false ∨ m.part ≠ 0 ∨ s.kiln.ember ≠ 0 then s
    else if emberRefused s then setF s F.KILN_EMBER_REFUSED 1
    else emberBegin s)

/-- EMBER_ENTER: KILN_EMBER is written with ENTER = 1. -/
def execEmberEnter (m : Master) (v : BitVec 31) (s : State) : Host.Outcome State Fault Refusal :=
  .next (kilnEmberWrite m (2 * v.toNat + 1) s)

/-- The trained settings of each channel (R367). -/
def trained (s : State) : Tab TrnRes := s.drc.trn.map (fun x => (x.1, { deskew := x.2.deskew }))

/-- EMBER_ENTRY_COMPLETE at time `t`: an update is abandoned, the digest is sealed, and all but the Ember domain and the DRAM rails is off
(R437, R438, R451, R457). The wake settings and Emino's debug state outlast the port base domain. -/
def emberEntered (t : Nat) (s : State) : State :=
  let s := atPort t s
  if s.kiln.ember ≠ 1 ∨ s.drc.zero ≠ [] then s
  else
    let s := if s.emn.update.isSome then updDone s 4 else s
    let rec_ := s.emn.booted.map (fun r => ({ seq := r.seq, svn := ((slotImg s r.slot).map (·.svn)).getD 0, xts := s.drc.xts } : Sealed))
    let kept := if isSet s F.DRC_STAT_READY then some (getF s F.DRC_CFG_HASH, getF s F.DRC_CFG_IBECC, getF s F.DRC_CFG_PAGE_DEFAULT, trained s) else none
    let keep := [F.KILN_EMBER_WAKE_EN, F.KILN_EMBER_WAKE_MS, F.KILN_EMBER_LAST_WAKE, F.EMN_DBG_OPEN, F.EMN_DBG_FAILS].map (fun x => (x, getF s x))
    let s := keep.foldl (fun s x => setF s x.1 x.2) (allOff s)
    { s with emn := { s.emn with sealed_ := rec_, sealKey := true, drcKept := kept }, kiln := { s.kiln with ember := 2, emberAt := s.timeP } }

/-- EMBER_ENTRY_COMPLETE. -/
def execEmberEntryComplete (t : Nat) (s : State) : Host.Outcome State Fault Refusal := .next (emberEntered t s)

/-- The conditions of R452; `good` says that the record's HMAC and every copy's digest hold. -/
def rekindles (s : State) (good : Bool) : Bool :=
  s.emn.sealKey && good && (match s.emn.sealed_ with
    | some x => topSeq s.emn.journal == x.seq && decide (s.fuse.svn ≤ x.svn)
    | none => false)

/-- A wake source is enabled and, for the timer, has run out (R439). -/
def wakes (s : State) (src : Nat) : Bool :=
  (src == 1 || src == 2 || src == 3) && bitOf (getF s F.KILN_EMBER_WAKE_EN) (src - 1)
    && (src != 3 || (getF s F.KILN_EMBER_WAKE_MS != 0 && decide (s.kiln.emberAt + 1000000 * getF s F.KILN_EMBER_WAKE_MS ≤ s.timeP)))

/-- The DRAM controllers take the settings that Ember entry kept, leave self-refresh and retrain before they admit a requester (R367, R453). -/
def restoreDrc (s : State) : State :=
  match s.emn.drcKept with
  | none => s
  | some (h, e, p, t) =>
    let s := setF (setF (setF s F.DRC_CFG_HASH h) F.DRC_CFG_IBECC e) F.DRC_CFG_PAGE_DEFAULT p
    let s := setF (setF s F.DRC_CFG_INIT 1) F.DRC_STAT_READY 1
    { s with emn := { s.emn with drcKept := none }, drc := { s.drc with trn := t } }

/-- The XTS regions of the sealed record are as before Ember (R451, R452). -/
def restoreXts (s : State) : State := { s with drc := { s.drc with xts := (s.emn.sealed_.map (·.xts)).getD [] } }

/-- EMBER_WAKE by source 1 (host), 2 (WAKE_N) or 3 (timer) at time `t`: rekindle, or the cold path from the journal on (R439, R452, R453). -/
def emberWake (src : Nat) (good : Bool) (t : Nat) (s : State) : State :=
  let s := atPort t s
  if s.kiln.ember ≠ 2 ∨ wakes s src = false ∨ s.kiln.tripped ∨ s.kiln.vinFault then s
  else
    let s := setF { s with kiln := { s.kiln with ember := 0 }, pwr := { s.pwr with portOn := true } } F.KILN_EMBER_LAST_WAKE src
    if rekindles s good then
      let r := (slotRecs s.emn.journal).head?
      let sq := (r.map (·.seq)).getD 0
      let conf := r.any (jConfirmed s.emn.journal)
      let s := setF (setF (setF (setF s F.EMN_BOOT_STAT_STAGE 4) F.EMN_BOOT_STAT_SEQ sq) F.EMN_BOOT_STAT_SLOT ((r.map (·.slot)).getD 0))
        F.EMN_BOOT_STAT_TRIAL (if conf then 0 else 1)
      followConfirmed (loadImages (restoreXts (restoreDrc { s with pwr := { s.pwr with compOn := true }, emn := { s.emn with booted := r } })))
    else
      let s := selectImage { s with emn := { s.emn with sealed_ := none } }
      if s.emn.booted.isSome then restoreDrc s else s

/-- EMBER_WAKE. -/
def execEmberWake (src : Nat) (good : Bool) (t : Nat) (s : State) : Host.Outcome State Fault Refusal := .next (emberWake src good t s)

end Sys2Proof.Machine
end

