-- ==== Sys2Proof/Machine/Security.lean ====
section
/-! DEFINITION. Partitions (R462 to R464, R474, R475), debug access (R471, R472) and attestation (R476, R477). -/

namespace Sys2Proof.Machine

/-- Emino as a master (R465, R509). -/
def emino : Master := { code := 19, secure := true }

/-- Array-only regions `f` allows are written with zero and opened (R136). -/
def clearAo (s : State) (f : Nat → Bool) : State :=
  (List.range 256).foldl (fun s g =>
    if f g ∧ bitOf (getF s (F.MAP_AO_AO (g / 32))) (g % 32) then
      setF (zeroMem s (mapBase + g * 0x100000) 0x100000) (F.MAP_AO_AO (g / 32)) (clearBit (getF s (F.MAP_AO_AO (g / 32))) (g % 32))
    else s) s

/-- RESULT of the last partition command (R464). -/
def partResult (s : State) (r : Nat) : State := setF s F.EMN_PART_STAT_RESULT r

/-- Emino reads `n` bytes, row by row; `none` where the data is poisoned. -/
def eminoRead (s : State) (a n : Nat) : State × Option Bytes := netRead s emino (n / 512 + 2) a n

/-! ### CREATE (R463, R464) -/

/-- The four DRAM regions of a descriptor, base and size in bytes; size 0 is no region. -/
def descRegions (d : Bytes) : List (Nat × Nat) :=
  (List.range 4).map (fun i => (bitsOf (leAt d (16 + 8 * i) 8) 21 27 * 0x200000, bitsOf (leAt d (16 + 8 * i) 8) 48 16 * 0x200000))

/-- The partition a descriptor describes (R463). -/
def descPart (d : Bytes) : Part :=
  { st := 1, cores := leAt d 1 1, banks := leAt d 4 4, qBase := leAt d 8 2, qCount := leAt d 10 2, ispCtx := leAt d 12 4, regions := descRegions d,
    sBase := leAt d 48 2, sCount := leAt d 50 2, meas := Config.sha384 d }

/-- Two ranges of `na` and `nb` from `a` and `b` meet. -/
def meets (a na b nb : Nat) : Bool := decide (0 < na) && decide (0 < nb) && decide (a < b + nb) && decide (b < a + na)

/-- Two partitions own something in common (R463). -/
def partsMeet (x y : Part) : Bool :=
  Nat.land x.cores y.cores != 0 || Nat.land x.banks y.banks != 0 || Nat.land x.ispCtx y.ispCtx != 0 || meets x.qBase x.qCount y.qBase y.qCount
    || meets x.sBase x.sCount y.sBase y.sCount || x.regions.any (fun r => y.regions.any (fun q => meets r.1 r.2 q.1 q.2))

/-- DRAM that holds data: below the in-band ECC limit where that is on (R369). -/
def dramLimit (s : State) : Nat := if isSet s F.DRC_CFG_IBECC then ibeccLimit else 0x800000000

/-- A descriptor is valid for partition `p` (R463, R464): its number, its reserved bits, its ranges, the lay-by area inside one region, and
nothing that another partition owns. -/
def descOk (s : State) (p : Nat) (d : Bytes) : Bool :=
  let x := descPart d
  let lby := leAt d 56 8
  leAt d 0 1 == p && leAt d 2 2 == 0 && decide (x.qBase + x.qCount ≤ 8192) && decide (x.sBase + x.sCount ≤ 2048)
    && (List.range 4).all (fun i => leAt d (16 + 8 * i) 8 % 0x200000 == 0) && decide (leAt d 52 4 < 2 ^ 18) && decide (lby < 2 ^ 48) && lby % 4096 == 0
    && x.regions.all (fun r => r.2 == 0 || decide (r.1 + r.2 ≤ dramLimit s)) && inRegions x lby 0x600000
    && s.parts.all (fun y => y.st == 0 || !partsMeet x y)

/-- Queues `base` to `base + n - 1` take a binding. -/
def bindQueues (s : State) (base n : Nat) (f : Queue → Queue) : State :=
  { s with qm := s.qm.filter (fun x => x.1 < base) ++ ((List.range n).map (fun i => (base + i, f (getQ s (base + i))))).filter (fun x => x.2 != {})
                   ++ s.qm.filter (fun x => base + n ≤ x.1) }

/-- CREATE of partition `p`. -/
def createPart (p : Nat) (s : State) : State :=
  let a := getF s F.EMN_PART_ADDR_LO_ADDR * 64 + getF s F.EMN_PART_ADDR_HI_ADDR * 2 ^ 32
  let r := eminoRead s a 64
  let s := r.1
  let d := r.2.getD []
  if p = 0 ∨ (getP s p).st ≠ 0 then partResult s 1
  else if r.2 = none ∨ descOk s p d = false then partResult s 2
  else if Nat.land (descPart d).banks s.sec.quar ≠ 0 then partResult s 3
  else
    let x := descPart d
    let lby := leAt d 56 8
    let s := setP (bindQueues s x.qBase x.qCount (fun q => { q with part := p })) p x
    let s := setF (setF (setF s (F.SCH_SHARE_US p) (leAt d 52 4)) (F.LBY_BASE_LO_ADDR p) (bitsOf lby 12 20)) (F.LBY_BASE_HI_ADDR p) (bitsOf lby 32 16)
    let key : Option KeySlot := some { key := Config.randomKey s.free }
    partResult { drawn s with sch := { s.sch with keys := tabPut s.sch.keys p key none } } 0

/-! ### LOAD_FW and START (R464) -/

/-- LOAD_FW of partition `p`; `ok` is the verdict on the image read back through the XTS path (R446). -/
def loadFw (p : Nat) (ok : Bool) (s : State) : State :=
  let x := getP s p
  let kib := getF s F.EMN_PART_ADDR_HI_LEN_KIB
  let src := getF s F.EMN_PART_ADDR_LO_ADDR * 64 + getF s F.EMN_PART_ADDR_HI_ADDR * 2 ^ 32
  let size := (kib + 2047) / 2048 * 0x200000
  if p = 0 ∨ x.st ≠ 1 then partResult s 1
  else match x.regions with
    | [] => partResult s 2
    | r :: _ =>
      let others := s.drc.xts.filter (fun t => t.base != r.1)
      if ok = false ∨ kib = 0 ∨ 12288 < kib ∨ r.2 < size ∨ 16 ≤ others.length then partResult s 2
      else
        let t := eminoRead s src (1024 * kib)
        match t.2 with
        | none => partResult t.1 2
        | some img =>
          let s := t.1
          let reg : Xts := { base := r.1, size := size, tags := Config.xtsTags s.free, keys := Config.randomXts s.free, lock := true }
          let s := { drawn s with drc := { s.drc with xts := others ++ [reg] } }
          let s := xtsSeal (memPut s r.1 img) r.1 (1024 * kib)
          let m := Config.sha384 (leBytes 48 x.meas.toNat ++ leBytes 48 (Config.sha384 img).toNat)
          partResult (setP s p { x with loads := x.loads + 1, meas := m }) 0

/-- START of partition `p`: its measurement is frozen, its cores start and VF p leaves ABSENT. -/
def startPart (p : Nat) (s : State) : State :=
  let x := getP s p
  if p = 0 ∨ x.st ≠ 1 ∨ x.loads = 0 then partResult s 1 else partResult (setP s p { x with st := 2, coresOn := true }) 0

/-! ### TEARDOWN and CYCLE_QUARTER (R470, R474, R475) -/

/-- A plan in force or in its fallback chain holds an item of a partition. -/
def planUses (s : State) (p : Nat) : Bool := (chainNow s).any (fun x => x.items.any (fun it => it.part == p))

/-- A partition's sessions are disabled. -/
def sessionsOff (s : State) (x : Part) : State :=
  { s with net := { s.net with mem := (List.range x.sCount).foldl (fun m i =>
      let a := 32 * (x.sBase + i)
      if bitOf (rdByte m a).toNat 0 then memWrite m a [rdByte m a &&& 0xFE#8] else m) s.net.mem } }

/-- Key slots 8p to 8p + 7 are withdrawn, with the containers they were released for (R470). -/
def dropKeys (s : State) (p : Nat) : State :=
  { s with sec := { s.sec with slots := tabDrop s.sec.slots (8 * p) 8, containers := s.sec.containers.filter (fun c => c.part != p) },
           sch := { s.sch with keys := tabPut s.sch.keys p none none } }

/-- Every L2 line of a partition is invalidated without write-back (R474). -/
def dropLines (s : State) (p : Nat) : State := setB s 17 { getB s 17 with parts := (getB s 17).parts.filter (· != p) }

/-- Steps 1 to 6 of a teardown (R474). -/
def teardownSteps (s : State) (p : Nat) : State :=
  let x := getP s p
  let s := setP s p { x with st := 3, coresOn := false }
  let s := { s with hif := { s.hif with fns := s.hif.fns.set (p + 1) { abortFn (getFn s (p + 1)) with milestone := none } } }
  let s := dropKeys (discardSteps s p 3) p
  let s := clearAo s (fun g => bitOf x.banks (g / 8))
  let s := ((List.range 8).filter (fun k => bitOf x.cores k)).foldl (fun s k => domainUp (domainDown s (domCore k)) (domCore k)) (dropLines s p)
  let s := sessionsOff (bindQueues s x.qBase x.qCount (fun _ => {})) x
  let s := ((List.range 32).filter (fun c => bitOf x.ispCtx c)).foldl (ctxenBit 0) s
  { s with drc := { s.drc with xts := s.drc.xts.filter (fun t => !inRegions x t.base t.size) } }

/-- TEARDOWN of partition `p`; the scrub engine then zeroes every region. -/
def teardown (p : Nat) (s : State) : State :=
  let x := getP s p
  if p = 0 ∨ ¬ (x.st = 1 ∨ x.st = 2) then partResult s 1
  else if planUses s p then partResult s 4
  else
    let s := teardownSteps s p
    let l := x.regions.filter (fun r => r.2 != 0)
    let s := { s with drc := { s.drc with zero := s.drc.zero ++ l.map (fun r => (r.1, r.2, true)) },
                      sec := { s.sec with cmd := some (4, p), scrubLeft := l.length } }
    setF (partResult s 0) F.EMN_PART_STAT_BUSY 1

/-- TEARDOWN_COMPLETE: the last region is zero, the banks are quarantined, and the partition is FREE (R474 step 8). -/
def teardownDone (s : State) : State :=
  match s.sec.cmd with
  | some (_, p) =>
    if s.sec.scrubLeft ≠ 0 then s
    else
      let s := { s with sec := { s.sec with cmd := none, quar := Nat.lor s.sec.quar (getP s p).banks } }
      setF (partResult (setP s p {}) 0) F.EMN_PART_STAT_BUSY 0
  | none => s

/-- TEARDOWN_COMPLETE. -/
def execTeardownComplete (s : State) : Host.Outcome State Fault Refusal := .next (teardownDone s)

/-- CYCLE_QUARTER: a Map Store quarter is powered down and up, and its quarantined banks are free (R475). -/
def cycleQuarter (q : Nat) (s : State) : State :=
  let mask := 255 * 2 ^ (8 * q)
  if s.parts.any (fun x => x.st != 0 && Nat.land x.banks mask != 0) then partResult s 1
  else
    let s := domainUp (domainDown s (domQuarter q)) (domQuarter q)
    partResult { s with sec := { s.sec with quar := s.sec.quar - Nat.land s.sec.quar mask } } 0

/-- Emino is handling another command, an update or Ember entry (R464). -/
def eminoBusy (s : State) : Bool := s.sec.cmd.isSome || s.emn.update.isSome || s.kiln.ember != 0

/-- The write of EMN_PART_CMD (R464, R480). -/
def partCmdWrite (m : Master) (v : Nat) (ok : Bool) (s : State) : State :=
  gated s true 4 0x38 m v (fun s =>
    let p := bitsOf v 0 3
    let c := bitsOf v 3 3
    if c = 0 ∨ 5 < c then s
    else if eminoBusy s then partResult s 5
    else match c with
      | 1 => createPart p s
      | 2 => loadFw p ok s
      | 3 => startPart p s
      | 4 => teardown p s
      | _ => cycleQuarter (bitsOf v 6 2) s)

/-- CREATE. -/
def execCreate (m : Master) (p : BitVec 3) (s : State) : Host.Outcome State Fault Refusal := .next (partCmdWrite m (p.toNat + 8 * 1) true s)
/-- LOAD_FW. -/
def execLoadFw (m : Master) (p : BitVec 3) (ok : Bool) (s : State) : Host.Outcome State Fault Refusal :=
  .next (partCmdWrite m (p.toNat + 8 * 2) ok s)
/-- PART_START. -/
def execPartStart (m : Master) (p : BitVec 3) (s : State) : Host.Outcome State Fault Refusal := .next (partCmdWrite m (p.toNat + 8 * 3) true s)
/-- TEARDOWN. -/
def execTeardown (m : Master) (p : BitVec 3) (s : State) : Host.Outcome State Fault Refusal := .next (partCmdWrite m (p.toNat + 8 * 4) true s)
/-- CYCLE_QUARTER. -/
def execCycleQuarter (m : Master) (q : BitVec 2) (s : State) : Host.Outcome State Fault Refusal :=
  .next (partCmdWrite m (8 * 5 + 64 * q.toNat) true s)

/-! ### Authenticated debug (R471, R472) -/

/-- DEBUG_CHALLENGE: Emino draws a fresh challenge (R471). -/
def debugChallenge (s : State) : State :=
  if isSet s F.EMN_DBG_OPEN ∨ getF s F.EMN_DBG_FAILS = 3 then s
  else { drawn s with sec := { s.sec with challenge := some (Config.randomKey s.free) } }

/-- DEBUG_CHALLENGE. -/
def execDebugChallenge (s : State) : Host.Outcome State Fault Refusal := .next (debugChallenge s)

/-- Debug opens (R472): every key, lay-by key and parked step is gone, every array-only region is cleared, and the opening is counted. -/
def debugOpen (s : State) : State :=
  let s := { s with sec := { s.sec with slots := [] }, sch := { s.sch with keys := [] } }
  let gone := s.sch.parked
  let s := settleParked (gone.foldl (fun s x => postStep s x 3) { s with sch := { s.sch with parked := [], resume := none } })
  let s := clearAo s (fun _ => true)
  let s := setF s F.EMN_DBG_OPEN 1
  emnRaise { s with emn := { s.emn with dbgCount := min 0xFFFF (s.emn.dbgCount + 1) } } 0x0243

/-- DEBUG_RESPONSE: `ok` is the verdict on the signature over challenge and device identity by a fused, unrevoked authority (R471). -/
def debugResponse (ok : Bool) (s : State) : State :=
  if s.sec.challenge.isNone ∨ isSet s F.EMN_DBG_OPEN ∨ getF s F.EMN_DBG_FAILS = 3 then s
  else
    let s := { s with sec := { s.sec with challenge := none } }
    if ok then debugOpen s else bump s F.EMN_DBG_FAILS 1

/-- DEBUG_RESPONSE. -/
def execDebugResponse (ok : Bool) (s : State) : Host.Outcome State Fault Refusal := .next (debugResponse ok s)

/-! ### Attestation (R476, R477) -/

/-- The attestation unit of a partition. -/
def getAtt (s : State) (p : Nat) : Att := tabGet s.sec.att p {}
/-- The state with one replaced. -/
def setAtt (s : State) (p : Nat) (x : Att) : State := { s with sec := { s.sec with att := tabPut s.sec.att p x {} } }

/-- The components of the booted image. -/
def bootedComps (s : State) : List Nat := match s.emn.booted with
  | some r => match slotImg s r.slot with
    | some x => x.comps.flatMap (fun c => [c.1, r.slot, x.svn, c.2.toNat])
    | none => []
  | none => []

/-- The values of the payload's keys 1 and 3 to 9, in order (R477). A partition being torn down has no containers (R478). -/
def attPayload (s : State) (nonce : Bytes) : List (List Nat) :=
  let ps := s.parts.zipIdx
  [[s.fuse.uid], nonce.map BitVec.toNat, [s.tick.num, s.timeP], bootedComps s,
   ps.flatMap (fun x => [x.2, x.1.st, x.1.meas.toNat] ++ (s.sec.containers.filter (fun c => c.part == x.2)).map (fun c => c.digest.toNat)),
   ps.flatMap (fun x => [x.2, x.1.cores, x.1.banks] ++ x.1.regions.flatMap (fun r => [r.1, r.2]) ++ [x.1.qBase, x.1.qCount]),
   [s.fuse.svn, if s.fuse.pqc then 1 else 0, s.fuse.revoked, Nat.lor s.fuse.colBad s.fuse.colBlown],
   [getF s F.EMN_DBG_OPEN, s.emn.dbgCount]]

/-- The request record lies in the partition's memory. -/
def inPartMem (s : State) (p a n : Nat) : Bool := sameRegion a n && filterPass s { code := 19, part := p } a n

/-- ATTESTATION_REQUEST: GO is written in the copy of the master's partition (R476, R480). -/
def attRequest (m : Master) (s : State) : State :=
  gated s true 4 0x58 m 1 (fun s =>
    let x := getAtt s m.part
    if x.busy then s
    else if inPartMem s m.part x.addr 64 = false then setAtt s m.part { x with result := 2, len := 0 }
    else
      let t := eminoRead s x.addr 64
      let s := t.1
      let r := t.2.getD []
      let n := leAt r 12 4
      let nonce := if 1 ≤ n ∧ n ≤ 48 then (r.drop 16).take n else Config.oddNonce r
      if t.2 = none then setAtt s m.part { x with result := 2, len := 0 }
      else setAtt s m.part { x with busy := true, out := leAt r 0 8 % 2 ^ 48, outBytes := leAt r 8 4, payload := attPayload s nonce })

/-- ATTESTATION_REQUEST. -/
def execAttestationRequest (m : Master) (s : State) : Host.Outcome State Fault Refusal := .next (attRequest m s)

/-- ATTESTATION_DONE of partition `p`: the report of the snapshot is written, where the buffer holds it (R476, R477). -/
def attDone (p : Nat) (s : State) : State :=
  let x := getAtt s p
  if x.busy = false then s
  else
    let r := Config.coseReport x.payload
    if x.outBytes < r.length then setAtt s p { x with busy := false, result := 1, len := 0 }
    else
      let s := netWrite s { code := 19, part := p } (r.length / 512 + 1) x.out r
      setAtt s p { x with busy := false, result := 0, len := r.length }

/-- ATTESTATION_DONE. -/
def execAttestationDone (p : Nat) (s : State) : Host.Outcome State Fault Refusal := .next (attDone p s)

end Sys2Proof.Machine
end

