-- ==== Sys2Proof/Machine/Pins.lean ====
section
/-! DEFINITION. The SFP28 cages' supplies and the PPS output (R521, R522). -/

namespace Sys2Proof.Machine

/-- VMOD of a cage is driven: the network domain is powered, MOD_ABS reads low, and the cage is not latched off (R522); in Ember it
is off. -/
def vmodOn (s : State) (port : Nat) : Bool :=
  nth s.pins.modIn port false && !nth s.pins.latched port false && powered s domNet && s.pwr.portOn && s.kiln.ember != 2

/-- MOD_ABS of a cage changes: low when a module is in (R522). -/
def modAbsChange (port : Nat) (low : Bool) (s : State) : State :=
  { s with pins := { s.pins with modIn := s.pins.modIn.set port low } }

/-- MOD_ABS_CHANGE. -/
def execModAbsChange (port : Fin 4) (low : Bool) (s : State) : Host.Outcome State Fault Refusal := .next (modAbsChange port.val low s)

/-- VMOD_OVERCURRENT: the cage is latched off until its port is next enabled, its link is down, what it has queued is dropped, and
NET_LINK_DOWN is raised (R378, R522). -/
def vmodOvercurrent (port : Nat) (s : State) : State :=
  if vmodOn s port then
    netRaise (flushPort (setF { s with pins := { s.pins with latched := s.pins.latched.set port true } } (F.NET_PORT_CFG_LINK port) 0) port)
      0x0210 none
  else s

/-- VMOD_OVERCURRENT. -/
def execVmodOvercurrent (port : Fin 4) (s : State) : Host.Outcome State Fault Refusal := .next (vmodOvercurrent port.val s)

/-- PPS_OUT is high (R521). -/
def ppsHigh (s : State) : Bool := netOn s && s.pins.ppsEnd.any (fun e => decide (s.timeP < e))

/-- PPS_OUT_PULSE: at a whole second `t` of 802.1AS time, PPS_OUT goes high for 10 µs while NET_CTL.ENABLE is 1 (R521). -/
def ppsPulse (t : Nat) (s : State) : State :=
  if netOn s ∧ t % 1000000000 = 0 then
    let s := atPort t s
    { s with pins := { s.pins with ppsEnd := some (t + 10000) } }
  else s

/-- PPS_OUT_PULSE. -/
def execPpsOutPulse (t : Nat) (s : State) : Host.Outcome State Fault Refusal := .next (ppsPulse t s)

end Sys2Proof.Machine
end

