-- ==== Sys2Proof/Machine/Rings.lean ====
section
/-! DEFINITION. The endpoint's functions and their rings (R401 to R408, R418, R419): ring registers, completions, events, resets. -/

namespace Sys2Proof.Machine

/-- Register block of the endpoint and the host command interface (R510). -/
def hifBlock : Nat := 18

/-- The partition of a function: the PF's is the system partition (R402). -/
def fnPart (g : Nat) : Nat := g - 1

/-- The function reads ABSENT: a VF whose partition does not run (R402, R464, R474). -/
def fnAbsent (s : State) (g : Nat) : Bool := g != 0 && (getP s (fnPart g)).st != 2 && (getP s (fnPart g)).st != 4

/-- The master that a function's accesses through its BARs are (R402, R509). -/
def fnMaster (g : Nat) : Master := { code := 10 + g, part := fnPart g, priv := g == 0 }

/-- The master that the host command interface is while it works for a function (R402, R509; log entry 110). -/
def hciMaster (g : Nat) : Master := { code := 39, part := fnPart g, priv := g == 0 }

/-- Offset of register `k` of ring `n` of function `g` in the block (R511). -/
def ringOff (g n k : Nat) : Nat := 0x1000 * (g + 1) + 0x100 + 0x40 * n + 4 * k

/-- A register write that comes through a function of an absent partition is dropped (R402). -/
def fnGated (s : State) (g o : Nat) (m : Master) (v : Nat) (act : State → State) : State :=
  if m.code = 10 + g ∧ fnAbsent s g then s else gated s false hifBlock o m v act

/-! ### HELLO takes effect (R411, R418) -/

/-- The highest version of the device in a host's range. -/
def commonVersion (vmin vmax : Nat) : Option Nat :=
  if vmin ≤ 2 ∧ 2 ≤ vmax then some 2 else if vmin ≤ 1 ∧ 1 ≤ vmax then some 1 else none

/-- A HELLO's completion is written, and the function's state changes (R411). -/
def helloApply (s : State) (g vmin vmax : Nat) : State :=
  let s := setF (setF s (F.HIF_FSTAT_HOST_VMIN g) vmin) (F.HIF_FSTAT_HOST_VMAX g) vmax
  match commonVersion vmin vmax with
  | some v => setF (setF (setF s (F.HIF_FSTAT_STATE g) 1) (F.HIF_FSTAT_REASON g) 0) (F.HIF_FSTAT_VERSION g) v
  | none => setF (setF (setF s (F.HIF_FSTAT_STATE g) 2) (F.HIF_FSTAT_REASON g) 1) (F.HIF_FSTAT_VERSION g) 0

/-- A completion entry is an event's (R408). -/
def isEvent (e : Bytes) : Bool := bitOf (nth e 6 0).toNat 1

/-- A completion is written; with a HELLO's, the function's state changes (R418). -/
def writeOut (s : State) (g n : Nat) (x : Bytes × Bool) : State :=
  let s := writeCqe s g n x.1 x.2
  match (getRing s g n).hello with
  | some (a, b) => if isEvent x.1 then s else helloApply (setRing s g n { getRing s g n with hello := none }) g a b
  | none => s

/-- Held completions are written into the free slots, oldest first (R408). -/
def flushHeld (g n : Nat) : List (Bytes × Bool) → State → State
  | [], s => setRing s g n { getRing s g n with held := [] }
  | x :: xs, s =>
    if (getRing s g n).cqUsed < cqSize s g n then flushHeld g n xs (writeOut s g n x)
    else setRing s g n { getRing s g n with held := x :: xs }

/-- COMMAND_COMPLETION: the running command of a ring ends, and its completion is written, or held while the completion ring is
full (R407, R408). -/
def complete (g n : Nat) (s : State) : State :=
  match (getRing s g n).running with
  | none => s
  | some x =>
    let s := setRing s g n { getRing s g n with running := none }
    if cqFree s g n then writeOut s g n x else setRing s g n { getRing s g n with held := (getRing s g n).held ++ [x] }

/-- COMMAND_COMPLETION. -/
def execCommandCompletion (g : Fin 9) (n : Fin 4) (s : State) : Host.Outcome State Fault Refusal := .next (complete g.val n.val s)

/-! ### Ring registers (R405, R406, R408) -/

/-- The value an entry count is stored as (R419). -/
def clampLog (v : Nat) : Nat := max 1 (min 12 v)

/-- HIF_RING_CFG_WRITE: ENABLE 0 sets the indices to 0; the RW-D fields change only while ENABLE is 0 (R405, R419). -/
def ringCfgWrite (m : Master) (g n v : Nat) (s : State) : State :=
  fnGated s g (ringOff g n 0) m v (fun s =>
    let open_ := !isSet s (F.HIF_RING_CFG_ENABLE g n)
    let sq := clampLog (bitsOf v 1 4)
    let cq := clampLog (bitsOf v 5 4)
    let vec := bitsOf v 9 4
    let ign := ignoredChange s open_ (F.HIF_RING_CFG_SQ_LOG2 g n) sq || ignoredChange s open_ (F.HIF_RING_CFG_CQ_LOG2 g n) cq
      || ignoredChange s open_ (F.HIF_RING_CFG_VECTOR g n) vec
    let s := if ign then cfgIgnored s false hifBlock (ringOff g n 0) m v else s
    let s := wrField (wrField (wrField s open_ (F.HIF_RING_CFG_SQ_LOG2 g n) sq) open_ (F.HIF_RING_CFG_CQ_LOG2 g n) cq) open_ (F.HIF_RING_CFG_VECTOR g n) vec
    let s := setF s (F.HIF_RING_CFG_ENABLE g n) (v % 2)
    let r := getRing s g n
    if v % 2 = 0 then
      flushHeld g n r.held (setRing s g n { r with head := 0, tail := 0, cqHead := 0, cqTail := 0, cqUsed := 0, phase := true })
    else if open_ then setRing s g n { r with err := false } else s)

/-- HIF_RING_CFG_WRITE. -/
def execHifRingCfgWrite (m : Master) (g : Fin 9) (n : Fin 4) (v : BitVec 32) (s : State) : Host.Outcome State Fault Refusal :=
  .next (ringCfgWrite m g.val n.val v.toNat s)

/-- A ring fails: its bit of RING_ERR is set, the pair is disabled, and nothing further is posted on it (R406). -/
def ringError (s : State) (g n : Nat) : State :=
  let s := setF s (F.HIF_FSTAT_RING_ERR g) (Nat.lor (getF s (F.HIF_FSTAT_RING_ERR g)) (2 ^ n))
  setRing (setF s (F.HIF_RING_CFG_ENABLE g n) 0) g n { getRing s g n with err := true, running := none, held := [], hello := none }

/-- HIF_SQTAIL_WRITE (R406). -/
def sqtailWrite (m : Master) (g n v : Nat) (s : State) : State :=
  fnGated s g (ringOff g n 5) m v (fun s =>
    if isSet s (F.HIF_RING_CFG_ENABLE g n) ∧ v < 2 ^ getF s (F.HIF_RING_CFG_SQ_LOG2 g n) then
      setRing s g n { getRing s g n with tail := v }
    else ringError s g n)

/-- HIF_SQTAIL_WRITE. -/
def execHifSqtailWrite (m : Master) (g : Fin 9) (n : Fin 4) (v : BitVec 32) (s : State) : Host.Outcome State Fault Refusal :=
  .next (sqtailWrite m g.val n.val v.toNat s)

/-- HIF_CQHEAD_WRITE: the slots from the old head up to the new one are free, and held completions are written into them (R406,
R408). A head beyond the ring frees nothing (log entry 111). -/
def cqheadWrite (m : Master) (g n v : Nat) (s : State) : State :=
  fnGated s g (ringOff g n 6) m v (fun s =>
    let size := cqSize s g n
    let r := getRing s g n
    if isSet s (F.HIF_RING_CFG_ENABLE g n) ∧ v < size then
      flushHeld g n r.held (setRing s g n { r with cqHead := v, cqUsed := r.cqUsed - (v + size - r.cqHead) % size })
    else s)

/-- HIF_CQHEAD_WRITE. -/
def execHifCqheadWrite (m : Master) (g : Fin 9) (n : Fin 4) (v : BitVec 32) (s : State) : Host.Outcome State Fault Refusal :=
  .next (cqheadWrite m g.val n.val v.toNat s)

/-! ### Events (R414) -/

/-- HIF_EVENT: the oldest entry of a queue bound to the host command interface is delivered into a free slot of completion ring 0 of
its partition's function (R414). -/
def hifEvent (q : Nat) (s : State) : State :=
  let u := getQ s q
  let g := if u.part = 0 then 0 else u.part + 1
  match u.entries with
  | [] => s
  | e :: _ =>
    if qBound u ∧ u.consumer = 23 ∧ g < 9 ∧ eventRing s g ∧ cqFree s g 0 then writeCqe (popQ s q) g 0 (eventCqe 0 e.data e.cairn) false else s

/-- HIF_EVENT. -/
def execHifEvent (q : Nat) (s : State) : Host.Outcome State Fault Refusal := .next (hifEvent q s)

/-! ### Resets and the link (R418, R519) -/

/-- A function returns to AWAITING_HELLO with its registers at their reset values; its commands post nothing (R418). -/
def fnReset (s : State) (g : Nat) : State :=
  resetRegs { s with hif := { s.hif with fns := s.hif.fns.set g {} } } (F.HIF_FSTAT_STATE g).addr 0x1000

/-- FLR of a function (R418). -/
def execFlr (g : Fin 9) (s : State) : Host.Outcome State Fault Refusal := .next (fnReset s g.val)

/-- PERST_N falls: the endpoint and the host command interface are reset, and the link is down (R519); or it rises. -/
def perstN (low : Bool) (s : State) : State :=
  if low then
    let s := (List.range 9).foldl fnReset s
    let s := resetRegs s (F.HIF_TRIAGE_PART).addr 0x70
    { s with hif := { s.hif with perst := true, linkUp := false } }
  else { s with hif := { s.hif with perst := false } }

/-- PERST_N. -/
def execPerstN (low : Bool) (s : State) : Host.Outcome State Fault Refusal := .next (perstN low s)

/-- PCIE_LINK_TRAINED: the link comes up once PERST_N is high and the compute die runs (R418, R519). -/
def linkTrained (s : State) : State :=
  if s.hif.perst ∨ compDown s then s else { s with hif := { s.hif with linkUp := true } }

/-- PCIE_LINK_TRAINED. -/
def execPcieLinkTrained (s : State) : Host.Outcome State Fault Refusal := .next (linkTrained s)

end Sys2Proof.Machine
end

