-- ==== Sys2Proof/Machine/Views.lean ====
section
/-! DEFINITION. What a register reads (R7, R502, R504): its stored fields, or what the block computes; and the reads that latch. -/

namespace Sys2Proof.Machine

/-- 1 for true. -/
def bit (b : Bool) : Nat := if b then 1 else 0

/-- A mask of the numbers below `n` that pass a test. -/
def maskOf (n : Nat) (f : Nat → Bool) : Nat := (List.range n).foldl (fun v i => if f i then v + 2 ^ i else v) 0

/-- The stored fields of a register at their places; write-only and reserved bits read 0 (R7, R507). -/
def storedValue (s : State) (fl : FieldList) : Nat :=
  fl.foldl (fun v x => if x.2 = .wo ∨ x.2 = .resv then v else v + getF s x.1 * 2 ^ x.1.lo) 0

/-- The stored value of a register without the fields that the block computes. -/
def flagsOf (s : State) (l : List Fld) : Nat := l.foldl (fun v x => v + getF s x * 2 ^ x.lo) 0

/-! ### Hexarel banks (R195) -/

/-- Code of an engine's state (R159). -/
def engStCode (g : EngSt) : Nat := match g with
  | .idle => 0 | .run => 1 | .wait => 2 | .held => 3 | .parked => 4

/-- The engine and the offset in its bank of a register of the compute die (R510). -/
def bankAt (b o : Nat) : Option (Nat × Nat) :=
  (List.range 12).findSome? (fun e =>
    let a := hxrBank e - blkBase false 0
    if b * 0x10000 + o < a ∨ a + 0x18 ≤ b * 0x10000 + o then none else some (e, b * 0x10000 + o - a))

/-- The registers of an engine's bank (R195); HXR_PRESET is stored. -/
def hxrView (s : State) (e o : Nat) : Option Nat :=
  let g := getE s e
  match o with
  | 0 => some (1 + levelMax s * 16 + Nat.log2 (storeWords e) * 256)
  | 4 => some (engStCode g.st + getF s (F.HXR_STAT_LEVEL_BAD e) * 8 + bit (engEnable s e) * 16 + g.cur % 2 ^ 14 * 256)
  | 8 => some (if g.st = .wait then g.waitQ.getD 0 % 8192 + 2 ^ 31 else 0)
  | _ => none

/-- An engine's item runs: the BUSY of its block. -/
def engBusy (s : State) (e : Nat) : Nat := bit ((getE s e).st != .idle && (getE s e).st != .parked)

/-! ### The compute die's blocks -/

/-- Word `j` of the log entry that RLOG_IDX selects (R509). -/
def rlogWord (s : State) (j : Nat) : Nat :=
  match tabGet s.rlog (getF s F.RLOG_IDX_IDX) none with
  | some e => rlogValue e / 2 ^ (32 * j) % 2 ^ 32
  | none => 0

/-- The device block (R509). -/
def devView (s : State) (o : Nat) : Option Nat :=
  match o with
  | 0x20 => some (0x0726 + if s.fuse.b1 then 0x110000 else 0)
  | 0x24 => some (s.fuse.uid % 2 ^ 32)
  | 0x28 => some (s.fuse.uid / 2 ^ 32 % 2 ^ 32)
  | 0x30 => some (s.rlogHead + flagsOf s [F.RLOG_STAT_WRAPPED, F.RLOG_STAT_COUNT])
  | _ => if 0x38 ≤ o ∧ o < 0x48 then some (rlogWord s ((o - 0x38) / 4)) else none

/-- The lay-by machine's status (R287). -/
def lbyStat (s : State) : Nat :=
  let p := (s.sch.run.map (·.part)).getD (s.sch.resume.getD 0)
  s.sch.phase % 4 + p % 8 * 4 + bit s.sch.run.isSome * 32 + maskOf 8 (fun p => s.sch.parked.any (fun x => x.part == p)) * 256
    + flagsOf s [F.LBY_STAT_CFG_IGNORED, F.LBY_STAT_SHAPE_DROP, F.LBY_STAT_LATE, F.LBY_STAT_AUTH]

/-- The array block (R96, R287). IN_SERVICE is 1 while W is 240 or more, as R96's table has it, also where R93 keeps the array out of service
until a reset (log entry 200). -/
def arrView (s : State) (o : Nat) : Option Nat :=
  match o with
  | 0x08 => some (0x7F + 7 * 2 ^ 8 + bit (chkAvail s) * 2 ^ 11 + bit (decide (240 ≤ widthW s)) * 2 ^ 12 + chkReason s * 2 ^ 13 + s.fuse.aclkMax * 2 ^ 16)
  | 0x14 => some (bit (arrBusy s) + bit (!s.arr.retireReq.isEmpty) * 2 + bit (!s.arr.settling.isEmpty) * 16 + widthW s * 2 ^ 8 + widthOn s * 2 ^ 17
      + flagsOf s [F.ARR_STAT_OUT_OF_SERVICE, F.ARR_STAT_CFG_IGNORED])
  | 0x30 => let i := getF s F.ARR_COLCNT_SEL_SEL; some (if i < 258 then min 255 (colCount s i) else 0)
  | 0x248 => some (lbyStat s)
  | _ =>
    if 0x40 ≤ o ∧ o < 0x60 then some (s.fuse.colBad / 2 ^ (8 * (o - 0x40)) % 2 ^ 32)
    else if 0x60 ≤ o ∧ o < 0x80 then some (s.arr.retired / 2 ^ (8 * (o - 0x60)) % 2 ^ 32)
    else if 0x204 ≤ o ∧ o < 0x240 ∧ o % 8 = 4 then
      some (min (2 ^ 18 - 1) (nth (chargeStep s).sch.meter ((o - 0x204) / 8) 0 / 1000))
    else none

/-- Accumulator memory (R156). -/
def accView (s : State) : Nat :=
  maskOf 8 (fun k => (getSlot s k).st == .live) + maskOf 8 (fun k => (getSlot s k).st == .draining) * 256 + flagsOf s [F.ACC_STAT_PARITY_ERRS]

/-- States of a window as CRD_WINSTAT reads them (R156). -/
def winStCode (x : WinSt) : Nat := match x with
  | .closed => 0 | .opened => 1 | .draining => 2 | .revoking => 3

/-- The credit unit's selected registers (R156); no window is selected above tile memory 23. -/
def crdView (s : State) (o : Nat) : Option Nat :=
  if o = 0x28 ∨ o = 0x30 ∨ o = 0x34 then
    match winSel s with
    | none => some 0
    | some (t, w) =>
      let x := getW s t w
      let d := tabGet s.crd.drops t (0, 0)
      some (if o = 0x28 then x.base % 1024 + x.rows % 1024 * 2 ^ 16 + x.part % 8 * 2 ^ 28
        else if o = 0x30 then winStCode x.st + x.epoch % 256 * 4 + x.outstanding % 1024 * 2 ^ 10 + x.pool % 1024 * 2 ^ 20
        else d.1 % 2 ^ 16 + d.2 % 256 * 2 ^ 16)
  else none

/-- The queue manager's selected registers (R196). -/
def qmView (s : State) (o : Nat) : Option Nat :=
  let u := getQ s (getF s F.QM_QSEL_Q)
  match o with
  | 0x24 => some (u.depth % 512 + u.consumer % 32 * 2 ^ 16 + u.part % 8 * 2 ^ 24)
  | 0x28 => some (u.entries.length % 512 + (u.entries.filter (·.cairn)).length % 512 * 2 ^ 9 + bit u.overflow * 2 ^ 18)
  | _ => none

/-- The image pipeline (R338). -/
def ispView (s : State) (o : Nat) : Option Nat :=
  let x := getI s (getF s F.ISP_CTXSEL_CTX)
  match o with
  | 0x14 => some (flagsOf s [F.ISP_STAT_CFG_IGNORED, F.ISP_STAT_CTX_REFUSED, F.ISP_STAT_UNTAKEN] + maskOf 4 (fun p => (getPipe s p).lane.isSome) * 4
      + min 1023 ((tableBytes s + 1023) / 1024) * 2 ^ 6)
  | 0x28 => some (x.recAddr % 2 ^ 32)
  | 0x2C => some (x.recAddr / 2 ^ 32 % 2 ^ 16)
  | 0x30 => some (x.wb.1 % 2 ^ 16 + x.wb.2.1 % 2 ^ 16 * 2 ^ 16)
  | 0x34 => some (x.wb.2.2 % 2 ^ 16)
  | _ => none

/-- The codecs' status (R349). -/
def cdcStat (s : State) : Nat :=
  let pair := fun k => (getJob s k).any (·.pair) || (getJob s (k + 1)).any (·.pair)
  maskOf 4 (fun k => (getJob s k).isSome) + bit (pair 0) * 16 + bit (pair 2) * 32 + flagsOf s [F.CDC_STAT_ERRORS]

/-- The channel with the longest run of skewed windows, the lowest among equals, and the run (R355). -/
def skewMost (l : List Nat) : Nat × Nat :=
  l.zipIdx.foldl (fun b x => if b.2 < x.1 then (x.2, x.1) else b) (0, 0)

/-- The DRAM controllers' computed registers (R376). -/
def drcView (s : State) (o : Nat) : Option Nat :=
  match o with
  | 0x24 => let k := skewMost s.drc.skew; some (k.1 % 16 + min 64 k.2 * 16 + maskOf 12 (fun r => withheld s r != 0) * 2 ^ 16)
  | 0x2C => some (flagsOf s [F.DRC_SCRUB_STAT_DONE] + min 4 (s.drc.zero.length - 1) * 2)
  | 0x38 =>
    let x := tabGet s.drc.trn (getF s F.DRC_TRN_SEL_CH) {}
    let b := getF s F.DRC_TRN_SEL_BIT
    some ((if b < 18 then nth x.errors b 0 % 2 ^ 24 + nth x.deskew b 0 % 128 * 2 ^ 24 else 0) + bit x.done * 2 ^ 31)
  | _ => none

/-- The host interface (R419): a VF of a partition that does not run reads ABSENT (R402). -/
def hifView (s : State) (o : Nat) : Option Nat :=
  if o = 0x14 then some (flagsOf s [F.HIF_DEVSTAT_BOOT, F.HIF_DEVSTAT_TRIAGE_LAPSED, F.HIF_DEVSTAT_PAUSED] + bit s.flt.faultN * 8)
  else if o % 0x1000 = 0 ∧ 0x1000 ≤ o ∧ fnAbsent s (o / 0x1000 - 1) then some 3
  else none

/-- A fault unit (R501). -/
def fltView (s : State) (p : Bool) (o : Nat) : Option Nat :=
  if o = 0x14 then
    some ((fltDie s p).queue.length % 64 + (if p then 0 else handlingCode s % 8 * 64) + flagsOf s [F.FLT_STAT_FAULT_LOST p, F.FLT_STAT_LOST_COUNT p])
  else if 0x40 ≤ o ∧ o < 0x80 then some (match (fltDie s p).recd with
    | some r => leAt (recBytes r) (o - 0x40) 4
    | none => 0)
  else none

/-- What a compute-die block computes for the register at an offset. -/
def compView (s : State) (b o : Nat) : Option Nat :=
  match bankAt b o with
  | some (e, k) => hxrView s e k
  | none =>
    match b with
    | 0 => devView s o
    | 1 => arrView s o
    | 2 => if o = 0x14 then some (engBusy s 1 + flagsOf s [F.DRN_STAT_CFG_IGNORED, F.DRN_STAT_OPT_SKIP, F.DRN_STAT_OPT_SKIPS]) else none
    | 3 => if o = 0x14 then some (accView s) else none
    | 5 => crdView s o
    | 6 => qmView s o
    | 11 => if o = 0x14 then some (min 64 (s.fp.held.length + s.fp.granted.length) + flagsOf s [F.FP_STAT_WAITS]) else none
    | 12 => if o = 0x14 then some (engBusy s 6 + flagsOf s [F.CRS_STAT_CFG_IGNORED]) else none
    | 13 => ispView s o
    | 14 => if o = 0x14 then some (engBusy s 11 + flagsOf s [F.STR_STAT_CFG_IGNORED]) else none
    | 15 => if o = 0x14 then some (cdcStat s) else none
    | 16 => if o = 0x14 then
        some (min 63 s.tick.armed.length * 2 ^ 16 + flagsOf s [F.TICK_STAT_PLAN_ID, F.TICK_STAT_FALLBACK, F.TICK_STAT_MISS, F.TICK_STAT_PLAN_MISMATCH])
      else none
    | 17 => drcView s o
    | 18 => hifView s o
    | 20 => fltView s false o
    | _ =>
      if 7 ≤ b ∧ b < 11 ∧ o = 0x14 then
        let k := b - 7
        some (engBusy s (k + 2) + min 256 (tagsOut (getD s (k + 2))) * 2 ^ 8
          + flagsOf s [F.DMA_STAT_CFG_IGNORED k, F.DMA_STAT_XFER_ABORT k, F.DMA_STAT_AUTH_FAIL k])
      else none

/-! ### The port die's blocks -/

/-- The sensor with the highest last reading, the lowest among equals (R433). -/
def hottest (l : List Int) : Nat :=
  (l.zipIdx.foldl (fun b x => if b.2 < x.1 then (x.2, x.1) else b) (0, l.headD 0)).1

/-- The kiln (R442). -/
def kilnView (s : State) (o : Nat) : Option Nat :=
  match o with
  | 0x20 => some (flagsOf s [F.KILN_CAP_CAP_QW] + capEff s * 2 ^ 16)
  | 0x34 => let r := nth s.kiln.rails (getF s F.KILN_RAILSEL_RAIL) (0, 0); some (r.1 % 2 ^ 12 + r.2 % 2 ^ 16 * 2 ^ 12)
  | 0x3C =>
    let rail := getF s F.KILN_VFSEL_RAIL
    let i := getF s F.KILN_VFSEL_POINT
    let curve := if rail = 0 then s.fuse.arrCurve else if rail < 9 then nth s.fuse.hcCurves (rail - 1) [] else []
    some (match curve[i]? with
      | some f => f % 2 ^ 12 + pointMv i % 1024 * 2 ^ 16
      | none => 0)
  | 0x40 => some (flagsOf s [F.KILN_ACLK_CUR_MHZ, F.KILN_ACLK_TARGET_MHZ] + s.kiln.point % 16 * 2 ^ 24)
  | 0x70 => some ((match s.kiln.temps[getF s F.KILN_TSEL_SENSOR]? with
      | some t => wrapU 16 t
      | none => 0) + hottest s.kiln.temps * 2 ^ 16)
  | _ => none

/-- Emino's registers; the attestation registers are banked by the master's partition (R460, R480). -/
def emnView (s : State) (m : Master) (o : Nat) : Option Nat :=
  let a := getAtt s m.part
  match o with
  | 0x20 => some (flagsOf s [F.EMN_BOOT_STAT_STAGE, F.EMN_BOOT_STAT_SLOT, F.EMN_BOOT_STAT_TRIAL, F.EMN_BOOT_STAT_SEQ] + s.fuse.svn % 128 * 256)
  | 0x3C => some ((s.parts.zipIdx.foldl (fun v x => v + x.1.st % 8 * 8 ^ x.2) 0) % 2 ^ 24 + flagsOf s [F.EMN_PART_STAT_RESULT, F.EMN_PART_STAT_BUSY]
      + maskOf 4 (fun q => Nat.land s.sec.quar (255 * 2 ^ (8 * q)) != 0) * 2 ^ 28)
  | 0x40 => some (flagsOf s [F.EMN_DBG_OPEN, F.EMN_DBG_FAILS] + min 0xFFFF s.emn.dbgCount * 2 ^ 16)
  | 0x50 => some (a.addr % 2 ^ 32)
  | 0x54 => some (a.addr / 2 ^ 32 % 2 ^ 16)
  | 0x58 => some (bit a.busy * 2 + a.result % 4 * 4 + a.len % 2 ^ 16 * 2 ^ 16)
  | _ => none

/-- The write-set status of a context (R302, R308). -/
def wsStat (s : State) (c : Nat) : Nat :=
  min 4 (getC s c).posted.length + (getC s c).lastEpoch % 2 ^ 16 * 2 ^ 16 + flagsOf s [F.CAM_WSSTAT_REFUSED c, F.CAM_WSSTAT_BUS_FAIL c]

/-- What a port-die block computes for the register at an offset, and the words of its memories. -/
def portView (s : State) (m : Master) (b o : Nat) : Option Nat :=
  if blockMem true b o then some (memLe (if b = 3 then s.net.mem else s.cam.mem) o 4)
  else match b with
    | 1 => if 0x80 ≤ o ∧ o < 0xC0 then some (wsStat s ((o - 0x80) / 4)) else none
    | 4 => emnView s m o
    | 5 => kilnView s o
    | 6 => fltView s true o
    | _ => none

/-- What the register at an offset reads (R7, R504). -/
def regValue (s : State) (p : Bool) (b o : Nat) (m : Master) : Nat :=
  if o = 0 ∧ ¬ (p = true ∧ b = 3) then b % 256 + bit p * 256 + (if s.fuse.b1 then 0x11 else 0) * 2 ^ 16
  else match (if p then portView s m b o else compView s b o) with
    | some v => v
    | none => storedValue s ((fieldsAt p b o).getD [])

/-- A read of a register that has passed its gate, with its side effect: the reads that latch a high half (R40, R97). -/
def regReadAct (p : Bool) (b o : Nat) (m : Master) (s : State) : State × Nat :=
  if p = false ∧ b = 16 ∧ o = 0x20 then tickLoRead s
  else if p = false ∧ b = 1 ∧ (o = 0x80 ∨ o = 0x88 ∨ o = 0x90) then utilLoRead ((o - 0x80) / 8) s
  else (s, regValue s p b o m)

/-- A 32-bit register read (R502 to R508). -/
def readReg (s : State) (p : Bool) (b o : Nat) (m : Master) : State × Nat := readVia s p b o m (regReadAct p b o m)

end Sys2Proof.Machine
end

