-- ==== Sys2Proof/Machine/Regs.lean ====
section
/-! DEFINITION. Register writes (R502 to R507): which fields take a value, what is ignored, the banked registers, and the registers
that have a command of their own. -/

namespace Sys2Proof.Machine

/-- The value that a field stores for a value written (the bounds of the registers' tables). -/
def storeAs (s : State) (p : Bool) (b o lo v : Nat) : Nat :=
  match p, b, o, lo with
  | false, 1, 0x240, 0 => max 50 v
  | false, 5, 0x20, 0 => max 1 v
  | false, 17, 0x20, 0 => max 1 v
  | false, 17, 0x28, 0 => max 1 v
  | false, 17, 0x3C, 16 => min 32 v
  | false, 17, 0x3C, _ => min 64 v
  | false, 17, 0x40, 0 => min 128 v
  | false, 18, 0x20, 8 => max 1 v
  | false, 18, 0x40, 28 => v / 4 * 4
  | false, 20, 0x10, 0 => max 1 v
  | true, 6, 0x10, 0 => max 1 v
  | true, 2, 0x10, 16 => min 127 v
  | true, 2, 0x40, 16 => max 200 v
  | true, 2, 0x44, 16 => min s.fuse.aclkMax v
  | true, 2, 0x44, _ => max 1 v
  | true, 2, _, 4 => if 0x20 ≤ o ∧ o < 0x38 then min 9216 (max 1518 v) else v
  | true, 1, _, 9 => if 0x100 ≤ o ∧ o % 8 = 0 then max 1 v else v
  | true, 1, _, 16 => if 0x100 ≤ o ∧ o % 8 = 0 then max 1 v else v
  | true, 5, 0x20, 0 => min 380 (max 100 v)
  | true, 5, 0x24, 16 => min 224 v
  | true, 5, 0x28, _ => min 8 v
  | true, 5, 0x40, 12 => min s.fuse.aclkMax (max 500 v)
  | true, 5, 0x68, 16 => min 115 v
  | true, 5, 0x74, 0 => min 100 (max 25 v)
  | true, 5, _, 8 => if 0x44 ≤ o ∧ o < 0x64 then min (getF s (F.KILN_HC_FMAX ((o - 0x44) / 4))) v else v
  | _, _, _, _ => v

/-- The RW-D and RWL fields of a register take writes: what governs them reads so (R505). -/
def openFor (s : State) (p : Bool) (b o : Nat) : Bool :=
  match p, b with
  | false, 1 => if 0x280 ≤ o then (let q := (getP s ((o - 0x280) / 8)).st; q == 0 || q == 4) else !isSet s F.ARR_CTL_ENABLE
  | false, 2 => !isSet s F.DRN_CTL_ENABLE
  | false, 4 => !isSet s F.MAP_CTL_ENABLE
  | false, 5 => !isSet s F.CRD_CTL_ENABLE
  | false, 14 => !isSet s F.STR_CTL_ENABLE
  | false, 17 => !isSet s F.DRC_CFG_INIT
  | false, 18 => if 0x1000 ≤ o then !isSet s (F.HIF_RING_CFG_ENABLE (o / 0x1000 - 1) ((o % 0x1000 - 0x100) / 0x40)) else true
  | true, 1 => if o < 0x100 then !bitOf (getF s F.CAM_CTL_PORT_EN) ((o - 0x20) / 4) else !isSet s (F.TRG_CFG_EN ((o - 0x100) / 8))
  | true, 2 => !isSet s F.NET_CTL_ENABLE
  | _, _ => true

/-- The value written to a field of a register, as it is stored. -/
def fieldVal (s : State) (p : Bool) (b o v : Nat) (x : Fld) : Nat := storeAs s p b o x.lo (bitsOf v x.lo x.width)

/-- One field of a register write (R7, R505). -/
def writeField (open_ : Bool) (s0 : State) (p : Bool) (b o v : Nat) (s : State) (x : Fld × Acc) : State :=
  match x.2 with
  | .rw => setF s x.1 (fieldVal s0 p b o v x.1)
  | .rwd | .rwl => wrField s open_ x.1 (fieldVal s0 p b o v x.1)
  | .w1c => w1c s x.1 v
  | _ => s

/-- A field that the write would change and may not (R505). -/
def closedField (open_ : Bool) (s : State) (p : Bool) (b o v : Nat) (x : Fld × Acc) : Bool :=
  (x.2 == .rwd || x.2 == .rwl) && ignoredChange s open_ x.1 (fieldVal s p b o v x.1)

/-- The write of a register's fields. -/
def writeFields (s : State) (p : Bool) (b o : Nat) (m : Master) (v : Nat) (fl : FieldList) : State :=
  let op := openFor s p b o
  let s1 := if fl.any (closedField op s p b o v) then cfgIgnored s p b o m v else s
  fl.foldl (writeField op s p b o v) s1

/-! ### Registers with more to them -/

/-- ENABLE of an engine's block: a 0 that comes while the engine works waits for its item, lane or word (R264, R338, R509). -/
def enableWrite (s : State) (e : Nat) (v : Bool) : State :=
  if e < 6 then
    let d := getD s e
    if v then setF (setD s e { d with disablePending := false }) (F.DMA_CTL_ENABLE (e - 2)) 1
    else if (getE s e).st = .idle then setF s (F.DMA_CTL_ENABLE (e - 2)) 0
    else setD s e { d with disablePending := true }
  else if e = 6 then
    if v then setF { s with vis := { s.vis with crsDisable := false } } F.CRS_CTL_ENABLE 1
    else if (getE s 6).st = .held then { s with vis := { s.vis with crsDisable := true } }
    else setF s F.CRS_CTL_ENABLE 0
  else
    let k := e - 7
    let x := getPipe s k
    let en := getF s F.ISP_CTL_PIPE_EN
    if v then setF (setPipe s k { x with disablePending := false }) F.ISP_CTL_PIPE_EN (setBit en k)
    else if x.lane.isSome then setPipe s k { x with disablePending := true }
    else setF s F.ISP_CTL_PIPE_EN (clearBit en k)

/-- ENABLE of one codec core: a 0 that comes during a job waits for its end (R349). -/
def coreEnable (v : Nat) (s : State) (k : Nat) : State :=
  if bitOf v k then
    setF { s with cdc := { s.cdc with disabling := clearBit s.cdc.disabling k } } F.CDC_CTL_ENABLE (setBit (getF s F.CDC_CTL_ENABLE) k)
  else settleIdle k { s with cdc := { s.cdc with disabling := setBit s.cdc.disabling k } }
where
  /-- A core without a job is disabled at once. -/
  settleIdle (k : Nat) (s : State) : State := if (getJob s k).isNone then settleCore s k else s

/-- The selected window's configuration, which changes only while the window is CLOSED (R156, R505). -/
def wincfgWrite (s : State) (m : Master) (v : Nat) : State :=
  match winSel s with
  | none => s
  | some (t, w) =>
    let x := getW s t w
    let y : Window := { x with base := bitsOf v 0 10, rows := bitsOf v 16 10, part := bitsOf v 28 3 }
    if x.st = .closed then setW s t w y else if x = y then s else cfgIgnored s false 5 0x28 m v

/-- The dropped writes of the selected tile memory are cleared (R156). -/
def dropcntWrite (s : State) (v : Nat) : State :=
  match winSel s with
  | some (t, _) => if bitsOf v 0 16 = 0 then s else
      { s with crd := { s.crd with drops := tabPut s.crd.drops t (0, (tabGet s.crd.drops t (0, 0)).2) (0, 0) } }
  | none => s

/-- The selected queue's binding, which changes only while the queue is empty and no engine waits on it (R196). -/
def qcfgWrite (s : State) (m : Master) (v : Nat) : State :=
  let q := getF s F.QM_QSEL_Q
  let u := getQ s q
  let y : Queue := { u with depth := min 256 (bitsOf v 0 9), consumer := bitsOf v 16 5, part := bitsOf v 24 3 }
  let y := if u.depth = 0 ∧ 0 < y.depth then { y with seq := 0 } else y
  if y = u then s
  else if u.entries.isEmpty ∧ s.hx.all (fun g => g.st != .wait || g.waitQ != some q) then setQ s q { y with undo := [] }
  else cfgIgnored s false 6 0x24 m v

/-- The record address of the selected ISP context, which changes only while the context is disabled (R338). -/
def ctxrecWrite (s : State) (m : Master) (hi : Bool) (v : Nat) : State :=
  let c := getF s F.ISP_CTXSEL_CTX
  let x := getI s c
  let a := if hi then x.recAddr % 2 ^ 32 + v % 2 ^ 16 * 2 ^ 32 else x.recAddr / 2 ^ 32 * 2 ^ 32 + v % 2 ^ 32 / 128 * 128
  if a = x.recAddr then s else if ispOn s c then cfgIgnored s false ispBlock (if hi then 0x2C else 0x28) m v else setI s c { x with recAddr := a }

/-- The gains of the selected ISP context; with AWB_HW = 1 a write is ignored (R331, R338). -/
def wbWrite (s : State) (m : Master) (b : Bool) (v : Nat) : State :=
  let c := getF s F.ISP_CTXSEL_CTX
  let x := getI s c
  let y : IspCtx := { x with wb := if b then (x.wb.1, x.wb.2.1, bitsOf v 0 16) else (bitsOf v 0 16, bitsOf v 16 16, x.wb.2.2) }
  if iAwbHw x.record then cfgIgnored s false ispBlock (if b then 0x34 else 0x30) m v else setI s c y

/-- PORT_EN of NET_CTL: a port of 0 to 3 with SPEED 3 is refused (R400), and a port that is enabled is latched off no more (R522). -/
def netPortEn (s : State) (v : Nat) : State :=
  let old := getF s F.NET_CTL_PORT_EN
  let ok := maskOf 6 (fun q => bitOf v q && (bitOf old q || decide (4 ≤ q) || getF s (F.NET_PORT_CFG_SPEED q) != 3))
  let s := setF s F.NET_CTL_PORT_EN ok
  { s with pins := { s.pins with latched := s.pins.latched.zipIdx.map (fun x => x.1 && !(bitOf ok x.2 && !bitOf old x.2)) } }

/-- A word of a context record, a write-set memory or a session record (R291, R302, R382): a context's or session's record takes
writes only while it is not enabled. A session begins when EN is set. -/
def blockMemWrite (s : State) (b o : Nat) (m : Master) (v : Nat) : State :=
  if b = 3 then
    let a := o / 32 * 32
    if bitOf (rdByte s.net.mem a).toNat 0 then (if memLe s.net.mem o 4 = v % 2 ^ 32 then s else cfgIgnored s true 3 o m v)
    else
      let s := setNet s { s.net with mem := memWrite s.net.mem o (leBytes 4 v) }
      if bitOf (rdByte s.net.mem a).toNat 0 then setBlk (setSes s (o / 32) {}) (o / 32) none else s
  else if o < 0x1000 ∧ ctxOn s ((o - 0x400) / 32) then (if memLe s.cam.mem o 4 = v % 2 ^ 32 then s else cfgIgnored s true 1 o m v)
  else { s with cam := { s.cam with mem := memWrite s.cam.mem o (leBytes 4 v) } }

/-- RING_ERR: each bit written as 1 is cleared (R406). -/
def ringErrW1c (s : State) (g v : Nat) : State :=
  setF s (F.HIF_FSTAT_RING_ERR g) (maskOf 4 (fun n => bitOf (getF s (F.HIF_FSTAT_RING_ERR g)) n && !bitOf v (16 + n)))

/-- What a compute-die register does with a write that has passed its gate. -/
def compWrite (s : State) (b o : Nat) (m : Master) (v : Nat) : State :=
  match b, o with
  | 5, 0x28 => wincfgWrite s m v
  | 5, 0x34 => dropcntWrite s v
  | 6, 0x24 => qcfgWrite s m v
  | 6, 0x28 => let q := getF s F.QM_QSEL_Q; if bitOf v 18 then setQ s q { getQ s q with overflow := false } else s
  | 7, 0x10 => enableWrite s 2 (bitOf v 0)
  | 8, 0x10 => enableWrite s 3 (bitOf v 0)
  | 9, 0x10 => enableWrite s 4 (bitOf v 0)
  | 10, 0x10 => enableWrite s 5 (bitOf v 0)
  | 12, 0x10 => enableWrite s 6 (bitOf v 0)
  | 13, 0x10 => (List.range 4).foldl (fun s k => enableWrite s (7 + k) (bitOf v k)) s
  | 13, 0x28 => ctxrecWrite s m false v
  | 13, 0x2C => ctxrecWrite s m true v
  | 13, 0x30 => wbWrite s m false v
  | 13, 0x34 => wbWrite s m true v
  | 15, 0x10 => (List.range 4).foldl (coreEnable v) s
  | _, _ =>
    if b = 18 ∧ o % 0x1000 = 0 ∧ 0x1000 ≤ o then ringErrW1c s (o / 0x1000 - 1) v
    else writeFields s false b o m v ((fieldsAt false b o).getD [])

/-- What a port-die register does with a write that has passed its gate. -/
def portWrite (s : State) (b o : Nat) (m : Master) (v : Nat) : State :=
  if blockMem true b o then blockMemWrite s b o m v
  else
    let a := getAtt s m.part
    match b, o with
    | 4, 0x50 => setAtt s m.part { a with addr := a.addr / 2 ^ 32 * 2 ^ 32 + v % 2 ^ 32 / 64 * 64 }
    | 4, 0x54 => setAtt s m.part { a with addr := a.addr % 2 ^ 32 + v % 2 ^ 16 * 2 ^ 32 }
    | _, _ =>
      let t := writeFields s true b o m v ((fieldsAt true b o).getD [])
      if b = 2 ∧ o = 0x10 then netPortEn (setF t F.NET_CTL_PORT_EN (getF s F.NET_CTL_PORT_EN)) (bitsOf v 1 6)
      else if b = 1 ∧ 0x100 ≤ o ∧ o % 8 = 0 ∧ bitOf v 0 = false then
        { t with cam := { t.cam with trig := t.cam.trig.set ((o - 0x100) / 8) {} } }
      else if b = 5 ∧ 0x44 ≤ o ∧ o < 0x64 then hcApply t ((o - 0x44) / 4)
      else t

/-- The write of an EVT register: clearing CFG_IGNORED also clears the block's own flag (R504). -/
def evtWrite (s : State) (p : Bool) (b : Nat) (m : Master) (v : Nat) : State :=
  let s := writeFields s p b 4 m v (fields_BLK_EVT p b)
  if bitOf v 0 then (ownIgnored p b).foldl (fun s x => setF s x 0) s else s

/-- A register write that has passed its gate. -/
def plainWrite (p : Bool) (b o : Nat) (m : Master) (v : Nat) (s : State) : State :=
  if o = 4 ∧ ¬ (p = true ∧ b = 3) then evtWrite s p b m v
  else if p then portWrite s b o m v else compWrite s b o m v

/-- DRC_BULKCAP is written (R352): frames that wait in staging for a ring in DRAM go on where the cap lets them. -/
def bulkcapWrite (m : Master) (v : Nat) (s : State) : State :=
  gated s false 17 0x3C m v (fun s => resumeNet (plainWrite false 17 0x3C m v s))

/-- The image that Emino finds in memory for a command of EMN_UPD_CMD. -/
def foundImg (x : Found) : SlotImg := { digest := x.digest, signed := x.signed, svn := x.svn, comps := x.comps, good := x.ok }

/-- The compute-die registers that have a command of their own, which passes its own gate. -/
def compOwn (b o : Nat) (m : Master) (v : Nat) : Option (State → State) :=
  match b, o with
  | 1, 0x10 => some (arrCtlWrite m v)
  | 1, 0x28 => some (retireReqWrite m v)
  | 1, 0x30 => some (colcntWrite m v)
  | 1, 0x244 => some (lbyCmdWrite m v)
  | 2, 0x10 => some (drnCtlWrite m v)
  | 5, 0x2C => some (winCtl m v)
  | 13, 0x20 => some (ctxenWrite m v)
  | 13, 0x38 => some (feedWrite m v)
  | 16, 0x10 => some (tickCtlWrite m v)
  | 17, 0x10 => some (drcCfgWrite m v)
  | 17, 0x34 => some (drcTrnWrite m v)
  | 17, 0x3C => some (bulkcapWrite m v)
  | 20, 0x20 => some (fltCmd m false v)
  | _, _ =>
    if b = 18 ∧ 0x1100 ≤ o ∧ o < 0xA000 ∧ 0x100 ≤ o % 0x1000 ∧ o % 0x1000 < 0x200 then
      let g := o / 0x1000 - 1
      let n := (o % 0x1000 - 0x100) / 0x40
      match o % 0x40 with
      | 0 => some (ringCfgWrite m g n v)
      | 0x14 => some (sqtailWrite m g n v)
      | 0x18 => some (cqheadWrite m g n v)
      | _ => none
    else match bankAt b o with
      | some (e, 0xC) => some (hxrStart m e v)
      | _ => none

/-- The port-die registers that have one. -/
def portOwn (b o : Nat) (m : Master) (v : Nat) (x : Found) : Option (State → State) :=
  match b, o with
  | 1, 0x10 => some (camCtlWrite m v)
  | 1, 0x50 => some (camWscmdPost m v)
  | 2, 0x50 => some (rxrelWrite m v)
  | 2, 0x54 => some (barrecWrite m v)
  | 2, 0x58 => some (barrierWrite m v)
  | 4, 0x2C => some (updCmdWrite m v (foundImg x) x.last)
  | 4, 0x38 => some (partCmdWrite m v x.ok)
  | 4, 0x58 => if bitOf v 0 then some (attRequest m) else none
  | 5, 0x78 => some (kilnEmberWrite m v)
  | 6, 0x20 => some (fltCmd m true v)
  | _, _ => none

/-- There is a block at an index of a die (R510). -/
def blockIs (p : Bool) (b : Nat) : Bool := if p then decide (b < 7) else decide (b < 21)

/-- A 32-bit register write; an unused block index is unpopulated (R36, R508), outside the windows of R525. -/
def writeReg (s : State) (p : Bool) (b o : Nat) (m : Master) (v : Nat) (x : Found) : State :=
  if blockIs p b = false then (if heldBack s p m then s else unreachable s m 2 (blkBase p b + o))
  else match (if p then portOwn b o m v x else compOwn b o m v) with
    | some f => f s
    | none => gated s p b o m v (plainWrite p b o m v)

/-- A handler's access that raises a fault of any class while HANDLING is not 0 is a double fault (R489): the last record raised is
the triggering one. -/
def handlerFault (m : Master) (s s' : State) : State :=
  let n := s'.flt.comp.queue.length
  if m.code = 9 ∧ s.flt.handling ≠ [] ∧ s'.flt.comp.seq ≠ s.flt.comp.seq ∧ s'.flt.safe = s.flt.safe then
    match s'.flt.comp.queue.getLast? with
    | some r =>
      let q := s'.flt.comp.queue.set (n - 1) { r with double := true }
      doubleFault { s' with flt := { s'.flt with comp := { s'.flt.comp with queue := q } } } 1 r.code
    | none => s'
  else s'

/-- REGISTER_WRITE: a master writes the register at offset `o` of block `b` of a die. -/
def execRegisterWrite (m : Master) (port : Bool) (b o : Nat) (v : BitVec 32) (x : Found) (s : State) : Host.Outcome State Fault Refusal :=
  .next (handlerFault m s (writeReg s port b (o % 0x10000) m v.toNat x))

end Sys2Proof.Machine
end

