-- ==== Sys2Proof/Machine/Access.lean ====
section
/-! DEFINITION. Accesses of masters to the 48-bit map (R33, R36, R402, R403, R466, R502), and the footpath (R259 to R261). -/

namespace Sys2Proof.Machine

/-- The master receives bytes, or an error completion with them. -/
def answer (s : State) (bs : Bytes) (err : Bool) : State := { s with rd := bs, rdErr := err }

/-! ### Register accesses (R502) -/

/-- Registers that an access of `n` bytes at offset `o` covers, lowest first. -/
def regsCovered (o n : Nat) : List Nat := (List.range ((o + n + 3) / 4 - o / 4)).map (fun i => 4 * (o / 4 + i))

/-- A register read of any naturally aligned size: each register it covers is read whole, in ascending order (R502). -/
def regsRead (s : State) (p : Bool) (b : Nat) (m : Master) : List Nat → State × Bytes
  | [] => (s, [])
  | o :: os =>
    let r := readReg s p b o m
    let t := regsRead r.1 p b m os
    (t.1, leBytes 4 r.2 ++ t.2)

/-- A register write of whole registers, in ascending order. -/
def regsWrite (p : Bool) (b : Nat) (m : Master) (x : Found) : List Nat → Bytes → State → State
  | [], _, s => s
  | o :: os, bs, s => regsWrite p b m x os (bs.drop 4) (writeReg s p b o m (leAt bs 0 4) x)

/-- A read or write of `n` bytes at offset `o` of a block: a write that covers part of a register is dropped in full (R502). -/
def regAccess (s : State) (p : Bool) (b o : Nat) (m : Master) (n : Nat) (wr : Option Bytes) (x : Found) : State :=
  match wr with
  | none =>
    let r := regsRead s p b m (regsCovered o n)
    answer r.1 ((r.2.drop (o % 4)).take n) false
  | some bs =>
    if o % 4 = 0 ∧ n % 4 = 0 then answer (regsWrite p b m x (regsCovered o n) bs s) [] false
    else answer (unassigned s p b o m 9 (leAt bs 0 (min n 4))) [] false

/-! ### Memory accesses -/

/-- Bytes of a write, cut or filled with zero to the access's length. -/
def fitBytes (n : Nat) (bs : Bytes) : Bytes := bs.take n ++ List.replicate (n - bs.length) 0

/-- A host core's access to DRAM goes through its L1 and L2 (R32, R259). -/
def throughCache (s : State) (m : Master) (a : Nat) : State :=
  if m.code < 8 ∧ region a = .dram then useBuf (useBuf s (9 + m.code) m.part) 17 m.part else s

/-- A master's write of part of a word of its own tile memory: the word is written whole, with zero for the bytes that the access does not
supply, since no write merges old data with new (R139, R152; log entry 216). -/
def ownTilePut (s : State) (a : Nat) (bs : Bytes) : State :=
  let lo := a / 8 * 8
  let n := (a + bs.length + 7) / 8 * 8 - lo
  memPut s lo (List.replicate (a - lo) 0 ++ bs ++ List.replicate (n - (a - lo) - bs.length) 0)

/-- A system-port access of `n` bytes at `a` to a memory (R30, R36, R131, R138, R152, R371, R466). One to DRAM waits at its requester, or
for its channel (R352, R357, R364); of the host's, writes of more than 64 bytes are requester 10's (R403). -/
def memAccess (s : State) (m : Master) (a n : Nat) (wr : Option Bytes) : State :=
  if dramOut s a ∨ (reqOf m).any (fun r => (r != 10 || (wr.isSome && decide (64 < n))) && dramWaits s r a) then s
  else match wr with
  | some bs =>
    let d := fitBytes n bs
    match busGate s m .system a n true (leVal (d.take 4)) with
    | .refused s' _ => answer s' [] false
    | .silent => answer s [] false
    | .pass => answer (if region a = .dram then dramPut (throughCache s m a) a d
        else match region a with
          | .tile _ => ownTilePut s a d
          | _ => memPut s a d) [] false
  | none =>
    let r := busRead s m .system a n
    if region a = .dram ∧ r.ok ∧ xtsBad r.s a n then
      answer (raise r.s false 0x0166 2 (some m.part) drcBlock 0xFFFF []) r.data true
    else answer (if r.ok then throughCache r.s m a else r.s) (if r.poison then zeroBad r.s a r.data else r.data) r.poison

/-- Sizes of a naturally aligned access (R259, R502). -/
def natural (a n : Nat) : Bool := [1, 2, 4, 8, 16, 32, 64].contains n && a % n == 0

/-- An access to memory that crosses rows is made row by row, as bursts are (R403). -/
def memParts (m : Master) : Nat → State → Nat → Nat → Option Bytes → State
  | 0, s, _, _, _ => s
  | k + 1, s, a, n, wr =>
    let l := min n (512 - a % 512)
    let t := memAccess s m a l (wr.map (fun b => (fitBytes n b).take l))
    if n = l then t
    else
      let u := memParts m k t (a + l) (n - l) (wr.map (fun b => (fitBytes n b).drop l))
      answer u (t.rd ++ u.rd) (t.rdErr || u.rdErr)

/-- While the compute die is in reset or out of reach, its masters make no access, and a port-die master reaches nothing of it (R525). -/
def outOfReach (s : State) (m : Master) (a : Nat) : Bool :=
  match region a with
  | .portReg _ _ | .ember => heldBack s true m
  | _ => heldBack s false m

/-- An access reaches its target (R33): registers in naturally aligned accesses of up to 64 bytes, memories in up to
4,096 bytes, row by row; a longer write to Map Store raises MAP_ALIGN as every part of a row does (R131). -/
def route (s : State) (m : Master) (a n : Nat) (wr : Option Bytes) (x : Found) : State :=
  if outOfReach s m a then answer s (if wr.isSome then [] else List.replicate n 0) false
  else match region a with
  | .compReg b o => if natural a n then regAccess s false b o m n (wr.map (fitBytes n)) x else s
  | .portReg b o => if natural a n then regAccess s true b o m n (wr.map (fitBytes n)) x else s
  | _ =>
    if n = 0 ∨ 4096 < n then s
    else if a % 512 + n ≤ 512 ∨ (region a = .mapStore ∧ wr.isSome) then memAccess s m a n wr
    else memParts m 9 s a n wr

/-- Where an access through a function's BAR goes (R403, R511): the address it reaches, or nothing. -/
def barAddr (s : State) (g bar o : Nat) : Option Nat :=
  if bar = 2 then
    if o < (if g = 0 then 2 ^ 30 else 2 ^ 28) then some (getF s (F.HIF_WIN_LO_ADDR g) * 2 ^ 28 + getF s (F.HIF_WIN_HI_ADDR g) * 2 ^ 32 + o) else none
  else if bar = 0 then
    if g = 0 then (if o < 0x2000 then some (blkBase false hifBlock + o) else none)
    else if 0x1000 ≤ o ∧ o < 0x2000 then some (blkBase false hifBlock + 0x1000 * (g + 1) + (o - 0x1000)) else none
  else none

/-- An access of the host through a BAR (R402, R403): through a VF of an absent partition it reads zero, HIF_FSTAT apart, and its
writes are dropped. -/
def barAccess (s : State) (g bar o n : Nat) (wr : Option Bytes) (x : Found) : State :=
  if s.hif.linkUp = false then s
  else match barAddr s g bar o with
    | none => answer s (if wr.isSome then [] else List.replicate n 0) false
    | some a =>
      if fnAbsent s g then
        answer s (if wr.isSome then [] else if bar = 0 ∧ o = 0x1000 then fitBytes n (leBytes 4 3) else List.replicate n 0) false
      else route s (fnMaster g) a n wr x

/-- MEMORY_ACCESS: an access of `n` bytes at `a`, by master `m` or, with `bar`, by the host at offset `a` of a function's BAR. `x` is what
Emino finds where the access writes one of its commands. -/
def memoryAccess (m : Master) (bar : Option (Fin 9 × Nat)) (a n : Nat) (wr : Option Bytes) (x : Found) (s : State) : State :=
  match bar with
  | some (g, k) => barAccess s g.val k a n wr x
  | none => handlerFault m s (route s m a n wr x)

/-- MEMORY_ACCESS. -/
def execMemoryAccess (m : Master) (bar : Option (Fin 9 × Nat)) (a n : Nat) (wr : Option Bytes) (x : Found) (s : State) :
    Host.Outcome State Fault Refusal := .next (memoryAccess m bar a n wr x s)

/-! ### The footpath (R259 to R261) -/

/-- The masters whose small accesses the footpath carries (R259). -/
def fpMaster (m : Master) : Bool := decide (m.code ≤ 19)

/-- A target of the footpath: DRAM, Ember memory, the port die's registers and memories, tile memories other than the master's own,
and Map Store for a write, which is dropped (R259). -/
def fpTarget (m : Master) (a : Nat) (wr : Bool) : Bool :=
  match region a with
  | .dram | .ember | .portReg _ _ => true
  | .tile i => !ownTile m i
  | .mapStore => wr
  | .compReg _ _ => m.code == 19
  | _ => false

/-- The access is performed with a tag in hand; a write into a tile memory waits, keeping the tag, while its window has no credit
(R261). -/
def fpPerform (s : State) (m : Master) (a n : Nat) (wr : Option Bytes) (x : Found) : State :=
  if outOfReach s m a then route s m a n wr x
  else match tileOf a, wr with
  | some i, some bs =>
    let k : FpAcc := { code := m.code, part := m.part, addr := a, len := n, wr := wr }
    let s0 := { s with fp := { s.fp with held := s.fp.held.erase k } }
    match tileGate s0 m a i with
    | .refused s' _ => answer s' [] false
    | .silent => s0
    | .pass =>
      match fpTileWrite s0 m a (fitBytes n bs) with
      | .inl s' => { s' with fp := { s'.fp with held := s'.fp.held ++ [k] } }
      | .inr (s', c) => answer s' [] (c != 0)
  | _, _ => route s m a n wr x

/-- An earlier access of the master to bytes of this one still waits for its credit: accesses of one master to the same address complete in
issue order (R260). -/
def fpBehind (s : State) (m : Master) (a n : Nat) : Bool :=
  s.fp.held.any (fun k => k.code == m.code && decide (k.addr < a + n) && decide (a < k.addr + k.len))

/-- A master asks for a footpath access (R260): with a tag it has been granted or a free one it is performed; otherwise it waits for a tag.
Behind an earlier access to the same bytes it goes no further. -/
def footpathAccess (m : Master) (a n : Nat) (wr : Option Bytes) (x : Found) (s : State) : State :=
  if fpMaster m = false ∨ natural a n = false ∨ fpTarget m a wr.isSome = false then s
  else if s.fp.held.contains { code := m.code, part := m.part, addr := a, len := n, wr := wr } then handlerFault m s (fpPerform s m a n wr x)
  else if fpBehind s m a n then s
  else if s.fp.granted.contains m.code then
    let s := { s with fp := { s.fp with granted := s.fp.granted.erase m.code } }
    handlerFault m s (fpPerform s m a n wr x)
  else if fpTags s < 64 ∧ s.fp.waiting.isEmpty then handlerFault m s (fpPerform s m a n wr x)
  else
    let s := bump s F.FP_STAT_WAITS 1
    { s with fp := { s.fp with waiting := if s.fp.waiting.contains m.code then s.fp.waiting else s.fp.waiting ++ [m.code] } }

/-- FOOTPATH_ACCESS. -/
def execFootpathAccess (m : Master) (a n : Nat) (wr : Option Bytes) (x : Found) (s : State) : Host.Outcome State Fault Refusal :=
  .next (footpathAccess m a n wr x s)

/-- The master served next, round robin among those that wait (R260). -/
def fpNext (s : State) : Option Nat :=
  ((List.range 64).map (fun i => (s.fp.last + 1 + i) % 64)).find? (fun c => s.fp.waiting.contains c)

/-- FOOTPATH_TAG_GRANT: a free tag goes to the next waiting master (R260). -/
def tagGrant (s : State) : State :=
  match fpNext s with
  | some c => if fpTags s < 64 then
      { s with fp := { s.fp with waiting := s.fp.waiting.erase c, granted := s.fp.granted ++ [c], last := c } } else s
  | none => s

/-- FOOTPATH_TAG_GRANT. -/
def execFootpathTagGrant (s : State) : Host.Outcome State Fault Refusal := .next (tagGrant s)

end Sys2Proof.Machine
end

