-- ==== Sys2Proof/Machine/Host.lean ====
section
/-! DEFINITION. The commands of the Fliade Host Protocol (R407, R409 to R417). A command takes effect as it starts; its completion is posted by
COMMAND_COMPLETION. -/

namespace Sys2Proof.Machine

/-! ### Command entries (R408, R409) -/

/-- OPCODE, FLAGS, CID and ARG of a command entry. -/
def hOp (c : Bytes) : Nat := leAt c 0 1
def hFlags (c : Bytes) : Nat := leAt c 1 1
def hCid (c : Bytes) : Nat := leAt c 2 2
def hArg (c : Bytes) (i : Nat) : Nat := leAt c (8 + 8 * i) 8

/-- The opcodes of R409. -/
def hOpcodes : List Nat := [0x01, 0x02, 0x03, 0x10, 0x11, 0x20, 0x21, 0x22, 0x30, 0x40, 0x41, 0x50, 0x60, 0x61]
/-- Those that only the PF may send, and those of version 2. -/
def hPfOnly (op : Nat) : Bool := [0x20, 0x21, 0x22, 0x30, 0x50, 0x60, 0x61].contains op
def hVersion2 (op : Nat) : Bool := [0x50, 0x60, 0x61].contains op

/-- What a command answers: the state it leaves, STATUS, DETAIL and RESULT (R408, R410). -/
structure Reply where
  s : State
  status : Nat := 0
  detail : Nat := 0
  result : Nat := 0
  deriving DecidableEq, Repr

/-- A completion entry (R408), without PHASE. -/
def cqe (c : Bytes) (n status detail result : Nat) : Bytes :=
  leBytes 2 (hCid c) ++ leBytes 1 n ++ leBytes 1 status ++ leBytes 2 detail ++ leBytes 2 0 ++ leBytes 8 result ++ List.replicate 16 0

/-- The next command of a ring can start: the ring is enabled and has one, the command before it has posted its completion, none is
held, the link is up, and the device is not in safe state, held, or entering Ember (R405 to R408, R437, R490). -/
def fhpReady (s : State) (g n : Nat) : Bool :=
  let r := getRing s g n
  isSet s (F.HIF_RING_CFG_ENABLE g n) && !r.err && r.head != r.tail && r.running.isNone && r.held.isEmpty && s.hif.linkUp && !fnAbsent s g
    && !s.flt.safe && !s.flt.held && s.kiln.ember == 0

/-- Why a command is turned away before its own rule looks at it (R409, R411). -/
def fhpRefusal (s : State) (g n : Nat) (c : Bytes) : Option Nat :=
  let st := getF s (F.HIF_FSTAT_STATE g)
  let op := hOp c
  if st = 0 ∧ ¬ (op = 1 ∧ n = 0) then some 1
  else if st = 2 ∧ op ≠ 1 then some 2
  else if !hOpcodes.contains op || (hPfOnly op && g != 0) || (hVersion2 op && decide (getF s (F.HIF_FSTAT_VERSION g) < 2)) then some 3
  else if hFlags c / 2 ≠ 0 ∨ leAt c 4 4 ≠ 0 then some 4
  else none

/-- The fetch of a command moves the ring's head. -/
def fetched (s : State) (g n : Nat) : State :=
  let r := getRing s g n
  setRing s g n { r with head := (r.head + 1) % 2 ^ getF s (F.HIF_RING_CFG_SQ_LOG2 g n) }

/-- A command runs, with its completion to come. -/
def running (s : State) (g n : Nat) (c : Bytes) (status detail result : Nat) : State :=
  setRing s g n { getRing s g n with running := some (cqe c n status detail result, bitOf (hFlags c) 0) }

/-- The next command of a ring starts, with the entry `c` that was fetched and the effect `act` of its opcode `op`. A fetch that ends in a
PCIe error gives no 64 bytes (R406). A command of another listed opcode is another row's. -/
def fhp (g n op : Nat) (c : Bytes) (act : State → Reply) (s : State) : State :=
  if fhpReady s g n = false ∨ (c.length = 64 ∧ hOp c ≠ op ∧ hOpcodes.contains (hOp c)) then s
  else if c.length ≠ 64 then ringError s g n
  else
    let s := fetched s g n
    match fhpRefusal s g n c with
    | some st => running s g n c st 0 0
    | none => let r := act s; running r.s g n c r.status r.detail r.result

/-! ### HELLO (R411) -/

/-- Another command of the function runs or waits to be posted. -/
def outstanding (s : State) (g : Nat) : Bool :=
  (getFn s g).rings.any (fun r => r.running.isSome || r.held.any (fun x => !isEvent x.1))

/-- RESULT of a HELLO: the version in use and the device's range. -/
def helloResult (v : Nat) : Nat := v + 1 * 2 ^ 8 + 2 * 2 ^ 16

/-- A HELLO: the state changes when its completion is written (R411, R418). -/
def hello (g n : Nat) (c : Bytes) (s : State) : Reply :=
  let a := hArg c 0 % 256
  let b := hArg c 0 / 256 % 256
  if getF s (F.HIF_FSTAT_STATE g) = 1 ∧ outstanding s g then { s := s, status := 5, result := helloResult (getF s (F.HIF_FSTAT_VERSION g)) }
  else
    let t := setRing s g n { getRing s g n with hello := some (a, b) }
    match commonVersion a b with
    | some v => { s := t, result := helloResult v }
    | none => { s := t, status := 2, detail := 1, result := helloResult 0 }

/-- FHP_HELLO. -/
def execFhpHello (g : Fin 9) (n : Fin 4) (c : Bytes) (s : State) : Host.Outcome State Fault Refusal :=
  .next (fhp g.val n.val 0x01 c (hello g.val n.val c) s)

/-! ### WRITE_MEM and READ_MEM (R409) -/

/-- Bytes of the next burst of a host transfer: 512-byte bursts of memory, registers one by one (R403). -/
def hostLen (a n : Nat) : Nat :=
  match region a with
  | .compReg _ _ | .portReg _ _ => if a % 4 = 0 ∧ 4 ≤ n then 4 else 1
  | _ => min n (512 - a % 512)

/-- The partition filter refuses the burst at `a` (R409, R466). -/
def hostRefused (s : State) (m : Master) (a n : Nat) : Bool :=
  match region a with
  | .compReg _ _ | .portReg _ _ => false
  | _ => match busGate s m .system a n true with
    | .refused _ .filter => true
    | _ => false

/-- A host transfer into the device, burst by burst: the state, and the offset at which a burst was refused. -/
def hostWrite (m : Master) : Nat → Nat → Nat → Bytes → State → State × Option Nat
  | 0, _, _, _, s => (s, none)
  | k + 1, a, off, bs, s =>
    if bs.isEmpty then (s, none)
    else
      let l := hostLen a bs.length
      let t := route s m a l (some (bs.take l)) {}
      if hostRefused s m a l then (t, some off) else hostWrite m k (a + l) (off + l) (bs.drop l) t

/-- A host transfer out of the device, with the bytes it delivers; a poisoned burst ends it as a refused one does (R152). -/
def hostRead (m : Master) : Nat → Nat → Nat → Nat → Bytes → State → State × Option Nat × Bytes
  | 0, _, _, _, acc, s => (s, none, acc)
  | k + 1, a, off, n, acc, s =>
    if n = 0 then (s, none, acc)
    else
      let l := hostLen a n
      let t := route s m a l none {}
      if hostRefused s m a l ∨ t.rdErr then (t, some off, acc) else hostRead m k (a + l) (off + l) (n - l) (acc ++ t.rd) t

/-- A transfer's arguments are within R409. -/
def xferArgs (c : Bytes) : Bool := decide (1 ≤ hArg c 2) && decide (hArg c 2 ≤ 2 ^ 30) && decide (hArg c 1 < 2 ^ 48)

/-- A VF names an address of its own partition, which holds memory only (R409, R463). -/
def namesOwn (s : State) (g a : Nat) : Bool :=
  g == 0 || match region a with
    | .dram | .mapStore | .tile _ | .ember => filterPass s (hciMaster g) a 1
    | _ => false

/-- WRITE_MEM: `data` is what the host's memory holds; fewer bytes than asked mean that reading it ended in a PCIe error. -/
def writeMem (g : Nat) (c data : Bytes) (s : State) : Reply :=
  let n := hArg c 2
  if xferArgs c = false then { s := s, status := 4 }
  else if namesOwn s g (hArg c 1) = false then { s := s, status := 3 }
  else
    let r := hostWrite (hciMaster g) n (hArg c 1) 0 (data.take n) s
    match r.2 with
    | some off => { s := r.1, status := 7, detail := off / 4096 }
    | none => if data.length < n then { s := r.1, status := 7, detail := data.length / 4096 } else { s := r.1, result := n }

/-- WRITE_MEM. -/
def execWriteMem (g : Fin 9) (n : Fin 4) (c data : Bytes) (s : State) : Host.Outcome State Fault Refusal :=
  .next (fhp g.val n.val 0x02 c (writeMem g.val c data) s)

/-- READ_MEM: the bytes go to the host. -/
def readMem (g : Nat) (c : Bytes) (s : State) : Reply :=
  let n := hArg c 2
  if xferArgs c = false then { s := s, status := 4 }
  else if namesOwn s g (hArg c 1) = false then { s := s, status := 3 }
  else
    let r := hostRead (hciMaster g) n (hArg c 1) 0 n [] s
    match r.2.1 with
    | some off => { s := answer r.1 r.2.2 true, status := 7, detail := off / 4096 }
    | none => { s := answer r.1 r.2.2 false, result := n }

/-- READ_MEM. -/
def execReadMem (g : Fin 9) (n : Fin 4) (c : Bytes) (s : State) : Host.Outcome State Fault Refusal :=
  .next (fhp g.val n.val 0x03 c (readMem g.val c) s)

/-! ### Containers (R412, R413, R467 to R469) -/

/-- Header fields of a container (R467). -/
def kSections (b : Bytes) : Nat := leAt b 6 2
def kNmeas (b : Bytes) : Nat := leAt b 13 1
def kNkeys (b : Bytes) : Nat := leAt b 14 1
def kAoFirst (b : Bytes) : Nat := leAt b 24 2
def kAoCount (b : Bytes) : Nat := leAt b 26 2

/-- The section entries (R468), by number. -/
def kTable (b : Bytes) : List (Bytes × Nat) := ((List.range (kSections b)).map (fun i => (b.drop (512 + 96 * i)).take 96)).zipIdx

def eKind (e : Bytes) : Nat := leAt e 0 1
def eKey (e : Bytes) : Nat := leAt e 1 1
def eEngine (e : Bytes) : Nat := leAt e 4 1
def eTarget (e : Bytes) : Nat := leAt e 8 4
def eOff (e : Bytes) : Nat := leAt e 16 8
def eLen (e : Bytes) : Nat := leAt e 24 8

/-- A section entry is as R468 gives it, and its body lies in the container; a program fits its store as a CSLOAD needs it (R245, R254). -/
def entryOk (b e : Bytes) : Bool :=
  decide (1 ≤ eKind e) && decide (eKind e ≤ 5) && (eKey e == 0xFF || decide (eKey e < kNkeys b)) && leAt e 5 3 == 0 && leAt e 12 4 == 0
    && (e.drop 80).all (· == 0) && eOff e % 4096 == 0 && decide (eOff e + eLen e ≤ b.length)
    && (eKind e != 1 || (decide (eEngine e < 12) && decide (0 < eLen e) && eLen e % (if eKey e = 0xFF then 32 else 4096) == 0
        && decide (32 * eTarget e + eLen e ≤ 32 * storeWords (eEngine e))
        && (eKey e == 0xFF || (kTable b).any (fun t => eKind t.1 == 5 && eKey t.1 == eKey e))))

/-- The header is as R467 gives it. -/
def containerOk (b : Bytes) : Bool :=
  leAt b 0 4 == 0x434D5646 && decide (1 ≤ kSections b) && decide (kSections b ≤ 256) && leAt b 8 4 == 512 + 96 * kSections b
    && decide (512 + 96 * kSections b ≤ b.length) && leAt b 12 1 / 4 == 0 && decide (1 ≤ kNmeas b) && decide (kNmeas b ≤ 4) && decide (1 ≤ kNkeys b)
    && decide (kNkeys b ≤ 8) && leAt b 15 1 == 0 && decide (kAoFirst b + kAoCount b ≤ 256) && leAt b 28 4 == 0 && leAt b 321 3 == 0
    && ((b.drop 421).take 91).all (· == 0) && (kTable b).all (fun e => entryOk b e.1)

/-- The regions a container makes array-only. -/
def kRegions (b : Bytes) (g : Nat) : Bool := decide (kAoFirst b ≤ g) && decide (g < kAoFirst b + kAoCount b)

/-- The checks of step 3: the refusal's DETAIL. `good` is the verdict on signatures and digests, `keys` what the unwraps give (R469). -/
def keyRefusal (s : State) (p : Nat) (b : Bytes) (good : Bool) (keys : List (Option (BitVec 256))) : Option Nat :=
  let x := getP s p
  if !good || !containerOk b || (List.range (kNkeys b)).any (fun k => (nth keys k none).isNone)
      || (s.fuse.pqc && !bitOf (leAt b 12 1) 1) then some 2
  else if !(x.st == 2 || x.st == 4) || (List.range (kNmeas b)).all (fun i => leAt b (32 + 48 * i) 48 != x.meas.toNat)
      || (bitOf (leAt b 12 1) 0 && leAt b 16 8 != s.fuse.uid)
      || (List.range 256).any (fun g => kRegions b g && !bitOf x.banks (g / 8)) then some 3
  else if isSet s F.EMN_DBG_OPEN then some 7
  else none

/-- The level a program's build would run at, or 0 (R193). -/
def buildLevel (s : State) (e : Bytes) : Nat :=
  let l := min (leAt e 3 1) (levelMax s)
  if max 1 (leAt e 2 1) ≤ l then l else 0

/-- The builds of the program that an entry belongs to. -/
def buildsOf (b e : Bytes) : List (Bytes × Nat) :=
  (kTable b).filter (fun t => eKind t.1 == 1 && eEngine t.1 == eEngine e && eTarget t.1 == eTarget e)

/-- The highest level that a build of the program runs at. -/
def progLevel (s : State) (b e : Bytes) : Nat := (buildsOf b e).foldl (fun l t => max l (buildLevel s t.1)) 0

/-- The builds that are loaded: of each program the first of the highest common level (R193). -/
def chosen (s : State) (b : Bytes) : List (Bytes × Nat) :=
  (kTable b).filter (fun t => eKind t.1 == 1
    && ((buildsOf b t.1).find? (fun u => buildLevel s u.1 == progLevel s b t.1)).map (·.2) == some t.2)

/-- The plans of a container. -/
def kPlans (b : Bytes) : List Bytes :=
  ((kTable b).filter (fun t => eKind t.1 == 2)).map (fun t => (b.drop (eOff t.1)).take (eLen t.1))

/-- Plan memory has room for a container's plans (R45, R412). -/
def plansFit (s : State) (b : Bytes) : Bool :=
  let l := kPlans b
  isSet s F.TICK_CTL_PLAN_SRC ||
    (decide (s.tick.plans.length + l.length ≤ 16)
      && decide ((s.tick.plans.foldl (fun n q => n + q.size) 0) + (l.foldl (fun n q => n + q.length) 0) ≤ 65536)
      && decide ((s.tick.plans.foldl (fun n q => n + q.items.length) 0) + (l.foldl (fun n q => n + planCount q) 0) ≤ 1536))

/-- The checks of steps 4 and 5 (R412, R469). -/
def roomRefusal (s : State) (p : Nat) (b : Bytes) : Option Nat :=
  if (kTable b).any (fun t => eKind t.1 == 1 && progLevel s b t.1 == 0) then some 4
  else if (chosen s b).any (fun t => engEnable s (eEngine t.1)) then some 5
  else if !plansFit s b || (List.range (kNkeys b)).any (fun k => (tabGet s.sec.slots (8 * p + k) none).isSome) then some 6
  else none

/-- The refusal's DETAIL, after the copy (R412, R469). -/
def loadRefusal (s : State) (p : Nat) (b : Bytes) (good : Bool) (keys : List (Option (BitVec 256))) : Option Nat :=
  if leAt b 4 1 ≤ 1 ∧ 1 ≤ leAt b 5 1 then
    match keyRefusal s p b good keys with
    | some d => some d
    | none => roomRefusal s p b
  else some 1

/-- Block of its key's tag table at which a section's body begins: the bodies of one key take its blocks in the table's order (log entry
113). -/
def blockOf (b : Bytes) (t : Bytes × Nat) : Nat :=
  ((kTable b).filter (fun u => decide (u.2 < t.2) && eKey u.1 == eKey t.1 && eKind u.1 != 5)).foldl (fun n u => n + (eLen u.1 + 4095) / 4096) 0

/-- The CSLOAD descriptor of a program's build staged at `a` (R245, R468). -/
def loadDesc (b : Bytes) (p a : Nat) (t : Bytes × Nat) : Bytes :=
  let enc := eKey t.1 != 0xFF
  let tags := (((kTable b).find? (fun u => eKind u.1 == 5 && eKey u.1 == eKey t.1)).map (fun u => a + eOff u.1)).getD 0
  leBytes 1 2 ++ leBytes 1 0 ++ leBytes 1 (if enc then 1 else 0) ++ leBytes 1 (if enc then 8 * p + eKey t.1 else 0) ++ leBytes 4 (eLen t.1)
    ++ leBytes 8 (a + eOff t.1) ++ leBytes 8 (csAddr (eEngine t.1) + 32 * eTarget t.1) ++ leBytes 8 0
    ++ leBytes 8 (if enc then tags else 0) ++ leBytes 4 (if enc then blockOf b t else 0) ++ List.replicate 20 0

/-- The key slots are released (R469); a key that was in use before goes on with its nonce counter (R258). -/
def releaseKeys (s : State) (p : Nat) (keys : List (Option (BitVec 256))) (n : Nat) : State :=
  { s with sec := { s.sec with slots := (List.range n).foldl (fun t k =>
      tabPut t (8 * p + k) ((nth keys k none).map (fun v =>
        ({ key := v, nonce := ((s.sec.nonces.find? (fun y => y.1 == v)).map (·.2)).getD 0 } : KeySlot))) none) s.sec.slots } }

/-- A container's regions become array-only (R136). -/
def markAo (s : State) (b : Bytes) : State :=
  ((List.range 256).filter (kRegions b)).foldl (fun s g => setF s (F.MAP_AO_AO (g / 32)) (setBit (getF s (F.MAP_AO_AO (g / 32))) (g % 32))) s

/-- A plan of a container is handed to the scheduler, which takes it or not and reports the reason to the loader (R53, R285, R412). -/
def handPlan (r : State × List Nat) (b : Bytes) : State × List Nat :=
  let q := addPlan r.1 b
  let s := { q.1 with tick := { q.1.tick with reported := q.1.tick.reported ++ [((parsePlan b).id, q.2.getD 0)] } }
  (s, if q.2 = none then r.2 ++ [(parsePlan b).id] else r.2)

/-- In on-device mode the scheduler selects the plans: with none in force and none to come, it activates the first plan that a container brings
(R285; log entry 112). -/
def firstPlan (s : State) (ids : List Nat) : State :=
  match ids with
  | id :: _ => if s.tick.base.isNone ∧ s.tick.pending.isEmpty then (activatePlan s id (s.tick.num + 2)).1 else s
  | [] => s

/-- Step 6 of R412. -/
def loadStep6 (s : State) (p a : Nat) (b : Bytes) (keys : List (Option (BitVec 256))) : State :=
  let s := markAo (releaseKeys s p keys (kNkeys b)) b
  let l := chosen s b
  let s := l.foldl (fun s t => csloadRun p s (loadDesc b p a t)) s
  let r := if isSet s F.TICK_CTL_PLAN_SRC then (s, []) else (kPlans b).foldl handPlan ({ s with tick := { s.tick with reported := [] } }, [])
  let s := firstPlan r.1 r.2
  let k : Container := { handle := s.sec.nextHandle, part := p, slots := (List.range (kNkeys b)).map (8 * p + ·), aoFirst := kAoFirst b, aoCount := kAoCount b,
                         plans := r.2, progs := l.map (fun t => (eEngine t.1, eTarget t.1, eLen t.1 / 32)), digest := Config.sha384 b }
  { s with sec := { s.sec with containers := s.sec.containers ++ [k], nextHandle := s.sec.nextHandle + 1 } }

/-- LOAD_CONTAINER (R412): the copy to the staging range, the checks, and then its effects. -/
def loadContainer (g : Nat) (c data : Bytes) (good : Bool) (keys : List (Option (BitVec 256))) (s : State) : Reply :=
  let p := fnPart g
  let n := hArg c 1
  let a := hArg c 2
  if n = 0 ∨ a % 4096 ≠ 0 then { s := s, status := 4 }
  else if inRegions (getP s p) a 1 = false then { s := s, status := 3 }
  else if inRegions (getP s p) a n = false then { s := s, status := 6, detail := 6 }
  else
    let t := (hostWrite (hciMaster g) n a 0 (data.take n) s).1
    if data.length < n then { s := t, status := 6, detail := 8 }
    else match loadRefusal t p (data.take n) good keys with
      | some d => { s := t, status := 6, detail := d }
      | none => { s := loadStep6 t p a (data.take n) keys, result := t.sec.nextHandle }

/-- LOAD_CONTAINER: it waits while a billet has locked key release (R473). -/
def execLoadContainer (g : Fin 9) (n : Fin 4) (c data : Bytes) (good : Bool) (keys : List (Option (BitVec 256))) (s : State) :
    Host.Outcome State Fault Refusal :=
  .next (if s.sec.locked then s else fhp g.val n.val 0x10 c (loadContainer g.val c data good keys) s)

/-- An item of a plan runs a program of a container (R413). -/
def runsProg (k : Container) (it : PlanItem) : Bool :=
  it.part == k.part && k.progs.any (fun x => x.1 == it.engine && decide (x.2.1 ≤ it.arg) && decide (it.arg < x.2.1 + x.2.2))

/-- A plan in force or in its fallback chain holds an item of a container's programs (R413). Engine codes 0 to 6 are control-store indices; an
ISP item's programs are its pipes' and a stereo item's is store 11. -/
def planHolds (s : State) (k : Container) : Bool :=
  (chainNow s).any (fun p => p.items.any (fun it => runsProg k it
    || (it.engine == 0x07 && it.part == k.part && k.progs.any (fun x => decide (7 ≤ x.1) && decide (x.1 < 11) && bitOf it.preset (x.1 - 7)))
    || (it.engine == 0x08 && runsProg k { it with engine := 11 })))

/-- UNLOAD_CONTAINER (R413). -/
def unloadContainer (g : Nat) (c : Bytes) (s : State) : Reply :=
  match s.sec.containers.find? (fun k => k.handle == hArg c 0) with
  | none => { s := s, status := if g = 0 then 4 else 3 }
  | some k =>
    if g ≠ 0 ∧ k.part ≠ fnPart g then { s := s, status := 3 }
    else if planHolds s k then { s := s, status := 5 }
    else
      let s := { s with sec := { s.sec with slots := k.slots.foldl (fun t i => tabPut t i none none) s.sec.slots,
                                            containers := s.sec.containers.filter (fun x => x.handle != k.handle) } }
      let s := clearAo s (fun g => decide (k.aoFirst ≤ g) && decide (g < k.aoFirst + k.aoCount))
      { s := { s with tick := { s.tick with plans := s.tick.plans.filter (fun p => !k.plans.contains p.id),
                                            pending := s.tick.pending.filter (fun x => !k.plans.contains x.1) } } }

/-- UNLOAD_CONTAINER. -/
def execUnloadContainer (g : Fin 9) (n : Fin 4) (c : Bytes) (s : State) : Host.Outcome State Fault Refusal :=
  .next (fhp g.val n.val 0x11 c (unloadContainer g.val c) s)

/-! ### Plans and gates (R49, R285, R381, R409) -/

/-- A command that needs the host to supply plans (R409). -/
def planSrc (s : State) (act : State → Reply) : Reply := if isSet s F.TICK_CTL_PLAN_SRC then act s else { s := s, status := 5 }

/-- The reply to a plan command that the scheduler may refuse. -/
def planReply (r : State × Option Nat) (result : Nat) : Reply :=
  match r.2 with
  | some d => { s := r.1, status := 6, detail := d }
  | none => { s := r.1, result := result }

/-- PLAN_ADD: `data` are the plan's bytes in the host's memory. -/
def planAdd (c data : Bytes) (s : State) : Reply :=
  planSrc s (fun s =>
    if hArg c 1 = 0 then { s := s, status := 4 }
    else if data.length < hArg c 1 then { s := s, status := 7 }
    else planReply (addPlan s (data.take (hArg c 1))) (parsePlan (data.take (hArg c 1))).id)

/-- PLAN_ADD. -/
def execPlanAdd (g : Fin 9) (n : Fin 4) (c data : Bytes) (s : State) : Host.Outcome State Fault Refusal := .next (fhp g.val n.val 0x20 c (planAdd c data) s)

/-- PLAN_ACTIVATE. -/
def execPlanActivate (g : Fin 9) (n : Fin 4) (c : Bytes) (s : State) : Host.Outcome State Fault Refusal :=
  .next (fhp g.val n.val 0x21 c (fun s => planSrc s (fun s => planReply (activatePlan s (hArg c 0) (hArg c 1)) 0)) s)

/-- PLAN_REMOVE. -/
def execPlanRemove (g : Fin 9) (n : Fin 4) (c : Bytes) (s : State) : Host.Outcome State Fault Refusal :=
  .next (fhp g.val n.val 0x22 c (fun s => planSrc s (fun s => planReply (removePlan s (hArg c 0)) 0)) s)

/-- GCL_SET: the list takes effect at the port's next cycle start (R381); none is there when reading it ended in a PCIe error. -/
def gclSet (c data : Bytes) (s : State) : Reply :=
  if !isSet s F.NET_CTL_GCL_SRC then { s := s, status := 5 }
  else if 6 ≤ hArg c 0 ∨ hArg c 2 = 0 ∨ 256 < hArg c 2 then { s := s, status := 4 }
  else if data.isEmpty then { s := s, status := 7 }
  else { s := setNet s { s.net with gclNext := s.net.gclNext.set (hArg c 0) (some data) } }

/-- GCL_SET. -/
def execGclSet (g : Fin 9) (n : Fin 4) (c data : Bytes) (s : State) : Host.Outcome State Fault Refusal := .next (fhp g.val n.val 0x30 c (gclSet c data) s)

/-! ### Queues and milestones (R409, R415) -/

/-- QUEUE_POST: a VF posts to queues of its partition, the PF to any. -/
def queuePost (g : Nat) (c : Bytes) (s : State) : Reply :=
  let q := hArg c 0
  if 8192 ≤ q then { s := s, status := 4 }
  else if g ≠ 0 ∧ (getQ s q).part ≠ fnPart g then { s := s, status := 3 }
  else
    let r := postData s q (leBytes 8 (hArg c 1) ++ leBytes 8 (hArg c 2)) 39 (getQ s q).part
    { s := r.1, status := if r.2 then 0 else 7 }

/-- QUEUE_POST. -/
def execQueuePost (g : Fin 9) (n : Fin 4) (c : Bytes) (s : State) : Host.Outcome State Fault Refusal :=
  .next (fhp g.val n.val 0x40 c (queuePost g.val c) s)

/-- MILESTONE_RING (R415). -/
def milestoneRing (g : Nat) (c : Bytes) (s : State) : Reply :=
  let a := hArg c 0
  let k := hArg c 1
  let put := fun (x : Option (Nat × Nat)) => { s with hif := { s.hif with fns := s.hif.fns.set g { getFn s g with milestone := x } } }
  if a = 0 then { s := put none }
  else if a % 4096 ≠ 0 ∨ k = 0 ∨ 1024 < k ∨ 2 ^ Nat.log2 k ≠ k then { s := s, status := 4 }
  else { s := put (some (a, k)) }

/-- MILESTONE_RING. -/
def execMilestoneRing (g : Fin 9) (n : Fin 4) (c : Bytes) (s : State) : Host.Outcome State Fault Refusal :=
  .next (fhp g.val n.val 0x41 c (milestoneRing g.val c) s)

/-! ### MODE_SET (R416) -/

/-- A switch of one bit of a field: RESULT is its previous value. -/
def modeBit (s : State) (ok : Bool) (x : Fld) (i v : Nat) : Reply :=
  if ok = false then { s := s, status := 5 }
  else
    let old := getF s x
    { s := setF s x (if v = 1 then setBit old i else clearBit old i), result := if bitOf old i then 1 else 0 }

/-- AE_HW and AWB_HW in the FLAGS byte of an ISP context record (R312, R332). -/
def modeIsp (s : State) (ctx v : Nat) : Reply :=
  if ispOn s ctx then { s := s, status := 5 }
  else
    let a := (getI s ctx).recAddr
    let old := (rdByte s.mem a).toNat
    { s := memPut s a [BitVec.ofNat 8 (old / 8 * 8 + old % 2 + 2 * v)], result := old / 2 % 4 }

/-- MODE_SET: ARG0 the function, ARG1 the scope, ARG2 the value (R416). -/
def modeSet (c : Bytes) (s : State) : Reply :=
  let k := hArg c 0
  let i := hArg c 1
  let v := hArg c 2
  if k = 1 then (if i < 32 ∧ v < 4 then modeIsp s i v else { s := s, status := 4 })
  else if 2 ≤ v ∨ ((k = 2 ∨ k = 6) ∧ 8 ≤ i) then { s := s, status := 4 }
  else match k with
    | 2 => modeBit s (!isSet s F.DRN_CTL_ENABLE) F.DRN_QMODE_FORCE_STATIC i v
    | 3 => { s := { s with emn := { s.emn with trnOwner := v } }, result := getF s F.DRC_TRN_CTL_OWNER }
    | 4 => modeBit s (!isSet s F.TICK_CTL_ENABLE) F.TICK_CTL_PLAN_SRC 0 v
    | 5 => modeBit s (!isSet s F.NET_CTL_ENABLE) F.NET_CTL_GCL_SRC 0 v
    | 6 => modeBit s s.hif.paused.isEmpty F.HIF_TRIAGE_PART i v
    | 7 => modeBit s (!isSet s F.ARR_CTL_ENABLE) F.ARR_CTL_RETIRE_MODE 0 v
    | _ => { s := s, status := 4 }

/-- MODE_SET. -/
def execModeSet (g : Fin 9) (n : Fin 4) (c : Bytes) (s : State) : Host.Outcome State Fault Refusal := .next (fhp g.val n.val 0x50 c (modeSet c) s)

/-! ### Host triage (R417) -/

/-- The queued fault records of a partition. -/
def partRecs (s : State) (p : Nat) : List FaultRec := (s.flt.comp.queue ++ s.flt.port.queue).filter (fun r => r.part == some p)

/-- FAULT_READ: the partition's queued records go to the host's buffer of 4 KiB. -/
def faultRead (c : Bytes) (s : State) : Reply :=
  if 8 ≤ hArg c 0 then { s := s, status := 4 }
  else
    let l := (partRecs s (hArg c 0)).take 64
    { s := answer s ((l.map recBytes).flatten) false, result := l.length }

/-- FAULT_READ. -/
def execFaultRead (g : Fin 9) (n : Fin 4) (c : Bytes) (s : State) : Host.Outcome State Fault Refusal := .next (fhp g.val n.val 0x60 c (faultRead c) s)

/-- The host is done with a partition's records, and the pause ends at the next edge. -/
def endPause (s : State) (p : Nat) : State :=
  let q := s.flt.comp.queue.filter (fun r => !(hostHas s r && r.part == some p))
  { s with flt := { s.flt with comp := { s.flt.comp with queue := q } },
           hif := { s.hif with paused := s.hif.paused.map (fun x => if x.part = p then { x with resume := true } else x) } }

/-- FAULT_RESUME: action 0 resumes the partition, action 1 restarts it from its last milestone. -/
def faultResume (c : Bytes) (s : State) : Reply :=
  let p := hArg c 0
  if 2 ≤ hArg c 1 ∨ s.hif.paused.all (fun x => x.part != p) then { s := s, status := 4 }
  else if hArg c 1 = 0 then { s := endPause s p } else { s := partRestart (endPause s p) p }

/-- FAULT_RESUME. -/
def execFaultResume (g : Fin 9) (n : Fin 4) (c : Bytes) (s : State) : Host.Outcome State Fault Refusal :=
  .next (fhp g.val n.val 0x61 c (faultResume c) s)

/-- TRIAGE_TIMEOUT: at `t` no FAULT_RESUME has come for partition `p` in time; the handler takes its faults (R417). -/
def triageTimeout (p t : Nat) (s : State) : State :=
  let s := atComp t s
  let lim := 1000000 * getF s F.HIF_TRIAGE_TIMEOUT_MS
  if s.hif.paused.any (fun x => x.part == p && !x.resume && decide (x.since + lim ≤ t)) then
    let s := { s with hif := { s.hif with paused := s.hif.paused.filter (fun x => x.part != p) } }
    interrupt (setF (setF s F.HIF_DEVSTAT_PAUSED (clearBit (getF s F.HIF_DEVSTAT_PAUSED) p)) F.HIF_DEVSTAT_TRIAGE_LAPSED 1)
  else s

/-- TRIAGE_TIMEOUT. -/
def execTriageTimeout (p t : Nat) (s : State) : Host.Outcome State Fault Refusal := .next (triageTimeout p t s)

end Sys2Proof.Machine
end

