-- ==== Sys2Proof/Machine/Programs.lean ====
section
/-! DEFINITION. The end of a program (R191), with what waits for it. -/

namespace Sys2Proof.Machine

/-- A lane ends with its program (R319, R324): its pipe is free, and its frame may be complete. -/
def laneEnd (s : State) (p : Nat) : State :=
  match (getPipe s p).lane with
  | none => s
  | some (c, n, _) =>
    let s := dropPipe s p
    let s := match findFrame s c n with
      | some f => completeFrame s f
      | none => s
    settleCtx s c

/-- PROGRAM_END (R191): after a HALT, once every effect is acknowledged, the HALT's own cairn included, the engine returns
to IDLE and its item's end is reported; ENABLE writes of 0 that waited for it take effect (R96, R128), and so does a descriptor in the
boot port (R245). -/
def programEnd (e : Nat) (s : State) : State :=
  let g := getE s e
  if g.halted ∧ g.emits = [] ∧ unitDone s e then
    let s := setE s e (idleEngine g)
    let s := applyDisable s e
    let s := if 7 ≤ e ∧ e < 11 then laneEnd s (e - 7) else s
    let s := stepEnded (reportEnd s g.item)
    if e = 2 then runBootPort s else s
  else s

/-- PROGRAM_END. -/
def execProgramEnd (e : Nat) (s : State) : Host.Outcome State Fault Refusal := .next (programEnd e s)

end Sys2Proof.Machine
end

