-- ==== Sys2Proof/Machine/Vision.lean ====
section
/-! DEFINITION. The crop-and-resize unit (R216 to R219) and the stereo engine (R221, R333 to R336). -/

namespace Sys2Proof.Machine

/-! ### Crop and resize -/

/-- The address that generator `k` of engine `e` gives at issue (R164). -/
def genAddr (s : State) (e k : Nat) (w : BitVec 256) : Nat :=
  let a := agFirst (nth (getE s e).ags k {}) (wAgc w k)
  agAddr a a.p

/-- Boxes of a CROP word (R216). -/
def cropN (w : BitVec 256) : Nat := if pF w 0 12 = 0 then 4096 else pF w 0 12
/-- The rounding mode of a CROP word. -/
def cropMode (w : BitVec 256) : RMode := if pF w 42 2 = 0 then .rne else .rna

/-- Sample `i` of `n` over an interval (R218), in Q16.16. -/
def cropPos (a b : Int) (i n : Nat) : Int := a + ((2 * i + 1 : Nat) : Int) * (b - a) / ((2 * n : Nat) : Int) - 32768

/-- The four source pixels of an output sample, with the fractions (R218). -/
structure CropAt where
  y0 : Int
  x0 : Int
  fy : Nat
  fx : Nat
  deriving DecidableEq, Repr

/-- Where sample (i, j) of a box lies (R217, R218). -/
def cropAt (box : Bytes) (h wd i j : Nat) : CropAt :=
  let c := fun (k : Nat) => sext 32 (leAt box (4 * k) 4)
  let ys := cropPos (c 0) (c 2) i h
  let xs := cropPos (c 1) (c 3) j wd
  { y0 := ys / 65536, x0 := xs / 65536, fy := (ys % 65536).toNat, fx := (xs % 65536).toNat }

/-- The value of an output sample from its four source codes (R218), as a code of format `fo`. -/
def cropVal (fs fo : Nat) (mode : RMode) (p : CropAt) (v : List Nat) : Nat :=
  match fmtElem fs, fmtElem fo with
  | some es, some eo =>
    let c := fun (k : Nat) => nth v k 0
    if es.ffmt.isNone then
      let n := fun (k : Nat) => sext es.bits (c k)
      let a := (n 0 * (65536 - p.fx : Nat) + n 1 * p.fx) * (65536 - p.fy : Nat) + (n 2 * (65536 - p.fx : Nat) + n 3 * p.fx) * p.fy
      (narrow (fvInt (roundShift a 32 (mode == .rna))) eo mode).code
    else
      let n := fun (k : Nat) => es.toF32 (c k)
      let wx := fp32.rn (.fin false p.fx 65536)
      let wy := fp32.rn (.fin false p.fy 65536)
      let one := fp32.rn (fvInt 1)
      let mix := fun (a b t : Nat) => fAdd (fMul a (fSub one t)) (fMul b t)
      (narrow (fp32.decode (mix (mix (n 0) (n 1) wx) (mix (n 2) (n 3) wx) wy)) eo mode).code
  | _, _ => 0

/-- One box is resampled: the state, and whether a source row was poisoned. -/
def cropBox (s : State) (w : BitVec 256) (src out : TDesc) (b : Nat) (box : Bytes) : State × Bool :=
  let h := pF w 26 6 + 1
  let wd := pF w 32 6 + 1
  let ch := src.dim 0
  let m := engMaster 6 (getE s 6).part
  let pts := (List.range (h * wd * ch)).map (fun k => (k / ch / wd, k / ch % wd, k % ch))
  let at_ := fun (q : Nat × Nat × Nat) => cropAt box h wd q.1 q.2.1
  let cs := pts.flatMap (fun q => let p := at_ q; [(((q.2.2 : Nat) : Int), p.x0, p.y0, (0 : Int)), (q.2.2, p.x0 + 1, p.y0, 0),
    (q.2.2, p.x0, p.y0 + 1, 0), (q.2.2, p.x0 + 1, p.y0 + 1, 0)])
  let r := tensRead s m .crop src cs
  let val := fun (k : Nat) (q : Nat × Nat × Nat) => cropVal src.fmt (pF w 38 4) (cropMode w) (at_ q) ((r.2.1.drop (4 * k)).take 4) % 16 ^ out.nib
  let els := (pts.zipIdx.map (fun x =>
    (out.coords ((x.1.2.2 : Nat) : Int) ((x.1.2.1 : Nat) : Int) ((b * h + x.1.1 : Nat) : Int) 0).map (fun c => (out.nibOff c, val x.2 x.1)))).filterMap id
  if r.2.2 then (r.1, true) else (tensWrite r.1 m .crop out els, false)

/-- The boxes of a CROP word from number `vis.boxes` on (R216, R219): it holds while BQ has no data entry at its head. -/
def cropLoop (w : BitVec 256) (src out : TDesc) : Nat → State → Eff
  | 0, s => .act (applyDisable { s with vis := { s.vis with boxes := 0 } } 6)
  | n + 1, s =>
    let b := cropN w - (n + 1)
    let next := fun (s : State) (box : Bytes) (go : State → Eff) =>
      let r := cropBox s w src out b box
      if r.2 then Eff.stopped (engHalt r.1 6) else go { r.1 with vis := { r.1.vis with boxes := b + 1 } }
    if bitOf (pF w 0 13) 12 then
      let r := busRead s (engMaster 6 (getE s 6).part) .crop (genAddr s 6 0 w + 16 * b) 16
      if r.poison then .stopped (engHalt r.s 6) else next r.s r.data (cropLoop w src out n)
    else match headQ s (pF w 13 13) with
      | some x => if x.cairn then .hold s else next (popQ s (pF w 13 13)) x.data (cropLoop w src out n)
      | none => .hold s

/-- What CROP does at issue: at its first box a change of partition clears tile memory 3 (R31); its descriptors are used (R225). -/
def cropAct (w : BitVec 256) (s : State) : Eff :=
  let part := (getE s 6).part
  let s := if s.vis.crsPart.all (· == part) then s else clearTile s 3
  let s := { s with vis := { s.vis with crsPart := some part } }
  match useDesc s 6 .crop (genAddr s 6 1 w) false false with
  | .stop s => .stopped s
  | .ok s src =>
    match useDesc s 6 .crop (genAddr s 6 2 w) true false with
    | .stop s => .stopped s
    | .ok s out => cropLoop w src out (cropN w - s.vis.boxes) s

/-- CROP. -/
def cropWord (e : Nat) (w : BitVec 256) (s : State) : State :=
  if e = 6 then
      issue s e w (rsvReason (pF w 44 76) ++ singleCycle w
        ++ when (decide (2 ≤ pF w 42 2) || (fmtElem (pF w 38 4)).isNone) 1
        ++ when (!bitOf (pF w 0 13) 12 && !(qBound (getQ s (pF w 13 13)) && (getQ s (pF w 13 13)).consumer == 6)) 7)
        (cropAct w)
    else s

/-! ### Stereo -/

def dRow0 (w : BitVec 256) : Nat := pF w 0 14
def dRows (w : BitVec 256) : Nat := pF w 14 14
def dMin (w : BitVec 256) : Nat := pF w 28 8
def dCount (w : BitVec 256) : Nat := pF w 36 9

/-- The reason of R337 for which a DISP word is refused, if any. -/
def dispBad (w : BitVec 256) (l r d : TDesc) (c : Option TDesc) : Option Nat :=
  let inOk := fun (t : TDesc) => t.dim 0 == 1 && (t.fmt == 0 || t.fmt == 6)
  let same := fun (t : TDesc) => t.dim 1 == l.dim 1 && t.dim 2 == l.dim 2
  if !inOk l || !inOk r || !(d.dim 0 == 1 && d.fmt == 6) || !(c.map (fun t => t.dim 0 == 1 && t.fmt == 0)).getD true then some 1
  else if !same r || !same d || !(c.map same).getD true then some 2
  else if 1048576 < l.dim 1 * dCount w then some 3
  else if l.dim 2 < dRow0 w + dRows w then some 4
  else none

/-- Offsets of the census window, 9 columns by 7 rows without its centre (R334). -/
def censusWin : List (Int × Int) :=
  ((List.range 63).map (fun i => (((i % 9 : Nat) : Int) - 4, ((i / 9 : Nat) : Int) - 3))).filter (fun d => d != (0, 0))

/-- The census of an image at (x, y). -/
def census (px : Int → Int → Int) (x y : Nat) : List Bool := censusWin.map (fun d => decide (px x y < px (x + d.1) (y + d.2)))

/-- Positions in which two censuses differ. -/
def hamming (a b : List Bool) : Nat := ((a.zip b).filter (fun p => p.1 != p.2)).length

/-- The least value of a list; 0 of none. -/
def least (l : List Nat) : Nat := match l with
  | [] => 0
  | a :: r => r.foldl min a

/-- One step of a path (R334): costs `c` by disparity, the previous pixel's path values `q` if there is one. -/
def pathStep (p1 p2 : Nat) (q : Option (List Nat)) (c : List Nat) : List Nat :=
  match q with
  | none => c
  | some q =>
    let m := least q
    c.zipIdx.map (fun x =>
      let k := x.2
      let side := (if k = 0 then [] else [nth q (k - 1) 0 + p1]) ++ (if k + 1 < q.length then [nth q (k + 1) 0 + p1] else [])
      min 65535 (x.1 + least (nth q k 0 :: (m + p2) :: side) - m))

/-- Path values along a row, in the list's order (R334). -/
def pathRow (p1 p2 : Nat) : Option (List Nat) → List (List Nat) → List (List Nat)
  | _, [] => []
  | q, c :: cs => let l := pathStep p1 p2 q c; l :: pathRow p1 p2 (some l) cs

/-- Sums of the three paths of a row by column and disparity, and the top-to-bottom values for the next row (R334). -/
def rowSums (p1 p2 : Nat) (cost : List (List Nat)) (up : Option (List (List Nat))) : List (List Nat) × List (List Nat) :=
  let lr := pathRow p1 p2 none cost
  let rl := (pathRow p1 p2 none cost.reverse).reverse
  let tb := cost.zipIdx.map (fun x => pathStep p1 p2 (up.map (fun u => nth u x.2 [])) x.1)
  ((List.range cost.length).map (fun x => (List.range (nth cost x []).length).map (fun k =>
    nth (nth lr x []) k 0 + nth (nth rl x []) k 0 + nth (nth tb x []) k 0)), tb)

/-- The lowest index of least value of a list. -/
def argLeast (l : List Nat) : Nat := (l.idxOf? (least l)).getD 0

/-- Division rounded to the nearest integer, halves away from zero. -/
def divAway (n m : Int) : Int :=
  let a := n.natAbs; let b := m.natAbs
  let q : Int := (2 * a + b) / (2 * b)
  if (n < 0) != (m < 0) then -q else q

/-- The right disparity of R334 at column `x` (which may lie left of the image), as an index from DMIN. -/
def rightDisp (sums : List (List Nat)) (dm dc : Nat) (x : Int) : Nat :=
  let l := (List.range dc).filter (fun k => decide (0 ≤ x + (dm + k : Nat)) && decide (x + (dm + k : Nat) < sums.length))
  let v := fun (k : Nat) => nth (nth sums (x + (dm + k : Nat)).toNat []) k 0
  l.foldl (fun b k => if v k < v b then k else b) (l.head?.getD 0)

/-- Disparity and confidence of a column (R334, R335), as codes. -/
def dispPixel (w : BitVec 256) (tol : Nat) (sums : List (List Nat)) (x : Nat) : Nat × Nat :=
  let l := nth sums x []
  let dm := dMin w
  let k := argLeast l
  let d := dm + k
  let sv := fun (i : Nat) => ((nth l i 0 : Nat) : Int)
  let n := sv (k - 1) - sv (k + 1)
  let m := 2 * (sv (k - 1) - 2 * sv k + sv (k + 1))
  let v : Int := 16 * d + (if bitOf (pF w 45 1) 0 && decide (0 < k) && decide (k + 1 < l.length) && m != 0 then divAway (16 * n) m else 0)
  let r := dm + rightDisp sums dm (dCount w) ((x : Int) - d)
  let bad := decide (x < dm) || (bitOf (pF w 47 1) 0 && decide (tol < ((d : Int) - r).natAbs))
  let far := (l.zipIdx.filter (fun y => decide (2 ≤ ((y.2 : Int) - k).natAbs))).map (·.1)
  let s1 := nth l k 0
  let s2 := least far
  let conf := if bad then 0 else if far.isEmpty then 127 else min 127 (128 * (s2 - s1) / (s2 + 1))
  (wrapU 16 (if bad then -1 else v), conf)

/-- Costs of a row by column and disparity (R334). -/
def rowCost (w : BitVec 256) (d1 : Nat) (pl pr : Int → Int → Int) (y : Nat) : List (List Nat) :=
  let cl := (List.range d1).map (fun x => census pl x y)
  let cr := (List.range d1).map (fun x => census pr x y)
  (List.range d1).map (fun x => (List.range (dCount w)).map (fun k =>
    if x < dMin w + k then 63 else hamming (nth cl x []) (nth cr (x - (dMin w + k)) [])))

/-- Rows `y` on of a band: disparity and confidence by row. -/
def bandRows (w : BitVec 256) (p1 p2 tol d1 : Nat) (pl pr : Int → Int → Int) : Nat → Nat → Option (List (List Nat)) → List (List (Nat × Nat))
  | 0, _, _ => []
  | n + 1, y, up =>
    let r := rowSums p1 p2 (rowCost w d1 pl pr y) up
    (List.range d1).map (dispPixel w tol r.1) :: bandRows w p1 p2 tol d1 pl pr n (y + 1) (some r.2)

/-- Luma of the rows a band reads, three beyond it on either side (R334): the state, the image as a function, and whether a row was
poisoned. Every access, four columns beyond the image included, goes through the descriptor (R227, R228). -/
def bandImage (s : State) (m : Master) (w : BitVec 256) (d : TDesc) : State × (Int → Int → Int) × Bool :=
  let y0 : Int := dRow0 w - 3
  let d1 := d.dim 1 + 8
  let r := tensRead s m .image d ((List.range ((dRows w + 6) * d1)).map (fun i =>
    ((0 : Int), ((i % d1 : Nat) : Int) - 4, ((i / d1 : Nat) : Int) + y0, (0 : Int))))
  (r.1, fun (x y : Int) => sext (4 * d.nib) (nth r.2.1 ((y - y0).toNat * d1 + (x + 4).toNat) 0), r.2.2)

/-- A band is computed and written, with its commit bits (R334, R335). -/
def dispBand (s : State) (w : BitVec 256) (l r d : TDesc) (c : Option TDesc) : Eff :=
  let m := engMaster 11 (getE s 11).part
  let il := bandImage s m w l
  let ir := bandImage il.1 m w r
  if il.2.2 || ir.2.2 then .stopped (engHalt ir.1 11)
  else
    let commit := fun (s : State) (v : Bool) => c.toList.foldl (fun s t => (putCommit s m t.addr v).1) (putCommit s m d.addr v).1
    let s := if dRow0 w = 0 then commit ir.1 false else ir.1
    let p1 := getF s F.STR_CTL_P1
    let rows := bandRows w p1 (max p1 (getF s F.STR_CTL_P2)) (getF s F.STR_CTL_LR_TOL) (l.dim 1) il.2.1 ir.2.1 (dRows w) (dRow0 w) none
    let els := fun (t : TDesc) (f : Nat × Nat → Nat) => ((rows.zipIdx.flatMap (fun y => y.1.zipIdx.map (fun x =>
      (t.coords 0 ((x.2 : Nat) : Int) ((dRow0 w + y.2 : Nat) : Int) 0).map (fun c => (t.nibOff c, f x.1)))))).filterMap id
    let s := tensWrite s m .image d (els d (·.1))
    let s := match c with
      | some t => tensWrite s m .image t (els t (·.2))
      | none => s
    .act (if dRow0 w + dRows w = d.dim 2 then commit s true else s)

/-- DISP goes on after its hold: the band's last output row is written (R221, R222), through the descriptors checked at issue; its reads
of DRAM may have to wait (R352). -/
def dispGoesOn (w : BitVec 256) (s : State) : Eff :=
  let d := fun (k : Nat) => tdesc s (genAddr s 11 k w)
  if dramWaits s 9 (d 0).base ∨ dramWaits s 9 (d 1).base then .hold s
  else dispBand { s with vis := { s.vis with band := false } } w (d 0) (d 1) (d 2) (if bitOf (pF w 46 1) 0 then some (d 3) else none)

/-- What DISP does at issue: a change of partition clears tile memory 8 (R31), its descriptors are used (R225) and checked (R337), and
the word holds while its band is in progress (R222). -/
def dispAct (w : BitVec 256) (s : State) : Eff :=
  if s.vis.band then dispGoesOn w s
  else
  let part := (getE s 11).part
  let s := useBuf (turnBuf (if s.vis.strPart.all (· == part) then s else clearTile s 8) 4 part) 4 part
  let s := { s with vis := { s.vis with strPart := some part } }
  match useDesc s 11 .image (genAddr s 11 0 w) false false with
  | .stop s => .stopped s
  | .ok s l =>
    match useDesc s 11 .image (genAddr s 11 1 w) false false with
    | .stop s => .stopped s
    | .ok s r =>
      match useDesc s 11 .image (genAddr s 11 2 w) true false with
      | .stop s => .stopped s
      | .ok s d =>
        let conf := bitOf (pF w 46 1) 0
        match (if conf then useDesc s 11 .image (genAddr s 11 3 w) true false else Use.ok s d) with
        | .stop s => .stopped s
        | .ok s c =>
          let c := if conf then some c else none
          match dispBad w l r d c with
          | some k => .stopped (engFault s 11 0x0151 [k])
          | none => .hold { s with vis := { s.vis with band := true } }

/-- DISP. -/
def dispWord (e : Nat) (w : BitVec 256) (s : State) : State :=
  if e = 11 then
      issue s e w (rsvReason (pF w 48 72) ++ singleCycle w
        ++ when (dRows w == 0 || dCount w == 0 || decide (256 < dCount w) || decide (256 < dMin w + dCount w)) 1) (dispAct w)
    else s

end Sys2Proof.Machine
end

