-- ==== Sys2Proof/Machine/Words.lean ====
section
/-! DEFINITION. The commands that issue a control word: CLASS decides how the payload is read (R160, R161, R200), and OP what a WIN word
does (R169). -/

namespace Sys2Proof.Machine

/-- OP of a WIN word (R169). -/
def winOp (w : BitVec 256) : Nat := pF w 0 2

/-- A word reaches issue on an engine, its CLASS deciding how its payload is read (R160, R161, R200). A class that the engine does not
list, and the reserved OP of a WIN word, raise HXR_ILLEGAL reason 1 (R162). -/
def wordIssue (e : Nat) (w : BitVec 256) (s : State) : State :=
  match wClass w with
  | 0x0 => nopWord e w s
  | 0x1 => agsetLoWord e w s
  | 0x2 => agsetHiWord e w s
  | 0x3 => setsWord e w s
  | 0x4 => ksetWord e w s
  | 0x5 => haltWord e w s
  | 0x6 =>
    match winOp w with
    | 1 => winOpenWord e w s
    | 2 => winCloseWord e w s
    | 3 => winReleaseWord e w s
    | _ => issue s e w [1] .act
  | 0x8 =>
    if e = 0 then opbeginWord e w s else if e = 1 then chainWord w s else if e < 6 then xferWord e w s
    else if e = 6 then cropWord e w s else if e < 11 then laneWord e w s else dispWord e w s
  | 0x9 => if e = 0 then loadWord e w s else if e = 1 then drainWord w none none s else issue s e w [1] .act
  | 0xA => if e = 0 then streamWord e w none s else if e = 1 then commitWord w s else issue s e w [1] .act
  | 0xB => if e = 0 then fillWord e w s else if e = 1 then optstepWord w none s else issue s e w [1] .act
  | 0xC => if e = 0 then safeWord e w s else issue s e w [1] .act
  | 0xD => if e = 0 then opendWord e w s else issue s e w [1] .act
  | _ => issue s e w [1] .act

/-- A word's own payload where its CLASS is `c` on an engine of the row; any other word as its CLASS says. -/
def asClass (c : Nat) (eng : Bool) (e : Nat) (w : BitVec 256) (own : State → State) (s : State) : State :=
  if wClass w = c ∧ eng then own s else wordIssue e w s

/-- NOP (R161): the common fields only. -/
def execNop (e : Nat) (w : BitVec 256) (s : State) : Host.Outcome State Fault Refusal :=
  .next (asClass 0x0 true e w (nopWord e w) s)
/-- AGSET_LO: AG0 and AG1 (R161, R163). -/
def execAgsetLo (e : Nat) (w : BitVec 256) (s : State) : Host.Outcome State Fault Refusal :=
  .next (asClass 0x1 true e w (agsetLoWord e w) s)
/-- AGSET_HI: AG2 and AG3 (R161, R163). -/
def execAgsetHi (e : Nat) (w : BitVec 256) (s : State) : Host.Outcome State Fault Refusal :=
  .next (asClass 0x2 true e w (agsetHiWord e w) s)
/-- SETS (R168). -/
def execSets (e : Nat) (w : BitVec 256) (s : State) : Host.Outcome State Fault Refusal :=
  .next (asClass 0x3 true e w (setsWord e w) s)
/-- KSET (R167, R170). -/
def execKset (e : Nat) (w : BitVec 256) (s : State) : Host.Outcome State Fault Refusal :=
  .next (asClass 0x4 true e w (ksetWord e w) s)
/-- HALT (R161, R191). -/
def execHalt (e : Nat) (w : BitVec 256) (s : State) : Host.Outcome State Fault Refusal :=
  .next (asClass 0x5 true e w (haltWord e w) s)
/-- WIN_OPEN (R169). -/
def execWinOpen (e : Nat) (w : BitVec 256) (s : State) : Host.Outcome State Fault Refusal :=
  .next (asClass 0x6 (winOp w == 1) e w (winOpenWord e w) s)
/-- WIN_CLOSE (R169). -/
def execWinClose (e : Nat) (w : BitVec 256) (s : State) : Host.Outcome State Fault Refusal :=
  .next (asClass 0x6 (winOp w == 2) e w (winCloseWord e w) s)
/-- WIN_RELEASE (R169, R141). -/
def execWinRelease (e : Nat) (w : BitVec 256) (s : State) : Host.Outcome State Fault Refusal :=
  .next (asClass 0x6 (winOp w == 3) e w (winReleaseWord e w) s)
/-- OPBEGIN (R201). -/
def execOpbegin (e : Nat) (w : BitVec 256) (s : State) : Host.Outcome State Fault Refusal :=
  .next (asClass 0x8 (e == 0) e w (opbeginWord e w) s)
/-- LOAD (R202). -/
def execLoad (e : Nat) (w : BitVec 256) (s : State) : Host.Outcome State Fault Refusal :=
  .next (asClass 0x9 (e == 0) e w (loadWord e w) s)
/-- STREAM (R203 to R205). -/
def execStream (e : Nat) (w : CutWord) (s : State) : Host.Outcome State Fault Refusal :=
  .next (asClass 0xA (e == 0) e w.w (streamWord e w.w w.cut) s)
/-- FILL (R206). -/
def execFill (e : Nat) (w : BitVec 256) (s : State) : Host.Outcome State Fault Refusal :=
  .next (asClass 0xB (e == 0) e w (fillWord e w) s)
/-- SAFE (R207). -/
def execSafe (e : Nat) (w : BitVec 256) (s : State) : Host.Outcome State Fault Refusal :=
  .next (asClass 0xC (e == 0) e w (safeWord e w) s)
/-- OPEND (R208). -/
def execOpend (e : Nat) (w : BitVec 256) (s : State) : Host.Outcome State Fault Refusal :=
  .next (asClass 0xD (e == 0) e w (opendWord e w) s)
/-- CHAIN (R209). -/
def execChain (w : BitVec 256) (s : State) : Host.Outcome State Fault Refusal :=
  .next (asClass 0x8 true 1 w (chainWord w) s)
/-- DRAIN (R212); `par` is the word cycle whose vector shows a parity error, if any. -/
def execDrain (w : CutWord) (par : Option Nat) (s : State) : Host.Outcome State Fault Refusal :=
  .next (asClass 0x9 true 1 w.w (drainWord w.w par w.cut) s)
/-- COMMIT (R213). -/
def execCommit (w : BitVec 256) (s : State) : Host.Outcome State Fault Refusal :=
  .next (asClass 0xA true 1 w (commitWord w) s)
/-- OPTSTEP (R214). -/
def execOptstep (w : CutWord) (s : State) : Host.Outcome State Fault Refusal :=
  .next (asClass 0xB true 1 w.w (optstepWord w.w w.cut) s)
/-- XFER (R215). -/
def execXfer (e : Nat) (w : BitVec 256) (s : State) : Host.Outcome State Fault Refusal :=
  .next (asClass 0x8 (decide (2 ≤ e) && decide (e < 6)) e w (xferWord e w) s)
/-- CROP (R216). -/
def execCrop (e : Nat) (w : BitVec 256) (s : State) : Host.Outcome State Fault Refusal :=
  .next (asClass 0x8 (e == 6) e w (cropWord e w) s)
/-- LANE (R220). -/
def execLane (e : Nat) (w : BitVec 256) (s : State) : Host.Outcome State Fault Refusal :=
  .next (asClass 0x8 (decide (7 ≤ e) && decide (e < 11)) e w (laneWord e w) s)
/-- DISP (R221). -/
def execDisp (e : Nat) (w : BitVec 256) (s : State) : Host.Outcome State Fault Refusal :=
  .next (asClass 0x8 (e == 11) e w (dispWord e w) s)

end Sys2Proof.Machine
end

