-- ==== Sys2Proof/Machine/Dispatch.lean ====
section
/-! DEFINITION. One arm per command: the meaning it calls. -/

namespace Sys2Proof.Machine

def exec (i : Instr) (s : State) : Host.Outcome State Fault Refusal :=
  match i with
  | .causewayDataFlit toComp sent got => Sys2Proof.Machine.execCausewayDataFlit toComp sent got s
  | .causewayNak toComp good => Sys2Proof.Machine.execCausewayNak toComp good s
  | .causewayAck toComp => Sys2Proof.Machine.execCausewayAck toComp s
  | .causewayAckTimeout toComp => Sys2Proof.Machine.execCausewayAckTimeout toComp s
  | .causewayTraining => Sys2Proof.Machine.execCausewayTraining s
  | .causewayTrainingTimeout => Sys2Proof.Machine.execCausewayTrainingTimeout s
  | .timeSync copy22 copy23 => Sys2Proof.Machine.execTimeSync copy22 copy23 s
  | .tickAnnounceSend t first => Sys2Proof.Machine.execTickAnnounceSend t first s
  | .tickAnnouncement copy22 copy23 => Sys2Proof.Machine.execTickAnnouncement copy22 copy23 s
  | .tickEdgeMessage copy22 copy23 => Sys2Proof.Machine.execTickEdgeMessage copy22 copy23 s
  | .faultNotification copy22 copy23 => Sys2Proof.Machine.execFaultNotification copy22 copy23 s
  | .signalAcknowledgement ofFault copy22 copy23 => Sys2Proof.Machine.execSignalAcknowledgement ofFault copy22 copy23 s
  | .signalRepeat ofFault => Sys2Proof.Machine.execSignalRepeat ofFault s
  | .announceAckDeadline t => Sys2Proof.Machine.execAnnounceAckDeadline t s
  | .domainPowerDown d => Sys2Proof.Machine.execDomainPowerDown d s
  | .domainPowerUp d => Sys2Proof.Machine.execDomainPowerUp d s
  | .memoryAccess m bar a n wr x => Sys2Proof.Machine.execMemoryAccess m bar a n wr x s
  | .tickEdge t => Sys2Proof.Machine.execTickEdge t s
  | .itemOffsetStart idx t => Sys2Proof.Machine.execItemOffsetStart idx t s
  | .itemChainedStart idx t => Sys2Proof.Machine.execItemChainedStart idx t s
  | .stagedWordIssue e => Sys2Proof.Machine.execStagedWordIssue e s
  | .itemEnd idx t => Sys2Proof.Machine.execItemEnd idx t s
  | .deadlineMiss idx t => Sys2Proof.Machine.execDeadlineMiss idx t s
  | .itemRunonLimit idx t => Sys2Proof.Machine.execItemRunonLimit idx t s
  | .milestoneRecord t => Sys2Proof.Machine.execMilestoneRecord t s
  | .tickCtlWrite m v => Sys2Proof.Machine.execTickCtlWrite m v s
  | .tickNumLoRead m => Sys2Proof.Machine.execTickNumLoRead m s
  | .utilLoRead m k => Sys2Proof.Machine.execUtilLoRead m k s
  | .opbegin e w => Sys2Proof.Machine.execOpbegin e w s
  | .load e w => Sys2Proof.Machine.execLoad e w s
  | .loadComplete => Sys2Proof.Machine.execLoadComplete s
  | .stream e w => Sys2Proof.Machine.execStream e w s
  | .fill e w => Sys2Proof.Machine.execFill e w s
  | .fillRowArrive tgt => Sys2Proof.Machine.execFillRowArrive tgt s
  | .safe e w => Sys2Proof.Machine.execSafe e w s
  | .opend e w => Sys2Proof.Machine.execOpend e w s
  | .operationEnd => Sys2Proof.Machine.execOperationEnd s
  | .tileCheck up => Sys2Proof.Machine.execTileCheck up s
  | .arrColRetireReq m v => Sys2Proof.Machine.execArrColRetireReq m v s
  | .retirementApply => Sys2Proof.Machine.execRetirementApply s
  | .groupPowerUp g => Sys2Proof.Machine.execGroupPowerUp g s
  | .arrCtlWrite m v => Sys2Proof.Machine.execArrCtlWrite m v s
  | .arrColcntWrite m v => Sys2Proof.Machine.execArrColcntWrite m v s
  | .chain w => Sys2Proof.Machine.execChain w s
  | .drain w par => Sys2Proof.Machine.execDrain w par s
  | .commit w => Sys2Proof.Machine.execCommit w s
  | .optstep w => Sys2Proof.Machine.execOptstep w s
  | .reduceDeposit => Sys2Proof.Machine.execReduceDeposit s
  | .drnCtlWrite m v => Sys2Proof.Machine.execDrnCtlWrite m v s
  | .mapStoreAccess m port crypt a len wr errs => Sys2Proof.Machine.execMapStoreAccess m port crypt a len wr errs s
  | .eccWriteBack row => Sys2Proof.Machine.execEccWriteBack row s
  | .mapPatrolScrub errs => Sys2Proof.Machine.execMapPatrolScrub errs s
  | .tilePatrolScrub errs => Sys2Proof.Machine.execTilePatrolScrub errs s
  | .remoteWrite m t w epoch row ws => Sys2Proof.Machine.execRemoteWrite m t w epoch row ws s
  | .creditRequest m t w n => Sys2Proof.Machine.execCreditRequest m t w n s
  | .creditGrant t w => Sys2Proof.Machine.execCreditGrant t w s
  | .creditReturn m t w k => Sys2Proof.Machine.execCreditReturn m t w k s
  | .creditTimeout t w => Sys2Proof.Machine.execCreditTimeout t w s
  | .revocation code t w => Sys2Proof.Machine.execRevocation code t w s
  | .revocationAck code t w => Sys2Proof.Machine.execRevocationAck code t w s
  | .windowOpenAccept t w => Sys2Proof.Machine.execWindowOpenAccept t w s
  | .winOpen e w => Sys2Proof.Machine.execWinOpen e w s
  | .winClose e w => Sys2Proof.Machine.execWinClose e w s
  | .winRelease e w => Sys2Proof.Machine.execWinRelease e w s
  | .crdWinctlOpen m => Sys2Proof.Machine.execCrdWinctlOpen m s
  | .crdWinctlClose m => Sys2Proof.Machine.execCrdWinctlClose m s
  | .crdWinctlRelease m n => Sys2Proof.Machine.execCrdWinctlRelease m n s
  | .nop e w => Sys2Proof.Machine.execNop e w s
  | .agsetLo e w => Sys2Proof.Machine.execAgsetLo e w s
  | .agsetHi e w => Sys2Proof.Machine.execAgsetHi e w s
  | .sets e w => Sys2Proof.Machine.execSets e w s
  | .kset e w => Sys2Proof.Machine.execKset e w s
  | .halt e w => Sys2Proof.Machine.execHalt e w s
  | .programEnd e => Sys2Proof.Machine.execProgramEnd e s
  | .cairnEnter e => Sys2Proof.Machine.execCairnEnter e s
  | .cairnWait e => Sys2Proof.Machine.execCairnWait e s
  | .engineHoldRelease e => Sys2Proof.Machine.execEngineHoldRelease e s
  | .hxrStartGo m e v => Sys2Proof.Machine.execHxrStartGo m e v s
  | .xfer e w => Sys2Proof.Machine.execXfer e w s
  | .dmaCopy e => Sys2Proof.Machine.execDmaCopy e s
  | .dmaTensor e => Sys2Proof.Machine.execDmaTensor e s
  | .dmaCsload e => Sys2Proof.Machine.execDmaCsload e s
  | .dmaSmall e => Sys2Proof.Machine.execDmaSmall e s
  | .bootPortDescriptor m raw => Sys2Proof.Machine.execBootPortDescriptor m raw s
  | .burstComplete e k => Sys2Proof.Machine.execBurstComplete e k s
  | .blockAuth e => Sys2Proof.Machine.execBlockAuth e s
  | .xferComplete e => Sys2Proof.Machine.execXferComplete e s
  | .footpathAccess m a n wr x => Sys2Proof.Machine.execFootpathAccess m a n wr x s
  | .footpathTagGrant => Sys2Proof.Machine.execFootpathTagGrant s
  | .stepSubmit q => Sys2Proof.Machine.execStepSubmit q s
  | .elasticStepStart t => Sys2Proof.Machine.execElasticStepStart t s
  | .stepCompletion => Sys2Proof.Machine.execStepCompletion s
  | .shareExpiry p t => Sys2Proof.Machine.execShareExpiry p t s
  | .shapeEntry q t => Sys2Proof.Machine.execShapeEntry q t s
  | .laybyLeadRequest t => Sys2Proof.Machine.execLaybyLeadRequest t s
  | .lbyCmdEnter m => Sys2Proof.Machine.execLbyCmdEnter m s
  | .lbyCmdResume m p => Sys2Proof.Machine.execLbyCmdResume m p s
  | .laybyLate t => Sys2Proof.Machine.execLaybyLate t s
  | .laybyEntryComplete par t => Sys2Proof.Machine.execLaybyEntryComplete par t s
  | .laybyExitBegin t => Sys2Proof.Machine.execLaybyExitBegin t s
  | .laybyExitComplete t => Sys2Proof.Machine.execLaybyExitComplete t s
  | .csiFrameStart port vc fn hdr t => Sys2Proof.Machine.execCsiFrameStart port vc fn hdr t s
  | .csiLongPacket port vc dt d crcOk hdr => Sys2Proof.Machine.execCsiLongPacket port vc dt d crcOk hdr s
  | .csiFrameEnd port vc hdr t => Sys2Proof.Machine.execCsiFrameEnd port vc hdr t s
  | .csiPhyError port => Sys2Proof.Machine.execCsiPhyError port s
  | .rawReleaseNotice => Sys2Proof.Machine.execRawReleaseNotice s
  | .camCtlWrite m v => Sys2Proof.Machine.execCamCtlWrite m v s
  | .camWscmdPost m v => Sys2Proof.Machine.execCamWscmdPost m v s
  | .writeSetStart port t => Sys2Proof.Machine.execWriteSetStart port t s
  | .writeSetEntry port ack rd => Sys2Proof.Machine.execWriteSetEntry port ack rd s
  | .i3cIbi port addr => Sys2Proof.Machine.execI3cIbi port addr s
  | .triggerPulse n t => Sys2Proof.Machine.execTriggerPulse n t s
  | .triggerPulseEnd n t => Sys2Proof.Machine.execTriggerPulseEnd n t s
  | .ispCtxenWrite m v => Sys2Proof.Machine.execIspCtxenWrite m v s
  | .ispFeedWrite m v => Sys2Proof.Machine.execIspFeedWrite m v s
  | .laneDispatch p => Sys2Proof.Machine.execLaneDispatch p s
  | .lane e w => Sys2Proof.Machine.execLane e w s
  | .ispOutputRow p => Sys2Proof.Machine.execIspOutputRow p s
  | .disp e w => Sys2Proof.Machine.execDisp e w s
  | .crop e w => Sys2Proof.Machine.execCrop e w s
  | .codecJobStart k => Sys2Proof.Machine.execCodecJobStart k s
  | .codecJobComplete k => Sys2Proof.Machine.execCodecJobComplete k s
  | .dramBurst m r a len wr link ecc => Sys2Proof.Machine.execDramBurst m r a len wr link ecc s
  | .skewWindow occ holders => Sys2Proof.Machine.execSkewWindow occ holders s
  | .rhWindowStart ch bank => Sys2Proof.Machine.execRhWindowStart ch bank s
  | .dramTempRead t => Sys2Proof.Machine.execDramTempRead t s
  | .refreshDue ch bank busy => Sys2Proof.Machine.execRefreshDue ch bank busy s
  | .writeLinkPoll l => Sys2Proof.Machine.execWriteLinkPoll l s
  | .drcCfgInit m v => Sys2Proof.Machine.execDrcCfgInit m v s
  | .dramTraining ok1 ok2 => Sys2Proof.Machine.execDramTraining ok1 ok2 s
  | .drcTrnGo m v => Sys2Proof.Machine.execDrcTrnGo m v s
  | .drcTrnDone ch errors deskew => Sys2Proof.Machine.execDrcTrnDone ch errors deskew s
  | .scrubZero m base len => Sys2Proof.Machine.execScrubZero m base len s
  | .scrubZeroDone => Sys2Proof.Machine.execScrubZeroDone s
  | .dramPatrol errs => Sys2Proof.Machine.execDramPatrol errs s
  | .linkChange p up => Sys2Proof.Machine.execLinkChange p up s
  | .netFrameReceive port tag d t => Sys2Proof.Machine.execNetFrameReceive port tag d t s
  | .netHoldExpiry t => Sys2Proof.Machine.execNetHoldExpiry t s
  | .netRxrelWrite m v => Sys2Proof.Machine.execNetRxrelWrite m v s
  | .netTxEntry q qci t => Sys2Proof.Machine.execNetTxEntry q qci t s
  | .gvspLeader k block w h depth t => Sys2Proof.Machine.execGvspLeader k block w h depth t s
  | .gvspPayload k block pkt d => Sys2Proof.Machine.execGvspPayload k block pkt d s
  | .gvspTrailer k block pkt t => Sys2Proof.Machine.execGvspTrailer k block pkt t s
  | .gptpSync offset t => Sys2Proof.Machine.execGptpSync offset t s
  | .syncTimeout => Sys2Proof.Machine.execSyncTimeout s
  | .gclCycleStart port own => Sys2Proof.Machine.execGclCycleStart port own s
  | .mepHelloTimer t => Sys2Proof.Machine.execMepHelloTimer t s
  | .mepHello b fcs t => Sys2Proof.Machine.execMepHello b fcs t s
  | .mepAdmit b fcs => Sys2Proof.Machine.execMepAdmit b fcs s
  | .mepRefuse b fcs => Sys2Proof.Machine.execMepRefuse b fcs s
  | .mepSchedule b fcs => Sys2Proof.Machine.execMepSchedule b fcs s
  | .mepReport b fcs => Sys2Proof.Machine.execMepReport b fcs s
  | .mepCollectDeadline t => Sys2Proof.Machine.execMepCollectDeadline t s
  | .mepScheduleMissing t => Sys2Proof.Machine.execMepScheduleMissing t s
  | .mepMasterTakeover t => Sys2Proof.Machine.execMepMasterTakeover t s
  | .mepArrive b fcs => Sys2Proof.Machine.execMepArrive b fcs s
  | .netBarrecRegister m v => Sys2Proof.Machine.execNetBarrecRegister m v s
  | .netBarrecUnregister m v => Sys2Proof.Machine.execNetBarrecUnregister m v s
  | .netBarrierWrite m v => Sys2Proof.Machine.execNetBarrierWrite m v s
  | .barrierTimeout k t => Sys2Proof.Machine.execBarrierTimeout k t s
  | .perstN low => Sys2Proof.Machine.execPerstN low s
  | .flr g => Sys2Proof.Machine.execFlr g s
  | .hifRingCfgWrite m g n v => Sys2Proof.Machine.execHifRingCfgWrite m g n v s
  | .hifSqtailWrite m g n v => Sys2Proof.Machine.execHifSqtailWrite m g n v s
  | .hifCqheadWrite m g n v => Sys2Proof.Machine.execHifCqheadWrite m g n v s
  | .fhpHello g n c => Sys2Proof.Machine.execFhpHello g n c s
  | .writeMem g n c data => Sys2Proof.Machine.execWriteMem g n c data s
  | .readMem g n c => Sys2Proof.Machine.execReadMem g n c s
  | .loadContainer g n c data good keys => Sys2Proof.Machine.execLoadContainer g n c data good keys s
  | .unloadContainer g n c => Sys2Proof.Machine.execUnloadContainer g n c s
  | .planAdd g n c data => Sys2Proof.Machine.execPlanAdd g n c data s
  | .planActivate g n c => Sys2Proof.Machine.execPlanActivate g n c s
  | .planRemove g n c => Sys2Proof.Machine.execPlanRemove g n c s
  | .gclSet g n c data => Sys2Proof.Machine.execGclSet g n c data s
  | .queuePost g n c => Sys2Proof.Machine.execQueuePost g n c s
  | .milestoneRing g n c => Sys2Proof.Machine.execMilestoneRing g n c s
  | .modeSet g n c => Sys2Proof.Machine.execModeSet g n c s
  | .faultRead g n c => Sys2Proof.Machine.execFaultRead g n c s
  | .faultResume g n c => Sys2Proof.Machine.execFaultResume g n c s
  | .hifEvent q => Sys2Proof.Machine.execHifEvent q s
  | .triageTimeout p t => Sys2Proof.Machine.execTriageTimeout p t s
  | .damperUpdate p vin rails cyc lost sa sh => Sys2Proof.Machine.execDamperUpdate p vin rails cyc lost sa sh s
  | .powerWindow avg stretched t => Sys2Proof.Machine.execPowerWindow avg stretched t s
  | .droopDetect d => Sys2Proof.Machine.execDroopDetect d s
  | .droopRecover d => Sys2Proof.Machine.execDroopRecover d s
  | .voltageStep rail t => Sys2Proof.Machine.execVoltageStep rail t s
  | .aclkChange t => Sys2Proof.Machine.execAclkChange t s
  | .availWindow d => Sys2Proof.Machine.execAvailWindow d s
  | .thermalSample temps t => Sys2Proof.Machine.execThermalSample temps t s
  | .thermalCapStep t => Sys2Proof.Machine.execThermalCapStep t s
  | .vinSample mv t => Sys2Proof.Machine.execVinSample mv t s
  | .emberEnter m v => Sys2Proof.Machine.execEmberEnter m v s
  | .emberWake src good t => Sys2Proof.Machine.execEmberWake src good t s
  | .powerOn part => Sys2Proof.Machine.execPowerOn part s
  | .resetN low part => Sys2Proof.Machine.execResetN low part s
  | .computeDieRestart => Sys2Proof.Machine.execComputeDieRestart s
  | .updStart m len digest signed svn comps => Sys2Proof.Machine.execUpdStart m len digest signed svn comps s
  | .updateComplete ok => Sys2Proof.Machine.execUpdateComplete ok s
  | .healthy m len => Sys2Proof.Machine.execHealthy m len s
  | .confirm m len => Sys2Proof.Machine.execConfirm m len s
  | .recChunk m len last digest signed good svn comps => Sys2Proof.Machine.execRecChunk m len last digest signed good svn comps s
  | .create m p => Sys2Proof.Machine.execCreate m p s
  | .loadFw m p ok => Sys2Proof.Machine.execLoadFw m p ok s
  | .partStart m p => Sys2Proof.Machine.execPartStart m p s
  | .teardown m p => Sys2Proof.Machine.execTeardown m p s
  | .teardownComplete => Sys2Proof.Machine.execTeardownComplete s
  | .cycleQuarter m q => Sys2Proof.Machine.execCycleQuarter m q s
  | .debugChallenge => Sys2Proof.Machine.execDebugChallenge s
  | .debugResponse ok => Sys2Proof.Machine.execDebugResponse ok s
  | .attestationRequest m => Sys2Proof.Machine.execAttestationRequest m s
  | .attestationDone p => Sys2Proof.Machine.execAttestationDone p s
  | .fltTake m src => Sys2Proof.Machine.execFltTake m src s
  | .fltDone m port => Sys2Proof.Machine.execFltDone m port s
  | .fltKick m port => Sys2Proof.Machine.execFltKick m port s
  | .fltRestart m port => Sys2Proof.Machine.execFltRestart m port s
  | .watchdogExpiry t => Sys2Proof.Machine.execWatchdogExpiry t s
  | .rtLockstep => Sys2Proof.Machine.execRtLockstep s
  | .billetEnd res cols corrected => Sys2Proof.Machine.execBilletEnd res cols corrected s
  | .registerWrite m port b o v x => Sys2Proof.Machine.execRegisterWrite m port b o v x s
  | .csiSyncChange port up => Sys2Proof.Machine.execCsiSyncChange port up s
  | .dramRetrainOverdue ch => Sys2Proof.Machine.execDramRetrainOverdue ch s
  | .modAbsChange port low => Sys2Proof.Machine.execModAbsChange port low s
  | .vmodOvercurrent port => Sys2Proof.Machine.execVmodOvercurrent port s
  | .pcieLinkTrained => Sys2Proof.Machine.execPcieLinkTrained s
  | .commandCompletion g n => Sys2Proof.Machine.execCommandCompletion g n s
  | .emberEntryComplete t => Sys2Proof.Machine.execEmberEntryComplete t s
  | .tickReady => Sys2Proof.Machine.execTickReady s
  | .hostTrainingTimeout => Sys2Proof.Machine.execHostTrainingTimeout s
  | .pair1LockstepMismatch => Sys2Proof.Machine.execPair1LockstepMismatch s
  | .ppsOutPulse t => Sys2Proof.Machine.execPpsOutPulse t s

end Sys2Proof.Machine
end

