-- ==== Sys2Proof/WellFormed.lean ====
section
/-! DEFINITION. Which commands the outside world can send: every operand within the range the specification gives it. A meaning
is total all the same: out of range, an event finds nothing it could be about and the block stays as it is. -/

namespace Sys2Proof

/-- A master carries a code of R509 below 64 and a partition below 8 (R462). -/
def Master.wf (m : Master) : Bool := decide (m.code < 64) && decide (m.part < 8)

/-- Byte strings of a given length. -/
def bytesOf (n : Nat) (b : Bytes) : Bool := b.length == n

/-- Ranges of operands, by what they name. -/
structure OpRange where
  engines : Nat := 12
  dmaEngines : Nat := 4
  channels : Nat := 16
  banks : Nat := 16
  queues : Nat := 8192
  windows : Nat := 8
  tiles : Nat := 24
  clocks : Nat := 27

/-- The ranges of the FV726: twelve Hexarel engines (R158), four stream DMA engines (R238), sixteen DRAM channels of sixteen
banks (R350), 8,192 queues (R177), eight windows in each of twenty-four tile memories
(R141), twenty-seven clock domains on the compute die (R25). -/
def ranges : OpRange := {}

/-- A stream DMA engine, by its control-store index (R157, R238). -/
def dmaEng (e : Nat) : Bool := decide (2 ≤ e) && decide (e < 2 + ranges.dmaEngines)

/-- Every operand lies in its range. -/
def Instr.wf : Instr → Bool
  | .causewayDataFlit _ a b => a.queued.all (· < 3) && bytesOf 128 a.flit.payload && bytesOf 128 b.payload
  | .domainPowerDown d => decide (d < 36)
  | .domainPowerUp d => decide (d < 36)
  | .memoryAccess m bar a n wr _ => m.wf && decide (a + n ≤ 2 ^ 48) && (bar.all (fun b => b.2 < 6)) && wr.all (bytesOf n)
  | .stagedWordIssue e => decide (e.e < ranges.engines)
  | .tickCtlWrite m _ => m.wf
  | .tickNumLoRead m => m.wf
  | .utilLoRead m _ => m.wf
  | .opbegin e _ => decide (e < ranges.engines)
  | .load e _ => decide (e < ranges.engines)
  | .stream e _ => decide (e < ranges.engines)
  | .fill e _ => decide (e < ranges.engines)
  | .fillRowArrive t => decide (t.tgt < 2)
  | .safe e _ => decide (e < ranges.engines)
  | .opend e _ => decide (e < ranges.engines)
  | .arrColRetireReq m _ => m.wf
  | .groupPowerUp g => decide (g < 16)
  | .arrCtlWrite m _ => m.wf
  | .arrColcntWrite m _ => m.wf
  | .drnCtlWrite m _ => m.wf
  | .mapStoreAccess m _ _ a len wr _ => m.wf && decide (a + len ≤ 2 ^ 48) && wr.all (bytesOf len)
  | .remoteWrite m t w _ _ _ => m.wf && decide (t < ranges.tiles) && decide (w < ranges.windows)
  | .creditRequest m t w _ => m.wf && decide (t < ranges.tiles) && decide (w < ranges.windows)
  | .creditGrant t w => decide (t < ranges.tiles) && decide (w < ranges.windows)
  | .creditReturn m t w _ => m.wf && decide (t < ranges.tiles) && decide (w < ranges.windows)
  | .creditTimeout t w => decide (t < ranges.tiles) && decide (w < ranges.windows)
  | .revocation c t w => decide (c < 64) && decide (t < ranges.tiles) && decide (w < ranges.windows)
  | .revocationAck c t w => decide (c < 64) && decide (t < ranges.tiles) && decide (w < ranges.windows)
  | .windowOpenAccept t w => decide (t < ranges.tiles) && decide (w < ranges.windows)
  | .winOpen e _ => decide (e < ranges.engines)
  | .winClose e _ => decide (e < ranges.engines)
  | .winRelease e _ => decide (e < ranges.engines)
  | .crdWinctlOpen m => m.wf
  | .crdWinctlClose m => m.wf
  | .crdWinctlRelease m _ => m.wf
  | .nop e _ => decide (e < ranges.engines)
  | .agsetLo e _ => decide (e < ranges.engines)
  | .agsetHi e _ => decide (e < ranges.engines)
  | .sets e _ => decide (e < ranges.engines)
  | .kset e _ => decide (e < ranges.engines)
  | .halt e _ => decide (e < ranges.engines)
  | .programEnd e => decide (e < ranges.engines)
  | .cairnEnter e => decide (e < ranges.engines)
  | .cairnWait e => decide (e < ranges.engines)
  | .engineHoldRelease e => decide (e.e < ranges.engines)
  | .hxrStartGo m e _ => m.wf && decide (e < ranges.engines)
  | .xfer e _ => decide (e < ranges.engines)
  | .dmaCopy e => dmaEng e
  | .dmaTensor e => dmaEng e
  | .dmaCsload e => dmaEng e
  | .dmaSmall e => dmaEng e
  | .bootPortDescriptor m raw => m.wf && bytesOf 64 raw
  | .burstComplete e _ => dmaEng e
  | .blockAuth e => dmaEng e
  | .xferComplete e => dmaEng e
  | .footpathAccess m a n wr _ => m.wf && decide (a + n ≤ 2 ^ 48) && wr.all (bytesOf n)
  | .stepSubmit q => decide (q < ranges.queues)
  | .shareExpiry p _ => decide (p < 8)
  | .shapeEntry q _ => decide (q < ranges.queues)
  | .lbyCmdEnter m => m.wf
  | .lbyCmdResume m _ => m.wf
  | .csiFrameStart p vc fn hdr _ => decide (p < 4) && decide (vc < 32) && decide (fn < 65536) && decide (hdr < 4)
  | .csiLongPacket p vc dt _ _ hdr => decide (p < 4) && decide (vc < 32) && decide (dt < 64) && decide (hdr < 4)
  | .csiFrameEnd p vc hdr _ => decide (p < 4) && decide (vc < 32) && decide (hdr < 4)
  | .csiPhyError p => decide (p < 4)
  | .camCtlWrite m _ => m.wf
  | .camWscmdPost m _ => m.wf
  | .writeSetStart p _ => decide (p < 4)
  | .writeSetEntry p _ _ => decide (p < 4)
  | .i3cIbi p a => decide (p < 4) && decide (a < 128)
  | .triggerPulse n _ => decide (n < 16)
  | .triggerPulseEnd n _ => decide (n < 16)
  | .ispCtxenWrite m _ => m.wf
  | .ispFeedWrite m _ => m.wf
  | .laneDispatch p => decide (p < 4)
  | .lane e _ => decide (e < ranges.engines)
  | .ispOutputRow p => decide (p < 4)
  | .disp e _ => decide (e < ranges.engines)
  | .crop e _ => decide (e < ranges.engines)
  | .codecJobStart k => decide (k < 4)
  | .codecJobComplete k => decide (k < 4)
  | .dramBurst m _ a len wr _ _ => m.wf && decide (a + len ≤ 2 ^ 48) && wr.all (bytesOf len)
  | .skewWindow occ _ => occ.length == 16
  | .rhWindowStart c b => decide (c < ranges.channels) && decide (b < ranges.banks)
  | .dramTempRead t => t.length == 4
  | .refreshDue c b _ => decide (c < ranges.channels) && decide (b < ranges.banks)
  | .writeLinkPoll l => l.length == 4
  | .drcCfgInit m _ => m.wf
  | .drcTrnGo m _ => m.wf
  | .drcTrnDone c _ _ => decide (c < ranges.channels)
  | .scrubZero m _ _ => m.wf
  | .linkChange p _ => decide (p < 6)
  | .netFrameReceive p tag _ _ => decide (p < 6) && decide (tag.vid < 4096)
  | .netRxrelWrite m _ => m.wf
  | .netTxEntry q _ _ => decide (q < ranges.queues)
  | .gvspLeader k _ _ _ _ _ => decide (k < 2048)
  | .gvspPayload k _ _ _ => decide (k < 2048)
  | .gvspTrailer k _ _ _ => decide (k < 2048)
  | .gclCycleStart p _ => decide (p < 6)
  | .netBarrecRegister m _ => m.wf
  | .netBarrecUnregister m _ => m.wf
  | .netBarrierWrite m _ => m.wf
  | .hifRingCfgWrite m _ _ _ => m.wf
  | .hifSqtailWrite m _ _ _ => m.wf
  | .hifCqheadWrite m _ _ _ => m.wf
  | .fhpHello _ _ c => decide (c.length ≤ 64)
  | .writeMem _ _ c _ => decide (c.length ≤ 64)
  | .readMem _ _ c => decide (c.length ≤ 64)
  | .loadContainer _ _ c _ _ _ => decide (c.length ≤ 64)
  | .unloadContainer _ _ c => decide (c.length ≤ 64)
  | .planAdd _ _ c _ => decide (c.length ≤ 64)
  | .planActivate _ _ c => decide (c.length ≤ 64)
  | .planRemove _ _ c => decide (c.length ≤ 64)
  | .gclSet _ _ c _ => decide (c.length ≤ 64)
  | .queuePost _ _ c => decide (c.length ≤ 64)
  | .milestoneRing _ _ c => decide (c.length ≤ 64)
  | .modeSet _ _ c => decide (c.length ≤ 64)
  | .faultRead _ _ c => decide (c.length ≤ 64)
  | .faultResume _ _ c => decide (c.length ≤ 64)
  | .hifEvent q => decide (q < ranges.queues)
  | .triageTimeout p _ => decide (p < 8)
  | .damperUpdate p _ rails cyc _ _ _ => decide (p < 2 ^ 32) && rails.length == 19 && cyc.length == 27
  | .powerWindow _ st _ => st.all (fun d => decide (d < ranges.clocks))
  | .droopDetect d => decide (d < ranges.clocks)
  | .droopRecover d => decide (d < ranges.clocks)
  | .voltageStep r _ => decide (r < 9)
  | .thermalSample t _ => t.length == 24
  | .emberEnter m _ => m.wf
  | .powerOn x => decide (x.straps < 16) && x.blown.all (· < 256)
  | .resetN _ x => decide (x.straps < 16) && x.blown.all (· < 256)
  | .updStart m _ _ _ _ _ => m.wf
  | .healthy m _ => m.wf
  | .confirm m _ => m.wf
  | .recChunk m _ _ _ _ _ _ _ => m.wf
  | .create m _ => m.wf
  | .loadFw m _ _ => m.wf
  | .partStart m _ => m.wf
  | .teardown m _ => m.wf
  | .cycleQuarter m _ => m.wf
  | .attestationRequest m => m.wf
  | .attestationDone p => decide (p < 8)
  | .fltTake m _ => m.wf
  | .fltDone m _ => m.wf
  | .fltKick m _ => m.wf
  | .fltRestart m _ => m.wf
  | .billetEnd res _ _ => decide (res < 4)
  | .registerWrite m _ b o _ _ => m.wf && decide (b < 256) && decide (o < 65536)
  | .csiSyncChange p _ => decide (p < 4)
  | .dramRetrainOverdue c => decide (c < ranges.channels)
  | .causewayNak _ g => decide (g < 4096)
  | .causewayAck _ | .causewayAckTimeout _ | .causewayTraining | .causewayTrainingTimeout | .timeSync _ _ => true
  | .tickAnnounceSend _ _ | .tickAnnouncement _ _ | .tickEdgeMessage _ _ | .faultNotification _ _ => true
  | .signalAcknowledgement _ _ _ | .signalRepeat _ | .announceAckDeadline _ | .tickEdge _ => true
  | .itemOffsetStart _ _ | .itemChainedStart _ _ | .itemEnd _ _ | .deadlineMiss _ _ | .itemRunonLimit _ _ => true
  | .milestoneRecord _ | .loadComplete | .operationEnd | .tileCheck _ | .retirementApply => true
  | .chain _ | .drain _ _ | .commit _ | .optstep _ | .reduceDeposit => true
  | .eccWriteBack _ | .mapPatrolScrub _ | .tilePatrolScrub _ | .footpathTagGrant => true
  | .elasticStepStart _ | .stepCompletion | .laybyLeadRequest _ | .laybyLate _ | .laybyEntryComplete _ _ => true
  | .laybyExitBegin _ | .laybyExitComplete _ | .rawReleaseNotice | .dramTraining _ _ | .scrubZeroDone => true
  | .dramPatrol _ | .netHoldExpiry _ | .gptpSync _ _ | .syncTimeout | .mepHelloTimer _ | .mepHello _ _ _ => true
  | .mepAdmit _ _ | .mepRefuse _ _ | .mepSchedule _ _ | .mepReport _ _ | .mepCollectDeadline _ => true
  | .mepScheduleMissing _ | .mepMasterTakeover _ | .mepArrive _ _ | .barrierTimeout _ _ => true
  | .perstN _ | .flr _ | .aclkChange _ | .availWindow _ => true
  | .thermalCapStep _ | .vinSample _ _ | .emberWake _ _ _ | .computeDieRestart | .updateComplete _ => true
  | .teardownComplete | .debugChallenge | .debugResponse _ | .watchdogExpiry _ | .rtLockstep => true
  | .modAbsChange _ _ | .vmodOvercurrent _ | .pcieLinkTrained | .commandCompletion _ _ | .emberEntryComplete _ => true
  | .tickReady | .hostTrainingTimeout | .pair1LockstepMismatch | .ppsOutPulse _ => true

end Sys2Proof
end

