-- ==== Sys2Proof/Safety.lean ====
section
/-! DEFINITION. What every state of a run keeps, in the terms the statements use. -/

namespace Sys2Proof.Machine

/-- The byte memory of the physical map is in its one canonical form. -/
def State.memOk (s : State) : Prop := memWf s.mem = true

/-- Neither die's fault queue holds more than its 32 records (R484). -/
def State.faultsOk (s : State) : Prop := s.flt.comp.queue.length ≤ 32 ∧ s.flt.port.queue.length ≤ 32

/-- A control word finds its engine able to issue it, as far as the common fields of R160 say (R171, R182, R194): the engine runs
with no word staged and has not halted, the level is accepted, no common field gives a reason, it waits on no cairn, and a BEGIN of
it keeps the rules of R176. What its payload does is then its effect. -/
def ready (s : State) (e : Nat) (w : BitVec 256) : Bool :=
  (getE s e).st == .run && !(getE s e).halted && (getE s e).staged.isNone && levelOk s w && (commonReasons s e w).isEmpty
    && !wWait w && !(wLoopOp w == 1 && beginBad (getE s e) w)

end Sys2Proof.Machine
end

