-- ==== Sys2Proof/Certificates/Slice0/Obligations.lean ====
section
/-! DEFINITION. The statements for the provers, each with the sentence it says in words. -/

open Sys2Proof Sys2Proof.Machine

/-- While the causeway carries data, a data flit that the sender may send (its class is the one that the frame's slot goes to among
those that have a flit and a credit, its next SEQ, room among the 64 unacknowledged flits) completes, and the frame goes on to
the slot after it. When it arrives good and in sequence the sender's SEQ and the receiver's expectation advance modulo 1,024,
the flit waits in the retry buffer, the class loses one credit at the sender and the receiver owes one back, every 16th accepted
flit sends an acknowledgement, and the credits that the header returns leave the opposite direction's account and reach its
sender; its payload joins the class's packet, which LAST ends. When it arrives bad, whatever class its bits then read, the
receiver takes nothing, no credit is returned, and it asks for its sequence number again. Nothing outside the causeway changes.
After a NAK of the sequence number the receiver waits for, fewer than eight in a row, CAUSEWAY_NAK replays every flit from that
number on. When the retry buffer holds from there on a consecutive run of sequence numbers and every replayed flit arrives good,
the receiver's expectation moves past all of them, the NAK is answered, the retry buffer keeps them for acknowledgement, and of
the opposite direction only the credits that they return change. The replay counts once in RETRIES of the receiving end and
raises CAUSEWAY_RETRY, correctable, there. -/
def Obligations.CausewayCarriesFlits : Prop :=
  ((∀ (s : State) (d : Bool) (idle : Nat) (q : List Nat) (f : Flit), cwyUp s = true →
    mayPush (cwyDir s d) (cwyDir s (!d)) q (((cwyDir s d).slot + idle) % 128) f = true → flitGood f = true →
    flitClass f < 3 → flitSeq f = (cwyDir s d).rxNext →
    ∃ t, exec (.causewayDataFlit d ⟨idle, q, f⟩ f) s = .next t ∧ { t with cwy := s.cwy } = s ∧
      (cwyDir t d).slot = (((cwyDir s d).slot + idle) % 128 + 1) % 128 ∧
      (cwyDir t d).nextSeq = ((cwyDir s d).nextSeq + 1) % 1024 ∧ (cwyDir t d).rxNext = ((cwyDir s d).rxNext + 1) % 1024 ∧
      (cwyDir t d).retry = (cwyDir s d).retry ++ [(flitSeq f, f)] ∧
      (cwyDir t d).credits = subAt (cwyDir s d).credits (flitClass f) 1 ∧
      (cwyDir t d).owed = addAt (cwyDir s d).owed (flitClass f) 1 ∧
      ((cwyDir s d).sinceAck = 15 → (cwyDir t d).acks = (cwyDir s d).acks ++ [((cwyDir s d).rxNext + 1) % 1024] ∧ (cwyDir t d).sinceAck = 0) ∧
      ((cwyDir s d).sinceAck < 15 → (cwyDir t d).acks = (cwyDir s d).acks ∧ (cwyDir t d).sinceAck = (cwyDir s d).sinceAck + 1) ∧
      (flitLast f = false → (cwyDir t d).packet = (cwyDir s d).packet.set (flitClass f) (nth (cwyDir s d).packet (flitClass f) [] ++ f.payload) ∧
        (cwyDir t d).done = (cwyDir s d).done) ∧
      (flitLast f = true → (cwyDir t d).packet = (cwyDir s d).packet.set (flitClass f) [] ∧
        (cwyDir t d).done = (cwyDir s d).done.set (flitClass f) (nth (cwyDir s d).packet (flitClass f) [] ++ f.payload)) ∧
      (0 < flitRet f → (cwyDir t (!d)).credits = addAt (cwyDir s (!d)).credits (flitRetClass f) (flitRet f) ∧
        (cwyDir t (!d)).owed = subAt (cwyDir s (!d)).owed (flitRetClass f) (flitRet f))) ∧
  (∀ (s : State) (d : Bool) (idle : Nat) (q : List Nat) (f g : Flit), cwyUp s = true →
    mayPush (cwyDir s d) (cwyDir s (!d)) q (((cwyDir s d).slot + idle) % 128) f = true → flitClass f < 3 → flitGood g = false →
    ∃ t, exec (.causewayDataFlit d ⟨idle, q, f⟩ g) s = .next t ∧ { t with cwy := s.cwy } = s ∧
      (cwyDir t d).retry = (cwyDir s d).retry ++ [(flitSeq f, f)] ∧
      (cwyDir t d).nakSeq = some (cwyDir s d).rxNext ∧ (cwyDir t d).rxNext = (cwyDir s d).rxNext ∧
      (cwyDir t d).packet = (cwyDir s d).packet ∧ (cwyDir t d).done = (cwyDir s d).done ∧
      (cwyDir t (!d)).credits = (cwyDir s (!d)).credits)) ∧
  (∀ (s : State) (d : Bool) (g q : Nat) (l : List (Nat × Flit)), cwyUp s = true → (cwyDir s d).nakSeq = some q →
    (cwyDir s d).rxNext = q → (cwyDir s d).nakCount < 7 → retryFrom q (cwyDir s d).retry = l → l ≠ [] → l.length ≤ 64 →
    l.length ≤ g → l.map (·.1) = (List.range l.length).map (fun k => (q + k) % 1024) →
    ∃ c b, exec (.causewayNak d g) s = .next (raise (bump (setCwyDirs s d (c, b)) (F.CWY_STAT_RETRIES (!d)) 1) (!d) 0x0180 1 none
        (cwyBlock (!d)) 0xFFFF []) ∧
      c.rxNext = (q + l.length) % 1024 ∧ c.retry = (cwyDir s d).retry ∧ c.nakSeq = none ∧ c.nakCount = 0 ∧
      { b with credits := (cwyDir s (!d)).credits } = cwyDir s (!d))

/-- While the causeway carries data: an acknowledgement frees from the retry buffer every flit before the one that the receiver
waited for when it sent it, and changes nothing else, whether it is the oldest of those that a 16th flit sent or one sent
earlier; with flits outstanding, the 2 µs timeout fails the causeway at the sending end, and so does the eighth NAK in a row for
one sequence number. A failing causeway sets FAILED and clears LINK_UP at both ends and raises CAUSEWAY_FAIL (device class) at
the end that detects it, and the PCIe link goes down. With the compute die powered, released and clocked and the causeway
neither up nor failed, training ends with LINK_UP set at both ends and both directions started afresh (sequence 0, full credit
pools), and changes nothing else. With the compute die powered and the link not trained, the 5 ms timeout raises CAUSEWAY_FAIL
at the port die and Emino asserts DC_RESET_N. -/
def Obligations.CausewayFailsAndTrains : Prop :=
  ((∀ (s : State) (d : Bool) (a b : List (Nat × Flit)), cwyUp s = true → (cwyDir s d).acks = [] → (cwyDir s d).retry = a ++ b →
    (∀ x ∈ a, x.1 ≠ (cwyDir s d).rxNext) → (∀ x, b.head? = some x → x.1 = (cwyDir s d).rxNext) →
    exec (.causewayAck d) s = .next (setCwyDir s d { cwyDir s d with retry := b, sinceAck := 0 })) ∧
  (∀ (s : State) (d : Bool) (q : Nat) (r : List Nat) (a b : List (Nat × Flit)), cwyUp s = true → (cwyDir s d).acks = q :: r →
    (cwyDir s d).retry = a ++ b → (∀ x ∈ a, x.1 ≠ q) → (∀ x, b.head? = some x → x.1 = q) →
    exec (.causewayAck d) s = .next (setCwyDir s d { cwyDir s d with retry := b, acks := r })) ∧
  (∀ (s : State) (d : Bool), cwyUp s = true → (cwyDir s d).retry ≠ [] → exec (.causewayAckTimeout d) s = .next (cwyFail s d)) ∧
  (∀ (s : State) (d : Bool) (g q : Nat), cwyUp s = true → (cwyDir s d).nakSeq = some q → (cwyDir s d).nakCount = 7 →
    exec (.causewayNak d g) s = .next (cwyFail s d)) ∧
  (∀ (s : State) (port : Bool), ∃ u, cwyFail s port = raiseDevice u port 0x0181 (cwyBlock port) 0xFFFF [] ∧
    isSet u (F.CWY_STAT_FAILED true) = true ∧ isSet u (F.CWY_STAT_FAILED false) = true ∧
    isSet u (F.CWY_STAT_LINK_UP true) = false ∧ isSet u (F.CWY_STAT_LINK_UP false) = false ∧ u.hif.linkUp = false ∧
    { u with regs := s.regs, hif := { u.hif with linkUp := s.hif.linkUp } } = s)) ∧
  ((∀ s : State, s.pwr.compOn = true → s.pwr.dcReset = false → s.pwr.dcClkStop = false → isSet s (F.CWY_STAT_FAILED true) = false →
    isSet s (F.CWY_STAT_LINK_UP true) = false →
    ∃ t, exec .causewayTraining s = .next t ∧ isSet t (F.CWY_STAT_LINK_UP true) = true ∧ isSet t (F.CWY_STAT_LINK_UP false) = true ∧
      t.cwy.toComp = {} ∧ t.cwy.toPort = {} ∧ { t with regs := s.regs, cwy := s.cwy } = s) ∧
  (∀ s : State, s.pwr.compOn = true → isSet s (F.CWY_STAT_LINK_UP true) = false →
    ∃ t, exec .causewayTrainingTimeout s = .next t ∧ t.pwr = { (cwyFail s true).pwr with dcReset := true } ∧
      { t with pwr := (cwyFail s true).pwr } = cwyFail s true))

/-- The value that the receiver of a 52-bit time or tick number completes has the low 52 bits it received, and no other value with
those bits is nearer to the receiver's own. -/
def Obligations.CompletedValueIsNearest : Prop :=
  ∀ own low v : Nat, nearest own low % 2 ^ 52 = low % 2 ^ 52 ∧
    (v % 2 ^ 52 = low % 2 ^ 52 → ((nearest own low : Int) - own).natAbs ≤ ((v : Int) - own).natAbs)

/-- While the dies reach each other and at least one copy passes its check: TIME_SYNC sets the tick unit's copy of 802.1AS time to
the value nearest to it with the low 52 bits sent; TICK_ANNOUNCEMENT gives the tick unit the announced edge's time and tick
number, each completed from its own copy, and marks the announcement received; TICK_EDGE_MESSAGE gives the port die the edge.
With both copies lost, the port die drives its outputs from the earlier announcement instead. Each changes nothing else. An
announcement still unacknowledged 5 µs before its edge fails the causeway at the port die. While the dies reach each other and a
copy passes its check: FAULT_NOTIFICATION puts the oldest port-die record not yet notified into the compute-die fault unit and
the record's SEQ among the acknowledged; SIGNAL_ACKNOWLEDGEMENT of it removes every acknowledged record from the port-die queue,
and of an announcement marks a received announcement acknowledged, so that it is not repeated. An unacknowledged message is
repeated and counted in SIG_REPEATS of the sending end. -/
def Obligations.SignallingCarriesTicksAndFaults : Prop :=
  ((∀ (s : State) (a b : Bool), compDown s = false → (a || b) = true →
    exec (.timeSync a b) s = .next { s with timeC := nearest s.timeC s.timeP }) ∧
  (∀ (s : State) (a b : Bool) (n : Announce), compDown s = false → (a || b) = true → s.cwy.ann = some n →
    exec (.tickAnnouncement a b) s = .next { s with
      tick := { s.tick with announced := some (nearest s.timeC n.edge, nearest s.tick.num n.tick) },
      cwy := { s.cwy with ann := some { n with received := true } } }) ∧
  (∀ (s : State) (a b : Bool), compDown s = false → (a || b) = true →
    exec (.tickEdgeMessage a b) s = .next { s with cwy := { s.cwy with portEdge := some (s.tick.num, s.tick.edge) } }) ∧
  (∀ (s : State) (n : Announce), s.cwy.ann = some n →
    exec (.tickEdgeMessage false false) s = .next { s with cwy := { s.cwy with portEdge := some (n.tick, n.edge) } }) ∧
  (∀ (s : State) (n : Announce) (t : Nat), compDown s = false → s.timeP ≤ t → s.cwy.ann = some n → n.acked = false →
    n.edge ≤ t + 5000 → exec (.announceAckDeadline t) s = .next (cwyFail (atPort t s) true))) ∧
  ((∀ (s : State) (a b : Bool) (r : FaultRec), compDown s = false → (a || b) = true → toNotify s = some r →
    exec (.faultNotification a b) s = .next (fltEnqueue { s with flt := { s.flt with acked := s.flt.acked ++ [r.seq] } } false r)) ∧
  (∀ (s : State) (a b : Bool), compDown s = false → (a || b) = true →
    ∃ t, exec (.signalAcknowledgement true a b) s = .next t ∧
      (∀ r, r ∈ t.flt.port.queue ↔ r ∈ s.flt.port.queue ∧ r.seq ∉ s.flt.acked) ∧ t.flt.acked = [] ∧
      { t with flt := s.flt } = s) ∧
  (∀ (s : State) (a b : Bool) (n : Announce), compDown s = false → (a || b) = true → s.cwy.ann = some n → n.received = true →
    exec (.signalAcknowledgement false a b) s = .next { s with cwy := { s.cwy with ann := some { n with acked := true } } }) ∧
  (∀ (s : State) (n : Announce), compDown s = false → s.cwy.ann = some n → n.acked = false →
    exec (.signalRepeat false) s = .next (bump s (F.CWY_STAT_SIG_REPEATS true) 1)) ∧
  (∀ (s : State) (r : FaultRec) (l : List FaultRec), compDown s = false → s.flt.port.queue = r :: l →
    exec (.signalRepeat true) s = .next (bump s (F.CWY_STAT_SIG_REPEATS true) 1)))

/-- A powered one of the 36 switched domains powers down: it is off afterwards. A Map Store quarter then holds zero in every byte,
its two array-only words read 0, and every byte outside the quarter is as before; a host core's tile memory holds zero in every
byte and every byte outside it is as before. A domain that is off powers up: it is on again, a column group begins to settle,
and but for its clocks' cycle counts nothing else changes. -/
def Obligations.DomainsSwitch : Prop :=
  (∀ (s : State) (d : Nat), d < 36 → powered s d = true → ∃ t, exec (.domainPowerDown d) s = .next t ∧ powered t d = false) ∧
  (∀ (s : State) (q : Nat), q < 4 → powered s (16 + q) = true → ∃ t, exec (.domainPowerDown (16 + q)) s = .next t ∧
    (∀ a, mapBase + q * 0x4000000 ≤ a → a < mapBase + (q + 1) * 0x4000000 → rdByte t.mem a = 0) ∧
    (∀ a, a < mapBase + q * 0x4000000 ∨ mapBase + (q + 1) * 0x4000000 ≤ a → rdByte t.mem a = rdByte s.mem a) ∧
    getF t (F.MAP_AO_AO (2 * q)) = 0 ∧ getF t (F.MAP_AO_AO (2 * q + 1)) = 0) ∧
  (∀ (s : State) (k : Nat), k < 8 → powered s (20 + k) = true → ∃ t, exec (.domainPowerDown (20 + k)) s = .next t ∧
    (∀ a, tileAddr (13 + k) ≤ a → a < tileAddr (13 + k) + tileBytes → rdByte t.mem a = 0) ∧
    (∀ a, a < tileAddr (13 + k) ∨ tileAddr (13 + k) + tileBytes ≤ a → rdByte t.mem a = rdByte s.mem a)) ∧
  (∀ (s : State) (d : Nat), d < 36 → powered s d = false → ∃ t, exec (.domainPowerUp d) s = .next t ∧ powered t d = true ∧
    t.arr.settling = s.arr.settling ++ (if d < 16 then [d] else []) ∧ { t with pwr := s.pwr, arr := s.arr } = s)

/-- A master other than real-time pair 1, which R525 does not hold back, reads or writes up to a row of DRAM, in its partition's
regions while that is not being torn down or with high privilege, while its channel is there and its requester waits for
nothing, DRC_STAT.READY reads 1, no in-band ECC is in force and no XTS region exists: a read answers the bytes and changes
nothing else; a write replaces exactly those bytes; a host core's access also passes through its caches. An access into a gap of
the map reads zero or drops its write, and raises ADDR_UNREACHABLE (contained, against the master's partition, reason 2,
unpopulated). An access to DRAM before READY does the same with reason 4. A small naturally aligned access of a footpath master
to a footpath target that needs no window, not held back by an earlier one of its master to the same bytes: with one of the 64
tags free and no master waiting it is carried to its target as any access of the map is; with every tag in use and the master
holding none it waits, entered once among the masters that wait, and FP_STAT counts the wait. A tag that falls free goes to the
next waiting master in round-robin order, and nothing else changes. -/
def Obligations.AccessesReachTheirTargets : Prop :=
  ((∀ (s : State) (m : Master) (a n : Nat) (x : Found), m.code ≠ 9 → heldBack s false m = false → 0 < n → a % 512 + n ≤ 512 →
    a + n ≤ 0x800000000 → dramOut s a = false → (∀ r, reqOf m = some r → dramWaits s r a = false) → isSet s F.DRC_STAT_READY = true →
    isSet s F.DRC_CFG_IBECC = false → s.drc.xts = [] → (isHigh m || ((getP s m.part).st != 3 && inRegions (getP s m.part) a n)) = true →
    exec (.memoryAccess m none a n none x) s = .next { throughCache s m a with rd := memRead s.mem a n, rdErr := false }) ∧
  (∀ (s : State) (m : Master) (a : Nat) (bs : Bytes) (x : Found), m.code ≠ 9 → heldBack s false m = false → 0 < bs.length →
    a % 512 + bs.length ≤ 512 → a + bs.length ≤ 0x800000000 → dramOut s a = false → (∀ r, reqOf m = some r → dramWaits s r a = false) →
    isSet s F.DRC_STAT_READY = true → isSet s F.DRC_CFG_IBECC = false →
    s.drc.xts = [] → (isHigh m || ((getP s m.part).st != 3 && inRegions (getP s m.part) a bs.length)) = true →
    ∃ t, exec (.memoryAccess m none a bs.length (some bs) x) s = .next t ∧ t.mem = memWrite s.mem a bs ∧
      t.bufs = (throughCache s m a).bufs ∧ { t with mem := s.mem, mapu := s.mapu, rd := s.rd, rdErr := s.rdErr, bufs := s.bufs } = s) ∧
  (∀ (s : State) (m : Master) (a : Nat), (8 ≤ m.code ∨ region a ≠ .dram → throughCache s m a = s) ∧
    { throughCache s m a with bufs := s.bufs } = s) ∧
  (∀ (s : State) (m : Master) (a n : Nat) (x : Found), m.code ≠ 9 → heldBack s false m = false → 0 < n → a % 512 + n ≤ 512 →
    region a = .gap →
    exec (.memoryAccess m none a n none x) s = .next { unreachable s m 2 a with rd := List.replicate n 0, rdErr := false }) ∧
  (∀ (s : State) (m : Master) (a : Nat) (bs : Bytes) (x : Found), m.code ≠ 9 → heldBack s false m = false → 0 < bs.length →
    a % 512 + bs.length ≤ 512 → region a = .gap →
    exec (.memoryAccess m none a bs.length (some bs) x) s = .next { unreachable s m 2 a with rd := [], rdErr := false }) ∧
  (∀ (s : State) (m : Master) (a n : Nat) (x : Found), m.code ≠ 9 → heldBack s false m = false → 0 < n → a % 512 + n ≤ 512 →
    a + n ≤ 0x800000000 → dramOut s a = false → (∀ r, reqOf m = some r → dramWaits s r a = false) → isSet s F.DRC_STAT_READY = false →
    (isHigh m || ((getP s m.part).st != 3 && inRegions (getP s m.part) a n)) = true →
    exec (.memoryAccess m none a n none x) s = .next { unreachable s m 4 a with rd := List.replicate n 0, rdErr := false })) ∧
  ((∀ (s : State) (m : Master) (a n : Nat) (wr : Option Bytes) (x : Found), m.code ≠ 9 → fpMaster m = true → natural a n = true →
    fpTarget m a wr.isSome = true → tileOf a = none → s.fp.held = [] → m.code ∉ s.fp.granted → s.fp.granted.length < 64 →
    s.fp.waiting = [] → exec (.footpathAccess m a n wr x) s = .next (route s m a n wr x)) ∧
  (∀ (s : State) (m : Master) (a n : Nat) (wr : Option Bytes) (x : Found), fpMaster m = true → natural a n = true →
    fpTarget m a wr.isSome = true → s.fp.held = [] → m.code ∉ s.fp.granted → s.fp.granted.length = 64 → m.code ∉ s.fp.waiting →
    exec (.footpathAccess m a n wr x) s =
      .next { bump s F.FP_STAT_WAITS 1 with fp := { s.fp with waiting := s.fp.waiting ++ [m.code] } }) ∧
  (∀ (s : State) (c : Nat), fpNext s = some c → fpTags s < 64 →
    exec .footpathTagGrant s =
      .next { s with fp := { s.fp with waiting := s.fp.waiting.erase c, granted := s.fp.granted ++ [c], last := c } }))

/-- A write of a byte string puts each byte at its address and leaves every byte outside the written range as it was; the loss of a
range of addresses leaves it reading zero and every byte outside it as it was. -/
def Obligations.MemoryReadsBack : Prop :=
  ∀ (m : Mem) (a : Nat) (bs : Bytes) (n : Nat),
    (∀ k, a ≤ k → k < a + bs.length → rdByte (memWrite m a bs) k = nth bs (k - a) 0) ∧
    (∀ k, k < a ∨ a + bs.length ≤ k → rdByte (memWrite m a bs) k = rdByte m k) ∧
    (∀ k, a ≤ k → k < a + n → rdByte (tabDrop m a n) k = 0) ∧
    (∀ k, k < a ∨ a + n ≤ k → rdByte (tabDrop m a n) k = rdByte m k)

/-- When edges are enabled, the device is not refused by its domain and the local time reaches the announced edge, TICK_EDGE
completes: before the plan of the tick is entered, the tick number and the edge time are the announced ones, the announcement is
used up, nothing is armed, no report is pending, and the tick that ended is set aside for its record if edges were running.
Entering the plan that R62 chooses arms exactly its items that run in the tick, with start and deadline counted from the edge,
when its period is the period in force and the device is not in safe state; with another period it arms none and marks the tick
PLAN_MISMATCH. A parity error in the tick tree is CTRL_PARITY, device class (that the damaged edge is not acted on is the
model's choice, log entry 244). -/
def Obligations.TickEdgeAdvances : Prop :=
  (∀ (s : State) (t edge n : Nat), isSet s F.TICK_CTL_ENABLE = true → mepRefused s = false → s.timeC ≤ t → edge ≤ t →
    s.tick.announced = some (edge, n) →
    ∃ u, exec (.tickEdge ⟨t, false⟩) s = .next (interrupt (startAtEdge (enterPlan u n))) ∧ u.tick.num = n ∧ u.tick.edge = edge ∧
      u.tick.announced = none ∧ u.tick.armed = [] ∧ u.tick.reports = [] ∧ u.tick.running = true ∧ u.tick.log.tick = n ∧
      u.tick.log.edge = edge ∧ u.tick.closing.isSome = (sweep (atComp t s)).tick.running) ∧
  (∀ (u : State) (n : Nat) (p : Plan) (fb : Bool), choosePlan u = some (p, fb) → p.period = periodUs u → u.flt.safe = false →
    (enterPlan u n).tick.armed = armItems p n u.tick.edge ∧ (enterPlan u n).tick.log.plan = p.id ∧
    (enterPlan u n).tick.log.fallback = fb ∧ (enterPlan u n).tick.log.mismatch = false) ∧
  (∀ (u : State) (n : Nat) (p : Plan) (fb : Bool), choosePlan u = some (p, fb) → p.period ≠ periodUs u →
    (enterPlan u n).tick.armed = [] ∧ (enterPlan u n).tick.log.mismatch = true) ∧
  (∀ (s : State) (t : Nat), exec (.tickEdge ⟨t, true⟩) s =
    .next (raiseDevice (atComp t s) false 0x0104 (Config.sourceBlock 0x0104) 0xFFFF [])) ∧
  (∀ (p : Plan) (n edge : Nat) (a : Armed), a ∈ armItems p n edge →
    p.items[a.idx]? = some a.item ∧ n % a.item.every = a.item.phase ∧ a.start = edge + a.item.start ∧
    a.deadline = edge + a.item.deadline ∧ a.started = false)

/-- A write of TICK_CTL that passes the gate of register accesses, names a mode other than 3 and leaves ENABLE clear on a stopped
tick unit sets MODE, PLAN_SRC and PERIOD_US, the period stored as the nearer of its bounds, and changes nothing outside the
registers. One that sets ENABLE in standalone mode switches edge generation on: no edge is announced yet, nothing is running,
and ENABLE reads 1. While ENABLE is set, a write that would change the period leaves it and sets the block's CFG_IGNORED flag. A
read of TICK_NUM_LO that passes the gate gives its master the low 32 bits of the tick number and latches the high 32 bits into
TICK_NUM_HI; a read of the LO half of a utilisation counter (64 bits; USEFUL counts whole units of 1,024 MACs) gives that
counter's low 32 bits and latches the high half into the HI register of the same counter. Nothing else changes. -/
def Obligations.TickRegistersAct : Prop :=
  ((∀ (s : State) (m : Master) (v : BitVec 32), regGate s false 16 0x10 m v.toNat = .pass → isSet s F.TICK_CTL_ENABLE = false →
    bitOf v.toNat 0 = false → bitsOf v.toNat 1 2 ≠ 3 →
    ∃ t, exec (.tickCtlWrite m v) s = .next t ∧ getF t F.TICK_CTL_MODE = bitsOf v.toNat 1 2 ∧
      getF t F.TICK_CTL_PLAN_SRC = bitsOf v.toNat 3 1 ∧ getF t F.TICK_CTL_PERIOD_US = min (max (bitsOf v.toNat 8 18) 1000) 200000 ∧
      isSet t F.TICK_CTL_ENABLE = false ∧ { t with regs := s.regs } = s) ∧
  (∀ (s : State) (m : Master) (v : BitVec 32), regGate s false 16 0x10 m v.toNat = .pass → isSet s F.TICK_CTL_ENABLE = false →
    bitOf v.toNat 0 = true → bitsOf v.toNat 1 2 = 0 →
    ∃ t, exec (.tickCtlWrite m v) s = .next t ∧ isSet t F.TICK_CTL_ENABLE = true ∧ getF t F.TICK_CTL_MODE = 0 ∧
      getF t F.TICK_CTL_PERIOD_US = min (max (bitsOf v.toNat 8 18) 1000) 200000 ∧ t.tick.announced = none ∧
      t.tick.running = false ∧ t.mem = s.mem) ∧
  (∀ (s : State) (m : Master) (v : BitVec 32), regGate s false 16 0x10 m v.toNat = .pass → isSet s F.TICK_CTL_ENABLE = true →
    bitOf v.toNat 0 = true → bitsOf v.toNat 1 2 = getF s F.TICK_CTL_MODE → bitsOf v.toNat 3 1 = getF s F.TICK_CTL_PLAN_SRC →
    min (max (bitsOf v.toNat 8 18) 1000) 200000 ≠ getF s F.TICK_CTL_PERIOD_US →
    ∃ t, exec (.tickCtlWrite m v) s = .next t ∧ getF t F.TICK_CTL_PERIOD_US = getF s F.TICK_CTL_PERIOD_US ∧
      isSet t (F.BLK_EVT_CFG_IGNORED false 16) = true ∧ t.tick = s.tick)) ∧
  ((∀ (s : State) (m : Master), accGate s false 16 0x20 m false 0 = .pass →
    exec (.tickNumLoRead m) s =
      .next { setF s F.TICK_NUM_HI_COUNT (s.tick.num / 2 ^ 32) with rd := leBytes 4 (s.tick.num % 2 ^ 32), rdErr := false }) ∧
  (∀ (s : State) (m : Master), accGate s false 1 0x80 m false 0 = .pass →
    exec (.utilLoRead m 0) s =
      .next { setF s F.ARR_UTIL_ISSUED_HI_COUNT (s.arr.issued % 2 ^ 64 / 2 ^ 32) with rd := leBytes 4 (s.arr.issued % 2 ^ 64 % 2 ^ 32), rdErr := false }) ∧
  (∀ (s : State) (m : Master), accGate s false 1 0x88 m false 0 = .pass →
    exec (.utilLoRead m 1) s =
      .next { setF s F.ARR_UTIL_USEFUL_HI_COUNT (s.arr.useful / 1024 % 2 ^ 64 / 2 ^ 32) with rd := leBytes 4 (s.arr.useful / 1024 % 2 ^ 64 % 2 ^ 32), rdErr := false }) ∧
  (∀ (s : State) (m : Master), accGate s false 1 0x90 m false 0 = .pass →
    exec (.utilLoRead m 2) s =
      .next { setF s F.ARR_UTIL_STALL_HI_COUNT (s.arr.stall % 2 ^ 64 / 2 ^ 32) with rd := leBytes 4 (s.arr.stall % 2 ^ 64 % 2 ^ 32), rdErr := false }))

/-- An armed item of a Hexarel engine that has not started, whose partition is not blocked, starts when its offset has passed and no
earlier item of its engine is armed or ended after that (the first word is staged for its start plus 160 ns), or, after an item
that it waited for has ended, as a chained start (staged 200 ns on). The engine must be enabled, idle, without LEVEL_BAD, free
of an elastic step, and the preset record without reserved bits. The engine then runs from the item's address, for the item's
partition, and remembers the item. STAGED_WORD_ISSUE then lets the word issue: an engine other than the array sequencer only
loses its staging; the array path changes partition only when every accumulator slot is free, and is then cleared. A parity
error on the start message or on the word in flight is CTRL_PARITY, contained, against the item's or the engine's partition
(that the item is cancelled and the engine stops is the model's choice, log entry 244). An armed item whose end reaches the tick
unit no later than its deadline is disarmed and the least slack of the tick takes its slack, with no miss counted; but for a
retraining step's end, which lets the refreshes that fell due in it be forced, nothing else but the time changes. When the
comparator fires first, the fault DEADLINE_MISS (0x0103, contained, against the item's partition, with the lateness) and
TICK_STAT.MISS are set: with ON_MISS 0 the item is stopped, its outcome 1 is logged with lateness 0xFFFF_FFFF and it is
disarmed; with ON_MISS 1 it is only marked as missed and runs on; in both cases everything that depends on it is cancelled, and
frames that waited behind its frame in a raw buffer go on. An item that runs on is stopped and logged 1 µs before the next edge. -/
def Obligations.ItemsStartAndEnd : Prop :=
  ((∀ (s : State) (k t e : Nat) (a : Armed), armedOf s k = some a → a.idx = k → a.started = false → s.timeC ≤ t → a.start ≤ t →
    hasPred s a = false → chainFree s a = true → stepHolds s a = false → s.flt.safe = false → partBlocked s a.item.part = false →
    codeEngine a.item.engine = some e → engEnable s e = true → (getE s e).st = .idle → isSet s (F.HXR_STAT_LEVEL_BAD e) = false →
    (a.preset.map presetBad).getD false = false → e < s.hx.length →
    ∃ u, exec (.itemOffsetStart k ⟨t, false⟩) s = .next u ∧ (getE u e).st = .run ∧ (getE u e).pc = a.item.arg ∧
      (getE u e).staged = some (a.start + 160) ∧ (getE u e).item = some (k, a.item.id) ∧ (getE u e).part = a.item.part ∧
      u.timeC = t ∧ u.mem = s.mem ∧ u.regs = s.regs ∧ u.flt = s.flt ∧ (∀ f, f ≠ e → getE u f = getE s f)) ∧
  (∀ (s : State) (k t e : Nat) (a : Armed), armedOf s k = some a → a.idx = k → a.started = false → s.timeC ≤ t → a.start ≤ t →
    hasPred s a = true → chainFree s a = true → stepHolds s a = false → s.flt.safe = false → partBlocked s a.item.part = false →
    codeEngine a.item.engine = some e → engEnable s e = true → (getE s e).st = .idle → isSet s (F.HXR_STAT_LEVEL_BAD e) = false →
    (a.preset.map presetBad).getD false = false → e < s.hx.length →
    ∃ u, exec (.itemChainedStart k t) s = .next u ∧ (getE u e).st = .run ∧ (getE u e).pc = a.item.arg ∧
      (getE u e).staged = some (t + 200) ∧ (getE u e).item = some (k, a.item.id) ∧ u.mem = s.mem ∧ u.regs = s.regs) ∧
  (∀ (s : State) (e w : Nat), (getE s e).staged = some w → (getE s e).pc < storeWords e → e ≠ 0 →
    exec (.stagedWordIssue ⟨e, false⟩) s = .next (setE s e { getE s e with staged := none })) ∧
  (∀ (s : State) (w : Nat), (getE s 0).staged = some w → (getE s 0).pc < storeWords 0 → s.arr.prevPart ≠ some (getE s 0).part →
    (∀ x ∈ s.arr.slots, x.st = .free) →
    exec (.stagedWordIssue ⟨0, false⟩) s = .next (clearArrayPath (setE s 0 { getE s 0 with staged := none }) (getE s 0).part)) ∧
  (∀ (s : State) (w : Nat), (getE s 0).staged = some w → (getE s 0).pc < storeWords 0 → s.arr.prevPart ≠ some (getE s 0).part →
    (∃ x ∈ s.arr.slots, x.st ≠ .free) → exec (.stagedWordIssue ⟨0, false⟩) s = .next s) ∧
  (∀ (s : State) (k t : Nat) (a : Armed), armedOf s k = some a → a.started = false → s.timeC ≤ t → a.start ≤ t →
    exec (.itemOffsetStart k ⟨t, true⟩) s =
      .next (cancelItem (raise (atComp t s) false 0x0104 2 (some a.item.part) (Config.sourceBlock 0x0104) a.item.id []) k)) ∧
  (∀ (s : State) (e w : Nat), (getE s e).staged = some w →
    exec (.stagedWordIssue ⟨e, true⟩) s = .next (engFault (setE s e { getE s e with staged := none }) e 0x0104 []))) ∧
  ((∀ (s : State) (k t : Nat) (a : Armed), armedOf s k = some a → a.idx = k → a.missed = false → s.timeC ≤ t → t ≤ a.deadline →
    k ∈ s.tick.reports →
    ∃ u, exec (.itemEnd k t) s = .next u ∧ u.tick.armed = s.tick.armed.filter (fun b => b.idx != k) ∧
      u.tick.log.minSlack = min s.tick.log.minSlack ((a.deadline : Int) - t) ∧ u.tick.log.misses = s.tick.log.misses ∧
      u.tick.log.entries = s.tick.log.entries ∧ u.timeC = t ∧
      (a.item.engine ≠ 0x0C → u.mem = s.mem ∧ u.regs = s.regs ∧ u.flt = s.flt ∧ u.hx = s.hx)) ∧
  (∀ (s : State) (k t : Nat) (a : Armed), armedOf s k = some a → a.idx = k → a.missed = false → s.timeC ≤ t → a.deadline < t →
    a.item.engine ≠ 0x0D → a.item.finish = false →
    exec (.deadlineMiss k t) s = .next (runFifos (cancelDeps (disarm (logOutcome
      (stopItem (setF (raise (atComp t s) false 0x0103 2 (some a.item.part) 16 a.item.id [t - a.deadline]) F.TICK_STAT_MISS 1) a)
      a.item 1 0xFFFFFFFF (lateQueue (atComp t s) a)) k) k))) ∧
  (∀ (s : State) (k t : Nat) (a : Armed), armedOf s k = some a → a.idx = k → a.missed = false → s.timeC ≤ t → a.deadline < t →
    a.item.engine ≠ 0x0D → a.item.finish = true →
    ∃ u, exec (.deadlineMiss k t) s = .next (runFifos (cancelDeps u k)) ∧ (∀ b ∈ u.tick.armed, b.idx = k → b.missed = true ∧ b.lateQ = lateQueue (atComp t s) a) ∧
      { u with tick := (setF (raise (atComp t s) false 0x0103 2 (some a.item.part) 16 a.item.id [t - a.deadline]) F.TICK_STAT_MISS 1).tick }
        = setF (raise (atComp t s) false 0x0103 2 (some a.item.part) 16 a.item.id [t - a.deadline]) F.TICK_STAT_MISS 1) ∧
  (∀ (s : State) (k t : Nat) (a : Armed), armedOf s k = some a → a.idx = k → a.missed = true → s.timeC ≤ t → nextEdge s ≤ t + 1000 →
    exec (.itemRunonLimit k t) s =
      .next (runFifos (disarm (logOutcome (stopItem (atComp t s) a) a.item 1 0xFFFFFFFF a.lateQ) k))) ∧
  (∀ (s : State) (it : PlanItem) (o l q : Nat),
    (logOutcome s it o l q).tick.log.entries = s.tick.log.entries ++
        [{ id := it.id, outcome := o, engine := it.engine, late := l, queue := q, part := it.part }] ∧
    (logOutcome s it o l q).tick.log.misses = s.tick.log.misses + 1 ∧
    (logOutcome s it o l q).tick.log.uncommit = s.tick.log.uncommit ++ outsOf s it))

/-- When a tick has been set aside for its record and 2 µs have passed since the edge that ended it, the device not in safe state
and the tick not forced to fail, MILESTONE_RECORD completes and writes the record, also into every milestone ring; with no tick
set aside, edge generation stopped and 2 µs past the end of its last tick, it completes with that tick's record, unless safe
state forbids one. Before that time, or with nothing to record, it completes and changes nothing but the time. A record is 32
bytes of header and 16 for each of at most 32 entries in ITEM_ID order, with the commit bits of the tick's missed and cancelled
items cleared first; the record awaits no more. -/
def Obligations.MilestoneRecordIsWritten : Prop :=
  (∀ (s : State) (t : Nat) (l : TickLog), s.tick.closing = some l → s.timeC ≤ t → s.tick.edge + 2000 ≤ t → s.flt.safe = false →
    l.forceFail = false →
    exec (.milestoneRecord t) s = .next (writeRecord { atComp t s with tick := { s.tick with closing := none } } l)) ∧
  (∀ (s : State) (t : Nat), s.tick.closing = none → s.tick.running = true → isSet s F.TICK_CTL_ENABLE = false → s.timeC ≤ t →
    nextEdge s + 2000 ≤ t →
    ∃ u, exec (.milestoneRecord t) s = .next u ∧ u.tick.closing = none ∧ u.tick.running = false ∧ u.tick.armed = []) ∧
  (∀ (s : State) (t : Nat), s.timeC ≤ t → (s.tick.closing = none → s.tick.running = false ∨ isSet s F.TICK_CTL_ENABLE = true ∨ t < nextEdge s + 2000) →
    (∀ l, s.tick.closing = some l → t < s.tick.edge + 2000) → exec (.milestoneRecord t) s = .next (atComp t s)) ∧
  (∀ (s : State) (t : Nat) (l : TickLog), s.tick.closing = some l → s.timeC ≤ t → s.tick.edge + 2000 ≤ t → s.flt.safe = false →
    l.forceFail = false →
    ∃ u, exec (.milestoneRecord t) s = .next u ∧ u.tick.record = recordBytes l (recordEntries l) ∧ u.tick.recordTick = l.tick ∧
      u.tick.closing = none ∧ u.mem = (l.uncommit.foldl clearCommit s).mem) ∧
  (∀ l : TickLog, (recordEntries l).length = min 32 l.entries.length ∧
    (recordBytes l (recordEntries l)).length = 32 + 16 * min 32 l.entries.length ∧
    leAt (recordBytes l (recordEntries l)) 0 8 = l.tick % 2 ^ 64 ∧ leAt (recordBytes l (recordEntries l)) 8 8 = l.edge % 2 ^ 64 ∧
    leAt (recordBytes l (recordEntries l)) 16 2 = l.plan % 2 ^ 16 ∧ leAt (recordBytes l (recordEntries l)) 19 1 = min l.misses 255)

/-- A NOP word on an engine that runs, has not halted and has no word staged: a level that is not accepted raises HXR_LEVEL
(0x0132); then the lowest-numbered reason of the word raises HXR_ILLEGAL (0x0130); then a BEGIN that breaks the rules of loops
raises HXR_LOOP (0x0131); then a word with WAIT whose queue has no cairn at its head puts the engine into WAIT on that queue and
changes nothing else; and a word with WAIT that finds a cairn removes it before it acts. Each of the three faults is contained,
against the engine's partition, with the reason, the word's address and the engine in its detail, and stops the engine. A halted
engine issues nothing. A word's CLASS decides how its payload is read, whatever row brings it to issue, and a class that the
engine does not list raises HXR_ILLEGAL reason 1. The end of a word that is not HALT and whose next address lies in the control
store changes nothing outside its engine: the engine runs, at the next address, with the loops the next-address rule leaves, the
scalar operation done, and the emitted cairn behind the earlier ones. Without a loop operation or a taken branch, and where no
active loop ends, the next address is the one after the word; a taken branch goes to its target and ends every loop whose body
does not contain it; a BEGIN with a count from 1 starts the loop at the next address. A next address beyond the store raises
HXR_ILLEGAL reason 6. A scalar ADD to a scalar register adds modulo 2^32; to a counter it saturates. -/
def Obligations.WordsIssueAndFollow : Prop :=
  ((∀ (s : State) (e : Nat) (w : BitVec 256), wClass w = 0 → (getE s e).st = .run → (getE s e).halted = false → (getE s e).staged = none →
    (levelOk s w = false → exec (.nop e w) s = .next (hxrFault s e 0x0132 0)) ∧
    (∀ r, levelOk s w = true → lowest (commonReasons s e w) = some r → exec (.nop e w) s = .next (hxrFault s e 0x0130 r)) ∧
    (levelOk s w = true → commonReasons s e w = [] → wLoopOp w = 1 → beginBad (getE s e) w = true →
      exec (.nop e w) s = .next (hxrFault s e 0x0131 0)) ∧
    (levelOk s w = true → commonReasons s e w = [] → wLoopOp w ≠ 1 → wWait w = true → (getE s e).granted = false →
      (headQ s (wWq w)).any (·.cairn) = false →
      exec (.nop e w) s = .next (setE s e { getE s e with st := .wait, waitQ := some (wWq w), cur := (getE s e).pc })) ∧
    (levelOk s w = true → commonReasons s e w = [] → wLoopOp w ≠ 1 → wWait w = true → (getE s e).granted = false →
      (headQ s (wWq w)).any (·.cairn) = true →
      exec (.nop e w) s =
        .next (finishWord (setE (popQ s (wWq w)) e { getE s e with granted := true }) e w (getE s e)))) ∧
  (∀ (s : State) (e code r : Nat), hxrFault s e code r =
    engHalt (raise s false code 2 (some (getE s e).part) (engBlock e) (engItem s e) [r, (getE s e).pc, e]) e) ∧
  (∀ (s : State) (e : Nat) (w : BitVec 256), wClass w = 0 → (getE s e).halted = true → exec (.nop e w) s = .next s) ∧
  (∀ (s : State) (e : Nat) (w : BitVec 256), wClass w ≠ 0 → exec (.nop e w) s = .next (wordIssue e w s)) ∧
  (∀ (s : State) (e : Nat) (w : BitVec 256), classKnown e (wClass w) = false → (getE s e).st = .run → (getE s e).halted = false →
    (getE s e).staged = none → levelOk s w = true → wordIssue e w s = hxrFault s e 0x0130 1)) ∧
  ((∀ (s : State) (e : Nat) (w : BitVec 256), e < s.hx.length → wClass w ≠ 5 →
    (nextPc s (getE s e) (scalarOp s (getE s e) (getE s e) w) w).2 < storeWords e →
    let t := finishWord s e w (getE s e)
    { t with hx := s.hx } = s ∧ (∀ f, f ≠ e → getE t f = getE s f) ∧ (getE t e).st = .run ∧ (getE t e).halted = false ∧
    (getE t e).pc = (nextPc s (getE s e) (scalarOp s (getE s e) (getE s e) w) w).2 ∧
    (getE t e).loops = (nextPc s (getE s e) (scalarOp s (getE s e) (getE s e) w) w).1 ∧
    (getE t e).sregs = (scalarOp s (getE s e) (getE s e) w).sregs ∧ (getE t e).cregs = (scalarOp s (getE s e) (getE s e) w).cregs ∧
    (wEmit w = false → (getE t e).emits = (getE s e).emits) ∧
    (wEmit w = true → ∃ m : Emit, m.q = wEq w ∧ m.after = (getE s e).eff ∧ (getE t e).emits = (getE s e).emits ++ [m])) ∧
  (∀ (s : State) (g : Engine) (w : BitVec 256), wLoopOp w = 0 → wBrOp w = 0 → innerLoop g.loops g.pc = none →
    nextPc s g g w = (g.loops, g.pc + 1)) ∧
  (∀ (s : State) (g : Engine) (w : BitVec 256), wLoopOp w = 0 → wBrOp w = 1 →
    nextPc s g g w = (loopsAtTarget g.loops (wBrTarget w), wBrTarget w)) ∧
  (∀ (s : State) (g : Engine) (w : BitVec 256), wLoopOp w = 1 → wLoopSrc w = false → wLoopCount w ≠ 0 →
    nextPc s g g w = (g.loops.set (wLoopIdx w) { counter := wLoopCount w, first := g.pc + 1, last := wLoopEnd w }, g.pc + 1)) ∧
  (∀ (a b : BitVec 32), scResult 0x02 false a b = a + b ∧
    (scResult 0x02 true a b).toInt % 2 ^ 32 = (min (max ((a.toNat : Int) + b.toInt) 0) 4294967295) % 2 ^ 32) ∧
  (∀ (s : State) (e : Nat) (w : BitVec 256), e < s.hx.length → wClass w ≠ 5 →
    storeWords e ≤ (nextPc s (getE s e) (scalarOp s (getE s e) (getE s e) w) w).2 →
    ∃ u, finishWord s e w (getE s e) = hxrFault u e 0x0130 6 ∧ (getE u e).pc = (getE s e).pc ∧ { u with hx := s.hx } = s))

/-- A word of the row's CLASS that may act (the engine runs, nothing staged, level and fields accepted, no wait): NOP only ends.
AGSET_LO gives AG0 and AG1, AGSET_HI AG2 and AG3, the parameters of its payload where the generator's AGC restarts it, before
the word ends. SETS with no reserved bit, each enabled entry naming a writable register, writes each enabled entry's 32-bit
value, a later entry over an earlier one, and KSET with no reason replaces the comparators whose WR is set and no other; each
then ends as any word. HALT without a branch or loop operation, and on the array with no operation open, leaves the engine
halted, and changes nothing but its engine where the engine is not the drain. Reserved payload bits of SETS raise HXR_ILLEGAL
reason 2 and an enabled entry that names no writable register reason 3. A word of another CLASS does what its own CLASS says. -/
def Obligations.CommonWordsAct : Prop :=
  (∀ (s : State) (e : Nat) (w : BitVec 256), ready s e w = true → wClass w = 0 → exec (.nop e w) s = .next (finishWord s e w (getE s e))) ∧
  (∀ (s : State) (e : Nat) (w : BitVec 256), ready s e w = true →
    (wClass w = 1 → exec (.agsetLo e w) s = .next (finishWord (agSet s e w 0) e w (getE s e))) ∧
    (wClass w = 2 → exec (.agsetHi e w) s = .next (finishWord (agSet s e w 2) e w (getE s e)))) ∧
  (∀ (s : State) (e k : Nat) (w : BitVec 256), e < s.hx.length → k = 0 ∨ k = 2 → k + 1 < (getE s e).ags.length →
    (wAgc w k = 2 → nth (getE (agSet s e w k) e).ags k {} = agParams (nth (getE s e).ags k {}) (pF w 0 60)) ∧
    (wAgc w k ≠ 2 → nth (getE (agSet s e w k) e).ags k {} = nth (getE s e).ags k {}) ∧
    (wAgc w (k + 1) = 2 → nth (getE (agSet s e w k) e).ags (k + 1) {} = agParams (nth (getE s e).ags (k + 1) {}) (pF w 60 60)) ∧
    (wAgc w (k + 1) ≠ 2 → nth (getE (agSet s e w k) e).ags (k + 1) {} = nth (getE s e).ags (k + 1) {})) ∧
  (∀ (s : State) (e : Nat) (w : BitVec 256), ready s e w = true → wClass w = 3 → pF w 114 6 = 0 →
    (∀ k, k < 3 → setsEn w k = true → pF w (38 * k + 32) 5 < 24) →
    exec (.sets e w) s = .next (finishWord (setE s e (setsRegs (getE s e) w)) e w (getE s e))) ∧
  (∀ (g : Engine) (w : BitVec 256) (k : Nat), k < 3 → setsEn w k = true → pF w (38 * k + 32) 5 < 16 → g.sregs.length = 16 →
    (∀ j, k < j → j < 3 → setsEn w j = true → pF w (38 * j + 32) 5 ≠ pF w (38 * k + 32) 5) →
    nth (setsRegs g w).sregs (pF w (38 * k + 32) 5) 0 = BitVec.ofNat 32 (pF w (38 * k) 32)) ∧
  (∀ (s : State) (e : Nat) (w : BitVec 256), ready s e w = true → wClass w = 3 → pF w 114 6 ≠ 0 → exec (.sets e w) s = .next (hxrFault s e 0x0130 2)) ∧
  (∀ (s : State) (e k : Nat) (w : BitVec 256), ready s e w = true → wClass w = 3 → pF w 114 6 = 0 → k < 3 → setsEn w k = true →
    24 ≤ pF w (38 * k + 32) 5 → exec (.sets e w) s = .next (hxrFault s e 0x0130 3)) ∧
  (∀ (s : State) (e : Nat) (w : BitVec 256), ready s e w = true → wClass w = 4 → (∀ k, k < 4 → ksetReasons w k = []) →
    exec (.kset e w) s = .next (finishWord (setE s e (ksetCmps (getE s e) w)) e w (getE s e))) ∧
  (∀ (g : Engine) (w : BitVec 256) (k : Nat), k < 4 → g.cmps.length = 4 →
    (ksetWr w k = false → nth (ksetCmps g w).cmps k {} = nth g.cmps k {}) ∧
    (ksetWr w k = true → nth (ksetCmps g w).cmps k {} =
      { en := pF w (30 * k) 1 == 1, srcA := pF w (30 * k + 1) 5, rel := pF w (30 * k + 6) 4, bkind := pF w (30 * k + 10) 1 == 1,
        b := pF w (30 * k + 11) 15 })) ∧
  (∀ (s : State) (e : Nat) (w : BitVec 256), ready s e w = true → wClass w = 5 → wBrOp w = 0 → wLoopOp w = 0 →
    (e = 0 → s.arr.op = none) → e < s.hx.length → e ≠ 1 →
    ∃ t, exec (.halt e w) s = .next t ∧ (getE t e).halted = true ∧ (getE t e).pc = (getE s e).pc ∧ (∀ f, f ≠ e → getE t f = getE s f) ∧
      { t with hx := s.hx } = s) ∧
  (∀ (s : State) (w : BitVec 256), ready s 1 w = true → wClass w = 5 → wBrOp w = 0 → wLoopOp w = 0 →
    exec (.halt 1 w) s = .next (finishWord (drainSettle s) 1 w (getE s 1))) ∧
  (∀ (s : State) (e : Nat) (w : BitVec 256),
    (wClass w ≠ 1 → exec (.agsetLo e w) s = .next (wordIssue e w s)) ∧ (wClass w ≠ 2 → exec (.agsetHi e w) s = .next (wordIssue e w s)) ∧
    (wClass w ≠ 3 → exec (.sets e w) s = .next (wordIssue e w s)) ∧ (wClass w ≠ 4 → exec (.kset e w) s = .next (wordIssue e w s)) ∧
    (wClass w ≠ 5 → exec (.halt e w) s = .next (wordIssue e w s)))

/-- A word of the row's CLASS that may act on the array sequencer: OPBEGIN with a width of 1 to 256, no operation open, no reserved
format, no reserved bit and no REPEAT, while the array is enabled, no column group settles and no retirement is to be applied,
opens the operation it names when no check of the array refuses it and checksums are off for the partition or available; one
that a check refuses stops the array with ARRAY_CONFIG (0x0110) and the check's reason, and keeps a loaded shadow set. LOAD of a
set that fits the operation, tile memory 1 and an empty shadow starts the load. STREAM in the stationary modes, with its
stationary set in place, its rows written and one tile share to send, sends the share's results from a slot that it allocates as
the lowest free one. FILL with fewer than four pending queues the copy. SAFE is a NOP where no lay-by is requested, and at a
safe point with a request it begins the entry. OPEND closes the operation. A word of another CLASS does what its own CLASS says.
Each then ends as any word, and changes nothing of memory. -/
def Obligations.ArrayWordsAct : Prop :=
  (∀ (s : State) (w : BitVec 256), ready s 0 w = true → wClass w = 8 → pF w 2 4 < 9 → pF w 6 4 < 9 →
    1 ≤ pF w 11 9 → pF w 11 9 ≤ 256 → s.arr.op = none → pF w 44 76 = 0 → wRepeat w = 0 → s.arr.settling = [] →
    isSet s F.ARR_CTL_ENABLE = true → s.arr.retireReq = [] →
    opRefusal s (pF w 0 2) (pF w 2 4) (pF w 6 4) (pF w 10 1 == 1) (pF w 11 9) (getE s 0).part = none →
    (bitOf (getF s F.ARR_CHK_CTL_PART_EN) (getE s 0).part = false ∨ chkAvail s = true) →
    exec (.opbegin 0 w) s =
      .next (finishWord { s with arr := { s.arr with op := some { opOf s w (getE s 0).part with ser := s.arr.opened + 1 },
                                                     opened := s.arr.opened + 1 } } 0 w (getE s 0))) ∧
  (∀ (s : State) (r : Nat) (w : BitVec 256), ready s 0 w = true → wClass w = 8 → pF w 2 4 < 9 → pF w 6 4 < 9 →
    1 ≤ pF w 11 9 → pF w 11 9 ≤ 256 → s.arr.op = none → pF w 44 76 = 0 → wRepeat w = 0 → s.arr.settling = [] →
    isSet s F.ARR_CTL_ENABLE = true → s.arr.retireReq = [] →
    opRefusal s (pF w 0 2) (pF w 2 4) (pF w 6 4) (pF w 10 1 == 1) (pF w 11 9) (getE s 0).part = some r →
    ∃ t, exec (.opbegin 0 w) s = .next t ∧ { t with arr := (engFault s 0 0x0110 [r]).arr } = engFault s 0 0x0110 [r] ∧
      t.arr.shadow = s.arr.shadow.filter (fun l => l.set.isSome)) ∧
  (∀ (s : State) (w : BitVec 256) (o : ArrOp), ready s 0 w = true → wClass w = 9 → s.arr.op = some o → 1 ≤ pF w 0 11 → pF w 0 11 ≤ 1024 →
    1 ≤ pF w 11 9 → pF w 11 9 ≤ o.wdecl → o.mode ≠ 1 → s.arr.shadow = none →
    pF w 20 10 + setRows o.fmtN (pF w 0 11) (pF w 11 9) ≤ 768 → pF w 30 90 = 0 → wRepeat w = 0 →
    exec (.load 0 w) s = .next (finishWord
      { s with arr := { s.arr with shadow := some { k := pF w 0 11, n := pF w 11 9, trow := pF w 20 10 } } } 0 w (getE s 0))) ∧
  (∀ (s : State) (i : Nat) (w : BitVec 256) (o : ArrOp), ready s 0 w = true → wClass w = 10 → s.arr.op = some o → o.mode ≠ 1 →
    streamReasons s 0 w = [] → pF w 36 84 = 0 → s.arr.shadow = none → streamWaits s (getE s 0) w o = false → s.arr.strPos = 0 →
    0 < (streamVecs s (getE s 0) w o).length → (streamVecs s (getE s 0) w o).length ≤ 512 →
    slotOf s .live o.optag (pF w 0 12) = none → (getSlot s i).st = .free → (∀ j, j < i → (getSlot s j).st ≠ .free) →
    i < 8 → i < s.arr.slots.length →
    ∃ t, exec (.stream 0 ⟨w, none⟩) s = .next (finishWord t 0 w (getE s 0)) ∧ { t with arr := s.arr } = s ∧
      t.arr.atTileEnd = (pF w 13 1 == 1) ∧
      t.arr.shares = s.arr.shares ++ [mkShare o (seenSet s s.arr.active) s.arr.pass w i (pF w 0 12) (streamVecs s (getE s 0) w o)] ∧
      (getSlot t i).st = .live ∧ (getSlot t i).optag = o.optag ∧ (getSlot t i).ot = pF w 0 12 ∧ (getSlot t i).opid = o.opid ∧
      (∀ j, j ≠ i → getSlot t j = getSlot s j)) ∧
  (∀ (s : State) (w : BitVec 256), ready s 0 w = true → wClass w = 11 → 1 ≤ pF w 11 10 → pF w 1 10 + pF w 11 10 ≤ 768 → pF w 26 3 ≤ 5 →
    pF w 29 91 = 0 → pF w 21 5 < 30 → wRepeat w = 0 → (s.arr.fills.filter (fun f => f.tgt == pF w 0 1)).length < 4 →
    exec (.fill 0 w) s = .next (finishWord
      (setE { s with arr := { s.arr with fills := s.arr.fills ++
          [{ tgt := pF w 0 1, trow := pF w 1 10, rows := pF w 11 10, src := (regRead s (getE s 0) (pF w 21 5)).toNat, nblog := pF w 26 3,
             serial := (getE s 0).eff + 1 }] } } 0 { getE s 0 with eff := (getE s 0).eff + 1 }) 0 w (getE s 0))) ∧
  (∀ (s : State) (w : BitVec 256), ready s 0 w = true → wClass w = 12 → pF w 0 120 = 0 → s.sch.phase ≠ 3 →
    exec (.safe 0 w) s = .next (finishWord s 0 w (getE s 0))) ∧
  (∀ (s : State) (w : BitVec 256), ready s 0 w = true → wClass w = 12 → pF w 0 120 = 0 → s.sch.phase = 3 → atSafePoint s = true →
    (getE (finishWord s 0 w (getE s 0)) 0).st = .run →
    exec (.safe 0 w) s = .next (enterLayby (finishWord s 0 w (getE s 0)))) ∧
  (∀ (s : State) (w : BitVec 256) (o : ArrOp), ready s 0 w = true → wClass w = 13 → s.arr.op = some o → pF w 0 120 = 0 → wRepeat w = 0 →
    exec (.opend 0 w) s = .next (finishWord { s with arr := { s.arr with op := none, closing := s.arr.closing + 1 } } 0 w (getE s 0))) ∧
  (∀ (s : State) (e : Nat) (w : BitVec 256) (c : Option Nat),
    (wClass w ≠ 8 → exec (.opbegin e w) s = .next (wordIssue e w s)) ∧ (wClass w ≠ 9 → exec (.load e w) s = .next (wordIssue e w s)) ∧
    (wClass w ≠ 10 → exec (.stream e ⟨w, c⟩) s = .next (wordIssue e w s)) ∧ (wClass w ≠ 11 → exec (.fill e w) s = .next (wordIssue e w s)) ∧
    (wClass w ≠ 12 → exec (.safe e w) s = .next (wordIssue e w s)) ∧ (wClass w ≠ 13 → exec (.opend e w) s = .next (wordIssue e w s)))

/-- LOAD_COMPLETE of a load whose rows are written puts the set's elements, read from tile memory 1, into the shadow, on the usable
powered columns in order. FILL_ROW_ARRIVE with one FILL pending to a tile memory and its source row readable in Map Store copies
the row to its place in the tile memory, counts it, drops the FILL with its last row, and counts the cycles that a load in the
background waited for the row as held. OPERATION_END with no result outstanding leaves no closed operation waiting, and with it
a waiting write of 0 to ENABLE takes effect. TILE_CHECK of the oldest share of one vector, without checksums, first and last of
its tile, writes the vector's lanes, each added to zero, to its slot and passes the slot to draining; a share with a failed
check writes nothing to the slot, and stops the array with ARRAY_CHECKSUM (0x0111). A write that passes the gate:
ARR_COL_RETIRE_REQ of a column below 256 that is neither retired nor requested queues it; RETIREMENT_APPLY while the array is
idle and no lay-by is under way retires the oldest requested column, raises ARRAY_RETIRED (advisory) with it and the new width,
and takes the array out of service when the width has fallen below 240. GROUP_POWER_UP ends a group's settling. ARR_CTL with
ENABLE 1 sets ENABLE, and with ENABLE already 1 changes none of its fields that act only while it reads 0; ENABLE 0 during an
operation, with the width at 240 or more, waits. ARR_COLCNT sets the counter that ARR_COLCNT_SEL selects. DRN_CTL setting ENABLE
from 0 seeds the 256 lane generators, and clearing it while the drain is idle or parked disables it. -/
def Obligations.ArrayResultsAndRegistersAct : Prop :=
  ((∀ (s : State) (o : ArrOp) (l : ShadowLoad), s.arr.op = some o → s.arr.shadow = some l → l.set = none →
    (∀ i, i < setRows o.fmtN l.k l.n → fillPending s 1 (l.trow + i) = false) →
    exec .loadComplete s = .next { s with arr := { s.arr with
      shadow := some { l with set := some (StatSet.mk l.k l.n l.trow
        (elemsOf o.fmtN (memRead s.mem (tileAddr 1 + 512 * l.trow) (512 * setRows o.fmtN l.k l.n)) (l.k * l.n)) o.fmtN
        ((physCols s).take l.n)) } } }) ∧
  (∀ (s : State) (f : FillReq) (n : Nat), s.arr.fills = [f] → f.done < f.rows → f.bad = [] → region (mapBase + fillRow f f.done * 512) = .mapStore →
    busGate s (engMaster 0 (getE s 0).part) (if f.tgt = 0 then .west else .north) (mapBase + fillRow f f.done * 512) 512 false = .pass →
    (∀ k ∈ rowWords (mapBase + fillRow f f.done * 512), tabGet s.mapu.bad k 0 = 0) →
    ∃ t, exec (.fillRowArrive ⟨f.tgt, n⟩) s = .next t ∧
      t.arr.stall = s.arr.stall + (if f.tgt = 1 ∧ loadWaits s (f.trow + f.done) = true then n else 0) ∧
      t.mem = memWrite s.mem (tileAddr f.tgt + 512 * (f.trow + f.done)) (memRead s.mem (mapBase + fillRow f f.done * 512) 512) ∧
      t.arr.fills = (if f.done + 1 < f.rows then [{ f with done := f.done + 1 }] else []) ∧
      { t with mem := s.mem, mapu := s.mapu, arr := s.arr } = s) ∧
  (∀ s : State, s.arr.shares = [] →
    (s.arr.closing = 0 ∨ s.arr.disablePending = false → exec .operationEnd s = .next { s with arr := { s.arr with closing := 0 } }) ∧
    (s.arr.closing ≠ 0 → s.arr.disablePending = true → exec .operationEnd s =
      .next (setF { s with arr := { s.arr with closing := 0, disablePending := false } } F.ARR_CTL_ENABLE 0))) ∧
  (∀ (s : State) (sh : Share) (l : List Nat) (r : List Share), s.arr.shares = sh :: r → sh.chk = false → sh.slot2 = none → sh.first = true →
    sh.last = true → sh.vecs = [(0, l)] → (getSlot s sh.slot).rowgroup < 2 → (getSlot s sh.slot).st = .live → sh.slot < s.arr.slots.length →
    ∃ t, exec (.tileCheck []) s = .next t ∧ t.arr.shares = r ∧ (getSlot t sh.slot).st = .draining ∧ (getSlot t sh.slot).complete = true ∧
      tabGet t.arr.acc (512 * sh.slot) [] = (List.range l.length).map (fun n => accAdd sh.fp 0 (nth l n 0)) ∧ (∀ j, j ≠ sh.slot → getSlot t j = getSlot s j) ∧
      { t with arr := s.arr, regs := s.regs } = s) ∧
  (∀ (s : State) (sh : Share) (r : List Share), s.arr.shares = sh :: r → sh.chk = true → sh.slot2 = none →
    (failedAt (rowChecks (getF s F.ARR_CHK_CTL_TOL_ULP) sh) ≠ [] ∨
      failedAt (colChecks (getF s F.ARR_CHK_CTL_TOL_ULP) sh.fp sh.colRef sh.vecs) ≠ []) →
    ∃ u d, exec (.tileCheck []) s = .next (engFault u 0 0x0111 d) ∧ u.arr.shares = r ∧ u.arr.acc = s.arr.acc ∧ u.arr.slots = s.arr.slots ∧
      u.mem = s.mem)) ∧
  ((∀ (s : State) (m : Master) (v : BitVec 32), regGate s false 1 0x28 m v.toNat = .pass → v.toNat % 512 < 256 →
    s.arr.retireReq.contains (v.toNat % 512) = false → bitOf s.arr.retired (v.toNat % 512) = false →
    exec (.arrColRetireReq m v) s = .next { s with arr := { s.arr with retireReq := s.arr.retireReq ++ [v.toNat % 512] } }) ∧
  (∀ (s : State) (c : Nat) (r : List Nat), s.arr.retireReq = c :: r → arrBusy s = false → laybyBusy s = false →
    exec .retirementApply s = .next (checkService
      (raise { s with arr := { s.arr with retireReq := r, retired := Nat.lor s.arr.retired (2 ^ c) } } false 0x0113 0 none 1 0xFFFF
        [c, widthW { s with arr := { s.arr with retireReq := r, retired := Nat.lor s.arr.retired (2 ^ c) } }]))) ∧
  (∀ (s : State) (g : Nat), exec (.groupPowerUp g) s =
    .next { s with arr := { s.arr with settling := s.arr.settling.filter (· != g) } }) ∧
  (∀ (s : State) (m : Master) (v : BitVec 32), regGate s false 1 0x10 m v.toNat = .pass → bitOf v.toNat 0 = true →
    ∃ t, exec (.arrCtlWrite m v) s = .next t ∧ isSet t F.ARR_CTL_ENABLE = true ∧ t.arr.disablePending = false ∧
      (isSet s F.ARR_CTL_ENABLE = true → getF t F.ARR_CTL_FUSE_BYPASS = getF s F.ARR_CTL_FUSE_BYPASS ∧
        getF t F.ARR_CTL_GROUP_ON = getF s F.ARR_CTL_GROUP_ON ∧ getF t F.ARR_CTL_RETIRE_THRESH = getF s F.ARR_CTL_RETIRE_THRESH)) ∧
  (∀ (s : State) (m : Master) (v : BitVec 32), regGate s false 1 0x10 m v.toNat = .pass → bitOf v.toNat 0 = false →
    isSet s F.ARR_CTL_ENABLE = true → arrBusy s = true → 240 ≤ widthW s →
    ∃ t, exec (.arrCtlWrite m v) s = .next t ∧ t.arr.disablePending = true ∧ isSet t F.ARR_CTL_ENABLE = true) ∧
  (∀ (s : State) (m : Master) (v : BitVec 32), regGate s false 1 0x30 m v.toNat = .pass → getF s F.ARR_COLCNT_SEL_SEL < 258 →
    ∃ t, exec (.arrColcntWrite m v) s = .next t ∧ colCount t (getF s F.ARR_COLCNT_SEL_SEL) = v.toNat % 256 ∧
      { t with arr := s.arr } = s ∧ (∀ i, i ≠ getF s F.ARR_COLCNT_SEL_SEL → colCount t i = colCount s i)) ∧
  (∀ (s : State) (m : Master) (v : BitVec 32), regGate s false 2 0x10 m v.toNat = .pass → bitOf v.toNat 0 = true →
    isSet s F.DRN_CTL_ENABLE = false →
    ∃ t, exec (.drnCtlWrite m v) s = .next t ∧ isSet t F.DRN_CTL_ENABLE = true ∧
      t.drn.lfsr = (List.range 256).map (lfsrSeed (getF s F.DRN_LFSR_SEED_SEED)) ∧ { t with drn := s.drn, regs := s.regs } = s) ∧
  (∀ (s : State) (m : Master) (v : BitVec 32), regGate s false 2 0x10 m v.toNat = .pass → bitOf v.toNat 0 = false →
    (getE s 1).st = .idle ∨ (getE s 1).st = .parked → exec (.drnCtlWrite m v) s = .next (setF s F.DRN_CTL_ENABLE 0)))

/-- A word of the row's CLASS that may act on the drain: CHAIN of at most eight records with no reason of its own, its records' rows
readable, its stages faultless in the domain of the open operation (with none open: in one of the two), without an optimiser and
without a scale output, and whose output format is that of the output descriptor at AG0's address plus its offset, puts the
records up to an End of chain in force with that descriptor, whose commit bit it clears, seeding the lanes only under RESEED; a
chain that is refused stops the drain with its lowest reason, writing nothing. DRAIN of one word cycle under a chain in force,
whose descriptors open again, whose slots are draining with sound parity and whose vector goes through the chain, ends with the
rows it produced written. COMMIT of 1 to 7 descriptors sets their commit bits after what the drain holds back has gone out.
OPTSTEP under a chain of one optimiser stage runs its blocks, and under any other chain stops with reason 2. Each completed word
ends as any word, and a word of another CLASS does what its own CLASS says. A deposit lands in the scalar register of the array
sequencer that it names; with none waiting and the reduction's operation not over nothing happens. On one lane: the bias stage
adds the channel's value, in the integer domain saturating to 32 bits and in floating point as a rounded FP32 sum; the integer
rescale multiplies by the channel's multiplier, shifts right with the stage's rounding and saturates; the integer zero-point
stage subtracts P0 times the channel's table entry modulo 2^32; the integer clip holds the lane between P0 and P1. The reduce
stage's integer SUM adds every lane in bounds to its running value. -/
def Obligations.DrainWordsRunTheirStages : Prop :=
  ((∀ (s u v : State) (w : BitVec 256) (d : TDesc), ready s 1 w = true → wClass w = 8 → chainIssue w = [] → pF w 0 4 ≤ 8 →
    tileRows (drainSettle s) ((List.range ((pF w 14 4 + pF w 0 4 + 15) / 16)).map (pF w 4 10 + ·)) = (drainSettle s, false) →
    (∀ x ∈ activeStages (chainRecords (drainSettle s) w), x.code ≠ 9) → scaleDesc (activeStages (chainRecords (drainSettle s) w)) = none →
    useDesc (drainSettle s) 1 .drainR (agFirstAddr (getE (drainSettle s) 1) w 0 + 64 * pF w 19 3) true false = .ok u d →
    chainRefusal ((drainSettle s).arr.op.map (fun o => fmtFp o.fmtW)) (fun fp =>
      chainReasons (drainSettle s).drn.force (decide ((activeStages (chainRecords (drainSettle s) w)).length ≤ 1))
        (activeStages (chainRecords (drainSettle s) w)) fp) = none →
    chainRefusal ((drainSettle s).arr.op.map (fun o => fmtFp o.fmtW)) (fun fp =>
      chainReasons (drainSettle s).drn.force (decide ((activeStages (chainRecords (drainSettle s) w)).length ≤ 1))
        (activeStages (chainRecords (drainSettle s) w)) fp
      ++ when (chainOut fp (activeStages (chainRecords (drainSettle s) w)) != d.fmt) 2) = none →
    clearOut (if pF w 18 1 = 1 then { u with drn := { u.drn with lfsr := seedLanes u } } else u) d.addr = .inr v →
    exec (.chain w) s = .next (finishWord { v with drn := { v.drn with
      chain := activeStages (chainRecords (drainSettle s) w), chainSet := true, outDesc := d.addr, reduce := [] } } 1 w (getE s 1))) ∧
  (∀ (s : State) (w : BitVec 256) (r : Nat), ready s 1 w = true → wClass w = 8 → chainIssue w = [] → 1 ≤ pF w 0 4 → pF w 0 4 ≤ 8 →
    tileRows (drainSettle s) ((List.range ((pF w 14 4 + pF w 0 4 + 15) / 16)).map (pF w 4 10 + ·)) = (drainSettle s, false) →
    chainRefusal ((drainSettle s).arr.op.map (fun o => fmtFp o.fmtW)) (fun fp =>
      chainReasons (drainSettle s).drn.force (decide ((activeStages (chainRecords (drainSettle s) w)).length ≤ 1))
        (activeStages (chainRecords (drainSettle s) w)) fp) = some r →
    exec (.chain w) s = .next (drainConfig (drainSettle s) r)) ∧
  (∀ (s s1 s2 u v : State) (w : BitVec 256) (d : TDesc) (slots : List Nat), ready s 1 w = true → wClass w = 9 → drainReasons s w = [] →
    wRepeat w = 0 → s.drn.chainSet = true → s.drn.pos = 0 → (∀ x ∈ s.drn.chain, x.code ≠ 9) →
    reopenOut (setE s 1 { getE s 1 with eff := (getE s 1).eff + 1 }) = .ok s1 d →
    openResiduals s1.drn.chain { s1 with drn := { s1.drn with chainSet := true, outDesc := d.addr } } = .inr s2 → s1.drn.pos = 0 → s2.drn.pos = 0 →
    drainSlots s2 (pF w 0 4) (pF w 4 12 + drainSeg w * (pF w 16 9 / 512)) (drainSeg w) = some slots →
    chainBad s2.drn.chain s2.drn.force (getSlot s2 (nth slots 0 0)).fp = none →
    (∀ j ∈ slots, tabGet s2.arr.accErr (512 * j + pF w 16 9 % 512) 0 = 0) →
    drainOne w (nth (agWord (nth (getE s 1).ags 1 {}) (wAgc w 1) 1).1 0 0) (pF w 16 9 % 512) slots s2 = .inr u → drainFinish u = .act v →
    exec (.drain ⟨w, none⟩ none) s = .next (finishWord v 1 w (getE s 1))) ∧
  (∀ (s u : State) (w : BitVec 256), ready s 1 w = true → wClass w = 10 → 1 ≤ pF w 3 3 → pF w 6 114 = 0 → wRepeat w = 0 →
    commitAll (engMaster 1 (getE (drainSettle s) 1).part) (pF w 3 3) (agFirstAddr (getE (drainSettle s) 1) w 0 + 64 * pF w 0 3)
      (drainSettle s) = .act u →
    exec (.commit w) s = .next (finishWord u 1 w (getE s 1))) ∧
  (∀ (s : State) (m : Master) (a : Nat), region (a + 10) = .dram → region a = .dram →
    busGate s m .drainW (a + 10) 1 true (leVal [(rdByte s.mem (a + 10) &&& 0xFE#8) ||| 1#8]) = .pass → memWf s.mem = true →
    commitAll m 1 a s = .act (putCommit s m a true).1 ∧ bitOf (rdByte (putCommit s m a true).1.mem (a + 10)).toNat 0 = true ∧
    (∀ k, k ≠ a + 10 → rdByte (putCommit s m a true).1.mem k = rdByte s.mem k)) ∧
  (∀ (s u : State) (w : BitVec 256) (st : Stage) (ds : List TDesc), ready s 1 w = true → wClass w = 11 → pF w 0 120 = 0 →
    s.drn.pos = 0 → s.drn.chain = [st] → st.code = 9 →
    openOpt st.aux 7 s [] = .inr (u, ds) → (∀ i, i < 7 → (nth ds i { addr := 0, raw := [] }).fmt = nth optFmts i 0) →
    u.drn.pos = 0 → ∀ v, optBlocks st ds none 0 (agWord (nth (getE u 1).ags 1 {}) (wAgc w 1) (wRepeat w + 1)).1 u = .act v →
    exec (.optstep ⟨w, none⟩) s = .next (finishWord v 1 w (getE s 1))) ∧
  (∀ (s : State) (w : BitVec 256) (c : Option Nat), ready s 1 w = true → wClass w = 11 → pF w 0 120 = 0 →
    (∀ st, s.drn.chain = [st] → st.code ≠ 9) → exec (.optstep ⟨w, c⟩) s = .next (drainConfig s 2)) ∧
  (∀ (s : State) (w : BitVec 256) (p c : Option Nat),
    (wClass w ≠ 8 → exec (.chain w) s = .next (wordIssue 1 w s)) ∧ (wClass w ≠ 9 → exec (.drain ⟨w, c⟩ p) s = .next (wordIssue 1 w s)) ∧
    (wClass w ≠ 10 → exec (.commit w) s = .next (wordIssue 1 w s)) ∧ (wClass w ≠ 11 → exec (.optstep ⟨w, c⟩) s = .next (wordIssue 1 w s))) ∧
  (∀ s : State, s.drn.deposits = [] → redOver s = false → exec .reduceDeposit s = .next s) ∧
  (∀ (s : State) (r v n : Nat) (l : List (Nat × Nat × Nat)), s.drn.deposits = (r, v, n) :: l → 0 < s.hx.length → r < (getE s 0).sregs.length →
    ∃ t, exec .reduceDeposit s = .next t ∧ t.drn.deposits = l ∧ nth (getE t 0).sregs r 0 = BitVec.ofNat 32 v ∧
      (∀ f, f ≠ 0 → getE t f = getE s f) ∧ { t with drn := s.drn, hx := s.hx } = s)) ∧
  (∀ (m : Mem) (s : Stage) (c v r wd : Nat),
    (s.code = 1 → laneStage m s false c v r = u32 (sat32 (i32 v + i32 (stageVal m s 0 c))) ∧
      laneStage m s true c v r = fAdd v (stageVal m s 0 c)) ∧
    (s.code = 2 → s.odom = false → laneStage m s false c v r =
      u32 (sat32 (roundShift (i32 v * i32 (stageVal m s 0 c)) (stageVal m s 1 c % 64) (s.round == 1)))) ∧
    (s.code = 3 → laneStage m s false c v r = u32 (wrap32 (i32 v - i32 s.p0 * i32 (tableVal m s 0 c)))) ∧
    (s.code = 4 → i32 s.p0 ≤ i32 s.p1 →
      i32 s.p0 ≤ i32 (laneStage m s false c v r) ∧ i32 (laneStage m s false c v r) ≤ i32 s.p1 ∧
      (i32 s.p0 ≤ i32 v → i32 v ≤ i32 s.p1 → i32 (laneStage m s false c v r) = i32 v)) ∧
    (∀ (x : Vec) (acc : Bool × Int), x.fp = false → (∀ n, n < x.vals.length → nth x.inb n false = true) →
      (reduceFold true wd x acc).2 = acc.2 + (x.vals.map i32).sum))

/-- A read of one row of Map Store that its checks pass, with no word bad and no error found, answers the row's bytes and changes
nothing else; a write that its checks pass replaces the bytes and gives the words written whole fresh check bits. A corrected
row awaiting its write-back is written back: its single-bit words are good again and it waits no more. With a scrub interval
that is not 0 the patrol of Map Store moves on to the next row, and likewise that of the tile memories; with the interval 0
nothing happens. -/
def Obligations.MapStorePortsReadAndWrite : Prop :=
  (∀ (s : State) (m : Master) (port a : Nat) (c : Bool), port ≤ 8 → region a = .mapStore → accessForm port a 512 false = true →
    busGate s m (portOf port c) a 512 false = .pass → (∀ k ∈ rowWords a, tabGet s.mapu.bad k 0 = 0) →
    exec (.mapStoreAccess m port c a 512 none []) s = .next { s with rd := memRead s.mem a 512, rdErr := false }) ∧
  (∀ (s : State) (m : Master) (port a : Nat) (c : Bool) (bs : Bytes), port ≤ 8 → region a = .mapStore →
    accessForm port a bs.length true = true → busGate s m (portOf port c) a bs.length true (leVal (bs.take 4)) = .pass →
    ∃ t, exec (.mapStoreAccess m port c a bs.length (some bs) []) s = .next t ∧ t.mem = memWrite s.mem a bs ∧
      (∀ k, (a + 7) / 8 ≤ k → k < (a + bs.length) / 8 → tabGet t.mapu.bad k 0 = 0) ∧ { t with mem := s.mem, mapu := s.mapu } = s) ∧
  (∀ (s : State) (row : Nat), s.mapu.writeBack.contains row = true →
    ∃ t, exec (.eccWriteBack row) s = .next t ∧ row ∉ t.mapu.writeBack ∧ t.mem = s.mem ∧
      (∀ k, row * 64 ≤ k → k < row * 64 + 64 → tabGet t.mapu.bad k 0 ≠ 1) ∧ { t with mapu := s.mapu } = s) ∧
  (∀ (s : State) (errs : List (Nat × Nat × Bool)), getF s F.MAP_CTL_SCRUB_INTERVAL ≠ 0 →
    ∃ t, exec (.mapPatrolScrub errs) s = .next t ∧ t.mapu.cursor = (s.mapu.cursor + 1) % 16384 ∧ t.crd = s.crd ∧ t.arr = s.arr) ∧
  (∀ (s : State) (errs : List (Nat × Nat × Bool)), getF s F.CRD_CTL_SCRUB_INTERVAL ≠ 0 →
    ∃ t, exec (.tilePatrolScrub errs) s = .next t ∧ t.crd = { s.crd with tileCursor := (s.crd.tileCursor + 1) % 768 } ∧
      t.mapu.cursor = s.mapu.cursor ∧ t.arr = s.arr) ∧
  (∀ (s : State) (errs : List (Nat × Nat × Bool)), getF s F.MAP_CTL_SCRUB_INTERVAL = 0 → exec (.mapPatrolScrub errs) s = .next s) ∧
  (∀ (s : State) (errs : List (Nat × Nat × Bool)), getF s F.CRD_CTL_SCRUB_INTERVAL = 0 → exec (.tilePatrolScrub errs) s = .next s)

/-- While credit flow is enabled: a request of a master of the window's partition (no stream DMA engine, whose count is its
transfer's) for an open window joins the window's requests; the request at the head is answered with the lesser of what it asks
and the pool, which move from the pool to its holder and to the outstanding credits, with the window's epoch; a return moves
what the holder has of it back to the pool. A remote write of a sender that holds a credit of the epoch it names, into a row of
an open window, spends one credit and writes its words to that row of the tile memory and nothing else; one of another epoch is
dropped and counted, and writes nothing. A request for a closed window is answered with code 2 and one for a draining window
with code 1. -/
def Obligations.CreditsMoveBetweenPoolAndHolders : Prop :=
  (∀ (s : State) (m : Master) (t w n : Nat), t < 24 → w < 8 → n ≠ 0 → (m.code < 23 ∨ 26 < m.code) → isSet s F.CRD_CTL_ENABLE = true →
    (getW s t w).st = .opened → (getW s t w).part = m.part →
    exec (.creditRequest m t w n) s = .next (setW s t w { getW s t w with requests := (getW s t w).requests ++ [(m.code, n)] })) ∧
  (∀ (s : State) (t w c n : Nat) (r : List (Nat × Nat)), (getW s t w).requests = (c, n) :: r → isSet s F.CRD_CTL_ENABLE = true →
    (getW s t w).st = .opened → 1 ≤ (getW s t w).pool →
    ∃ u, exec (.creditGrant t w) s = .next u ∧ (getW u t w).pool = (getW s t w).pool - min n (getW s t w).pool ∧
      (getW u t w).outstanding = (getW s t w).outstanding + min n (getW s t w).pool ∧
      heldBy (getW u t w) c = heldBy (getW s t w) c + min n (getW s t w).pool ∧ (getW u t w).requests = r ∧
      u.crd.answer = (c, 0, min n (getW s t w).pool) ∧ u.crd.answerEpoch = (getW s t w).epoch ∧ { u with crd := s.crd } = s) ∧
  (∀ (s : State) (m : Master) (t w k : Nat), (getW s t w).st = .opened →
    ∃ u, exec (.creditReturn m t w k) s = .next u ∧ (getW u t w).pool = (getW s t w).pool + min k (heldBy (getW s t w) m.code) ∧
      (getW u t w).outstanding = (getW s t w).outstanding - min k (heldBy (getW s t w) m.code) ∧ { u with crd := s.crd } = s) ∧
  (∀ (s : State) (m : Master) (t w row : Nat) (ws : RowWords), t < 24 → w < 8 → row < 768 → ws ≠ [] →
    (∀ p ∈ ws, p.1 < 64 ∧ p.2.length = 8) → isSet s F.CRD_CTL_ENABLE = true → (getW s t w).st = .opened → 0 < heldBy (getW s t w) m.code →
    (getW s t w).base ≤ row → row < (getW s t w).base + (getW s t w).rows → tileLocked s (tileAddr t + 512 * row) = false →
    ∃ u, exec (.remoteWrite m t w (getW s t w).epoch row ws) s = .next u ∧
      u.mem = ws.foldl (fun mem p => memWrite mem (tileAddr t + 512 * row + 8 * p.1) p.2) s.mem ∧
      (getW u t w).outstanding = (getW s t w).outstanding - 1 ∧ u.crd.answer = (m.code, 0, 0) ∧
      { u with mem := s.mem, mapu := s.mapu, crd := s.crd } = s) ∧
  (∀ (s : State) (m : Master) (t w e row : Nat) (ws : RowWords), t < 24 → w < 8 → row < 768 → ws ≠ [] →
    (∀ p ∈ ws, p.1 < 64 ∧ p.2.length = 8) → e ≠ (getW s t w).epoch →
    ∃ u, exec (.remoteWrite m t w e row ws) s = .next u ∧ u.crd.answer = (m.code, 2, 0) ∧ { u with crd := s.crd } = s ∧
      tabGet u.crd.drops t (0, 0) = (min ((tabGet s.crd.drops t (0, 0)).1 + 1) 0xFFFF, m.code)) ∧
  (∀ (s : State) (m : Master) (t w n : Nat), t < 24 → w < 8 → n ≠ 0 → isSet s F.CRD_CTL_ENABLE = true → m.code < 23 →
    ((getW s t w).st = .closed → exec (.creditRequest m t w n) s = .next { s with crd := { s.crd with answer := (m.code, 2, 0), answerEpoch := (getW s t w).epoch } }) ∧
    ((getW s t w).st = .draining → (getW s t w).part = m.part →
      exec (.creditRequest m t w n) s = .next { s with crd := { s.crd with answer := (m.code, 1, 0), answerEpoch := (getW s t w).epoch } }))

/-- Firmware opens the selected CLOSED window, more than a microsecond after its last epoch change and free of the faults of an
OPEN, with its configured rows as its pool; a WIN word of OP OPEN does the same for its engine's tile memory and partition, one
of OP CLOSE and RELEASE what the writes do, and the reserved OP raises HXR_ILLEGAL reason 1. A close of an open window with no
credit out and no request waiting closes it at once, with the next epoch; with credits out and none waiting it drains, with its
timeout set. A release of rows adds them to the pool up to the rows that are not outstanding. A held OPEN is accepted under the
same conditions. The timeout of a draining window with credits outstanding gives it the next epoch, makes it revoke from every
holder, and raises CREDIT_TIMEOUT against its partition; a holder's revocation takes all its credits, and the last
acknowledgement closes the window. -/
def Obligations.WindowsOpenAndClose : Prop :=
  (∀ (s : State) (m : Master) (t w : Nat), regGate s false 5 0x2C m 1 = .pass → winSel s = some (t, w) →
    openTooSoon s (getW s t w) = false → openBad s t w (getW s t w).base (getW s t w).rows = false →
    exec (.crdWinctlOpen m) s = .next (openWindow s t w (getW s t w).base (getW s t w).rows (getW s t w).part)) ∧
  (∀ (s : State) (m : Master) (t w : Nat), regGate s false 5 0x2C m 2 = .pass → winSel s = some (t, w) →
    exec (.crdWinctlClose m) s = .next (closeWindow s t w)) ∧
  (∀ (s : State) (m : Master) (n : BitVec 10) (t w : Nat), regGate s false 5 0x2C m (3 + 65536 * n.toNat) = .pass → winSel s = some (t, w) →
    exec (.crdWinctlRelease m n) s = .next (releaseRows s t w n.toNat)) ∧
  (∀ (s : State) (e : Nat) (w : BitVec 256), ready s e w = true → wClass w = 6 → winOp w = 1 → winReasons e w true true = [] →
    (getW s (winTile e w) (pF w 3 3)).accepted ≠ some e → openTooSoon s (getW s (winTile e w) (pF w 3 3)) = false →
    openBad s (winTile e w) (pF w 3 3) (pF w 6 10) (pF w 16 10) = false →
    exec (.winOpen e w) s =
      .next (finishWord (openWindow s (winTile e w) (pF w 3 3) (pF w 6 10) (pF w 16 10) (getE s e).part) e w (getE s e))) ∧
  (∀ (s : State) (e : Nat) (w : BitVec 256), ready s e w = true → wClass w = 6 → winOp w = 2 → winReasons e w false false = [] →
    exec (.winClose e w) s = .next (finishWord (closeWindow s (winTile e w) (pF w 3 3)) e w (getE s e))) ∧
  (∀ (s : State) (e : Nat) (w : BitVec 256), ready s e w = true → wClass w = 6 → winOp w = 3 → winReasons e w false true = [] →
    exec (.winRelease e w) s = .next (finishWord (releaseRows s (winTile e w) (pF w 3 3) (pF w 16 10)) e w (getE s e))) ∧
  (∀ (s : State) (e : Nat) (w : BitVec 256),
    (wClass w ≠ 6 ∨ winOp w ≠ 1 → exec (.winOpen e w) s = .next (wordIssue e w s)) ∧
    (wClass w ≠ 6 ∨ winOp w ≠ 2 → exec (.winClose e w) s = .next (wordIssue e w s)) ∧
    (wClass w ≠ 6 ∨ winOp w ≠ 3 → exec (.winRelease e w) s = .next (wordIssue e w s))) ∧
  (∀ (s : State) (e : Nat) (w : BitVec 256), ready s e w = true → wClass w = 6 → winOp w = 0 → wordIssue e w s = hxrFault s e 0x0130 1) ∧
  (∀ (s : State) (t w base rows part : Nat),
    (getW (openWindow s t w base rows part) t w).st = .opened ∧ (getW (openWindow s t w base rows part) t w).pool = rows ∧
    (getW (openWindow s t w base rows part) t w).outstanding = 0 ∧ (getW (openWindow s t w base rows part) t w).part = part ∧
    { openWindow s t w base rows part with crd := s.crd } = s) ∧
  (∀ (s : State) (t w : Nat), (getW s t w).st = .opened → (getW s t w).requests = [] →
    ((getW s t w).outstanding = 0 → (getW (closeWindow s t w) t w).st = .closed ∧
      (getW (closeWindow s t w) t w).epoch = ((getW s t w).epoch + 1) % 256) ∧
    ((getW s t w).outstanding ≠ 0 → closeWindow s t w = setW s t w { getW s t w with
        st := .draining, requests := [], deadline := s.timeC + 1000 * getF s F.CRD_TIMEOUT_US })) ∧
  (∀ (s : State) (t w k : Nat), (getW s t w).st = .opened → (getW s t w).outstanding ≤ (getW s t w).rows →
    (getW (releaseRows s t w k) t w).pool = min ((getW s t w).pool + k) ((getW s t w).rows - (getW s t w).outstanding) ∧
    { releaseRows s t w k with crd := s.crd, regs := s.regs } = s) ∧
  (∀ (s : State) (t w e base rows part : Nat), (getW s t w).heldOpen = some (e, base, rows, part) → openTooSoon s (getW s t w) = false →
    openBad s t w base rows = false →
    ∃ u, exec (.windowOpenAccept t w) s = .next u ∧ (getW u t w).st = .opened ∧ (getW u t w).pool = rows ∧ (getW u t w).part = part ∧
      (getW u t w).accepted = some e ∧ (getW u t w).heldOpen = none ∧ { u with crd := s.crd } = s) ∧
  (∀ (s : State) (t w : Nat), (getW s t w).st = .draining → 0 < (getW s t w).outstanding → (getW s t w).deadline ≤ s.timeC →
    ∃ u d, exec (.creditTimeout t w) s = .next (raise u false 0x0125 2 (some (getW s t w).part) 5 0xFFFF d) ∧
      (getW u t w).st = .revoking ∧ (getW u t w).epoch = ((getW s t w).epoch + 1) % 256 ∧
      (getW u t w).revoking = (getW s t w).holders.map (·.1) ∧ { u with crd := s.crd } = s) ∧
  (∀ (s : State) (c t w : Nat), (getW s t w).st = .revoking → (getW s t w).revoking.contains c = true →
    ∃ u, exec (.revocation c t w) s = .next u ∧ heldBy (getW u t w) c = 0 ∧
      (getW u t w).outstanding = (getW s t w).outstanding - heldBy (getW s t w) c ∧ { u with crd := s.crd } = s) ∧
  (∀ (s : State) (c t w : Nat), (getW s t w).st = .revoking → (getW s t w).revoking = [c] → heldBy (getW s t w) c = 0 →
    ∃ u, exec (.revocationAck c t w) s = .next u ∧ (getW u t w).st = .closed ∧ (getW u t w).epoch = (getW s t w).epoch ∧
      { u with crd := s.crd } = s)

/-- A write of HXR_START with GO that passes the gate, on an enabled engine that is idle or parked, has no plan item armed and no
LEVEL_BAD, and whose preset record, read under the filter of the partition named, has no reserved bit set, starts the engine at
the address and for the partition named, with its first word staged 1 µs on. A cairn at the head of the queue that an engine
waits on is removed and the engine runs again. An emitted cairn enters its queue once the engine's earlier effects are
acknowledged, with the queue's sequence number, which advances; a queue that refuses it stops the engine with QUEUE_OVERFLOW. A
held engine tries its word again, and the cycles that the array sequencer was held count as stalled. After a HALT, with no cairn
left and its unit done, the engine goes idle and its item's end is reported. -/
def Obligations.ProgramsStartWaitAndEnd : Prop :=
  (∀ (s : State) (m : Master) (e : Nat) (v : BitVec 32), regGate s false (engBlock e) (hxrBank e % 0x10000 + 0xC) m v.toNat = .pass →
    bitOf v.toNat 15 = true → engEnable s e = true → ((getE s e).st = .idle ∨ (getE s e).st = .parked) → itemArmed s e = false →
    isSet s (F.HXR_STAT_LEVEL_BAD e) = false →
    (bitOf v.toNat 14 = false → exec (.hxrStartGo m e v) s =
      .next (beginEngine s e (bitsOf v.toNat 0 14) (bitsOf v.toNat 16 3) none none (s.timeC + 1000))) ∧
    (∀ d, bitOf v.toNat 14 = true → busRead s (engMaster e (bitsOf v.toNat 16 3)) .system (presetAddr s e) 128 = ⟨s, d, true, false, none⟩ →
      presetBad d = false → exec (.hxrStartGo m e v) s =
      .next (beginEngine s e (bitsOf v.toNat 0 14) (bitsOf v.toNat 16 3) none (some d) (s.timeC + 1000)))) ∧
  (∀ (s : State) (e addr part at_ : Nat) (i : Option (Nat × Nat)) (r : Option Bytes), e < s.hx.length →
    (getE (beginEngine s e addr part i r at_) e).st = .run ∧ (getE (beginEngine s e addr part i r at_) e).pc = addr ∧
    (getE (beginEngine s e addr part i r at_) e).part = part ∧ (getE (beginEngine s e addr part i r at_) e).staged = some at_ ∧
    (r = none → (getE (beginEngine s e addr part i r at_) e).sregs = List.replicate 16 0) ∧
    (getE (beginEngine s e addr part i r at_) e).loops = List.replicate 4 {} ∧
    { beginEngine s e addr part i r at_ with hx := s.hx, drn := s.drn } = s) ∧
  (∀ (s : State) (e q : Nat) (x : QEntry), (getE s e).st = .wait → (getE s e).waitQ = some q → headQ s q = some x → x.cairn = true →
    exec (.cairnWait e) s = .next (setE (popQ s q) e { getE s e with st := .run, waitQ := none, granted := true })) ∧
  (∀ (s : State) (e : Nat) (m : Emit) (r : List Emit), (getE s e).emits = m :: r → unacked s e m.after = false → m.own = false →
    qRefusal (getQ s m.q) (getE s e).part = none →
    ∃ t, exec (.cairnEnter e) s = .next t ∧ (getQ t m.q).seq = ((getQ s m.q).seq + 1) % 65536 ∧
      (getQ t m.q).entries = (getQ s m.q).entries ++
        [QEntry.mk true (cairnBytes (getQ s m.q).seq s.tick.num (engCode e) (getE s e).part) (engCode e) none] ∧
      t.hx = (setE s e { getE s e with emits := r }).hx ∧ { t with qm := s.qm, hx := s.hx } = s) ∧
  (∀ (s : State) (e c : Nat) (m : Emit) (r : List Emit), (getE s e).emits = m :: r → unacked s e m.after = false → m.own = false →
    qRefusal (getQ s m.q) (getE s e).part = some c →
    exec (.cairnEnter e) s =
      .next (engHalt (qOverflow (setE s e { getE s e with emits := r }) m.q (engCode e) (getE s e).part c) e)) ∧
  (∀ (s : State) (e n : Nat), (getE s e).st = .held → (∀ x ∈ s.sch.frozen, x.1 ≠ e) →
    (∀ x ∈ s.crd.wins, x.2.heldOpen.map (·.1) ≠ some e) →
    (e ≠ 0 → exec (.engineHoldRelease ⟨e, n⟩) s = .next (setE s e { getE s e with st := .run })) ∧
    (e = 0 → exec (.engineHoldRelease ⟨e, n⟩) s =
      .next { setE s e { getE s e with st := .run } with arr := { s.arr with stall := s.arr.stall + n } })) ∧
  (∀ (s : State) (e : Nat), (getE s e).halted = true → (getE s e).emits = [] → unitDone s e = true → e < s.hx.length → e ≠ 2 →
    (e < 7 ∨ 11 ≤ e) → s.sch.run = none →
    ∃ t, exec (.programEnd e) s = .next t ∧ (getE t e).st = .idle ∧ (getE t e).halted = false ∧ (getE t e).item = none ∧
      t.tick.reports = s.tick.reports ++ ((getE s e).item.map (·.1)).toList ∧ t.mem = s.mem ∧ t.qm = s.qm ∧ t.flt = s.flt)

/-- An XFER word that may act, with its first descriptor readable in Ember memory and free of the faults of a descriptor, comes into
force with that descriptor as its transfer in force; once its last descriptor is done the word ends as any word. A COPY of up to
a line from DRAM to DRAM, in clear and without FENCE, reads its bytes into one burst in flight and ends the transfer. A TENSOR
whose descriptors open runs its lines; the burst of a line whose elements stand in one source line outside tile memory carries
each element of the destination line with the code read at its coordinates. A CSLOAD into an unlocked store begins with
LEVEL_BAD cleared; into a locked one, at its start or later, it raises HXR_CS_LOCKED and stops the item. A SMALL into DRAM that
is one natural access, behind no burst to its row and with a footpath tag free, writes its bytes and ends. Emino's descriptor
waits in the empty boot port while engine 0 works, and where it is idle or parked runs at once. A word of another CLASS does
what its own CLASS says. -/
def Obligations.TransfersMoveBytes : Prop :=
  (∀ (s : State) (e a : Nat) (w : BitVec 256), 2 ≤ e → e < 6 → e < s.hx.length → e - 2 < s.dma.length → ready s e w = true → wClass w = 8 → laybyDue s e = false →
    pF w 18 9 ≤ 256 → pF w 41 79 = 0 → pF w 8 5 < 30 → pF w 13 5 < 30 → wordNow (getD s e) = none →
    agAddr (nth (getE s e).ags 0 {}) (agFirst (nth (getE s e).ags 0 {}) (wAgc w 0)).p = a → region a = .ember → region (a + 63) = .ember →
    (getE s e).part = 0 → (∀ k ∈ rowWords a, tabGet s.mapu.bad k 0 = 0) →
    descBad s 0 false (addOffsets (memRead s.mem a 64) (regRead s (getE s e) (pF w 8 5)).toInt
      (regRead s (getE s e) (pF w 13 5)).toInt) = none →
    ∃ t x, exec (.xfer e w) s = .next t ∧ (getD t e).words = (getD s e).words ++ [x] ∧ x.pc = (getE s e).pc ∧ x.issued = false ∧
      (getD t e).xfer.map (fun y => (y.idx, y.addr, y.pos)) = some (0, a, 0) ∧
      (getD t e).xfer.map (·.raw) = some (addOffsets (memRead s.mem a 64) (regRead s (getE s e) (pF w 8 5)).toInt
        (regRead s (getE s e) (pF w 13 5)).toInt) ∧ { t with hx := s.hx, dma := s.dma } = s) ∧
  (∀ (s : State) (e : Nat) (w : BitVec 256) (x : DmaWord), 2 ≤ e → e < 6 → ready s e w = true → wClass w = 8 → laybyDue s e = false → pF w 18 9 ≤ 256 → pF w 41 79 = 0 → pF w 8 5 < 30 →
    pF w 13 5 < 30 → wordNow (getD s e) = some x → (getD s e).xfer = none → x.descs.length ≤ x.next →
    exec (.xfer e w) s = .next (finishWord (setD s e (setWord (getD s e) { x with issued := true })) e w (getE s e))) ∧
  (∀ (s : State) (e : Nat) (w : BitVec 256), wClass w ≠ 8 ∨ e < 2 ∨ 6 ≤ e → exec (.xfer e w) s = .next (wordIssue e w s)) ∧
  (∀ (s : State) (e : Nat) (x : DmaXfer) (w : DmaWord), 2 ≤ e → e - 2 < s.dma.length → (getE s e).st = .run → (getD s e).words = [w] →
    w.issued = false → (getD s e).xfer = some x → xOp x.raw = 0 → xCrypt x.raw = 0 → bitOf (xFlags x.raw) 5 = false → x.status = 0 →
    x.pos = 0 → x.tile = none → s.sch.phase ≠ 1 → (getD s e).bursts = [] → (getD s e).orphan = 0 → 0 < w.taglim → withheld s (e - 2) < 256 →
    0 < xLen x.raw → xSrc x.raw % 512 + xLen x.raw ≤ 512 → xDst x.raw % 512 + xLen x.raw ≤ 512 → region (xSrc x.raw) = .dram →
    region (xDst x.raw) = .dram → region (swizzle (xSrc x.raw) (xMask x.raw false)) = .dram →
    busGate s (engMaster e (getE s e).part) (.dma false) (swizzle (xSrc x.raw) (xMask x.raw false)) (xLen x.raw) false = .pass →
    dramEcc s (engMaster e (getE s e).part) (swizzle (xSrc x.raw) (xMask x.raw false)) (xLen x.raw) = (s, false) →
    ∃ t b, exec (.dmaCopy e) s = .next t ∧ (getD t e).bursts = [b] ∧ b.dst = swizzle (xDst x.raw) (xMask x.raw true) ∧
      b.data = memRead s.mem (swizzle (xSrc x.raw) (xMask x.raw false)) (xLen x.raw) ∧ b.page = xFlags x.raw % 4 ∧ (getD t e).xfer = none ∧
      (getD t e).words = [{ w with next := w.next + 1 }] ∧ { t with dma := s.dma } = s) ∧
  (∀ (s : State) (e : Nat) (x : DmaXfer), xferReady s e 1 = some x → fenced s e x = false →
    (x.opened = true → exec (.dmaTensor e) s =
      .next (settleCommits (tensorLoop e (((tdesc s (xDst x.raw)).alloc / 512 + 2) * 1024) s) e)) ∧
    (∀ u, x.opened = false → openTensor s e x = .inr u → exec (.dmaTensor e) s =
      .next (settleCommits (tensorLoop e (((tdesc u (xDst x.raw)).alloc / 512 + 2) * 1024) u) e)) ∧
    (∀ u, x.opened = false → openTensor s e x = .inl u → exec (.dmaTensor e) s = .next u)) ∧
  (∀ (s s1 : State) (e p : Nat) (w : DmaWord) (x : DmaXfer) (sd dd : TDesc), 2 ≤ e → e - 2 < s.dma.length → lineElems dd x.pos ≠ [] →
    tileOf sd.base = none → x.sub = 0 → (sourceLines sd ((lineElems dd x.pos).map (accessAt dd))).length ≤ 1 →
    s1 = setD s e { getD s e with xfer := some { x with pos := x.pos + 1, sub := 0 } } →
    gateLines s1 (engMaster e p) (.dma false) false (fun _ => 0) (sourceLines sd ((lineElems dd x.pos).map (accessAt dd))) = (s1, [], false) →
    srcUnreach s1 (engMaster e p) sd ((lineElems dd x.pos).map (accessAt dd)) = false →
    ∃ u b, tensorBurst s e w x sd dd p = .inr u ∧ (getD u e).bursts = (getD s e).bursts ++ [b] ∧
      b.els.map (·.1) = lineElems dd x.pos ∧
      b.els.map (·.2) = (lineElems dd x.pos).map (fun o => sd.read s.mem (accessAt dd o).1 (accessAt dd o).2.1 (accessAt dd o).2.2.1
        (accessAt dd o).2.2.2) ∧ { u with dma := s.dma } = s) ∧
  (∀ (s : State) (e : Nat) (x : DmaXfer), xferReady s e 2 = some x → fenced s e x = false →
    (storeLocked s (xDst x.raw) = false → x.opened = true → exec (.dmaCsload e) s = .next (copyLoop e (xLen x.raw + 1) s)) ∧
    (∀ u, storeLocked s (xDst x.raw) = false → x.opened = false → openXfer (clearLevelBad s (xDst x.raw)) e x = .inr u →
      exec (.dmaCsload e) s = .next (copyLoop e (xLen x.raw + 1) u)) ∧
    (storeLocked s (xDst x.raw) = true → exec (.dmaCsload e) s =
      .next (engHalt (csLocked s (engMaster e (getE s e).part) (engBlock e) (engItem s e) (xDst x.raw)) e))) ∧
  (∀ (s : State) (e : Nat) (x : DmaXfer) (w : DmaWord), 2 ≤ e → e - 2 < s.dma.length → xferReady s e 3 = some x → (getD s e).words = [w] →
    w.issued = false → x.tile = none → x.pos = 0 → fenced s e x = false → smallBehind s e x = false → s.fp.held.length + s.fp.granted.length < 64 →
    s.fp.waiting = [] → s.fp.held = [] → s.fp.granted.contains (engCode e) = false → tileOf (xDst x.raw) = none →
    smallParts x.raw = [(xDst x.raw, (x.raw.drop 32).take (xLen x.raw))] →
    region (xDst x.raw) = .dram → region (swizzle (xDst x.raw) (xMask x.raw true)) = .dram →
    busGate s (engMaster e (getE s e).part) (.dma false) (swizzle (xDst x.raw) (xMask x.raw true)) ((x.raw.drop 32).take (xLen x.raw)).length
      true (leVal (((x.raw.drop 32).take (xLen x.raw)).take 4)) = .pass →
    ∃ t, exec (.dmaSmall e) s = .next t ∧
      t.mem = memWrite s.mem (swizzle (xDst x.raw) (xMask x.raw true)) ((x.raw.drop 32).take (xLen x.raw)) ∧ (getD t e).xfer = none ∧
      { t with mem := s.mem, mapu := s.mapu, dma := s.dma } = s) ∧
  (∀ (s : State) (m : Master) (raw : Bytes), m.secure = true → raw.length = 64 → s.bootPort = none → compDown s = false →
    ((getE s 2).st ≠ .idle → (getE s 2).st ≠ .parked → exec (.bootPortDescriptor m raw) s = .next { s with bootPort := some raw }) ∧
    ((getE s 2).st = .idle ∨ (getE s 2).st = .parked → exec (.bootPortDescriptor m raw) s = .next (bootCsload s raw)))

/-- An acknowledged burst to DRAM that no earlier burst of its engine precedes in its row writes exactly its bytes, frees its tag,
and adds them to its word's count; the burst of an engine stopped before it came frees its tag alone. A whole decrypted block
whose stored tag is the one computed passes; with another tag the word ends with status 5 and the item stops with WEIGHT_AUTH
(0x0143), AUTH_FAIL set. When the last word's bursts are done and its blocks have passed, its completion entry, with the word's
address, engine, status, byte count and tick, enters the completion queue that the word names, and the word is done. -/
def Obligations.BurstsComplete : Prop :=
  (∀ (s : State) (e k : Nat) (b : DmaBurst), 2 ≤ e → e - 2 < s.dma.length → (getD s e).bursts[k]? = some b →
    (∀ x ∈ (getD s e).bursts.take k, x.dst / 512 ≠ b.dst / 512) → region b.dst = .dram → b.tdst = none → b.blk = none →
    b.cs = false → b.need = 0 → dramOut s b.src = false → dramOut s b.dst = false → (getD s e).commits = [] →
    busGate s (engMaster e (getE s e).part) (.dma false) b.dst b.data.length true (leVal (b.data.take 4)) = .pass →
    ∃ t, exec (.burstComplete e k) s = .next t ∧ t.mem = memWrite s.mem b.dst b.data ∧
      (getD t e).bursts = (getD s e).bursts.eraseIdx k ∧
      (getD t e).words = (getD s e).words.map (fun w => if w.serial = b.word then { w with bytes := min (w.bytes + b.data.length) 0xFFFFFFFF }
        else w) ∧ { t with mem := s.mem, mapu := s.mapu, dma := s.dma } = s) ∧
  (∀ (s : State) (e k : Nat), (getD s e).bursts[k]? = none → 0 < (getD s e).orphan →
    exec (.burstComplete e k) s = .next (setD s e { getD s e with orphan := (getD s e).orphan - 1 })) ∧
  (∀ (s : State) (e : Nat) (b : DmaBlock), (getD s e).blocks = [b] → b.encrypt = false → b.ok = false → blockWhole b = true →
    dmaRead s (engMaster e (getE s e).part) false b.tagAt 16 = ⟨s, gcmTagOf (((tabGet s.sec.slots b.slot none).map (·.key)).getD 0)
      (gcmIv b.nonce b.idx) (blockText b), true, false, none⟩ →
    exec (.blockAuth e) s = .next (setD s e { getD s e with blocks := [{ b with ok := true }] })) ∧
  (∀ (s : State) (e : Nat) (b : DmaBlock) (tag : Bytes), (getD s e).blocks = [b] → b.encrypt = false → b.ok = false → blockWhole b = true →
    dmaRead s (engMaster e (getE s e).part) false b.tagAt 16 = ⟨s, tag, true, false, none⟩ →
    tag ≠ gcmTagOf (((tabGet s.sec.slots b.slot none).map (·.key)).getD 0) (gcmIv b.nonce b.idx) (blockText b) →
    ∃ u, exec (.blockAuth e) s = .next (engFault (endWord (setF u (F.DMA_STAT_AUTH_FAIL (e - 2)) 1) e b.word b.desc 5) e 0x0143
      [b.daddr, b.idx, b.slot])) ∧
  (∀ (s : State) (e q : Nat) (w : DmaWord), 2 ≤ e → e - 2 < s.dma.length → (getD s e).words = [w] → w.issued = true →
    (getD s e).bursts = [] → (getD s e).blocks = [] → (getD s e).commits = [] → w.post = some q →
    qRefusal (getQ s q) (getE s e).part = none → ((getQ s q).consumer < 24 ∨ 28 ≤ (getQ s q).consumer) →
    ∃ t, exec (.xferComplete e) s = .next t ∧ (getD t e).words = [] ∧
      (getQ t q).entries = (getQ s q).entries ++ [QEntry.mk false (leBytes 2 w.pc ++ leBytes 1 e ++ leBytes 1 w.status ++ leBytes 4 w.bytes
        ++ leBytes 2 w.bad ++ leBytes 2 (s.tick.num % 65536) ++ leBytes 4 0) (engCode e) none] ∧ { t with dma := s.dma, qm := s.qm } = s) ∧
  (∀ (s : State) (e : Nat) (w : DmaWord), 2 ≤ e → e - 2 < s.dma.length → (getD s e).words = [w] → w.issued = true →
    (getD s e).bursts = [] → (getD s e).blocks = [] → (getD s e).commits = [] → w.post = none →
    ∃ t, exec (.xferComplete e) s = .next t ∧ (getD t e).words = [] ∧ { t with dma := s.dma } = s)

/-- The scheduler takes the entry at the head of a submission queue: a step whose descriptor is aligned, lies in its partition, is
readable and valid, with a lay-by area for the partition, joins the submitted steps; an unaligned one ends with status 2. With
no step running, none being entered or resumed, the step of the partition that R269 chooses, its engines free and no item due on
them too soon, holds the array when every start is accepted. When the running partition's meter has reached its share a lay-by
is requested, unless the step runs on spill. A shape entry of a batch item of the queue's own partition, within the sixteen
registers, replaces the shadow of its preset record, to be swapped in after 10 µs; for no item of the plan in force it is
dropped, and the flag says so. The step that ended first has its completion posted to its queue. -/
def Obligations.ElasticStepsRun : Prop :=
  (∀ (s : State) (q : Nat) (x : QEntry), schedHead s q = some x → leAt x.data 0 6 % 64 = 0 →
    inPartition (popQ s q) (getQ s q).part (leAt x.data 0 6) 64 = true → laybyBase (popQ s q) (getQ s q).part ≠ 0 →
    busRead (popQ s q) schedMaster .system (leAt x.data 0 6) 64 = ⟨popQ s q, memRead s.mem (leAt x.data 0 6) 64, true, false, none⟩ →
    stepDescOk (memRead s.mem (leAt x.data 0 6) 64) = true → s.sch.run = none →
    ∃ t, exec (.stepSubmit q) s = .next t ∧ t.sch.submitted = s.sch.submitted ++ [Step.mk (leAt x.data 8 2) (leAt x.data 10 2) (getQ s q).part
      (stepEngines (memRead s.mem (leAt x.data 0 6) 64)) 0 0 false none] ∧ { t with sch := s.sch } = popQ s q) ∧
  (∀ (s : State) (q : Nat) (x : QEntry), schedHead s q = some x → leAt x.data 0 6 % 64 ≠ 0 →
    exec (.stepSubmit q) s = .next (postStep (popQ s q) (Step.mk (leAt x.data 8 2) (leAt x.data 10 2) (getQ s q).part (stepEngines []) 0 0
      false none) 2)) ∧
  (∀ (s u : State) (t p : Nat) (spill : Bool) (x : Step), u = atComp t s → u.sch.run = none → u.sch.phase = 0 → u.sch.resume = none →
    schedChoice u = some (p, spill) → stepOf u p = some x → x.saved = none → leadAt u (x.engs.map (·.1)) = none →
    (∀ y ∈ x.engs, itemArmed u y.1 = false ∧ ((getE u y.1).st = .idle ∨ (getE u y.1).st = .parked)) →
    (startAll { u with sch := { u.sch with submitted := u.sch.submitted.eraseP (fun y => y.part == p), run := some { x with spill := spill }, since := u.timeC, last := p, again := false } } p x.engs).2 = true →
    exec (.elasticStepStart t) s = .next (startAll { u with sch := { u.sch with submitted := u.sch.submitted.eraseP (fun y => y.part == p), run := some { x with spill := spill }, since := u.timeC, last := p, again := false } } p x.engs).1) ∧
  (∀ (s u : State) (p t : Nat) (x : Step), u = chargeStep (atComp t s) → u.sch.run = some x → x.part = p → x.spill = false →
    belowShare u p = false → u.sch.phase = 0 →
    exec (.shareExpiry p t) s = .next { u with sch := { u.sch with phase := 3, reqAt := u.timeC } }) ∧
  (∀ (s u : State) (q t : Nat) (x : QEntry) (pl : Plan) (it : PlanItem), u = atComp t s → schedHead u q = some x → planNow u = some pl →
    pl.items.find? (fun i => i.id == leAt x.data 0 2) = some it → it.batch = true → it.part = (getQ u q).part → 1 ≤ leAt x.data 3 1 →
    leAt x.data 3 1 ≤ 3 → leAt x.data 2 1 + leAt x.data 3 1 ≤ 16 → it.preset < pl.presets.length →
    u.sch.shadows.find? (fun y => y.1 == pl.id && y.2.1 == it.preset) = none →
    ∃ v, exec (.shapeEntry q t) s = .next v ∧ { v with sch := u.sch } = popQ u q ∧
      (pl.id, it.preset, shapeRecord (nth pl.presets it.preset []) (leAt x.data 2 1) ((x.data.drop 4).take (4 * leAt x.data 3 1)),
        u.timeC + 10000) ∈ v.sch.shadows) ∧
  (∀ (s u : State) (q t : Nat) (x : QEntry) (pl : Plan), u = atComp t s → schedHead u q = some x → planNow u = some pl →
    pl.items.find? (fun i => i.id == leAt x.data 0 2) = none →
    exec (.shapeEntry q t) s = .next (setF (popQ u q) F.LBY_STAT_SHAPE_DROP 1)) ∧
  (∀ (s : State) (x : Step) (st : Nat) (r : List (Step × Nat)), s.sch.ended = (x, st) :: r →
    exec .stepCompletion s = .next (postData { s with sch := { s.sch with ended := r } } x.cq
      (leBytes 2 x.id ++ leBytes 1 st ++ leBytes 1 (min x.laybys 255) ++ leBytes 4 (x.array / 1000) ++ leBytes 8 s.tick.num) 8 x.part).1)

/-- LBY_CMD with ENTER, and the arrival of the lead time before the next item on a held engine, request a lay-by of the running
step; LBY_CMD with RESUME of a partition with a parked step asks for its resume. Without a safe point within the limit the step
is stopped with LAYBY_LATE, and its slots are freed. Entry with its windows closed and everything in flight settled, no parity
error and clean tile memories parks the step's engines, frees every slot, and adds the step to the parked ones with its state
saved, but for the cells, and one more lay-by. A requested resume begins when the array is enabled, free and idle. When every
block of the area carries its tag the step runs again with its engines, drain and DMA state as they were saved; a wrong tag
raises LAYBY_AUTH (0x0146), sets its flag, and restores nothing. -/
def Obligations.LaybysSaveAndRestore : Prop :=
  (∀ (s : State) (m : Master), regGate s false 1 0x244 m 1 = .pass → exec (.lbyCmdEnter m) s = .next (laybyRequest s)) ∧
  (∀ (s : State) (x : Step), s.sch.run = some x → s.sch.phase = 0 →
    laybyRequest s = { s with sch := { s.sch with phase := 3, reqAt := s.timeC } }) ∧
  (∀ (s : State) (m : Master) (p : BitVec 3), regGate s false 1 0x244 m (2 + 4 * p.toNat) = .pass → (∃ x ∈ s.sch.parked, x.part = p.toNat) →
    exec (.lbyCmdResume m p) s = .next { s with sch := { s.sch with resume := some p.toNat } }) ∧
  (∀ (s u : State) (t : Nat) (x : Step) (l : Int), u = atComp t s → u.sch.run = some x → leadAt u (x.engs.map (·.1)) = some l → l ≤ (u.timeC : Int) →
    exec (.laybyLeadRequest t) s = .next (laybyRequest u)) ∧
  (∀ (s u : State) (t : Nat) (x : Step), u = atComp t s → u.sch.run = some x → u.sch.phase = 3 →
    u.sch.reqAt + 1000 * getF u F.LBY_CTL_SP_LIMIT_US ≤ u.timeC →
    exec (.laybyLate t) s = .next (freeSlots (endStep (raise (setF u F.LBY_STAT_LATE 1) false 0x0145 2 (some x.part) 1 0xFFFF []) 1))) ∧
  (∀ (s u : State) (t : Nat) (x : Step), u = atComp t s → closeStep u = u → u.sch.run = some x → u.sch.phase = 1 → u.bootPort = none →
    entryReady u x = true → u.mapu.bad = [] →
    u.flt.restarts = [] → (∀ y ∈ x.engs, y.1 < u.hx.length) →
    ∃ v sv a, exec (.laybyEntryComplete false t) s = .next v ∧ (∀ y ∈ x.engs, (getE v y.1).st = .parked) ∧ v.sch.run = none ∧ v.sch.phase = 0 ∧
      v.sch.parked = u.sch.parked ++ [{ x with saved := some sv, laybys := x.laybys + 1, array := a }] ∧ sv.arr = { u.arr with cells := [], borderCol := [], borderRow := [] } ∧ sv.drn = u.drn ∧
      (∀ z ∈ v.arr.slots, z = ({} : Slot)) ∧ v.arr.op = none) ∧
  (∀ (s u : State) (t p : Nat) (x : Step), u = atComp t s → u.sch.resume = some p → u.sch.parked = [x] → x.part = p → u.sch.phase = 0 →
    u.sch.run = none → isSet u F.ARR_CTL_ENABLE = true → (∀ z ∈ u.arr.slots, z.st = .free) →
    (∀ y ∈ x.engs, ((getE u y.1).st = .idle ∨ (getE u y.1).st = .parked) ∧ itemArmed u y.1 = false) →
    ∃ v, exec (.laybyExitBegin t) s = .next v ∧ v.sch.phase = 2 ∧ v.sch.run = some x ∧ v.sch.resume = none ∧ v.sch.parked = [] ∧
      { v with sch := u.sch } = u) ∧
  (∀ (s u : State) (t : Nat) (x : Step) (sv : Saved), u = atComp t s → u.sch.run = some x → x.saved = some sv → u.sch.phase = 2 →
    u.sch.again = false → sv.arr.op = none → (∀ i ∈ laybyBlocks sv.arr.slots, (loadBlock u x.part (laybyKey u x.part).key i).2 = true) →
    (sv.engs.map (·.1)).Nodup → (∀ g ∈ sv.engs, g.1 < u.hx.length) →
    ∃ v, exec (.laybyExitComplete t) s = .next v ∧ v.sch.phase = 0 ∧ v.sch.run.map (·.saved) = some none ∧ v.arr.slots = sv.arr.slots ∧
      (∀ g ∈ sv.engs, getE v g.1 = g.2)) ∧
  (∀ (s u : State) (t : Nat) (x : Step) (sv : Saved), u = atComp t s → u.sch.run = some x → x.saved = some sv → u.sch.phase = 2 →
    (∃ i ∈ laybyBlocks sv.arr.slots, (loadBlock u x.part (laybyKey u x.part).key i).2 = false) →
    exec (.laybyExitComplete t) s = .next (settleParked (endStep (freeSlots (clearArrayPath
      (raise (setF u F.LBY_STAT_AUTH 1) false 0x0146 2 (some x.part) 1 0xFFFF []) x.part)) 3)))

/-- A frame start of one direct context with no open frame advances the context's frame counter and opens a frame of that number
with the packet's frame number and time: admitted into the raw buffer, and a frame of the ISP, when the ring has the context's
ADMIT rows free and a plan binds it where it must; otherwise dropped, with DROP_REASON 3 for no plan item and 1 for no space,
and the ISP sees nothing. A packet lost to the PHY is counted, with CAM_LINK_ERROR at most once per port per millisecond; a
change of synchronisation shows in LINK_UP of that port alone, and a port that is not enabled does not come up. -/
def Obligations.FramesAreAdmittedOrDropped : Prop :=
  (∀ (s u : State) (port vc fn hdr t c : Nat), u = atPort t s → portOn u port = true → hdr ≤ 1 → ctxsOf u port vc = [c] →
    (getC u c).cur = none → nth u.cam.run port none = none → getFifo u port = [] → (∀ f ∈ u.isp.frames, f.ctx ≠ c) →
    waitingIsp u c = none → iAuto (getI u c).record = 0 → (bitOf (cFlags (camRec u c)) 0 = false ∨ (waitingIntake u c).isSome = true) →
    cAdmit (camRec u c) ≤ camFree u c →
    ∃ v f, exec (.csiFrameStart port vc fn hdr t) s = .next v ∧ (getC v c).counter = (getC u c).counter + 1 ∧ (getC v c).cur = some f ∧
      f.frame = (getC u c).counter + 1 ∧ f.fn = fn % 65536 ∧ f.fsTime = u.timeP ∧ f.admitted = true ∧ f.reason = 0 ∧
      f.rbFirst = (getC u c).next ∧ f.hdr = hdr ∧ f.lines = 0 ∧
      (∃ g ∈ v.isp.frames, g.ctx = c ∧ g.frame = f.frame ∧ g.fed = false ∧ g.rbFirst = f.rbFirst ∧ g.fsTime = u.timeP ∧
        g.dead = !ispOn u c) ∧ { v with cam := u.cam, isp := u.isp } = u) ∧
  (∀ (s u : State) (port vc fn hdr t c : Nat), u = atPort t s → portOn u port = true → hdr ≤ 1 → ctxsOf u port vc = [c] →
    (getC u c).cur = none → nth u.cam.run port none = none → getFifo u port = [] →
    ((bitOf (cFlags (camRec u c)) 0 = true ∧ waitingIntake u c = none) ∨ camFree u c < cAdmit (camRec u c)) →
    ∃ v f, exec (.csiFrameStart port vc fn hdr t) s = .next v ∧ (getC v c).counter = (getC u c).counter + 1 ∧ (getC v c).cur = some f ∧
      f.frame = (getC u c).counter + 1 ∧ f.admitted = false ∧
      f.reason = (if bitOf (cFlags (camRec u c)) 0 ∧ waitingIntake u c = none then 3 else 1) ∧ { v with cam := u.cam } = u) ∧
  (∀ (s : State) (port t0 : Nat), portOn s port = true → nth s.cam.linkErrAt port none = some t0 → s.timeP < t0 + 1000000 →
    exec (.csiPhyError port) s = .next (bump s (F.CAM_PORTERR_PHY port) 1)) ∧
  (∀ (s : State) (port : Nat), portOn s port = true → (∀ t0 ∈ nth s.cam.linkErrAt port none, t0 + 1000000 ≤ s.timeP) →
    ∃ u, exec (.csiPhyError port) s = .next (raise u true 0x0203 0 none 1 0xFFFF [port]) ∧
      u = (let b := bump s (F.CAM_PORTERR_PHY port) 1
           { b with cam := { b.cam with linkErrAt := b.cam.linkErrAt.set port (some b.timeP) } })) ∧
  (∀ (s : State) (port : Nat) (b : Bool), port < 4 → (b = true → portOn s port = true) → ∃ t, exec (.csiSyncChange port b) s = .next t ∧
    bitOf (getF t F.CAM_STAT_LINK_UP) port = b ∧
    (∀ q, q < 4 → q ≠ port → bitOf (getF t F.CAM_STAT_LINK_UP) q = bitOf (getF s F.CAM_STAT_LINK_UP) q) ∧
    { t with regs := s.regs } = s) ∧
  (∀ (s : State) (port : Nat), portOn s port = false → exec (.csiSyncChange port true) s = .next s)

/-- A pixel line of an admitted frame with its whole bytes and ring space goes straight on: the line count of the frame advances,
its rows leave FREE, every byte of it stands at its place of the context's ring, and the ISP's frame has one line more. An
embedded-data line whose checked registers all read as the epoch says sets EPOCH_CONFIRMED with that epoch. A frame end closes
the open frame with its end time and, when all lines came, no TRUNCATED flag, and its status word waits behind its lines. A
release notice gives the context its rows back, and a waiting line that now fits goes on; without one nothing happens. -/
def Obligations.LinesFillTheRawBuffer : Prop :=
  (∀ (s : State) (port vc dt c : Nat) (d : Bytes) (f : CamFrame) (g : IspFrame), portOn s port = true → dt ≠ 0x12 → dt ≠ 2 → dt ≠ 3 →
    (ctxsOf s port vc).find? (fun k => cDt (camRec s k) == dt) = some c → (getC s c).cur = some f → f.reason = 0 →
    f.lines < cLines (camRec s c) → d.length = cWidth (camRec s c) → embMissing (getC s c) (camRec s c) f = false →
    getFifo s port = [] → cLineRows (camRec s c) ≤ camFree s c → cLineRows (camRec s c) ≤ cRbRows (camRec s c) →
    findFrame s c f.frame = some g → g.dead = false →
    ∃ t, exec (.csiLongPacket port vc dt d true 0) s = .next t ∧ (getC t c).cur = some { f with lines := f.lines + 1 } ∧
      (getC t c).used = (getC s c).used + cLineRows (camRec s c) ∧ findFrame t c f.frame = some { g with linesIn := g.linesIn + 1 } ∧
      (∀ j, j < d.length → rdByte t.isp.raw (512 * (cRbBase (camRec s c) +
        ((f.rbFirst + f.lines * cLineRows (camRec s c)) % cRbRows (camRec s c) + j / 512) % cRbRows (camRec s c)) + j % 512) = nth d j 0) ∧
      { t with cam := s.cam, isp := s.isp } = s) ∧
  (∀ (s : State) (port vc c hdr : Nat) (d : Bytes) (f : CamFrame) (e : Epoch), portOn s port = true → hdr ≤ 1 →
    (ctxsOf s port vc).find? (fun k => bitOf (cFlags (camRec s k)) 4) = some c → (getC s c).cur = some f → f.emb = false → f.lines = 0 →
    epochOf (getC s c) f.frame = some e → e.check = true → e.vals.all (embHas (bitOf (cFlags (camRec s c)) 5) d) = true →
    ∃ t, exec (.csiLongPacket port vc 0x12 d true hdr) s = .next t ∧
      (getC t c).cur = some { f with hdr := f.hdr + hdr, emb := true, flags := f.flags ||| 0x20, conf := e.num } ∧
      { t with cam := s.cam } = s) ∧
  (∀ (s u : State) (port vc hdr t c : Nat) (f : CamFrame), u = atPort t s → portOn u port = true → hdr ≤ 1 → ctxsOf u port vc = [c] →
    (getC u c).cur = some f → f.admitted = true → f.reason = 0 → f.crc = 0 → cLines (camRec u c) ≤ f.lines → f.item = none → port < u.cam.fifo.length →
    ∃ v g, exec (.csiFrameEnd port vc hdr t) s = .next (runFifo v port) ∧ (getC v c).cur = none ∧
      (getC v c).blank = some (f.frame, u.timeP, false) ∧ getFifo v port = getFifo u port ++ [.status c g] ∧
      g = { f with hdr := f.hdr + hdr, feTime := u.timeP } ∧ { v with cam := u.cam } = u) ∧
  (∀ (s : State) (c n : Nat) (rest : List (Nat × Nat)), s.cam.notices = (c, n) :: rest → getFifo s (cPort (camRec s c)) = [] →
    ∃ t, exec .rawReleaseNotice s = .next t ∧ t.cam.notices = rest ∧ (getC t c).used = (getC s c).used - n ∧ { t with cam := s.cam } = s) ∧
  (∀ (s : State) (c n fr row : Nat) (d : Bytes) (rest : List (Nat × Nat)), s.cam.notices = (c, n) :: rest →
    getFifo s (cPort (camRec s c)) = [.line c fr row d] → (d.length + 511) / 512 ≤ cRbRows (camRec s c) - ((getC s c).used - n) →
    ∃ v, exec .rawReleaseNotice s = .next (sendLine v c fr row d) ∧ v.cam.notices = rest ∧ (getC v c).used = (getC s c).used - n ∧
      getFifo v (cPort (camRec s c)) = []) ∧
  (∀ (s : State), s.cam.notices = [] → exec .rawReleaseNotice s = .next s)

/-- A write to CAM_CTL that passes its gate enables a port whose lane count and rate are supported and a context whose record is
good, and refuses each otherwise, setting CTX_REFUSED and enabling nothing. An enabled context's frame counter and ring start
afresh. A context disabled with a frame open closes it, and its status word, with TRUNCATED set, waits in the port's FIFO; its
posted sets are discarded. An I3C in-band interrupt is latched with its address on a port in I3C mode. -/
def Obligations.CamerasAreConfigured : Prop :=
  (∀ (s : State) (m : Master) (v : BitVec 32) (p : Nat), p < 4 → v.toNat = 2 ^ p → regGate s true 1 0x10 m v.toNat = .pass →
    getF s F.CAM_CTL_PORT_EN = 0 → getF s F.CAM_CTL_CTX_EN = 0 → (∀ q, q < 4 → getFifo s q = []) →
    exec (.camCtlWrite m v) s = .next (if portCfgOk s p then setF s F.CAM_CTL_PORT_EN (2 ^ p) else setF s F.CAM_STAT_CTX_REFUSED 1)) ∧
  (∀ (s : State) (m : Master) (v : BitVec 32) (c : Nat), c < 16 → v.toNat = getF s F.CAM_CTL_PORT_EN + 2 ^ (16 + c) →
    getF s F.CAM_CTL_PORT_EN < 16 → regGate s true 1 0x10 m v.toNat = .pass → getF s F.CAM_CTL_CTX_EN = 0 →
    (∀ q, q < 4 → getFifo s q = []) → ctxRefused s c = false →
    ∃ t, exec (.camCtlWrite m v) s = .next t ∧ getF t F.CAM_CTL_CTX_EN = 2 ^ c ∧ (getC t c).counter = 0 ∧ (getC t c).next = 0 ∧
      (getC t c).cur = none ∧ { t with regs := s.regs, cam := s.cam } = s) ∧
  (∀ (s : State) (m : Master) (v : BitVec 32) (c : Nat), c < 16 → v.toNat = getF s F.CAM_CTL_PORT_EN + 2 ^ (16 + c) →
    getF s F.CAM_CTL_PORT_EN < 16 → regGate s true 1 0x10 m v.toNat = .pass → getF s F.CAM_CTL_CTX_EN = 0 →
    (∀ q, q < 4 → getFifo s q = []) → ctxRefused s c = true → exec (.camCtlWrite m v) s = .next (setF s F.CAM_STAT_CTX_REFUSED 1)) ∧
  (∀ (s : State) (m : Master) (v : BitVec 32) (c : Nat) (f : CamFrame), c < 16 → v.toNat = getF s F.CAM_CTL_PORT_EN →
    getF s F.CAM_CTL_PORT_EN < 16 → regGate s true 1 0x10 m v.toNat = .pass → getF s F.CAM_CTL_CTX_EN = 2 ^ c →
    s.cam.fifo = List.replicate 4 [] → (getC s c).cur = some f →
    ∃ (u : State) (g : CamFrame), exec (.camCtlWrite m v) s = .next ((List.range 4).foldl runFifo u) ∧ getF u F.CAM_CTL_CTX_EN = 0 ∧
      (getC u c).cur = none ∧ (getC u c).posted = [] ∧ getFifo u (cPort (camRec s c)) = [.status c g] ∧ bitOf g.flags 1 = true ∧
      g.frame = f.frame ∧ { u with regs := s.regs, cam := s.cam } = s) ∧
  (∀ (s : State) (port addr : Nat), port < 4 → getF s (F.CAM_PORT_CFG_BUS_MODE port) = 4 → addr < 128 →
    ∃ t, exec (.i3cIbi port addr) s = .next t ∧ isSet t (F.CAM_PORT_STAT_IBI port) = true ∧
      getF t (F.CAM_PORT_STAT_IBI_ADDR port) = addr ∧ { t with regs := s.regs } = s)

/-- A set posted with GO, of 1 to 32 entries within the 128, with fewer than four sets waiting and no READ in a set with an epoch,
waits at the end of its context's queue; any other sets REFUSED for the context. A set whose context's blanking leaves time
starts, taking the next epoch when it has one; one that would not end in time is deferred and stays posted. An acknowledged
write moves on to the next entry or ends the set; a refused transaction is tried up to three times, and after the third the set
ends with BUS_FAIL and WRITE_SET_FAIL (0x0204) for its context. A trigger output that is enabled drives its next pulse for WIDTH
microseconds, and ends it then. -/
def Obligations.WriteSetsAndTriggersRun : Prop :=
  (∀ (s : State) (m : Master) (v : BitVec 32), regGate s true 1 0x50 m v.toNat = .pass → bitOf v.toNat 31 = true →
    exec (.camWscmdPost m v) s = .next (
      let c := bitsOf v.toNat 0 4
      let a := bitsOf v.toNat 4 7
      let n := bitsOf v.toNat 11 6
      let x := getC s c
      if 1 ≤ n ∧ n ≤ 32 ∧ a + n ≤ 128 ∧ x.posted.length < 4 ∧
          (bitOf v.toNat 17 = true ∨ ∀ i, i < n → wsRead (wsEntry s (cPort (camRec s c)) (a + i)) = false) then
        setC s c { x with posted := x.posted ++ [{ first := a, count := n, noEpoch := bitOf v.toNat 17 }] }
      else setF s (F.CAM_WSSTAT_REFUSED c) 1)) ∧
  (∀ (s : State) (m : Master) (v : BitVec 32), regGate s true 1 0x50 m v.toNat = .pass → bitOf v.toNat 31 = false →
    exec (.camWscmdPost m v) s = .next s) ∧
  (∀ (s u : State) (port t bit c b0 n0 : Nat) (b1 : Bool) (w : WsPost) (rest : List WsPost), u = atPort t s → port < u.cam.run.length → port < 4 →
    powered u domCam = true → bitTime u port = some bit → nth u.cam.run port none = none → nextSet u port = some c → ctxOn u c = true →
    (getC u c).posted = w :: rest → (getC u c).blank = some (n0, b0, b1) → b0 + 1000 * leAt (camRec u c) 26 2 ≤ u.timeP →
    setFits u c (setNs u port bit w) = true →
    ∃ v e, exec (.writeSetStart port t) s = .next v ∧ (getC v c).posted = rest ∧
      e = (if w.noEpoch then none else some ((getC u c).lastEpoch % 0xFFFE + 1)) ∧ nth v.cam.run port none = some { ctx := c, set := w, epoch := e } ∧
      (getC v c).lastEpoch = (if w.noEpoch then (getC u c).lastEpoch else (getC u c).lastEpoch % 0xFFFE + 1) ∧
      (w.noEpoch = false → ∃ y, (getC v c).epochs.getLast? = some y ∧ some y.num = e ∧ y.from_ = n0 + cDelay (camRec u c)) ∧
      { v with cam := u.cam } = u) ∧
  (∀ (s u : State) (port t bit c b0 n0 : Nat) (b1 : Bool) (w : WsPost) (rest : List WsPost), u = atPort t s → port < 4 →
    powered u domCam = true → bitTime u port = some bit → nth u.cam.run port none = none → nextSet u port = some c → ctxOn u c = true →
    (getC u c).posted = w :: rest → (getC u c).blank = some (n0, b0, b1) → b0 + 1000 * leAt (camRec u c) 26 2 ≤ u.timeP →
    setFits u c (setNs u port bit w) = false →
    exec (.writeSetStart port t) s = .next (setC u c { getC u c with blank := some (n0, b0, true) })) ∧
  (∀ (s : State) (port rd : Nat) (r : WsRun), nth s.cam.run port none = some r → r.hold = 0 →
    wsRead (wsEntry s port (r.set.first + r.done)) = false →
    ∃ t, exec (.writeSetEntry port true rd) s = .next t ∧
      nth t.cam.run port none = (if r.set.count ≤ r.done + 1 then none else some { r with done := r.done + 1, tries := 0 }) ∧
      { t with cam := s.cam } = s) ∧
  (∀ (s : State) (port rd : Nat) (r : WsRun), nth s.cam.run port none = some r → r.hold = 0 → r.tries < 2 →
    exec (.writeSetEntry port false rd) s =
      .next { s with cam := { s.cam with run := s.cam.run.set port (some { r with tries := r.tries + 1 }) } }) ∧
  (∀ (s : State) (port rd : Nat) (r : WsRun), nth s.cam.run port none = some r → r.hold = 0 → 2 ≤ r.tries →
    ∃ u, exec (.writeSetEntry port false rd) s = .next (raise u true 0x0204 0 (ctxPart s r.ctx) 1 0xFFFF [r.ctx]) ∧
      isSet u (F.CAM_WSSTAT_BUS_FAIL r.ctx) = true ∧ nth u.cam.run port none = none ∧
      (∀ y ∈ (getC u r.ctx).epochs, some y.num = r.epoch → y.num = (getC s r.ctx).lastEpoch → y.failed = true) ∧
      { u with regs := s.regs, cam := s.cam } = s) ∧
  (∀ (s u : State) (n t a : Nat) (rest : List Nat), u = atPort t s → n < u.cam.trig.length → (nth u.cam.trig n {}).sched = a :: rest →
    isSet u (F.TRG_CFG_EN n) = true → a ≤ u.timeP →
    exec (.triggerPulse n t) s = .next (setTrig u n { sched := rest, endAt := some (a + 1000 * getF u (F.TRG_CFG_WIDTH n)) })) ∧
  (∀ (s u : State) (n t a : Nat), u = atPort t s → (nth u.cam.trig n {}).endAt = some a →
    exec (.triggerPulseEnd n t) s = .next (if a ≤ u.timeP then setTrig u n { nth u.cam.trig n {} with endAt := none } else u))

/-- Setting a context's bit in ISP_CTXEN reads its record and tables: a good record enables the context with them and its
white-balance gains, any other is refused, setting CTX_REFUSED and enabling nothing. Clearing the bit of a context without a
frame disables it, keeping its record address; while a lane of it runs, the bit stays set. ISP_FEED with GO for an enabled
source context numbers the frame on from the one fed last and brings it in; without GO nothing happens, and for any other
context the write is ignored as configuration. -/
def Obligations.PipelineContextsOpenAndFeed : Prop :=
  (∀ (s : State) (m : Master) (v : BitVec 32) (c : Nat) (q w : State × Bytes × Bool), c < 32 → v.toNat = 2 ^ c → regGate s false 13 0x20 m v.toNat = .pass →
    getF s F.ISP_CTXEN_EN = 0 → q = readBytes s (engMaster 7 ((ctxPart s c).getD 0)) .image 1 (getI s c).recAddr 128 →
    w = readBytes q.1 (engMaster 7 ((ctxPart s c).getD 0)) .image 38 (leAt q.2.1 72 8) (iTabBytes q.2.1) →
    (iTabBytes q.2.1 = 12832 ∨ iTabBytes q.2.1 = 19202) → q.2.2 = false → w.2.2 = false →
    iAeHw q.2.1 = false → getF w.1 F.ISP_CTXEN_EN = 0 → ispRefused w.1 c q.2.1 w.2.1 = false →
    ∃ t, exec (.ispCtxenWrite m v) s = .next t ∧ getF t F.ISP_CTXEN_EN = 2 ^ c ∧ (getI t c).record = q.2.1 ∧
      (getI t c).tables = w.2.1 ∧ (getI t c).wb = (leAt w.2.1 20 2, leAt w.2.1 22 2, leAt w.2.1 24 2) ∧ (getI t c).recAddr = (getI s c).recAddr ∧
      { t with regs := w.1.regs, isp := w.1.isp } = w.1) ∧
  (∀ (s : State) (m : Master) (v : BitVec 32) (c : Nat) (q : State × Bytes × Bool), c < 32 → v.toNat = 2 ^ c → regGate s false 13 0x20 m v.toNat = .pass →
    getF s F.ISP_CTXEN_EN = 0 → q = readBytes s (engMaster 7 ((ctxPart s c).getD 0)) .image 1 (getI s c).recAddr 128 →
    iTabBytes q.2.1 ≠ 12832 → iTabBytes q.2.1 ≠ 19202 →
    exec (.ispCtxenWrite m v) s = .next (setF q.1 F.ISP_STAT_CTX_REFUSED 1)) ∧
  (∀ (s : State) (m : Master) (v : BitVec 32) (c : Nat), c < 32 → v.toNat = 0 → regGate s false 13 0x20 m v.toNat = .pass →
    getF s F.ISP_CTXEN_EN = 2 ^ c → (∀ f ∈ s.isp.frames, f.ctx ≠ c) →
    ∃ t, exec (.ispCtxenWrite m v) s = .next t ∧ getF t F.ISP_CTXEN_EN = 0 ∧ getI t c = { recAddr := (getI s c).recAddr } ∧
      t.isp.frames = s.isp.frames ∧ { t with regs := s.regs, isp := s.isp } = s) ∧
  (∀ (s : State) (m : Master) (v : BitVec 32) (c : Nat), c < 32 → v.toNat = 0 → regGate s false 13 0x20 m v.toNat = .pass →
    getF s F.ISP_CTXEN_EN = 2 ^ c → (∃ f ∈ s.isp.frames, f.ctx = c ∧ ∃ l ∈ f.lanes, l.pipe.isSome = true) →
    exec (.ispCtxenWrite m v) s = .next (setI s c { getI s c with disabling := true })) ∧
  (∀ (s : State) (m : Master) (v : BitVec 32) (c n : Nat) (q w : State × Bytes × Bool), regGate s false 13 0x38 m v.toNat = .pass →
    bitOf v.toNat 31 = true → c = bitsOf v.toNat 16 5 → 16 ≤ c → ispOn s c = true → iSrc (getI s c).record = true →
    n = fullFrame (getI s c).lastFed (bitsOf v.toNat 0 16) →
    q = readBytes s (engMaster 7 ((ctxPart s c).getD 0)) .image 1 (iSrcDesc (getI s c).record) 64 →
    w = readBytes q.1 (engMaster 7 ((ctxPart s c).getD 0)) .image 1 (iFeed (getI s c).record + 64 * (n % leAt q.2.1 24 4)) 64 →
    q.2.2 = false → w.2.2 = false →
    (∀ f ∈ w.1.isp.frames, f.ctx ≠ c) →
    ∃ t f, exec (.ispFeedWrite m v) s = .next t ∧ (getI t c).lastFed = n ∧ findFrame t c n = some f ∧ f.fed = true ∧ f.word = some w.2.1 ∧
      n % 65536 = bitsOf v.toNat 0 16 ∧ (getI s c).lastFed ≤ n) ∧
  (∀ (s : State) (m : Master) (v : BitVec 32), regGate s false 13 0x38 m v.toNat = .pass → bitOf v.toNat 31 = false →
    exec (.ispFeedWrite m v) s = .next s) ∧
  (∀ (s : State) (m : Master) (v : BitVec 32), regGate s false 13 0x38 m v.toNat = .pass → bitOf v.toNat 31 = true →
    (bitsOf v.toNat 16 5 < 16 ∨ ispOn s (bitsOf v.toNat 16 5) = false) →
    exec (.ispFeedWrite m v) s = .next (cfgIgnored s false 13 0x38 m v.toNat))

/-- A powered, enabled, idle pipe takes the highest-ranked ready lane: the lane is taken, the pipe's program starts at the lane's
entry with S0 the lane, S1 the frame and S2 the context; with no ready lane it waits. LANE whose descriptors are good and whose
columns and overlaps break no rule puts its lane in force with its columns, overlaps and stages and holds; a word that breaks
one stops with ISP_ILLEGAL (0x0150) and the reason (for a fed frame and for OUT_Y, as its begin answers); a word of another
CLASS does what its own CLASS says; once every row is written the word is done. A lane in force whose input lines have come
(those of a fed frame neither waiting for DRAM nor poisoned) completes its next row, and one whose lines have not come waits. -/
def Obligations.LanesRun : Prop :=
  (∀ (s u v : State) (p j : Nat) (f : IspFrame), p < 4 → powered s (domPipe p) = true → engEnable s (7 + p) = true →
    (getPipe s p).lane = none → (getE s (7 + p)).st = .idle → bestLane (readyLanes s p) = some (f, j) → p < s.isp.pipes.length →
    7 + p < s.hx.length → (getPipe s p).part = some f.part →
    u = setPipe (setLane (turnBuf s p f.part) { f with gains := some (f.gains.getD (getI s f.ctx).wb) } j { nth f.lanes j {} with taken := true, pipe := some p }) p
      { getPipe s p with lane := some (f.ctx, f.frame, j), held := some f.ctx, part := some f.part } →
    startEngine u (7 + p) (iEntry (getI s f.ctx).record j) f.part none none false u.timeC = (v, true) →
    ∃ t, exec (.laneDispatch p) s = .next t ∧ (getPipe t p).lane = some (f.ctx, f.frame, j) ∧ (getE t (7 + p)).st = .run ∧
      (getE t (7 + p)).pc = iEntry (getI s f.ctx).record j ∧ nth (getE t (7 + p)).sregs 0 0 = BitVec.ofNat 32 j ∧
      nth (getE t (7 + p)).sregs 1 0 = BitVec.ofNat 32 f.frame ∧ nth (getE t (7 + p)).sregs 2 0 = BitVec.ofNat 32 f.ctx ∧
      (∀ e, e ≠ 7 + p → getE t e = getE s e) ∧ { t with isp := s.isp, hx := s.hx, bufs := s.bufs } = s) ∧
  (∀ (s : State) (p : Nat), readyLanes s p = [] → exec (.laneDispatch p) s = .next s) ∧
  (∀ (s u : State) (e c n j : Nat) (w : BitVec 256) (f : IspFrame) (a : TDesc), 7 ≤ e → e < 11 → ready s e w = true → wClass w = 8 →
    pF w 64 56 = 0 → wRepeat w = 0 → pF w 19 14 ≠ 0 → pF w 33 5 ≤ 16 → pF w 38 5 ≤ 16 → pF w 43 5 ≤ 16 → pF w 48 5 ≤ 16 →
    (getPipe s (e - 7)).lane = some (c, n, j) → findFrame s c n = some f → (nth f.lanes j {}).fin = false → (nth f.lanes j {}).issued = false →
    f.fed = false → iOutY (getI s f.ctx).record = 0 → useDesc s e .image (iOutA (getI s f.ctx).record) true false = .ok u a →
    (∀ k, laneBad (getI s f.ctx) f w a none = some k → exec (.lane e w) s = .next (engFault u e 0x0150 [k])) ∧
    (laneBad (getI s f.ctx) f w a none = none → exec (.lane e w) s = .next (
      let v := setLane (useBuf u (e - 7) f.part) f j { nth f.lanes j {} with issued := true, x0 := pF w 5 14, lw := pF w 19 14, vl := pF w 33 5, vr := pF w 38 5, vt := pF w 43 5, vb := pF w 48 5, stages := pF w 53 11 }
      setE v e { getE v e with st := .held, cur := (getE s e).pc }))) ∧
  (∀ (s : State) (e c n j : Nat) (w : BitVec 256) (f : IspFrame), 7 ≤ e → e < 11 → ready s e w = true → wClass w = 8 →
    pF w 64 56 = 0 → wRepeat w = 0 → pF w 19 14 ≠ 0 → pF w 33 5 ≤ 16 → pF w 38 5 ≤ 16 → pF w 43 5 ≤ 16 → pF w 48 5 ≤ 16 →
    (getPipe s (e - 7)).lane = some (c, n, j) → findFrame s c n = some f → (nth f.lanes j {}).fin = false → (nth f.lanes j {}).issued = false →
    (∀ u, laneBegin s e w f j = .hold u → exec (.lane e w) s = .next (setE u e { getE u e with st := .held, cur := (getE s e).pc })) ∧
    (∀ u, laneBegin s e w f j = .stopped u → exec (.lane e w) s = .next u)) ∧
  (∀ (s : State) (e : Nat) (w : BitVec 256), wClass w ≠ 8 ∨ e < 7 ∨ 11 ≤ e → exec (.lane e w) s = .next (wordIssue e w s)) ∧
  (∀ (s : State) (e c n j : Nat) (w : BitVec 256) (f : IspFrame), 7 ≤ e → e < 11 → ready s e w = true → wClass w = 8 →
    pF w 64 56 = 0 → wRepeat w = 0 → pF w 19 14 ≠ 0 → pF w 33 5 ≤ 16 → pF w 38 5 ≤ 16 → pF w 43 5 ≤ 16 → pF w 48 5 ≤ 16 →
    (getPipe s (e - 7)).lane = some (c, n, j) → findFrame s c n = some f → (nth f.lanes j {}).fin = false → (nth f.lanes j {}).issued = true →
    iHeight (getI s c).record ≤ (nth f.lanes j {}).rows →
    exec (.lane e w) s = .next (finishWord (setLane s f j { nth f.lanes j {} with fin := true }) e w (getE s e))) ∧
  (∀ (s : State) (p c n j : Nat) (f : IspFrame), (getPipe s p).lane = some (c, n, j) → findFrame s c n = some f → j < f.lanes.length →
    (nth f.lanes j {}).issued = true → (nth f.lanes j {}).rows < iHeight (getI s c).record → (getE s (7 + p)).st = .held →
    (f.fed = true → dramWaits s 9 (tdesc s (iSrcDesc (getI s c).record)).base = false ∧
      (fedPixels s p f (nth f.lanes j {}) (nth f.lanes j {}).rows).2.2 = false) →
    min (iHeight (getI s c).record - 1) ((nth f.lanes j {}).rows + (nth f.lanes j {}).vb) < f.linesIn →
    ∃ t g, exec (.ispOutputRow p) s = .next t ∧ findFrame t c n = some g ∧
      nth g.lanes j {} = { nth f.lanes j {} with rows := (nth f.lanes j {}).rows + 1 } ∧ (∀ i, i ≠ j → nth g.lanes i {} = nth f.lanes i {}) ∧
      g.linesIn = f.linesIn ∧ t.hx = s.hx) ∧
  (∀ (s : State) (p c n j : Nat) (f : IspFrame), (getPipe s p).lane = some (c, n, j) → findFrame s c n = some f →
    f.linesIn ≤ min (iHeight (getI s c).record - 1) ((nth f.lanes j {}).rows + (nth f.lanes j {}).vb) →
    exec (.ispOutputRow p) s = .next s)

/-- DISP in a unit last used by its partition whose descriptors, three or with a confidence output four, are good: a rule of R337
broken stops it with STEREO_ILLEGAL (0x0151) and the reason; otherwise the word holds while its band is in progress, and when it
goes on the band is computed and written and the word is done. A word of another CLASS does what its own CLASS says. The
disparity chosen from a column's sums is the lowest of those with the least sum. CROP of one box takes the data entry at its
queue's head, writes the box and is done; without an entry it holds, leaving the queue. A flat INT8 source gives the same value
at every output sample. -/
def Obligations.BandsAndBoxesAreComputed : Prop :=
  (∀ (s s0 u1 u2 u : State) (w : BitVec 256) (l r d : TDesc), ready s 11 w = true → wClass w = 8 → pF w 48 72 = 0 → wRepeat w = 0 →
    dRows w ≠ 0 → dCount w ≠ 0 → dCount w ≤ 256 → dMin w + dCount w ≤ 256 → s.vis.strPart = some (getE s 11).part → s.vis.band = false →
    s0 = useBuf (turnBuf s 4 (getE s 11).part) 4 (getE s 11).part →
    useDesc s0 11 .image (genAddr s0 11 0 w) false false = .ok u1 l → useDesc u1 11 .image (genAddr u1 11 1 w) false false = .ok u2 r →
    useDesc u2 11 .image (genAddr u2 11 2 w) true false = .ok u d →
    (∀ k, pF w 46 1 = 0 → dispBad w l r d none = some k → exec (.disp 11 w) s = .next (engFault u 11 0x0151 [k])) ∧
    (pF w 46 1 = 0 → dispBad w l r d none = none → exec (.disp 11 w) s = .next
      (setE { u with vis := { u.vis with band := true } } 11 { getE u 11 with st := .held, cur := (getE s 11).pc })) ∧
    (∀ v c, pF w 46 1 = 1 → useDesc u 11 .image (genAddr u 11 3 w) true false = .ok v c →
      (∀ k, dispBad w l r d (some c) = some k → exec (.disp 11 w) s = .next (engFault v 11 0x0151 [k])) ∧
      (dispBad w l r d (some c) = none → exec (.disp 11 w) s = .next
        (setE { v with vis := { v.vis with band := true } } 11 { getE v 11 with st := .held, cur := (getE s 11).pc })))) ∧
  (∀ (s v : State) (w : BitVec 256), ready s 11 w = true → wClass w = 8 → pF w 48 72 = 0 → wRepeat w = 0 →
    dRows w ≠ 0 → dCount w ≠ 0 → dCount w ≤ 256 → dMin w + dCount w ≤ 256 → s.vis.band = true →
    dramWaits s 9 (tdesc s (genAddr s 11 0 w)).base = false → dramWaits s 9 (tdesc s (genAddr s 11 1 w)).base = false →
    dispBand { s with vis := { s.vis with band := false } } w (tdesc s (genAddr s 11 0 w)) (tdesc s (genAddr s 11 1 w))
      (tdesc s (genAddr s 11 2 w)) (if bitOf (pF w 46 1) 0 then some (tdesc s (genAddr s 11 3 w)) else none) = .act v →
    exec (.disp 11 w) s = .next (finishWord v 11 w (getE s 11))) ∧
  (∀ (s : State) (e : Nat) (w : BitVec 256),
    (wClass w ≠ 8 ∨ e ≠ 11 → exec (.disp e w) s = .next (wordIssue e w s)) ∧ (wClass w ≠ 8 ∨ e ≠ 6 → exec (.crop e w) s = .next (wordIssue e w s))) ∧
  (∀ (l : List Nat) (i : Nat), i < l.length → nth l (argLeast l) 0 ≤ nth l i 0 ∧ (i < argLeast l → nth l (argLeast l) 0 < nth l i 0)) ∧
  (∀ (s u1 u v : State) (w : BitVec 256) (src out : TDesc) (x : QEntry), ready s 6 w = true → wClass w = 8 → pF w 44 76 = 0 → wRepeat w = 0 →
    pF w 42 2 < 2 → (fmtElem (pF w 38 4)).isSome = true → bitOf (pF w 0 13) 12 = false → qBound (getQ s (pF w 13 13)) = true →
    (getQ s (pF w 13 13)).consumer = 6 → s.vis.crsPart = some (getE s 6).part → s.vis.boxes = 0 → cropN w = 1 →
    useDesc s 6 .crop (genAddr s 6 1 w) false false = .ok u1 src → useDesc u1 6 .crop (genAddr u1 6 2 w) true false = .ok u out →
    u.vis.boxes = 0 → headQ u (pF w 13 13) = some x → x.cairn = false →
    cropBox (popQ u (pF w 13 13)) w src out 0 x.data = (v, false) →
    exec (.crop 6 w) s = .next (finishWord (applyDisable { v with vis := { v.vis with boxes := 0 } } 6) 6 w (getE s 6))) ∧
  (∀ (s u1 u : State) (w : BitVec 256) (src out : TDesc), ready s 6 w = true → wClass w = 8 → pF w 44 76 = 0 → wRepeat w = 0 →
    pF w 42 2 < 2 → (fmtElem (pF w 38 4)).isSome = true → bitOf (pF w 0 13) 12 = false → qBound (getQ s (pF w 13 13)) = true →
    (getQ s (pF w 13 13)).consumer = 6 → s.vis.crsPart = some (getE s 6).part → u.vis.boxes < cropN w →
    useDesc s 6 .crop (genAddr s 6 1 w) false false = .ok u1 src → useDesc u1 6 .crop (genAddr u1 6 2 w) true false = .ok u out →
    headQ u (pF w 13 13) = none →
    exec (.crop 6 w) s = .next (setE u 6 { getE u 6 with st := .held, cur := (getE s 6).pc })) ∧
  (∀ (p : CropAt) (mode : RMode) (c : Nat), c < 256 → p.fx ≤ 65536 → p.fy ≤ 65536 → cropVal 0 0 mode p [c, c, c, c] = c)

/-- A free, powered core takes the job its queues rank first: an encoder's job whose descriptor breaks no rule, whose picture is
committed where it asks for it, and that needs one core begins, its entry leaving the queue; one that breaks a rule ends at once
with status 2 and CODEC_ILLEGAL (0x0152). Without a job nothing starts. When an encoder's job ends whose picture could be read,
the core is free again and the completion queue has one entry more, with the job's number, status 0 or 4 and no more bytes than
its buffer holds; without a job nothing ends. -/
def Obligations.CodecJobsStartAndEnd : Prop :=
  (∀ (s : State) (k q : Nat) (e : QEntry) (d y c : State × Bytes × Bool), k < 2 → powered s domCodec = true → coreFree s k = true →
    codecChoice s k = some (q, e) → d = readBytes s (codecMaster k (getQ s q).part) .system 1 (leAt e.data 0 8) 64 →
    y = readBytes d.1 (codecMaster k (getQ s q).part) .system 1 (jPicY d.2.1) 64 →
    c = (if jPicC d.2.1 = 0 then (y.1, [], false) else readBytes y.1 (codecMaster k (getQ s q).part) .system 1 (jPicC d.2.1) 64) →
    dramWaits s 8 (leAt e.data 0 8) = false → d.2.2 = false → y.2.2 = false → c.2.2 = false →
    codecRefused k d.2.1 { addr := jPicY d.2.1, raw := y.2.1 } { addr := jPicC d.2.1, raw := c.2.1 } = false → bitOf (jFlags d.2.1) 0 = false →
    uncommitted { addr := jPicY d.2.1, raw := y.2.1 } = false →
    (jPicC d.2.1 = 0 ∨ bitOf (jFlags d.2.1) 3 = true ∨ uncommitted { addr := jPicC d.2.1, raw := c.2.1 } = false) → k < c.1.cdc.jobs.length →
    ∃ t j, exec (.codecJobStart k) s = .next t ∧ getJob t k = some j ∧ j.desc = d.2.1 ∧ j.part = (getQ s q).part ∧ j.item = e.item ∧
      (getQ t q).entries = (getQ c.1 q).entries.tail) ∧
  (∀ (s : State) (k q : Nat) (e : QEntry) (d y c : State × Bytes × Bool), k < 4 → powered s domCodec = true → coreFree s k = true →
    codecChoice s k = some (q, e) → e.item = none → d = readBytes s (codecMaster k (getQ s q).part) .system 1 (leAt e.data 0 8) 64 →
    y = readBytes d.1 (codecMaster k (getQ s q).part) .system 1 (jPicY d.2.1) 64 →
    c = (if jPicC d.2.1 = 0 then (y.1, [], false) else readBytes y.1 (codecMaster k (getQ s q).part) .system 1 (jPicC d.2.1) 64) →
    dramWaits s 8 (leAt e.data 0 8) = false → d.2.2 = false → y.2.2 = false → c.2.2 = false →
    codecRefused k d.2.1 { addr := jPicY d.2.1, raw := y.2.1 } { addr := jPicC d.2.1, raw := c.2.1 } = true →
    exec (.codecJobStart k) s = .next (jobEnd (raise (popQ c.1 q) false 0x0152 2 (some (getQ s q).part) 15 0xFFFF []) k
      { desc := d.2.1, part := (getQ s q).part } 2 0 0)) ∧
  (∀ (s : State) (k : Nat), codecChoice s k = none → exec (.codecJobStart k) s = .next s) ∧
  (∀ (s u : State) (k : Nat) (j : CdcJob), k < 2 → getJob s k = some j → j.pair = false → j.item = none → jOp j.desc = 0 →
    codecWaits s j = false →
    jobReads s k j = (u, false) → qRefusal (getQ u (jCq j.desc)) j.part = none →
    ((getQ u (jCq j.desc)).consumer < 24 ∨ 28 ≤ (getQ u (jCq j.desc)).consumer) →
    ∃ t st fl n, exec (.codecJobComplete k) s = .next t ∧ getJob t k = none ∧ (st = 0 ∨ st = 4) ∧ n ≤ jBsBytes j.desc ∧
      (getQ t (jCq j.desc)).entries = (getQ u (jCq j.desc)).entries ++ [{ cairn := false, data := codecEntry u k j st fl n, producer := 33 + k }]) ∧
  (∀ (s : State) (k : Nat), getJob s k = none → exec (.codecJobComplete k) s = .next s)

/-- A burst that need not wait and passes the filter, into an open row without encryption and with no stored error in its blocks: a
write writes exactly its bytes; a read answers memory's bytes, and with an uncorrectable link error answers them poisoned and
raises DRAM_ECC_UNCORRECTABLE (0x0165) against the requester's partition with the address, channel and master. A burst that
finds its row closed activates it: the tracker's true count grows by one, its reported count is never above the true count and
never more than 2,076 below it, and the row stays open from then where neither the transfer's page hint nor PAGE_DEFAULT closes
it. A burst that must wait changes nothing. The tracker of a bank clears at each window's start and no other bank's does. -/
def Obligations.DramServesItsBursts : Prop :=
  (∀ (s : State) (m : Master) (r a len link ecc : Nat) (bs : Bytes), 0 < len → a % 512 + len ≤ 512 → r < 12 → region a = .dram →
    burstWaits s r (dramPos s a).ch = false → busGate s m .system a len true (leVal (bs.take 4)) = .pass → rowOpen s (dramPos s a) = true → s.drc.xts = [] →
    bs.length = len →
    ∃ t, exec (.dramBurst m r a len (some bs) link ecc) s = .next t ∧ t.mem = memWrite s.mem a bs ∧
      { t with mem := s.mem, mapu := s.mapu, drc := s.drc } = s) ∧
  (∀ (s : State) (m : Master) (r a len : Nat), 0 < len → a % 512 + len ≤ 512 → r < 12 → region a = .dram →
    burstWaits s r (dramPos s a).ch = false → busGate s m .system a len false = .pass → rowOpen s (dramPos s a) = true → s.drc.xts = [] →
    (pageHint s r a = 1 ∨ (pageHint s r a ≠ 2 ∧ isSet s F.DRC_CFG_PAGE_DEFAULT = false)) → (∀ w ∈ blockWords a len, tabGet s.mapu.bad w 0 = 0) →
    exec (.dramBurst m r a len none 0 0) s = .next { s with rd := memRead s.mem a len, rdErr := false } ∧
    exec (.dramBurst m r a len none 2 0) s =
      .next { raise s false 0x0165 2 (some m.part) 17 0xFFFF [a, (dramPos s a).ch, m.code] with rd := memRead s.mem a len, rdErr := true }) ∧
  (∀ (s : State) (m : Master) (r a len k : Nat) (p : DramPos), 0 < len → a % 512 + len ≤ 512 → r < 12 → region a = .dram → p = dramPos s a →
    burstWaits s r p.ch = false → busGate s m .system a len false = .pass → rowOpen s p = false → s.drc.xts = [] →
    (pageHint s r a = 1 ∨ (pageHint s r a ≠ 2 ∧ isSet s F.DRC_CFG_PAGE_DEFAULT = false)) → (∀ w ∈ blockWords a len, tabGet s.mapu.bad w 0 = 0) →
    k = 65536 * (16 * p.ch + p.bank) + p.row → (tabGet s.drc.acts k {}).count < getF s F.DRC_RH_THRESH →
    ∃ t y, exec (.dramBurst m r a len none 0 0) s = .next t ∧ t.rd = memRead s.mem a len ∧ t.rdErr = false ∧ tabGet t.drc.acts k {} = y ∧
      y.count = (tabGet s.drc.acts k {}).count + 1 ∧ y.rep ≤ y.count ∧ y.count ≤ y.rep + 2076 ∧ (∃ q ∈ y.reqs, q.1 = r) ∧
      tabGet t.drc.open_ (16 * p.ch + p.bank) (0, 0) = (p.row + 1, s.timeC) ∧
      { t with drc := s.drc, free := s.free, rd := s.rd, rdErr := s.rdErr } = s) ∧
  (∀ (s : State) (m : Master) (r a len link ecc : Nat) (wr : Option Bytes), burstWaits s r (dramPos s a).ch = true →
    exec (.dramBurst m r a len wr link ecc) s = .next s) ∧
  (∀ (s : State) (ch bank : Nat), ∃ t, exec (.rhWindowStart ch bank) s = .next t ∧
    (∀ row, row < 65536 → tabGet t.drc.acts (65536 * (16 * ch + bank) + row) {} = {}) ∧
    (∀ k, (k < 65536 * (16 * ch + bank) ∨ 65536 * (16 * ch + bank) + 65536 ≤ k) → tabGet t.drc.acts k {} = tabGet s.drc.acts k {}) ∧
    { t with drc := s.drc } = s)

/-- In each window a channel that is skewed counts one window more and any other starts again from none; a channel that reaches 64
raises DRAM_SKEW (0x0160) against the holder of its largest share. HOT marks exactly the packages above 85 degrees. A due
refresh cancels one pulled in; of an idle bank it makes up all; of a busy bank it is postponed, up to eight, after which it is
forced and counted; the bank's row closes each time. Rising write-link counts of a package raise DRAM_ECC_CORRECTED (0x0164)
and, for uncorrectable ones, the device fault DRAM_ECC_UNCORRECTABLE. -/
def Obligations.DramIsWatchedAndRefreshed : Prop :=
  (∀ (s : State) (occ : List Nat) (holders : List (Nat × Nat)), isSet s F.DRC_STAT_READY = true → s.drc.skew.length = 16 →
    (∀ ch, ch < 16 → skewed occ ch = true → nth s.drc.skew ch 0 < 63) →
    exec (.skewWindow occ holders) s = .next { s with drc := { s.drc with
      skew := (List.range 16).map (fun ch => if skewed occ ch then nth s.drc.skew ch 0 + 1 else 0) } }) ∧
  (∀ (s : State) (occ : List Nat) (holders : List (Nat × Nat)) (c : Nat), isSet s F.DRC_STAT_READY = true → s.drc.skew.length = 16 → c < 16 →
    skewed occ c = true → nth s.drc.skew c 0 = 63 → (∀ ch, ch < 16 → ch ≠ c → skewed occ ch = true → nth s.drc.skew ch 0 < 63) →
    s.flt.comp.queue.length < 32 →
    ∃ t r, exec (.skewWindow occ holders) s = .next t ∧ t.flt.comp.queue = s.flt.comp.queue ++ [r] ∧ r.code = 0x0160 ∧ r.cls = 0 ∧
      r.part = some (nth holders c (0, 0)).2 ∧ r.detail = [c, (nth holders c (0, 0)).1]) ∧
  (∀ (s : State) (l : List Int), ∃ t, exec (.dramTempRead l) s = .next t ∧
    (∀ p, p < 4 → bitOf (getF t F.DRC_STAT_HOT) p = decide (85000 < nth l p 0)) ∧ { t with regs := s.regs } = s) ∧
  (∀ (s : State) (ch bank : Nat) (busy : Bool), ch < 16 → bank < 16 → getRefr s ch bank ≤ 8 → retraining s ch = false →
    ∃ t, exec (.refreshDue ch bank busy) s = .next t ∧ tabGet t.drc.open_ (16 * ch + bank) (0, 0) = (0, 0) ∧
      getRefr t ch bank = (if getRefr s ch bank < 0 then getRefr s ch bank + 1 else if busy = false then 0 else min 8 (getRefr s ch bank + 1)) ∧
      getF t F.DRC_STAT_FORCED = (if busy = true ∧ getRefr s ch bank = 8 then min (getF s F.DRC_STAT_FORCED + 1) 65535
        else getF s F.DRC_STAT_FORCED) ∧ t.mem = s.mem) ∧
  (∀ (s : State) (x : Bool × Bool) (l : List (Bool × Bool)), (∀ y ∈ l, y = (false, false)) → exec (.writeLinkPoll (x :: l)) s = .next (
    let u := if x.1 then raise s false 0x0164 1 none 17 0xFFFF [] else s
    if x.2 then raiseDevice u false 0x0165 17 0xFFFF [] else u))

/-- The first write of DRC_CFG with INIT sets the kernel, in-band ECC, the page default and INIT; once INIT is set, a write that
would change a field changes none of the four. Training that succeeds, at the first try or the second, sets READY, with every
byte below 31 GiB zero under in-band ECC; training that fails twice raises DRAM_TRAIN_FAIL (0x0167), device class. A training
helper started on the selected channel runs, its last results not done; when it ends, its error counts and deskews are there,
done, and it runs no more. Overdue retraining raises DRAM_RETRAIN_OVERDUE (0x0163), advisory. -/
def Obligations.DramComesUp : Prop :=
  (∀ (s : State) (m : Master) (v : BitVec 32), bitOf v.toNat 31 = true → regGate s false 17 0x10 m v.toNat = .pass → isSet s F.DRC_CFG_INIT = false →
    ∃ t, exec (.drcCfgInit m v) s = .next t ∧ getF t F.DRC_CFG_HASH = bitsOf v.toNat 0 2 ∧ getF t F.DRC_CFG_IBECC = bitsOf v.toNat 2 1 ∧
      getF t F.DRC_CFG_PAGE_DEFAULT = bitsOf v.toNat 3 1 ∧ isSet t F.DRC_CFG_INIT = true ∧ { t with regs := s.regs } = s) ∧
  (∀ (s : State) (m : Master) (v : BitVec 32), bitOf v.toNat 31 = true → regGate s false 17 0x10 m v.toNat = .pass → isSet s F.DRC_CFG_INIT = true →
    ∃ t, exec (.drcCfgInit m v) s = .next t ∧ getF t F.DRC_CFG_HASH = getF s F.DRC_CFG_HASH ∧ getF t F.DRC_CFG_IBECC = getF s F.DRC_CFG_IBECC ∧
      getF t F.DRC_CFG_PAGE_DEFAULT = getF s F.DRC_CFG_PAGE_DEFAULT ∧ isSet t F.DRC_CFG_INIT = true ∧ t.mem = s.mem) ∧
  (∀ (s : State) (a b : Bool), compDown s = false → isSet s F.DRC_CFG_INIT = true → isSet s F.DRC_STAT_READY = false →
    getF s F.EMN_BOOT_STAT_STAGE ≠ 7 → (a || b) = true →
    ∃ t, exec (.dramTraining a b) s = .next t ∧ isSet t F.DRC_STAT_READY = true ∧
      (isSet s F.DRC_CFG_IBECC = true → ∀ k, k < 0x7C0000000 → rdByte t.mem k = 0) ∧
      (∀ k, (isSet s F.DRC_CFG_IBECC = false ∨ 0x7C0000000 ≤ k) → rdByte t.mem k = rdByte s.mem k) ∧
      { t with regs := s.regs, mem := s.mem } = s) ∧
  (∀ (s : State), compDown s = false → isSet s F.DRC_CFG_INIT = true → isSet s F.DRC_STAT_READY = false →
    getF s F.EMN_BOOT_STAT_STAGE ≠ 7 → exec (.dramTraining false false) s = .next (raiseDevice s false 0x0167 17 0xFFFF [])) ∧
  (∀ (s : State) (m : Master) (v : BitVec 32), bitOf v.toNat 31 = true → regGate s false 17 0x34 m v.toNat = .pass → isSet s F.DRC_CFG_INIT = false →
    bitsOf v.toNat 2 2 ≠ 3 →
    ∃ t, exec (.drcTrnGo m v) s = .next t ∧ getF t F.DRC_TRN_CTL_PATTERN = bitsOf v.toNat 0 2 ∧ getF t F.DRC_TRN_CTL_OP = bitsOf v.toNat 2 2 ∧
      getF t F.DRC_TRN_CTL_OWNER = bitsOf v.toNat 4 1 ∧ getF s F.DRC_TRN_SEL_CH ∈ t.drc.trnRun ∧
      (tabGet t.drc.trn (getF s F.DRC_TRN_SEL_CH) {}).done = false ∧ { t with regs := s.regs, drc := s.drc } = s) ∧
  (∀ (s : State) (ch : Nat) (errors deskew : List Nat), s.drc.trnRun.contains ch = true → errors.length = 18 → deskew.length = 18 →
    (∀ x ∈ errors, x ≤ 0xFFFFFF) → (∀ x ∈ deskew, x < 128) →
    ∃ t, exec (.drcTrnDone ch errors deskew) s = .next t ∧ t.drc.trnRun.contains ch = false ∧
      tabGet t.drc.trn ch {} = { errors := errors, deskew := deskew, done := true } ∧ { t with drc := s.drc } = s) ∧
  (∀ (s : State) (ch : Nat), exec (.dramRetrainOverdue ch) s = .next (raise s false 0x0163 0 none 17 0xFFFF []))

/-- A ZERO that Emino or the system partition's firmware starts, over a range of whole 2 MiB within DRAM, waits behind those before
it while fewer than five are in the engine. When the one that runs is done, every byte of its range reads 0, no other byte has
changed, DONE is set, and the next may run; with none, nothing is done. Patrol of DRAM under in-band ECC, with no ZERO to do,
raises DRAM_ECC_CORRECTED (0x0164) for a block it corrected and DRAM_ECC_UNCORRECTABLE (0x0165) for one it could not, against
the partition that holds the block, where the error stands from then. -/
def Obligations.ScrubZeroesAndPatrols : Prop :=
  (∀ (s : State) (m : Master) (base len : Nat), (m.secure = true ∨ (m.priv = true ∧ m.part = 0)) → base % 0x200000 = 0 → len % 0x200000 = 0 →
    0 < len → base + len ≤ 0x800000000 → s.drc.zero.length < 5 →
    exec (.scrubZero m base len) s = .next { s with drc := { s.drc with zero := s.drc.zero ++ [(base, len, false)] } }) ∧
  (∀ (s : State) (base len : Nat) (down : Bool) (rest : List (Nat × Nat × Bool)), s.drc.zero = (base, len, down) :: rest →
    (∀ u : State, u = { s with drc := { s.drc with zero := rest }, sec := { s.sec with scrubLeft := s.sec.scrubLeft - if down then 1 else 0 } } →
      busGate u scrubMaster .system base len true = .pass) →
    ∃ t, exec .scrubZeroDone s = .next t ∧ t.drc.zero = rest ∧ isSet t F.DRC_SCRUB_STAT_DONE = true ∧
      (∀ k, base ≤ k → k < base + len → rdByte t.mem k = 0) ∧
      (∀ k, (k < base ∨ base + len ≤ k) → rdByte t.mem k = rdByte s.mem k) ∧
      { t with regs := s.regs, mem := s.mem, mapu := s.mapu, drc := s.drc, sec := s.sec } = s) ∧
  (∀ (s : State), s.drc.zero = [] → exec .scrubZeroDone s = .next s) ∧
  (∀ (s : State) (a : Nat), isSet s F.DRC_CFG_IBECC = true → isSet s F.DRC_STAT_READY = true → getF s F.DRC_SCRUB_CTL_PATROL_US ≠ 0 →
    s.drc.zero = [] → a < 0x7C0000000 →
    exec (.dramPatrol []) s = .next s ∧
    exec (.dramPatrol [(a, false)]) s = .next (raise s false 0x0164 1 none 17 0xFFFF []) ∧
    exec (.dramPatrol [(a, true)]) s =
      .next (raise (markBlock s a 2) false 0x0165 2 (ownerOf s (fun x => inRegions x a 1)) 17 0xFFFF [a, (dramPos s a).ch, 38]))

/-- A port that loses its link shows it, drops what it has queued and raises NET_LINK_DOWN (0x0210); one that gains it shows it. A
pause frame is ignored; a frame too long for its port is dropped and counted there; one that a filter, gate or meter drops is
counted at that object. Any other is learned, queued at the external ports it goes to and, where the internal port is one of
them, taken: one that no session matches counts as unmatched; one of a raw or UDP session, with a free slot and none held before
it, is staged, takes the session's next slot and its receive entry, naming the session, length, port, slot and time, enters RXQ,
unless its ring must wait, when it stays staged. A staging buffer whose last packet was another partition's holds nothing of it.
With no slot a HOLD session holds the frame while the buffer has room, and any other drops and counts it. A held frame past
HOLD_US is dropped; NET_RXREL gives slots back, and a frame that is held then enters. A learned address draws frames for it to
its port alone; an unknown one goes to every other port of the VLAN. -/
def Obligations.FramesReachTheirSessions : Prop :=
  (∀ (s : State) (p : Nat), p < 6 → powered s domNet = true →
    (isSet s (F.NET_PORT_CFG_LINK p) = false → exec (.linkChange p true) s = .next (setF s (F.NET_PORT_CFG_LINK p) 1) ∧
      exec (.linkChange p false) s = .next s) ∧
    (isSet s (F.NET_PORT_CFG_LINK p) = true → exec (.linkChange p true) s = .next s ∧
      exec (.linkChange p false) s = .next (raise (flushPort (setF s (F.NET_PORT_CFG_LINK p) 0) p) true 0x0210 0 none 2 0xFFFF [])) ∧
    (∀ c, c < 8 → tabGet (flushPort s p).net.egress (8 * p + c) [] = [])) ∧
  (∀ (s u : State) (port vid t : Nat) (pcp : Fin 8) (d : Bytes) (qci : Option Qci), u = atPort t s → portUp u port = true →
    (pauseFrame d = true → exec (.netFrameReceive port ⟨vid, pcp, qci⟩ d t) s = .next u) ∧
    (pauseFrame d = false → getF u (F.NET_PORT_CFG_MAX_FRAME port) < d.length + 4 →
      exec (.netFrameReceive port ⟨vid, pcp, qci⟩ d t) s = .next (portDrop u port)) ∧
    (∀ x, pauseFrame d = false → vid ≠ 4095 → d.length + 8 ≤ getF u (F.NET_PORT_CFG_MAX_FRAME port) → qci = some x →
      ∃ v, exec (.netFrameReceive port ⟨vid, pcp, qci⟩ d t) s = .next v ∧ tabGet v.net.qciDrops (qciIdx x) 0 = tabGet u.net.qciDrops (qciIdx x) 0 + 1 ∧
        { v with net := u.net } = u)) ∧
  (∀ (s u w w0 : State) (port vid t : Nat) (pcp : Fin 8) (d : Bytes), u = atPort t s → portUp u port = true → pauseFrame d = false → vid ≠ 4095 →
    d.length + 4 + (if vid = 0 then 0 else 4) ≤ getF u (F.NET_PORT_CFG_MAX_FRAME port) →
    w0 = (enqueueAll (fdbLearn u port vid d) (classOf pcp.val d) (if vid = 0 then d else withTag vid pcp.val d)
      (switchTo (fdbLearn u port vid d) port vid d)).1 → w = resumeNet w0 →
    (6 ∉ switchTo (fdbLearn u port vid d) port vid d → exec (.netFrameReceive port ⟨vid, pcp, none⟩ d t) s = .next (netServe w0)) ∧
    (6 ∈ switchTo (fdbLearn u port vid d) port vid d →
      (sesOf w port vid d = none → exec (.netFrameReceive port ⟨vid, pcp, none⟩ d t) s = .next (netServe (bump w F.NET_STAT_UNMATCHED 1))) ∧
      (∀ k, sesOf w port vid d = some k → sesForeign w (sesRec w k) = none → sKind (sesRec w k) ≠ 2 →
        (slotFree w k = true → (∀ h ∈ w.net.held, h.sess ≠ k) → (∀ y ∈ w.net.staged, y.sess ≠ k) →
          dramWaits w 11 (sRing (sesRec w k) + 9216 * (getSes w k).next) = false →
          qRefusal (getQ w (sRxq (sesRec w k))) (sPart (sesRec w k)) = none →
          ((getQ w (sRxq (sesRec w k))).consumer < 24 ∨ 28 ≤ (getQ w (sRxq (sesRec w k))).consumer) →
          ∃ v, exec (.netFrameReceive port ⟨vid, pcp, none⟩ d t) s = .next v ∧ (getSes v k).used = (getSes w k).used + 1 ∧
            (getSes v k).next = ((getSes w k).next + 1) % sSlots (sesRec w k) ∧
            v.mem = (netWrite (setSes (stagePacket w (sPart (sesRec w k)) d) k (getSes v k)) (netMaster (sPart (sesRec w k))) 19
              (sRing (sesRec w k) + 9216 * (getSes w k).next) d).mem ∧
            (getQ v (sRxq (sesRec w k))).entries = (getQ w (sRxq (sesRec w k))).entries ++
              [{ cairn := false, data := rxEntry k d.length port (getSes w k).next t, producer := 44 }]) ∧
        (slotFree w k = true → (∀ h ∈ w.net.held, h.sess ≠ k) →
          dramWaits w 11 (sRing (sesRec w k) + 9216 * (getSes w k).next) = true →
          ∃ v, exec (.netFrameReceive port ⟨vid, pcp, none⟩ d t) s = .next v ∧ v.qm = w.qm ∧ v.net.staged = w.net.staged ++
            [{ sess := k, port := port, len := min 9216 d.length, slot := (getSes w k).next, rx := t, buf := (stageNext w).getD w.net.stage }]) ∧
        (slotFree w k = false → exec (.netFrameReceive port ⟨vid, pcp, none⟩ d t) s = .next (netServe (
          if sHold (sesRec w k) = true ∧ heldBytes w + d.length ≤ 2097152 then
            setNet w { w.net with held := w.net.held ++ [{ sess := k, port := port, data := d, rx := t, since := w.timeP }] }
          else sesDrop w k)))))) ∧
  (∀ (s : State) (part p i k : Nat) (d : Bytes), stageNext s = some i → tabGet s.net.stagePart i none = some p → p ≠ part → d.length ≤ k → k < 9216 →
    rdByte (stagePacket s part d).mem (stageAddr i + k) = 0 ∧ tabGet (stagePacket s part d).net.stagePart i none = some part) ∧
  (∀ (s : State) (port q vid : Nat) (d e : Bytes), port < 7 → q < 7 → linkLocal e = false → bitOf (leAt e 0 6) 0 = false →
    (leAt e 0 6 = leAt d 6 6 → (fdbLive s).length < 16384 →
      switchTo (fdbLearn s port vid d) q vid e = (if port ≠ q ∧ bitOf (vlanPorts s (vlanOf vid)) port ∧ switchPort s port then [port] else [])) ∧
    ((∀ x ∈ fdbLive s, x.vlan = vlanOf vid → x.mac ≠ leAt e 0 6) →
      switchTo s q vid e = (List.range 7).filter (fun p => p != q && bitOf (vlanPorts s (vlanOf vid)) p && switchPort s p))) ∧
  (∀ (s : State) (k : Nat), ∃ u, sesDrop s k = u ∧ (getSes u k).drops = (getSes s k).drops + 1 ∧ u.net.held = s.net.held ∧ u.qm = s.qm) ∧
  (∀ (s u : State) (t : Nat) (h : NetHeld), u = atPort t s → u.net.held = [h] → exec (.netHoldExpiry t) s = .next (
    if h.since + 1000 * leAt (sesRec u h.sess) 20 2 ≤ u.timeP then sesDrop (setNet u { u.net with held := [] }) h.sess else u)) ∧
  (∀ (s : State) (m : Master) (v : BitVec 32) (k n : Nat), regGate s true 2 0x50 m v.toNat = .pass → k = bitsOf v.toNat 0 11 →
    n = bitsOf v.toNat 11 9 → (∀ h ∈ s.net.held, h.sess ≠ k) →
    exec (.netRxrelWrite m v) s = .next (setSes s k { getSes s k with used := (getSes s k).used - n })) ∧
  (∀ (s u : State) (m : Master) (v : BitVec 32) (k n : Nat) (h : NetHeld), regGate s true 2 0x50 m v.toNat = .pass → k = bitsOf v.toNat 0 11 →
    n = bitsOf v.toNat 11 9 → s.net.held = [h] → h.sess = k → u = setSes s k { getSes s k with used := (getSes s k).used - n } →
    slotFree u k = true →
    exec (.netRxrelWrite m v) s = .next (rxTake (setNet u { u.net with held := [] }) k h.port h.data h.rx))

/-- A leader opens a block with the next frame number and its time, DROP_REASON 1 while the plane is in use and 6 where its geometry
is not the context's; with a bad source descriptor TENSOR_DESC (0x0140) is raised and no block opens. A payload packet in
sequence writes its pixels after those before it; one out of sequence gives the block DROP_REASON 5, and nothing more of it is
written. A trailer in sequence ends the block: its status word is written and the frame is fed to the ISP; a block that is not
whole raises the advisory NET_GVSP_INCOMPLETE (0x0212) instead. A transmit entry of an enabled session gives its frame, with the
tag of a TAGGED session, to the switch, which learns the sender and queues it at the ports it goes to, or counts it at the
filter, gate or meter that drops it; the queue loses the entry; an entry whose frame must wait for DRAM stays. A port queues a
frame it can carry and counts any other as dropped; an up port sends all that its open gates let out, and keeps the rest. -/
def Obligations.StreamsAndFramesGoOut : Prop :=
  (∀ (s u : State) (k block w h depth t n : Nat), u = atPort t s → gvspOn u k = true → sesForeign u (sesRec u k) = none → getBlk u k = none →
    n = ((getI u (sCtx (sesRec u k))).lastFed + 1) % 2 ^ 32 →
    (∀ why, why = (if planeBusy u (sCtx (sesRec u k)) n ((srcDesc u (sCtx (sesRec u k)) (netMaster (sPart (sesRec u k)))).2.dim 3) then 1
        else if iWidth (getI u (sCtx (sesRec u k))).record ≠ w ∨ iHeight (getI u (sCtx (sesRec u k))).record ≠ h ∨
          iDepth (getI u (sCtx (sesRec u k))).record ≠ depth then 6 else 0) →
      ((why ≠ 0 ∨ (srcDesc u (sCtx (sesRec u k)) (netMaster (sPart (sesRec u k)))).2.bad true false = none) →
        ∃ v, exec (.gvspLeader k block w h depth t) s = .next v ∧ (getI v (sCtx (sesRec u k))).lastFed = n ∧
          getBlk v k = some (GvspBlk.mk block n u.timeP 1 [] why)) ∧
      (∀ x, why = 0 → (srcDesc u (sCtx (sesRec u k)) (netMaster (sPart (sesRec u k)))).2.bad true false = some x →
        ∃ v y, exec (.gvspLeader k block w h depth t) s = .next v ∧ getBlk v k = none ∧
          v = raise y false 0x0140 2 (some (sPart (sesRec u k))) (Config.sourceBlock 0x0140) 0xFFFF
            [x, (srcDesc u (sCtx (sesRec u k)) (netMaster (sPart (sesRec u k)))).2.addr]))) ∧
  (∀ (s : State) (k pkt : Nat) (d : Bytes) (b : GvspBlk), gvspOn s k = true → sesForeign s (sesRec s k) = none → getBlk s k = some b →
    (b.reason = 0 → pkt = b.next →
      dramWaits s 11 (srcDesc (stagePacket s (sPart (sesRec s k)) d) (sCtx (sesRec s k)) (netMaster (sPart (sesRec s k)))).2.base = true →
      exec (.gvspPayload k b.block pkt d) s = .next s) ∧
    (b.reason = 0 → pkt = b.next →
      dramWaits s 11 (srcDesc (stagePacket s (sPart (sesRec s k)) d) (sCtx (sesRec s k)) (netMaster (sPart (sesRec s k)))).2.base = false →
      ∃ t, exec (.gvspPayload k b.block pkt d) s = .next t ∧
      getBlk t k = some { b with next := b.next + 1, pix := b.pix ++ gvspPixels (iDepth (getI s (sCtx (sesRec s k))).record) d }) ∧
    (b.reason = 0 → pkt ≠ b.next → exec (.gvspPayload k b.block pkt d) s = .next (setBlk s k (some { b with reason := 5 }))) ∧
    (b.reason ≠ 0 → exec (.gvspPayload k b.block pkt d) s = .next s)) ∧
  (∀ (s u : State) (k t : Nat) (b : GvspBlk), u = atPort t s → gvspOn u k = true → sesForeign u (sesRec u k) = none → getBlk u k = some b →
    exec (.gvspTrailer k b.block b.next t) s = .next (gvspEnd u k b) ∧
    (∀ pkt, pkt ≠ b.next → b.reason = 0 → exec (.gvspTrailer k b.block pkt t) s = .next (gvspEnd u k { b with reason := 5 }))) ∧
  (∀ (s : State) (k : Nat) (b : GvspBlk), ∃ v, (b.reason = 0 → gvspEnd s k b = frameArrive v { ctx := sCtx (sesRec s k), frame := b.frame, dt := 0, part := sPart (sesRec s k), fed := true, linesIn := iHeight (getI s (sCtx (sesRec s k))).record, fsTime := b.fsTime, word := some (gvspWord (sCtx (sesRec s k)) b s.timeP) }) ∧
    (b.reason ≠ 0 → gvspEnd s k b = raise v false 0x0212 0 (some (sPart (sesRec s k))) (Config.sourceBlock 0x0212) 0xFFFF []) ∧
    getBlk v k = none) ∧
  (∀ (z s u w : State) (q k t : Nat) (e : QEntry) (d : Bytes) (x : State × List Nat), s = atPort t z → netOn s = true → cwyUp s = true → qBound (getQ s q) = true →
    (getQ s q).consumer = 22 → headQ s q = some e → e.cairn = false → k = leAt e.data 10 2 → k < 2048 → sOn (sesRec s k) = true →
    sTxq (sesRec s k) = q → sesForeign (popQ s q) (sesRec s k) = none → leAt e.data 12 2 = 0xFFFF → dramWaits s 11 (leAt e.data 0 8 % 2 ^ 48) = false →
    netRead (popQ s q) (netMaster (sPart (sesRec s k))) 129 (leAt e.data 0 8 % 2 ^ 48) (leAt e.data 8 2) = (u, some d) →
    w = fdbLearn u 6 (sVid (sesRec s k)) d → x = enqueueAll w (classOf (sPcp (sesRec s k)) d) (txFrame (sesRec s k) d) (switchTo w 6 (sVid (sesRec s k)) d) →
    exec (.netTxEntry q none t) z = .next (netServe (setNet x.1 { x.1.net with lastTx := some (x.2, txFrame (sesRec s k) d, if x.2 = [] then 1 else 0) })) ∧
    (∀ o, exec (.netTxEntry q (some o) t) z =
      .next (setNet (qciDrop u o) { (qciDrop u o).net with lastTx := some ([], txFrame (sesRec s k) d, 1) }))) ∧
  (∀ (z s : State) (q t : Nat) (qci : Option Qci) (e : QEntry), s = atPort t z → netOn s = true → cwyUp s = true → qBound (getQ s q) = true → (getQ s q).consumer = 22 →
    headQ s q = some e →
    (e.cairn = true → exec (.netTxEntry q qci t) z = .next (popQ s q)) ∧
    (e.cairn = false → dramWaits s 11 (leAt e.data 0 8 % 2 ^ 48) = true → exec (.netTxEntry q qci t) z = .next s)) ∧
  (∀ (s : State) (cls p : Nat) (f : Bytes), p < 6 → cls < 8 → ∃ u o, enqueueAll s cls f [p] = (u, o) ∧
    (portUp s p = true ∧ f.length + 4 ≤ getF s (F.NET_PORT_CFG_MAX_FRAME p) → o = [p] ∧ u.net.portDrops = s.net.portDrops ∧
      tabGet u.net.egress (8 * p + cls) [] = tabGet s.net.egress (8 * p + cls) [] ++ [f]) ∧
    (¬ (portUp s p = true ∧ f.length + 4 ≤ getF s (F.NET_PORT_CFG_MAX_FRAME p)) → o = [] ∧ u = portDrop s p)) ∧
  (∀ (s : State) (p c : Nat), p < 6 → c < 8 →
    (portUp s p = true → bitOf (openGates s p) c = true → tabGet (netServe s).net.egress (8 * p + c) [] = [] ∧
      ∀ f ∈ tabGet s.net.egress (8 * p + c) [], (p, f) ∈ (netServe s).net.wire) ∧
    (portUp s p = false ∨ bitOf (openGates s p) c = false →
      tabGet (netServe s).net.egress (8 * p + c) [] = tabGet s.net.egress (8 * p + c) [])) ∧
  (∀ (r d : Bytes), (sTagged r = false → txFrame r d = d) ∧
    (sTagged r = true → 12 ≤ d.length → (txFrame r d).length = d.length + 4 ∧ (txFrame r d).take 12 = d.take 12 ∧
      beAt (txFrame r d) 12 2 = 0x8100 ∧ beAt (txFrame r d) 14 2 = sPcp r * 8192 + sVid r ∧ (txFrame r d).drop 16 = d.drop 12))

/-- A Sync moves device time by its offset, but by no more than 100 ppm of the time since the last one after holdover, until it has
reached the grandmaster's time, or while a domain is formed; when Syncs stop, holdover begins with TIME_HOLDOVER (0x0213). A
port's new gate control list, the host's or the firmware's, takes effect at its cycle start, and what it lets out goes out. At a
whole second PPS_OUT goes high for 10 microseconds while the network is on. An enabled standalone device announces tick 0 at its
first edge and each next tick one period later, at least 10 microseconds ahead, and each tick trigger of that tick is set for
its offset from the edge; an edge too near is not announced. -/
def Obligations.TimeIsKeptAndAnnounced : Prop :=
  (∀ (s u : State) (offset : Int) (t : Nat), u = atPort t s → netOn u = true →
    ∃ v, exec (.gptpSync offset t) s = .next v ∧ v.net.syncAt = some v.timeP ∧ v.net.holdover = false ∧
      (u.net.holdover = false → u.net.slew = false → domainFormed u = false → v.timeP = ((u.timeP : Int) + offset).toNat) ∧
      ((u.net.holdover = true ∨ u.net.slew = true ∨ domainFormed u = true) → (v.timeP : Int) = u.timeP +
        clampI offset (-(((u.timeP - u.net.syncAt.getD u.timeP) / 10000 : Nat) : Int)) (((u.timeP - u.net.syncAt.getD u.timeP) / 10000 : Nat) : Int)) ∧
      { v with timeP := u.timeP, net := u.net } = u) ∧
  (∀ (s : State), netOn s = true → s.net.syncAt.isSome = true →
    exec .syncTimeout s = .next (if s.net.holdover then s else raise (setNet s { s.net with holdover := true }) true 0x0213 0 none 2 0xFFFF [])) ∧
  (∀ (s : State) (port : Nat) (own : Bytes), netOn s = true → port < 6 →
    (isSet s F.NET_CTL_GCL_SRC = false →
      exec (.gclCycleStart port own) s = .next (netServe (setNet s { s.net with gcl := s.net.gcl.set port own }))) ∧
    (∀ l, isSet s F.NET_CTL_GCL_SRC = true → nth s.net.gclNext port none = some l → exec (.gclCycleStart port own) s =
      .next (netServe (setNet s { s.net with gcl := s.net.gcl.set port l, gclNext := s.net.gclNext.set port none })))) ∧
  (∀ (s : State) (t : Nat), (netOn s = true → t % 1000000000 = 0 →
      ∃ v, exec (.ppsOutPulse t) s = .next v ∧ v.pins.ppsEnd = some (t + 10000) ∧ v.timeP = max s.timeP t ∧
        { v with pins := s.pins, timeP := s.timeP, timeC := s.timeC } = s) ∧
    ((netOn s = false ∨ t % 1000000000 ≠ 0) → exec (.ppsOutPulse t) s = .next s)) ∧
  (∀ (s u : State) (t first e n : Nat), u = atPort t s → cwyUp u = true → isSet u F.TICK_CTL_ENABLE = true → getF u F.TICK_CTL_MODE = 0 →
    ((u.cwy.ann = none ∧ e = first ∧ n = 0) ∨
      ∃ a, u.cwy.ann = some a ∧ a.edge ≤ u.timeP ∧ e = a.edge + 1000 * periodUs u ∧ n = a.tick + 1) →
    (u.timeP + 10000 ≤ e → ∃ v, exec (.tickAnnounceSend t first) s = .next v ∧ v.cwy.ann = some { edge := e, tick := n } ∧
      (∀ k, k < 16 → isSet u (F.TRG_CFG_EN k) = true → getF u (F.TRG_CFG_MODE k) = 1 →
        n % getF u (F.TRG_CFG_EVERY k) = getF u (F.TRG_OFF_PHASE k) →
        (nth v.cam.trig k {}).sched = (nth u.cam.trig k {}).sched ++ [e + 8 * getF u (F.TRG_OFF_OFFSET k)]) ∧
      { v with cwy := u.cwy, cam := u.cam } = u) ∧
    (e < u.timeP + 10000 → exec (.tickAnnounceSend t first) s = .next u))

/-- An active device sends HELLO with its versions, priority, role and fused clock every 100 ms and not sooner. A HELLO heard is
noted with its sender, priority and time; a master gives a new device with a good version an index, admits it and counts it, and
refuses one with a bad version. ADMIT makes a joining or refused device a joining one with its index and version; REFUSE leaves
it refused with the reason and raises MEP_REFUSED (0x0220). The first SCHEDULE of a tick from the device's master, or from any
when it has none, gives the edge, period and ceiling to come, and the device is a member; one for an earlier edge only ends
extrapolation; a master that hears a better one's only marks that it will yield. -/
def Obligations.MembersJoinAndFollow : Prop :=
  (∀ (s u : State) (t : Nat), u = atPort t s → mepActive u = true →
    ((∀ x ∈ u.net.mep.helloAt, x + 100000000 ≤ u.timeP) → ∃ v, exec (.mepHelloTimer t) s = .next v ∧ v.net.mep.helloAt = some u.timeP ∧
      mType v.net.mep.out = 1 ∧ mBody v.net.mep.out = helloBody u ∧ { v with net := u.net } = u) ∧
    (∀ x, u.net.mep.helloAt = some x → u.timeP < x + 100000000 → exec (.mepHelloTimer t) s = .next u)) ∧
  (∀ (s u : State) (b : Bytes) (t : Nat), u = atPort t s → mepTakes u b true 1 = true → mSender b ≠ u.fuse.uid → getF u F.MEP_STAT_STATE ≠ 3 →
    ∃ v, exec (.mepHello b true t) s = .next v ∧ v.net.mep.hellos.getLast? =
        some (mSender b, (if leAt (mBody b) 3 1 = 2 then 255 else leAt (mBody b) 2 1), u.timeP) ∧
      (∀ x ∈ v.net.mep.hellos, x.1 = mSender b → x.2.2 = u.timeP) ∧ { v with net := u.net } = u) ∧
  (∀ (s u : State) (b : Bytes) (t : Nat), u = atPort t s → mepTakes u b true 1 = true → mSender b ≠ u.fuse.uid → getF u F.MEP_STAT_STATE = 3 →
    (∀ x ∈ u.net.mep.members, x.id ≠ mSender b) → leAt (mBody b) 3 1 ≠ 2 →
    (∀ i, leAt (mBody b) 0 1 ≤ 1 → 1 ≤ leAt (mBody b) 1 1 → freeIndex u (mMember b) = some i → u.net.mep.members.length < 255 →
      ∃ v, exec (.mepHello b true t) s = .next v ∧
        v.net.mep.members = u.net.mep.members ++ [{ idx := i, id := mSender b, fused := leAt (mBody b) 4 2 }] ∧
        getF v F.MEP_STAT_MEMBERS = (u.net.mep.members.length + 2) % 2 ^ F.MEP_STAT_MEMBERS.width ∧ mType v.net.mep.out = 2 ∧
        mBody v.net.mep.out = leBytes 1 i ++ [1] ∧ { v with net := u.net, regs := u.regs } = u) ∧
    (¬ (leAt (mBody b) 0 1 ≤ 1 ∧ 1 ≤ leAt (mBody b) 1 1) →
      ∃ v, exec (.mepHello b true t) s = .next v ∧ v.net.mep.members = u.net.mep.members ∧ mType v.net.mep.out = 3 ∧
        mBody v.net.mep.out = [1] ∧ { v with net := u.net } = u)) ∧
  (∀ (s : State) (b : Bytes), mepTakes s b true 2 = true → (getF s F.MEP_STAT_STATE = 1 ∨ getF s F.MEP_STAT_STATE = 4) → leAt (mBody b) 1 1 = 1 →
    ∃ v, exec (.mepAdmit b true) s = .next v ∧ getF v F.MEP_STAT_STATE = 1 ∧ getF v F.MEP_STAT_REASON = 0 ∧
      getF v F.MEP_STAT_MEMBER = leAt (mBody b) 0 1 ∧ getF v F.MEP_STAT_VERSION = 1 ∧ { v with regs := s.regs } = s) ∧
  (∀ (s : State) (b : Bytes), mepTakes s b true 3 = true → getF s F.MEP_STAT_STATE = 1 → exec (.mepRefuse b true) s =
    .next (raise (setF (setF s F.MEP_STAT_STATE 4) F.MEP_STAT_REASON (leAt (mBody b) 0 1)) true 0x0220 0 none 2 0xFFFF [])) ∧
  (∀ (s : State) (b : Bytes), mepTakes s b true 4 = true → (getF s F.MEP_STAT_STATE = 2 ∨ getF s F.MEP_STAT_STATE = 5 ∨
      (getF s F.MEP_STAT_STATE = 1 ∧ getF s F.MEP_STAT_VERSION = 1)) → (∀ x ∈ s.net.mep.sched, x.1 < mTick b) →
    (∀ x ∈ s.net.mep.master, x.2 = mSender b) →
    ∃ v, exec (.mepSchedule b true) s = .next v ∧ v.net.mep.sched = some (mTick b, leAt (mBody b) 0 8, leAt (mBody b) 12 2) ∧
      v.net.mep.period = leAt (mBody b) 8 4 ∧ v.net.mep.missed = 0 ∧ v.net.mep.master = some (leAt (mBody b) 14 1, mSender b) ∧
      v.net.mep.origin = some ((leAt (mBody b) 0 8 : Int) - ((mTick b * leAt (mBody b) 8 4 * 1000 : Nat) : Int)) ∧
      v.tick.nextCeil = some (mTick b, leAt (mBody b) 12 2) ∧ getF v F.MEP_STAT_STATE = 2 ∧
      { v with net := s.net, tick := s.tick, regs := s.regs } = s) ∧
  (∀ (s : State) (b : Bytes) (x : Nat × Nat × Nat), mepTakes s b true 4 = true → (getF s F.MEP_STAT_STATE = 2 ∨ getF s F.MEP_STAT_STATE = 5) →
    s.net.mep.sched = some x → mTick b < x.1 → exec (.mepSchedule b true) s = .next (setF s F.MEP_STAT_STATE 2)) ∧
  (∀ (s : State) (b : Bytes), mepTakes s b true 4 = true → getF s F.MEP_STAT_STATE = 3 →
    better (leAt (mBody b) 14 1, mSender b) (ownPrio s, s.fuse.uid) = true → exec (.mepSchedule b true) s =
      .next (setMep s { s.net.mep with yield_ := true, master := some (leAt (mBody b) 14 1, mSender b) }))

/-- The master keeps a member's report of a tick not yet scheduled past, one per member and tick. At the collection deadline of tick
0 it sends the first SCHEDULE, for the next edge, under every fused clock; at a later one, with the members that reported or
have missed fewer than eight in a row, it sends the SCHEDULE of the next edge under the ceiling formed. A ceiling formed while a
member asks for pace is no higher than the one before nor than any pace asked for. A member with no SCHEDULE 20 microseconds
before the edge extrapolates it, counts one missed and raises MEP_SCHEDULE_MISSED (0x0221). A candidate that has missed three
and hears no better one becomes master and raises MEP_MASTER_CHANGE (0x0222). -/
def Obligations.MasterCollectsAndSchedules : Prop :=
  (∀ (s : State) (b : Bytes) (x : MepMember), mepTakes s b true 5 = true → getF s F.MEP_STAT_STATE = 3 →
    (∀ y ∈ s.net.mep.sched, y.1 < mTick b + 2) → s.net.mep.members.find? (fun y => y.id == mSender b) = some x →
    ∃ v, exec (.mepReport b true) s = .next v ∧
      (mTick b, x.idx, leAt (mBody b) 22 2, leAt (mBody b) 20 2) ∈ v.net.mep.reports ∧
      (∀ r ∈ v.net.mep.reports, r.1 = mTick b → r.2.1 = x.idx → r.2.2 = (leAt (mBody b) 22 2, leAt (mBody b) 20 2)) ∧
      { v with net := s.net } = s) ∧
  (∀ (s u : State) (t : Nat), u = atPort t s → mepActive u = true → getF u F.MEP_STAT_STATE = 3 → u.tick.running = true →
    u.tick.edge + 1000 * getF u F.MEP_CFG_COLLECT_US ≤ u.timeP → (∀ y ∈ u.net.mep.sched, y.1 < u.tick.num + 1) → u.net.mep.yield_ = false →
    (u.tick.num = 0 → ∃ v c, exec (.mepCollectDeadline t) s = .next v ∧ v.net.mep.sched = some (1, domainEdge u 1, c) ∧ c ≤ u.tick.ceiling ∧
      c ≤ u.fuse.aclkMax ∧ (∀ y ∈ u.net.mep.members, c ≤ y.fused) ∧ v.tick.nextCeil = some (1, c) ∧ mType v.net.mep.out = 4 ∧
      { v with net := u.net, tick := u.tick } = u) ∧
    (u.tick.num ≠ 0 → (∀ y ∈ u.net.mep.members, hasReport u.net.mep (u.tick.num - 1) y.idx = true ∨ y.missing < 7) →
      ∃ v, exec (.mepCollectDeadline t) s = .next v ∧
        v.net.mep.sched = some (u.tick.num + 1, domainEdge u (u.tick.num + 1), (masterCeiling u (u.tick.num - 1)).1) ∧
        v.net.mep.members.map (·.id) = u.net.mep.members.map (·.id) ∧ mType v.net.mep.out = 4 ∧
        { v with net := u.net, tick := u.tick, regs := u.regs } = u)) ∧
  (∀ (s : State) (c1 : Nat) (reps : List (Nat × Nat)) (a : Bool) (fused streak : Nat), (∃ r ∈ reps, r.1 ≠ 0) →
    (formCeiling s c1 reps a fused streak).1 ≤ c1 ∧ (∀ r ∈ reps, r.1 ≠ 0 → (formCeiling s c1 reps a fused streak).1 ≤ r.1)) ∧
  (∀ (s u : State) (t : Nat), u = atPort t s → mepActive u = true → (getF u F.MEP_STAT_STATE = 2 ∨ getF u F.MEP_STAT_STATE = 5) →
    u.tick.running = true → (∀ y ∈ u.net.mep.sched, y.1 < u.tick.num + 1) → domainEdge u (u.tick.num + 1) ≤ u.timeP + 20000 →
    ∃ w c, exec (.mepScheduleMissing t) s = .next (raise w true 0x0221 0 none 2 0xFFFF []) ∧
      w.net.mep.sched = some (u.tick.num + 1, domainEdge u (u.tick.num + 1), c) ∧ c ≤ u.tick.ceiling ∧
      w.net.mep.missed = u.net.mep.missed + 1 ∧ w.tick.nextCeil = some (u.tick.num + 1, c) ∧ getF w F.MEP_STAT_STATE = 5 ∧
      { w with net := u.net, tick := u.tick, regs := u.regs } = u) ∧
  (∀ (s u : State) (t : Nat), u = atPort t s → mepActive u = true → (getF u F.MEP_STAT_STATE = 2 ∨ getF u F.MEP_STAT_STATE = 5) →
    getF u F.MEP_CFG_PRIO ≠ 0 → 3 ≤ u.net.mep.missed → u.net.mep.hellos = [] →
    ∃ w, exec (.mepMasterTakeover t) s = .next (raise w true 0x0222 0 none 2 0xFFFF []) ∧ getF w F.MEP_STAT_STATE = 3 ∧
      w.net.mep.master = none ∧ w.net.mep.members = [] ∧ w.net.mep.missed = 0 ∧ w.net.mep.origin = u.net.mep.origin ∧
      w.net.mep.period = u.net.mep.period ∧ { w with net := u.net, regs := u.regs } = u)

/-- NET_BARREC registers a job slot at a barrier record of Ember memory below the save area, and without VALID frees the slot; a
record within the save area is not registered. NET_BARRIER of a registered job multicasts ARRIVE with the job and the step,
counted on from the step before, and waits; an unregistered job's is ignored as configuration. When the last participant's
ARRIVE comes the release entry, with the job and step and byte 2 zero, enters the record's queue and the wait is over; an
earlier one is only noted. A wait that lasts its time ends with the entry's byte 2 set and BARRIER_TIMEOUT (0x0224). -/
def Obligations.BarriersGatherAndRelease : Prop :=
  (∀ (s : State) (m : Master) (v : BitVec 31), regGate s true 2 0x54 m (v.toNat + 2 ^ 31) = .pass →
    (0x003000000000 + 64 * bitsOf v.toNat 6 15 < 0x0030001FE000 → ∃ t, exec (.netBarrecRegister m v) s = .next t ∧
      getBar t (bitsOf v.toNat 0 4) = some { addr := 0x003000000000 + 64 * bitsOf v.toNat 6 15 } ∧
      (∀ i, i ≠ bitsOf v.toNat 0 4 → getBar t i = getBar s i) ∧ { t with net := s.net } = s) ∧
    (0x0030001FE000 ≤ 0x003000000000 + 64 * bitsOf v.toNat 6 15 →
      exec (.netBarrecRegister m v) s = .next (cfgIgnored s true 2 0x54 m (v.toNat + 2 ^ 31)))) ∧
  (∀ (s : State) (m : Master) (v : BitVec 31), regGate s true 2 0x54 m v.toNat = .pass → ∃ t, exec (.netBarrecUnregister m v) s = .next t ∧
    getBar t (bitsOf v.toNat 0 4) = none ∧ (∀ i, i ≠ bitsOf v.toNat 0 4 → getBar t i = getBar s i) ∧ { t with net := s.net } = s) ∧
  (∀ (s : State) (m : Master) (v : BitVec 32), regGate s true 2 0x58 m v.toNat = .pass → barOf s (bitsOf v.toNat 0 16) = none →
    exec (.netBarrierWrite m v) s = .next (cfgIgnored s true 2 0x58 m v.toNat)) ∧
  (∀ (s : State) (m : Master) (v : BitVec 32) (i step : Nat) (x : Barrier), regGate s true 2 0x58 m v.toNat = .pass →
    barOf s (bitsOf v.toNat 0 16) = some (i, x) → step = fullStep x.step (bitsOf v.toNat 16 16) →
    (∃ p ∈ barWho s x, p ≠ getF s F.MEP_STAT_MEMBER ∧ x.arrived.contains (p, step) = false) →
    ∃ t y, exec (.netBarrierWrite m v) s = .next t ∧ getBar t i = some y ∧ y.step = step ∧
      y.wait = some (s.timeP + 1000000 * leAt (barRec s x) 4 2) ∧ y.arrived.contains (getF s F.MEP_STAT_MEMBER, step) = true ∧
      mType t.net.mep.out = 6 ∧ leAt (mBody t.net.mep.out) 0 2 = bitsOf v.toNat 0 16 ∧ leAt (mBody t.net.mep.out) 4 4 = step ∧
      { t with net := s.net } = s) ∧
  (∀ (prev low : Nat), low < 65536 → fullStep prev low % 65536 = low) ∧
  (∀ (s : State) (b : Bytes) (i w q : Nat) (x : Barrier), mepTakes s b true 6 = true → mMember b = some w →
    barOf s (leAt (mBody b) 0 2) = some (i, x) → x.wait.isSome = true → leAt (mBody b) 4 4 = x.step →
    (∀ p ∈ barWho s x, p ≠ w → x.arrived.contains (p, x.step) = true) → q = barQueue s x → qRefusal (getQ s q) (getQ s q).part = none →
    ((getQ s q).consumer < 24 ∨ 28 ≤ (getQ s q).consumer) →
    ∃ t y, exec (.mepArrive b true) s = .next t ∧ getBar t i = some y ∧ y.wait = none ∧
      (getQ t q).entries = (getQ s q).entries ++
        [{ cairn := false, data := leBytes 2 (barJob s x) ++ [0, 0] ++ leBytes 4 x.step ++ List.replicate 8 0, producer := 44 }] ∧
      { t with net := s.net, qm := s.qm } = s) ∧
  (∀ (s : State) (b : Bytes) (i w p : Nat) (x : Barrier), mepTakes s b true 6 = true → mMember b = some w →
    barOf s (leAt (mBody b) 0 2) = some (i, x) → p ∈ barWho s x → x.arrived.contains (p, x.step) = false → (p, x.step) ≠ (w, leAt (mBody b) 4 4) →
    ∃ t y, exec (.mepArrive b true) s = .next t ∧ getBar t i = some y ∧ y.wait = x.wait ∧ y.arrived.contains (w, leAt (mBody b) 4 4) = true ∧
      { t with net := s.net } = s) ∧
  (∀ (s u : State) (i t e : Nat) (x : Barrier), u = atPort t s → getBar u i = some x → x.wait = some e →
    (u.timeP < e → exec (.barrierTimeout i t) s = .next u) ∧
    (e ≤ u.timeP → qRefusal (getQ u (barQueue u x)) (getQ u (barQueue u x)).part = none →
      ((getQ u (barQueue u x)).consumer < 24 ∨ 28 ≤ (getQ u (barQueue u x)).consumer) →
      ∃ w, exec (.barrierTimeout i t) s = .next (raise w true 0x0224 0 none 2 0xFFFF []) ∧ getBar w i = some { x with wait := none } ∧
        (getQ w (barQueue u x)).entries = (getQ u (barQueue u x)).entries ++
          [{ cairn := false, data := leBytes 2 (barJob u x) ++ [1, 0] ++ leBytes 4 x.step ++ List.replicate 8 0, producer := 44 }]))

/-- PERST_N low takes the link down and puts every function back to AWAITING_HELLO with all rings disabled and empty, an FLR one
function alone; the link trains once PERST_N is high and the compute die runs. Enabling a disabled ring takes its sizes and
vector; disabling it sets its indices to 0 and leaves a running command running. A tail within an enabled ring is taken; any
other write of it sets RING_ERR and disables the pair. A head frees the slots up to it. A running command's completion is
written into a free slot with PHASE, which toggles at the wrap, and its message follows unless suppressed; with the ring full it
is held. The oldest entry of a queue bound to the interface becomes an event on completion ring 0 of its function. -/
def Obligations.RingsCarryCommands : Prop :=
  (∀ (s : State), ∃ t, exec (.perstN true) s = .next t ∧ t.hif.linkUp = false ∧ t.hif.perst = true ∧
    (∀ g, g < 9 → getF t (F.HIF_FSTAT_STATE g) = 0 ∧ ∀ n, n < 4 → isSet t (F.HIF_RING_CFG_ENABLE g n) = false ∧ getRing t g n = {}) ∧
    { t with hif := s.hif, regs := s.regs } = s) ∧
  (∀ (s : State), exec (.perstN false) s = .next { s with hif := { s.hif with perst := false } }) ∧
  (∀ (s : State) (g : Fin 9), ∃ t, exec (.flr g) s = .next t ∧ getF t (F.HIF_FSTAT_STATE g.val) = 0 ∧
    (∀ n, n < 4 → isSet t (F.HIF_RING_CFG_ENABLE g.val n) = false ∧ getRing t g.val n = {}) ∧
    (∀ h n, h ≠ g.val → h < 9 → n < 4 → getRing t h n = getRing s h n ∧ getF t (F.HIF_FSTAT_STATE h) = getF s (F.HIF_FSTAT_STATE h)) ∧
    { t with hif := s.hif, regs := s.regs } = s) ∧
  (∀ (s : State), (s.hif.perst = false → compDown s = false →
      exec .pcieLinkTrained s = .next { s with hif := { s.hif with linkUp := true } }) ∧
    (s.hif.perst = true ∨ compDown s = true → exec .pcieLinkTrained s = .next s)) ∧
  (∀ (s : State) (m : Master) (g : Fin 9) (n : Fin 4) (v : BitVec 32), ¬ (m.code = 10 + g.val ∧ fnAbsent s g.val = true) →
    regGate s false 18 (ringOff g.val n.val 0) m v.toNat = .pass →
    (isSet s (F.HIF_RING_CFG_ENABLE g.val n.val) = false → v.toNat % 2 = 1 → ∃ t, exec (.hifRingCfgWrite m g n v) s = .next t ∧
      isSet t (F.HIF_RING_CFG_ENABLE g.val n.val) = true ∧ getF t (F.HIF_RING_CFG_SQ_LOG2 g.val n.val) = max 1 (min 12 (bitsOf v.toNat 1 4)) ∧
      getF t (F.HIF_RING_CFG_CQ_LOG2 g.val n.val) = max 1 (min 12 (bitsOf v.toNat 5 4)) ∧
      getF t (F.HIF_RING_CFG_VECTOR g.val n.val) = bitsOf v.toNat 9 4 ∧ { t with hif := s.hif, regs := s.regs } = s) ∧
    (v.toNat % 2 = 0 → (getRing s g.val n.val).held = [] → g.val < s.hif.fns.length → n.val < (getFn s g.val).rings.length →
      ∃ t, exec (.hifRingCfgWrite m g n v) s = .next t ∧ isSet t (F.HIF_RING_CFG_ENABLE g.val n.val) = false ∧
      (getRing t g.val n.val).head = 0 ∧ (getRing t g.val n.val).tail = 0 ∧ (getRing t g.val n.val).cqUsed = 0 ∧
      (getRing t g.val n.val).running = (getRing s g.val n.val).running)) ∧
  (∀ (s : State) (m : Master) (g : Fin 9) (n : Fin 4) (v : BitVec 32), ¬ (m.code = 10 + g.val ∧ fnAbsent s g.val = true) →
    regGate s false 18 (ringOff g.val n.val 5) m v.toNat = .pass →
    (isSet s (F.HIF_RING_CFG_ENABLE g.val n.val) = true → v.toNat < 2 ^ getF s (F.HIF_RING_CFG_SQ_LOG2 g.val n.val) →
      exec (.hifSqtailWrite m g n v) s = .next (setRing s g.val n.val { getRing s g.val n.val with tail := v.toNat })) ∧
    ((isSet s (F.HIF_RING_CFG_ENABLE g.val n.val) = false ∨ 2 ^ getF s (F.HIF_RING_CFG_SQ_LOG2 g.val n.val) ≤ v.toNat) →
      ∃ t, exec (.hifSqtailWrite m g n v) s = .next t ∧ bitOf (getF t (F.HIF_FSTAT_RING_ERR g.val)) n.val = true ∧
        isSet t (F.HIF_RING_CFG_ENABLE g.val n.val) = false ∧ { t with hif := s.hif, regs := s.regs } = s)) ∧
  (∀ (s : State) (m : Master) (g : Fin 9) (n : Fin 4) (v : BitVec 32), ¬ (m.code = 10 + g.val ∧ fnAbsent s g.val = true) →
    regGate s false 18 (ringOff g.val n.val 6) m v.toNat = .pass → isSet s (F.HIF_RING_CFG_ENABLE g.val n.val) = true →
    v.toNat < cqSize s g.val n.val → (getRing s g.val n.val).held = [] → g.val < s.hif.fns.length → n.val < (getFn s g.val).rings.length →
    ∃ t, exec (.hifCqheadWrite m g n v) s = .next t ∧ (getRing t g.val n.val).cqHead = v.toNat ∧ (getRing t g.val n.val).cqUsed =
        (getRing s g.val n.val).cqUsed - (v.toNat + cqSize s g.val n.val - (getRing s g.val n.val).cqHead) % cqSize s g.val n.val ∧
      { t with hif := s.hif } = s) ∧
  (∀ (s : State) (g : Fin 9) (n : Fin 4) (r : Ring) (e : Bytes) (noirq : Bool), r = getRing s g.val n.val → r.running = some (e, noirq) →
    r.hello = none → g.val < s.hif.fns.length → n.val < (getFn s g.val).rings.length →
    (r.cqUsed < cqSize s g.val n.val → r.held = [] → ∃ t, exec (.commandCompletion g n) s = .next t ∧
      t.hif.posted = some (g.val, n.val, r.cqTail, withPhase e r.phase) ∧ (getRing t g.val n.val).running = none ∧
      (getRing t g.val n.val).cqUsed = r.cqUsed + 1 ∧ (getRing t g.val n.val).cqTail = (r.cqTail + 1) % cqSize s g.val n.val ∧
      (getRing t g.val n.val).phase = (if r.cqTail + 1 = cqSize s g.val n.val then !r.phase else r.phase) ∧
      (noirq = true → t.hif.msix = s.hif.msix) ∧
      (noirq = false → ∃ k, t.hif.msix = some (g.val, k)) ∧ { t with hif := s.hif } = s) ∧
    (cqSize s g.val n.val ≤ r.cqUsed → exec (.commandCompletion g n) s =
      .next (setRing s g.val n.val { r with running := none, held := r.held ++ [(e, noirq)] }))) ∧
  (∀ (s : State) (q g : Nat) (e : QEntry) (es : List QEntry), (getQ s q).entries = e :: es → qBound (getQ s q) = true →
    (getQ s q).consumer = 23 → g = (if (getQ s q).part = 0 then 0 else (getQ s q).part + 1) → g < 9 → g < s.hif.fns.length →
    eventRing s g = true → cqFree s g 0 = true →
    ∃ t, exec (.hifEvent q) s = .next t ∧ (getQ t q).entries = es ∧
      t.hif.posted = some (g, 0, (getRing s g 0).cqTail, withPhase (eventCqe 0 e.data e.cairn) (getRing s g 0).phase) ∧
      { t with hif := s.hif, qm := s.qm } = s)

/-- The next command of a ready ring starts: its head moves, and a command turned away by negotiation, opcode, function or reserved
bits completes with that status and no effect. A HELLO that shares a version gives it, and its completion makes the function
READY with it. WRITE_MEM and READ_MEM within the function's addresses move their bytes, one burst of DRAM as it stands, and
answer the length; bad arguments give 4, foreign addresses 3. LOAD_CONTAINER whose checks pass loads it under the next handle,
and otherwise answers 6 with the reason. UNLOAD_CONTAINER of a container whose programs no plan uses releases its key slots and
plans and forgets it; an unknown handle gives 4 to the PF. MILESTONE_RING sets or clears the function's ring; MODE_SET of the
plan source works while ticks are off and answers 5 while they run. -/
def Obligations.HostCommandsMoveData : Prop :=
  (∀ (s f : State) (g : Fin 9) (n : Fin 4) (c : Bytes) (st : Nat), fhpReady s g.val n.val = true → c.length = 64 → hOp c = 1 →
    f = fetched s g.val n.val →
    (fhpRefusal f g.val n.val c = some st → exec (.fhpHello g n c) s = .next (running f g.val n.val c st 0 0)) ∧
    (∀ v, fhpRefusal f g.val n.val c = none → getF f (F.HIF_FSTAT_STATE g.val) ≠ 1 → commonVersion (hArg c 0 % 256) (hArg c 0 / 256 % 256) = some v →
      exec (.fhpHello g n c) s = .next (running (setRing f g.val n.val { getRing f g.val n.val with
        hello := some (hArg c 0 % 256, hArg c 0 / 256 % 256) }) g.val n.val c 0 0 (helloResult v)))) ∧
  (∀ (s : State) (g : Fin 9) (n : Fin 4) (r : Ring) (e : Bytes) (b : Bool) (lo hi v : Nat), r = getRing s g.val n.val → r.running = some (e, b) →
    isEvent e = false → r.hello = some (lo, hi) → commonVersion lo hi = some v → r.cqUsed < cqSize s g.val n.val → r.held = [] →
    g.val < s.hif.fns.length → n.val < (getFn s g.val).rings.length →
    ∃ t, exec (.commandCompletion g n) s = .next t ∧ getF t (F.HIF_FSTAT_STATE g.val) = 1 ∧ getF t (F.HIF_FSTAT_VERSION g.val) = v ∧
      (getRing t g.val n.val).hello = none) ∧
  (∀ (s f : State) (g : Fin 9) (n : Fin 4) (c data : Bytes), fhpReady s g.val n.val = true → c.length = 64 → hOp c = 2 →
    f = fetched s g.val n.val → fhpRefusal f g.val n.val c = none →
    (xferArgs c = false → exec (.writeMem g n c data) s = .next (running f g.val n.val c 4 0 0)) ∧
    (xferArgs c = true → namesOwn f g.val (hArg c 1) = false → exec (.writeMem g n c data) s = .next (running f g.val n.val c 3 0 0)) ∧
    (∀ u, xferArgs c = true → namesOwn f g.val (hArg c 1) = true → data.length = hArg c 2 →
      hostWrite (hciMaster g.val) (hArg c 2) (hArg c 1) 0 data f = (u, none) →
      exec (.writeMem g n c data) s = .next (running u g.val n.val c 0 0 (hArg c 2)))) ∧
  (∀ (s f : State) (g : Fin 9) (n : Fin 4) (c : Bytes) (u : State) (bs : Bytes), fhpReady s g.val n.val = true → c.length = 64 → hOp c = 3 →
    f = fetched s g.val n.val → fhpRefusal f g.val n.val c = none → xferArgs c = true → namesOwn f g.val (hArg c 1) = true →
    hostRead (hciMaster g.val) (hArg c 2) (hArg c 1) 0 (hArg c 2) [] f = (u, none, bs) →
    exec (.readMem g n c) s = .next (running (answer u bs false) g.val n.val c 0 0 (hArg c 2))) ∧
  (∀ (s : State) (m : Master) (a : Nat) (bs : Bytes), 0 < bs.length → a % 512 + bs.length ≤ 512 → region a = .dram → outOfReach s m a = false →
    dramOut s a = false → (∀ r, reqOf m = some r → dramWaits s r a = false) → dramEcc s m a bs.length = (s, false) →
    busGate s m .system a bs.length true (leVal (bs.take 4)) = .pass → busGate s m .system a bs.length false = .pass → s.drc.xts = [] →
    (hostWrite m bs.length a 0 bs s).2 = none ∧ (hostWrite m bs.length a 0 bs s).1.mem = memWrite s.mem a bs ∧
    (hostRead m bs.length a 0 bs.length [] s).2 = (none, memRead s.mem a bs.length)) ∧
  (∀ (s f t : State) (g : Fin 9) (n : Fin 4) (c data : Bytes) (good : Bool) (keys : List (Option (BitVec 256))), fhpReady s g.val n.val = true →
    c.length = 64 → hOp c = 0x10 → s.sec.locked = false → f = fetched s g.val n.val → fhpRefusal f g.val n.val c = none →
    hArg c 1 ≠ 0 → hArg c 2 % 4096 = 0 → inRegions (getP f (fnPart g.val)) (hArg c 2) 1 = true →
    inRegions (getP f (fnPart g.val)) (hArg c 2) (hArg c 1) = true → data.length = hArg c 1 →
    t = (hostWrite (hciMaster g.val) (hArg c 1) (hArg c 2) 0 data f).1 →
    (loadRefusal t (fnPart g.val) data good keys = none → exec (.loadContainer g n c data good keys) s =
      .next (running (loadStep6 t (fnPart g.val) (hArg c 2) data keys) g.val n.val c 0 0 t.sec.nextHandle)) ∧
    (∀ d, loadRefusal t (fnPart g.val) data good keys = some d → exec (.loadContainer g n c data good keys) s =
      .next (running t g.val n.val c 6 d 0))) ∧
  (∀ (s f : State) (g : Fin 9) (n : Fin 4) (c : Bytes), fhpReady s g.val n.val = true → c.length = 64 → hOp c = 0x11 →
    f = fetched s g.val n.val → fhpRefusal f g.val n.val c = none →
    (f.sec.containers.find? (fun k => k.handle == hArg c 0) = none →
      exec (.unloadContainer g n c) s = .next (running f g.val n.val c (if g.val = 0 then 4 else 3) 0 0)) ∧
    (∀ k, f.sec.containers.find? (fun k => k.handle == hArg c 0) = some k → (g.val = 0 ∨ k.part = fnPart g.val) → planHolds f k = true →
      exec (.unloadContainer g n c) s = .next (running f g.val n.val c 5 0 0)) ∧
    (∀ k, f.sec.containers.find? (fun k => k.handle == hArg c 0) = some k → (g.val = 0 ∨ k.part = fnPart g.val) → planHolds f k = false →
      ∃ u, exec (.unloadContainer g n c) s = .next (running u g.val n.val c 0 0 0) ∧ (∀ x ∈ u.sec.containers, x.handle ≠ k.handle) ∧
        (∀ i ∈ k.slots, tabGet u.sec.slots i none = none) ∧ (∀ p ∈ u.tick.plans, p.id ∉ k.plans))) ∧
  (∀ (s f : State) (g : Fin 9) (n : Fin 4) (c : Bytes), fhpReady s g.val n.val = true → c.length = 64 → hOp c = 0x41 →
    f = fetched s g.val n.val → fhpRefusal f g.val n.val c = none → g.val < f.hif.fns.length →
    (hArg c 0 = 0 → ∃ u, exec (.milestoneRing g n c) s = .next (running u g.val n.val c 0 0 0) ∧ (getFn u g.val).milestone = none) ∧
    (hArg c 0 ≠ 0 → hArg c 0 % 4096 = 0 → hArg c 1 ≠ 0 → hArg c 1 ≤ 1024 → 2 ^ Nat.log2 (hArg c 1) = hArg c 1 →
      ∃ u, exec (.milestoneRing g n c) s = .next (running u g.val n.val c 0 0 0) ∧
        (getFn u g.val).milestone = some (hArg c 0, hArg c 1) ∧ { u with hif := f.hif } = f)) ∧
  (∀ (s f : State) (g : Fin 9) (n : Fin 4) (c : Bytes), fhpReady s g.val n.val = true → c.length = 64 → hOp c = 0x50 →
    f = fetched s g.val n.val → fhpRefusal f g.val n.val c = none → hArg c 0 = 4 → hArg c 2 < 2 →
    (isSet f F.TICK_CTL_ENABLE = true → exec (.modeSet g n c) s = .next (running f g.val n.val c 5 0 0)) ∧
    (isSet f F.TICK_CTL_ENABLE = false → ∃ u, exec (.modeSet g n c) s =
        .next (running u g.val n.val c 0 0 (if bitOf (getF f F.TICK_CTL_PLAN_SRC) 0 then 1 else 0)) ∧
      bitOf (getF u F.TICK_CTL_PLAN_SRC) 0 = decide (hArg c 2 = 1) ∧ { u with regs := f.regs } = f))

/-- With plans from the host, PLAN_ADD of a plan that validates and has room appends it to plan memory and answers its identifier,
and a plan that does not is refused with its reason; PLAN_ACTIVATE of a stored plan at least two ticks ahead replaces the
activation of that edge; PLAN_REMOVE of a plan that no chain or activation names drops it. While the scheduler supplies plans
all three answer 5. GCL_SET with gate lists from the host stores the list for the next cycle. QUEUE_POST to a queue that takes
the entry appends 16 bytes of producer 39. FAULT_READ hands the partition's queued records to the host and answers their number.
FAULT_RESUME with action 0 of a paused partition drops its hosted records and lets it resume; action 1 restarts it besides.
TRIAGE_TIMEOUT once the limit has passed ends the pause, and DEVSTAT shows the lapse. -/
def Obligations.HostPlansAndTriage : Prop :=
  (∀ (s f : State) (g : Fin 9) (n : Fin 4) (c data : Bytes), fhpReady s g.val n.val = true → c.length = 64 → hOp c = 0x20 →
    f = fetched s g.val n.val → fhpRefusal f g.val n.val c = none →
    (isSet f F.TICK_CTL_PLAN_SRC = false → exec (.planAdd g n c data) s = .next (running f g.val n.val c 5 0 0)) ∧
    (∀ p, isSet f F.TICK_CTL_PLAN_SRC = true → 0 < data.length → hArg c 1 = data.length → p = parsePlan data →
      (planRefusal f data p = none → planRoom f p = true → exec (.planAdd g n c data) s =
        .next (running { f with tick := { f.tick with plans := f.tick.plans ++ [p] } } g.val n.val c 0 0 p.id)) ∧
      (planRefusal f data p = none → planRoom f p = false → exec (.planAdd g n c data) s = .next (running f g.val n.val c 6 8 0)) ∧
      (∀ d, planRefusal f data p = some d → exec (.planAdd g n c data) s = .next (running f g.val n.val c 6 d 0)))) ∧
  (∀ (s f : State) (g : Fin 9) (n : Fin 4) (c : Bytes), fhpReady s g.val n.val = true → c.length = 64 → hOp c = 0x21 →
    f = fetched s g.val n.val → fhpRefusal f g.val n.val c = none →
    (isSet f F.TICK_CTL_PLAN_SRC = false → exec (.planActivate g n c) s = .next (running f g.val n.val c 5 0 0)) ∧
    (isSet f F.TICK_CTL_PLAN_SRC = true → (planOf f (hArg c 0)).isSome = true → (f.tick.running = true → f.tick.num + 2 ≤ hArg c 1) →
      ∃ u, exec (.planActivate g n c) s = .next (running u g.val n.val c 0 0 0) ∧ (hArg c 0, hArg c 1) ∈ u.tick.pending ∧
        (∀ x ∈ u.tick.pending, x.2 = hArg c 1 → x.1 = hArg c 0) ∧ (∀ x ∈ f.tick.pending, x.2 ≠ hArg c 1 → x ∈ u.tick.pending) ∧
        { u with tick := { u.tick with pending := f.tick.pending } } = f) ∧
    (isSet f F.TICK_CTL_PLAN_SRC = true → ((planOf f (hArg c 0)).isNone = true ∨ (f.tick.running = true ∧ hArg c 1 < f.tick.num + 2)) →
      exec (.planActivate g n c) s = .next (running f g.val n.val c 6 8 0))) ∧
  (∀ (s f : State) (g : Fin 9) (n : Fin 4) (c : Bytes), fhpReady s g.val n.val = true → c.length = 64 → hOp c = 0x22 →
    f = fetched s g.val n.val → fhpRefusal f g.val n.val c = none → isSet f F.TICK_CTL_PLAN_SRC = true →
    (planHeld f (hArg c 0) = false → (planOf f (hArg c 0)).isSome = true →
      ∃ u, exec (.planRemove g n c) s = .next (running u g.val n.val c 0 0 0) ∧ planOf u (hArg c 0) = none ∧
        (∀ i, i ≠ hArg c 0 → planOf u i = planOf f i) ∧ { u with tick := { u.tick with plans := f.tick.plans } } = f) ∧
    (planHeld f (hArg c 0) = true → exec (.planRemove g n c) s = .next (running f g.val n.val c 6 8 0))) ∧
  (∀ (s f : State) (g : Fin 9) (n : Fin 4) (c data : Bytes), fhpReady s g.val n.val = true → c.length = 64 → hOp c = 0x30 →
    f = fetched s g.val n.val → fhpRefusal f g.val n.val c = none →
    (isSet f F.NET_CTL_GCL_SRC = false → exec (.gclSet g n c data) s = .next (running f g.val n.val c 5 0 0)) ∧
    (isSet f F.NET_CTL_GCL_SRC = true → hArg c 0 < 6 → hArg c 0 < f.net.gclNext.length → 0 < hArg c 2 → hArg c 2 ≤ 256 → data ≠ [] →
      ∃ u, exec (.gclSet g n c data) s = .next (running u g.val n.val c 0 0 0) ∧ nth u.net.gclNext (hArg c 0) none = some data ∧
        { u with net := { u.net with gclNext := f.net.gclNext } } = f)) ∧
  (∀ (s f : State) (g : Fin 9) (n : Fin 4) (c : Bytes), fhpReady s g.val n.val = true → c.length = 64 → hOp c = 0x40 →
    f = fetched s g.val n.val → fhpRefusal f g.val n.val c = none → hArg c 0 < 8192 →
    (g.val ≠ 0 → (getQ f (hArg c 0)).part ≠ fnPart g.val → exec (.queuePost g n c) s = .next (running f g.val n.val c 3 0 0)) ∧
    ((g.val = 0 ∨ (getQ f (hArg c 0)).part = fnPart g.val) → qBound (getQ f (hArg c 0)) = true → (getQ f (hArg c 0)).consumer < 24 →
      (getQ f (hArg c 0)).entries.length < (getQ f (hArg c 0)).depth →
      exec (.queuePost g n c) s = .next (running (setQ f (hArg c 0) { getQ f (hArg c 0) with entries := (getQ f (hArg c 0)).entries ++
        [{ cairn := false, data := leBytes 8 (hArg c 1) ++ leBytes 8 (hArg c 2), producer := 39 }] }) g.val n.val c 0 0 0))) ∧
  (∀ (s f : State) (g : Fin 9) (n : Fin 4) (c : Bytes), fhpReady s g.val n.val = true → c.length = 64 → hOp c = 0x60 →
    f = fetched s g.val n.val → fhpRefusal f g.val n.val c = none →
    (8 ≤ hArg c 0 → exec (.faultRead g n c) s = .next (running f g.val n.val c 4 0 0)) ∧
    (hArg c 0 < 8 → (partRecs f (hArg c 0)).length ≤ 64 → ∃ u, exec (.faultRead g n c) s =
        .next (running u g.val n.val c 0 0 (partRecs f (hArg c 0)).length) ∧ u.rd = ((partRecs f (hArg c 0)).map recBytes).flatten ∧
        u.flt = f.flt ∧ u.hif = f.hif)) ∧
  (∀ (s f : State) (g : Fin 9) (n : Fin 4) (c : Bytes), fhpReady s g.val n.val = true → c.length = 64 → hOp c = 0x61 →
    f = fetched s g.val n.val → fhpRefusal f g.val n.val c = none →
    ((∀ x ∈ f.hif.paused, x.part ≠ hArg c 0) → exec (.faultResume g n c) s = .next (running f g.val n.val c 4 0 0)) ∧
    (∀ x, x ∈ f.hif.paused → x.part = hArg c 0 → hArg c 1 = 0 → ∃ u, exec (.faultResume g n c) s = .next (running u g.val n.val c 0 0 0) ∧
      (∀ y ∈ u.hif.paused, y.part = hArg c 0 → y.resume = true) ∧
      (∀ r ∈ u.flt.comp.queue, ¬ (hostHas f r = true ∧ r.part = some (hArg c 0))) ∧ { u with flt := f.flt, hif := f.hif } = f) ∧
    (∀ x, x ∈ f.hif.paused → x.part = hArg c 0 → hArg c 1 = 1 →
      exec (.faultResume g n c) s = .next (running (partRestart (endPause f (hArg c 0)) (hArg c 0)) g.val n.val c 0 0 0))) ∧
  (∀ (s u : State) (p t : Nat), u = atComp t s → (∃ x ∈ u.hif.paused, x.part = p ∧ x.resume = false ∧
      x.since + 1000000 * getF u F.HIF_TRIAGE_TIMEOUT_MS ≤ t) →
    ∃ v, exec (.triageTimeout p t) s = .next v ∧ (∀ x ∈ v.hif.paused, x.part ≠ p) ∧ getF v F.HIF_DEVSTAT_TRIAGE_LAPSED = 1 ∧
      v.flt.comp.queue = u.flt.comp.queue ∧ v.mem = u.mem)

/-- When an interval of input power p mW ends, with c the effective cap in mW, u the floor of 256 (p - c) / c, v the floor of GAIN_I
u / 256 and w the floor of GAIN_P u / 16, the integral term becomes acc + v held within 0 to DMAX, d becomes w plus it held
within the same, and each group's fraction is the lesser of DMAX and d times its weight over 8. The fractions computed now are
those of the interval after next: those computed an interval ago are in force from now on. At 75 W and the reset gains an
interval of 82.5 W adds 1 to the integral term and gives a d of 50 more than it, as far as DMAX allows. The cycle counts of the
damped clock domains go on by the interval's cycles modulo 256, and the array's STALL counter grows by the bubbles that R425
places among its cycles at the fraction in force, but for those dropped, and by its other stretched cycles. Memory, queues,
engines, the fault unit and every other kind of state outside the kiln and its registers stay as they were. -/
def Obligations.DampersFollowTheLaw : Prop :=
  (∀ (s : State) (p vin : Nat) (rails : List (Nat × Nat)) (cyc : List Nat) (lost sa sh : Nat) (u v w : Int), 0 < capEff s →
    (250 * capEff s : Nat) * u ≤ 256 * ((p : Int) - (250 * capEff s : Nat)) → 256 * ((p : Int) - (250 * capEff s : Nat)) < (250 * capEff s : Nat) * (u + 1) →
    256 * v ≤ (getF s F.KILN_DAMP_GAIN_I : Int) * u → (getF s F.KILN_DAMP_GAIN_I : Int) * u < 256 * (v + 1) →
    16 * w ≤ (getF s F.KILN_DAMP_GAIN_P : Int) * u → (getF s F.KILN_DAMP_GAIN_P : Int) * u < 16 * (w + 1) →
    ∃ t, exec (.damperUpdate p vin rails cyc lost sa sh) s = .next t ∧
      t.kiln.acc = max 0 (min (getF s F.KILN_DAMP_DMAX : Int) (s.kiln.acc + v)) ∧
      (t.kiln.d : Int) = max 0 (min (getF s F.KILN_DAMP_DMAX : Int) (w + t.kiln.acc)) ∧
      t.kiln.dNext = [min (getF s F.KILN_DAMP_DMAX) (t.kiln.d * getF s F.KILN_DAMPW_W_ACLK / 8), min (getF s F.KILN_DAMP_DMAX) (t.kiln.d * getF s F.KILN_DAMPW_W_HC / 8),
        min (getF s F.KILN_DAMP_DMAX) (t.kiln.d * getF s F.KILN_DAMPW_W_IMG / 8), min (getF s F.KILN_DAMP_DMAX) (t.kiln.d * getF s F.KILN_DAMPW_W_CDC / 8)] ∧
      t.kiln.dg = s.kiln.dNext ∧
      t.arr.stall = s.arr.stall + ((nth s.pwr.cyc 0 0 + nth cyc 0 0) * nth s.kiln.dg 0 0 / 256 - nth s.pwr.cyc 0 0 * nth s.kiln.dg 0 0 / 256 - lost + sa) ∧
      (∀ i < 20, i ≠ 1 → i ≠ 10 → i ≠ 11 → nth t.pwr.cyc i 0 = (nth s.pwr.cyc i 0 + nth cyc i 0) % 256) ∧
      { t with regs := s.regs, kiln := s.kiln, arr := { t.arr with stall := s.arr.stall }, pwr := { t.pwr with cyc := s.pwr.cyc } } = s) ∧
  (∀ (s : State) (vin : Nat) (rails : List (Nat × Nat)) (cyc : List Nat) (lost sa sh : Nat), capEff s = 300 → getF s F.KILN_DAMP_GAIN_P = 32 → getF s F.KILN_DAMP_GAIN_I = 16 →
    getF s F.KILN_DAMP_DMAX = 192 → 0 ≤ s.kiln.acc → s.kiln.acc ≤ 192 →
    ∃ t, exec (.damperUpdate 82500 vin rails cyc lost sa sh) s = .next t ∧ t.kiln.acc = min 192 (s.kiln.acc + 1) ∧ (t.kiln.d : Int) = min 192 (50 + t.kiln.acc))

/-- A 1 ms window whose average exceeds the cap while d stood at DMAX throughout steps every host core above its floor one point
down, its frequency at once; with every core at its floor for one more such window POWER_CAP_UNHELD (0x0230) enters the port
die's queue, once per second. Ten calm windows begin a step up for every core below its target, which its rail's step completes.
A window of sustained stretching raises DROOP_SUSTAINED (0x0231) for the domain. A droop episode doubles the period of its
domain and counts; recovery ends it. The ARRAY rail steps one point toward the point that the frequency to come needs. ACLK
changes only in the microsecond before an edge, or while no edges come: a lower frequency applies at its change, a higher one as
far as the settled point supports. A 100 µs window gives the highest frequency that R431 lets qualify, or 500 MHz. -/
def Obligations.PowerWindowsAndRailsStep : Prop :=
  (∀ (s u : State) (avg t : Nat), u = atPort t s → u.kiln.atMax = true → 250 * capEff u < avg → u.kiln.floored = false →
    ∃ v, exec (.powerWindow avg [] t) s = .next v ∧ v.kiln.atMax = true ∧ v.kiln.hcZero = true ∧
      (∀ c < 8, c < u.kiln.hcPoint.length → canDown u c = true → nth v.kiln.hcPoint c 0 + 1 = nth u.kiln.hcPoint c 0 ∧
        getF v (F.KILN_HC_CUR c) = min (getF u (F.KILN_HC_TARGET c)) (hcMhz u c (nth v.kiln.hcPoint c 0) / 10) % 256) ∧
      (∀ c < 8, canDown u c = false → nth v.kiln.hcPoint c 0 = nth u.kiln.hcPoint c 0 ∧ getF v (F.KILN_HC_CUR c) = getF u (F.KILN_HC_CUR c)) ∧
      (v.kiln.floored = true ↔ ∀ c < 8, canDown v c = false) ∧ v.flt = u.flt ∧ v.mem = u.mem) ∧
  (∀ (s u : State) (avg t : Nat), u = atPort t s → u.kiln.atMax = true → 250 * capEff u < avg → u.kiln.floored = true →
    (∀ c < 8, canDown u c = false) → secondPast u u.kiln.unheldAt = true → u.flt.port.queue.length < 32 →
    ∃ v r, exec (.powerWindow avg [] t) s = .next v ∧ v.flt.port.queue = u.flt.port.queue ++ [r] ∧ r.code = 0x0230 ∧ r.cls = 0 ∧
      v.kiln.hcPoint = u.kiln.hcPoint ∧ v.kiln.unheldAt = some u.timeP) ∧
  (∀ (s u : State) (avg t : Nat), u = atPort t s → u.kiln.hcZero = true → 100 * avg ≤ 95 * (250 * capEff u) →
    ∃ v, exec (.powerWindow avg [] t) s = .next v ∧ v.kiln.hcPoint = u.kiln.hcPoint ∧ v.flt = u.flt ∧
      (u.kiln.calm < 9 → v.kiln.calm = u.kiln.calm + 1 ∧ v.kiln.hcUp = u.kiln.hcUp) ∧
      (9 ≤ u.kiln.calm → v.kiln.calm = 0 ∧ ∀ c < 8, c < u.kiln.hcUp.length → nth v.kiln.hcUp c false =
        (nth u.kiln.hcUp c false || (decide (getF u (F.KILN_HC_CUR c) < getF u (F.KILN_HC_TARGET c)) && decide (nth u.kiln.hcPoint c 0 < 12))))) ∧
  (∀ (s u : State) (avg t d : Nat), u = atPort t s → u.kiln.atMax = false → u.flt.port.queue.length < 32 →
    secondPast u (tabGet u.kiln.droopAt d none) = true → ∃ v r, exec (.powerWindow avg [d] t) s = .next v ∧
      v.flt.port.queue = u.flt.port.queue ++ [r] ∧ r.code = 0x0231 ∧ r.cls = 0 ∧ tabGet v.kiln.droopAt d none = some u.timeP) ∧
  (∀ (s : State) (d : Nat), (s.kiln.droop.contains d = true → exec (.droopDetect d) s = .next s) ∧
    (s.kiln.droop.contains d = false → ∃ t, exec (.droopDetect d) s = .next t ∧ t.kiln.droop = s.kiln.droop ++ [d] ∧
      getF t F.KILN_DROOP_COUNT = min (getF s F.KILN_DROOP_COUNT + 1) 65535 ∧ { t with regs := s.regs, kiln := s.kiln } = s) ∧
    (∃ t, exec (.droopRecover d) s = .next t ∧ t.kiln.droop.contains d = false ∧ (∀ x ≠ d, t.kiln.droop.contains x = s.kiln.droop.contains x) ∧
      { t with kiln := s.kiln } = s)) ∧
  (∀ (s u : State) (t : Nat), u = atPort t s → (∀ x, u.kiln.stepAt = some x → x + 950000 ≤ u.timeP) → arrGoal u ≠ u.kiln.point →
    ∃ v, exec (.voltageStep 0 t) s = .next v ∧ v.kiln.stepAt = some u.timeP ∧
      (u.kiln.point < arrGoal u → v.kiln.point = u.kiln.point + 1) ∧ (arrGoal u < u.kiln.point → v.kiln.point + 1 = u.kiln.point) ∧
      { v with kiln := u.kiln } = u) ∧
  (∀ (s u : State) (t c : Nat), u = atPort t s → c < 8 → c < u.kiln.hcPoint.length → c < u.kiln.hcUp.length → nth u.kiln.hcUp c false = true →
    nth u.kiln.hcPoint c 0 < 12 →
    ∃ v, exec (.voltageStep (c + 1) t) s = .next v ∧ nth v.kiln.hcPoint c 0 = nth u.kiln.hcPoint c 0 + 1 ∧ nth v.kiln.hcUp c false = false ∧
      getF v (F.KILN_HC_CUR c) = min (getF u (F.KILN_HC_TARGET c)) (hcMhz u c (nth u.kiln.hcPoint c 0 + 1) / 10) % 256 ∧
      { v with regs := u.regs, kiln := u.kiln } = u) ∧
  (∀ (s u : State) (t f : Nat), u = atPort t s → aclkMoves u = true → isSet u F.TICK_CTL_ENABLE = false → f = getF u F.KILN_ACLK_TARGET_MHZ → f < 4096 →
    ∃ v, exec (.aclkChange t) s = .next v ∧ { v with regs := u.regs } = u ∧
      (f ≤ getF u F.KILN_ACLK_CUR_MHZ → getF v F.KILN_ACLK_CUR_MHZ = f) ∧
      (getF u F.KILN_ACLK_CUR_MHZ < f → f ≤ nth u.fuse.arrCurve u.kiln.point 0 → getF v F.KILN_ACLK_CUR_MHZ = f) ∧
      (getF u F.KILN_ACLK_CUR_MHZ < f → nth u.fuse.arrCurve u.kiln.point 0 ≤ getF u F.KILN_ACLK_CUR_MHZ →
        getF v F.KILN_ACLK_CUR_MHZ = getF u F.KILN_ACLK_CUR_MHZ)) ∧
  (∀ (s u : State) (t : Nat), u = atPort t s → aclkMoves u = true → isSet u F.TICK_CTL_ENABLE = true → u.tick.nextCeil = none → 500 ≤ u.tick.ceiling →
    u.tick.ceiling ≤ u.fuse.aclkMax → u.tick.ceiling ≤ getF u F.KILN_ACLK_CUR_MHZ → u.tick.ceiling < 4096 →
    ∃ v, exec (.aclkChange t) s = .next v ∧ getF v F.KILN_ACLK_CUR_MHZ = u.tick.ceiling ∧ { v with regs := u.regs } = u) ∧
  (∀ (s u : State) (t : Nat), u = atPort t s → aclkMoves u = false → exec (.aclkChange t) s = .next u) ∧
  (∀ (s : State) (d f v : Nat), s.tick.running = true → isSet s F.KILN_STAT_THROTTLING = false → f = getF s F.KILN_ACLK_CUR_MHZ →
    v = pointMv (max s.kiln.top s.kiln.point) → s.fuse.aclkMax < 4096 →
    ∃ t a, exec (.availWindow d) s = .next t ∧ getF t F.KILN_STAT_AVAIL_MHZ = a ∧ t.kiln.avail = some (lower s.kiln.avail a) ∧
      (a = 500 ∨ (500 < a ∧ a ≤ s.fuse.aclkMax ∧ availOk s d f v a = true)) ∧ (∀ b, a < b → 500 < b → b ≤ s.fuse.aclkMax → availOk s d f v b = false) ∧
      (marginNow s * 65536 < d * 100 → t.kiln.pace = some (lower s.kiln.pace a)) ∧
      (d * 100 ≤ marginNow s * 65536 → t.kiln.pace = s.kiln.pace) ∧ { t with regs := s.regs, kiln := s.kiln } = s)

/-- A sample with every sensor below warning raises nothing; one that first reaches warning raises THERMAL_WARNING (0x0232); one
that reaches throttle sets THROTTLING with the cap at CAP_QW and raises THERMAL_THROTTLE (0x0233); one that reaches trip turns
the compute die off and drives FAULT_N low. While throttling, a hot sensor lowers the thermal cap 1 W per 10 ms, to 25 W at
least; after 100 ms cool it rises 1 W per 100 ms up to CAP_QW, which ends throttling. VIN in range raises nothing; VIN far out
of range for 10 µs turns both dies off and loses DRAM; below 6 V nothing but flash, fuses and straps remains. ENTER from the
system partition begins Ember entry, or is refused with REFUSED set; entry complete, both dies are off, the record is sealed
with the XTS regions, and the DRAM settings are kept; an enabled source wakes the device, and a rekindle brings back the XTS
regions and DRAM with its settings and contents. A cage reports its module, and an overcurrent latches it off and takes its link
down. -/
def Obligations.HeatSupplyAndEmberAct : Prop :=
  (∀ (s u : State) (temps : List Int) (t : Nat), u = atPort t s → u.kiln.ember ≠ 2 → temps.length = 24 →
    ((∀ x ∈ temps, x < warnQ u) → ∃ v, exec (.thermalSample temps t) s = .next v ∧ v.kiln.temps = temps ∧ v.flt = u.flt ∧ v.regs = u.regs ∧
      { v with kiln := u.kiln } = u) ∧
    (∀ x, x ∈ temps → warnQ u ≤ x → (∀ y ∈ temps, y < throttleQ u) → u.kiln.warned = false → u.flt.port.queue.length < 32 →
      ∃ v r, exec (.thermalSample temps t) s = .next v ∧ v.kiln.temps = temps ∧ v.kiln.warned = true ∧ v.flt.port.queue = u.flt.port.queue ++ [r] ∧
        r.code = 0x0232 ∧ r.cls = 0 ∧ v.regs = u.regs) ∧
    (∀ x, x ∈ temps → throttleQ u ≤ x → (∀ y ∈ temps, y < tripQ u) → u.kiln.warned = true → isSet u F.KILN_STAT_THROTTLING = false →
      u.flt.port.queue.length < 32 →
      ∃ v r, exec (.thermalSample temps t) s = .next v ∧ isSet v F.KILN_STAT_THROTTLING = true ∧ v.kiln.cap = getF u F.KILN_CAP_CAP_QW ∧
        v.flt.port.queue = u.flt.port.queue ++ [r] ∧ r.code = 0x0233 ∧ r.cls = 0) ∧
    (∀ x, x ∈ temps → tripQ u ≤ x → u.kiln.tripped = false → ∃ v, exec (.thermalSample temps t) s = .next v ∧ v.pwr.compOn = false ∧
      v.flt.faultN = true ∧ v.kiln.tripped = true ∧ v.emn.sealKey = false ∧ v.qm = [] ∧ ((∀ y ∈ temps.drop 16, y < tripQ u) → v.pwr.dcClkStop = true))) ∧
  (∀ (s u : State) (t : Nat), u = atPort t s → isSet u F.KILN_STAT_THROTTLING = true →
    (∀ x, x ∈ u.kiln.temps → throttleQ u ≤ x → (∀ y, u.kiln.capAt = some y → y + 10000000 ≤ u.timeP) →
      exec (.thermalCapStep t) s = .next { u with kiln := { u.kiln with cap := max 100 (u.kiln.cap - 4), capAt := some u.timeP } }) ∧
    (∀ y, (∀ x ∈ u.kiln.temps, x < throttleQ u) → u.kiln.coolSince = some y → y + 100000000 ≤ u.timeP →
      (∀ z, u.kiln.capAt = some z → z + 100000000 ≤ u.timeP) →
      ∃ v, exec (.thermalCapStep t) s = .next v ∧ v.kiln.cap = min (getF u F.KILN_CAP_CAP_QW) (u.kiln.cap + 4) ∧
        (isSet v F.KILN_STAT_THROTTLING = false ↔ getF u F.KILN_CAP_CAP_QW ≤ u.kiln.cap + 4) ∧ { v with regs := u.regs, kiln := u.kiln } = u)) ∧
  (∀ (s u : State) (mv t : Nat), u = atPort t s →
    (10800 ≤ mv → mv ≤ 13200 → u.kiln.vinFault = false → ∃ v, exec (.vinSample mv t) s = .next v ∧ v.kiln.rangeSince = none ∧ v.kiln.badSince = none ∧
      v.kiln.goodSince.isSome = true ∧ { v with kiln := u.kiln } = u) ∧
    (6000 ≤ mv → (mv < 9600 ∨ 14000 < mv) → u.kiln.vinFault = false → (∀ x, u.kiln.badSince = some x → x + 10000 ≤ u.timeP) →
      u.kiln.badSince.isSome = true →
      ∃ v, exec (.vinSample mv t) s = .next v ∧ v.kiln.vinFault = true ∧ v.flt.faultN = true ∧ v.pwr.compOn = false ∧ v.pwr.portOn = false ∧
        v.emn.sealKey = false ∧ ∀ a, a < 0x800000000 → rdByte v.mem a = 0) ∧
    (mv < 6000 → ∃ v, exec (.vinSample mv t) s = .next v ∧ v.mem = [] ∧ v.flt = {} ∧ v.kiln = {} ∧ v.pwr.compOn = false ∧ v.pwr.portOn = false ∧
      v.emn.journal = u.emn.journal ∧ v.emn.slots = u.emn.slots ∧ v.fuse = u.fuse ∧ v.emn.sealed_ = none)) ∧
  (∀ (s : State) (m : Master) (v : BitVec 31), regGate s true 5 0x78 m (2 * v.toNat + 1) = .pass → m.part = 0 → s.kiln.ember = 0 →
    ∃ t, exec (.emberEnter m v) s = .next t ∧ getF t F.KILN_EMBER_WAKE_EN = bitsOf (2 * v.toNat + 1) 1 3 ∧
      getF t F.KILN_EMBER_WAKE_MS = bitsOf (2 * v.toNat + 1) 8 24 ∧
      (emberRefused s = true → t.kiln = s.kiln ∧ isSet t F.KILN_EMBER_REFUSED = true ∧ { t with regs := s.regs } = s) ∧
      (emberRefused s = false → t.kiln.ember = 1 ∧ (s.flt.restarting = false → getF t F.HIF_DEVSTAT_BOOT = 5))) ∧
  (∀ (s u : State) (t : Nat), u = atPort t s → u.kiln.ember = 1 → u.drc.zero = [] → u.emn.update = none →
    ∃ v, exec (.emberEntryComplete t) s = .next v ∧ v.kiln.ember = 2 ∧ v.kiln.emberAt = u.timeP ∧ v.pwr.compOn = false ∧ v.pwr.portOn = false ∧
      v.emn.sealKey = true ∧ v.emn.sealed_.map (·.seq) = u.emn.booted.map (·.seq) ∧ v.qm = [] ∧ v.sec.slots = [] ∧
      (∀ a, a < 0x800000000 → rdByte v.mem a = rdByte u.mem a) ∧ getF v F.KILN_EMBER_WAKE_EN = getF u F.KILN_EMBER_WAKE_EN % 8 ∧
      (u.emn.booted.isSome = true → v.emn.sealed_.map (·.xts) = some u.drc.xts) ∧
      (isSet u F.DRC_STAT_READY = true → v.emn.drcKept = some (getF u F.DRC_CFG_HASH, getF u F.DRC_CFG_IBECC, getF u F.DRC_CFG_PAGE_DEFAULT, trained u))) ∧
  (∀ (s u : State) (src t : Nat) (good : Bool), u = atPort t s → u.kiln.ember = 2 → wakes u src = true → u.kiln.tripped = false →
    u.kiln.vinFault = false →
    ∃ v, exec (.emberWake src good t) s = .next v ∧ v.kiln.ember = 0 ∧ v.pwr.compOn = true ∧ v.pwr.portOn = true ∧
      getF v F.KILN_EMBER_LAST_WAKE = src ∧ (rekindles u good = true → v.emn.booted = (slotRecs u.emn.journal).head? ∧
        getF v F.EMN_BOOT_STAT_STAGE = 4 ∧ v.emn.sealed_ = u.emn.sealed_ ∧ v.flt = u.flt ∧ v.mem = u.mem ∧
        v.drc.xts = (u.emn.sealed_.map (·.xts)).getD [] ∧ (∀ h e p x, u.emn.drcKept = some (h, e, p, x) → v.drc.trn = x ∧ isSet v F.DRC_STAT_READY = true ∧
          getF v F.DRC_CFG_HASH = h % 4 ∧ getF v F.DRC_CFG_IBECC = e % 2 ∧ getF v F.DRC_CFG_PAGE_DEFAULT = p % 2)) ∧
      (rekindles u good = false → v.emn.sealed_ = none)) ∧
  (∀ (s : State) (p : Fin 4) (low : Bool), p.val < s.pins.modIn.length →
    ∃ t, exec (.modAbsChange p low) s = .next t ∧ nth t.pins.modIn p.val false = low ∧
      (∀ q, q ≠ p.val → nth t.pins.modIn q false = nth s.pins.modIn q false) ∧ { t with pins := { t.pins with modIn := s.pins.modIn } } = s) ∧
  (∀ (s : State) (p : Fin 4), p.val < s.pins.latched.length → s.flt.port.queue.length < 32 →
    (vmodOn s p.val = true → ∃ t r, exec (.vmodOvercurrent p) s = .next t ∧ nth t.pins.latched p.val false = true ∧ vmodOn t p.val = false ∧
      (∀ c, c < 8 → tabGet t.net.egress (8 * p.val + c) [] = []) ∧
      getF t (F.NET_PORT_CFG_LINK p.val) = 0 ∧ t.flt.port.queue = s.flt.port.queue ++ [r] ∧ r.code = 0x0210 ∧ r.cls = 0) ∧
    (vmodOn s p.val = false → exec (.vmodOvercurrent p) s = .next s))

/-- At power-on the newest SLOT record that qualifies with matching components boots, both dies on and the real-time images locked,
with a TRY record when it is unconfirmed, and the column fuses blown on request, to 16 in all, take effect; with STRAP1 at
ground the device is in recovery, without partitions. RESET_N turns both dies off and loses DRAM, and its release cold boots. A
restart of the compute die keeps DRAM and Ember retained memory and loses queues, containers and partitions. Tick-ready sets
BOOT to 2 and releases FAULT_N. START of an accepted image erases the other slot; a refused one leaves flash as it was and
reports 1 or 2. A matching readback appends a SLOT record with the next SEQ; a mismatch reports 3. CONFIRM after HEALTHY
confirms the booted record and raises the anti-rollback counter to its image's SVN; before HEALTHY it changes nothing but
LEN_KIB. In recovery the last chunk of a good image leads to a cold boot with it in slot A. -/
def Obligations.TheDeviceBootsAndUpdates : Prop :=
  (∀ (s : State) (straps : Nat) (blown : List Nat), s.emn.journal.length < 1024 →
    (bitOf straps 1 = false → ∃ t, exec (.powerOn ⟨straps, blown⟩) s = .next t ∧ getF t F.EMN_BOOT_STAT_STAGE = 7 ∧ (∀ p ∈ t.parts, p = {}) ∧ t.emn.booted = none ∧ t.flt.faultN = true ∧
      t.pwr.compOn = true ∧ t.pwr.portOn = true ∧ t.mem = [] ∧ t.emn.journal = s.emn.journal ∧ t.emn.slots = s.emn.slots) ∧
    (∀ r rest, bitOf straps 1 = true → slotRecs s.emn.journal = r :: rest → recQualifies s r = true → (slotImg s r.slot).any (·.good) = true →
      ∃ t, exec (.powerOn ⟨straps, blown⟩) s = .next t ∧ t.emn.booted = some r ∧ t.emn.locks = true ∧ t.fuse.colBlown = 0 ∧
        t.fuse.colBad = Nat.lor (blowFuses blown s).fuse.colBad (blowFuses blown s).fuse.colBlown ∧ getF t F.EMN_BOOT_STAT_STAGE = 2 ∧ t.flt.faultN = false ∧ t.pwr.compOn = true ∧
        t.pwr.portOn = true ∧ t.mem = [] ∧ t.flt.port.queue = [] ∧ t.emn.slots = s.emn.slots ∧ s.fuse.svn ≤ t.fuse.svn ∧
        t.emn.journal = s.emn.journal ++ (if jConfirmed s.emn.journal r then [] else [{ kind := 2, slot := r.slot, seq := r.seq }]))) ∧
  (∀ (s : State) (straps : Nat) (blown : List Nat), s.emn.resetLow = false →
    (∃ t, exec (.resetN true ⟨straps, blown⟩) s = .next t ∧ t.emn.resetLow = true ∧ t.pwr.compOn = false ∧ t.pwr.portOn = false ∧ t.emn.sealKey = false ∧
      t.flt.faultN = false ∧ (∀ a, a < 0x800000000 → rdByte t.mem a = 0) ∧ t.emn.journal = s.emn.journal ∧ t.emn.slots = s.emn.slots) ∧
    exec (.resetN false ⟨straps, blown⟩) s = .next s ∧
    (∀ u : State, u = { s with emn := { s.emn with resetLow := true } } → exec (.resetN false ⟨straps, blown⟩) u = .next (coldBoot straps (blowFuses blown s)) ∧
      exec (.resetN true ⟨straps, blown⟩) u = .next u)) ∧
  (∀ (s : State) (c : Nat), c < 256 → bitOf (Nat.lor s.fuse.colBad s.fuse.colBlown) c = false →
    (blowFuses [c] s).fuse.colBlown = (if (List.range 256).countP (bitOf (Nat.lor s.fuse.colBad s.fuse.colBlown)) < 16 then
      Nat.lor s.fuse.colBlown (2 ^ c) else s.fuse.colBlown)) ∧
  (∀ (s : State), s.emn.resetLow = false →
    (s.kiln.tripped = false → s.flt.restartDue = true → s.flt.held = false →
      ∃ t, exec .computeDieRestart s = .next t ∧ t.pwr.compOn = true ∧ t.pwr.dcReset = false ∧ t.flt.restarting = s.flt.safe ∧
        t.flt.reboots = s.flt.reboots + 1 ∧ t.flt.safe = false ∧ t.flt.restartDue = false ∧ t.qm = [] ∧ t.sec.containers = [] ∧ t.sec.slots = [] ∧
        t.parts = State.reset.parts ∧ t.tick = {} ∧ getF t F.EMN_BOOT_STAT_STAGE = 2 ∧ t.net = { s.net with staged := [] } ∧ t.emn.locks = true ∧ t.kiln = s.kiln ∧
        (∀ a, (a < 0x800000000 ∨ emberBase ≤ a) → rdByte t.mem a = rdByte s.mem a) ∧
        (∀ a, 0x800000000 ≤ a → a < emberBase → rdByte t.mem a = 0)) ∧
    (s.kiln.tripped = false → (s.flt.restartDue = false ∨ s.flt.held = true) → exec .computeDieRestart s = .next s) ∧
    (s.kiln.tripped = true → allCool s = false → exec .computeDieRestart s = .next s) ∧
    (s.kiln.tripped = true → allCool s = true → s.pwr.portOn = true →
      ∃ t, exec .computeDieRestart s = .next t ∧ t.kiln.tripped = false ∧ t.pwr.compOn = true ∧ t.flt.reboots = s.flt.reboots + 1)) ∧
  (∀ (s : State), (getF s F.EMN_BOOT_STAT_STAGE = 2 ∨ getF s F.EMN_BOOT_STAT_STAGE = 4) → s.emn.booted.isSome = true → compDown s = false →
    isSet s F.DRC_STAT_READY = true → getF s F.HIF_DEVSTAT_BOOT = 1 → s.flt.held = false → s.flt.trainFail = false →
    ∃ t, exec .tickReady s = .next t ∧ getF t F.HIF_DEVSTAT_BOOT = 2 ∧ getF t F.EMN_BOOT_STAT_STAGE = 3 ∧ t.flt.faultN = false ∧
      t.flt.restarting = false ∧ { t with regs := s.regs, flt := s.flt } = s) ∧
  (∀ (s : State), isSet s F.DRC_TRN_CTL_OWNER = true → isSet s F.DRC_STAT_READY = false → getF s F.HIF_DEVSTAT_BOOT = 1 → s.pwr.compOn = true →
    getF s F.EMN_BOOT_STAT_STAGE ≠ 7 → exec .hostTrainingTimeout s = .next (raiseDevice s true 0x0167 4 0xFFFF [])) ∧
  (∀ (s : State) (m : Master) (len : BitVec 24) (dg : BitVec 384) (signed : Bool) (svn : Nat) (comps : List (Nat × BitVec 384)),
    regGate s true 4 0x2C m (256 * len.toNat + 1) = .pass →
    (s.emn.update = none → s.kiln.ember = 0 → signed = true → s.fuse.svn ≤ svn → svn ≤ 64 → comps.length ≤ 16 → len.toNat ≤ 16128 → otherSlot s < s.emn.slots.length →
      ∃ t, exec (.updStart m len dg signed svn comps) s = .next t ∧ t.emn.update = some ({ digest := dg, signed := signed, svn := svn, comps := comps }, otherSlot s) ∧
        slotImg t (otherSlot s) = none ∧ (∀ k, k ≠ otherSlot s → slotImg t k = slotImg s k) ∧ isSet t F.EMN_UPD_CMD_BUSY = true ∧
        getF t F.EMN_BOOT_STAT_STAGE = 5 ∧ getF t F.EMN_UPD_CMD_LEN_KIB = len.toNat ∧ t.emn.journal = s.emn.journal ∧ t.mem = s.mem) ∧
    (s.emn.update = none → s.kiln.ember = 0 → (signed = false ∨ svn < s.fuse.svn ∨ 64 < svn ∨ 16 < comps.length ∨ 16128 < len.toNat) → s.flt.port.queue.length < 32 →
      ∃ t r, exec (.updStart m len dg signed svn comps) s = .next t ∧ getF t F.EMN_UPD_CMD_RESULT = 1 ∧ t.emn = s.emn ∧
        t.flt.port.queue = s.flt.port.queue ++ [r] ∧ r.code = 0x0242 ∧ r.cls = 0) ∧
    ((s.emn.update.isSome = true ∨ s.kiln.ember ≠ 0) → ∃ t, exec (.updStart m len dg signed svn comps) s = .next t ∧
      getF t F.EMN_UPD_CMD_RESULT = 2 ∧ { t with regs := s.regs } = s)) ∧
  (∀ (s : State) (img : SlotImg) (k : Nat), s.emn.update = some (img, k) → k < s.emn.slots.length → s.emn.journal.length < 1024 →
    (∃ t, exec (.updateComplete true) s = .next t ∧ slotImg t k = some { img with good := true } ∧ t.emn.update = none ∧
      t.emn.journal = s.emn.journal ++ [{ kind := 1, slot := k, seq := topSeq s.emn.journal + 1, digest := img.digest }] ∧
      isSet t F.EMN_UPD_CMD_BUSY = false ∧ getF t F.EMN_UPD_CMD_RESULT = 0 ∧ getF t F.EMN_BOOT_STAT_STAGE = 3 ∧ t.flt = s.flt) ∧
    (∃ t, exec (.updateComplete false) s = .next t ∧ t.emn.update = none ∧ t.emn.journal = s.emn.journal ∧ getF t F.EMN_UPD_CMD_RESULT = 3)) ∧
  (∀ (s : State) (m : Master) (len : BitVec 24), regGate s true 4 0x2C m (256 * len.toNat + 2) = .pass →
    ∃ t, exec (.healthy m len) s = .next t ∧ t.emn.healthy = true ∧ getF t F.EMN_UPD_CMD_LEN_KIB = len.toNat ∧ { t with regs := s.regs, emn := s.emn } = s) ∧
  (∀ (s : State) (m : Master) (len : BitVec 24), regGate s true 4 0x2C m (256 * len.toNat + 3) = .pass →
    ((s.emn.healthy = false ∨ s.emn.booted = none) → ∃ t, exec (.confirm m len) s = .next t ∧ getF t F.EMN_UPD_CMD_LEN_KIB = len.toNat ∧
      { t with regs := s.regs } = s) ∧
    (∀ r x, s.emn.healthy = true → s.emn.booted = some r → slotImg s r.slot = some x → s.emn.journal.length < 1024 →
      ∃ t, exec (.confirm m len) s = .next t ∧ jConfirmed t.emn.journal r = true ∧ t.fuse.svn = max s.fuse.svn x.svn ∧
        getF t F.EMN_BOOT_STAT_TRIAL = 0 ∧ t.emn.slots = s.emn.slots ∧ (∀ y ∈ s.emn.journal, y ∈ t.emn.journal))) ∧
  (∀ (s : State) (m : Master) (len : BitVec 24) (dg : BitVec 384) (svn : Nat) (comps : List (Nat × BitVec 384)),
    regGate s true 4 0x2C m (256 * len.toNat + 4) = .pass → getF s F.EMN_BOOT_STAT_STAGE = 7 → 0 < s.emn.slots.length → s.emn.journal.length < 500 →
    (∀ signed good, ∃ t, exec (.recChunk m len false dg signed good svn comps) s = .next t ∧ slotImg t 0 = none ∧ t.emn.journal = s.emn.journal ∧ t.mem = s.mem) ∧
    (s.fuse.svn ≤ svn → svn ≤ 64 → comps.length ≤ 16 → ∃ t, exec (.recChunk m len true dg true true svn comps) s = .next t ∧
      slotImg t 0 = some { digest := dg, signed := true, svn := svn, comps := comps } ∧
      { kind := 1, slot := 0, seq := topSeq s.emn.journal + 1, digest := dg } ∈ t.emn.journal ∧ t.pwr.compOn = true ∧ t.pwr.portOn = true ∧
      (∀ y ∈ s.emn.journal, y ∈ t.emn.journal)) ∧
    (s.flt.port.queue.length < 32 → ∃ t, exec (.recChunk m len true dg false true svn comps) s = .next t ∧ getF t F.EMN_UPD_CMD_RESULT = 1 ∧
      t.emn.journal = s.emn.journal ∧ getF t F.EMN_BOOT_STAT_STAGE = 7))

/-- CREATE of a FREE partition from a valid descriptor that names no quarantined bank makes it what the descriptor says, with its
measurement, binds its queues to it and draws its lay-by key; it changes no other partition and no memory. A partition that is
not FREE gives 1, an invalid or overlapping descriptor 2, a quarantined bank 3, and any command while Emino is busy 5, each with
nothing else changed. LOAD_FW of a CREATED partition puts a write-locked XTS region at the base of its first region and extends
its measurement. START needs one LOAD_FW and makes it RUNNING. TEARDOWN of a partition whose items no plan in force holds
withdraws its keys and containers and queues the zeroing of every region; one that a plan holds gives 4. TEARDOWN_COMPLETE after
the last region frees the partition and quarantines its banks, and until then nothing. -/
def Obligations.PartitionsLiveAndDie : Prop :=
  (∀ (s u : State) (m : Master) (p : BitVec 3) (a : Nat) (x : Option Bytes), regGate s true 4 0x38 m (p.toNat + 8 * 1) = .pass → eminoBusy s = false →
    p ≠ 0 → p.toNat < s.parts.length → a = getF s F.EMN_PART_ADDR_LO_ADDR * 64 + getF s F.EMN_PART_ADDR_HI_ADDR * 2 ^ 32 → eminoRead s a 64 = (u, x) →
    ((getP u p.toNat).st ≠ 0 → exec (.create m p) s = .next (partResult u 1)) ∧
    ((getP u p.toNat).st = 0 → x = none → exec (.create m p) s = .next (partResult u 2)) ∧
    (∀ d, (getP u p.toNat).st = 0 → x = some d → descOk u p.toNat d = false → exec (.create m p) s = .next (partResult u 2)) ∧
    (∀ d, (getP u p.toNat).st = 0 → x = some d → descOk u p.toNat d = true → Nat.land (descPart d).banks u.sec.quar ≠ 0 →
      exec (.create m p) s = .next (partResult u 3)) ∧
    (∀ d, (getP u p.toNat).st = 0 → x = some d → descOk u p.toNat d = true → Nat.land (descPart d).banks u.sec.quar = 0 →
      ∃ t, exec (.create m p) s = .next t ∧ getP t p.toNat = descPart d ∧ (getP t p.toNat).st = 1 ∧ (getP t p.toNat).meas = Config.sha384 d ∧
        (∀ q, q ≠ p.toNat → getP t q = getP u q) ∧ getF t F.EMN_PART_STAT_RESULT = 0 ∧
        (∀ q, (descPart d).qBase ≤ q → q < (descPart d).qBase + (descPart d).qCount → getQ t q = { getQ u q with part := p.toNat }) ∧
        (∀ q, (q < (descPart d).qBase ∨ (descPart d).qBase + (descPart d).qCount ≤ q) → getQ t q = getQ u q) ∧
        (tabGet t.sch.keys p.toNat none).isSome = true ∧ t.mem = u.mem ∧ t.sec = u.sec ∧ t.flt = u.flt)) ∧
  (∀ (s : State) (m : Master) (v : Nat) (p : BitVec 3), v = p.toNat + 8 * 1 → regGate s true 4 0x38 m v = .pass → eminoBusy s = true →
    exec (.create m p) s = .next (partResult s 5)) ∧
  (∀ (s : State) (m : Master) (p : BitVec 3) (ok : Bool), regGate s true 4 0x38 m (p.toNat + 8 * 2) = .pass → eminoBusy s = false → p ≠ 0 →
    p.toNat < s.parts.length →
    ((getP s p.toNat).st ≠ 1 → exec (.loadFw m p ok) s = .next (partResult s 1)) ∧
    ((getP s p.toNat).st = 1 → ok = false → exec (.loadFw m p ok) s = .next (partResult s 2)) ∧
    (∀ r rs kib img, (getP s p.toNat).st = 1 → ok = true → (getP s p.toNat).regions = r :: rs → kib = getF s F.EMN_PART_ADDR_HI_LEN_KIB → 0 < kib →
      kib ≤ 12288 → (kib + 2047) / 2048 * 0x200000 ≤ r.2 → s.drc.xts.length < 16 →
      (eminoRead s (getF s F.EMN_PART_ADDR_LO_ADDR * 64 + getF s F.EMN_PART_ADDR_HI_ADDR * 2 ^ 32) (1024 * kib)).2 = some img →
      ∃ t, exec (.loadFw m p ok) s = .next t ∧ getF t F.EMN_PART_STAT_RESULT = 0 ∧ (getP t p.toNat).loads = (getP s p.toNat).loads + 1 ∧
        (getP t p.toNat).st = 1 ∧ (∀ q, q ≠ p.toNat → getP t q = getP s q) ∧
        (getP t p.toNat).meas = Config.sha384 (leBytes 48 (getP s p.toNat).meas.toNat ++ leBytes 48 (Config.sha384 img).toNat) ∧
        (∃ x ∈ t.drc.xts, x.base = r.1 ∧ x.size = (kib + 2047) / 2048 * 0x200000 ∧ x.lock = true))) ∧
  (∀ (s : State) (m : Master) (p : BitVec 3), regGate s true 4 0x38 m (p.toNat + 8 * 3) = .pass → eminoBusy s = false → p ≠ 0 → p.toNat < s.parts.length →
    (((getP s p.toNat).st ≠ 1 ∨ (getP s p.toNat).loads = 0) → exec (.partStart m p) s = .next (partResult s 1)) ∧
    ((getP s p.toNat).st = 1 → 0 < (getP s p.toNat).loads → ∃ t, exec (.partStart m p) s = .next t ∧
      getP t p.toNat = { getP s p.toNat with st := 2, coresOn := true } ∧ (∀ q, q ≠ p.toNat → getP t q = getP s q) ∧
      getF t F.EMN_PART_STAT_RESULT = 0 ∧ fnAbsent t (p.toNat + 1) = false ∧ { t with regs := s.regs, parts := s.parts } = s)) ∧
  (∀ (s : State) (m : Master) (p : BitVec 3), regGate s true 4 0x38 m (p.toNat + 8 * 4) = .pass → eminoBusy s = false → p ≠ 0 → p.toNat < s.parts.length →
    ((getP s p.toNat).st = 0 ∨ (getP s p.toNat).st = 3 → exec (.teardown m p) s = .next (partResult s 1)) ∧
    (((getP s p.toNat).st = 1 ∨ (getP s p.toNat).st = 2) → planUses s p.toNat = true → exec (.teardown m p) s = .next (partResult s 4)) ∧
    (((getP s p.toNat).st = 1 ∨ (getP s p.toNat).st = 2) → planUses s p.toNat = false → ∃ t, exec (.teardown m p) s = .next t ∧
      (getP t p.toNat).st = 3 ∧ (getP t p.toNat).coresOn = false ∧ (∀ q, q ≠ p.toNat → getP t q = getP s q) ∧ isSet t F.EMN_PART_STAT_BUSY = true ∧
      getF t F.EMN_PART_STAT_RESULT = 0 ∧ t.sec.cmd = some (4, p.toNat) ∧ t.sec.scrubLeft = ((getP s p.toNat).regions.filter (fun r => r.2 != 0)).length ∧ p.toNat ∉ (getB t 17).parts ∧
      t.drc.zero = s.drc.zero ++ ((getP s p.toNat).regions.filter (fun r => r.2 != 0)).map (fun r => (r.1, r.2, true)) ∧
      (∀ i < 8, tabGet t.sec.slots (8 * p.toNat + i) none = none) ∧ (∀ c ∈ t.sec.containers, c.part ≠ p.toNat) ∧
      tabGet t.sch.keys p.toNat none = none ∧ fnAbsent t (p.toNat + 1) = true)) ∧
  (∀ (s : State) (c p : Nat), s.sec.cmd = some (c, p) → p < s.parts.length →
    (s.sec.scrubLeft ≠ 0 → exec .teardownComplete s = .next s) ∧
    (s.sec.scrubLeft = 0 → ∃ t, exec .teardownComplete s = .next t ∧ getP t p = {} ∧ (∀ q, q ≠ p → getP t q = getP s q) ∧
      t.sec = { s.sec with cmd := none, quar := Nat.lor s.sec.quar (getP s p).banks } ∧ isSet t F.EMN_PART_STAT_BUSY = false ∧
      getF t F.EMN_PART_STAT_RESULT = 0 ∧ { t with regs := s.regs, parts := s.parts, sec := s.sec } = s))

/-- No CREATE whose descriptor names a quarantined bank creates anything: whatever else holds, every partition stays as it was. The
banks of a partition torn down become quarantined as it ceases to exist. CYCLE_QUARTER, while no partition that is not FREE owns
a bank of the quarter, powers the quarter down and up, so that a quarter that was powered holds zero everywhere afterwards and
no other byte of memory changes, and frees the quarter's quarantined banks and no others, with RESULT 0; while one owns a bank
there, it is refused with RESULT 1 and nothing else changes. -/
def Obligations.QuarantineHolds : Prop :=
  (∀ (s : State) (m : Master) (p : BitVec 3) (a : Nat), a = getF s F.EMN_PART_ADDR_LO_ADDR * 64 + getF s F.EMN_PART_ADDR_HI_ADDR * 2 ^ 32 →
    (∀ d, (eminoRead s a 64).2 = some d → Nat.land (descPart d).banks s.sec.quar ≠ 0) → ∃ t, exec (.create m p) s = .next t ∧ t.parts = s.parts) ∧
  (∀ (s : State) (c p b : Nat), s.sec.cmd = some (c, p) → s.sec.scrubLeft = 0 → p < s.parts.length → bitOf (getP s p).banks b = true →
    ∃ t, exec .teardownComplete s = .next t ∧ (getP t p).st = 0 ∧ bitOf t.sec.quar b = true) ∧
  (∀ (s : State) (m : Master) (q : BitVec 2), regGate s true 4 0x38 m (8 * 5 + 64 * q.toNat) = .pass → eminoBusy s = false →
    (∀ x ∈ s.parts, x.st ≠ 0 → Nat.land x.banks (255 * 2 ^ (8 * q.toNat)) = 0) →
    ∃ t, exec (.cycleQuarter m q) s = .next t ∧ getF t F.EMN_PART_STAT_RESULT = 0 ∧ powered t (domQuarter q.toNat) = true ∧
      (∀ b, bitOf t.sec.quar b = (bitOf s.sec.quar b && !(b / 8 == q.toNat))) ∧
      (powered s (domQuarter q.toNat) = true → ∀ a, mapBase + q.toNat * 0x4000000 ≤ a → a < mapBase + (q.toNat + 1) * 0x4000000 → rdByte t.mem a = 0) ∧
      (∀ a, (a < mapBase + q.toNat * 0x4000000 ∨ mapBase + (q.toNat + 1) * 0x4000000 ≤ a) → rdByte t.mem a = rdByte s.mem a) ∧
      t.parts = s.parts ∧ t.flt = s.flt) ∧
  (∀ (s : State) (m : Master) (q : BitVec 2) (x : Part), regGate s true 4 0x38 m (8 * 5 + 64 * q.toNat) = .pass → eminoBusy s = false → x ∈ s.parts →
    x.st ≠ 0 → Nat.land x.banks (255 * 2 ^ (8 * q.toNat)) ≠ 0 → exec (.cycleQuarter m q) s = .next (partResult s 1))

/-- A challenge on a closed port that has failed fewer than three times is fresh and outstanding; otherwise nothing happens. A good
response opens debug: every key slot, lay-by key and parked step is gone, no region is array-only, the opening is counted, and
DEBUG_OPENED (0x0243) is raised; a bad one counts a failure; without a challenge nothing happens. An attestation request in the
partition's memory whose record can be read takes one snapshot with the nonce and is busy until it is done with RESULT 0 and the
report's length, or 1 where the buffer is too small; a busy unit ignores a request. A billet that passes or fails advances its
class's cursor, one that is incomplete does not; every billet unlocks key release and is reported; a failure raises BIST_FAIL
(0x0107) in the class of R498. A mismatch on pair 1 is a double fault: safe state, FAULT_N low, BOOT 3, the records saved. -/
def Obligations.DebugAttestationAndBilletsRun : Prop :=
  (∀ (s : State), ((isSet s F.EMN_DBG_OPEN = true ∨ getF s F.EMN_DBG_FAILS = 3) → exec .debugChallenge s = .next s) ∧
    (isSet s F.EMN_DBG_OPEN = false → getF s F.EMN_DBG_FAILS ≠ 3 → ∃ t k, exec .debugChallenge s = .next t ∧ t.sec = { s.sec with challenge := some k } ∧
      t.free = s.free + 1 ∧ { t with sec := s.sec, free := s.free } = s)) ∧
  (∀ (s : State) (ok : Bool), s.sec.challenge = none → exec (.debugResponse ok) s = .next s) ∧
  (∀ (s : State), s.sec.challenge.isSome = true → isSet s F.EMN_DBG_OPEN = false → getF s F.EMN_DBG_FAILS ≠ 3 →
    (∃ t, exec (.debugResponse false) s = .next t ∧ t.sec = { s.sec with challenge := none } ∧
      getF t F.EMN_DBG_FAILS = min (getF s F.EMN_DBG_FAILS + 1) 3 ∧ isSet t F.EMN_DBG_OPEN = false ∧ { t with regs := s.regs, sec := s.sec } = s) ∧
    (s.flt.port.queue.length < 32 → ∃ t r, exec (.debugResponse true) s = .next t ∧ isSet t F.EMN_DBG_OPEN = true ∧ t.sec.slots = [] ∧ t.sch.keys = [] ∧
      t.sch.parked = [] ∧ (∀ g < 256, bitOf (getF t (F.MAP_AO_AO (g / 32))) (g % 32) = false) ∧ t.emn.dbgCount = min 0xFFFF (s.emn.dbgCount + 1) ∧
      t.sec.challenge = none ∧ t.flt.port.queue = s.flt.port.queue ++ [r] ∧ r.code = 0x0243 ∧ r.cls = 0)) ∧
  (∀ (s : State) (m : Master), regGate s true 4 0x58 m 1 = .pass →
    ((getAtt s m.part).busy = true → exec (.attestationRequest m) s = .next s) ∧
    ((getAtt s m.part).busy = false → inPartMem s m.part (getAtt s m.part).addr 64 = false → ∃ t, exec (.attestationRequest m) s = .next t ∧
      (getAtt t m.part).busy = false ∧ (getAtt t m.part).result = 2 ∧ { t with sec := { t.sec with att := s.sec.att } } = s) ∧
    (∀ u x, (getAtt s m.part).busy = false → inPartMem s m.part (getAtt s m.part).addr 64 = true → eminoRead s (getAtt s m.part).addr 64 = (u, x) →
      (x = none → ∃ t, exec (.attestationRequest m) s = .next t ∧ (getAtt t m.part).busy = false ∧ (getAtt t m.part).result = 2) ∧
      (∀ d nonce, x = some d → 1 ≤ leAt d 12 4 → leAt d 12 4 ≤ 48 → nonce = (d.drop 16).take (leAt d 12 4) →
        ∃ t, exec (.attestationRequest m) s = .next t ∧ (getAtt t m.part).busy = true ∧ (getAtt t m.part).payload = attPayload u nonce ∧
          (getAtt t m.part).out = leAt d 0 8 % 2 ^ 48 ∧ (getAtt t m.part).outBytes = leAt d 8 4 ∧
          (∀ p, p ≠ m.part → getAtt t p = getAtt u p) ∧ { t with sec := { t.sec with att := u.sec.att } } = u))) ∧
  (∀ (s : State) (p n : Nat), n = (Config.coseReport (getAtt s p).payload).length →
    ((getAtt s p).busy = false → exec (.attestationDone p) s = .next s) ∧
    ((getAtt s p).busy = true → (getAtt s p).outBytes < n → ∃ t, exec (.attestationDone p) s = .next t ∧ (getAtt t p).busy = false ∧
      (getAtt t p).result = 1 ∧ { t with sec := { t.sec with att := s.sec.att } } = s) ∧
    ((getAtt s p).busy = true → n ≤ (getAtt s p).outBytes → ∃ t, exec (.attestationDone p) s = .next t ∧ (getAtt t p).busy = false ∧
      (getAtt t p).result = 0 ∧ (getAtt t p).len = n)) ∧
  (∀ (s : State) (a : Armed) (cols : List Nat) (corrected : Bool) (c t : Nat) (k : Nat × Nat),
    s.tick.armed.find? (fun a => a.item.engine == 0x0B && a.started && !s.tick.reports.contains a.idx) = some a → c = a.item.arg % 8 →
    c < s.flt.cursors.length → k = nth s.flt.cursors c (0, 0) → t = k.1 →
    (∃ v, exec (.billetEnd 0 cols corrected) s = .next v ∧ getF v F.BIST_STAT_RESULT = 0 ∧ getF v F.BIST_STAT_CLASS = c ∧
      (k.2 + 1 < billetsOf c t → nth v.flt.cursors c (0, 0) = (t, k.2 + 1)) ∧
      (billetsOf c t ≤ k.2 + 1 → nth v.flt.cursors c (0, 0) = ((t + 1) % billetTargets c, 0)) ∧
      v.sec = { s.sec with locked := false } ∧ v.tick = { s.tick with reports := s.tick.reports ++ [a.idx] } ∧
      v.flt.comp = s.flt.comp ∧ { v with regs := s.regs, flt := s.flt, sec := s.sec, tick := s.tick, mem := s.mem, mapu := s.mapu } = s ∧
      (c ≠ 1 → c ≠ 2 → v.mem = s.mem ∧ v.mapu = s.mapu)) ∧
    (∃ v, exec (.billetEnd 2 cols corrected) s = .next v ∧ getF v F.BIST_STAT_RESULT = 2 ∧ v.flt = s.flt ∧ v.sec.locked = false) ∧
    (c = 0 → s.flt.comp.queue.length < 32 → ∃ v r, exec (.billetEnd 1 [] corrected) s = .next v ∧ getF v F.BIST_STAT_RESULT = 1 ∧
      v.flt.comp.queue = s.flt.comp.queue ++ [r] ∧ r.code = 0x0107 ∧ r.cls = 0 ∧ r.detail = [0, t]) ∧
    ((c = 1 ∨ c = 2) → s.flt.comp.queue.length < 32 → ∃ v r, exec (.billetEnd 1 cols corrected) s = .next v ∧
      v.flt.comp.queue = s.flt.comp.queue ++ [r] ∧ r.code = 0x0107 ∧ r.cls = (if corrected then 1 else 2) ∧ r.detail = [c, t] ∧
      (corrected = false → r.part = billetPart s c t)) ∧
    (3 ≤ c → ∃ v, exec (.billetEnd 1 cols corrected) s = .next v ∧ v.flt.held = true ∧ v.flt.faultN = true ∧ getF v F.HIF_DEVSTAT_BOOT = 4 ∧
      v.pwr.dcReset = true)) ∧
  (∀ (s : State), (∀ a ∈ s.tick.armed, a.item.engine ≠ 0x0B) → ∀ r cols x, exec (.billetEnd r cols x) s = .next s) ∧
  (∀ (s : State), (s.flt.restarting = false → ∃ t, exec .pair1LockstepMismatch s = .next t ∧ t.flt.safe = true ∧ t.flt.faultN = true ∧
      t.flt.restartDue = true ∧ t.flt.port.queue = [] ∧ getF t F.HIF_DEVSTAT_BOOT = 3 ∧ rdByte t.mem saveArea = 1 ∧ t.sch.run = none) ∧
    (s.flt.restarting = true → ∃ t, exec .pair1LockstepMismatch s = .next t ∧ t.flt.held = true ∧ t.flt.faultN = true ∧
      getF t F.HIF_DEVSTAT_BOOT = 4 ∧ t.pwr.dcReset = true))

/-- TAKE on the compute die moves the oldest record of the highest queued class into FLT_REC, removes it from the queue and pushes
its class on a stack of four, with the DONE limit running; a record for which the handler restarts its partition begins that
restart. TAKE on the port die moves its record in the same way and handles nothing; a record that fails its check as it is taken
is a double fault, with safe state and the records saved; DONE, KICK and RESTART do nothing there. DONE pops the class and the
handler is interrupted again where a queued record's class plus 1 exceeds HANDLING. KICK restarts the innermost DONE limit.
RESTART asks for a restart of the compute die unless it is held. A watchdog limit that has passed is a double fault; none
passed, nothing happens. A mismatch on pair 0 raises RT_LOCKSTEP (0x0105) against partition 0, holds pair 0 in reset and lets
pair 1 take over; while pair 0 is in reset nothing happens. -/
def Obligations.TheFaultUnitServesItsHandler : Prop :=
  (∀ (s : State) (m : Master) (r : FaultRec) (l1 l2 : List FaultRec), regGate s false 20 0x20 m 1 = .pass → s.flt.comp.queue = l1 ++ r :: l2 →
    s.hif.paused = [] → (∀ x ∈ l1, x.cls < r.cls) → (∀ x ∈ l2, x.cls ≤ r.cls) →
    (restartsFor s r = false → ∃ t, exec (.fltTake m ⟨false, false⟩) s = .next t ∧ t.flt.comp = { s.flt.comp with queue := l1 ++ l2, recd := some r } ∧
      t.flt.handling = (r.cls :: s.flt.handling).take 4 ∧ handlingCode t = r.cls + 1 ∧ t.flt.interrupted = false ∧
      t.flt.watch.head? = some (true, s.timeC + getF s (F.FLT_CTL_WD false) * 100000) ∧ t.flt.port = s.flt.port ∧ { t with flt := s.flt } = s) ∧
    (restartsFor s r = true → ∃ t, exec (.fltTake m ⟨false, false⟩) s = .next t ∧ ∃ x ∈ t.flt.restarts, x.part = r.part.getD 0)) ∧
  (∀ (s : State) (m : Master), regGate s false 20 0x20 m 1 = .pass → s.flt.comp.queue = [] → ∀ bad, exec (.fltTake m ⟨false, bad⟩) s = .next s) ∧
  (∀ (s : State) (m : Master) (r : FaultRec) (l1 l2 : List FaultRec), regGate s true 6 0x20 m 1 = .pass → s.flt.port.queue = l1 ++ r :: l2 →
    (∀ x ∈ l1, x.cls < r.cls) → (∀ x ∈ l2, x.cls ≤ r.cls) →
    exec (.fltTake m ⟨true, false⟩) s = .next { s with flt := { s.flt with port := { s.flt.port with queue := l1 ++ l2, recd := some r } } }) ∧
  (∀ (s : State) (m : Master) (port : Bool), regGate s port (if port then 6 else 20) 0x20 m 1 = .pass → s.flt.restarting = false →
    (if port then s.flt.port.queue else s.flt.comp.queue) ≠ [] → ∃ t, exec (.fltTake m ⟨port, true⟩) s = .next t ∧ t.flt.safe = true ∧
      t.flt.faultN = true ∧ t.flt.restartDue = true ∧ getF t F.HIF_DEVSTAT_BOOT = 3 ∧ rdByte t.mem saveArea = 1) ∧
  (∀ (s : State) (m : Master), (regGate s true 6 0x20 m 2 = .pass → exec (.fltDone m true) s = .next s) ∧
    (regGate s true 6 0x20 m 3 = .pass → exec (.fltKick m true) s = .next s) ∧
    (regGate s true 6 0x20 m 4 = .pass → exec (.fltRestart m true) s = .next s)) ∧
  (∀ (s : State) (m : Master), regGate s false 20 0x20 m 2 = .pass → s.flt.interrupted = false → s.hif.paused = [] →
    ∃ t, exec (.fltDone m false) s = .next t ∧ t.flt.handling = s.flt.handling.tail ∧ t.flt.comp = s.flt.comp ∧
      (t.flt.interrupted = true ↔ ∃ r ∈ s.flt.comp.queue, handlingCode t < r.cls + 1) ∧ { t with flt := s.flt } = s) ∧
  (∀ (s : State) (m : Master), regGate s false 20 0x20 m 3 = .pass →
    (∀ n w, s.flt.watch = (true, n) :: w → exec (.fltKick m false) s =
      .next { s with flt := { s.flt with watch := (true, s.timeC + getF s (F.FLT_CTL_WD false) * 100000) :: w } }) ∧
    ((∀ x ∈ s.flt.watch, x.1 = false) → exec (.fltKick m false) s = .next s)) ∧
  (∀ (s : State) (m : Master), regGate s false 20 0x20 m 4 = .pass →
    (s.flt.held = true → exec (.fltRestart m false) s = .next s) ∧
    (s.flt.held = false → exec (.fltRestart m false) s = .next { s with flt := { s.flt with restartDue := true } })) ∧
  (∀ (s u : State) (t : Nat), u = atComp t s → ((∀ w ∈ u.flt.watch, u.timeC ≤ w.2) → exec (.watchdogExpiry t) s = .next u) ∧
    (∀ w, w ∈ u.flt.watch → w.2 < u.timeC → u.flt.restarting = false → ∃ v, exec (.watchdogExpiry t) s = .next v ∧ v.flt.safe = true ∧
      v.flt.faultN = true ∧ v.flt.restartDue = true ∧ v.flt.watch = [] ∧ getF v F.HIF_DEVSTAT_BOOT = 3 ∧ rdByte v.mem saveArea = 1)) ∧
  (∀ (s : State), (s.flt.pair0Reset = true → exec .rtLockstep s = .next s) ∧
    (s.flt.pair0Reset = false → s.flt.comp.queue.length < 32 → ∃ t r, exec .rtLockstep s = .next t ∧ t.flt.pair0Reset = true ∧ t.flt.takeover = true ∧
      t.flt.comp.queue = s.flt.comp.queue ++ [r] ∧ r.code = 0x0105 ∧ r.cls = 2 ∧ r.part = some 0 ∧ t.qm = s.qm ∧ t.hx = s.hx))

/-- REGISTER_WRITE (registerWrite) always answers a next state. A write that passes its gate, of a register without a command of its
own, reaches its block; one of a register with a command of its own has that command's effect; the handler's access adds to it
only where it raises a fault. CRD_TIMEOUT, an RW-D field of a disabled credit unit, takes the value, 0 as 1, and nothing else
changes; while the unit is enabled, a write that would change it changes it not, sets CFG_IGNORED in the block's EVT and in
CRD_STAT and is logged with reason 1, and a write of the value it holds changes nothing. One write of CRD_CTL that sets ENABLE
takes the interval with it; one that clears ENABLE clears it and leaves the interval. Any 1 written to MAP_STAT.CORRECTED clears
it and 0 leaves it. A master outside a register's reach sets GUARD_DROP and is logged with reason 2; a reserved bit sets
RSVD_WRITE and is logged with reason 3; neither changes another kind of state. A register of a domain that is off is
unreachable, and so is an unused block; in the windows in which no access goes out, and at an empty slot of the header, nothing
happens. -/
def Obligations.RegistersTakeTheirWrites : Prop :=
  (∀ (s : State) (m : Master) (p : Bool) (b o : Nat) (v : BitVec 32) (x : Found), blockIs p b = true → o < 0x10000 →
    (if p then portOwn b o m v.toNat x else compOwn b o m v.toNat) = none → regGate s p b o m v.toNat = .pass →
    exec (.registerWrite m p b o v x) s = .next (handlerFault m s (plainWrite p b o m v.toNat s))) ∧
  (∀ (s : State) (m : Master) (p : Bool) (b o : Nat) (v : BitVec 32) (x : Found) (f : State → State), blockIs p b = true → o < 0x10000 →
    (if p then portOwn b o m v.toNat x else compOwn b o m v.toNat) = some f → exec (.registerWrite m p b o v x) s = .next (handlerFault m s (f s))) ∧
  (∀ (s s' : State) (m : Master), (m.code ≠ 9 ∨ s.flt.handling = [] ∨ s'.flt.comp.seq = s.flt.comp.seq) → handlerFault m s s' = s') ∧
  (∀ (s : State) (m : Master) (v : BitVec 32) (x : Found), regGate s false 5 0x20 m v.toNat = .pass →
    (isSet s F.CRD_CTL_ENABLE = false → ∃ t, exec (.registerWrite m false 5 0x20 v x) s = .next t ∧ getF t F.CRD_TIMEOUT_US = max 1 (v.toNat % 65536) ∧
      (∀ y : Fld, y.key ≠ F.CRD_TIMEOUT_US.key → getF t y = getF s y) ∧ { t with regs := s.regs } = s) ∧
    (isSet s F.CRD_CTL_ENABLE = true → getF s F.CRD_TIMEOUT_US ≠ max 1 (v.toNat % 65536) →
      ∃ t e, exec (.registerWrite m false 5 0x20 v x) s = .next t ∧ getF t F.CRD_TIMEOUT_US = getF s F.CRD_TIMEOUT_US ∧
        getF t (F.BLK_EVT_CFG_IGNORED false 5) = 1 ∧ getF t F.CRD_STAT_CFG_IGNORED = 1 ∧ tabGet t.rlog s.rlogHead none = some e ∧ e.reason = 1 ∧
        e.addr = 0x2000050020 ∧ e.master = m.code ∧ e.part = m.part ∧ { t with regs := s.regs, rlog := s.rlog, rlogHead := s.rlogHead } = s) ∧
    (isSet s F.CRD_CTL_ENABLE = true → getF s F.CRD_TIMEOUT_US = max 1 (v.toNat % 65536) → exec (.registerWrite m false 5 0x20 v x) s = .next s)) ∧
  (∀ (s : State) (m : Master) (v : BitVec 32) (x : Found), regGate s false 5 0x10 m v.toNat = .pass →
    (isSet s F.CRD_CTL_ENABLE = false → ∃ t, exec (.registerWrite m false 5 0x10 v x) s = .next t ∧ getF t F.CRD_CTL_ENABLE = v.toNat % 2 ∧
      getF t F.CRD_CTL_SCRUB_INTERVAL = v.toNat / 256 % 256 ∧ { t with regs := s.regs } = s) ∧
    (isSet s F.CRD_CTL_ENABLE = true → ∃ t, exec (.registerWrite m false 5 0x10 v x) s = .next t ∧ getF t F.CRD_CTL_ENABLE = v.toNat % 2 ∧
      getF t F.CRD_CTL_SCRUB_INTERVAL = getF s F.CRD_CTL_SCRUB_INTERVAL ∧
      (getF s F.CRD_CTL_SCRUB_INTERVAL ≠ v.toNat / 256 % 256 → getF t (F.BLK_EVT_CFG_IGNORED false 5) = 1) ∧
      { t with regs := s.regs, rlog := s.rlog, rlogHead := s.rlogHead } = s)) ∧
  (∀ (s : State) (m : Master) (v : BitVec 32) (x : Found), regGate s false 4 0x14 m v.toNat = .pass →
    ∃ t, exec (.registerWrite m false 4 0x14 v x) s = .next t ∧
      (v.toNat / 65536 ≠ 0 → getF t F.MAP_STAT_CORRECTED = 0) ∧ (v.toNat / 65536 = 0 → getF t F.MAP_STAT_CORRECTED = getF s F.MAP_STAT_CORRECTED) ∧
      (v.toNat % 2 = 1 → getF t F.MAP_STAT_CFG_IGNORED = 0) ∧ (v.toNat % 2 = 0 → getF t F.MAP_STAT_CFG_IGNORED = getF s F.MAP_STAT_CFG_IGNORED) ∧
      { t with regs := s.regs } = s) ∧
  (∀ (s : State) (m : Master) (p : Bool) (b o : Nat) (v : BitVec 32) (x : Found), blockIs p b = true → o < 0x10000 →
    (if p then portOwn b o m v.toNat x else compOwn b o m v.toNat) = none → emptySlot p b o = false →
    heldBack s p m = false → (∀ d, regDomain p b o = some d → powered s d = true) →
    (regReach p b o m = false → ∃ t e, exec (.registerWrite m p b o v x) s = .next t ∧ getF t (F.BLK_EVT_GUARD_DROP p (evtBlock p b)) = 1 ∧
      tabGet t.rlog s.rlogHead none = some e ∧ e.reason = 2 ∧ e.addr = blkBase p b + o ∧ e.data = v.toNat ∧ e.master = m.code ∧
      { t with regs := s.regs, rlog := s.rlog, rlogHead := s.rlogHead } = s) ∧
    (∀ fl, regReach p b o m = true → fieldsAt p b o = some fl → rsvBits fl v.toNat = true →
      ∃ t e, exec (.registerWrite m p b o v x) s = .next t ∧ getF t (F.BLK_EVT_RSVD_WRITE p (evtBlock p b)) = 1 ∧
        tabGet t.rlog s.rlogHead none = some e ∧ e.reason = 3 ∧ e.addr = blkBase p b + o ∧ e.data = v.toNat ∧ e.master = m.code ∧
        { t with regs := s.regs, rlog := s.rlog, rlogHead := s.rlogHead } = s)) ∧
  (∀ (s : State) (m : Master) (p : Bool) (b o d : Nat) (v : BitVec 32) (x : Found), blockIs p b = true → o < 0x10000 →
    (if p then portOwn b o m v.toNat x else compOwn b o m v.toNat) = none → emptySlot p b o = false →
    heldBack s p m = false → regDomain p b o = some d → powered s d = false →
    exec (.registerWrite m p b o v x) s = .next (handlerFault m s (unreachable s m 1 (blkBase p b + o)))) ∧
  (∀ (s : State) (m : Master) (p : Bool) (b o : Nat) (v : BitVec 32) (x : Found), blockIs p b = false → o < 0x10000 →
    heldBack s p m = false → exec (.registerWrite m p b o v x) s = .next (handlerFault m s (unreachable s m 2 (blkBase p b + o)))) ∧
  (∀ (s : State) (m : Master) (p : Bool) (b o : Nat) (v : BitVec 32) (x : Found), o < 0x10000 →
    (if p then portOwn b o m v.toNat x else compOwn b o m v.toNat) = none → (heldBack s p m = true ∨ (blockIs p b = true ∧ emptySlot p b o = true)) →
    exec (.registerWrite m p b o v x) s = .next s)

/-- In a block of the map, at an offset below 64 KiB where neither a register nor an empty slot of the header stands, for a master
within reach of the block and with the block powered: a write is dropped and a read of four bytes returns zero with a normal
completion. Each sets UNASSIGNED in the block's EVT register and is logged with reason 4, with the address, the master and the
value written or 0. No fault is raised, and apart from that flag, the log and its counters, and what the read returns,
everything stays as it was. A write to a block index that the map leaves unused is unreachable with reason 2 (R36), and one to a
block in a domain that is off is unreachable with reason 1 (R29). -/
def Obligations.UnassignedOffsetsAreFlagged : Prop :=
  (∀ (s : State) (m : Master) (p : Bool) (b o : Nat) (v : BitVec 32) (x : Found), blockIs p b = true → o < 0x10000 → o % 4 = 0 →
    (if p then portOwn b o m v.toNat x else compOwn b o m v.toNat) = none → fieldsAt p b o = none → emptySlot p b o = false →
    heldBack s p m = false → (∀ d, regDomain p b o = some d → powered s d = true) → regReach p b o m = true →
    (∃ t e, exec (.registerWrite m p b o v x) s = .next t ∧ getF t (F.BLK_EVT_UNASSIGNED p (evtBlock p b)) = 1 ∧
      tabGet t.rlog s.rlogHead none = some e ∧ e.reason = 4 ∧ e.addr = blkBase p b + o ∧ e.data = v.toNat ∧ e.master = m.code ∧ e.part = m.part ∧
      t.flt = s.flt ∧ { t with regs := s.regs, rlog := s.rlog, rlogHead := s.rlogHead } = s ∧
      (∀ y : Fld, y.key ≠ (F.BLK_EVT_UNASSIGNED p (evtBlock p b)).key → y.key ≠ F.RLOG_STAT_WRAPPED.key → y.key ≠ F.RLOG_STAT_COUNT.key →
        getF t y = getF s y)) ∧
    (∃ t e, exec (.memoryAccess m none (blkBase p b + o) 4 none x) s = .next t ∧ t.rd = [0, 0, 0, 0] ∧ t.rdErr = false ∧
      getF t (F.BLK_EVT_UNASSIGNED p (evtBlock p b)) = 1 ∧ tabGet t.rlog s.rlogHead none = some e ∧ e.reason = 4 ∧ e.addr = blkBase p b + o ∧
      e.data = 0 ∧ e.master = m.code ∧ e.part = m.part ∧ t.flt = s.flt ∧
      { t with regs := s.regs, rlog := s.rlog, rlogHead := s.rlogHead, rd := s.rd, rdErr := s.rdErr } = s)) ∧
  (∀ (s : State) (m : Master) (p : Bool) (b o : Nat) (v : BitVec 32) (x : Found), blockIs p b = false → o < 0x10000 →
    heldBack s p m = false → exec (.registerWrite m p b o v x) s = .next (handlerFault m s (unreachable s m 2 (blkBase p b + o)))) ∧
  (∀ (s : State) (m : Master) (p : Bool) (b o d : Nat) (v : BitVec 32) (x : Found), blockIs p b = true → o < 0x10000 → emptySlot p b o = false →
    (if p then portOwn b o m v.toNat x else compOwn b o m v.toNat) = none → heldBack s p m = false →
    regDomain p b o = some d → powered s d = false →
    exec (.registerWrite m p b o v x) s = .next (handlerFault m s (unreachable s m 1 (blkBase p b + o))))

/-- Raising a fault of a class on a die forms its record with the tick, the die's time and the die's next count. With fewer than 32
records queued it goes to the end of the die's queue and nothing is lost. In a full queue a new advisory or correctable record
is dropped; a new contained or device record displaces the youngest advisory or correctable record, and is dropped where there
is none. Each dropped or displaced record sets FAULT_LOST and counts in LOST_COUNT, up to 0xFFFF. The other die's queue stays as
it was, unless the fault makes Emino hold the die. A record on the compute die interrupts the handler where its class plus 1
exceeds HANDLING and no triage holds it. -/
def Obligations.FaultQueuesKeepTheirOrder : Prop :=
  (∀ (s : State) (port : Bool) (code cls block item : Nat) (part : Option Nat) (detail : List Nat) (r : FaultRec), r = mkRec s port code cls part block item detail →
    r.code = code ∧ r.cls = cls ∧ r.part = part ∧ r.port = port ∧ r.tick = s.tick.num ∧ r.time = dieTime s port ∧ r.seq = (fltDie s port).seq ∧ r.double = false ∧
    (∀ t : State, t = raise s port code cls part block item detail → (fltDie t (!port)).queue = (fltDie s (!port)).queue ∧
      (fltDie t port).seq = ((fltDie s port).seq + 1) % 2 ^ 32 ∧
      ((fltDie s port).queue.length < 32 → (fltDie t port).queue = (fltDie s port).queue ++ [r] ∧
        getF t (F.FLT_STAT_FAULT_LOST port) = getF s (F.FLT_STAT_FAULT_LOST port) ∧ getF t (F.FLT_STAT_LOST_COUNT port) = getF s (F.FLT_STAT_LOST_COUNT port)) ∧
      (32 ≤ (fltDie s port).queue.length → getF t (F.FLT_STAT_FAULT_LOST port) = 1 ∧
        getF t (F.FLT_STAT_LOST_COUNT port) = min (getF s (F.FLT_STAT_LOST_COUNT port) + 1) 65535) ∧
      (32 ≤ (fltDie s port).queue.length → cls ≤ 1 → (fltDie t port).queue = (fltDie s port).queue) ∧
      (∀ l1 x l2, 32 ≤ (fltDie s port).queue.length → 2 ≤ cls → (fltDie s port).queue = l1 ++ x :: l2 → x.cls ≤ 1 → (∀ y ∈ l2, 2 ≤ y.cls) →
        (fltDie t port).queue = l1 ++ l2 ++ [r]) ∧
      (32 ≤ (fltDie s port).queue.length → 2 ≤ cls → (∀ y ∈ (fltDie s port).queue, 2 ≤ y.cls) → (fltDie t port).queue = (fltDie s port).queue) ∧
      (port = false → s.hif.paused = [] → getF s F.HIF_TRIAGE_PART = 0 → (fltDie s port).queue.length < 32 → s.flt.interrupted = false → handlingCode s < cls + 1 →
        t.flt.interrupted = true)))

/-- From every state in which both fault units hold at most 32 records, whatever command is at the front, a step that gives a next
state gives one in which both hold at most 32 records: the depth that R484 gives each die's queue. -/
def Obligations.EveryStepKeepsTheFaultQueues : Prop :=
  ∀ s t : State, s.faultsOk → step s = .next t → t.faultsOk

/-- From every state whose memory lists its bytes by strictly rising address and lists no zero byte, whatever command is at the
front, a step that gives a next state gives one whose memory does so: equal memories stay equal data. -/
def Obligations.EveryStepKeepsMemoryCanonical : Prop :=
  ∀ s t : State, s.memOk → step s = .next t → t.memOk

/-- A step of a state whose queue has a command at its front is that command carried out on the state with the queue's rest. On an
empty queue the block idles and the state stays as it was; this is the model's choice (log entry 1). Every command gives a next
state, in every state and whatever its operands: none ends in a fault or a refusal. -/
def Obligations.StepRunsTheFrontCommand : Prop :=
  (∀ (s : State) (c : Instr) (rest : List Instr), s.pending = c :: rest → step s = exec c { s with pending := rest }) ∧
  (∀ (s : State), s.pending = [] → step s = .next s) ∧
  (∀ (c : Instr) (s : State), ∃ t, exec c s = .next t)

/-- At reset every register field reads the reset value that the model gives it, which is the table's where the table gives one (the
fused values are those of log entry 3); no byte of memory is other than 0 (for DRAM the model's choice, log entry 4); every
engine is idle, no queue is bound, no window is open, no fault is queued and none is being handled, no tick runs and no plan is
held, no command waits, and FAULT_N is not driven. Memory is in its canonical form and the fault queues are within their depth. -/
def Obligations.ResetLeavesTheBlockAtRest : Prop :=
  (∀ x : Fld, getF State.reset x = x.reset) ∧ (∀ a, rdByte State.reset.mem a = 0) ∧ (∀ e, (getE State.reset e).st = .idle) ∧
  (∀ q, qBound (getQ State.reset q) = false) ∧ (∀ t w, (getW State.reset t w).st = .closed) ∧ State.reset.flt.comp.queue = [] ∧ State.reset.flt.port.queue = [] ∧
  State.reset.flt.handling = [] ∧ State.reset.tick.running = false ∧ State.reset.tick.plans = [] ∧ State.reset.pending = [] ∧
  State.reset.flt.faultN = false ∧ State.reset.memOk ∧ State.reset.faultsOk
end

