-- ==== Sys2Proof/Laws/Issue.lean ====
section
/-! SUPPORT. What the issue of a control word does, said once: its refusals in the order of R171 and R194, its wait, and its act. -/

namespace Sys2Proof.Machine

/-- A word that is ready, with no reason of its own, does what its payload does. -/
theorem issue_ready (s : State) (e : Nat) (w : BitVec 256) (bad : List Nat) (act : State → Eff) (h : ready s e w = true)
    (hb : bad = []) : issue s e w bad act = match act s with
      | .act s3 => finishWord s3 e w (getE s e)
      | .stopped s3 => s3
      | .hold s3 => setE s3 e { getE s3 e with st := .held, cur := (getE s e).pc }
      | .stay s3 => setE s3 e { getE s3 e with cur := (getE s e).pc } := by
  subst hb
  simp only [ready, Bool.and_eq_true, Bool.not_eq_true', beq_iff_eq, Option.isNone_iff_eq_none, List.isEmpty_iff] at h
  obtain ⟨⟨⟨⟨⟨⟨h1, h2⟩, h3⟩, h4⟩, h5⟩, h6⟩, h7⟩ := h
  have hB : ¬ (wLoopOp w = 1 ∧ beginBad (getE s e) w = true) := by
    intro hh
    simp [hh.1, hh.2] at h7
  simp only [issue, h1, h2, h3, h4, h5, List.append_nil, lowest, List.foldl_nil, takeCairn, h6]
  simp [hB] <;> (cases act s <;> rfl)

/-- A word that is ready and whose payload gives reasons raises HXR_ILLEGAL with the lowest of them (R194). -/
theorem issue_illegal (s : State) (e : Nat) (w : BitVec 256) (bad : List Nat) (act : State → Eff) (r : Nat) (h : ready s e w = true)
    (hb : lowest bad = some r) : issue s e w bad act = hxrFault s e 0x0130 r := by
  simp only [ready, Bool.and_eq_true, Bool.not_eq_true', beq_iff_eq, Option.isNone_iff_eq_none, List.isEmpty_iff] at h
  obtain ⟨⟨⟨⟨⟨⟨h1, h2⟩, h3⟩, h4⟩, h5⟩, h6⟩, h7⟩ := h
  simp [issue, h1, h2, h3, h4, h5, hb]

end Sys2Proof.Machine
end

