-- ==== Sys2Proof/Laws/Memory.lean ====
section
/-! SUPPORT. The memory's canonical form is kept by every operation that writes it: a write, the loss of a range, the reset memory. -/

namespace Sys2Proof.Machine

/-- The canonical form as a pairwise order and a condition on each byte. -/
theorem rising_iff (l : List Nat) : rising l = true ↔ l.Pairwise (· < ·) := by
  induction l with
  | nil => simp [rising]
  | cons a l ih =>
    cases l with
    | nil => simp [rising]
    | cons b r =>
      simp only [rising, Bool.and_eq_true, decide_eq_true_eq, ih, List.pairwise_cons]
      constructor
      · rintro ⟨h1, h2, h3⟩
        refine ⟨fun c hc => ?_, h2, h3⟩
        rcases List.mem_cons.mp hc with rfl | hc
        · exact h1
        · exact Nat.lt_trans h1 (h2 c hc)
      · rintro ⟨h1, h2, h3⟩
        exact ⟨h1 b (by simp), h2, h3⟩

theorem memWf_iff (m : Mem) : memWf m = true ↔ m.Pairwise (fun x y => x.1 < y.1) ∧ ∀ x ∈ m, x.2 ≠ 0 := by
  simp [memWf, rising_iff, List.pairwise_map]

/-- The cells of a byte string stand in its range, in order, and none is zero. -/
theorem cells_spec (bs : Bytes) : ∀ a, (cells a bs).Pairwise (fun x y => x.1 < y.1) ∧
    ∀ x ∈ cells a bs, x.2 ≠ 0 ∧ a ≤ x.1 ∧ x.1 < a + bs.length := by
  induction bs with
  | nil => intro a; simp [cells]
  | cons b bs ih =>
    intro a
    obtain ⟨h1, h2⟩ := ih (a + 1)
    simp only [cells]
    split
    · refine ⟨h1, fun x hx => ?_⟩
      obtain ⟨g1, g2, g3⟩ := h2 x hx
      exact ⟨g1, by omega, by simp; omega⟩
    · rename_i hb
      refine ⟨List.pairwise_cons.mpr ⟨fun x hx => ?_, h1⟩, fun x hx => ?_⟩
      · have := (h2 x hx).2.1
        show a < x.1
        omega
      · rcases List.mem_cons.mp hx with rfl | hx
        · exact ⟨hb, by simp, by simp⟩
        · obtain ⟨g1, g2, g3⟩ := h2 x hx
          exact ⟨g1, by omega, by simp; omega⟩

/-- A write keeps the canonical form. -/
theorem memWf_memWrite (m : Mem) (a : Nat) (bs : Bytes) (h : memWf m = true) : memWf (memWrite m a bs) = true := by
  rw [memWf_iff] at h ⊢
  obtain ⟨h1, h2⟩ := h
  obtain ⟨c1, c2⟩ := cells_spec bs a
  constructor
  · simp only [memWrite, List.append_assoc, List.pairwise_append]
    refine ⟨h1.filter _, ⟨c1, h1.filter _, ?_⟩, ?_⟩
    · intro x hx y hy
      have := (c2 x hx).2.2
      simp at hy
      omega
    · intro x hx y hy
      simp at hx hy
      rcases hy with hy | hy
      · have := (c2 y hy).2.1; omega
      · omega
  · intro x hx
    simp [memWrite] at hx
    rcases hx with hx | hx | hx
    · exact h2 x hx.1
    · exact (c2 x hx).1
    · exact h2 x hx.1

/-- The loss of a range keeps it. -/
theorem memWf_tabDrop (m : Mem) (a n : Nat) (h : memWf m = true) : memWf (tabDrop m a n) = true := by
  rw [memWf_iff] at h ⊢
  obtain ⟨h1, h2⟩ := h
  constructor
  · simp only [tabDrop, List.pairwise_append]
    refine ⟨h1.filter _, h1.filter _, ?_⟩
    intro x hx y hy
    simp at hx hy
    omega
  · intro x hx
    simp [tabDrop] at hx
    rcases hx with hx | hx <;> exact h2 x hx.1

/-- The memory after reset has it. -/
theorem memWf_reset : memWf State.reset.mem = true := rfl

/-- A byte string laid into empty memory reads back. -/
theorem rdByte_cells (bs : Bytes) : ∀ a i, i < bs.length → rdByte (cells a bs) (a + i) = nth bs i 0 := by
  induction bs with
  | nil => intro a i h; simp at h
  | cons b bs ih =>
    intro a i h
    cases i with
    | zero =>
      by_cases hb : b = 0
      · subst hb
        have : (cells (a + 1) bs).find? (fun x => x.1 == a) = none := by
          rw [List.find?_eq_none]
          intro x hx
          have := ((cells_spec bs (a + 1)).2 x hx).2.1
          simp; omega
        simp [cells, rdByte, tabGet, nth, this]
      · simp only [cells, if_neg hb]; simp [rdByte, tabGet, nth]
    | succ i =>
      have := ih (a + 1) i (by simpa using h)
      have e : a + (i + 1) = a + 1 + i := by omega
      by_cases hb : b = 0
      · simp only [cells, hb, if_true, e, this]; simp [nth]
      · have hne : (a == a + 1 + i) = false := by simp; omega
        simp only [cells, hb, if_false, e]
        simp only [rdByte, tabGet, List.find?_cons, hne] at this ⊢
        rw [this]; simp [nth]

/-- A read of what was laid into empty memory. -/
theorem memRead_laid (a : Nat) (bs : Bytes) : memRead (memWrite [] a bs) a bs.length = bs := by
  apply List.ext_getElem (by simp [memRead])
  intro i h1 h2
  have := rdByte_cells bs a i h2
  simp [memRead, memWrite, this, nth, h2]

end Sys2Proof.Machine
end

