-- ==== Sys2Proof/Laws/Tab.lean ====
section
/-! SUPPORT. Finite tables: what a key reads after a put or a drop, whatever the table's order. -/

namespace Sys2Proof.Machine

/-- A list searched for a key that none of its entries has. -/
theorem find_key_none {α : Type} (t : Tab α) (k : Nat) (h : ∀ x ∈ t, x.1 ≠ k) : t.find? (fun x => x.1 == k) = none := by
  rw [List.find?_eq_none]
  intro x hx
  simpa using h x hx

/-- A search for a key passes over a filter that keeps the key's entries. -/
theorem find_key_filter {α : Type} (t : Tab α) (k : Nat) (p : Nat × α → Bool) (h : ∀ x : Nat × α, x.1 = k → p x = true) :
    (t.filter p).find? (fun x => x.1 == k) = t.find? (fun x => x.1 == k) := by
  induction t with
  | nil => rfl
  | cons x t ih =>
    by_cases hx : x.1 = k
    · simp [h x hx, hx]
    · cases hp : p x <;> simp [hp, hx, ih]

/-- A search for a key in a filter that drops its entries. -/
theorem find_key_dropped {α : Type} (t : Tab α) (k : Nat) (p : Nat × α → Bool) (h : ∀ x : Nat × α, x.1 = k → p x = false) :
    (t.filter p).find? (fun x => x.1 == k) = none := by
  apply find_key_none
  intro x hx hk
  have := (List.mem_filter.mp hx).2
  rw [h x hk] at this
  cases this

/-- A key reads what was put at it. -/
@[simp] theorem tabGet_tabPut_same {α : Type} [DecidableEq α] (t : Tab α) (k : Nat) (v d : α) : tabGet (tabPut t k v d) k d = v := by
  have h1 := find_key_dropped t k (fun x => decide (x.1 < k)) (fun x hx => by simp [hx])
  have h2 := find_key_dropped t k (fun x => decide (k < x.1)) (fun x hx => by simp [hx])
  unfold tabGet tabPut
  by_cases hv : v = d
  · simp [List.find?_append, h1, h2, hv]
  · simp [List.find?_append, h1, hv]

/-- Another key reads as before. -/
theorem tabGet_tabPut_ne {α : Type} [DecidableEq α] (t : Tab α) (k j : Nat) (v d e : α) (h : j ≠ k) : tabGet (tabPut t k v d) j e = tabGet t j e := by
  have hm : (if v = d then [] else [(k, v)] : Tab α).find? (fun x => x.1 == j) = none := by
    apply find_key_none
    intro x hx
    split at hx <;> simp at hx
    subst hx
    exact fun hk => h hk.symm
  unfold tabGet tabPut
  rcases Nat.lt_or_gt_of_ne h with hl | hl
  · have h1 := find_key_filter t j (fun x => decide (x.1 < k)) (fun x hx => by simp [hx, hl])
    have h2 := find_key_dropped t j (fun x => decide (k < x.1)) (fun x hx => by simp [hx]; omega)
    simp [List.find?_append, h1, h2, hm]
  · have h1 := find_key_dropped t j (fun x => decide (x.1 < k)) (fun x hx => by simp [hx]; omega)
    have h2 := find_key_filter t j (fun x => decide (k < x.1)) (fun x hx => by simp [hx, hl])
    simp [List.find?_append, h1, h2, hm]

/-- A key of a range that was dropped reads as an unlisted one. -/
theorem tabGet_tabDrop_in {α : Type} (t : Tab α) (lo n k : Nat) (d : α) (h : lo ≤ k ∧ k < lo + n) : tabGet (tabDrop t lo n) k d = d := by
  have h1 := find_key_dropped t k (fun x => decide (x.1 < lo)) (fun x hx => by simp [hx]; omega)
  have h2 := find_key_dropped t k (fun x => decide (lo + n ≤ x.1)) (fun x hx => by simp [hx]; omega)
  simp [tabGet, tabDrop, List.find?_append, h1, h2]

/-- A key outside it reads as before. -/
theorem tabGet_tabDrop_out {α : Type} (t : Tab α) (lo n k : Nat) (d : α) (h : k < lo ∨ lo + n ≤ k) : tabGet (tabDrop t lo n) k d = tabGet t k d := by
  unfold tabGet tabDrop
  rcases h with h | h
  · have h1 := find_key_filter t k (fun x => decide (x.1 < lo)) (fun x hx => by simp [hx, h])
    have h2 := find_key_dropped t k (fun x => decide (lo + n ≤ x.1)) (fun x hx => by simp [hx]; omega)
    simp [List.find?_append, h1, h2]
  · by_cases hk : k < lo
    · have h1 := find_key_filter t k (fun x => decide (x.1 < lo)) (fun x hx => by simp [hx, hk])
      have h2 := find_key_filter t k (fun x => decide (lo + n ≤ x.1)) (fun x hx => by simp [hx, h])
      simp [List.find?_append, h1, h2]
    · have h1 := find_key_dropped t k (fun x => decide (x.1 < lo)) (fun x hx => by simp [hx]; omega)
      have h2 := find_key_filter t k (fun x => decide (lo + n ≤ x.1)) (fun x hx => by simp [hx, h])
      simp [List.find?_append, h1, h2]

end Sys2Proof.Machine
end

