-- ==== Sys2Proof/Laws/State.lean ====
section
/-! SUPPORT. What the named updates of State leave as it was, one lemma for each field, and what a field reads after them. -/

namespace Sys2Proof.Machine

@[simp] theorem setF_pending (s : State) (x : Fld) (v : Nat) : (setF s x v).pending = s.pending := rfl
@[simp] theorem setF_free (s : State) (x : Fld) (v : Nat) : (setF s x v).free = s.free := rfl
@[simp] theorem setF_timeP (s : State) (x : Fld) (v : Nat) : (setF s x v).timeP = s.timeP := rfl
@[simp] theorem setF_timeC (s : State) (x : Fld) (v : Nat) : (setF s x v).timeC = s.timeC := rfl
@[simp] theorem setF_mem (s : State) (x : Fld) (v : Nat) : (setF s x v).mem = s.mem := rfl
@[simp] theorem setF_rd (s : State) (x : Fld) (v : Nat) : (setF s x v).rd = s.rd := rfl
@[simp] theorem setF_rdErr (s : State) (x : Fld) (v : Nat) : (setF s x v).rdErr = s.rdErr := rfl
@[simp] theorem setF_rlogHead (s : State) (x : Fld) (v : Nat) : (setF s x v).rlogHead = s.rlogHead := rfl
@[simp] theorem setF_rlog (s : State) (x : Fld) (v : Nat) : (setF s x v).rlog = s.rlog := rfl
@[simp] theorem setF_flt (s : State) (x : Fld) (v : Nat) : (setF s x v).flt = s.flt := rfl
@[simp] theorem setF_cwy (s : State) (x : Fld) (v : Nat) : (setF s x v).cwy = s.cwy := rfl
@[simp] theorem setF_pwr (s : State) (x : Fld) (v : Nat) : (setF s x v).pwr = s.pwr := rfl
@[simp] theorem setF_hx (s : State) (x : Fld) (v : Nat) : (setF s x v).hx = s.hx := rfl
@[simp] theorem setF_qm (s : State) (x : Fld) (v : Nat) : (setF s x v).qm = s.qm := rfl
@[simp] theorem setF_tick (s : State) (x : Fld) (v : Nat) : (setF s x v).tick = s.tick := rfl
@[simp] theorem setF_crd (s : State) (x : Fld) (v : Nat) : (setF s x v).crd = s.crd := rfl
@[simp] theorem setF_mapu (s : State) (x : Fld) (v : Nat) : (setF s x v).mapu = s.mapu := rfl
@[simp] theorem setF_parts (s : State) (x : Fld) (v : Nat) : (setF s x v).parts = s.parts := rfl
@[simp] theorem setF_sec (s : State) (x : Fld) (v : Nat) : (setF s x v).sec = s.sec := rfl
@[simp] theorem setF_fuse (s : State) (x : Fld) (v : Nat) : (setF s x v).fuse = s.fuse := rfl
@[simp] theorem setF_arr (s : State) (x : Fld) (v : Nat) : (setF s x v).arr = s.arr := rfl
@[simp] theorem setF_drn (s : State) (x : Fld) (v : Nat) : (setF s x v).drn = s.drn := rfl
@[simp] theorem setF_drc (s : State) (x : Fld) (v : Nat) : (setF s x v).drc = s.drc := rfl
@[simp] theorem setF_dma (s : State) (x : Fld) (v : Nat) : (setF s x v).dma = s.dma := rfl
@[simp] theorem setF_bootPort (s : State) (x : Fld) (v : Nat) : (setF s x v).bootPort = s.bootPort := rfl
@[simp] theorem setF_fp (s : State) (x : Fld) (v : Nat) : (setF s x v).fp = s.fp := rfl
@[simp] theorem setF_sch (s : State) (x : Fld) (v : Nat) : (setF s x v).sch = s.sch := rfl
@[simp] theorem setF_cam (s : State) (x : Fld) (v : Nat) : (setF s x v).cam = s.cam := rfl
@[simp] theorem setF_isp (s : State) (x : Fld) (v : Nat) : (setF s x v).isp = s.isp := rfl
@[simp] theorem setF_vis (s : State) (x : Fld) (v : Nat) : (setF s x v).vis = s.vis := rfl
@[simp] theorem setF_cdc (s : State) (x : Fld) (v : Nat) : (setF s x v).cdc = s.cdc := rfl
@[simp] theorem setF_net (s : State) (x : Fld) (v : Nat) : (setF s x v).net = s.net := rfl
@[simp] theorem setF_hif (s : State) (x : Fld) (v : Nat) : (setF s x v).hif = s.hif := rfl
@[simp] theorem setF_kiln (s : State) (x : Fld) (v : Nat) : (setF s x v).kiln = s.kiln := rfl
@[simp] theorem setF_emn (s : State) (x : Fld) (v : Nat) : (setF s x v).emn = s.emn := rfl
@[simp] theorem setF_pins (s : State) (x : Fld) (v : Nat) : (setF s x v).pins = s.pins := rfl
@[simp] theorem setF_bufs (s : State) (x : Fld) (v : Nat) : (setF s x v).bufs = s.bufs := rfl

@[simp] theorem bump_pending (s : State) (x : Fld) (n : Nat) : (bump s x n).pending = s.pending := rfl
@[simp] theorem bump_free (s : State) (x : Fld) (n : Nat) : (bump s x n).free = s.free := rfl
@[simp] theorem bump_timeP (s : State) (x : Fld) (n : Nat) : (bump s x n).timeP = s.timeP := rfl
@[simp] theorem bump_timeC (s : State) (x : Fld) (n : Nat) : (bump s x n).timeC = s.timeC := rfl
@[simp] theorem bump_mem (s : State) (x : Fld) (n : Nat) : (bump s x n).mem = s.mem := rfl
@[simp] theorem bump_rd (s : State) (x : Fld) (n : Nat) : (bump s x n).rd = s.rd := rfl
@[simp] theorem bump_rdErr (s : State) (x : Fld) (n : Nat) : (bump s x n).rdErr = s.rdErr := rfl
@[simp] theorem bump_rlogHead (s : State) (x : Fld) (n : Nat) : (bump s x n).rlogHead = s.rlogHead := rfl
@[simp] theorem bump_rlog (s : State) (x : Fld) (n : Nat) : (bump s x n).rlog = s.rlog := rfl
@[simp] theorem bump_flt (s : State) (x : Fld) (n : Nat) : (bump s x n).flt = s.flt := rfl
@[simp] theorem bump_cwy (s : State) (x : Fld) (n : Nat) : (bump s x n).cwy = s.cwy := rfl
@[simp] theorem bump_pwr (s : State) (x : Fld) (n : Nat) : (bump s x n).pwr = s.pwr := rfl
@[simp] theorem bump_hx (s : State) (x : Fld) (n : Nat) : (bump s x n).hx = s.hx := rfl
@[simp] theorem bump_qm (s : State) (x : Fld) (n : Nat) : (bump s x n).qm = s.qm := rfl
@[simp] theorem bump_tick (s : State) (x : Fld) (n : Nat) : (bump s x n).tick = s.tick := rfl
@[simp] theorem bump_crd (s : State) (x : Fld) (n : Nat) : (bump s x n).crd = s.crd := rfl
@[simp] theorem bump_mapu (s : State) (x : Fld) (n : Nat) : (bump s x n).mapu = s.mapu := rfl
@[simp] theorem bump_parts (s : State) (x : Fld) (n : Nat) : (bump s x n).parts = s.parts := rfl
@[simp] theorem bump_sec (s : State) (x : Fld) (n : Nat) : (bump s x n).sec = s.sec := rfl
@[simp] theorem bump_fuse (s : State) (x : Fld) (n : Nat) : (bump s x n).fuse = s.fuse := rfl
@[simp] theorem bump_arr (s : State) (x : Fld) (n : Nat) : (bump s x n).arr = s.arr := rfl
@[simp] theorem bump_drn (s : State) (x : Fld) (n : Nat) : (bump s x n).drn = s.drn := rfl
@[simp] theorem bump_drc (s : State) (x : Fld) (n : Nat) : (bump s x n).drc = s.drc := rfl
@[simp] theorem bump_dma (s : State) (x : Fld) (n : Nat) : (bump s x n).dma = s.dma := rfl
@[simp] theorem bump_bootPort (s : State) (x : Fld) (n : Nat) : (bump s x n).bootPort = s.bootPort := rfl
@[simp] theorem bump_fp (s : State) (x : Fld) (n : Nat) : (bump s x n).fp = s.fp := rfl
@[simp] theorem bump_sch (s : State) (x : Fld) (n : Nat) : (bump s x n).sch = s.sch := rfl
@[simp] theorem bump_cam (s : State) (x : Fld) (n : Nat) : (bump s x n).cam = s.cam := rfl
@[simp] theorem bump_isp (s : State) (x : Fld) (n : Nat) : (bump s x n).isp = s.isp := rfl
@[simp] theorem bump_vis (s : State) (x : Fld) (n : Nat) : (bump s x n).vis = s.vis := rfl
@[simp] theorem bump_cdc (s : State) (x : Fld) (n : Nat) : (bump s x n).cdc = s.cdc := rfl
@[simp] theorem bump_net (s : State) (x : Fld) (n : Nat) : (bump s x n).net = s.net := rfl
@[simp] theorem bump_hif (s : State) (x : Fld) (n : Nat) : (bump s x n).hif = s.hif := rfl
@[simp] theorem bump_kiln (s : State) (x : Fld) (n : Nat) : (bump s x n).kiln = s.kiln := rfl
@[simp] theorem bump_emn (s : State) (x : Fld) (n : Nat) : (bump s x n).emn = s.emn := rfl
@[simp] theorem bump_pins (s : State) (x : Fld) (n : Nat) : (bump s x n).pins = s.pins := rfl
@[simp] theorem bump_bufs (s : State) (x : Fld) (n : Nat) : (bump s x n).bufs = s.bufs := rfl

@[simp] theorem setQ_pending (s : State) (q : Nat) (v : Queue) : (setQ s q v).pending = s.pending := rfl
@[simp] theorem setQ_free (s : State) (q : Nat) (v : Queue) : (setQ s q v).free = s.free := rfl
@[simp] theorem setQ_timeP (s : State) (q : Nat) (v : Queue) : (setQ s q v).timeP = s.timeP := rfl
@[simp] theorem setQ_timeC (s : State) (q : Nat) (v : Queue) : (setQ s q v).timeC = s.timeC := rfl
@[simp] theorem setQ_mem (s : State) (q : Nat) (v : Queue) : (setQ s q v).mem = s.mem := rfl
@[simp] theorem setQ_regs (s : State) (q : Nat) (v : Queue) : (setQ s q v).regs = s.regs := rfl
@[simp] theorem setQ_rd (s : State) (q : Nat) (v : Queue) : (setQ s q v).rd = s.rd := rfl
@[simp] theorem setQ_rdErr (s : State) (q : Nat) (v : Queue) : (setQ s q v).rdErr = s.rdErr := rfl
@[simp] theorem setQ_rlogHead (s : State) (q : Nat) (v : Queue) : (setQ s q v).rlogHead = s.rlogHead := rfl
@[simp] theorem setQ_rlog (s : State) (q : Nat) (v : Queue) : (setQ s q v).rlog = s.rlog := rfl
@[simp] theorem setQ_flt (s : State) (q : Nat) (v : Queue) : (setQ s q v).flt = s.flt := rfl
@[simp] theorem setQ_cwy (s : State) (q : Nat) (v : Queue) : (setQ s q v).cwy = s.cwy := rfl
@[simp] theorem setQ_pwr (s : State) (q : Nat) (v : Queue) : (setQ s q v).pwr = s.pwr := rfl
@[simp] theorem setQ_hx (s : State) (q : Nat) (v : Queue) : (setQ s q v).hx = s.hx := rfl
@[simp] theorem setQ_tick (s : State) (q : Nat) (v : Queue) : (setQ s q v).tick = s.tick := rfl
@[simp] theorem setQ_crd (s : State) (q : Nat) (v : Queue) : (setQ s q v).crd = s.crd := rfl
@[simp] theorem setQ_mapu (s : State) (q : Nat) (v : Queue) : (setQ s q v).mapu = s.mapu := rfl
@[simp] theorem setQ_parts (s : State) (q : Nat) (v : Queue) : (setQ s q v).parts = s.parts := rfl
@[simp] theorem setQ_sec (s : State) (q : Nat) (v : Queue) : (setQ s q v).sec = s.sec := rfl
@[simp] theorem setQ_fuse (s : State) (q : Nat) (v : Queue) : (setQ s q v).fuse = s.fuse := rfl
@[simp] theorem setQ_arr (s : State) (q : Nat) (v : Queue) : (setQ s q v).arr = s.arr := rfl
@[simp] theorem setQ_drn (s : State) (q : Nat) (v : Queue) : (setQ s q v).drn = s.drn := rfl
@[simp] theorem setQ_drc (s : State) (q : Nat) (v : Queue) : (setQ s q v).drc = s.drc := rfl
@[simp] theorem setQ_dma (s : State) (q : Nat) (v : Queue) : (setQ s q v).dma = s.dma := rfl
@[simp] theorem setQ_bootPort (s : State) (q : Nat) (v : Queue) : (setQ s q v).bootPort = s.bootPort := rfl
@[simp] theorem setQ_fp (s : State) (q : Nat) (v : Queue) : (setQ s q v).fp = s.fp := rfl
@[simp] theorem setQ_sch (s : State) (q : Nat) (v : Queue) : (setQ s q v).sch = s.sch := rfl
@[simp] theorem setQ_cam (s : State) (q : Nat) (v : Queue) : (setQ s q v).cam = s.cam := rfl
@[simp] theorem setQ_isp (s : State) (q : Nat) (v : Queue) : (setQ s q v).isp = s.isp := rfl
@[simp] theorem setQ_vis (s : State) (q : Nat) (v : Queue) : (setQ s q v).vis = s.vis := rfl
@[simp] theorem setQ_cdc (s : State) (q : Nat) (v : Queue) : (setQ s q v).cdc = s.cdc := rfl
@[simp] theorem setQ_net (s : State) (q : Nat) (v : Queue) : (setQ s q v).net = s.net := rfl
@[simp] theorem setQ_hif (s : State) (q : Nat) (v : Queue) : (setQ s q v).hif = s.hif := rfl
@[simp] theorem setQ_kiln (s : State) (q : Nat) (v : Queue) : (setQ s q v).kiln = s.kiln := rfl
@[simp] theorem setQ_emn (s : State) (q : Nat) (v : Queue) : (setQ s q v).emn = s.emn := rfl
@[simp] theorem setQ_pins (s : State) (q : Nat) (v : Queue) : (setQ s q v).pins = s.pins := rfl
@[simp] theorem setQ_bufs (s : State) (q : Nat) (v : Queue) : (setQ s q v).bufs = s.bufs := rfl

@[simp] theorem setE_pending (s : State) (e : Nat) (v : Engine) : (setE s e v).pending = s.pending := rfl
@[simp] theorem setE_free (s : State) (e : Nat) (v : Engine) : (setE s e v).free = s.free := rfl
@[simp] theorem setE_timeP (s : State) (e : Nat) (v : Engine) : (setE s e v).timeP = s.timeP := rfl
@[simp] theorem setE_timeC (s : State) (e : Nat) (v : Engine) : (setE s e v).timeC = s.timeC := rfl
@[simp] theorem setE_mem (s : State) (e : Nat) (v : Engine) : (setE s e v).mem = s.mem := rfl
@[simp] theorem setE_regs (s : State) (e : Nat) (v : Engine) : (setE s e v).regs = s.regs := rfl
@[simp] theorem setE_rd (s : State) (e : Nat) (v : Engine) : (setE s e v).rd = s.rd := rfl
@[simp] theorem setE_rdErr (s : State) (e : Nat) (v : Engine) : (setE s e v).rdErr = s.rdErr := rfl
@[simp] theorem setE_rlogHead (s : State) (e : Nat) (v : Engine) : (setE s e v).rlogHead = s.rlogHead := rfl
@[simp] theorem setE_rlog (s : State) (e : Nat) (v : Engine) : (setE s e v).rlog = s.rlog := rfl
@[simp] theorem setE_flt (s : State) (e : Nat) (v : Engine) : (setE s e v).flt = s.flt := rfl
@[simp] theorem setE_cwy (s : State) (e : Nat) (v : Engine) : (setE s e v).cwy = s.cwy := rfl
@[simp] theorem setE_pwr (s : State) (e : Nat) (v : Engine) : (setE s e v).pwr = s.pwr := rfl
@[simp] theorem setE_qm (s : State) (e : Nat) (v : Engine) : (setE s e v).qm = s.qm := rfl
@[simp] theorem setE_tick (s : State) (e : Nat) (v : Engine) : (setE s e v).tick = s.tick := rfl
@[simp] theorem setE_crd (s : State) (e : Nat) (v : Engine) : (setE s e v).crd = s.crd := rfl
@[simp] theorem setE_mapu (s : State) (e : Nat) (v : Engine) : (setE s e v).mapu = s.mapu := rfl
@[simp] theorem setE_parts (s : State) (e : Nat) (v : Engine) : (setE s e v).parts = s.parts := rfl
@[simp] theorem setE_sec (s : State) (e : Nat) (v : Engine) : (setE s e v).sec = s.sec := rfl
@[simp] theorem setE_fuse (s : State) (e : Nat) (v : Engine) : (setE s e v).fuse = s.fuse := rfl
@[simp] theorem setE_arr (s : State) (e : Nat) (v : Engine) : (setE s e v).arr = s.arr := rfl
@[simp] theorem setE_drn (s : State) (e : Nat) (v : Engine) : (setE s e v).drn = s.drn := rfl
@[simp] theorem setE_drc (s : State) (e : Nat) (v : Engine) : (setE s e v).drc = s.drc := rfl
@[simp] theorem setE_dma (s : State) (e : Nat) (v : Engine) : (setE s e v).dma = s.dma := rfl
@[simp] theorem setE_bootPort (s : State) (e : Nat) (v : Engine) : (setE s e v).bootPort = s.bootPort := rfl
@[simp] theorem setE_fp (s : State) (e : Nat) (v : Engine) : (setE s e v).fp = s.fp := rfl
@[simp] theorem setE_sch (s : State) (e : Nat) (v : Engine) : (setE s e v).sch = s.sch := rfl
@[simp] theorem setE_cam (s : State) (e : Nat) (v : Engine) : (setE s e v).cam = s.cam := rfl
@[simp] theorem setE_isp (s : State) (e : Nat) (v : Engine) : (setE s e v).isp = s.isp := rfl
@[simp] theorem setE_vis (s : State) (e : Nat) (v : Engine) : (setE s e v).vis = s.vis := rfl
@[simp] theorem setE_cdc (s : State) (e : Nat) (v : Engine) : (setE s e v).cdc = s.cdc := rfl
@[simp] theorem setE_net (s : State) (e : Nat) (v : Engine) : (setE s e v).net = s.net := rfl
@[simp] theorem setE_hif (s : State) (e : Nat) (v : Engine) : (setE s e v).hif = s.hif := rfl
@[simp] theorem setE_kiln (s : State) (e : Nat) (v : Engine) : (setE s e v).kiln = s.kiln := rfl
@[simp] theorem setE_emn (s : State) (e : Nat) (v : Engine) : (setE s e v).emn = s.emn := rfl
@[simp] theorem setE_pins (s : State) (e : Nat) (v : Engine) : (setE s e v).pins = s.pins := rfl
@[simp] theorem setE_bufs (s : State) (e : Nat) (v : Engine) : (setE s e v).bufs = s.bufs := rfl

@[simp] theorem setP_pending (s : State) (p : Nat) (x : Part) : (setP s p x).pending = s.pending := rfl
@[simp] theorem setP_free (s : State) (p : Nat) (x : Part) : (setP s p x).free = s.free := rfl
@[simp] theorem setP_timeP (s : State) (p : Nat) (x : Part) : (setP s p x).timeP = s.timeP := rfl
@[simp] theorem setP_timeC (s : State) (p : Nat) (x : Part) : (setP s p x).timeC = s.timeC := rfl
@[simp] theorem setP_mem (s : State) (p : Nat) (x : Part) : (setP s p x).mem = s.mem := rfl
@[simp] theorem setP_regs (s : State) (p : Nat) (x : Part) : (setP s p x).regs = s.regs := rfl
@[simp] theorem setP_rd (s : State) (p : Nat) (x : Part) : (setP s p x).rd = s.rd := rfl
@[simp] theorem setP_rdErr (s : State) (p : Nat) (x : Part) : (setP s p x).rdErr = s.rdErr := rfl
@[simp] theorem setP_rlogHead (s : State) (p : Nat) (x : Part) : (setP s p x).rlogHead = s.rlogHead := rfl
@[simp] theorem setP_rlog (s : State) (p : Nat) (x : Part) : (setP s p x).rlog = s.rlog := rfl
@[simp] theorem setP_flt (s : State) (p : Nat) (x : Part) : (setP s p x).flt = s.flt := rfl
@[simp] theorem setP_cwy (s : State) (p : Nat) (x : Part) : (setP s p x).cwy = s.cwy := rfl
@[simp] theorem setP_pwr (s : State) (p : Nat) (x : Part) : (setP s p x).pwr = s.pwr := rfl
@[simp] theorem setP_hx (s : State) (p : Nat) (x : Part) : (setP s p x).hx = s.hx := rfl
@[simp] theorem setP_qm (s : State) (p : Nat) (x : Part) : (setP s p x).qm = s.qm := rfl
@[simp] theorem setP_tick (s : State) (p : Nat) (x : Part) : (setP s p x).tick = s.tick := rfl
@[simp] theorem setP_crd (s : State) (p : Nat) (x : Part) : (setP s p x).crd = s.crd := rfl
@[simp] theorem setP_mapu (s : State) (p : Nat) (x : Part) : (setP s p x).mapu = s.mapu := rfl
@[simp] theorem setP_sec (s : State) (p : Nat) (x : Part) : (setP s p x).sec = s.sec := rfl
@[simp] theorem setP_fuse (s : State) (p : Nat) (x : Part) : (setP s p x).fuse = s.fuse := rfl
@[simp] theorem setP_arr (s : State) (p : Nat) (x : Part) : (setP s p x).arr = s.arr := rfl
@[simp] theorem setP_drn (s : State) (p : Nat) (x : Part) : (setP s p x).drn = s.drn := rfl
@[simp] theorem setP_drc (s : State) (p : Nat) (x : Part) : (setP s p x).drc = s.drc := rfl
@[simp] theorem setP_dma (s : State) (p : Nat) (x : Part) : (setP s p x).dma = s.dma := rfl
@[simp] theorem setP_bootPort (s : State) (p : Nat) (x : Part) : (setP s p x).bootPort = s.bootPort := rfl
@[simp] theorem setP_fp (s : State) (p : Nat) (x : Part) : (setP s p x).fp = s.fp := rfl
@[simp] theorem setP_sch (s : State) (p : Nat) (x : Part) : (setP s p x).sch = s.sch := rfl
@[simp] theorem setP_cam (s : State) (p : Nat) (x : Part) : (setP s p x).cam = s.cam := rfl
@[simp] theorem setP_isp (s : State) (p : Nat) (x : Part) : (setP s p x).isp = s.isp := rfl
@[simp] theorem setP_vis (s : State) (p : Nat) (x : Part) : (setP s p x).vis = s.vis := rfl
@[simp] theorem setP_cdc (s : State) (p : Nat) (x : Part) : (setP s p x).cdc = s.cdc := rfl
@[simp] theorem setP_net (s : State) (p : Nat) (x : Part) : (setP s p x).net = s.net := rfl
@[simp] theorem setP_hif (s : State) (p : Nat) (x : Part) : (setP s p x).hif = s.hif := rfl
@[simp] theorem setP_kiln (s : State) (p : Nat) (x : Part) : (setP s p x).kiln = s.kiln := rfl
@[simp] theorem setP_emn (s : State) (p : Nat) (x : Part) : (setP s p x).emn = s.emn := rfl
@[simp] theorem setP_pins (s : State) (p : Nat) (x : Part) : (setP s p x).pins = s.pins := rfl
@[simp] theorem setP_bufs (s : State) (p : Nat) (x : Part) : (setP s p x).bufs = s.bufs := rfl

@[simp] theorem setW_pending (s : State) (t w : Nat) (x : Window) : (setW s t w x).pending = s.pending := rfl
@[simp] theorem setW_free (s : State) (t w : Nat) (x : Window) : (setW s t w x).free = s.free := rfl
@[simp] theorem setW_timeP (s : State) (t w : Nat) (x : Window) : (setW s t w x).timeP = s.timeP := rfl
@[simp] theorem setW_timeC (s : State) (t w : Nat) (x : Window) : (setW s t w x).timeC = s.timeC := rfl
@[simp] theorem setW_mem (s : State) (t w : Nat) (x : Window) : (setW s t w x).mem = s.mem := rfl
@[simp] theorem setW_regs (s : State) (t w : Nat) (x : Window) : (setW s t w x).regs = s.regs := rfl
@[simp] theorem setW_rd (s : State) (t w : Nat) (x : Window) : (setW s t w x).rd = s.rd := rfl
@[simp] theorem setW_rdErr (s : State) (t w : Nat) (x : Window) : (setW s t w x).rdErr = s.rdErr := rfl
@[simp] theorem setW_rlogHead (s : State) (t w : Nat) (x : Window) : (setW s t w x).rlogHead = s.rlogHead := rfl
@[simp] theorem setW_rlog (s : State) (t w : Nat) (x : Window) : (setW s t w x).rlog = s.rlog := rfl
@[simp] theorem setW_flt (s : State) (t w : Nat) (x : Window) : (setW s t w x).flt = s.flt := rfl
@[simp] theorem setW_cwy (s : State) (t w : Nat) (x : Window) : (setW s t w x).cwy = s.cwy := rfl
@[simp] theorem setW_pwr (s : State) (t w : Nat) (x : Window) : (setW s t w x).pwr = s.pwr := rfl
@[simp] theorem setW_hx (s : State) (t w : Nat) (x : Window) : (setW s t w x).hx = s.hx := rfl
@[simp] theorem setW_qm (s : State) (t w : Nat) (x : Window) : (setW s t w x).qm = s.qm := rfl
@[simp] theorem setW_tick (s : State) (t w : Nat) (x : Window) : (setW s t w x).tick = s.tick := rfl
@[simp] theorem setW_mapu (s : State) (t w : Nat) (x : Window) : (setW s t w x).mapu = s.mapu := rfl
@[simp] theorem setW_parts (s : State) (t w : Nat) (x : Window) : (setW s t w x).parts = s.parts := rfl
@[simp] theorem setW_sec (s : State) (t w : Nat) (x : Window) : (setW s t w x).sec = s.sec := rfl
@[simp] theorem setW_fuse (s : State) (t w : Nat) (x : Window) : (setW s t w x).fuse = s.fuse := rfl
@[simp] theorem setW_arr (s : State) (t w : Nat) (x : Window) : (setW s t w x).arr = s.arr := rfl
@[simp] theorem setW_drn (s : State) (t w : Nat) (x : Window) : (setW s t w x).drn = s.drn := rfl
@[simp] theorem setW_drc (s : State) (t w : Nat) (x : Window) : (setW s t w x).drc = s.drc := rfl
@[simp] theorem setW_dma (s : State) (t w : Nat) (x : Window) : (setW s t w x).dma = s.dma := rfl
@[simp] theorem setW_bootPort (s : State) (t w : Nat) (x : Window) : (setW s t w x).bootPort = s.bootPort := rfl
@[simp] theorem setW_fp (s : State) (t w : Nat) (x : Window) : (setW s t w x).fp = s.fp := rfl
@[simp] theorem setW_sch (s : State) (t w : Nat) (x : Window) : (setW s t w x).sch = s.sch := rfl
@[simp] theorem setW_cam (s : State) (t w : Nat) (x : Window) : (setW s t w x).cam = s.cam := rfl
@[simp] theorem setW_isp (s : State) (t w : Nat) (x : Window) : (setW s t w x).isp = s.isp := rfl
@[simp] theorem setW_vis (s : State) (t w : Nat) (x : Window) : (setW s t w x).vis = s.vis := rfl
@[simp] theorem setW_cdc (s : State) (t w : Nat) (x : Window) : (setW s t w x).cdc = s.cdc := rfl
@[simp] theorem setW_net (s : State) (t w : Nat) (x : Window) : (setW s t w x).net = s.net := rfl
@[simp] theorem setW_hif (s : State) (t w : Nat) (x : Window) : (setW s t w x).hif = s.hif := rfl
@[simp] theorem setW_kiln (s : State) (t w : Nat) (x : Window) : (setW s t w x).kiln = s.kiln := rfl
@[simp] theorem setW_emn (s : State) (t w : Nat) (x : Window) : (setW s t w x).emn = s.emn := rfl
@[simp] theorem setW_pins (s : State) (t w : Nat) (x : Window) : (setW s t w x).pins = s.pins := rfl
@[simp] theorem setW_bufs (s : State) (t w : Nat) (x : Window) : (setW s t w x).bufs = s.bufs := rfl

@[simp] theorem setD_pending (s : State) (e : Nat) (x : DmaEng) : (setD s e x).pending = s.pending := rfl
@[simp] theorem setD_free (s : State) (e : Nat) (x : DmaEng) : (setD s e x).free = s.free := rfl
@[simp] theorem setD_timeP (s : State) (e : Nat) (x : DmaEng) : (setD s e x).timeP = s.timeP := rfl
@[simp] theorem setD_timeC (s : State) (e : Nat) (x : DmaEng) : (setD s e x).timeC = s.timeC := rfl
@[simp] theorem setD_mem (s : State) (e : Nat) (x : DmaEng) : (setD s e x).mem = s.mem := rfl
@[simp] theorem setD_regs (s : State) (e : Nat) (x : DmaEng) : (setD s e x).regs = s.regs := rfl
@[simp] theorem setD_rd (s : State) (e : Nat) (x : DmaEng) : (setD s e x).rd = s.rd := rfl
@[simp] theorem setD_rdErr (s : State) (e : Nat) (x : DmaEng) : (setD s e x).rdErr = s.rdErr := rfl
@[simp] theorem setD_rlogHead (s : State) (e : Nat) (x : DmaEng) : (setD s e x).rlogHead = s.rlogHead := rfl
@[simp] theorem setD_rlog (s : State) (e : Nat) (x : DmaEng) : (setD s e x).rlog = s.rlog := rfl
@[simp] theorem setD_flt (s : State) (e : Nat) (x : DmaEng) : (setD s e x).flt = s.flt := rfl
@[simp] theorem setD_cwy (s : State) (e : Nat) (x : DmaEng) : (setD s e x).cwy = s.cwy := rfl
@[simp] theorem setD_pwr (s : State) (e : Nat) (x : DmaEng) : (setD s e x).pwr = s.pwr := rfl
@[simp] theorem setD_hx (s : State) (e : Nat) (x : DmaEng) : (setD s e x).hx = s.hx := rfl
@[simp] theorem setD_qm (s : State) (e : Nat) (x : DmaEng) : (setD s e x).qm = s.qm := rfl
@[simp] theorem setD_tick (s : State) (e : Nat) (x : DmaEng) : (setD s e x).tick = s.tick := rfl
@[simp] theorem setD_crd (s : State) (e : Nat) (x : DmaEng) : (setD s e x).crd = s.crd := rfl
@[simp] theorem setD_mapu (s : State) (e : Nat) (x : DmaEng) : (setD s e x).mapu = s.mapu := rfl
@[simp] theorem setD_parts (s : State) (e : Nat) (x : DmaEng) : (setD s e x).parts = s.parts := rfl
@[simp] theorem setD_sec (s : State) (e : Nat) (x : DmaEng) : (setD s e x).sec = s.sec := rfl
@[simp] theorem setD_fuse (s : State) (e : Nat) (x : DmaEng) : (setD s e x).fuse = s.fuse := rfl
@[simp] theorem setD_arr (s : State) (e : Nat) (x : DmaEng) : (setD s e x).arr = s.arr := rfl
@[simp] theorem setD_drn (s : State) (e : Nat) (x : DmaEng) : (setD s e x).drn = s.drn := rfl
@[simp] theorem setD_drc (s : State) (e : Nat) (x : DmaEng) : (setD s e x).drc = s.drc := rfl
@[simp] theorem setD_bootPort (s : State) (e : Nat) (x : DmaEng) : (setD s e x).bootPort = s.bootPort := rfl
@[simp] theorem setD_fp (s : State) (e : Nat) (x : DmaEng) : (setD s e x).fp = s.fp := rfl
@[simp] theorem setD_sch (s : State) (e : Nat) (x : DmaEng) : (setD s e x).sch = s.sch := rfl
@[simp] theorem setD_cam (s : State) (e : Nat) (x : DmaEng) : (setD s e x).cam = s.cam := rfl
@[simp] theorem setD_isp (s : State) (e : Nat) (x : DmaEng) : (setD s e x).isp = s.isp := rfl
@[simp] theorem setD_vis (s : State) (e : Nat) (x : DmaEng) : (setD s e x).vis = s.vis := rfl
@[simp] theorem setD_cdc (s : State) (e : Nat) (x : DmaEng) : (setD s e x).cdc = s.cdc := rfl
@[simp] theorem setD_net (s : State) (e : Nat) (x : DmaEng) : (setD s e x).net = s.net := rfl
@[simp] theorem setD_hif (s : State) (e : Nat) (x : DmaEng) : (setD s e x).hif = s.hif := rfl
@[simp] theorem setD_kiln (s : State) (e : Nat) (x : DmaEng) : (setD s e x).kiln = s.kiln := rfl
@[simp] theorem setD_emn (s : State) (e : Nat) (x : DmaEng) : (setD s e x).emn = s.emn := rfl
@[simp] theorem setD_pins (s : State) (e : Nat) (x : DmaEng) : (setD s e x).pins = s.pins := rfl
@[simp] theorem setD_bufs (s : State) (e : Nat) (x : DmaEng) : (setD s e x).bufs = s.bufs := rfl

@[simp] theorem setRing_pending (s : State) (g n : Nat) (r : Ring) : (setRing s g n r).pending = s.pending := rfl
@[simp] theorem setRing_free (s : State) (g n : Nat) (r : Ring) : (setRing s g n r).free = s.free := rfl
@[simp] theorem setRing_timeP (s : State) (g n : Nat) (r : Ring) : (setRing s g n r).timeP = s.timeP := rfl
@[simp] theorem setRing_timeC (s : State) (g n : Nat) (r : Ring) : (setRing s g n r).timeC = s.timeC := rfl
@[simp] theorem setRing_mem (s : State) (g n : Nat) (r : Ring) : (setRing s g n r).mem = s.mem := rfl
@[simp] theorem setRing_regs (s : State) (g n : Nat) (r : Ring) : (setRing s g n r).regs = s.regs := rfl
@[simp] theorem setRing_rd (s : State) (g n : Nat) (r : Ring) : (setRing s g n r).rd = s.rd := rfl
@[simp] theorem setRing_rdErr (s : State) (g n : Nat) (r : Ring) : (setRing s g n r).rdErr = s.rdErr := rfl
@[simp] theorem setRing_rlogHead (s : State) (g n : Nat) (r : Ring) : (setRing s g n r).rlogHead = s.rlogHead := rfl
@[simp] theorem setRing_rlog (s : State) (g n : Nat) (r : Ring) : (setRing s g n r).rlog = s.rlog := rfl
@[simp] theorem setRing_flt (s : State) (g n : Nat) (r : Ring) : (setRing s g n r).flt = s.flt := rfl
@[simp] theorem setRing_cwy (s : State) (g n : Nat) (r : Ring) : (setRing s g n r).cwy = s.cwy := rfl
@[simp] theorem setRing_pwr (s : State) (g n : Nat) (r : Ring) : (setRing s g n r).pwr = s.pwr := rfl
@[simp] theorem setRing_hx (s : State) (g n : Nat) (r : Ring) : (setRing s g n r).hx = s.hx := rfl
@[simp] theorem setRing_qm (s : State) (g n : Nat) (r : Ring) : (setRing s g n r).qm = s.qm := rfl
@[simp] theorem setRing_tick (s : State) (g n : Nat) (r : Ring) : (setRing s g n r).tick = s.tick := rfl
@[simp] theorem setRing_crd (s : State) (g n : Nat) (r : Ring) : (setRing s g n r).crd = s.crd := rfl
@[simp] theorem setRing_mapu (s : State) (g n : Nat) (r : Ring) : (setRing s g n r).mapu = s.mapu := rfl
@[simp] theorem setRing_parts (s : State) (g n : Nat) (r : Ring) : (setRing s g n r).parts = s.parts := rfl
@[simp] theorem setRing_sec (s : State) (g n : Nat) (r : Ring) : (setRing s g n r).sec = s.sec := rfl
@[simp] theorem setRing_fuse (s : State) (g n : Nat) (r : Ring) : (setRing s g n r).fuse = s.fuse := rfl
@[simp] theorem setRing_arr (s : State) (g n : Nat) (r : Ring) : (setRing s g n r).arr = s.arr := rfl
@[simp] theorem setRing_drn (s : State) (g n : Nat) (r : Ring) : (setRing s g n r).drn = s.drn := rfl
@[simp] theorem setRing_drc (s : State) (g n : Nat) (r : Ring) : (setRing s g n r).drc = s.drc := rfl
@[simp] theorem setRing_dma (s : State) (g n : Nat) (r : Ring) : (setRing s g n r).dma = s.dma := rfl
@[simp] theorem setRing_bootPort (s : State) (g n : Nat) (r : Ring) : (setRing s g n r).bootPort = s.bootPort := rfl
@[simp] theorem setRing_fp (s : State) (g n : Nat) (r : Ring) : (setRing s g n r).fp = s.fp := rfl
@[simp] theorem setRing_sch (s : State) (g n : Nat) (r : Ring) : (setRing s g n r).sch = s.sch := rfl
@[simp] theorem setRing_cam (s : State) (g n : Nat) (r : Ring) : (setRing s g n r).cam = s.cam := rfl
@[simp] theorem setRing_isp (s : State) (g n : Nat) (r : Ring) : (setRing s g n r).isp = s.isp := rfl
@[simp] theorem setRing_vis (s : State) (g n : Nat) (r : Ring) : (setRing s g n r).vis = s.vis := rfl
@[simp] theorem setRing_cdc (s : State) (g n : Nat) (r : Ring) : (setRing s g n r).cdc = s.cdc := rfl
@[simp] theorem setRing_net (s : State) (g n : Nat) (r : Ring) : (setRing s g n r).net = s.net := rfl
@[simp] theorem setRing_kiln (s : State) (g n : Nat) (r : Ring) : (setRing s g n r).kiln = s.kiln := rfl
@[simp] theorem setRing_emn (s : State) (g n : Nat) (r : Ring) : (setRing s g n r).emn = s.emn := rfl
@[simp] theorem setRing_pins (s : State) (g n : Nat) (r : Ring) : (setRing s g n r).pins = s.pins := rfl
@[simp] theorem setRing_bufs (s : State) (g n : Nat) (r : Ring) : (setRing s g n r).bufs = s.bufs := rfl

@[simp] theorem setNet_pending (s : State) (n : Net) : (setNet s n).pending = s.pending := rfl
@[simp] theorem setNet_free (s : State) (n : Net) : (setNet s n).free = s.free := rfl
@[simp] theorem setNet_timeP (s : State) (n : Net) : (setNet s n).timeP = s.timeP := rfl
@[simp] theorem setNet_timeC (s : State) (n : Net) : (setNet s n).timeC = s.timeC := rfl
@[simp] theorem setNet_mem (s : State) (n : Net) : (setNet s n).mem = s.mem := rfl
@[simp] theorem setNet_regs (s : State) (n : Net) : (setNet s n).regs = s.regs := rfl
@[simp] theorem setNet_rd (s : State) (n : Net) : (setNet s n).rd = s.rd := rfl
@[simp] theorem setNet_rdErr (s : State) (n : Net) : (setNet s n).rdErr = s.rdErr := rfl
@[simp] theorem setNet_rlogHead (s : State) (n : Net) : (setNet s n).rlogHead = s.rlogHead := rfl
@[simp] theorem setNet_rlog (s : State) (n : Net) : (setNet s n).rlog = s.rlog := rfl
@[simp] theorem setNet_flt (s : State) (n : Net) : (setNet s n).flt = s.flt := rfl
@[simp] theorem setNet_cwy (s : State) (n : Net) : (setNet s n).cwy = s.cwy := rfl
@[simp] theorem setNet_pwr (s : State) (n : Net) : (setNet s n).pwr = s.pwr := rfl
@[simp] theorem setNet_hx (s : State) (n : Net) : (setNet s n).hx = s.hx := rfl
@[simp] theorem setNet_qm (s : State) (n : Net) : (setNet s n).qm = s.qm := rfl
@[simp] theorem setNet_tick (s : State) (n : Net) : (setNet s n).tick = s.tick := rfl
@[simp] theorem setNet_crd (s : State) (n : Net) : (setNet s n).crd = s.crd := rfl
@[simp] theorem setNet_mapu (s : State) (n : Net) : (setNet s n).mapu = s.mapu := rfl
@[simp] theorem setNet_parts (s : State) (n : Net) : (setNet s n).parts = s.parts := rfl
@[simp] theorem setNet_sec (s : State) (n : Net) : (setNet s n).sec = s.sec := rfl
@[simp] theorem setNet_fuse (s : State) (n : Net) : (setNet s n).fuse = s.fuse := rfl
@[simp] theorem setNet_arr (s : State) (n : Net) : (setNet s n).arr = s.arr := rfl
@[simp] theorem setNet_drn (s : State) (n : Net) : (setNet s n).drn = s.drn := rfl
@[simp] theorem setNet_drc (s : State) (n : Net) : (setNet s n).drc = s.drc := rfl
@[simp] theorem setNet_dma (s : State) (n : Net) : (setNet s n).dma = s.dma := rfl
@[simp] theorem setNet_bootPort (s : State) (n : Net) : (setNet s n).bootPort = s.bootPort := rfl
@[simp] theorem setNet_fp (s : State) (n : Net) : (setNet s n).fp = s.fp := rfl
@[simp] theorem setNet_sch (s : State) (n : Net) : (setNet s n).sch = s.sch := rfl
@[simp] theorem setNet_cam (s : State) (n : Net) : (setNet s n).cam = s.cam := rfl
@[simp] theorem setNet_isp (s : State) (n : Net) : (setNet s n).isp = s.isp := rfl
@[simp] theorem setNet_vis (s : State) (n : Net) : (setNet s n).vis = s.vis := rfl
@[simp] theorem setNet_cdc (s : State) (n : Net) : (setNet s n).cdc = s.cdc := rfl
@[simp] theorem setNet_hif (s : State) (n : Net) : (setNet s n).hif = s.hif := rfl
@[simp] theorem setNet_kiln (s : State) (n : Net) : (setNet s n).kiln = s.kiln := rfl
@[simp] theorem setNet_emn (s : State) (n : Net) : (setNet s n).emn = s.emn := rfl
@[simp] theorem setNet_pins (s : State) (n : Net) : (setNet s n).pins = s.pins := rfl
@[simp] theorem setNet_bufs (s : State) (n : Net) : (setNet s n).bufs = s.bufs := rfl

@[simp] theorem setKiln_pending (s : State) (k : Kiln) : (setKiln s k).pending = s.pending := rfl
@[simp] theorem setKiln_free (s : State) (k : Kiln) : (setKiln s k).free = s.free := rfl
@[simp] theorem setKiln_timeP (s : State) (k : Kiln) : (setKiln s k).timeP = s.timeP := rfl
@[simp] theorem setKiln_timeC (s : State) (k : Kiln) : (setKiln s k).timeC = s.timeC := rfl
@[simp] theorem setKiln_mem (s : State) (k : Kiln) : (setKiln s k).mem = s.mem := rfl
@[simp] theorem setKiln_regs (s : State) (k : Kiln) : (setKiln s k).regs = s.regs := rfl
@[simp] theorem setKiln_rd (s : State) (k : Kiln) : (setKiln s k).rd = s.rd := rfl
@[simp] theorem setKiln_rdErr (s : State) (k : Kiln) : (setKiln s k).rdErr = s.rdErr := rfl
@[simp] theorem setKiln_rlogHead (s : State) (k : Kiln) : (setKiln s k).rlogHead = s.rlogHead := rfl
@[simp] theorem setKiln_rlog (s : State) (k : Kiln) : (setKiln s k).rlog = s.rlog := rfl
@[simp] theorem setKiln_flt (s : State) (k : Kiln) : (setKiln s k).flt = s.flt := rfl
@[simp] theorem setKiln_cwy (s : State) (k : Kiln) : (setKiln s k).cwy = s.cwy := rfl
@[simp] theorem setKiln_pwr (s : State) (k : Kiln) : (setKiln s k).pwr = s.pwr := rfl
@[simp] theorem setKiln_hx (s : State) (k : Kiln) : (setKiln s k).hx = s.hx := rfl
@[simp] theorem setKiln_qm (s : State) (k : Kiln) : (setKiln s k).qm = s.qm := rfl
@[simp] theorem setKiln_tick (s : State) (k : Kiln) : (setKiln s k).tick = s.tick := rfl
@[simp] theorem setKiln_crd (s : State) (k : Kiln) : (setKiln s k).crd = s.crd := rfl
@[simp] theorem setKiln_mapu (s : State) (k : Kiln) : (setKiln s k).mapu = s.mapu := rfl
@[simp] theorem setKiln_parts (s : State) (k : Kiln) : (setKiln s k).parts = s.parts := rfl
@[simp] theorem setKiln_sec (s : State) (k : Kiln) : (setKiln s k).sec = s.sec := rfl
@[simp] theorem setKiln_fuse (s : State) (k : Kiln) : (setKiln s k).fuse = s.fuse := rfl
@[simp] theorem setKiln_arr (s : State) (k : Kiln) : (setKiln s k).arr = s.arr := rfl
@[simp] theorem setKiln_drn (s : State) (k : Kiln) : (setKiln s k).drn = s.drn := rfl
@[simp] theorem setKiln_drc (s : State) (k : Kiln) : (setKiln s k).drc = s.drc := rfl
@[simp] theorem setKiln_dma (s : State) (k : Kiln) : (setKiln s k).dma = s.dma := rfl
@[simp] theorem setKiln_bootPort (s : State) (k : Kiln) : (setKiln s k).bootPort = s.bootPort := rfl
@[simp] theorem setKiln_fp (s : State) (k : Kiln) : (setKiln s k).fp = s.fp := rfl
@[simp] theorem setKiln_sch (s : State) (k : Kiln) : (setKiln s k).sch = s.sch := rfl
@[simp] theorem setKiln_cam (s : State) (k : Kiln) : (setKiln s k).cam = s.cam := rfl
@[simp] theorem setKiln_isp (s : State) (k : Kiln) : (setKiln s k).isp = s.isp := rfl
@[simp] theorem setKiln_vis (s : State) (k : Kiln) : (setKiln s k).vis = s.vis := rfl
@[simp] theorem setKiln_cdc (s : State) (k : Kiln) : (setKiln s k).cdc = s.cdc := rfl
@[simp] theorem setKiln_net (s : State) (k : Kiln) : (setKiln s k).net = s.net := rfl
@[simp] theorem setKiln_hif (s : State) (k : Kiln) : (setKiln s k).hif = s.hif := rfl
@[simp] theorem setKiln_emn (s : State) (k : Kiln) : (setKiln s k).emn = s.emn := rfl
@[simp] theorem setKiln_pins (s : State) (k : Kiln) : (setKiln s k).pins = s.pins := rfl
@[simp] theorem setKiln_bufs (s : State) (k : Kiln) : (setKiln s k).bufs = s.bufs := rfl

@[simp] theorem drawn_pending (s : State) : (drawn s).pending = s.pending := rfl
@[simp] theorem drawn_timeP (s : State) : (drawn s).timeP = s.timeP := rfl
@[simp] theorem drawn_timeC (s : State) : (drawn s).timeC = s.timeC := rfl
@[simp] theorem drawn_mem (s : State) : (drawn s).mem = s.mem := rfl
@[simp] theorem drawn_regs (s : State) : (drawn s).regs = s.regs := rfl
@[simp] theorem drawn_rd (s : State) : (drawn s).rd = s.rd := rfl
@[simp] theorem drawn_rdErr (s : State) : (drawn s).rdErr = s.rdErr := rfl
@[simp] theorem drawn_rlogHead (s : State) : (drawn s).rlogHead = s.rlogHead := rfl
@[simp] theorem drawn_rlog (s : State) : (drawn s).rlog = s.rlog := rfl
@[simp] theorem drawn_flt (s : State) : (drawn s).flt = s.flt := rfl
@[simp] theorem drawn_cwy (s : State) : (drawn s).cwy = s.cwy := rfl
@[simp] theorem drawn_pwr (s : State) : (drawn s).pwr = s.pwr := rfl
@[simp] theorem drawn_hx (s : State) : (drawn s).hx = s.hx := rfl
@[simp] theorem drawn_qm (s : State) : (drawn s).qm = s.qm := rfl
@[simp] theorem drawn_tick (s : State) : (drawn s).tick = s.tick := rfl
@[simp] theorem drawn_crd (s : State) : (drawn s).crd = s.crd := rfl
@[simp] theorem drawn_mapu (s : State) : (drawn s).mapu = s.mapu := rfl
@[simp] theorem drawn_parts (s : State) : (drawn s).parts = s.parts := rfl
@[simp] theorem drawn_sec (s : State) : (drawn s).sec = s.sec := rfl
@[simp] theorem drawn_fuse (s : State) : (drawn s).fuse = s.fuse := rfl
@[simp] theorem drawn_arr (s : State) : (drawn s).arr = s.arr := rfl
@[simp] theorem drawn_drn (s : State) : (drawn s).drn = s.drn := rfl
@[simp] theorem drawn_drc (s : State) : (drawn s).drc = s.drc := rfl
@[simp] theorem drawn_dma (s : State) : (drawn s).dma = s.dma := rfl
@[simp] theorem drawn_bootPort (s : State) : (drawn s).bootPort = s.bootPort := rfl
@[simp] theorem drawn_fp (s : State) : (drawn s).fp = s.fp := rfl
@[simp] theorem drawn_sch (s : State) : (drawn s).sch = s.sch := rfl
@[simp] theorem drawn_cam (s : State) : (drawn s).cam = s.cam := rfl
@[simp] theorem drawn_isp (s : State) : (drawn s).isp = s.isp := rfl
@[simp] theorem drawn_vis (s : State) : (drawn s).vis = s.vis := rfl
@[simp] theorem drawn_cdc (s : State) : (drawn s).cdc = s.cdc := rfl
@[simp] theorem drawn_net (s : State) : (drawn s).net = s.net := rfl
@[simp] theorem drawn_hif (s : State) : (drawn s).hif = s.hif := rfl
@[simp] theorem drawn_kiln (s : State) : (drawn s).kiln = s.kiln := rfl
@[simp] theorem drawn_emn (s : State) : (drawn s).emn = s.emn := rfl
@[simp] theorem drawn_pins (s : State) : (drawn s).pins = s.pins := rfl
@[simp] theorem drawn_bufs (s : State) : (drawn s).bufs = s.bufs := rfl

@[simp] theorem setB_pending (s : State) (b : Nat) (x : Buf) : (setB s b x).pending = s.pending := rfl
@[simp] theorem setB_free (s : State) (b : Nat) (x : Buf) : (setB s b x).free = s.free := rfl
@[simp] theorem setB_timeP (s : State) (b : Nat) (x : Buf) : (setB s b x).timeP = s.timeP := rfl
@[simp] theorem setB_timeC (s : State) (b : Nat) (x : Buf) : (setB s b x).timeC = s.timeC := rfl
@[simp] theorem setB_mem (s : State) (b : Nat) (x : Buf) : (setB s b x).mem = s.mem := rfl
@[simp] theorem setB_regs (s : State) (b : Nat) (x : Buf) : (setB s b x).regs = s.regs := rfl
@[simp] theorem setB_rd (s : State) (b : Nat) (x : Buf) : (setB s b x).rd = s.rd := rfl
@[simp] theorem setB_rdErr (s : State) (b : Nat) (x : Buf) : (setB s b x).rdErr = s.rdErr := rfl
@[simp] theorem setB_rlogHead (s : State) (b : Nat) (x : Buf) : (setB s b x).rlogHead = s.rlogHead := rfl
@[simp] theorem setB_rlog (s : State) (b : Nat) (x : Buf) : (setB s b x).rlog = s.rlog := rfl
@[simp] theorem setB_flt (s : State) (b : Nat) (x : Buf) : (setB s b x).flt = s.flt := rfl
@[simp] theorem setB_cwy (s : State) (b : Nat) (x : Buf) : (setB s b x).cwy = s.cwy := rfl
@[simp] theorem setB_pwr (s : State) (b : Nat) (x : Buf) : (setB s b x).pwr = s.pwr := rfl
@[simp] theorem setB_hx (s : State) (b : Nat) (x : Buf) : (setB s b x).hx = s.hx := rfl
@[simp] theorem setB_qm (s : State) (b : Nat) (x : Buf) : (setB s b x).qm = s.qm := rfl
@[simp] theorem setB_tick (s : State) (b : Nat) (x : Buf) : (setB s b x).tick = s.tick := rfl
@[simp] theorem setB_crd (s : State) (b : Nat) (x : Buf) : (setB s b x).crd = s.crd := rfl
@[simp] theorem setB_mapu (s : State) (b : Nat) (x : Buf) : (setB s b x).mapu = s.mapu := rfl
@[simp] theorem setB_parts (s : State) (b : Nat) (x : Buf) : (setB s b x).parts = s.parts := rfl
@[simp] theorem setB_sec (s : State) (b : Nat) (x : Buf) : (setB s b x).sec = s.sec := rfl
@[simp] theorem setB_fuse (s : State) (b : Nat) (x : Buf) : (setB s b x).fuse = s.fuse := rfl
@[simp] theorem setB_arr (s : State) (b : Nat) (x : Buf) : (setB s b x).arr = s.arr := rfl
@[simp] theorem setB_drn (s : State) (b : Nat) (x : Buf) : (setB s b x).drn = s.drn := rfl
@[simp] theorem setB_drc (s : State) (b : Nat) (x : Buf) : (setB s b x).drc = s.drc := rfl
@[simp] theorem setB_dma (s : State) (b : Nat) (x : Buf) : (setB s b x).dma = s.dma := rfl
@[simp] theorem setB_bootPort (s : State) (b : Nat) (x : Buf) : (setB s b x).bootPort = s.bootPort := rfl
@[simp] theorem setB_fp (s : State) (b : Nat) (x : Buf) : (setB s b x).fp = s.fp := rfl
@[simp] theorem setB_sch (s : State) (b : Nat) (x : Buf) : (setB s b x).sch = s.sch := rfl
@[simp] theorem setB_cam (s : State) (b : Nat) (x : Buf) : (setB s b x).cam = s.cam := rfl
@[simp] theorem setB_isp (s : State) (b : Nat) (x : Buf) : (setB s b x).isp = s.isp := rfl
@[simp] theorem setB_vis (s : State) (b : Nat) (x : Buf) : (setB s b x).vis = s.vis := rfl
@[simp] theorem setB_cdc (s : State) (b : Nat) (x : Buf) : (setB s b x).cdc = s.cdc := rfl
@[simp] theorem setB_net (s : State) (b : Nat) (x : Buf) : (setB s b x).net = s.net := rfl
@[simp] theorem setB_hif (s : State) (b : Nat) (x : Buf) : (setB s b x).hif = s.hif := rfl
@[simp] theorem setB_kiln (s : State) (b : Nat) (x : Buf) : (setB s b x).kiln = s.kiln := rfl
@[simp] theorem setB_emn (s : State) (b : Nat) (x : Buf) : (setB s b x).emn = s.emn := rfl
@[simp] theorem setB_pins (s : State) (b : Nat) (x : Buf) : (setB s b x).pins = s.pins := rfl

/-- A field reads what was stored in it, cut to its width. -/
@[simp] theorem getF_setF_same (s : State) (x : Fld) (v : Nat) : getF (setF s x v) x = v % 2 ^ x.width := tabGet_tabPut_same s.regs x.key _ _

/-- A field at another place reads as before. -/
theorem getF_setF_ne (s : State) (x y : Fld) (v : Nat) (h : y.key ≠ x.key) : getF (setF s x v) y = getF s y := tabGet_tabPut_ne s.regs _ _ _ _ _ h

/-- A queue reads as it was put. -/
@[simp] theorem getQ_setQ_same (s : State) (q : Nat) (v : Queue) : getQ (setQ s q v) q = v := tabGet_tabPut_same s.qm q _ _
theorem getQ_setQ_ne (s : State) (q r : Nat) (v : Queue) (h : r ≠ q) : getQ (setQ s q v) r = getQ s r := tabGet_tabPut_ne s.qm _ _ _ _ _ h

/-- A window reads as it was put. -/
@[simp] theorem getW_setW_same (s : State) (t w : Nat) (x : Window) : getW (setW s t w x) t w = x := tabGet_tabPut_same s.crd.wins _ _ _

/-- An engine reads as it was put. -/
theorem getE_setE_same (s : State) (e : Nat) (v : Engine) (h : e < s.hx.length) : getE (setE s e v) e = v := by simp [getE, setE, nth, h]
theorem getE_setE_ne (s : State) (e g : Nat) (v : Engine) (h : g ≠ e) : getE (setE s e v) g = getE s g := by
  simp [getE, setE, nth, Ne.symm h]

/-- A unit's memory reads as it was put. -/
@[simp] theorem getB_setB_same (s : State) (b : Nat) (x : Buf) : getB (setB s b x) b = x := tabGet_tabPut_same s.bufs b _ _

/-- A partition reads as it was put. -/
theorem getP_setP_same (s : State) (p : Nat) (x : Part) (h : p < s.parts.length) : getP (setP s p x) p = x := by simp [getP, setP, nth, h]
theorem getP_setP_ne (s : State) (p q : Nat) (x : Part) (h : q ≠ p) : getP (setP s p x) q = getP s q := by
  simp [getP, setP, nth, Ne.symm h]

end Sys2Proof.Machine
end

