-- ==== Sys2Proof/Laws/Raise.lean ====
section
/-! SUPPORT. What raising a fault can change, and that it keeps the memory's form and the queues' depth. -/

namespace Sys2Proof.Machine

/-- The kinds of state that a fault's record, its triage and its interrupt can change. -/
def sameButFaults (s t : State) : Prop := { t with regs := s.regs, flt := s.flt, hif := s.hif, sch := s.sch, mem := s.mem, pwr := s.pwr } = s

/-- A field outside those stays as it was. -/
theorem sameButFaults.trans {s t u : State} (h : sameButFaults s t) (g : sameButFaults t u) : sameButFaults s u := by
  unfold sameButFaults at *
  rw [← g] at h
  simpa using h

theorem sameButFaults.refl (s : State) : sameButFaults s s := rfl

/-- A record that enters a queue leaves it within its depth (R484). -/
theorem fltPush_length (q : List FaultRec) (r : FaultRec) (h : q.length ≤ 32) : (fltPush q r).1.length ≤ 32 := by
  unfold fltPush
  split
  · simp; omega
  · split
    · exact h
    · simp only
      split
      · rename_i i hi
        have hlt : i < q.length := by
          have := (List.findIdx?_eq_some_iff_findIdx_eq.mp hi).1
          simpa using this
        simp [List.length_eraseIdx, hlt]; omega
      · exact h

/-- Triage of a record: it pauses a partition, asks for a lay-by and posts an event. -/
theorem triage_same (s : State) (r : FaultRec) : sameButFaults s (triage s r) ∧ (triage s r).flt = s.flt ∧ (triage s r).mem = s.mem ∧
    (triage s r).pwr = s.pwr := by
  unfold triage
  split
  · exact ⟨rfl, rfl, rfl, rfl⟩
  · split
    · have hpost : ∀ (u : State) (d : Bytes), sameButFaults u (postEvent u 0 d false) ∧ (postEvent u 0 d false).flt = u.flt ∧
          (postEvent u 0 d false).mem = u.mem ∧ (postEvent u 0 d false).pwr = u.pwr := by
        intro u d
        unfold postEvent
        split
        · unfold postCqe
          simp only
          split
          · exact ⟨rfl, rfl, rfl, rfl⟩
          · split <;> exact ⟨rfl, rfl, rfl, rfl⟩
        · exact ⟨rfl, rfl, rfl, rfl⟩
      have hlay : ∀ u : State, sameButFaults u (laybyRequest u) ∧ (laybyRequest u).flt = u.flt ∧ (laybyRequest u).mem = u.mem ∧
          (laybyRequest u).pwr = u.pwr := by
        intro u
        unfold laybyRequest
        split
        · exact ⟨rfl, rfl, rfl, rfl⟩
        · split
          · exact ⟨rfl, rfl, rfl, rfl⟩
          · split <;> exact ⟨rfl, rfl, rfl, rfl⟩
      simp only
      split
      · obtain ⟨a1, a2, a3, a4⟩ := hpost (laybyRequest _) _
        obtain ⟨b1, b2, b3, b4⟩ := hlay _
        refine ⟨sameButFaults.trans (sameButFaults.trans ?_ b1) a1, a2.trans b2, a3.trans b3, a4.trans b4⟩
        rfl
      · obtain ⟨a1, a2, a3, a4⟩ := hpost _ _
        refine ⟨sameButFaults.trans ?_ a1, a2, a3, a4⟩
        rfl
    · exact ⟨rfl, rfl, rfl, rfl⟩

/-- A record that enters a die's queue: the other die's queue, memory and power stay. -/
theorem fltEnqueue_same (s : State) (port : Bool) (r : FaultRec) : sameButFaults s (fltEnqueue s port r) ∧
    (fltDie (fltEnqueue s port r) port).queue = (fltPush (fltDie s port).queue r).1 ∧
    (fltDie (fltEnqueue s port r) (!port)) = fltDie s (!port) ∧ (fltEnqueue s port r).mem = s.mem ∧ (fltEnqueue s port r).pwr = s.pwr := by
  have hlost : ∀ (u : State) (p l : Bool), sameButFaults u (fltLost u p l) ∧ (fltLost u p l).flt = u.flt ∧ (fltLost u p l).mem = u.mem ∧
      (fltLost u p l).pwr = u.pwr := by
    intro u p l
    unfold fltLost
    split <;> exact ⟨rfl, rfl, rfl, rfl⟩
  have hint : ∀ u : State, sameButFaults u (interrupt u) ∧ (interrupt u).flt.comp = u.flt.comp ∧ (interrupt u).flt.port = u.flt.port ∧
      (interrupt u).mem = u.mem ∧ (interrupt u).pwr = u.pwr := by
    intro u
    unfold interrupt
    split <;> exact ⟨rfl, rfl, rfl, rfl, rfl⟩
  cases port
  · simp only [fltEnqueue, Bool.false_eq_true, if_false, fltDie, Bool.not_false, if_true]
    obtain ⟨i1, i2, i3, i4, i5⟩ := hint (triage (fltLost _ false _) r)
    obtain ⟨t1, t2, t3, t4⟩ := triage_same (fltLost { s with flt := { s.flt with comp := { s.flt.comp with queue := (fltPush s.flt.comp.queue r).1 } } } false
      (fltPush s.flt.comp.queue r).2) r
    obtain ⟨l1, l2, l3, l4⟩ := hlost { s with flt := { s.flt with comp := { s.flt.comp with queue := (fltPush s.flt.comp.queue r).1 } } } false
      (fltPush s.flt.comp.queue r).2
    refine ⟨((sameButFaults.trans ?_ l1).trans t1).trans i1, ?_, ?_, ?_, ?_⟩
    · rfl
    · rw [i2, t2, l2]
    · rw [i3, t2, l2]
    · rw [i4, t3, l3]
    · rw [i5, t4, l4]
  · simp only [fltEnqueue, fltDie, if_true, Bool.not_true, Bool.false_eq_true, if_false]
    obtain ⟨l1, l2, l3, l4⟩ := hlost { s with flt := { s.flt with port := { s.flt.port with queue := (fltPush s.flt.port.queue r).1 } } } true
      (fltPush s.flt.port.queue r).2
    refine ⟨sameButFaults.trans ?_ l1, ?_, ?_, ?_, ?_⟩
    · rfl
    all_goals simp [l2, l3, l4]

/-- One record added to the save area keeps the memory's form. -/
theorem saveOne_memOk (s : State) (r : FaultRec) (h : s.memOk) : (saveOne s r).memOk := by
  unfold saveOne
  simp only
  split
  · exact memWf_memWrite _ _ _ (memWf_memWrite _ _ _ h)
  · exact h

theorem saveOne_flt (s : State) (r : FaultRec) : (saveOne s r).flt = s.flt := by
  unfold saveOne
  simp only
  split <;> rfl

theorem saveOne_same (s : State) (r : FaultRec) : sameButFaults s (saveOne s r) := by
  unfold saveOne
  simp only
  split <;> rfl

theorem holdCompute_same (s : State) : sameButFaults s (holdCompute s) := by
  unfold holdCompute linkDown
  rfl

/-- Everything but registers, the fault unit, the host rings, the lay-by request, the save area and power stays as it was when a fault
is raised. -/
theorem raise_same (s : State) (port : Bool) (code cls : Nat) (part : Option Nat) (block item : Nat) (detail : List Nat) :
    sameButFaults s (raise s port code cls part block item detail) := by
  have hc : sameButFaults s (fltCount s port) := by cases port <;> rfl
  have he := hc.trans (fltEnqueue_same (fltCount s port) port (mkRec s port code cls part block item detail)).1
  unfold raise
  simp only
  split
  · exact (he.trans (saveOne_same _ (mkRec s port code cls part block item detail))).trans (holdCompute_same _)
  · exact he

/-- Raising a fault keeps the memory's form. -/
theorem raise_memOk (s : State) (port : Bool) (code cls : Nat) (part : Option Nat) (block item : Nat) (detail : List Nat) (h : s.memOk) :
    (raise s port code cls part block item detail).memOk := by
  have he : (fltEnqueue (fltCount s port) port (mkRec s port code cls part block item detail)).memOk := by
    have := (fltEnqueue_same (fltCount s port) port (mkRec s port code cls part block item detail)).2.2.2.1
    unfold State.memOk
    rw [this]
    cases port <;> exact h
  unfold raise
  simp only
  split
  · exact saveOne_memOk _ _ he
  · exact he

/-- Raising a fault keeps both queues within their depth. -/
theorem raise_faultsOk (s : State) (port : Bool) (code cls : Nat) (part : Option Nat) (block item : Nat) (detail : List Nat) (h : s.faultsOk) :
    (raise s port code cls part block item detail).faultsOk := by
  have he : (fltEnqueue (fltCount s port) port (mkRec s port code cls part block item detail)).faultsOk := by
    obtain ⟨-, h1, h2, -, -⟩ := fltEnqueue_same (fltCount s port) port (mkRec s port code cls part block item detail)
    obtain ⟨g1, g2⟩ := h
    cases port
    · simp only [fltDie, Bool.false_eq_true, if_false, Bool.not_false, if_true] at h1 h2
      exact ⟨by rw [h1]; exact fltPush_length _ _ g1, by rw [h2]; exact g2⟩
    · simp only [fltDie, Bool.false_eq_true, if_false, Bool.not_true, if_true] at h1 h2
      exact ⟨by rw [h2]; exact g1, by rw [h1]; exact fltPush_length _ _ g2⟩
  unfold raise
  simp only
  split
  · have := saveOne_flt (fltEnqueue (fltCount s port) port (mkRec s port code cls part block item detail))
      (mkRec s port code cls part block item detail)
    show (saveOne _ _).faultsOk
    unfold State.faultsOk
    rw [this]
    exact he
  · exact he

/-- Outside the window between the reset of a double fault and tick-ready, and for an advisory or correctable fault always, memory and
power stay as they were. -/
theorem raise_mem (s : State) (port : Bool) (code cls : Nat) (part : Option Nat) (block item : Nat) (detail : List Nat)
    (h : s.flt.restarting = false ∨ cls < 2) : (raise s port code cls part block item detail).mem = s.mem ∧
    (raise s port code cls part block item detail).pwr = s.pwr := by
  have hn : ¬ (s.flt.restarting = true ∧ 2 ≤ cls) := by
    rintro ⟨h1, h2⟩
    rcases h with h | h
    · rw [h] at h1; cases h1
    · omega
  obtain ⟨-, -, -, h3, h4⟩ := fltEnqueue_same (fltCount s port) port (mkRec s port code cls part block item detail)
  simp only [raise, if_neg hn]
  rw [h3, h4]
  cases port <;> exact ⟨rfl, rfl⟩

end Sys2Proof.Machine
end

