-- ==== Sys2Proof/Machine/Package.lean ====
section
/-! DEFINITION. The ball map and the signals at the balls (R512, R513), and the lanes that STRAP0 reverses (R520). -/

namespace Sys2Proof.Machine

/-- Ball groups (R512). -/
inductive Ball where
  | vin | cam (n : Fin 4) | trg | pcie | net | sys | dbg | rsvd | gnd
  deriving DecidableEq, Repr

/-- A ball's place: its row from the north edge and its column from the west edge, from 1. -/
structure Place where
  row : Nat
  col : Nat
  deriving DecidableEq, Repr

/-- Place of ball `k`, from 1, of every group that carries a signal or a supply (R512); the ground balls stand at every other place. -/
def signalPlace (g : Ball) (k : Nat) : Option Place :=
  let i := k - 1
  let put := fun n (p : Place) => if 1 ≤ k ∧ k ≤ n then some p else none
  match g with
  | .vin => put 120 ⟨20 + i / 15, 16 + i % 15⟩
  | .cam n => put 12 ⟨1 + i / 6, 2 + 11 * n.val + i % 6⟩
  | .trg => put 16 ⟨4, 2 + i⟩
  | .pcie => put 33 (if k = 33 then ⟨27, 1⟩ else ⟨10 + i / 2, 1 + i % 2⟩)
  | .net => put 64 ⟨3 + i / 2, 45 + i % 2⟩
  | .sys => put 8 ⟨46, 20 + i⟩
  | .dbg => put 5 ⟨46, 30 + i⟩
  | .rsvd => put 22 ⟨45, 12 + i⟩
  | .gnd => none

/-- The groups that are not ground, with their sizes. -/
def signalGroups : List (Ball × Nat) :=
  [(.vin, 120), (.cam 0, 12), (.cam 1, 12), (.cam 2, 12), (.cam 3, 12), (.trg, 16), (.pcie, 33), (.net, 64), (.sys, 8), (.dbg, 5), (.rsvd, 22)]

/-- The places that are not ground. -/
def signalPlaces : List Place := signalGroups.flatMap (fun g => (List.range g.2).filterMap (fun i => signalPlace g.1 (i + 1)))

/-- The places of the ground balls, row by row from row 1 in ascending columns (R512). -/
def groundPlaces : List Place :=
  ((List.range 46).flatMap (fun r => (List.range 46).map (fun c => (⟨r + 1, c + 1⟩ : Place)))).filter (fun p => !signalPlaces.contains p)

/-- Place of ball `k` of a group. -/
def ballPlace (g : Ball) (k : Nat) : Option Place :=
  if g = .gnd then (if k = 0 then none else groundPlaces[k - 1]?) else signalPlace g k

/-- Signal at ball `k` of a camera connector, in D-PHY or C-PHY mode (R513); none: unused. -/
def camSignal (cphy : Bool) (k : Nat) : Option String :=
  if k = 0 then none
  else if cphy then
    nth ([some "T0_A", some "T0_B", some "T0_C", some "T1_A", some "T1_B", some "T1_C", some "T2_A", some "T2_B", some "T2_C", none, some "SCL", some "SDA"])
      (k - 1) none
  else
    nth ([some "CLK_P", some "CLK_N", some "D0_P", some "D0_N", some "D1_P", some "D1_N", some "D2_P", some "D2_N", some "D3_P", some "D3_N",
      some "SCL", some "SDA"]) (k - 1) none

/-- Cage or RJ45 port and signal at ball `k` of the network group (R513). -/
def netSignal (k : Nat) : Option (Nat × String) :=
  if k = 0 ∨ 64 < k then none
  else if k ≤ 48 then
    some ((k - 1) / 12, nth ["TX_P", "TX_N", "RX_P", "RX_N", "VMOD", "VMOD", "SCL", "SDA", "MOD_ABS", "TX_FAULT", "TX_DISABLE", "RX_LOS"] ((k - 1) % 12) "")
  else some (4 + (k - 49) / 8, nth ["MDI0_P", "MDI0_N", "MDI1_P", "MDI1_N", "MDI2_P", "MDI2_N", "MDI3_P", "MDI3_N"] ((k - 49) % 8) "")

/-- Signal at ball `k` of the system group (R513). -/
def sysSignal (k : Nat) : Option String :=
  if k = 0 then none else ["RESET_N", "FAULT_N", "WAKE_N", "PPS_OUT", "STRAP0", "STRAP1", "STRAP2", "STRAP3"][k - 1]?

/-- Signal at ball `k` of the debug group (R513). -/
def dbgSignal (k : Nat) : Option String := if k = 0 then none else ["TCK", "TMS", "TDI", "TDO", "TRST_N"][k - 1]?

/-- Lane of the balls that logical PCIe lane `k` uses: STRAP0 tied to ground reverses the lanes (R520). -/
def pcieLane (s : State) (k : Nat) : Nat := if bitOf s.emn.straps 0 then k else 7 - k

/-- Balls of the PCIe group that a logical lane uses: TX_P, TX_N, RX_P and RX_N (R512, R520). -/
def pcieBalls (s : State) (k : Nat) : List Nat := (List.range 4).map (fun i => 4 * pcieLane s k + i + 1)

end Sys2Proof.Machine
end

