-- ==== Sys2Proof/Tests/Slice0.lean ====
section
/-! SUPPORT. Small tests: operands that WellFormed refuses, and for every statement with hypotheses a state and operands that
meet them. -/

namespace Sys2Proof.Tests

open Sys2Proof Sys2Proof.Machine

/-- The block after reset with the causeway trained. -/
def up : State := setF (setF State.reset (F.CWY_STAT_LINK_UP true) 1) (F.CWY_STAT_LINK_UP false) 1

theorem up_reaches : compDown up = false := by decide
theorem up_carries : cwyUp up = true := by decide

/-- A flit of the pixel class with SEQ 0 and LAST. -/
def flit0 : Flit :=
  { header := 0x100000#24, payload := List.replicate 128 1#8, crc := Config.crc24 0x100000#24 (List.replicate 128 1#8) }

theorem flit0_good : flitGood flit0 = true := by simp [flitGood, flit0, flitRsv, bitsOf]

/-! A good data flit that is next in sequence is delivered, and a corrupted one is asked for again -/

set_option maxRecDepth 2000 in
theorem witness_flit : cwyUp up = true ∧ mayPush (cwyDir up true) (cwyDir up false) [] 0 flit0 = true ∧ flitGood flit0 = true ∧
    flitClass flit0 < 3 ∧ flitSeq flit0 = (cwyDir up true).rxNext :=
  ⟨by decide, by decide, flit0_good, by decide, by decide⟩
set_option maxRecDepth 2000 in
theorem witness_flit_bad : cwyUp up = true ∧ mayPush (cwyDir up true) (cwyDir up false) [] 0 flit0 = true ∧ flitClass flit0 < 3 ∧
    flitGood { flit0 with header := 0x200000#24 } = false :=
  ⟨by decide, by decide, by decide, by simp [flitGood, flitRsv, bitsOf]⟩

/-! A replay that arrives whole delivers every unacknowledged flit from the failed one on, in order -/

/-- The causeway with one flit sent and asked for again. -/
def nakked : State := setCwyDir up true { retry := [(0, flit0)], nextSeq := 1, nakSeq := some 0 }

theorem witness_replay : cwyUp nakked = true ∧ (cwyDir nakked true).nakSeq = some 0 ∧ (cwyDir nakked true).rxNext = 0 ∧
    (cwyDir nakked true).nakCount < 7 ∧ retryFrom 0 (cwyDir nakked true).retry = [(0, flit0)] ∧
    [(0, flit0)].map (·.1) = (List.range 1).map (fun k => (0 + k) % 1024) :=
  ⟨by decide, by decide, by decide, by decide, rfl, by decide⟩

/-! An acknowledgement frees the accepted flits, and a silent or unanswerable link fails -/

/-- A trained causeway on which `n` NAKs have come in a row for a flit. -/
def nakkedTimes (n : Nat) : State := setCwyDir up true { retry := [(0, flit0)], nextSeq := 1, nakSeq := some 0, nakCount := n }

theorem witness_ack : cwyUp nakked = true ∧ (cwyDir nakked true).acks = [] ∧ (cwyDir nakked true).retry = [] ++ [(0, flit0)] ∧
    (∀ x ∈ ([] : List (Nat × Flit)), x.1 ≠ (cwyDir nakked true).rxNext) ∧ (cwyDir nakked true).rxNext = 0 :=
  ⟨by decide, by decide, rfl, by simp, by decide⟩
theorem witness_ack_sent : cwyUp (setCwyDir nakked true { cwyDir nakked true with acks := [1] }) = true ∧
    (cwyDir (setCwyDir nakked true { cwyDir nakked true with acks := [1] }) true).acks = 1 :: [] ∧
    (cwyDir (setCwyDir nakked true { cwyDir nakked true with acks := [1] }) true).retry = [(0, flit0)] ++ [] ∧
    (∀ x ∈ [(0, flit0)], x.1 ≠ 1) := ⟨by decide, by decide, rfl, by simp⟩
theorem witness_ack_timeout : cwyUp nakked = true ∧ (cwyDir nakked true).retry ≠ [] := by decide
theorem witness_eighth_nak : cwyUp (nakkedTimes 7) = true ∧ (cwyDir (nakkedTimes 7) true).nakSeq = some 0 ∧
    (cwyDir (nakkedTimes 7) true).nakCount = 7 := by decide

/-! Training brings the causeway up; training that takes too long fails it and holds the compute die -/

theorem witness_training : State.reset.pwr.compOn = true ∧ State.reset.pwr.dcReset = false ∧ State.reset.pwr.dcClkStop = false ∧
    isSet State.reset (F.CWY_STAT_FAILED true) = false ∧ isSet State.reset (F.CWY_STAT_LINK_UP true) = false := by decide

/-! Messages about time and tick edges are delivered when either lane carries them whole -/

/-- A trained causeway with an announcement of an edge at 20 µs sent. -/
def announced : State := { up with cwy := { up.cwy with ann := some { edge := 20000, tick := 1 } } }

theorem witness_signals : compDown announced = false ∧ (true || false) = true ∧
    announced.cwy.ann = some { edge := 20000, tick := 1 } := by decide
theorem witness_announce_deadline : compDown announced = false ∧ announced.timeP ≤ 15000 ∧
    announced.cwy.ann = some { edge := 20000, tick := 1 } ∧ 20000 ≤ 15000 + 5000 := by decide

/-! A port-die fault record crosses to the compute die, is acknowledged, and leaves its queue -/

/-- A port-die record that waits for its notification. -/
def portRec : FaultRec := { code := 0x0150, cls := 0, port := true, seq := 3 }

/-- A trained causeway with a port-die record to send. -/
def toSend : State := { up with flt := { up.flt with port := { queue := [portRec], seq := 4 } } }

theorem witness_notification : compDown toSend = false ∧ (true || false) = true ∧ toNotify toSend = some portRec := by decide
theorem witness_signal_repeat : compDown toSend = false ∧ toSend.flt.port.queue = portRec :: [] := by decide
theorem witness_announce_ack : compDown announced = false ∧ announced.cwy.ann.map (·.acked) = some false := by decide
theorem witness_announce_received :
    ({ announced with cwy := { announced.cwy with ann := some { edge := 20000, tick := 1, received := true } } } : State).cwy.ann.map
      (·.received) = some true := by decide

/-! A switched domain powers down losing its memories, and powers up again -/

theorem witness_power_down : powered State.reset 16 = true ∧ powered State.reset 20 = true := by decide
theorem witness_power_up : powered ({ State.reset with pwr := { off := [17] } } : State) 17 = false := by decide

/-! An access that the map and the filter allow reads or writes DRAM; one into a gap completes without effect -/

/-- The block with its DRAM ready. -/
def dramUp : State := setF up F.DRC_STAT_READY 1

theorem witness_dram_access : heldBack dramUp false { code := 1 } = false ∧ dramOut dramUp 0x3FFFFFE00 = false ∧
    reqOf { code := 1 } = some 7 ∧ dramWaits dramUp 7 0x3FFFFFE00 = false ∧ isSet dramUp F.DRC_STAT_READY = true ∧
    isSet dramUp F.DRC_CFG_IBECC = false ∧ dramUp.drc.xts = [] ∧
    (isHigh { code := 1 } || ((getP dramUp 0).st != 3 && inRegions (getP dramUp 0) 0x3FFFFFE00 512)) = true := by decide
theorem witness_gap : heldBack up false { code := 1 } = false ∧ region 0x001011800000 = .gap := by decide
theorem witness_not_ready : dramOut up 0 = false ∧ dramWaits up 7 0 = false ∧ isSet up F.DRC_STAT_READY = false ∧
    (isHigh { code := 1 } || ((getP up 0).st != 3 && inRegions (getP up 0) 0 64)) = true := by decide

/-! The footpath performs an access with a free tag, makes a master wait without one, and grants tags in turn -/

theorem witness_footpath : fpMaster { code := 1 } = true ∧ natural 64 8 = true ∧ fpTarget { code := 1 } 64 true = true ∧
    tileOf 64 = none ∧ up.fp.held = [] ∧ (1 : Nat) ∉ up.fp.granted ∧ up.fp.granted.length < 64 ∧ up.fp.waiting = [] := by decide

/-- The footpath with every tag granted to core 0 and core 3 waiting. -/
def fpFull : State := { up with fp := { granted := List.replicate 64 0, waiting := [3] } }

theorem witness_footpath_waits : fpFull.fp.held = [] ∧ (1 : Nat) ∉ fpFull.fp.granted ∧ fpFull.fp.granted.length = 64 ∧
    (1 : Nat) ∉ fpFull.fp.waiting := by decide
theorem witness_tag_grant : fpNext ({ up with fp := { waiting := [3] } } : State) = some 3 ∧
    fpTags ({ up with fp := { waiting := [3] } } : State) < 64 := by decide

/-- A privileged master of partition 0. -/
def boss : Master := { code := 8, priv := true }

/-! A tick edge takes the announced number and time, and arms the items of the plan in force -/

/-- A plan of one array item at the edge, and its item. -/
def item0 : PlanItem :=
  { id := 20, engine := 0, finish := false, batch := false, part := 0, start := 0, deadline := 100000, wfix := 1000, waclk := 0, arg := 0,
    preset := 0xFFFF, deps := [], outlist := 0xFFFF, every := 1, phase := 0 }
def plan0 : Plan :=
  { id := 1, fallback := 0xFFFF, period := 1000, ceil := 1500, floor := 1000, margin := 8, items := [item0], outs := [], presets := [], size := 64 }

/-- Edges enabled with a period of 1,000 µs, a plan in plan memory and in force, and an edge announced at 2 ms with number 7. -/
def edgeDue : State :=
  let s := setF (setF up F.TICK_CTL_PERIOD_US 1000) F.TICK_CTL_ENABLE 1
  { s with tick := { s.tick with plans := [plan0], base := some 1, announced := some (2000000, 7) } }

theorem witness_edge : isSet edgeDue F.TICK_CTL_ENABLE = true ∧ mepRefused edgeDue = false ∧ edgeDue.timeC ≤ 2000000 ∧
    edgeDue.tick.announced = some (2000000, 7) := by decide
theorem witness_plan : choosePlan edgeDue = some (plan0, false) ∧ plan0.period = periodUs edgeDue ∧ edgeDue.flt.safe = false := by decide
theorem witness_plan_mismatch : choosePlan (setF edgeDue F.TICK_CTL_PERIOD_US 2000) = some (plan0, false) ∧
    plan0.period ≠ periodUs (setF edgeDue F.TICK_CTL_PERIOD_US 2000) := by decide
theorem witness_armed : (armItems plan0 7 2000000).map (·.deadline) = [2100000] := by decide

/-! TICK_CTL sets mode, plan source and period while edges are off, and keeps them while edges run -/

theorem witness_tick_ctl : regGate up false 16 0x10 boss (0x823500#32).toNat = .pass ∧ isSet up F.TICK_CTL_ENABLE = false ∧
    bitOf (0x823500#32).toNat 0 = false ∧ bitsOf (0x823500#32).toNat 1 2 ≠ 3 := by decide
theorem witness_tick_on : regGate up false 16 0x10 boss (0x823501#32).toNat = .pass ∧ bitOf (0x823501#32).toNat 0 = true ∧
    bitsOf (0x823501#32).toNat 1 2 = 0 := by decide
theorem witness_tick_period : regGate edgeDue false 16 0x10 boss (0x7D001#32).toNat = .pass ∧
    isSet edgeDue F.TICK_CTL_ENABLE = true ∧ bitOf (0x7D001#32).toNat 0 = true ∧
    bitsOf (0x7D001#32).toNat 1 2 = getF edgeDue F.TICK_CTL_MODE ∧ bitsOf (0x7D001#32).toNat 3 1 = getF edgeDue F.TICK_CTL_PLAN_SRC ∧
    min (max (bitsOf (0x7D001#32).toNat 8 18) 1000) 200000 ≠ getF edgeDue F.TICK_CTL_PERIOD_US := by decide

/-! A read of the low half of a 64-bit counter gives it and latches the high half -/

theorem witness_low_reads : accGate up false 16 0x20 boss false 0 = .pass ∧ accGate up false 1 0x80 boss false 0 = .pass ∧
    accGate up false 1 0x88 boss false 0 = .pass ∧ accGate up false 1 0x90 boss false 0 = .pass := by decide

/-! An item whose time has come starts its engine, with the first word staged -/

/-- Item 0 of the plan armed at the edge at 1 ms, with the array enabled. -/
def itemDue : State :=
  let s := setF edgeDue F.ARR_CTL_ENABLE 1
  { s with tick := { s.tick with armed := [{ idx := 0, item := item0, start := 1000000, deadline := 1100000 }], edge := 1000000, running := true } }

theorem witness_item_start : (armedOf itemDue 0).isSome = true ∧ itemDue.timeC ≤ 1000000 ∧
    (armedOf itemDue 0).all (fun a => !hasPred itemDue a && chainFree itemDue a && !stepHolds itemDue a && !partBlocked itemDue a.item.part
      && codeEngine a.item.engine == some 0 && !a.started && decide (a.start ≤ 1000000)) = true ∧ engEnable itemDue 0 = true ∧
    (getE itemDue 0).st = .idle ∧ isSet itemDue (F.HXR_STAT_LEVEL_BAD 0) = false ∧ 0 < itemDue.hx.length ∧ itemDue.flt.safe = false := by decide

/-- The same with a second item on the array, the first having ended. -/
def chainDue : State :=
  let p := { plan0 with items := [item0, { item0 with id := 21 }] }
  let s := setF itemDue F.TICK_STAT_PLAN_ID 1
  { s with tick := { s.tick with plans := [p], armed := [{ idx := 1, item := { item0 with id := 21 }, start := 1000000, deadline := 1100000 }],
                                 log := { ended := [0], endAt := [(0, some 1000500)] } } }

theorem witness_chained_start : (armedOf chainDue 1).all (fun a => hasPred chainDue a && chainFree chainDue a && !stepHolds chainDue a
    && !partBlocked chainDue a.item.part && !a.started) = true ∧ (armedOf chainDue 1).isSome = true := by decide

/-- An engine with its first word staged. -/
def stagedAt (e : Nat) : State := setE up e { getE up e with st := .run, staged := some 160 }

theorem witness_staged : (getE (stagedAt 1) 1).staged = some 160 ∧ (getE (stagedAt 1) 1).pc < storeWords 1 := by decide
theorem witness_staged_array : (getE (stagedAt 0) 0).staged = some 160 ∧ (stagedAt 0).arr.prevPart ≠ some (getE (stagedAt 0) 0).part ∧
    (∀ x ∈ (stagedAt 0).arr.slots, x.st = .free) := by decide
theorem witness_staged_waits : ∃ x ∈ ([{ st := .live }] : List Slot), x.st ≠ .free := by decide

/-! An item that ends in time is disarmed with its slack; one that does not raises DEADLINE_MISS and is stopped or runs on -/

theorem witness_item_end : (armedOf itemDue 0).all (fun a => !a.missed && decide (1050000 ≤ a.deadline)) = true ∧
    (0 : Nat) ∈ ({ itemDue with tick := { itemDue.tick with reports := [0] } } : State).tick.reports := by decide
theorem witness_deadline_miss : (armedOf itemDue 0).all (fun a => !a.missed && decide (a.deadline < 1100001) && a.item.engine != 0x0D
    && !a.item.finish) = true ∧ (armedOf itemDue 0).isSome = true := by decide

/-- An item that has missed and runs on. -/
def runsOn : State :=
  { itemDue with tick := { itemDue.tick with armed := [{ idx := 0, item := { item0 with finish := true }, start := 1000000, deadline := 1100000, started := true, missed := true }] } }

theorem witness_miss_runs_on : ({ item0 with finish := true } : PlanItem).finish = true ∧ item0.engine ≠ 0x0D := by decide
theorem witness_runon_limit : (armedOf runsOn 0).all (·.missed) = true ∧ (armedOf runsOn 0).isSome = true ∧
    nextEdge runsOn ≤ 1999000 + 1000 := by decide

/-! Two microseconds after an edge the milestone record of the tick before is written -/

theorem witness_milestone : ({ edgeDue with tick := { edgeDue.tick with closing := some {}, edge := 1000 } } : State).tick.closing = some {} ∧
    edgeDue.timeC ≤ 3000 ∧ edgeDue.flt.safe = false ∧ ({} : TickLog).forceFail = false := by decide
theorem witness_milestone_stopped : ({ up with tick := { running := true } } : State).tick.closing = none ∧
    isSet ({ up with tick := { running := true } } : State) F.TICK_CTL_ENABLE = false ∧
    nextEdge ({ up with tick := { running := true } } : State) + 2000 ≤ 300000000 := by decide
theorem witness_milestone_early : edgeDue.tick.closing = none ∧ edgeDue.tick.running = false := by decide

/-- Engine `e` running, with a word at issue. -/
def runs (e : Nat) : State := setE up e { getE up e with st := .run }

/-! A word at issue is checked for its level, its fields, its loop and its cairn, in that order, before it acts -/

theorem witness_issue : (getE (runs 1) 1).st = .run ∧ (getE (runs 1) 1).halted = false ∧ (getE (runs 1) 1).staged = none ∧
    levelOk (runs 1) 3#256 = false ∧ levelOk (runs 1) 1#256 = true ∧ lowest (commonReasons (runs 1) 1 0x300001#256) = some 1 ∧ wClass 0x300001#256 = 0 := by decide
/-- A NOP word that begins loop 0 at or before its own address. -/
def badBegin : BitVec 256 := BitVec.ofNat 256 (1 + 2 ^ 28)

theorem witness_begin_bad : commonReasons (runs 1) 1 badBegin = [] ∧ wLoopOp badBegin = 1 ∧ beginBad (getE (runs 1) 1) badBegin = true ∧
    levelOk (runs 1) badBegin = true := by decide

/-- Queue 5 bound to the drain sequencer, with the given entries. -/
def queued (l : List QEntry) : State := setQ (runs 1) 5 { depth := 8, consumer := 1, entries := l }
/-- A NOP word that waits for a cairn of queue 5. -/
def waitWord : BitVec 256 := BitVec.ofNat 256 (1 + 2 ^ 78 + 5 * 2 ^ 80)

theorem witness_wait : commonReasons (queued []) 1 waitWord = [] ∧ wLoopOp waitWord ≠ 1 ∧ wWait waitWord = true ∧
    (getE (queued []) 1).granted = false ∧ (headQ (queued []) (wWq waitWord)).any (·.cairn) = false ∧
    levelOk (queued []) waitWord = true := by decide
theorem witness_cairn_at_head : commonReasons (queued [{ cairn := true, data := [], producer := 0 }]) 1 waitWord = [] ∧
    (headQ (queued [{ cairn := true, data := [], producer := 0 }]) (wWq waitWord)).any (·.cairn) = true := by decide
theorem witness_other_class : wClass 0x11#256 ≠ 0 ∧ wClass 1#256 = 0 ∧ classKnown 6 (wClass 0x91#256) = false ∧
    (getE (runs 6) 6).st = .run ∧ levelOk (runs 6) 0x91#256 = true := by decide
theorem witness_halted : (getE (setE up 1 { getE up 1 with st := .run, halted := true }) 1).halted = true := by decide

/-! After a word has acted, its scalar operation, its cairn and its next address take effect -/

theorem witness_word_end : (1 : Nat) < (runs 1).hx.length ∧ wClass 1#256 ≠ 5 ∧
    (nextPc (runs 1) (getE (runs 1) 1) (scalarOp (runs 1) (getE (runs 1) 1) (getE (runs 1) 1) 1#256) 1#256).2 < storeWords 1 := by decide
theorem witness_plain_next : wLoopOp 1#256 = 0 ∧ wBrOp 1#256 = 0 ∧ innerLoop (getE (runs 1) 1).loops 0 = none := by decide
theorem witness_branch : wLoopOp (BitVec.ofNat 256 (1 + 2 ^ 59)) = 0 ∧ wBrOp (BitVec.ofNat 256 (1 + 2 ^ 59)) = 1 := by decide
theorem witness_begin : wLoopOp (BitVec.ofNat 256 (1 + 2 ^ 28 + 3 * 2 ^ 33)) = 1 ∧ wLoopSrc (BitVec.ofNat 256 (1 + 2 ^ 28 + 3 * 2 ^ 33)) = false ∧
    wLoopCount (BitVec.ofNat 256 (1 + 2 ^ 28 + 3 * 2 ^ 33)) ≠ 0 := by decide

/-- The drain sequencer at the last word of its store. -/
def atEnd : State := setE up 1 { getE up 1 with st := .run, pc := 4095 }

theorem witness_past_the_store : storeWords 1 ≤ (nextPc atEnd (getE atEnd 1) (scalarOp atEnd (getE atEnd 1) (getE atEnd 1) 1#256) 1#256).2 ∧
    1 < atEnd.hx.length := by decide

/-! NOP, the generator words, SETS, KSET and HALT do what their payloads say -/

theorem witness_ready : ready (runs 1) 1 1#256 = true ∧ wClass 1#256 = 0 ∧ ready (runs 0) 0 0x11#256 = true ∧ wClass 0x11#256 = 1 ∧
    ready (runs 0) 0 0x21#256 = true ∧ wClass 0x21#256 = 2 ∧ 1 < (runs 1).hx.length ∧
    0 + 1 < (getE (runs 1) 1).ags.length := by decide
/-- A SETS word whose first entry writes 7 to register 3. -/
def setsSample : BitVec 256 := BitVec.ofNat 256 (0x31 + 7 * 2 ^ 136 + 3 * 2 ^ 168 + 2 ^ 173)

theorem witness_sets : ready (runs 1) 1 setsSample = true ∧ wClass setsSample = 3 ∧ pF setsSample 114 6 = 0 ∧ setsEn setsSample 0 = true ∧ pF setsSample 32 5 = 3 ∧
    setsEn setsSample 1 = false ∧ setsEn setsSample 2 = false ∧ (getE (runs 1) 1).sregs.length = 16 := by decide
theorem witness_sets_reserved : ready (runs 1) 1 (BitVec.ofNat 256 (0x31 + 2 ^ 250)) = true ∧
    pF (BitVec.ofNat 256 (0x31 + 2 ^ 250)) 114 6 ≠ 0 := by decide
theorem witness_sets_register : ready (runs 1) 1 (BitVec.ofNat 256 (0x31 + 24 * 2 ^ 168 + 2 ^ 173)) = true ∧
    pF (BitVec.ofNat 256 (0x31 + 24 * 2 ^ 168 + 2 ^ 173)) 114 6 = 0 ∧ setsEn (BitVec.ofNat 256 (0x31 + 24 * 2 ^ 168 + 2 ^ 173)) 0 = true ∧
    24 ≤ pF (BitVec.ofNat 256 (0x31 + 24 * 2 ^ 168 + 2 ^ 173)) 32 5 := by decide
theorem witness_kset : ready (runs 1) 1 (BitVec.ofNat 256 (0x41 + 2 ^ 162)) = true ∧ wClass (BitVec.ofNat 256 (0x41 + 2 ^ 162)) = 4 ∧
    (∀ k, k < 4 → ksetReasons (BitVec.ofNat 256 (0x41 + 2 ^ 162)) k = []) ∧ ksetWr (BitVec.ofNat 256 (0x41 + 2 ^ 162)) 0 = true ∧
    (getE (runs 1) 1).cmps.length = 4 := by decide
theorem witness_halt : ready (runs 0) 0 0x51#256 = true ∧ wClass 0x51#256 = 5 ∧ wBrOp 0x51#256 = 0 ∧ wLoopOp 0x51#256 = 0 ∧
    (runs 0).arr.op = none ∧ ready (runs 1) 1 0x51#256 = true := by decide

/-! The array words open, load, stream, fill, mark safe points and close -/

/-- An OPBEGIN word: mode 0, INT8 by INT8, 16 columns. -/
def opbeginSample : BitVec 256 := BitVec.ofNat 256 (0x81 + 16 * 2 ^ 147)

/-- The array sequencer running and the array enabled. -/
def enabled0 : State := setF (runs 0) F.ARR_CTL_ENABLE 1

set_option maxRecDepth 2000 in
theorem witness_opbegin_enabled : ready enabled0 0 opbeginSample = true ∧ isSet enabled0 F.ARR_CTL_ENABLE = true ∧ enabled0.arr.retireReq = [] ∧
    opRefusal enabled0 0 0 0 false 16 0 = none ∧ opRefusal enabled0 3 0 0 false 16 0 = some 1 := by decide
set_option maxRecDepth 2000 in
theorem witness_opbegin : ready (runs 0) 0 opbeginSample = true ∧ wClass opbeginSample = 8 ∧ pF opbeginSample 2 4 < 9 ∧ pF opbeginSample 6 4 < 9 ∧ 1 ≤ pF opbeginSample 11 9 ∧ pF opbeginSample 11 9 ≤ 256 ∧ (runs 0).arr.op = none ∧
    pF opbeginSample 44 76 = 0 ∧ wRepeat opbeginSample = 0 ∧ (runs 0).arr.settling = [] ∧
    opRefusal (runs 0) (pF opbeginSample 0 2) (pF opbeginSample 2 4) (pF opbeginSample 6 4) (pF opbeginSample 10 1 == 1) (pF opbeginSample 11 9)
      (getE (runs 0) 0).part = none ∧ bitOf (getF (runs 0) F.ARR_CHK_CTL_PART_EN) (getE (runs 0) 0).part = false := by decide
theorem witness_opbegin_refused : wClass (BitVec.ofNat 256 (0x81 + 3 * 2 ^ 136 + 16 * 2 ^ 147)) = 8 ∧ ready (runs 0) 0 (BitVec.ofNat 256 (0x81 + 3 * 2 ^ 136 + 16 * 2 ^ 147)) = true ∧
    opRefusal (runs 0) 3 0 0 false 16 0 = some 1 := by decide

/-- An open operation of 16 INT8 columns. -/
def op0 : ArrOp := { mode := 0, fmtN := 0, fmtW := 0, wside := false, wdecl := 16, optag := 1, rowgroup := 0, opid := 9, chk := false, part := 0 }
/-- The array sequencer running with the operation open. -/
def opened : State := { runs 0 with arr := { (runs 0).arr with op := some op0 } }
/-- A LOAD word of 4 by 4 elements. -/
def loadSample : BitVec 256 := BitVec.ofNat 256 (0x91 + 4 * 2 ^ 136 + 4 * 2 ^ 147)

theorem witness_load : wClass loadSample = 9 ∧ ready opened 0 loadSample = true ∧ opened.arr.op = some op0 ∧ 1 ≤ pF loadSample 0 11 ∧ pF loadSample 0 11 ≤ 1024 ∧
    1 ≤ pF loadSample 11 9 ∧ pF loadSample 11 9 ≤ op0.wdecl ∧ op0.mode ≠ 1 ∧ opened.arr.shadow = none ∧
    pF loadSample 20 10 + setRows op0.fmtN (pF loadSample 0 11) (pF loadSample 11 9) ≤ 768 ∧ pF loadSample 30 90 = 0 ∧ wRepeat loadSample = 0 := by decide

/-- The same with AG0 at the first row of tile memory 0. -/
def streaming : State := setE opened 0 { getE opened 0 with ags := (getE opened 0).ags.set 0 { seg := tileAddr 0 } }
/-- A STREAM word of one piece of one granule, first and last of its tile. -/
def streamSample : BitVec 256 := BitVec.ofNat 256 (0xA1 + 2 ^ 148 + 2 ^ 149 + 2 ^ 152)

set_option maxRecDepth 2000 in
theorem witness_stream : wClass streamSample = 10 ∧ ready streaming 0 streamSample = true ∧ streaming.arr.op = some op0 ∧ streamReasons streaming 0 streamSample = [] ∧
    pF streamSample 36 84 = 0 ∧ streaming.arr.shadow = none ∧ streamWaits streaming (getE streaming 0) streamSample op0 = false ∧
    streaming.arr.strPos = 0 ∧ 0 < (streamVecs streaming (getE streaming 0) streamSample op0).length ∧
    (streamVecs streaming (getE streaming 0) streamSample op0).length ≤ 512 ∧ slotOf streaming .live op0.optag (pF streamSample 0 12) = none ∧
    (getSlot streaming 0).st = .free ∧ 0 < streaming.arr.slots.length := by decide

/-- A FILL word of two rows. -/
def fillSample : BitVec 256 := BitVec.ofNat 256 (0xB1 + 2 * 2 ^ 147)

theorem witness_fill : wClass fillSample = 11 ∧ ready (runs 0) 0 fillSample = true ∧ 1 ≤ pF fillSample 11 10 ∧ pF fillSample 1 10 + pF fillSample 11 10 ≤ 768 ∧
    pF fillSample 26 3 ≤ 5 ∧ pF fillSample 29 91 = 0 ∧ pF fillSample 21 5 < 30 ∧ wRepeat fillSample = 0 ∧
    ((runs 0).arr.fills.filter (fun f => f.tgt == pF fillSample 0 1)).length < 4 := by decide
theorem witness_safe : wClass 0xC1#256 = 12 ∧ ready (runs 0) 0 0xC1#256 = true ∧ pF 0xC1#256 0 120 = 0 ∧ (runs 0).sch.phase ≠ 3 := by decide
theorem witness_safe_point : ready ({ runs 0 with sch := { phase := 3 } } : State) 0 0xC1#256 = true ∧
    atSafePoint ({ runs 0 with sch := { phase := 3 } } : State) = true ∧
    (getE (finishWord ({ runs 0 with sch := { phase := 3 } } : State) 0 0xC1#256 (getE (runs 0) 0)) 0).st = .run := by decide
theorem witness_opend : wClass 0xD1#256 = 13 ∧ wClass 0xC1#256 ≠ 8 ∧ wClass 0xD1#256 ≠ 12 ∧ ready opened 0 0xD1#256 = true ∧ opened.arr.op = some op0 ∧ pF 0xD1#256 0 120 = 0 ∧ wRepeat 0xD1#256 = 0 := by decide

/-! Loads, fills and results of the array arrive -/

/-- A load of one element on its way. -/
def loading : State := { opened with arr := { opened.arr with shadow := some { k := 1, n := 1, trow := 0 } } }

theorem witness_load_complete : loading.arr.op = some op0 ∧ loading.arr.shadow = some { k := 1, n := 1, trow := 0 } ∧
    (∀ i, i < setRows op0.fmtN 1 1 → fillPending loading 1 (0 + i) = false) := by decide

/-- A FILL of one row of Map Store pending, with the array enabled to read it. -/
def fill0 : FillReq := { tgt := 0, trow := 0, rows := 1, src := 0, nblog := 0 }
def filling : State := setF { runs 0 with arr := { (runs 0).arr with fills := [fill0] } } F.MAP_CTL_ENABLE 1

set_option maxRecDepth 4000 in
theorem witness_fill_row : filling.arr.fills = [fill0] ∧ fill0.done < fill0.rows ∧ fill0.bad = [] ∧
    region (mapBase + fillRow fill0 fill0.done * 512) = .mapStore ∧
    busGate filling (engMaster 0 (getE filling 0).part) .west (mapBase + fillRow fill0 fill0.done * 512) 512 false = .pass ∧
    (∀ k ∈ rowWords (mapBase + fillRow fill0 fill0.done * 512), tabGet filling.mapu.bad k 0 = 0) := by decide
theorem witness_operation_end : up.arr.shares = [] ∧ up.arr.closing = 0 ∧ up.arr.disablePending = false ∧
    ({ up with arr := { up.arr with closing := 1, disablePending := true } } : State).arr.shares = [] := by decide

/-- A share of one lane for slot 0. -/
def share0 (chk : Bool) : Share :=
  { slot := 0, ot := 0, opid := 9, part := 0, fp := false, chk := chk, first := true, last := true, rowgroup := 0, depth := 1, vecs := [(0, [5])],
    rowRef := if chk then [6] else [], colRef := if chk then [5] else [] }
/-- The share outstanding, its slot live. -/
def sharing (chk : Bool) : State :=
  { runs 0 with arr := { (runs 0).arr with shares := [share0 chk], slots := (List.replicate 8 {}).set 0 { st := .live } } }

theorem witness_tile_check : (sharing false).arr.shares = share0 false :: [] ∧ (share0 false).chk = false ∧ (share0 false).slot2 = none ∧
    (share0 false).vecs = [(0, [5])] ∧ (getSlot (sharing false) 0).rowgroup < 2 ∧ (getSlot (sharing false) 0).st = .live ∧
    0 < (sharing false).arr.slots.length := by decide
theorem witness_tile_fails : (sharing true).arr.shares = share0 true :: [] ∧ (share0 true).slot2 = none ∧
    failedAt (rowChecks (getF (sharing true) F.ARR_CHK_CTL_TOL_ULP) (share0 true)) ≠ [] := by decide

/-! The array and drain control registers do what a write of them says -/

theorem witness_retire_request : regGate up false 1 0x28 boss (3#32).toNat = .pass ∧ (3#32).toNat % 512 < 256 ∧
    up.arr.retireReq.contains 3 = false ∧ bitOf up.arr.retired 3 = false := by decide
theorem witness_retirement : ({ up with arr := { up.arr with retireReq := [3] } } : State).arr.retireReq = 3 :: [] ∧ arrBusy up = false ∧
    laybyBusy up = false := by decide
theorem witness_array_control : regGate up false 1 0x10 boss (1#32).toNat = .pass ∧ bitOf (1#32).toNat 0 = true := by decide
theorem witness_array_disable : regGate (setF opened F.ARR_CTL_ENABLE 1) false 1 0x10 boss (0#32).toNat = .pass ∧
    isSet (setF opened F.ARR_CTL_ENABLE 1) F.ARR_CTL_ENABLE = true ∧ arrBusy (setF opened F.ARR_CTL_ENABLE 1) = true := by decide
set_option maxRecDepth 4000 in
theorem witness_full_width : 240 ≤ widthW (setF opened F.ARR_CTL_ENABLE 1) := by decide
theorem witness_column_count : regGate up false 1 0x30 boss (7#32).toNat = .pass ∧ getF up F.ARR_COLCNT_SEL_SEL < 258 := by decide
theorem witness_drain_control : regGate up false 2 0x10 boss (1#32).toNat = .pass ∧ isSet up F.DRN_CTL_ENABLE = false ∧
    regGate up false 2 0x10 boss (0#32).toNat = .pass ∧ (getE up 1).st = .idle := by decide

/-! The drain words set a chain, drain vectors, commit descriptors and step the optimiser -/

/-- The bytes of a descriptor of one INT32 element at 0x1000 of DRAM. -/
def tensor0 (fmt : Nat) : Bytes :=
  leBytes 8 0x1000 ++ leBytes 1 fmt ++ leBytes 3 0 ++ leBytes 4 1 ++ leBytes 4 1 ++ leBytes 4 1 ++ leBytes 4 1 ++ leBytes 4 8 ++ leBytes 8 512 ++
    leBytes 8 512 ++ leBytes 16 0
/-- The drain running with that descriptor at address 0 of DRAM, which is ready. -/
def draining : State :=
  let s := setF (runs 1) F.DRC_STAT_READY 1
  { s with mem := memWrite [] 0 (tensor0 7) }

/-- CHAIN of no records. -/
def chainSample : BitVec 256 := 0x81#256

set_option maxRecDepth 4000 in
theorem witness_chain : ready draining 1 chainSample = true ∧ chainIssue chainSample = [] ∧ pF chainSample 0 4 ≤ 8 ∧
    wClass chainSample = 8 ∧ tileRows (drainSettle draining) [] = (drainSettle draining, false) ∧
    activeStages (chainRecords (drainSettle draining) chainSample) = [] ∧ scaleDesc [] = none ∧
    chainRefusal none (fun fp => chainReasons false true [] fp) = none ∧ (drainSettle draining).arr.op = none ∧
    (match useDesc (drainSettle draining) 1 .drainR (agFirstAddr (getE (drainSettle draining) 1) chainSample 0) true false with
      | .ok u d => (chainRefusal none (fun fp => when (chainOut fp [] != d.fmt) 2)).isNone && (match clearOut u d.addr with
        | .inr _ => true
        | .inl _ => false)
      | .stop _ => false) = true := by decide

/-- A chain record of an unknown code in tile memory 2. -/
def badChain : State := { draining with mem := memWrite draining.mem (tileAddr 2) [15] }

set_option maxRecDepth 4000 in
theorem witness_chain_bad : ready badChain 1 (BitVec.ofNat 256 (0x81 + 2 ^ 136)) = true ∧ chainIssue (BitVec.ofNat 256 (0x81 + 2 ^ 136)) = [] ∧
    wClass (BitVec.ofNat 256 (0x81 + 2 ^ 136)) = 8 ∧ tileRows (drainSettle badChain) [0] = (drainSettle badChain, false) ∧
    chainRefusal none (fun fp => chainReasons false true (activeStages (chainRecords badChain (BitVec.ofNat 256 (0x81 + 2 ^ 136)))) fp)
      = some 1 := by decide

/-- An empty chain in force, and slot 0 with one vector of one lane draining. -/
def drainable : State :=
  { draining with
    drn := { draining.drn with chainSet := true },
    arr := { draining.arr with slots := (List.replicate 8 {}).set 0 { st := .draining, wdecl := 1, vecs := 1 }, acc := [(0, [5])] } }
/-- DRAIN of one vector of one tile. -/
def drainSample : BitVec 256 := BitVec.ofNat 256 (0x91 + 2 ^ 161)

set_option maxRecDepth 4000 in
theorem witness_drain : ready drainable 1 drainSample = true ∧ drainReasons drainable drainSample = [] ∧ wRepeat drainSample = 0 ∧
    wClass drainSample = 9 ∧ chainBad drainable.drn.chain false false = none ∧
    (match reopenOut drainable with
      | .ok s1 d => drainSlots s1 0 0 1 == some [0] && d.addr == 0 && (match drainOne drainSample 0 0 [0] s1 with
        | .inr u => (match drainFinish u with
          | .act v => v.mem == memWrite drainable.mem 0x1000 (leBytes 4 5)
          | _ => false)
        | .inl _ => false)
      | .stop _ => false) = true := by decide

/-- COMMIT of the descriptor at AG0. -/
def commitSample : BitVec 256 := BitVec.ofNat 256 (0xA1 + 2 ^ 139)

set_option maxRecDepth 4000 in
theorem witness_commit : wClass commitSample = 10 ∧ ready draining 1 commitSample = true ∧ 1 ≤ pF commitSample 3 3 ∧ pF commitSample 6 114 = 0 ∧ wRepeat commitSample = 0 ∧
    (match commitAll (engMaster 1 0) 1 0 (drainSettle draining) with
      | .act _ => true
      | _ => false) = true ∧
    busGate draining (engMaster 1 0) .drainW 10 1 true (leVal [(rdByte draining.mem 10 &&& 0xFE#8) ||| 1#8]) = .pass ∧ memWf draining.mem = true ∧ region 10 = .dram := by decide

/-- The optimiser's address list at 0x2000, its seven descriptors at 0x2040 on of 256 elements, and its stage in force. -/
def optTensor (i : Nat) : Bytes :=
  leBytes 8 (0x4000 + 0x1000 * i) ++ leBytes 1 (nth optFmts i 0) ++ leBytes 3 0 ++ leBytes 4 256 ++ leBytes 4 1 ++ leBytes 4 1 ++ leBytes 4 1 ++
    leBytes 4 1024 ++ leBytes 8 1024 ++ leBytes 8 1024 ++ leBytes 16 0
def optStage : Stage :=
  { code := 9, perCh := false, tsrc := false, round := 0, mode := 0, odom := false, static := false, fmt := 0, reg := 0, trow := 0, tstride := 0,
    p0 := 0, p1 := 0, p2 := 0, aux := 0x2000 }
def optimising : State :=
  { draining with
    drn := { draining.drn with chain := [optStage], chainSet := true },
    mem := memWrite [] 0x2000 (((List.range 7).map (fun i => leBytes 8 (0x2040 + 64 * i))).flatten ++ leBytes 8 0 ++
      ((List.range 7).map optTensor).flatten) }

set_option maxRecDepth 8000 in
theorem witness_optstep : wClass 0xB1#256 = 11 ∧ ready optimising 1 0xB1#256 = true ∧ pF 0xB1#256 0 120 = 0 ∧ optimising.drn.chain = [optStage] ∧ optStage.code = 9 ∧
    (match openOpt optStage.aux 7 optimising [] with
      | .inr (_, ds) => (List.range 7).all (fun i => (nth ds i { addr := 0, raw := [] }).fmt == nth optFmts i 0) &&
          (nth ds 0 { addr := 0, raw := [] }).dim 0 % 256 == 0
      | .inl _ => false) = true := by decide
theorem witness_optstep_refused : ready draining 1 0xB1#256 = true ∧ (∀ st, draining.drn.chain = [st] → st.code ≠ 9) :=
  ⟨by decide, by intro st h; rw [show draining.drn.chain = [] by decide] at h; cases h⟩
theorem witness_deposit : ({ up with drn := { up.drn with deposits := [(3, 9, 1)] } } : State).drn.deposits = (3, 9, 1) :: [] ∧ 0 < up.hx.length ∧
    3 < (getE up 0).sregs.length := by decide

/-! The stages of the drain compute what their formulas say -/

theorem witness_clip : i32 3 ≤ i32 7 := by decide
theorem witness_reduce : ∀ n, n < ([5] : List Nat).length → nth [true] n false = true := by decide

/-! A Map Store bank performs a port access, and the upkeep of on-chip memory corrects and walks on -/

/-- The block with Map Store enabled. -/
def mapOn : State := setF up F.MAP_CTL_ENABLE 1

set_option maxRecDepth 4000 in
theorem witness_map_store : region mapBase = .mapStore ∧ accessForm 7 mapBase 512 false = true ∧ accessForm 3 mapBase 512 true = true ∧
    busGate mapOn { code := 1 } (portOf 7 false) mapBase 512 false = .pass ∧
    busGate mapOn { code := 1 } (portOf 2 false) mapBase 512 true = .pass ∧ (∀ k ∈ rowWords mapBase, tabGet mapOn.mapu.bad k 0 = 0) := by decide
theorem witness_write_back : ({ up with mapu := { writeBack := [8] } } : State).mapu.writeBack.contains 8 = true := by decide
theorem witness_patrol : getF (setF up F.MAP_CTL_SCRUB_INTERVAL 1) F.MAP_CTL_SCRUB_INTERVAL ≠ 0 ∧
    getF (setF up F.CRD_CTL_SCRUB_INTERVAL 1) F.CRD_CTL_SCRUB_INTERVAL ≠ 0 ∧
    getF (setF up F.MAP_CTL_SCRUB_INTERVAL 0) F.MAP_CTL_SCRUB_INTERVAL = 0 ∧
    getF (setF up F.CRD_CTL_SCRUB_INTERVAL 0) F.CRD_CTL_SCRUB_INTERVAL = 0 := by decide

/-- Window 0 of tile memory 0 in a given state, credits allowed. -/
def windowed (x : Window) : State := setW (setF up F.CRD_CTL_ENABLE 1) 0 0 x
/-- An open window of 16 rows for partition 0 with four of its credits at the drain sequencer. -/
def openWin : Window := { base := 0, rows := 16, pool := 12, outstanding := 4, st := .opened, holders := [(22, 4)], requests := [(30, 3)] }

/-! Credits are asked for, granted, returned and spent, and the pool and outstanding credits follow -/

theorem witness_credit_request : isSet (windowed openWin) F.CRD_CTL_ENABLE = true ∧ (getW (windowed openWin) 0 0).st = .opened ∧
    (getW (windowed openWin) 0 0).part = (0 : Nat) := by decide
theorem witness_credit_grant : (getW (windowed openWin) 0 0).requests = (30, 3) :: [] ∧ 1 ≤ (getW (windowed openWin) 0 0).pool := by decide
theorem witness_remote_write : 0 < heldBy (getW (windowed openWin) 0 0) 22 ∧ (getW (windowed openWin) 0 0).base ≤ 15 ∧
    15 < (getW (windowed openWin) 0 0).base + (getW (windowed openWin) 0 0).rows ∧
    tileLocked (windowed openWin) (tileAddr 0 + 512 * 15) = false ∧
    (∀ p ∈ ([(63, List.replicate 8 1#8)] : RowWords), p.1 < 64 ∧ p.2.length = 8) := by decide
theorem witness_stale_write : (1 : Nat) ≠ (getW (windowed openWin) 0 0).epoch := by decide
theorem witness_credit_refused : (getW (windowed {}) 0 0).st = .closed ∧ (getW (windowed { openWin with st := .draining }) 0 0).st = .draining ∧
    isSet (windowed {}) F.CRD_CTL_ENABLE = true := by decide

/-! Windows open with a full pool, drain and close, and are revoked after the timeout -/

/-- A closed window configured with 16 rows. -/
def closedWin : State := windowed { rows := 16 }

theorem witness_winctl : regGate closedWin false 5 0x2C boss 1 = .pass ∧ winSel closedWin = some (0, 0) ∧
    openTooSoon closedWin (getW closedWin 0 0) = false ∧ openBad closedWin 0 0 0 16 = false ∧ regGate closedWin false 5 0x2C boss 2 = .pass ∧
    regGate closedWin false 5 0x2C boss (3 + 65536 * (1023#10).toNat) = .pass := by decide
/-- WIN words of 16 rows, and of none. -/
def winWord (op rows : Nat) : BitVec 256 := BitVec.ofNat 256 (0x61 + op * 2 ^ 136 + rows * 2 ^ 152)

theorem witness_win_words : ready (runs 0) 0 (winWord 1 16) = true ∧ wClass (winWord 1 16) = 6 ∧ winOp (winWord 1 16) = 1 ∧
    winReasons 0 (winWord 1 16) true true = [] ∧ winOp (winWord 2 0) = 2 ∧ winReasons 0 (winWord 2 0) false false = [] ∧
    winOp (winWord 3 16) = 3 ∧ winReasons 0 (winWord 3 16) false true = [] ∧ ready (runs 0) 0 (winWord 2 0) = true ∧
    ready (runs 0) 0 (winWord 3 16) = true ∧ ready (runs 0) 0 (winWord 0 0) = true ∧ winOp (winWord 0 0) = 0 ∧
    (getW (runs 0) 0 0).accepted ≠ some 0 ∧ openTooSoon (runs 0) (getW (runs 0) (winTile 0 (winWord 1 16)) 0) = false ∧
    openBad (runs 0) (winTile 0 (winWord 1 16)) 0 0 16 = false := by decide
theorem witness_close : (getW (windowed { openWin with requests := [], outstanding := 0 }) 0 0).requests = [] ∧
    (getW (windowed { openWin with requests := [] }) 0 0).outstanding ≠ 0 ∧ (getW (windowed openWin) 0 0).outstanding ≤ 16 := by decide
theorem witness_open_accept : (getW (windowed { heldOpen := some (0, 0, 16, 0) }) 0 0).heldOpen = some (0, 0, 16, 0) ∧
    openTooSoon (windowed { heldOpen := some (0, 0, 16, 0) }) (getW (windowed { heldOpen := some (0, 0, 16, 0) }) 0 0) = false ∧
    openBad (windowed { heldOpen := some (0, 0, 16, 0) }) 0 0 0 16 = false := by decide
theorem witness_credit_timeout : (getW (windowed { openWin with st := .draining }) 0 0).st = .draining ∧
    0 < (getW (windowed { openWin with st := .draining }) 0 0).outstanding ∧
    (getW (windowed { openWin with st := .draining }) 0 0).deadline ≤ (windowed openWin).timeC := by decide
theorem witness_revocation : (getW (windowed { openWin with st := .revoking, revoking := [22] }) 0 0).revoking.contains 22 = true ∧
    (getW (windowed { openWin with st := .revoking, revoking := [22], holders := [] }) 0 0).revoking = [22] ∧
    heldBy (getW (windowed { openWin with st := .revoking, revoking := [22], holders := [] }) 0 0) 22 = 0 := by decide

/-! Engines start from a register, wait for cairns, emit them, leave holds, and end their programs -/

/-- The drain sequencer enabled and idle. -/
def startable : State := setF up F.DRN_CTL_ENABLE 1
/-- GO at word 3 for partition 0. -/
def goWord : BitVec 32 := BitVec.ofNat 32 (2 ^ 15 + 3)

theorem witness_start : regGate startable false (engBlock 1) (hxrBank 1 % 0x10000 + 0xC) boss goWord.toNat = .pass ∧
    bitOf goWord.toNat 15 = true ∧ bitOf goWord.toNat 14 = false ∧ engEnable startable 1 = true ∧ (getE startable 1).st = .idle ∧
    itemArmed startable 1 = false ∧ isSet startable (F.HXR_STAT_LEVEL_BAD 1) = false ∧ 1 < startable.hx.length := by decide
set_option maxRecDepth 4000 in
theorem witness_preset : (let s := setF startable F.DRC_STAT_READY 1
    let r := busRead s (engMaster 1 0) .system (presetAddr s 1) 128
    r.s = s ∧ r.ok = true ∧ r.poison = false ∧ r.why = none ∧ presetBad r.data = false) := by decide
/-- The drain waiting on queue 5, and emitting to it. -/
def cairnWaiting : State :=
  setE (queued [{ cairn := true, data := [], producer := 0 }]) 1 { getE up 1 with st := .wait, waitQ := some 5 }
def emitting : State := setE (queued []) 1 { getE up 1 with st := .run, emits := [{ q := 5 }] }

theorem witness_cairn_wait : (getE cairnWaiting 1).st = .wait ∧ (getE cairnWaiting 1).waitQ = some 5 ∧
    headQ cairnWaiting 5 = some { cairn := true, data := [], producer := 0 } := by decide
theorem witness_cairn_enter : (getE emitting 1).emits = { q := 5 } :: [] ∧ unacked emitting 1 0 = false ∧
    qRefusal (getQ emitting 5) (getE emitting 1).part = none := by decide
theorem witness_cairn_refused : qRefusal (getQ (setQ emitting 5 {}) 5) (getE (setQ emitting 5 {}) 1).part = some 2 ∧
    (getE (setQ emitting 5 {}) 1).emits = { q := 5 } :: [] := by decide
theorem witness_hold : (getE (setE up 1 { getE up 1 with st := .held }) 1).st = .held ∧ up.sch.frozen = [] ∧ up.crd.wins = [] := by decide
/-- The drain after its HALT, for item 20 of index 0. -/
def haltedRun : State := setE up 1 { getE up 1 with st := .run, halted := true, item := some (0, 20) }

theorem witness_program_end : (getE haltedRun 1).halted = true ∧ (getE haltedRun 1).emits = [] ∧ unitDone haltedRun 1 = true ∧
    1 < haltedRun.hx.length ∧ haltedRun.sch.run = none := by decide

/-- A transfer descriptor: operation, flags, length, source and destination. -/
def desc0 (op flags len src dst : Nat) : Bytes :=
  leBytes 1 op ++ leBytes 1 flags ++ leBytes 2 0 ++ leBytes 4 len ++ leBytes 8 src ++ leBytes 8 dst ++ List.replicate 40 0
/-- Stream DMA engine 0 running, with DRAM ready and a word in force. -/
def dmaWord0 : DmaWord := { serial := 1, pc := 0, descs := [emberBase], srcOff := 0, dstOff := 0, taglim := 256, post := some 7, emit := none }
def moving (x : DmaEng) : State := setD (setF (runs 2) F.DRC_STAT_READY 1) 2 x
/-- The same with a descriptor in force. -/
def carrying (raw : Bytes) : State := moving { words := [dmaWord0], xfer := some { idx := 0, addr := emberBase, raw := raw } }

/-! An XFER word reads its descriptors, and copies, loads and small writes move their bytes -/

/-- A COPY of 64 bytes from 0x1000 to 0x2000 of DRAM in Ember memory, and engine 0 at an XFER word of it. -/
def fetching : State :=
  let s := moving {}
  { setE s 2 { getE s 2 with ags := (getE s 2).ags.set 0 { seg := emberBase } } with mem := memWrite [] emberBase (desc0 0 0 64 0x1000 0x2000) }
/-- XFER of one descriptor without offsets: the offset registers read zero. -/
def xferSample : BitVec 256 := BitVec.ofNat 256 (0x81 + 2 ^ 136)

set_option maxRecDepth 4000 in
theorem witness_xfer : ready fetching 2 xferSample = true ∧ wClass xferSample = 8 ∧ laybyDue fetching 2 = false ∧ pF xferSample 18 9 ≤ 256 ∧ pF xferSample 41 79 = 0 ∧ pF xferSample 8 5 < 30 ∧
    pF xferSample 13 5 < 30 ∧ wordNow (getD fetching 2) = none ∧
    agAddr (nth (getE fetching 2).ags 0 {}) (agFirst (nth (getE fetching 2).ags 0 {}) (wAgc xferSample 0)).p = emberBase ∧
    region emberBase = .ember ∧ region (emberBase + 63) = .ember ∧ (getE fetching 2).part = 0 ∧
    (∀ k ∈ rowWords emberBase, tabGet fetching.mapu.bad k 0 = 0) ∧ 2 < fetching.hx.length ∧ 2 - 2 < fetching.dma.length := by decide
set_option maxRecDepth 4000 in
theorem witness_xfer_descriptor : descBad fetching 0 false (addOffsets (memRead fetching.mem emberBase 64)
    (regRead fetching (getE fetching 2) (pF xferSample 8 5)).toInt (regRead fetching (getE fetching 2) (pF xferSample 13 5)).toInt) = none := by decide
theorem witness_xfer_end : wordNow (getD (moving { words := [{ dmaWord0 with next := 1 }] }) 2) = some { dmaWord0 with next := 1 } ∧
    (getD (moving { words := [{ dmaWord0 with next := 1 }] }) 2).xfer = none ∧ dmaWord0.descs.length ≤ 1 ∧
    ready (moving { words := [{ dmaWord0 with next := 1 }] }) 2 xferSample = true ∧ wClass 1#256 ≠ 8 := by decide

/-- The COPY in force. -/
def copying : State := carrying (desc0 0 0 64 0x1000 0x2000)

set_option maxRecDepth 4000 in
theorem witness_copy : (getE copying 2).st = .run ∧ (getD copying 2).words = [dmaWord0] ∧ xOp (desc0 0 0 64 0x1000 0x2000) = 0 ∧
    xCrypt (desc0 0 0 64 0x1000 0x2000) = 0 ∧ bitOf (xFlags (desc0 0 0 64 0x1000 0x2000)) 5 = false ∧ withheld copying (2 - 2) < 256 ∧
    xLen (desc0 0 0 64 0x1000 0x2000) = 64 ∧ xSrc (desc0 0 0 64 0x1000 0x2000) = 0x1000 ∧ xDst (desc0 0 0 64 0x1000 0x2000) = 0x2000 ∧
    region (swizzle 0x1000 (xMask (desc0 0 0 64 0x1000 0x2000) false)) = .dram ∧
    busGate copying (engMaster 2 0) (.dma false) (swizzle 0x1000 (xMask (desc0 0 0 64 0x1000 0x2000) false)) 64 false = .pass ∧ copying.sch.phase ≠ 1 ∧
    dramEcc copying (engMaster 2 0) 0x1000 64 = (copying, false) := by decide

/-- A TENSOR from the descriptor at 0 of DRAM to the one at 64. -/
def tensoring : State := { carrying (desc0 1 0 0 0 64) with mem := memWrite (memWrite [] 0 (tensor0 7)) 64 (tensor0 7) }

set_option maxRecDepth 8000 in
theorem witness_tensor : (xferReady tensoring 2 1).map (fun x => (fenced tensoring 2 x, x.opened)) = some (false, false) ∧
    (match (xferReady tensoring 2 1).map (openTensor tensoring 2) with
      | some (.inr _) => true
      | _ => false) = true ∧ lineElems (tdesc tensoring 64) 0 = [0] ∧ tileOf (tdesc tensoring 0).base = none := by decide
set_option maxRecDepth 8000 in
theorem witness_tensor_line : gateLines tensoring (engMaster 2 0) (.dma false) false (fun _ => 0) [8] = (tensoring, [], false) ∧
    sourceLines (tdesc tensoring 0) [accessAt (tdesc tensoring 64) 0] = [8] ∧
    srcUnreach tensoring (engMaster 2 0) (tdesc tensoring 0) [accessAt (tdesc tensoring 64) 0] = false := by decide

/-- A CSLOAD of one word from DRAM into the drain's store. -/
def csloading (s : State) : State := setD s 2 { words := [dmaWord0], xfer := some { idx := 0, addr := emberBase, raw := desc0 2 0 32 0x1000 (csAddr 1) } }

theorem witness_csload : (xferReady (csloading (moving {})) 2 2).isSome = true ∧
    (xferReady (csloading (moving {})) 2 2).all (fun x => !x.opened && !fenced (csloading (moving {})) 2 x) = true ∧
    (match (xferReady (csloading (moving {})) 2 2).map (openXfer (clearLevelBad (csloading (moving {})) (csAddr 1)) 2) with
      | some (.inr _) => true
      | _ => false) = true ∧
    storeLocked (csloading (moving {})) (csAddr 1) = false ∧
    storeLocked (csloading (setF (moving {}) F.DRN_CTL_ENABLE 1)) (csAddr 1) = true := by decide

/-- A SMALL of four bytes to 0x2000 of DRAM. -/
def smallRaw : Bytes := (desc0 3 0 4 0 0x2000).take 32 ++ leBytes 4 5 ++ List.replicate 28 0

theorem witness_small : (xferReady (carrying smallRaw) 2 3).isSome = true ∧
    (xferReady (carrying smallRaw) 2 3).all (fun x => x.tile == none && !fenced (carrying smallRaw) 2 x && x.pos == 0 && !smallBehind (carrying smallRaw) 2 x) = true ∧
    (carrying smallRaw).fp.waiting = [] ∧ (carrying smallRaw).fp.held = [] ∧
    smallParts smallRaw = [(xDst smallRaw, (smallRaw.drop 32).take (xLen smallRaw))] ∧ tileOf (xDst smallRaw) = none ∧
    (carrying smallRaw).fp.held.length + (carrying smallRaw).fp.granted.length < 64 ∧ region (xDst smallRaw) = .dram ∧
    region (swizzle (xDst smallRaw) (xMask smallRaw true)) = .dram ∧
    busGate (carrying smallRaw) (engMaster 2 0) (.dma false) (swizzle (xDst smallRaw) (xMask smallRaw true))
      ((smallRaw.drop 32).take (xLen smallRaw)).length true
      (leVal (((smallRaw.drop 32).take (xLen smallRaw)).take 4)) = .pass := by decide
theorem witness_boot_port : up.bootPort = none ∧ compDown up = false ∧ (getE up 2).st = .idle ∧ (getE (runs 2) 2).st ≠ .idle ∧ (getE (runs 2) 2).st ≠ .parked ∧
    (desc0 2 0 32 0 (csAddr 1)).length = 64 := by decide

/-! A burst writes its bytes and frees its tag, a block is checked, and a word posts its completion -/

/-- A burst of one byte to 0x2000 of DRAM in flight. -/
def burst0 : DmaBurst := { word := 1, desc := 0, dst := 0x2000, data := [1] }
def flying0 : State := moving { words := [dmaWord0], bursts := [burst0] }

theorem witness_burst : (getD flying0 2).bursts[0]? = some burst0 ∧ (getD flying0 2).bursts.take 0 = [] ∧ region burst0.dst = .dram ∧
    (getD flying0 2).commits = [] ∧ busGate flying0 (engMaster 2 0) (.dma false) burst0.dst burst0.data.length true (leVal (burst0.data.take 4)) = .pass ∧
    dramOut flying0 burst0.dst = false ∧ burst0.need = 0 ∧ burst0.cs = false := by decide
theorem witness_orphan : (getD (moving { orphan := 1 }) 2).bursts[0]? = none ∧ 0 < (getD (moving { orphan := 1 }) 2).orphan := by decide

/-- A whole block of zeros. -/
def block0 : DmaBlock :=
  { word := 1, desc := 0, daddr := 0, idx := 0, slot := 0, tagAt := 0x3000, nonce := [], encrypt := false, cipher := [(0, List.replicate 4096 0)] }
def blocked (m : Mem) : State := { moving { blocks := [block0] } with mem := m }
/-- The stored tag is read as memory holds it. -/
theorem blocked_read (m : Mem) : dmaRead (blocked m) (engMaster 2 (getE (blocked m) 2).part) false 0x3000 16 =
    ⟨blocked m, memRead m 0x3000 16, true, false, none⟩ := rfl
theorem block0_whole : blockWhole block0 = true := by
  simp only [blockWhole, block0, blockText, List.map_cons, List.map_nil, List.flatten_cons, List.flatten_nil, List.append_nil,
    List.length_replicate]
  decide
theorem tag_length (k : BitVec 256) (iv ct : Bytes) : (gcmTagOf k iv ct).length = 16 := by simp [gcmTagOf, leBytes]

theorem witness_block_auth : ∃ m, (getD (blocked m) 2).blocks = [block0] ∧
    dmaRead (blocked m) (engMaster 2 (getE (blocked m) 2).part) false block0.tagAt 16 =
      ⟨blocked m, gcmTagOf 0 (gcmIv [] 0) (blockText block0), true, false, none⟩ := by
  refine ⟨memWrite [] 0x3000 (gcmTagOf 0 (gcmIv [] 0) (blockText block0)), rfl, ?_⟩
  refine (blocked_read _).trans ?_
  have h := memRead_laid 0x3000 (gcmTagOf 0 (gcmIv [] 0) (blockText block0))
  rw [tag_length] at h
  rw [h]
theorem witness_block_fails : ∃ m tag, (getD (blocked m) 2).blocks = [block0] ∧
    dmaRead (blocked m) (engMaster 2 (getE (blocked m) 2).part) false block0.tagAt 16 = ⟨blocked m, tag, true, false, none⟩ ∧
    tag ≠ gcmTagOf 0 (gcmIv [] 0) (blockText block0) := by
  by_cases h : memRead [] block0.tagAt 16 = gcmTagOf 0 (gcmIv [] 0) (blockText block0)
  · exact ⟨[(0x3000, 1)], _, rfl, blocked_read _, by rw [← h]; decide⟩
  · exact ⟨[], _, rfl, blocked_read _, h⟩

/-- A word all of whose bursts are done, its completion for queue 7 or none. -/
def doneWord (post : Option Nat) : State :=
  setQ (moving { words := [{ dmaWord0 with issued := true, post := post }] }) 7 { depth := 4, consumer := 0 }

theorem witness_xfer_complete : (getD (doneWord (some 7)) 2).words = [{ dmaWord0 with issued := true }] ∧
    qRefusal (getQ (doneWord (some 7)) 7) (getE (doneWord (some 7)) 2).part = none ∧ (getQ (doneWord (some 7)) 7).consumer < 24 ∧
    (getD (doneWord none) 2).words = [{ dmaWord0 with issued := true, post := none }] := by decide

/-- A step of the array sequencer alone for partition 0. -/
def step0 : Step := { id := 3, cq := 9, part := 0, engs := [(0, 0, 0)] }
/-- The block with a step that holds the array, and partition 0 with a lay-by area. -/
def stepping (x : Step) (phase : Nat) : State :=
  { setF up (F.LBY_BASE_LO_ADDR 0) 1 with sch := { run := some x, phase := phase } }

/-! Elastic steps are submitted, chosen, started, shaped and completed -/

/-- A submission entry at the head of queue 4, consumed by the scheduler, and a step descriptor at 0x1000 of DRAM. -/
def submitting (a : Nat) : State :=
  let s := setF (setF up F.DRC_STAT_READY 1) (F.LBY_BASE_LO_ADDR 0) 1
  { setQ s 4 { depth := 8, consumer := 20, entries := [{ cairn := false, data := leBytes 8 a ++ leBytes 2 3 ++ leBytes 2 9 ++ leBytes 4 0, producer := 0 }] }
    with mem := memWrite [] 0x1000 [1] }

set_option maxRecDepth 4000 in
theorem witness_submit : (schedHead (submitting 0x1000) 4).map (fun x => leAt x.data 0 6) = some 0x1000 ∧
    inPartition (popQ (submitting 0x1000) 4) 0 0x1000 64 = true ∧ laybyBase (popQ (submitting 0x1000) 4) 0 ≠ 0 ∧
    busRead (popQ (submitting 0x1000) 4) schedMaster .system 0x1000 64 =
      ⟨popQ (submitting 0x1000) 4, memRead (submitting 0x1000).mem 0x1000 64, true, false, none⟩ ∧
    stepDescOk (memRead (submitting 0x1000).mem 0x1000 64) = true ∧ (submitting 0x1000).sch.run = none := by decide
theorem witness_submit_refused : (schedHead (submitting 0x1001) 4).map (fun x => leAt x.data 0 6 % 64) = some 1 := by decide

/-- A submitted step that may run on spill, with the array enabled. -/
def choosable : State :=
  { setF (setF up (F.SCH_SHARE_SPILL 0) 1) F.ARR_CTL_ENABLE 1 with sch := { submitted := [step0] } }

theorem witness_choice : schedChoice (atComp 0 choosable) = some (0, true) ∧ stepOf (atComp 0 choosable) 0 = some step0 ∧
    leadAt (atComp 0 choosable) [0] = none ∧ itemArmed (atComp 0 choosable) 0 = false ∧ (getE (atComp 0 choosable) 0).st = .idle ∧
    (startAll (atComp 0 choosable) 0 step0.engs).2 = true := by decide
theorem witness_share : (chargeStep (atComp 0 (stepping step0 0))).sch.run = some step0 ∧
    belowShare (chargeStep (atComp 0 (stepping step0 0))) 0 = false := by decide

/-- A plan of one batch item with a preset record in force, and a shape entry for an item in queue 4. -/
def shaping (id : Nat) : State :=
  let s := setF up F.TICK_STAT_PLAN_ID 1
  let s := { s with tick := { s.tick with plans := [{ plan0 with items := [{ item0 with batch := true, preset := 0 }], presets := [List.replicate 128 0] }] } }
  setQ s 4 { depth := 8, consumer := 20, entries := [{ cairn := false, data := leBytes 2 id ++ leBytes 1 0 ++ leBytes 1 1 ++ leBytes 12 7, producer := 0 }] }

theorem witness_shape : (schedHead (atComp 0 (shaping 20)) 4).map (fun x => (leAt x.data 0 2, leAt x.data 2 1, leAt x.data 3 1)) = some (20, 0, 1) ∧
    (planNow (atComp 0 (shaping 20))).all (fun pl => pl.items.any (fun i => i.id == 20 && i.batch && i.part == 0 && decide (i.preset < pl.presets.length)))
      = true ∧ (planNow (atComp 0 (shaping 20))).isSome = true ∧ (shaping 20).sch.shadows = [] := by decide
theorem witness_shape_dropped : (schedHead (atComp 0 (shaping 99)) 4).map (fun x => leAt x.data 0 2) = some 99 ∧
    (planNow (atComp 0 (shaping 99))).all (fun pl => (pl.items.find? (fun i => i.id == 99)).isNone) = true := by decide
theorem witness_step_completion : ({ up with sch := { ended := [(step0, 0)] } } : State).sch.ended = (step0, 0) :: [] := by decide

/-! A lay-by is requested, saves the step and parks its engines, and a resume restores it or finds its tags wrong -/

theorem witness_lby_cmd : regGate (stepping step0 0) false 1 0x244 boss 1 = .pass ∧ (stepping step0 0).sch.phase = 0 ∧
    regGate ({ up with sch := { parked := [step0] } } : State) false 1 0x244 boss (2 + 4 * (0#3).toNat) = .pass ∧ step0.part = (0#3).toNat := by decide

/-- The step held while item 0 of the plan is armed for the array at 1 ms. -/
def leading : State := { itemDue with sch := { run := some step0 } }

theorem witness_lead : (leadAt (atComp 1000000 leading) [0]).any (fun (l : Int) => decide (l ≤ 1000000)) = true := by decide
theorem witness_late : (atComp 1000000000 (stepping step0 3)).sch.reqAt +
    1000 * getF (atComp 1000000000 (stepping step0 3)) F.LBY_CTL_SP_LIMIT_US ≤ 1000000000 := by decide
theorem witness_entry : (closeStep (stepping step0 1)).crd = (stepping step0 1).crd ∧ (closeStep (stepping step0 1)).sch = (stepping step0 1).sch ∧
    (stepping step0 1).bootPort = none ∧ entryReady (stepping step0 1) step0 = true ∧ (stepping step0 1).mapu.bad = [] ∧ (stepping step0 1).flt.restarts = [] ∧
    (∀ y ∈ step0.engs, y.1 < (stepping step0 1).hx.length) := by decide

/-- A parked step whose resume is asked for. -/
def resuming : State := { setF up F.ARR_CTL_ENABLE 1 with sch := { parked := [step0], resume := some 0 } }

theorem witness_exit_begin : isSet resuming F.ARR_CTL_ENABLE = true ∧ (∀ z ∈ resuming.arr.slots, z.st = .free) ∧
    (∀ y ∈ step0.engs, ((getE resuming y.1).st = .idle ∨ (getE resuming y.1).st = .parked) ∧ itemArmed resuming y.1 = false) := by decide

/-- What an idle array saves. -/
def saved0 : Saved := { engs := [(0, {})], arr := {}, accKeys := [], drn := {}, dmas := [], wins := [] }
/-- The step being restored from an area at 0x1000 in a given memory. -/
def restoring (m : Mem) : State := { stepping { step0 with saved := some saved0 } 2 with mem := m }

/-- The tags of a block `z` under key 0, block by block. -/
def tagOfZ (z : Bytes) (i : Nat) : Bytes := gcmTagOf 0 (gcmIv (List.replicate 8 0) i) z
/-- Memory with the tags of `n` blocks `z` from address `a` on. -/
def tagged (z : Bytes) (a n : Nat) : Mem := memWrite [] a ((List.range n).map (tagOfZ z)).flatten

theorem tags_length (z : Bytes) (n : Nat) : ((List.range n).map (tagOfZ z)).flatten.length = 16 * n := by
  induction n with
  | zero => rfl
  | succ n ih =>
    rw [List.range_succ, List.map_append, List.flatten_append, List.length_append, ih, List.map_cons, List.map_nil, List.flatten_cons,
      List.flatten_nil, List.append_nil, tagOfZ, tag_length]
    omega
theorem tags_nth (z : Bytes) (n i j : Nat) (hi : i < n) (hj : j < 16) :
    nth ((List.range n).map (tagOfZ z)).flatten (16 * i + j) 0 = nth (tagOfZ z i) j 0 := by
  induction n with
  | zero => omega
  | succ n ih =>
    rw [List.range_succ, List.map_append, List.flatten_append]
    have hl := tags_length z n
    by_cases h : i < n
    · rw [← ih h]; simp only [nth]; rw [List.getElem?_append_left (by omega)]
    · have : i = n := by omega
      subst this
      simp only [nth]
      rw [List.getElem?_append_right (by omega), hl, Nat.add_sub_cancel_left, List.map_cons, List.map_nil, List.flatten_cons, List.flatten_nil,
        List.append_nil]
theorem tagged_eq (z : Bytes) (a n : Nat) : tagged z a n = cells a ((List.range n).map (tagOfZ z)).flatten := by
  simp only [tagged, memWrite, List.filter_nil, List.nil_append, List.append_nil]
theorem tagged_outside (z : Bytes) (a n b k : Nat) (h : b + k ≤ a ∨ a + 16 * n ≤ b) : memRead (tagged z a n) b k = List.replicate k 0 := by
  apply List.ext_getElem (by simp only [memRead, List.length_map, List.length_range, List.length_replicate])
  intro i h1 h2
  simp only [memRead, List.length_map, List.length_range] at h1
  simp only [memRead, List.getElem_map, List.getElem_range, List.getElem_replicate, tagged_eq, rdByte, tabGet]
  have : (cells a ((List.range n).map (tagOfZ z)).flatten).find? (fun x => x.1 == b + i) = none := by
    rw [List.find?_eq_none]
    intro x hx
    have g := (cells_spec _ _).2 x hx
    rw [tags_length] at g
    simp only [beq_iff_eq]; omega
  rw [this]
theorem tagged_tag (z : Bytes) (a n i : Nat) (h : i < n) : memRead (tagged z a n) (a + 16 * i) 16 = tagOfZ z i := by
  apply List.ext_getElem (by simp only [memRead, List.length_map, List.length_range, tagOfZ, tag_length])
  intro k h1 h2
  have hk : k < 16 := by simpa only [memRead, List.length_map, List.length_range] using h1
  simp only [memRead, List.getElem_map, List.getElem_range, tagged_eq]
  rw [Nat.add_assoc, rdByte_cells _ _ _ (by rw [tags_length]; omega), tags_nth z n i k h hk]
  simp only [nth, List.getElem?_eq_getElem h2, Option.getD_some]
theorem area_base (m : Mem) : laybyBase (restoring m) 0 = 0x1000 :=
  (show laybyBase (restoring m) 0 = laybyBase (restoring []) 0 from rfl).trans (by decide)
theorem area_mem (m : Mem) : (restoring m).mem = m := rfl
theorem load_tagged (z : Bytes) (k i : Nat) (hz : z = List.replicate 4096 0) (hk : k = 1536) (h : i < 4 ∨ (1040 ≤ i ∧ i < 1328)) :
    (loadBlock (restoring (tagged z 0x5010 k)) 0 0 i).2 = true := by
  simp only [loadBlock, area_base, area_mem]
  rw [tagged_outside z 0x5010 k (0x1000 + 0x4000) 8 (by omega), tagged_outside z 0x5010 k (0x1000 + 4096 * i) 4096 (by omega),
    show 0x1000 + 0x4000 + 16 + 16 * i = 0x5010 + 16 * i by omega, tagged_tag z 0x5010 k i (by omega), ← hz]
  exact beq_self_eq_true _

theorem witness_restore : ∃ m, ∀ i ∈ laybyBlocks saved0.arr.slots, (loadBlock (restoring m) 0 0 i).2 = true := by
  refine ⟨tagged (List.replicate 4096 0) 0x5010 1536, fun i hi => ?_⟩
  apply load_tagged _ _ _ rfl rfl
  have : (List.range 8).filter (fun k => (nth saved0.arr.slots k {}).st != .free) = [] := by decide
  rw [laybyBlocks, this, List.flatMap_nil, List.append_nil, List.mem_append, List.mem_range, List.mem_map] at hi
  rcases hi with hi | ⟨a, ha, rfl⟩
  · exact .inl hi
  · rw [List.mem_range] at ha; exact .inr ⟨by omega, by omega⟩
theorem witness_restore_fails : ∃ m, (loadBlock (restoring m) 0 0 0).2 = false := by
  by_cases h : (loadBlock (restoring []) 0 0 0).2 = true
  · refine ⟨[(0x5010, 1#8)], ?_⟩
    simp only [loadBlock, area_base, area_mem] at h ⊢
    have a1 : memRead [(0x5010, 1#8)] (0x1000 + 0x4000) 8 = memRead [] (0x1000 + 0x4000) 8 := by decide
    have a2 : ∀ n, n ≤ 4096 → memRead [(0x5010, 1#8)] (0x1000 + 4096 * 0) n = memRead [] (0x1000 + 4096 * 0) n := by
      intro n hn
      apply List.map_congr_left
      intro k hk
      rw [List.mem_range] at hk
      have : ((0x5010 : Nat) == 0x1000 + 4096 * 0 + k) = false := by simp only [beq_eq_false_iff_ne]; omega
      simp only [rdByte, tabGet, List.find?_cons, this, List.find?_nil]
    rw [a1, a2 4096 (Nat.le_refl _), ← eq_of_beq h]
    decide
  · exact ⟨[], by simpa only [Bool.not_eq_true] using h⟩

/-! A frame start numbers its frame and admits or drops it; errors and link changes are counted and shown -/

/-- A context record: context on port 0, virtual channel 0, RAW8, lines of 512 bytes, four lines, 16 rows of raw buffer, ADMIT `a`. -/
def camRec0 (flags a : Nat) : Bytes :=
  leBytes 1 flags ++ leBytes 1 0 ++ leBytes 1 0x2A ++ leBytes 1 0x10 ++ leBytes 2 512 ++ leBytes 2 4 ++ leBytes 2 0 ++ leBytes 2 16
    ++ leBytes 2 a ++ leBytes 2 0 ++ leBytes 6 0x10000 ++ leBytes 2 8 ++ leBytes 2 0 ++ leBytes 4 0
/-- Port 0 enabled with context 0, whose record is given. -/
def cam0 (r : Bytes) : State :=
  let s := setF (setF up F.CAM_CTL_PORT_EN 1) F.CAM_CTL_CTX_EN 1
  { s with cam := { s.cam with mem := memWrite [] 0x400 r } }

set_option maxRecDepth 8000 in
theorem witness_frame_start : portOn (atPort 5 (cam0 (camRec0 4 4))) 0 = true ∧ ctxsOf (atPort 5 (cam0 (camRec0 4 4))) 0 0 = [0] ∧
    (getC (atPort 5 (cam0 (camRec0 4 4))) 0).cur = none ∧ waitingIsp (atPort 5 (cam0 (camRec0 4 4))) 0 = none ∧
    iAuto (getI (atPort 5 (cam0 (camRec0 4 4))) 0).record = 0 ∧ bitOf (cFlags (camRec (atPort 5 (cam0 (camRec0 4 4))) 0)) 0 = false ∧
    cAdmit (camRec (atPort 5 (cam0 (camRec0 4 4))) 0) ≤ camFree (atPort 5 (cam0 (camRec0 4 4))) 0 := by decide
set_option maxRecDepth 8000 in
theorem witness_frame_drop : ctxsOf (cam0 (camRec0 5 4)) 0 0 = [0] ∧ bitOf (cFlags (camRec (cam0 (camRec0 5 4)) 0)) 0 = true ∧
    waitingIntake (cam0 (camRec0 5 4)) 0 = none ∧ ctxsOf (cam0 (camRec0 4 17)) 0 0 = [0] ∧
    camFree (cam0 (camRec0 4 17)) 0 < cAdmit (camRec (cam0 (camRec0 4 17)) 0) := by decide
theorem witness_phy : portOn (cam0 []) 0 = true ∧ portOn (cam0 []) 1 = false ∧ nth (cam0 []).cam.linkErrAt 0 none = none ∧
    (∀ t0 ∈ nth (cam0 []).cam.linkErrAt 0 none, t0 + 1000000 ≤ (cam0 []).timeP) := by decide
theorem witness_phy_recent : portOn ({ cam0 [] with cam := { linkErrAt := [some 0, none, none, none] } } : State) 0 = true ∧
    ({ cam0 [] with cam := { linkErrAt := [some 0, none, none, none] } } : State).timeP < 0 + 1000000 := by decide

/-! A pixel line fills its rows of the raw buffer, a frame end queues the status word, and released rows come back -/

/-- A frame open in context 0, and the ISP's frame of it. -/
def camFrame0 : CamFrame := { frame := 1, fn := 1, admitted := true }
def ispFrame0 : IspFrame := { ctx := 0, frame := 1, dt := 0x2A, part := 0, fed := false, rpl := 1 }
/-- Context 0 receiving: an open frame, epochs and lines waiting as given. -/
def receiving (flags : Nat) (f : CamFrame) (es : List Epoch) (q : List CamFifo) (ns : List (Nat × Nat)) : State :=
  let s := setC (cam0 (camRec0 flags 4)) 0 { cur := some f, epochs := es, used := 16 * ns.length }
  { s with cam := { s.cam with fifo := [q, [], [], []], notices := ns }, isp := { s.isp with frames := [ispFrame0] } }

set_option maxRecDepth 8000 in
theorem witness_line : portOn (receiving 4 camFrame0 [] [] []) 0 = true ∧
    (ctxsOf (receiving 4 camFrame0 [] [] []) 0 0).find? (fun k => cDt (camRec (receiving 4 camFrame0 [] [] []) k) == 0x2A) = some 0 ∧
    camFrame0.lines < cLines (camRec (receiving 4 camFrame0 [] [] []) 0) ∧
    (List.replicate 512 (1#8)).length = cWidth (camRec (receiving 4 camFrame0 [] [] []) 0) ∧
    embMissing (getC (receiving 4 camFrame0 [] [] []) 0) (camRec (receiving 4 camFrame0 [] [] []) 0) camFrame0 = false ∧
    cLineRows (camRec (receiving 4 camFrame0 [] [] []) 0) ≤ camFree (receiving 4 camFrame0 [] [] []) 0 ∧
    cLineRows (camRec (receiving 4 camFrame0 [] [] []) 0) ≤ cRbRows (camRec (receiving 4 camFrame0 [] [] []) 0) ∧
    findFrame (receiving 4 camFrame0 [] [] []) 0 1 = some ispFrame0 := by decide
/-- An epoch in force from frame 1 with one checked register, one byte at offset 0 of the line. -/
def epoch0 : Epoch := { num := 1, prev := 0, from_ := 1, split := 1, check := true, vals := [{ dev := 0x10, reg := 0, off := 0, bytes := 1, value := 7 }] }
set_option maxRecDepth 8000 in
theorem witness_embedded : portOn (receiving 0x14 camFrame0 [epoch0] [] []) 0 = true ∧
    (ctxsOf (receiving 0x14 camFrame0 [epoch0] [] []) 0 0).find? (fun k => bitOf (cFlags (camRec (receiving 0x14 camFrame0 [epoch0] [] []) k)) 4)
      = some 0 ∧ epochOf (getC (receiving 0x14 camFrame0 [epoch0] [] []) 0) camFrame0.frame = some epoch0 ∧
    epoch0.vals.all (embHas (bitOf (cFlags (camRec (receiving 0x14 camFrame0 [epoch0] [] []) 0)) 5) [7]) = true := by decide
set_option maxRecDepth 8000 in
theorem witness_frame_end : ctxsOf (atPort 9 (receiving 4 { camFrame0 with lines := 4 } [] [] [])) 0 0 = [0] ∧
    cLines (camRec (atPort 9 (receiving 4 { camFrame0 with lines := 4 } [] [] [])) 0) ≤ 4 ∧
    0 < (atPort 9 (receiving 4 { camFrame0 with lines := 4 } [] [] [])).cam.fifo.length := by decide
set_option maxRecDepth 8000 in
theorem witness_notice : getFifo (receiving 4 camFrame0 [] [] [(0, 1)]) (cPort (camRec (receiving 4 camFrame0 [] [] [(0, 1)]) 0)) = [] ∧
    getFifo (receiving 4 camFrame0 [] [.line 0 1 0 [1]] [(0, 1)]) (cPort (camRec (receiving 4 camFrame0 [] [.line 0 1 0 [1]] [(0, 1)]) 0)) =
      [.line 0 1 0 [1]] ∧ (1 + 511) / 512 ≤ cRbRows (camRec (receiving 4 camFrame0 [] [.line 0 1 0 [1]] [(0, 1)]) 0) -
        ((getC (receiving 4 camFrame0 [] [.line 0 1 0 [1]] [(0, 1)]) 0).used - 1) := by decide

/-! CAM_CTL enables ports and contexts or refuses them, closes the frame of a context it disables; in-band interrupts latch -/

/-- Port 0 set up for D-PHY, four lanes, 1.5 Gb/s, and as a state with nothing enabled. -/
def camOff (r : Bytes) (rate portEn ctxEn : Nat) : State :=
  let s := setF (setF (setF up (F.CAM_PORT_CFG_LANES 0) 4) (F.CAM_PORT_CFG_RATE 0) rate) F.CAM_CTL_PORT_EN portEn
  let s := setF (setF s F.CAM_CTL_CTX_EN ctxEn) (F.CAM_PORT_CFG_BUS_MODE 0) 4
  { s with cam := { s.cam with mem := memWrite [] 0x400 r } }

theorem witness_cam_port : regGate (camOff [] 750 0 0) true 1 0x10 boss (1#32).toNat = .pass ∧ getF (camOff [] 750 0 0) F.CAM_CTL_CTX_EN = 0 ∧
    getF (camOff [] 750 0 0) F.CAM_CTL_PORT_EN = 0 ∧ portCfgOk (camOff [] 750 0 0) 0 = true ∧ portCfgOk (camOff [] 5 0 0) 0 = false := by decide
set_option maxRecDepth 8000 in
theorem witness_cam_ctx : regGate (camOff (camRec0 4 4) 750 1 0) true 1 0x10 boss (0x10001#32).toNat = .pass ∧
    ctxRefused (camOff (camRec0 4 4) 750 1 0) 0 = false ∧ ctxRefused (camOff (camRec0 0 4) 750 1 0) 0 = true ∧
    (0x10001#32).toNat = getF (camOff (camRec0 4 4) 750 1 0) F.CAM_CTL_PORT_EN + 2 ^ (16 + 0) := by decide
theorem witness_cam_ctx_off :
    regGate (setC (camOff [] 750 1 1) 0 { cur := some camFrame0 }) true 1 0x10 boss (1#32).toNat = .pass ∧
    getF (setC (camOff [] 750 1 1) 0 { cur := some camFrame0 }) F.CAM_CTL_CTX_EN = 2 ^ 0 ∧
    (getC (setC (camOff [] 750 1 1) 0 { cur := some camFrame0 }) 0).cur = some camFrame0 ∧
    (1#32).toNat = getF (setC (camOff [] 750 1 1) 0 { cur := some camFrame0 }) F.CAM_CTL_PORT_EN := by decide
theorem witness_ibi : getF (camOff [] 750 0 0) (F.CAM_PORT_CFG_BUS_MODE 0) = 4 := by decide

/-! Write sets are posted, start in blanking with the next epoch or wait, and run entry by entry; triggers pulse -/

theorem witness_ws_post : regGate (cam0 (camRec0 4 4)) true 1 0x50 boss (0x80000800#32).toNat = .pass ∧ bitOf (0x80000800#32).toNat 31 = true ∧
    regGate (cam0 (camRec0 4 4)) true 1 0x50 boss (0x800#32).toNat = .pass ∧ bitOf (0x800#32).toNat 31 = false := by decide
/-- Context 0 in blanking since time 0 after frame 1, a frame interval of `i`, with one set of one entry posted. -/
def blanking (i : Nat) : State :=
  setC (setF (cam0 (camRec0 4 4)) (F.CAM_PORT_CFG_BUS_MODE 0) 3) 0
    { lastFs := some 0, interval := some i, posted := [{ first := 0, count := 1 }], blank := some (1, 0, false), counter := 1 }
set_option maxRecDepth 8000 in
theorem witness_ws_start : powered (blanking 10000000) domCam = true ∧ bitTime (blanking 10000000) 0 = some 1000 ∧
    nextSet (blanking 10000000) 0 = some 0 ∧ ctxOn (blanking 10000000) 0 = true ∧
    0 + 1000 * leAt (camRec (blanking 10000000) 0) 26 2 ≤ (blanking 10000000).timeP ∧
    setFits (blanking 10000000) 0 (setNs (blanking 10000000) 0 1000 { first := 0, count := 1 }) = true ∧
    nextSet (blanking 10) 0 = some 0 ∧ setFits (blanking 10) 0 (setNs (blanking 10) 0 1000 { first := 0, count := 1 }) = false := by decide
/-- A set of two entries running on port 0. -/
def writing (tries : Nat) : State :=
  { cam0 [] with cam := { run := [some { ctx := 0, set := { first := 0, count := 2 }, tries := tries, epoch := some 1 }, none, none, none] } }
theorem witness_ws_entry : nth (writing 2).cam.run 0 none = some { ctx := 0, set := { first := 0, count := 2 }, tries := 2, epoch := some 1 } ∧
    wsRead (wsEntry (writing 2) 0 0) = false := by decide
/-- Trigger 0 with a pulse due at time 5 and one being driven until 3. -/
def triggering : State :=
  let s := setF up (F.TRG_CFG_EN 0) 1
  { s with cam := { s.cam with trig := s.cam.trig.set 0 { sched := [5], endAt := some 3 } } }
theorem witness_trigger : isSet (atPort 5 triggering) (F.TRG_CFG_EN 0) = true ∧ (nth (atPort 5 triggering).cam.trig 0 {}).sched = [5] ∧
    5 ≤ (atPort 5 triggering).timeP ∧ 0 < (atPort 5 triggering).cam.trig.length ∧
    (nth (atPort 5 triggering).cam.trig 0 {}).endAt = some 3 := by decide

/-! An ISP context is enabled with its record or refused, disabled when no lane runs, and takes fed frames -/

/-- An ISP context record: one lane at word 0 of the pipe's program, 8 pixels by 4 lines, OUT_A at 0x2000, tables of `n` bytes at 0x10000,
a feed ring at 0x3000. -/
def ispRec (flags n : Nat) : Bytes :=
  leBytes 1 flags ++ leBytes 1 8 ++ leBytes 1 1 ++ leBytes 1 0 ++ leBytes 2 8 ++ leBytes 2 4 ++ leBytes 32 0 ++ leBytes 8 0x2000 ++ leBytes 8 0 ++
    leBytes 8 0x2040 ++ leBytes 8 0x20000 ++ leBytes 8 0x10000 ++ leBytes 4 n ++ leBytes 2 1 ++ leBytes 2 0xFFFF ++ leBytes 24 0 ++ leBytes 8 0x3000 ++
    leBytes 8 0
/-- DRAM ready with such a record at 0x1000, which is the record address of context `c`. -/
def ispOff (c : Nat) (r : Bytes) : State := setI { dramUp with mem := memWrite [] 0x1000 r } c { recAddr := 0x1000 }

set_option maxRecDepth 20000 in
theorem witness_isp_enable : regGate (ispOff 0 (ispRec 0 12832)) false 13 0x20 boss (1#32).toNat = .pass ∧
    getF (ispOff 0 (ispRec 0 12832)) F.ISP_CTXEN_EN = 0 ∧
    (let q := readBytes (ispOff 0 (ispRec 0 12832)) (engMaster 7 ((ctxPart (ispOff 0 (ispRec 0 12832)) 0).getD 0)) .image 1
      (getI (ispOff 0 (ispRec 0 12832)) 0).recAddr 128
     let w := readBytes q.1 (engMaster 7 ((ctxPart (ispOff 0 (ispRec 0 12832)) 0).getD 0)) .image 38 (leAt q.2.1 72 8) (iTabBytes q.2.1)
     iTabBytes q.2.1 = 12832 ∧ iAeHw q.2.1 = false ∧ getF w.1 F.ISP_CTXEN_EN = 0 ∧ q.2.2 = false ∧ w.2.2 = false ∧
       ispRefused w.1 0 q.2.1 w.2.1 = false) := by decide
set_option maxRecDepth 8000 in
theorem witness_isp_refused : iTabBytes (readBytes (ispOff 0 (ispRec 0 5)) (engMaster 7 ((ctxPart (ispOff 0 (ispRec 0 5)) 0).getD 0)) .image 1
    (getI (ispOff 0 (ispRec 0 5)) 0).recAddr 128).2.1 = 5 := by decide
/-- Context `c` enabled with a record and empty tables; frames as given. -/
def ispUp (c : Nat) (r : Bytes) (fs : List IspFrame) : State :=
  let s := setI (setF dramUp F.ISP_CTXEN_EN (2 ^ c)) c { record := r }
  { s with isp := { s.isp with frames := fs } }
theorem witness_isp_disable : regGate (ispUp 3 [] []) false 13 0x20 boss (0#32).toNat = .pass ∧ getF (ispUp 3 [] []) F.ISP_CTXEN_EN = 2 ^ 3 ∧
    (∃ f ∈ (ispUp 3 [] [{ ispFrame0 with ctx := 3, lanes := [{ pipe := some 0 }] }]).isp.frames, f.ctx = 3 ∧ ∃ l ∈ f.lanes, l.pipe.isSome = true) :=
  ⟨by decide, by decide, by decide⟩
set_option maxRecDepth 8000 in
theorem witness_isp_feed : regGate (ispUp 16 (ispRec 1 0) []) false 13 0x38 boss (0x80100005#32).toNat = .pass ∧ bitOf (0x80100005#32).toNat 31 = true ∧
    bitsOf (0x80100005#32).toNat 16 5 = 16 ∧ ispOn (ispUp 16 (ispRec 1 0) []) 16 = true ∧
    iSrc (getI (ispUp 16 (ispRec 1 0) []) 16).record = true ∧
    (let q := readBytes (ispUp 16 (ispRec 1 0) []) (engMaster 7 ((ctxPart (ispUp 16 (ispRec 1 0) []) 16).getD 0)) .image 1 0x2040 64
     let w := readBytes q.1 (engMaster 7 ((ctxPart (ispUp 16 (ispRec 1 0) []) 16).getD 0)) .image 1 0x3000 64
     q.2.2 = false ∧ w.2.2 = false ∧ w.1.isp.frames = []) ∧
    regGate (ispUp 16 (ispRec 1 0) []) false 13 0x38 boss (5#32).toNat = .pass ∧ bitOf (5#32).toNat 31 = false ∧
    bitsOf (0x80000005#32).toNat 16 5 < 16 := by decide

/-! A free pipe takes the highest ready lane, LANE holds its lane in force, and each output row completes in order -/

/-- A frame of context 0 that an item has taken for pipe 0, with its one lane as given. -/
def laneFrame (l : LaneSt) : IspFrame := { ispFrame0 with item := some (0, 1, 0), mask := 1, lanes := [l], linesIn := 4 }
/-- Pipe 0 enabled, last used by partition 0, and such a frame. -/
def piping (l : LaneSt) : State :=
  let s := setF (ispUp 0 (ispRec 0 0) [laneFrame l]) F.ISP_CTL_PIPE_EN 1
  setPipe s 0 { part := some 0 }

set_option maxRecDepth 8000 in
theorem witness_dispatch : powered (piping {}) (domPipe 0) = true ∧ engEnable (piping {}) 7 = true ∧ (getPipe (piping {}) 0).lane = none ∧
    (getE (piping {}) 7).st = .idle ∧ bestLane (readyLanes (piping {}) 0) = some (laneFrame {}, 0) ∧
    (getPipe (piping {}) 0).part = some (laneFrame {}).part ∧
    (let u := setPipe (setLane (turnBuf (piping {}) 0 0) { laneFrame {} with gains := some ((laneFrame {}).gains.getD (getI (piping {}) 0).wb) } 0
        { nth (laneFrame {}).lanes 0 {} with taken := true, pipe := some 0 }) 0
        { getPipe (piping {}) 0 with lane := some (0, 1, 0), held := some 0, part := some 0 }
     (startEngine u 7 (iEntry (getI (piping {}) 0).record 0) 0 none none false u.timeC).2 = true) := by decide
theorem witness_dispatch_none : readyLanes up 0 = [] := by decide

/-- Pipe 0 running its program on the lane, OUT_A's descriptor of 3 channels, 8 columns and 4 rows at 0x2000. -/
def laning (l : LaneSt) (st : EngSt) : State :=
  let s := setPipe (piping l) 0 { lane := some (0, 1, 0), held := some 0, part := some 0 }
  { setE s 7 { getE s 7 with st := st } with mem := memWrite [] 0x2000 (leBytes 8 0x4000 ++ leBytes 4 0 ++ leBytes 4 3 ++ leBytes 4 8 ++ leBytes 4 4 ++ leBytes 4 1 ++ leBytes 4 8 ++ leBytes 8 512 ++ leBytes 8 2048 ++ leBytes 16 0) }
/-- LANE of columns 0 to 7 of context 0; columns 0 to 8 with a further bit. -/
def laneSample (lw : Nat) : BitVec 256 := BitVec.ofNat 256 (0x81 + lw * 2 ^ 155)

set_option maxRecDepth 8000 in
theorem witness_lane : wClass (laneSample 8) = 8 ∧ wClass (1#256) ≠ 8 ∧ ready (laning {} .run) 7 (laneSample 8) = true ∧ pF (laneSample 8) 64 56 = 0 ∧ wRepeat (laneSample 8) = 0 ∧
    pF (laneSample 8) 19 14 = 8 ∧ findFrame (laning {} .run) 0 1 = some (laneFrame {}) ∧ iOutY (getI (laning {} .run) 0).record = 0 ∧
    (match useDesc (laning {} .run) 7 .image (iOutA (getI (laning {} .run) 0).record) true false with
      | .ok _ a => laneBad (getI (laning {} .run) 0) (laneFrame {}) (laneSample 8) a none == none &&
          laneBad (getI (laning {} .run) 0) (laneFrame {}) (laneSample 9) a none == some 1
      | .stop _ => false) = true := by decide
set_option maxRecDepth 8000 in
theorem witness_lane_done : ready (laning { issued := true, rows := 4 } .run) 7 (laneSample 8) = true ∧
    findFrame (laning { issued := true, rows := 4 } .run) 0 1 = some (laneFrame { issued := true, rows := 4 }) ∧
    iHeight (getI (laning { issued := true, rows := 4 } .run) 0).record ≤ 4 := by decide
set_option maxRecDepth 8000 in
theorem witness_row : findFrame (laning { issued := true, rows := 3 } .held) 0 1 = some (laneFrame { issued := true, rows := 3 }) ∧
    3 < iHeight (getI (laning { issued := true, rows := 3 } .held) 0).record ∧ (getE (laning { issued := true, rows := 3 } .held) 7).st = .held ∧
    min (iHeight (getI (laning { issued := true, rows := 3 } .held) 0).record - 1) (3 + 0) < 4 ∧
    0 ≤ min (iHeight (getI (laning { issued := true, rows := 3 } .held) 0).record - 1) (3 + 0) := by decide

/-! DISP computes its band or stops with a reason, CROP takes its boxes and holds without one, and both keep their basic promises -/

/-- The bytes of a descriptor at `base`: format, D0, D1, D2, with rows of 512 bytes. -/
def imageDesc (base fmt d0 d1 d2 : Nat) : Bytes :=
  leBytes 8 base ++ leBytes 4 fmt ++ leBytes 4 d0 ++ leBytes 4 d1 ++ leBytes 4 d2 ++ leBytes 4 1 ++ leBytes 4 2 ++ leBytes 8 512 ++ leBytes 8 (512 * d2) ++ leBytes 16 0
/-- The stereo engine running with a left and a right image of 2 by 1 pixels and a disparity image described at addresses 0, 64 and 128. -/
def seeing (d2 : Nat) : State :=
  let s := { setF (runs 11) F.DRC_STAT_READY 1 with mem := memWrite [] 0 (imageDesc 0x1000 0 1 2 1 ++ imageDesc 0x2000 0 1 2 d2 ++ imageDesc 0x3000 6 1 2 1) }
  let s := { s with vis := { s.vis with strPart := some 0 } }
  setE s 11 { getE s 11 with ags := [{ seg := 0 }, { seg := 64 }, { seg := 128 }, {}] }
/-- DISP of one row, one disparity from 0 on. -/
def dispSample : BitVec 256 := BitVec.ofNat 256 (0x81 + 2 ^ 150 + 2 ^ 172)

/-- The same as its word begins: the line buffers hold the partition's data. -/
def seeing0 (d2 : Nat) : State := useBuf (turnBuf (seeing d2) 4 0) 4 0
/-- The same with the band in progress. -/
def seen : State := { seeing 1 with vis := { (seeing 1).vis with band := true } }

set_option maxRecDepth 20000 in
theorem witness_disp : ready (seeing 1) 11 dispSample = true ∧ wClass dispSample = 8 ∧ pF dispSample 48 72 = 0 ∧ wRepeat dispSample = 0 ∧
    dRows dispSample = 1 ∧ dCount dispSample = 1 ∧ dMin dispSample + dCount dispSample ≤ 256 ∧ pF dispSample 46 1 = 0 ∧
    (seeing 1).vis.band = false ∧ (getE (seeing 1) 11).part = 0 ∧
    (match useDesc (seeing0 1) 11 .image (genAddr (seeing0 1) 11 0 dispSample) false false with
      | .ok u1 l => (match useDesc u1 11 .image (genAddr u1 11 1 dispSample) false false with
        | .ok u2 r => (match useDesc u2 11 .image (genAddr u2 11 2 dispSample) true false with
          | .ok _ d => dispBad dispSample l r d none == none
          | .stop _ => false)
        | .stop _ => false)
      | .stop _ => false) = true := by decide
set_option maxRecDepth 20000 in
theorem witness_disp_bad : (match useDesc (seeing0 2) 11 .image (genAddr (seeing0 2) 11 0 dispSample) false false with
      | .ok u1 l => (match useDesc u1 11 .image (genAddr u1 11 1 dispSample) false false with
        | .ok u2 r => (match useDesc u2 11 .image (genAddr u2 11 2 dispSample) true false with
          | .ok _ d => dispBad dispSample l r d none == some 2
          | .stop _ => false)
        | .stop _ => false)
      | .stop _ => false) = true := by decide
set_option maxRecDepth 20000 in
theorem witness_disp_goes_on : ready seen 11 dispSample = true ∧ dramWaits seen 9 (tdesc seen (genAddr seen 11 0 dispSample)).base = false ∧
    dramWaits seen 9 (tdesc seen (genAddr seen 11 1 dispSample)).base = false ∧
    (match dispBand { seen with vis := { seen.vis with band := false } } dispSample (tdesc seen (genAddr seen 11 0 dispSample))
        (tdesc seen (genAddr seen 11 1 dispSample)) (tdesc seen (genAddr seen 11 2 dispSample)) none with
      | .act _ => true
      | _ => false) = true := by decide

/-- The crop-and-resize unit running with source and output images at addresses 0 and 64, and its queue 5 holding `l`. -/
def cropping (l : List QEntry) : State :=
  let s := { setF (runs 6) F.DRC_STAT_READY 1 with mem := memWrite [] 0 (imageDesc 0x1000 0 1 2 1 ++ imageDesc 0x2000 0 1 2 1) }
  let s := { s with vis := { s.vis with crsPart := some 0 } }
  setQ (setE s 6 { getE s 6 with ags := [{}, { seg := 0 }, { seg := 64 }, {}] }) 5 { depth := 4, consumer := 6, entries := l }
/-- CROP of one box of one sample, from queue 5. -/
def cropSample : BitVec 256 := BitVec.ofNat 256 (0x81 + 2 ^ 136 + 5 * 2 ^ 149)
def box0 : QEntry := { cairn := false, data := leBytes 8 0 ++ leBytes 4 65536 ++ leBytes 4 65536, producer := 0 }

set_option maxRecDepth 20000 in
theorem witness_crop : wClass cropSample = 8 ∧ wClass 1#256 ≠ 8 ∧ ready (cropping [box0]) 6 cropSample = true ∧ pF cropSample 44 76 = 0 ∧ wRepeat cropSample = 0 ∧ pF cropSample 42 2 < 2 ∧
    (fmtElem (pF cropSample 38 4)).isSome = true ∧ bitOf (pF cropSample 0 13) 12 = false ∧ pF cropSample 13 13 = 5 ∧
    qBound (getQ (cropping [box0]) 5) = true ∧ cropN cropSample = 1 ∧
    (match useDesc (cropping [box0]) 6 .crop (genAddr (cropping [box0]) 6 1 cropSample) false false with
      | .ok u1 src => (match useDesc u1 6 .crop (genAddr u1 6 2 cropSample) true false with
        | .ok u out => u.vis.boxes == 0 && headQ u 5 == some box0 && (cropBox (popQ u 5) cropSample src out 0 box0.data).2 == false
        | .stop _ => false)
      | .stop _ => false) = true := by decide
set_option maxRecDepth 20000 in
theorem witness_crop_waits : ready (cropping []) 6 cropSample = true ∧ (match useDesc (cropping []) 6 .crop (genAddr (cropping []) 6 1 cropSample) false false with
      | .ok u1 _ => (match useDesc u1 6 .crop (genAddr u1 6 2 cropSample) true false with
        | .ok u _ => decide (u.vis.boxes < cropN cropSample) && headQ u 5 == none
        | .stop _ => false)
      | .stop _ => false) = true := by decide

/-! A codec core takes its next job, refuses a bad one, and ends each with a completion -/

/-- A codec job of core 0: JPEG of quality `q` of a grey picture of 2 by 1 described at 0x1000, its bitstream at 0x3000, completion in queue 7. -/
def jobDesc (q : Nat) : Bytes :=
  leBytes 1 0 ++ leBytes 1 3 ++ leBytes 2 0 ++ leBytes 2 q ++ leBytes 2 7 ++ leBytes 8 0x1000 ++ leBytes 8 0 ++ leBytes 8 0x3000 ++ leBytes 8 512 ++ leBytes 24 0
/-- Core 0 enabled, that job at the head of its queue 9, and queue 7 for completions. -/
def coding (q : Nat) : State :=
  let s := { setF dramUp F.CDC_CTL_ENABLE 1 with mem := memWrite [] 0 (jobDesc q ++ List.replicate 4032 0 ++ imageDesc 0x2000 0 1 2 1) }
  setQ (setQ s 9 { depth := 4, consumer := 24, entries := [{ cairn := false, data := leBytes 16 0, producer := 0 }] }) 7 { depth := 4, consumer := 0 }

set_option maxRecDepth 20000 in
theorem witness_codec_start : powered (coding 50) domCodec = true ∧ coreFree (coding 50) 0 = true ∧
    codecChoice (coding 50) 0 = some (9, { cairn := false, data := leBytes 16 0, producer := 0 }) ∧ 0 < (coding 50).cdc.jobs.length ∧
    dramWaits (coding 50) 8 0 = false ∧
    (let d := readBytes (coding 50) (codecMaster 0 (getQ (coding 50) 9).part) .system 1 0 64
     let y := readBytes d.1 (codecMaster 0 (getQ (coding 50) 9).part) .system 1 (jPicY d.2.1) 64
     jPicC d.2.1 = 0 ∧ codecRefused 0 d.2.1 { addr := jPicY d.2.1, raw := y.2.1 } { addr := jPicC d.2.1, raw := [] } = false ∧
       bitOf (jFlags d.2.1) 0 = false ∧ d.2.2 = false ∧ y.2.2 = false ∧ uncommitted { addr := jPicY d.2.1, raw := y.2.1 } = false) := by decide
set_option maxRecDepth 20000 in
theorem witness_codec_refused : coreFree (coding 0) 0 = true ∧
    codecChoice (coding 0) 0 = some (9, { cairn := false, data := leBytes 16 0, producer := 0 }) ∧
    (let d := readBytes (coding 0) (codecMaster 0 (getQ (coding 0) 9).part) .system 1 0 64
     let y := readBytes d.1 (codecMaster 0 (getQ (coding 0) 9).part) .system 1 (jPicY d.2.1) 64
     d.2.2 = false ∧ y.2.2 = false ∧ codecRefused 0 d.2.1 { addr := jPicY d.2.1, raw := y.2.1 } { addr := jPicC d.2.1, raw := [] } = true) := by decide
theorem witness_codec_idle : codecChoice up 0 = none ∧ getJob up 0 = none := by decide
/-- Core 0 running that job. -/
def encoding0 : State := { coding 50 with cdc := { (coding 50).cdc with jobs := [some { desc := jobDesc 50, part := 0 }, none, none, none] } }
set_option maxRecDepth 20000 in
theorem witness_codec_end : getJob encoding0 0 = some { desc := jobDesc 50, part := 0 } ∧ jOp (jobDesc 50) = 0 ∧
    codecWaits encoding0 { desc := jobDesc 50, part := 0 } = false ∧
    (jobReads encoding0 0 { desc := jobDesc 50, part := 0 }).2 = false ∧
    qRefusal (getQ (jobReads encoding0 0 { desc := jobDesc 50, part := 0 }).1 (jCq (jobDesc 50))) 0 = none ∧
    (getQ (jobReads encoding0 0 { desc := jobDesc 50, part := 0 }).1 (jCq (jobDesc 50))).consumer < 24 := by decide

/-! A DRAM burst reads or writes its bytes, counts a row it activates, and an uncorrectable error poisons it -/

/-- DRAM ready with row 0 of channel 0, bank 0 open since time 0. -/
def rowUp : State := { dramUp with drc := { dramUp.drc with open_ := [(0, (1, 0))] } }
set_option maxRecDepth 4000 in
theorem witness_burst_hit : region 0 = .dram ∧ burstWaits rowUp 7 (dramPos rowUp 0).ch = false ∧ busGate rowUp boss .system 0 64 true (leVal ((List.replicate 64 7 : Bytes).take 4)) = .pass ∧
    busGate rowUp boss .system 0 64 false = .pass ∧ rowOpen rowUp (dramPos rowUp 0) = true ∧ rowUp.drc.xts = [] ∧ pageHint rowUp 7 0 ≠ 2 ∧ isSet rowUp F.DRC_CFG_PAGE_DEFAULT = false ∧ rowUp.mapu.bad = [] := by decide
set_option maxRecDepth 4000 in
theorem witness_burst_miss : burstWaits dramUp 7 (dramPos dramUp 0).ch = false ∧ busGate dramUp boss .system 0 64 false = .pass ∧
    rowOpen dramUp (dramPos dramUp 0) = false ∧ (tabGet dramUp.drc.acts 0 {}).count < getF dramUp F.DRC_RH_THRESH ∧ pageHint dramUp 7 0 ≠ 2 ∧ isSet dramUp F.DRC_CFG_PAGE_DEFAULT = false ∧ dramUp.mapu.bad = [] := by decide
theorem witness_burst_waits : burstWaits ({ dramUp with drc := { dramUp.drc with trnRun := [(dramPos dramUp 0).ch] } } : State) 7
    (dramPos dramUp 0).ch = true := by decide

/-! The skew monitor counts and reports, HOT follows the temperatures, refreshes are made up or forced, write-link errors are raised -/

/-- Channel 3 loaded alone. -/
def occ3 : List Nat := [0, 0, 0, 9]
theorem witness_skew : isSet dramUp F.DRC_STAT_READY = true ∧ dramUp.drc.skew.length = 16 ∧ skewed occ3 3 = true ∧
    (∀ ch, ch < 16 → skewed occ3 ch = true → nth dramUp.drc.skew ch 0 < 63) := by decide
theorem witness_skew_fault : nth ({ dramUp with drc := { dramUp.drc with skew := (List.replicate 16 0).set 3 63 } } : State).drc.skew 3 0 = 63 ∧
    (∀ ch, ch < 16 → ch ≠ 3 → skewed occ3 ch = true → nth ((List.replicate 16 0).set 3 63) ch 0 < 63) := by decide
theorem witness_refresh : getRefr dramUp 3 5 ≤ 8 ∧ retraining dramUp 3 = false ∧ getRefr (setRefr dramUp 3 5 (-2)) 3 5 < 0 ∧
    getRefr (setRefr dramUp 3 5 8) 3 5 = 8 := by decide

/-! DRC_CFG is taken once, training brings DRAM to READY or fails, and a helper runs and reports -/

/-- DRAM initialised and not trained. -/
def drcInit : State := setF up F.DRC_CFG_INIT 1
theorem witness_drc_cfg : bitOf (0x80000004#32).toNat 31 = true ∧ regGate up false 17 0x10 boss (0x80000004#32).toNat = .pass ∧
    isSet up F.DRC_CFG_INIT = false ∧ regGate drcInit false 17 0x10 boss (0x80000004#32).toNat = .pass ∧ isSet drcInit F.DRC_CFG_INIT = true := by decide
theorem witness_training_dram : compDown drcInit = false ∧ isSet drcInit F.DRC_STAT_READY = false ∧ isSet drcInit F.DRC_CFG_IBECC = false ∧
    isSet (setF drcInit F.DRC_CFG_IBECC 1) F.DRC_CFG_IBECC = true ∧ getF drcInit F.EMN_BOOT_STAT_STAGE ≠ 7 := by decide
theorem witness_trn : regGate up false 17 0x34 boss (0x80000000#32).toNat = .pass ∧ bitsOf (0x80000000#32).toNat 2 2 ≠ 3 ∧
    ({ up with drc := { up.drc with trnRun := [3] } } : State).drc.trnRun.contains 3 = true ∧ (List.replicate 18 0).length = 18 := by decide

/-! ZERO clears its range of DRAM in turn, and patrol reports what it finds -/

theorem witness_zero : boss.priv = true ∧ boss.part = 0 ∧ 0x200000 % 0x200000 = 0 ∧ dramUp.drc.zero.length < 5 := by decide
/-- A ZERO of 2 MiB from address 0 running. -/
def zeroing : State := { dramUp with drc := { dramUp.drc with zero := [(0, 0x200000, false)] } }
theorem witness_zero_done : zeroing.drc.zero = (0, 0x200000, false) :: [] ∧
    (∀ u : State, u = { zeroing with drc := { zeroing.drc with zero := [] }, sec := { zeroing.sec with scrubLeft := zeroing.sec.scrubLeft - if false = true then 1 else 0 } } →
      busGate u scrubMaster .system 0 0x200000 true = .pass) := by
  refine ⟨by decide, ?_⟩
  rintro u rfl
  decide
theorem witness_dram_patrol : isSet (setF (setF dramUp F.DRC_CFG_IBECC 1) F.DRC_SCRUB_CTL_PATROL_US 5) F.DRC_CFG_IBECC = true ∧
    isSet (setF (setF dramUp F.DRC_CFG_IBECC 1) F.DRC_SCRUB_CTL_PATROL_US 5) F.DRC_STAT_READY = true ∧
    getF (setF (setF dramUp F.DRC_CFG_IBECC 1) F.DRC_SCRUB_CTL_PATROL_US 5) F.DRC_SCRUB_CTL_PATROL_US ≠ 0 := by decide

/-! Links come and go; a received frame is learned and forwarded, enters its session, waits, is dropped, or is counted; slots come back -/

/-- The network up on port 0, with session 0 receiving EtherType 0x88B5 into queue 7 with one slot at 0x8000; `flags` may add HOLD. -/
def sesRec0 (flags : Nat) : Bytes :=
  leBytes 1 (1 + flags) ++ leBytes 1 1 ++ leBytes 2 0 ++ leBytes 6 0 ++ leBytes 2 0x88B5 ++ leBytes 4 0 ++ leBytes 2 7 ++ leBytes 2 6 ++ leBytes 2 1 ++ leBytes 1 16 ++ leBytes 1 0 ++ leBytes 8 0x8000
def netUp (flags : Nat) : State :=
  let s := setF (setF (setF dramUp F.NET_CTL_ENABLE 1) F.NET_CTL_PORT_EN 1) (F.NET_PORT_CFG_LINK 0) 1
  let s := setQ (setQ s 7 { depth := 4, consumer := 0 }) 6 { depth := 4, consumer := 22 }
  { s with net := { s.net with mem := memWrite [] 0 (sesRec0 flags) } }
/-- A frame of that EtherType, and the session at work. -/
def etherFrame : Bytes := List.replicate 12 1 ++ [0x88, 0xB5, 5]
def netHeld0 : NetHeld := { sess := 0, port := 0, data := etherFrame, rx := 0, since := 0 }
def netBusy (flags used : Nat) (l : List NetHeld) : State :=
  let s := setSes (netUp flags) 0 { used := used }
  setNet s { s.net with held := l }

set_option maxRecDepth 20000 in
theorem witness_link : powered (netUp 0) domNet = true ∧ isSet (netUp 0) (F.NET_PORT_CFG_LINK 0) = true ∧ isSet (netUp 0) (F.NET_PORT_CFG_LINK 1) = false := by decide
set_option maxRecDepth 20000 in
theorem witness_net_receive : portUp (netUp 0) 0 = true ∧ pauseFrame etherFrame = false ∧ etherFrame.length + 4 ≤ getF (netUp 0) (F.NET_PORT_CFG_MAX_FRAME 0) ∧
    switchTo (fdbLearn (netUp 0) 0 0 etherFrame) 0 0 etherFrame = [6] ∧ (netUp 0).net.held = [] ∧ (netUp 0).net.staged = [] ∧
    dramWaits (netUp 0) 11 0x8000 = false ∧ sesOf (netUp 0) 0 0 etherFrame = some 0 ∧ sesForeign (netUp 0) (sesRec (netUp 0) 0) = none ∧ sKind (sesRec (netUp 0) 0) ≠ 2 ∧
    slotFree (netUp 0) 0 = true ∧ qRefusal (getQ (netUp 0) (sRxq (sesRec (netUp 0) 0))) (sPart (sesRec (netUp 0) 0)) = none := by decide
theorem witness_net_long : getF (netUp 0) (F.NET_PORT_CFG_MAX_FRAME 0) < (List.replicate 2000 (0#8)).length + 4 := by
  rw [List.length_replicate]; decide
set_option maxRecDepth 20000 in
theorem witness_net_full : portUp (netBusy 8 1 []) 0 = true ∧ sesOf (netBusy 8 1 []) 0 0 etherFrame = some 0 ∧ slotFree (netBusy 8 1 []) 0 = false ∧
    sHold (sesRec (netBusy 8 1 []) 0) = true ∧ sHold (sesRec (netBusy 0 1 []) 0) = false := by decide
set_option maxRecDepth 20000 in
theorem witness_net_waits : slotFree ({ netUp 0 with drc := { (netUp 0).drc with trnRun := [(dramPos (netUp 0) 0x8000).ch] } } : State) 0 = true ∧
    dramWaits ({ netUp 0 with drc := { (netUp 0).drc with trnRun := [(dramPos (netUp 0) 0x8000).ch] } } : State) 11 0x8000 = true := by decide
set_option maxRecDepth 20000 in
theorem witness_stage : stageNext (setNet (netUp 0) { (netUp 0).net with stagePart := [(0, some 3)] }) = some 0 ∧
    tabGet (setNet (netUp 0) { (netUp 0).net with stagePart := [(0, some 3)] }).net.stagePart 0 none = some 3 := by decide
theorem witness_pause : pauseFrame ([0x01, 0x80, 0xC2, 0, 0, 1, 2, 2, 2, 2, 2, 2, 0x88, 0x08] : Bytes) = true ∧
    linkLocal etherFrame = false ∧ bitOf (leAt (List.replicate 6 (2#8)) 0 6) 0 = false := by decide
set_option maxRecDepth 20000 in
theorem witness_net_hold : (netBusy 8 1 [netHeld0]).net.held = [netHeld0] ∧
    0 + 1000 * leAt (sesRec (atPort 5000 (netBusy 8 1 [netHeld0])) 0) 20 2 < (atPort 5000 (netBusy 8 1 [netHeld0])).timeP := by decide
set_option maxRecDepth 20000 in
theorem witness_net_release : regGate (netBusy 8 1 [netHeld0]) true 2 0x50 boss (0x800#32).toNat = .pass ∧ bitsOf (0x800#32).toNat 0 11 = 0 ∧
    bitsOf (0x800#32).toNat 11 9 = 1 ∧ slotFree (setSes (netBusy 8 1 [netHeld0]) 0 { used := 1 - 1 }) 0 = true := by decide

/-! A GigE Vision block is opened, filled in order and fed or reported, and a transmit entry is performed -/

/-- Session 0 a GigE Vision stream into context 16, which is enabled and fed; its open block as given. -/
def gvspUp (b : Option GvspBlk) : State :=
  let s := setI (setF (netUp 4) F.ISP_CTXEN_EN (2 ^ 16)) 16 { record := ispRec 1 0 }
  setBlk s 0 b
/-- The same with a source descriptor in memory. -/
def withDesc (s : State) : State := { s with mem := memWrite s.mem (iSrcDesc (ispRec 1 0)) (imageDesc 0x1000 0 1 2 1) }
def blk0 : GvspBlk := { block := 9, frame := 1, fsTime := 0 }
set_option maxRecDepth 20000 in
theorem witness_gvsp : gvspOn (gvspUp none) 0 = true ∧ getBlk (gvspUp none) 0 = none ∧ gvspOn (gvspUp (some blk0)) 0 = true ∧
    getBlk (gvspUp (some blk0)) 0 = some blk0 ∧ sesForeign (gvspUp none) (sesRec (gvspUp none) 0) = none ∧
    (srcDesc (gvspUp none) 16 (netMaster 0)).2.bad true false = some 2 ∧
    (srcDesc (withDesc (gvspUp none)) 16 (netMaster 0)).2.bad true false = none ∧ gvspOn (withDesc (gvspUp none)) 0 = true ∧
    dramWaits (gvspUp none) 11 0 = false ∧ getBlk (gvspUp (some { blk0 with reason := 5 })) 0 = some { blk0 with reason := 5 } := by decide
/-- A transmit entry of session 0: 16 bytes at 0x4000, no completion. -/
def txEntry0 : QEntry := { cairn := false, data := leBytes 8 0x4000 ++ leBytes 2 16 ++ leBytes 2 0 ++ leBytes 4 0xFFFF, producer := 0 }
def sending : State := setQ (netUp 0) 6 { depth := 4, consumer := 22, entries := [txEntry0] }
set_option maxRecDepth 20000 in
theorem witness_tx : sending = atPort 0 sending ∧ netOn sending = true ∧ cwyUp sending = true ∧ qBound (getQ sending 6) = true ∧ headQ sending 6 = some txEntry0 ∧
    leAt txEntry0.data 10 2 = 0 ∧ sOn (sesRec sending 0) = true ∧ sTxq (sesRec sending 0) = 6 ∧
    sesForeign (popQ sending 6) (sesRec sending 0) = none ∧ leAt txEntry0.data 12 2 = 0xFFFF ∧
    (netRead (popQ sending 6) (netMaster 0) 129 0x4000 16).2 = some (List.replicate 16 0) ∧
    dramWaits sending 11 0x4000 = false ∧ portUp sending 0 = true ∧ portUp sending 1 = false ∧ openGates sending 0 = 255 := by decide
theorem witness_tagged : sTagged (leBytes 4 0x80000000) = true ∧ sTagged (leBytes 4 0) = false := by decide

/-! Device time steps or slews to the grandmaster, holds over, drives gates and PPS_OUT, and each edge is announced in time -/

set_option maxRecDepth 20000 in
theorem witness_sync : netOn (netUp 0) = true ∧ domainFormed (netUp 0) = false ∧ (netUp 0).net.holdover = false ∧
    (setNet (netUp 0) { (netUp 0).net with holdover := true, syncAt := some 0 }).net.holdover = true ∧
    isSet (netUp 0) F.NET_CTL_GCL_SRC = false ∧ isSet (setF (netUp 0) F.NET_CTL_GCL_SRC 1) F.NET_CTL_GCL_SRC = true := by decide
theorem witness_pps : netOn (netUp 0) = true ∧ netOn up = false := by decide
set_option maxRecDepth 20000 in
theorem witness_announce_send : cwyUp (setF up F.TICK_CTL_ENABLE 1) = true ∧ isSet (setF up F.TICK_CTL_ENABLE 1) F.TICK_CTL_ENABLE = true ∧
    getF (setF up F.TICK_CTL_ENABLE 1) F.TICK_CTL_MODE = 0 ∧ (setF up F.TICK_CTL_ENABLE 1).cwy.ann = none ∧
    (atPort 20000 (setF announced F.TICK_CTL_ENABLE 1)).cwy.ann = some { edge := 20000, tick := 1 } ∧
    20000 ≤ (atPort 20000 (setF announced F.TICK_CTL_ENABLE 1)).timeP := by decide

/-! A device says HELLO in turn, is admitted or refused, and follows the schedules of its master -/

/-- The protocol in state `st`, master or member of domain 0, and a message of it from sender 7. -/
def mepAs (st : Nat) : State := setF (setF (netUp 0) F.MEP_STAT_STATE st) F.MEP_STAT_VERSION 1
def mepFrom (type tick : Nat) (body : Bytes) : Bytes :=
  leBytes 1 1 ++ leBytes 1 type ++ leBytes 2 0 ++ leBytes 2 body.length ++ leBytes 2 0 ++ leBytes 8 7 ++ leBytes 8 tick ++ body
def hello7 (v : Nat) : Bytes := mepFrom 1 0 (leBytes 1 v ++ leBytes 1 v ++ leBytes 1 9 ++ leBytes 1 1 ++ leBytes 2 1500 ++ leBytes 2 0)
def sched7 : Bytes := mepFrom 4 3 (leBytes 8 5000 ++ leBytes 4 1 ++ leBytes 2 900 ++ leBytes 2 200)

set_option maxRecDepth 20000 in
theorem witness_hello_timer : mepActive (mepAs 1) = true ∧ (mepAs 1).net.mep.helloAt = none := by decide
set_option maxRecDepth 20000 in
theorem witness_hello : mepTakes (mepAs 1) (hello7 1) true 1 = true ∧ mSender (hello7 1) ≠ (mepAs 1).fuse.uid ∧ getF (mepAs 1) F.MEP_STAT_STATE ≠ 3 ∧
    mepTakes (mepAs 3) (hello7 1) true 1 = true ∧ getF (mepAs 3) F.MEP_STAT_STATE = 3 ∧ leAt (mBody (hello7 1)) 3 1 ≠ 2 ∧
    leAt (mBody (hello7 1)) 0 1 ≤ 1 ∧ 1 ≤ leAt (mBody (hello7 1)) 1 1 ∧ (freeIndex (mepAs 3) (mMember (hello7 1))).isSome = true ∧
    ¬ (leAt (mBody (hello7 2)) 0 1 ≤ 1 ∧ 1 ≤ leAt (mBody (hello7 2)) 1 1) ∧ mepTakes (mepAs 3) (hello7 2) true 1 = true := by decide
set_option maxRecDepth 20000 in
theorem witness_admit : mepTakes (mepAs 1) (mepFrom 2 0 [3, 1]) true 2 = true ∧ leAt (mBody (mepFrom 2 0 [3, 1])) 1 1 = 1 ∧
    mepTakes (mepAs 1) (mepFrom 3 0 [1]) true 3 = true ∧ getF (mepAs 1) F.MEP_STAT_STATE = 1 := by decide
set_option maxRecDepth 20000 in
theorem witness_schedule : mepTakes (mepAs 2) sched7 true 4 = true ∧ getF (mepAs 2) F.MEP_STAT_STATE = 2 ∧ (mepAs 2).net.mep.sched = none ∧ mTick sched7 < 9 ∧
    (mepAs 2).net.mep.master = none ∧ mepTakes (mepAs 3) sched7 true 4 = true ∧
    better (leAt (mBody sched7) 14 1, mSender sched7) (ownPrio (mepAs 3), (mepAs 3).fuse.uid) = true := by decide

/-! The master keeps reports and sends each schedule, a member without one extrapolates, and a candidate takes over -/

/-- The protocol in state `st` in running tick `n`, with one member of sender 7 and three schedules missed. -/
def mepRun (st n : Nat) : State :=
  let s := setF (mepAs st) F.MEP_CFG_PRIO 9
  let s := setMep s { s.net.mep with members := [{ idx := 3, id := 7, fused := 1400 }], missed := 3, origin := some 0, period := 1000 }
  { s with tick := { s.tick with running := true, num := n }, timeP := 2000000 }
def report7 (n : Nat) : Bytes := mepFrom 5 n (List.replicate 20 0 ++ leBytes 2 1400 ++ leBytes 2 0)

set_option maxRecDepth 20000 in
theorem witness_report : mepTakes (mepRun 3 0) (report7 0) true 5 = true ∧ getF (mepRun 3 0) F.MEP_STAT_STATE = 3 ∧ (mepRun 3 0).net.mep.sched = none ∧
    (mepRun 3 0).net.mep.members.find? (fun y => y.id == mSender (report7 0)) = some { idx := 3, id := 7, fused := 1400 } := by decide
set_option maxRecDepth 20000 in
theorem witness_collect : mepActive (mepRun 3 0) = true ∧ (mepRun 3 0).tick.edge + 1000 * getF (mepRun 3 0) F.MEP_CFG_COLLECT_US ≤ (mepRun 3 0).timeP ∧
    (mepRun 3 0).net.mep.yield_ = false ∧ (mepRun 3 2).tick.num ≠ 0 ∧ (∀ y ∈ (mepRun 3 2).net.mep.members, y.missing < 7) := by decide
set_option maxRecDepth 20000 in
theorem witness_missing : mepActive (mepRun 2 1) = true ∧ getF (mepRun 2 1) F.MEP_STAT_STATE = 2 ∧
    domainEdge (mepRun 2 1) ((mepRun 2 1).tick.num + 1) ≤ (mepRun 2 1).timeP + 20000 ∧ getF (mepRun 2 1) F.MEP_CFG_PRIO ≠ 0 ∧
    3 ≤ (mepRun 2 1).net.mep.missed ∧ (mepRun 2 1).net.mep.hellos = [] := by decide
theorem witness_pace : ∃ r ∈ [((900 : Nat), (1000 : Nat))], r.1 ≠ 0 := by decide

/-! A barrier is registered, waits for every participant, and is released on time or reported late -/

/-- Job 5 registered in slot 2, its record at the start of Ember memory: queue 7, one second, members 0 and 3; the device is member 0. -/
def barrier (x : Barrier) : State :=
  let s := { mepAs 2 with mem := memWrite [] emberBase (leBytes 2 5 ++ leBytes 2 7 ++ leBytes 2 1 ++ List.replicate 26 0 ++ leBytes 32 9) }
  setBar s 2 (some x)
def arrive3 : Bytes := (mepFrom 6 0 (leBytes 2 5 ++ leBytes 2 0 ++ leBytes 4 1)).set 3 3 |>.set 6 1
def bar0 : Barrier := { addr := emberBase, step := 1, wait := some 1000, arrived := [(0, 1)] }

set_option maxRecDepth 20000 in
theorem witness_barrec : regGate (mepAs 2) true 2 0x54 boss ((0x40#31).toNat + 2 ^ 31) = .pass ∧ bitsOf (0x40#31).toNat 6 15 = 1 ∧
    0x0030001FE000 ≤ 0x003000000000 + 64 * bitsOf (0x1FFFC0#31).toNat 6 15 ∧ regGate (mepAs 2) true 2 0x54 boss ((0x1FFFC0#31).toNat + 2 ^ 31) = .pass ∧
    regGate (mepAs 2) true 2 0x54 boss (0#31).toNat = .pass := by decide
set_option maxRecDepth 20000 in
theorem witness_barrier : regGate (barrier { bar0 with wait := none, step := 0, arrived := [] }) true 2 0x58 boss (0x10005#32).toNat = .pass ∧
    barOf (barrier { bar0 with wait := none, step := 0, arrived := [] }) (bitsOf (0x10005#32).toNat 0 16) =
      some (2, { bar0 with wait := none, step := 0, arrived := [] }) ∧
    (∃ p ∈ barWho (barrier { bar0 with wait := none, step := 0, arrived := [] }) { bar0 with wait := none, step := 0, arrived := [] },
      p ≠ getF (barrier { bar0 with wait := none, step := 0, arrived := [] }) F.MEP_STAT_MEMBER) ∧
    barOf (barrier bar0) (bitsOf (0x10004#32).toNat 0 16) = none := by decide
set_option maxRecDepth 20000 in
theorem witness_arrive : mepTakes (barrier bar0) arrive3 true 6 = true ∧ mMember arrive3 = some 3 ∧ barOf (barrier bar0) (leAt (mBody arrive3) 0 2) = some (2, bar0) ∧
    leAt (mBody arrive3) 4 4 = bar0.step ∧ (∀ p ∈ barWho (barrier bar0) bar0, p ≠ 3 → bar0.arrived.contains (p, bar0.step) = true) ∧
    barQueue (barrier bar0) bar0 = 7 ∧ qRefusal (getQ (barrier bar0) 7) (getQ (barrier bar0) 7).part = none ∧ (getQ (barrier bar0) 7).consumer < 24 := by decide
set_option maxRecDepth 20000 in
theorem witness_arrive_early : barOf (barrier { bar0 with arrived := [] }) (leAt (mBody arrive3) 0 2) = some (2, { bar0 with arrived := [] }) ∧
    0 ∈ barWho (barrier { bar0 with arrived := [] }) { bar0 with arrived := [] } ∧ mepTakes (barrier { bar0 with arrived := [] }) arrive3 true 6 = true := by decide
set_option maxRecDepth 20000 in
theorem witness_barrier_timeout : getBar (atPort 1000 (barrier bar0)) 2 = some bar0 ∧ 1000 ≤ (atPort 1000 (barrier bar0)).timeP ∧
    (atPort 5 (barrier bar0)).timeP < 1000 ∧ barQueue (atPort 1000 (barrier bar0)) bar0 = 7 := by decide

/-! The link, the functions and their rings: resets, ring setup, tails, heads, completions and events -/

/-- The link up, ring 0 of the PF enabled with 2 entries each, its command running as given, and its completion ring holding `used`. -/
def ringUp (x : Option (Bytes × Bool)) (used : Nat) : State :=
  let s := setF { up with hif := { up.hif with linkUp := true } } (F.HIF_RING_CFG_ENABLE 0 0) 1
  setRing s 0 0 { running := x, cqUsed := used }

set_option maxRecDepth 8000 in
theorem witness_ring_cfg : ¬ (boss.code = 10 + 0 ∧ fnAbsent up 0 = true) ∧ regGate up false 18 (ringOff 0 0 0) boss (0x23#32).toNat = .pass ∧
    isSet up (F.HIF_RING_CFG_ENABLE 0 0) = false ∧ (0x23#32).toNat % 2 = 1 ∧ regGate (ringUp none 0) false 18 (ringOff 0 0 0) boss (0x22#32).toNat = .pass ∧
    (getRing (ringUp none 0) 0 0).held = [] ∧ 0 < (ringUp none 0).hif.fns.length ∧ 0 < (getFn (ringUp none 0) 0).rings.length := by decide
set_option maxRecDepth 8000 in
theorem witness_tail : regGate (ringUp none 0) false 18 (ringOff 0 0 5) boss (1#32).toNat = .pass ∧ isSet (ringUp none 0) (F.HIF_RING_CFG_ENABLE 0 0) = true ∧
    (1#32).toNat < 2 ^ getF (ringUp none 0) (F.HIF_RING_CFG_SQ_LOG2 0 0) ∧ 2 ^ getF (ringUp none 0) (F.HIF_RING_CFG_SQ_LOG2 0 0) ≤ (2#32).toNat ∧
    regGate (ringUp none 0) false 18 (ringOff 0 0 5) boss (2#32).toNat = .pass ∧ regGate (ringUp none 1) false 18 (ringOff 0 0 6) boss (1#32).toNat = .pass ∧
    (1#32).toNat < cqSize (ringUp none 1) 0 0 := by decide
set_option maxRecDepth 8000 in
theorem witness_completion : (getRing (ringUp (some ([1], false)) 0) 0 0).running = some ([1], false) ∧ (getRing (ringUp (some ([1], false)) 0) 0 0).hello = none ∧
    (getRing (ringUp (some ([1], false)) 0) 0 0).cqUsed < cqSize (ringUp (some ([1], false)) 0) 0 0 ∧
    cqSize (ringUp (some ([1], false)) 2) 0 0 ≤ (getRing (ringUp (some ([1], false)) 2) 0 0).cqUsed := by decide
/-- A queue bound to the interface with one entry. -/
def eventful : State := setQ (ringUp none 0) 9 { depth := 4, consumer := 23, entries := [box0] }
set_option maxRecDepth 8000 in
theorem witness_event : (getQ eventful 9).entries = box0 :: [] ∧ qBound (getQ eventful 9) = true ∧ (getQ eventful 9).part = 0 ∧ eventRing eventful 0 = true ∧
    cqFree eventful 0 0 = true := by decide

/-! HELLO, the memory transfers, containers, milestone rings and mode switches, with their statuses -/

/-- A command entry. -/
def hostCmd (op a0 a1 a2 : Nat) : Bytes := leBytes 1 op ++ leBytes 7 0 ++ leBytes 8 a0 ++ leBytes 8 a1 ++ leBytes 8 a2 ++ List.replicate 32 0
/-- The PF in state `st` with version 2, a command waiting in its ring 0, and the link and DRAM up. -/
def hosted (st : Nat) : State :=
  let s := setF (setF (setF { dramUp with hif := { dramUp.hif with linkUp := true } } (F.HIF_RING_CFG_ENABLE 0 0) 1) (F.HIF_FSTAT_STATE 0) st) (F.HIF_FSTAT_VERSION 0) 2
  setRing s 0 0 { tail := 1 }

set_option maxRecDepth 20000 in
theorem witness_fhp_hello : fhpReady (hosted 0) 0 0 = true ∧ (hostCmd 1 0x201 0 0).length = 64 ∧ hOp (hostCmd 1 0x201 0 0) = 1 ∧
    fhpRefusal (fetched (hosted 0) 0 0) 0 0 (hostCmd 1 0x201 0 0) = none ∧ getF (fetched (hosted 0) 0 0) (F.HIF_FSTAT_STATE 0) ≠ 1 ∧
    commonVersion (hArg (hostCmd 1 0x201 0 0) 0 % 256) (hArg (hostCmd 1 0x201 0 0) 0 / 256 % 256) = some 2 ∧
    fhpRefusal (fetched (hosted 0) 0 0) 0 0 ((hostCmd 1 0x201 0 0).set 4 1) = some 4 := by decide
set_option maxRecDepth 20000 in
theorem witness_hello_done : (getRing (setRing (ringUp none 0) 0 0 { running := some (cqe (hostCmd 1 0 0 0) 0 0 0 0, false), hello := some (1, 2) }) 0 0).hello = some (1, 2) ∧
    isEvent (cqe (hostCmd 1 0 0 0) 0 0 0 0) = false ∧ commonVersion 1 2 = some 2 ∧
    (getRing (setRing (ringUp none 0) 0 0 { running := some (cqe (hostCmd 1 0 0 0) 0 0 0 0, false), hello := some (1, 2) }) 0 0).cqUsed <
      cqSize (setRing (ringUp none 0) 0 0 { running := some (cqe (hostCmd 1 0 0 0) 0 0 0 0, false), hello := some (1, 2) }) 0 0 := by decide
set_option maxRecDepth 20000 in
theorem witness_transfer : fhpReady (hosted 1) 0 0 = true ∧ fhpRefusal (fetched (hosted 1) 0 0) 0 0 (hostCmd 2 0 0x2000 4) = none ∧
    xferArgs (hostCmd 2 0 0x2000 4) = true ∧ namesOwn (fetched (hosted 1) 0 0) 0 0x2000 = true ∧
    (hostWrite (hciMaster 0) 4 0x2000 0 [1, 2, 3, 4] (fetched (hosted 1) 0 0)).2 = none ∧ xferArgs (hostCmd 2 0 0x2000 0) = false ∧
    fhpRefusal (fetched (hosted 1) 0 0) 0 0 (hostCmd 3 0 0x2000 4) = none ∧ xferArgs (hostCmd 3 0 0x2000 4) = true ∧
    (hostRead (hciMaster 0) 4 0x2000 0 4 [] (fetched (hosted 1) 0 0)).2.1 = none ∧
    busGate (hosted 1) (hciMaster 0) .system 0x2000 4 true (leVal (([1, 2, 3, 4] : Bytes).take 4)) = .pass ∧ busGate (hosted 1) (hciMaster 0) .system 0x2000 4 false = .pass ∧
    outOfReach (hosted 1) (hciMaster 0) 0x2000 = false ∧ dramOut (hosted 1) 0x2000 = false ∧ reqOf (hciMaster 0) = none ∧
    dramWaits (hosted 1) 10 0x2000 = false ∧ dramEcc (hosted 1) (hciMaster 0) 0x2000 4 = (hosted 1, false) := by decide
set_option maxRecDepth 20000 in
theorem witness_transfer_foreign : namesOwn (setF (hosted 1) F.DRC_STAT_READY 1) 2 0x2000 = false ∧ xferArgs (hostCmd 2 0 0x2000 4) = true := by decide
/-- A container of one empty section of kind 3. -/
def container0 : Bytes :=
  leBytes 4 0x434D5646 ++ [1, 1] ++ leBytes 2 1 ++ leBytes 4 608 ++ [0, 1, 1, 0] ++ List.replicate 496 0 ++ [3, 0xFF] ++ List.replicate 94 0
set_option maxRecDepth 100000 in
theorem witness_container : fhpRefusal (fetched (hosted 1) 0 0) 0 0 (hostCmd 0x10 0 608 0x4000) = none ∧ container0.length = 608 ∧
    inRegions (getP (fetched (hosted 1) 0 0) 0) 0x4000 1 = true ∧ inRegions (getP (fetched (hosted 1) 0 0) 0) 0x4000 608 = true ∧
    loadRefusal (hostWrite (hciMaster 0) 608 0x4000 0 container0 (fetched (hosted 1) 0 0)).1 0 container0 true [some 0] = none ∧
    loadRefusal (hostWrite (hciMaster 0) 608 0x4000 0 container0 (fetched (hosted 1) 0 0)).1 0 container0 false [some 0] = some 2 := by decide
/-- A container of partition 0 with handle 1, whose program at array word 0 a plan in force may use. -/
def contained (held : Bool) : State :=
  { hosted 1 with
    sec := { (hosted 1).sec with containers := [{ handle := 1, part := 0, slots := [0], aoFirst := 0, aoCount := 0, plans := [], progs := [(0, 0, 4)], digest := 0 }] },
    tick := { (hosted 1).tick with plans := [plan0], base := if held then some 1 else none } }
set_option maxRecDepth 20000 in
theorem witness_unload : fhpRefusal (fetched (contained false) 0 0) 0 0 (hostCmd 0x11 1 0 0) = none ∧
    ((fetched (contained false) 0 0).sec.containers.find? (fun k => k.handle == 1)).any (fun k => !planHolds (fetched (contained false) 0 0) k) = true ∧
    ((fetched (contained true) 0 0).sec.containers.find? (fun k => k.handle == 1)).any (fun k => planHolds (fetched (contained true) 0 0) k) = true ∧
    (fetched (contained true) 0 0).sec.containers.find? (fun k => k.handle == 2) = none := by decide
set_option maxRecDepth 20000 in
theorem witness_milestone_ring : fhpRefusal (fetched (hosted 1) 0 0) 0 0 (hostCmd 0x41 0x1000 8 0) = none ∧ hArg (hostCmd 0x41 0x1000 8 0) 0 % 4096 = 0 ∧
    2 ^ Nat.log2 (hArg (hostCmd 0x41 0x1000 8 0) 1) = hArg (hostCmd 0x41 0x1000 8 0) 1 ∧ 0 < (fetched (hosted 1) 0 0).hif.fns.length := by decide
set_option maxRecDepth 20000 in
theorem witness_mode : fhpRefusal (fetched (hosted 1) 0 0) 0 0 (hostCmd 0x50 4 0 1) = none ∧ isSet (fetched (hosted 1) 0 0) F.TICK_CTL_ENABLE = false ∧
    isSet (fetched (setF (hosted 1) F.TICK_CTL_ENABLE 1) 0 0) F.TICK_CTL_ENABLE = true := by decide

/-! Plans, gate lists and queue entries from the host, and host triage of a paused partition -/

/-- The PF ready, with plans and gate lists from the host. -/
def planned : State := setF (setF (hosted 1) F.TICK_CTL_PLAN_SRC 1) F.NET_CTL_GCL_SRC 1
/-- A plan of one array item. -/
def planBytes : Bytes :=
  leBytes 2 1 ++ leBytes 2 7 ++ leBytes 2 1 ++ leBytes 2 0xFFFF ++ leBytes 4 1000 ++ leBytes 2 1000 ++ leBytes 2 800 ++ [8] ++ List.replicate 7 0 ++
    leBytes 4 64 ++ leBytes 4 64 ++ (leBytes 2 1 ++ [0, 0] ++ leBytes 4 0 ++ leBytes 4 900000 ++ leBytes 4 1000 ++ leBytes 4 1000 ++ leBytes 2 0 ++
    leBytes 2 0xFFFF ++ leBytes 4 0xFFFFFFFF ++ leBytes 2 0xFFFF ++ [1, 0])
set_option maxRecDepth 20000 in
theorem witness_plan_add : fhpReady planned 0 0 = true ∧ fhpRefusal (fetched planned 0 0) 0 0 (hostCmd 0x20 0 64 0) = none ∧ planBytes.length = 64 ∧
    isSet (fetched planned 0 0) F.TICK_CTL_PLAN_SRC = true ∧ planRefusal (fetched planned 0 0) planBytes (parsePlan planBytes) = none ∧
    planRoom (fetched planned 0 0) (parsePlan planBytes) = true ∧ isSet (fetched (hosted 1) 0 0) F.TICK_CTL_PLAN_SRC = false ∧
    planRefusal (fetched planned 0 0) (planBytes.set 0 2) (parsePlan (planBytes.set 0 2)) = some 1 ∧
    planRoom { fetched planned 0 0 with tick := { planned.tick with plans := [parsePlan planBytes] } } (parsePlan planBytes) = false := by decide
/-- The same with that plan in plan memory. -/
def withPlan : State := { planned with tick := { planned.tick with plans := [parsePlan planBytes], pending := [(7, 9)] } }
set_option maxRecDepth 20000 in
theorem witness_plan_activate : fhpReady withPlan 0 0 = true ∧ fhpRefusal (fetched withPlan 0 0) 0 0 (hostCmd 0x21 7 12 0) = none ∧
    hArg (hostCmd 0x21 7 12 0) 0 = 7 ∧ (planOf (fetched withPlan 0 0) 7).isSome = true ∧ (planOf (fetched withPlan 0 0) 8).isNone = true ∧
    fhpRefusal (fetched withPlan 0 0) 0 0 (hostCmd 0x22 7 0 0) = none ∧ planHeld (fetched withPlan 0 0) 7 = true ∧
    planHeld { fetched withPlan 0 0 with tick := { withPlan.tick with pending := [] } } 7 = false := by decide
set_option maxRecDepth 20000 in
theorem witness_gcl : fhpRefusal (fetched planned 0 0) 0 0 (hostCmd 0x30 5 0 1) = none ∧ isSet (fetched planned 0 0) F.NET_CTL_GCL_SRC = true ∧
    5 < (fetched planned 0 0).net.gclNext.length ∧ isSet (fetched (hosted 1) 0 0) F.NET_CTL_GCL_SRC = false := by decide
set_option maxRecDepth 20000 in
theorem witness_queue_post : fhpReady (setQ (hosted 1) 5 { depth := 2, consumer := 23 }) 0 0 = true ∧
    fhpRefusal (fetched (setQ (hosted 1) 5 { depth := 2, consumer := 23 }) 0 0) 0 0 (hostCmd 0x40 5 1 2) = none ∧
    qBound (getQ (fetched (setQ (hosted 1) 5 { depth := 2, consumer := 23 }) 0 0) 5) = true ∧
    (getQ (fetched (setQ (hosted 1) 5 { depth := 2, consumer := 23, part := 3 }) 0 0) 5).part ≠ fnPart 2 := by decide
/-- A record of partition 2, which the host triages, and the partition paused since time 0. -/
def paused2 : State :=
  let r : FaultRec := { code := 0x0130, cls := 2, part := some 2, port := false, block := 1, item := 1, tick := 0, time := 0, seq := 0, detail := [] }
  let s := setF (setF (hosted 1) F.HIF_TRIAGE_TIMEOUT_MS 1) (F.HIF_FSTAT_VERSION 0) 2
  { s with flt := { s.flt with comp := { s.flt.comp with queue := [r] } }, hif := { s.hif with paused := [{ part := 2, rec_ := r, since := 0 }] } }
set_option maxRecDepth 20000 in
theorem witness_triage : fhpReady paused2 0 0 = true ∧ fhpRefusal (fetched paused2 0 0) 0 0 (hostCmd 0x60 2 0 0) = none ∧
    (partRecs (fetched paused2 0 0) 2).length = 1 ∧ fhpRefusal (fetched paused2 0 0) 0 0 (hostCmd 0x61 2 0 0) = none ∧
    (fetched paused2 0 0).hif.paused.any (fun x => x.part == 2) = true ∧ (fetched paused2 0 0).hif.paused.all (fun x => x.part != 3) = true ∧
    (atComp 1000000 paused2).hif.paused.any (fun x => x.part == 2 && !x.resume &&
      decide (x.since + 1000000 * getF (atComp 1000000 paused2) F.HIF_TRIAGE_TIMEOUT_MS ≤ 1000000)) = true := by decide

/-! Each 1 µs interval computes the damper fractions of R424 and applies them an interval later -/

theorem witness_damper : 0 < capEff up ∧ ((250 * capEff up : Nat) : Int) * 25 ≤ 256 * (((82500 : Nat) : Int) - (250 * capEff up : Nat)) ∧
    256 * (((82500 : Nat) : Int) - (250 * capEff up : Nat)) < (250 * capEff up : Nat) * (25 + 1) ∧ 256 * 1 ≤ (getF up F.KILN_DAMP_GAIN_I : Int) * 25 ∧
    (getF up F.KILN_DAMP_GAIN_I : Int) * 25 < 256 * (1 + 1) ∧ 16 * 50 ≤ (getF up F.KILN_DAMP_GAIN_P : Int) * 25 ∧
    (getF up F.KILN_DAMP_GAIN_P : Int) * 25 < 16 * (50 + 1) ∧ capEff up = 300 ∧ getF up F.KILN_DAMP_DMAX = 192 ∧ up.kiln.acc = 0 := by decide

/-! Power windows step the host cores, rails step toward their points, ACLK changes, and availability is measured -/

set_option maxRecDepth 20000 in
theorem witness_window : (atPort 1 up).kiln.atMax = true ∧ 250 * capEff (atPort 1 up) < 80000 ∧ (atPort 1 up).kiln.floored = false ∧
    canDown (atPort 1 up) 0 = true ∧ (∀ c < 8, canDown { atPort 1 up with kiln := { up.kiln with hcPoint := List.replicate 8 0, floored := true } } c = false) ∧
    secondPast (atPort 1 up) (atPort 1 up).kiln.unheldAt = true ∧ 100 * 1000 ≤ 95 * (250 * capEff (atPort 1 up)) ∧
    secondPast (atPort 1 up) (tabGet (atPort 1 up).kiln.droopAt 3 none) = true ∧
    ({ atPort 1 up with kiln := { up.kiln with atMax := false } } : State).kiln.atMax = false := by decide
set_option maxRecDepth 20000 in
theorem witness_steps : (atPort 1 up).kiln.stepAt = none ∧ arrGoal { atPort 1 up with kiln := { up.kiln with point := 0 } } ≠ 0 ∧
    nth ({ up.kiln with hcPoint := List.replicate 8 3, hcUp := List.replicate 8 true } : Kiln).hcUp 7 false = true ∧
    isSet (atPort 1 up) F.TICK_CTL_ENABLE = false ∧ aclkMoves (atPort 1 up) = true ∧
    aclkMoves (setF { up with timeP := edgeToCome (setF up F.TICK_CTL_ENABLE 1) } F.TICK_CTL_ENABLE 1) = true ∧
    aclkMoves (setF { up with timeP := edgeToCome (setF up F.TICK_CTL_ENABLE 1) + 1 } F.TICK_CTL_ENABLE 1) = false ∧ getF (atPort 1 up) F.KILN_ACLK_TARGET_MHZ < 4096 ∧
    getF (setF (atPort 1 up) F.KILN_ACLK_CUR_MHZ 600) F.KILN_ACLK_CUR_MHZ < getF (atPort 1 up) F.KILN_ACLK_TARGET_MHZ ∧
    getF (atPort 1 up) F.KILN_ACLK_TARGET_MHZ ≤ nth (atPort 1 up).fuse.arrCurve (atPort 1 up).kiln.point 0 ∧
    nth (atPort 1 up).fuse.arrCurve 0 0 ≤ getF (setF (atPort 1 up) F.KILN_ACLK_CUR_MHZ 1100) F.KILN_ACLK_CUR_MHZ := by decide
set_option maxRecDepth 20000 in
theorem witness_avail : ({ up with tick := { up.tick with running := true } } : State).tick.running = true ∧ isSet up F.KILN_STAT_THROTTLING = false ∧
    up.fuse.aclkMax < 4096 ∧ marginNow up * 65536 < 65536 * 100 ∧ isSet (setF up F.TICK_CTL_ENABLE 1) F.TICK_CTL_ENABLE = true ∧ up.tick.nextCeil = none ∧
    500 ≤ (1000 : Nat) ∧ 1000 ≤ up.fuse.aclkMax ∧ 1000 ≤ getF up F.KILN_ACLK_CUR_MHZ := by decide

/-! Temperatures, the thermal cap, the input supply, Ember and the cages -/

/-- Every sensor at `q` quarters of a degree. -/
def temps (q : Int) : List Int := List.replicate 24 q
set_option maxRecDepth 20000 in
theorem witness_thermal : (atPort 1 up).kiln.ember ≠ 2 ∧ (temps 0).length = 24 ∧ (∀ x ∈ temps 0, x < warnQ (atPort 1 up)) ∧
    (∀ x ∈ temps 384, warnQ (atPort 1 up) ≤ x ∧ x < throttleQ (atPort 1 up)) ∧ (atPort 1 up).kiln.warned = false ∧
    (∀ x ∈ temps 404, throttleQ (atPort 1 up) ≤ x ∧ x < tripQ (atPort 1 up)) ∧ isSet (atPort 1 up) F.KILN_STAT_THROTTLING = false ∧
    (∀ x ∈ temps 440, tripQ (atPort 1 up) ≤ x) ∧ (atPort 1 up).kiln.tripped = false := by decide
/-- The cap falling, with the sensors at `q` since time 0. -/
def throttling (q : Int) : State :=
  setF { up with kiln := { up.kiln with temps := temps q, cap := 200, capAt := some 0, coolSince := some 0 } } F.KILN_STAT_THROTTLING 1
set_option maxRecDepth 20000 in
theorem witness_cap_step : isSet (atPort 100000000 (throttling 404)) F.KILN_STAT_THROTTLING = true ∧
    (∀ x ∈ (atPort 100000000 (throttling 404)).kiln.temps, throttleQ (atPort 100000000 (throttling 404)) ≤ x) ∧
    (∀ x ∈ (atPort 100000000 (throttling 0)).kiln.temps, x < throttleQ (atPort 100000000 (throttling 0))) ∧
    (atPort 100000000 (throttling 0)).kiln.coolSince = some 0 ∧ 0 + 100000000 ≤ (atPort 100000000 (throttling 0)).timeP ∧
    (atPort 100000000 (throttling 0)).kiln.capAt = some 0 := by decide
set_option maxRecDepth 20000 in
theorem witness_vin : (atPort 10000 up).kiln.vinFault = false ∧
    (atPort 10000 { up with kiln := { up.kiln with badSince := some 0 } }).kiln.badSince = some 0 ∧
    0 + 10000 ≤ (atPort 10000 { up with kiln := { up.kiln with badSince := some 0 } }).timeP ∧ (6000 ≤ 9000 ∧ 9000 < 9600) ∧ 5000 < 6000 := by decide
/-- A sealed device in Ember since time 0. -/
def embers : State :=
  setF { up with kiln := { up.kiln with ember := 2 }, emn := { up.emn with sealKey := true, sealed_ := some { seq := 1, svn := 0 } } } F.KILN_EMBER_WAKE_EN 7
set_option maxRecDepth 20000 in
theorem witness_ember : regGate up true 5 0x78 boss (2 * (6#31).toNat + 1) = .pass ∧ boss.part = 0 ∧ up.kiln.ember = 0 ∧ emberRefused up = false ∧
    emberRefused (setF up F.TICK_CTL_ENABLE 1) = true ∧ regGate (setF up F.TICK_CTL_ENABLE 1) true 5 0x78 boss (2 * (6#31).toNat + 1) = .pass ∧
    (atPort 1 { up with kiln := { up.kiln with ember := 1 } }).kiln.ember = 1 ∧ up.drc.zero = [] ∧ up.emn.update = none ∧
    (atPort 1 embers).kiln.ember = 2 ∧ wakes (atPort 1 embers) 2 = true ∧ rekindles (atPort 1 embers) true = true ∧
    rekindles (atPort 1 embers) false = false := by decide
set_option maxRecDepth 20000 in
theorem witness_vmod : vmodOn { up with pins := { up.pins with modIn := [true, true, true, true] } } 3 = true ∧ vmodOn up 3 = false ∧
    3 < up.pins.latched.length ∧ 3 < up.pins.modIn.length := by decide

/-! Cold boot, resets, restart of the compute die, tick-ready, and the update of the flash -/

/-- Slot A holds a confirmed image, slot B one on trial. -/
def flashed : State :=
  { up with emn := { up.emn with journal := up.emn.journal ++ [{ kind := 1, slot := 1, seq := 2 }], slots := [some { digest := 0, signed := true, svn := 0 },
      some { digest := 0, signed := true, svn := 3 }], booted := some { kind := 1, slot := 1, seq := 2 }, healthy := true } }
set_option maxRecDepth 20000 in
theorem witness_boot : flashed.emn.journal.length < 1024 ∧ bitOf 13 1 = false ∧ bitOf 15 1 = true ∧
    slotRecs flashed.emn.journal = [{ kind := 1, slot := 1, seq := 2 }, { kind := 1, slot := 0, seq := 1 }] ∧
    recQualifies flashed { kind := 1, slot := 1, seq := 2 } = true ∧ (slotImg flashed 1).any (·.good) = true ∧ flashed.emn.resetLow = false ∧
    bitOf (Nat.lor flashed.fuse.colBad flashed.fuse.colBlown) 9 = false := by decide
set_option maxRecDepth 20000 in
theorem witness_restart : ({ up with flt := { up.flt with restartDue := true } } : State).flt.restartDue = true ∧ up.flt.held = false ∧ up.kiln.tripped = false ∧
    allCool { up with kiln := { up.kiln with tripped := true } } = true ∧ up.pwr.portOn = true ∧
    allCool { up with kiln := { up.kiln with tripped := true, temps := temps 400 } } = false := by decide
set_option maxRecDepth 20000 in
theorem witness_tick_ready : getF (setF (setF { dramUp with emn := flashed.emn } F.EMN_BOOT_STAT_STAGE 2) F.HIF_DEVSTAT_BOOT 1) F.EMN_BOOT_STAT_STAGE = 2 ∧
    getF (setF (setF { dramUp with emn := flashed.emn } F.EMN_BOOT_STAT_STAGE 2) F.HIF_DEVSTAT_BOOT 1) F.HIF_DEVSTAT_BOOT = 1 ∧
    compDown (setF (setF { dramUp with emn := flashed.emn } F.EMN_BOOT_STAT_STAGE 2) F.HIF_DEVSTAT_BOOT 1) = false ∧
    isSet (setF (setF { dramUp with emn := flashed.emn } F.EMN_BOOT_STAT_STAGE 2) F.HIF_DEVSTAT_BOOT 1) F.DRC_STAT_READY = true ∧
    isSet (setF (setF up F.DRC_TRN_CTL_OWNER 1) F.HIF_DEVSTAT_BOOT 1) F.DRC_TRN_CTL_OWNER = true ∧
    isSet (setF (setF up F.DRC_TRN_CTL_OWNER 1) F.HIF_DEVSTAT_BOOT 1) F.DRC_STAT_READY = false ∧ up.pwr.compOn = true ∧
    getF (setF (setF up F.DRC_TRN_CTL_OWNER 1) F.HIF_DEVSTAT_BOOT 1) F.EMN_BOOT_STAT_STAGE ≠ 7 := by decide
set_option maxRecDepth 20000 in
theorem witness_update : regGate flashed true 4 0x2C boss (256 * (64#24).toNat + 1) = .pass ∧ flashed.emn.update = none ∧ flashed.kiln.ember = 0 ∧
    otherSlot flashed < flashed.emn.slots.length ∧ (64#24).toNat ≤ 16128 ∧ regGate flashed true 4 0x2C boss (256 * (64#24).toNat + 2) = .pass ∧
    regGate flashed true 4 0x2C boss (256 * (64#24).toNat + 3) = .pass ∧ flashed.emn.healthy = true ∧ (slotImg flashed 1).isSome = true ∧
    regGate (setF flashed F.EMN_BOOT_STAT_STAGE 7) true 4 0x2C boss (256 * (64#24).toNat + 4) = .pass ∧
    getF (setF flashed F.EMN_BOOT_STAT_STAGE 7) F.EMN_BOOT_STAT_STAGE = 7 ∧ flashed.emn.journal.length < 500 ∧
    regGate { flashed with emn := { flashed.emn with update := some ({ digest := 1, signed := true, svn := 3 }, 0), healthy := false } } true 4 0x2C boss
      (256 * (64#24).toNat + 1) = .pass ∧ 0 < flashed.emn.slots.length := by decide

/-! CREATE, LOAD_FW, START and TEARDOWN of a partition, and what each refuses -/

/-- A descriptor of partition 1: core 4, banks 16 and 17, 16 queues, no ISP context, 8 MiB of DRAM at 16 GiB with the lay-by area at their start, no sessions. -/
def part1Desc : Bytes :=
  [1, 0x10, 0, 0] ++ leBytes 4 0x30000 ++ leBytes 2 4096 ++ leBytes 2 16 ++ leBytes 4 0 ++ leBytes 8 (0x400000000 + 2 ^ 50) ++ List.replicate 32 0 ++ leBytes 8 0x400000000
/-- DRAM up, that descriptor at address 0x1000, and partition 1 in state `st` with banks `quar` quarantined. -/
def parted (st loads quar : Nat) : State :=
  let s := setF { dramUp with mem := memWrite [] 0x1000 part1Desc, sec := { dramUp.sec with quar := quar } } F.EMN_PART_ADDR_LO_ADDR 64
  if st = 0 then s else setP s 1 { descPart part1Desc with st := st, loads := loads }
set_option maxRecDepth 100000 in
theorem witness_create : regGate (parted 0 0 0) true 4 0x38 emino ((1#3).toNat + 8 * 1) = .pass ∧ eminoBusy (parted 0 0 0) = false ∧
    getF (parted 0 0 0) F.EMN_PART_ADDR_LO_ADDR * 64 + getF (parted 0 0 0) F.EMN_PART_ADDR_HI_ADDR * 2 ^ 32 = 0x1000 ∧ 1 < (parted 0 0 0).parts.length ∧
    (getP (parted 0 0 0) 1).st = 0 ∧ descOk (parted 0 0 0) 1 part1Desc = true ∧ Nat.land (descPart part1Desc).banks (parted 0 0 0).sec.quar = 0 ∧
    Nat.land (descPart part1Desc).banks (parted 0 0 0x10000).sec.quar ≠ 0 ∧ descOk (parted 0 0 0) 2 part1Desc = false ∧ (getP (parted 1 0 0) 1).st = 1 := by
  decide
set_option maxRecDepth 100000 in
theorem witness_create_reads : (eminoRead (parted 0 0 0) 0x1000 64).2 = some part1Desc := by
  have h : (eminoRead (parted 0 0 0) 0x1000 64).2 = some (memRead (parted 0 0 0).mem 0x1000 64 ++ []) := by decide
  rw [h, List.append_nil]; exact congrArg some (memRead_laid 0x1000 part1Desc)
set_option maxRecDepth 100000 in
theorem witness_load_start : regGate (parted 1 0 0) true 4 0x38 emino ((1#3).toNat + 8 * 2) = .pass ∧ eminoBusy (parted 1 0 0) = false ∧
    (getP (setF (parted 1 0 0) F.EMN_PART_ADDR_HI_LEN_KIB 1) 1).regions.head? = some (0x400000000, 0x800000) ∧
    getF (setF (parted 1 0 0) F.EMN_PART_ADDR_HI_LEN_KIB 1) F.EMN_PART_ADDR_HI_LEN_KIB = 1 ∧ (1 + 2047) / 2048 * 0x200000 ≤ 0x800000 ∧
    (parted 1 0 0).drc.xts.length < 16 ∧ regGate (parted 1 1 0) true 4 0x38 emino ((1#3).toNat + 8 * 3) = .pass ∧ 0 < (getP (parted 1 1 0) 1).loads ∧
    (getP (parted 1 0 0) 1).loads = 0 ∧
    eminoBusy { parted 1 1 0 with sec := { (parted 1 1 0).sec with cmd := some (4, 1) } } = true := by decide
set_option maxRecDepth 100000 in
theorem witness_teardown : regGate (parted 2 1 0) true 4 0x38 emino ((1#3).toNat + 8 * 4) = .pass ∧ planUses (parted 2 1 0) 1 = false ∧
    planUses { parted 2 1 0 with tick := { (parted 2 1 0).tick with plans := [{ plan0 with items := plan0.items.map (fun i => { i with part := 1 }) }], base := some plan0.id } } 1 = true ∧
    ({ parted 3 1 0 with sec := { (parted 3 1 0).sec with cmd := some (4, 1), scrubLeft := 0 } } : State).sec.cmd = some (4, 1) := by decide

/-! A quarantined bank goes to no partition until its quarter has been power-cycled -/

set_option maxRecDepth 100000 in
theorem witness_quarter : regGate (parted 0 0 0x30000) true 4 0x38 emino (8 * 5 + 64 * (2#2).toNat) = .pass ∧ eminoBusy (parted 0 0 0x30000) = false ∧
    (∀ x ∈ (parted 0 0 0x30000).parts, x.st ≠ 0 → Nat.land x.banks (255 * 2 ^ (8 * (2#2).toNat)) = 0) ∧
    powered (parted 0 0 0x30000) (domQuarter (2#2).toNat) = true ∧ Nat.land (getP (parted 2 1 0) 1).banks (255 * 2 ^ (8 * (2#2).toNat)) ≠ 0 ∧
    bitOf (getP (parted 3 1 0) 1).banks 16 = true := by decide

/-! Debug challenge and response, attestation, the end of a billet, and a mismatch on real-time pair 1 -/

/-- A challenge is outstanding. -/
def challenged : State := { up with sec := { up.sec with challenge := some 1 } }
set_option maxRecDepth 20000 in
theorem witness_debug : challenged.sec.challenge.isSome = true ∧ isSet challenged F.EMN_DBG_OPEN = false ∧ getF challenged F.EMN_DBG_FAILS ≠ 3 ∧
    isSet (setF up F.EMN_DBG_OPEN 1) F.EMN_DBG_OPEN = true ∧ getF (setF up F.EMN_DBG_FAILS 3) F.EMN_DBG_FAILS = 3 ∧ up.sec.challenge = none := by decide
/-- A request record at address 0x1000 with a buffer of 4 KiB and a nonce of 48 bytes. -/
def attRec : Bytes := leBytes 8 0x2000 ++ leBytes 4 4096 ++ leBytes 4 48 ++ List.replicate 48 7
set_option maxRecDepth 20000 in
theorem witness_att : regGate (setAtt { dramUp with mem := memWrite [] 0x1000 attRec } 0 { addr := 0x1000 }) true 4 0x58 boss 1 = .pass ∧
    inPartMem (setAtt { dramUp with mem := memWrite [] 0x1000 attRec } 0 { addr := 0x1000 }) 0 0x1000 64 = true ∧
    (getAtt (setAtt { dramUp with mem := memWrite [] 0x1000 attRec } 0 { addr := 0x1000 }) 0).addr = 0x1000 ∧ leAt attRec 12 4 = 48 ∧
    inPartMem (setAtt up 0 { addr := 0x40 }) 0 0x700000000000 64 = false ∧ (getAtt (setAtt up 0 { busy := true }) 0).busy = true ∧ (getAtt up 0).busy = false := by decide
/-- A billet of class `c` runs. -/
def billeting (c : Nat) : State :=
  { up with tick := { up.tick with armed := [{ idx := 0, item := { item0 with engine := 0x0B, arg := c }, start := 0, deadline := 100000, started := true }] } }
set_option maxRecDepth 20000 in
theorem witness_billet : (∀ c < 7, ((billeting c).tick.armed.find? (fun a => a.item.engine == 0x0B && a.started && !(billeting c).tick.reports.contains a.idx)).any
      (fun a => a.item.arg % 8 == c && decide (c < (billeting c).flt.cursors.length)) = true) ∧ 0 + 1 < billetsOf 0 0 ∧ billetsOf 1 0 ≤ 0 + 1 ∧
    (∀ a ∈ itemDue.tick.armed, a.item.engine ≠ 0x0B) ∧ up.flt.restarting = false ∧
    ({ up with flt := { up.flt with restarting := true } } : State).flt.restarting = true := by decide

/-! TAKE, DONE, KICK and RESTART, the watchdog, and a mismatch on real-time pair 0 -/

/-- A record of a code and a class. -/
def rec0 (code cls : Nat) : FaultRec := { code := code, cls := cls, part := some 1, port := false, block := 1, item := 1, tick := 0, time := 0, seq := 0, detail := [] }
/-- Three records wait in both queues. -/
def faulty : State := { up with flt := { up.flt with comp := { up.flt.comp with queue := [rec0 0x0122 1, rec0 0x0130 2, rec0 0x0131 2] },
                                                     port := { up.flt.port with queue := [rec0 0x0210 0, rec0 0x0234 3] } } }
set_option maxRecDepth 20000 in
theorem witness_take : regGate faulty false 20 0x20 boss 1 = .pass ∧ faulty.flt.comp.queue = [rec0 0x0122 1] ++ rec0 0x0130 2 :: [rec0 0x0131 2] ∧
    faulty.hif.paused = [] ∧ restartsFor faulty (rec0 0x0130 2) = false ∧ restartsFor faulty (rec0 0x0104 2) = true ∧ faulty.flt.restarting = false ∧ regGate faulty true 6 0x20 boss 1 = .pass ∧
    faulty.flt.port.queue = [rec0 0x0210 0] ++ rec0 0x0234 3 :: [] ∧ up.flt.comp.queue = [] ∧ regGate up false 20 0x20 boss 1 = .pass := by decide
set_option maxRecDepth 20000 in
theorem witness_flt_cmds : regGate faulty false 20 0x20 boss 2 = .pass ∧ regGate faulty false 20 0x20 boss 3 = .pass ∧ regGate faulty false 20 0x20 boss 4 = .pass ∧
    regGate faulty true 6 0x20 boss 2 = .pass ∧ regGate faulty true 6 0x20 boss 3 = .pass ∧ regGate faulty true 6 0x20 boss 4 = .pass ∧
    faulty.flt.interrupted = false ∧ faulty.flt.held = false ∧ faulty.flt.pair0Reset = false ∧ faulty.flt.comp.queue.length < 32 ∧
    ({ faulty with flt := { faulty.flt with watch := [(true, 5)] } } : State).flt.watch = [(true, 5)] ∧ (atComp 6 faulty).timeC = 6 ∧
    (atComp 6 faulty).flt.restarting = false := by decide

/-! REGISTER_WRITE completes for every register: what a field takes, what is ignored, refused and logged -/

/-- A host core's code, which is not privileged. -/
def app : Master := { code := 1, part := 1 }
set_option maxRecDepth 20000 in
theorem witness_reg_write : regGate up false 5 0x20 boss (7#32).toNat = .pass ∧ isSet up F.CRD_CTL_ENABLE = false ∧
    regGate (setF up F.CRD_CTL_ENABLE 1) false 5 0x20 boss (7#32).toNat = .pass ∧ isSet (setF up F.CRD_CTL_ENABLE 1) F.CRD_CTL_ENABLE = true ∧
    getF (setF up F.CRD_CTL_ENABLE 1) F.CRD_TIMEOUT_US ≠ max 1 ((7#32).toNat % 65536) ∧
    getF (setF up F.CRD_CTL_ENABLE 1) F.CRD_TIMEOUT_US = max 1 ((20#32).toNat % 65536) ∧ regGate up false 5 0x10 boss (0x501#32).toNat = .pass ∧
    regGate (setF up F.CRD_CTL_ENABLE 1) false 5 0x10 boss (0x500#32).toNat = .pass ∧ regGate up false 4 0x14 boss (0x10001#32).toNat = .pass ∧
    blockIs false 5 = true ∧ blockIs false 21 = false := by decide
set_option maxRecDepth 20000 in
theorem witness_reg_refused : emptySlot false 5 0x20 = false ∧ compDown up = false ∧ regDomain false 5 0x20 = none ∧ regReach false 5 0x20 app = false ∧
    (fieldsAt false 5 0x20).any (fun fl => rsvBits fl (0x10000#32).toNat) = true ∧ regDomain false 14 0x10 = some domStereo ∧
    powered { up with pwr := { up.pwr with off := [domStereo] } } domStereo = false ∧ emptySlot false 5 0xC = true ∧ heldBack up false boss = false ∧
    heldBack up false app = false ∧ heldBack { up with pwr := { up.pwr with dcReset := true } } false boss = true ∧ (compOwn 20 0x20 boss 1).isSome = true := by decide
theorem witness_reg_own (x : Found) : compOwn 5 0x20 boss 7 = none ∧ compOwn 5 0x20 app 7 = none ∧ compOwn 14 0x10 boss 7 = none ∧
    compOwn 5 0xC boss 7 = none ∧ portOwn 5 0x20 boss 7 x = none := ⟨rfl, rfl, rfl, rfl, rfl⟩

/-! An access to an offset that no register occupies reads zero or is dropped, is flagged and logged, and raises no fault -/

set_option maxRecDepth 20000 in
theorem witness_unassigned : blockIs false 5 = true ∧ fieldsAt false 5 0x800 = none ∧ emptySlot false 5 0x800 = false ∧ heldBack up false boss = false ∧
    regDomain false 5 0x800 = none ∧ regReach false 5 0x800 boss = true ∧ compOwn 5 0x800 boss 7 = none ∧ blockIs true 5 = true ∧
    fieldsAt true 5 0x800 = none ∧ emptySlot true 5 0x800 = false ∧ regDomain true 5 0x800 = none ∧ regReach true 5 0x800 boss = true ∧
    regDomain false 14 0x800 = some domStereo := ⟨rfl, rfl, rfl, by decide, rfl, rfl, rfl, rfl, rfl, rfl, rfl, rfl, rfl⟩

/-! A raised fault enters its die's queue of 32, and a full queue gives up what R484 names -/

/-- A full queue whose youngest advisory record is number 30. -/
def fullQ : List FaultRec := List.replicate 30 (rec0 0x0122 1) ++ rec0 0x0113 0 :: [rec0 0x0130 2]
set_option maxRecDepth 20000 in
theorem witness_full : fullQ.length = 32 ∧ fullQ = List.replicate 30 (rec0 0x0122 1) ++ rec0 0x0113 0 :: [rec0 0x0130 2] ∧ (rec0 0x0113 0).cls ≤ 1 ∧
    (∀ y ∈ [rec0 0x0130 2], 2 ≤ y.cls) ∧ (∀ y ∈ List.replicate 32 (rec0 0x0130 2), 2 ≤ y.cls) ∧ (List.replicate 32 (rec0 0x0130 2)).length = 32 ∧
    up.hif.paused = [] ∧ getF up F.HIF_TRIAGE_PART = 0 ∧ up.flt.interrupted = false ∧ handlingCode up < 2 + 1 := by decide

/-! No step makes a die's fault queue hold more than its 32 records -/

theorem witness_faults_ok : State.reset.faultsOk ∧ step { State.reset with pending := [.rtLockstep] } = .next (rtLockstep State.reset) := ⟨⟨by decide, by decide⟩, rfl⟩

/-! No step leaves the byte memory out of its one canonical form -/

theorem witness_mem_ok : State.reset.memOk ∧ step { State.reset with pending := [.tickReady] } = .next (tickReady State.reset) := ⟨rfl, rfl⟩

/-! A step carries out the command at the front of the queue, and every command runs -/

theorem witness_front : ({ State.reset with pending := [.tickReady] } : State).pending = .tickReady :: [] ∧ State.reset.pending = [] := ⟨rfl, rfl⟩

/-! Worked examples and tables of the specification. -/

/-- Ties under round_shift with s = 1 (the table of chapter 4), and the INT8 example with a zero point. -/
theorem test_round_shift : [5, 7, -5, -7].map (fun x => (roundShift x 1 false, roundShift x 1 true)) = [(2, 3), (4, 4), (-2, -3), (-4, -4)] ∧
    roundShift (1150 * 1690499128) 37 false = 14 ∧ roundShift (1150 * 1690499128) 37 true = 14 := by decide

set_option maxRecDepth 20000 in
/-- The row quantised to FP8 E4M3: the codes of its selected lanes. -/
theorem test_fp8_row : (narrow (.fin false 5 1) .e4m3 .rne).code = 0x4A ∧ (narrow (.fin false 17 1) .e4m3 .rne).code = 0x58 ∧
    (narrow (.fin false 17 1) .e4m3 .rna).code = 0x59 ∧ (narrow (.fin false 17 1) .e4m3 (.sr 0x9A3C)).code = 0x58 ∧
    (narrow (.fin true 348 1) .e4m3 .rne).code = 0xFB ∧ (narrow (.fin false 1 8) .e4m3 .rne).code = 0x20 ∧
    (narrow (.fin true 448 1) .e4m3 .rne).code = 0xFE ∧ fDiv 0x40600000 0x43E00000 = 0x3C000000 := by decide

set_option maxRecDepth 20000 in
/-- The pattern that defeats the hash: without the swizzle every header lies in channel 0, with it four lie in each channel. -/
theorem test_dram_hash : (List.range 64).all (fun j => (dramMap (0x240000000 + j * 0x200000) 0).ch == 0) = true ∧
    (List.range 16).all (fun c => ((List.range 64).filter (fun j => (dramMap (swizzle (0x240000000 + j * 0x200000) 0xFFF) 0).ch == c)).length == 4) = true := by decide

/-- The damper example: 82.5 W against 75 W at the reset gains. -/
theorem test_damper : (damperUpdate 82500 1200 [] [] 0 0 0 up).kiln.acc = 1 ∧ (damperUpdate 82500 1200 [] [] 0 0 0 up).kiln.d = 51 ∧
    (damperUpdate 82500 1200 [] [] 0 0 0 up).kiln.dg = [0, 0, 0, 0] := by decide

set_option maxRecDepth 20000 in
/-- Balls: CAM2-007 and the SCL of cage 2 at NET-031, and the lanes that STRAP0 reverses. -/
theorem test_balls : ballPlace (.cam 2) 7 = some ⟨2, 24⟩ ∧ netSignal 31 = some (2, "SCL") ∧ ballPlace .pcie 33 = some ⟨27, 1⟩ ∧
    pcieBalls up 0 = [1, 2, 3, 4] := by decide

/-! Operands that WellFormed admits and refuses. -/

/-- Masters within and out of range (R462, R509). -/
def wfM : Master := { code := 10 }
def wfX : Master := { code := 64 }
/-- Commands whose operands WellFormed admits. -/
def wfGood : List Instr := [
   .causewayDataFlit true ⟨0, [], flit0⟩ flit0, .domainPowerDown 1, .domainPowerUp 1, .memoryAccess wfM none 1 1 none {}, .stagedWordIssue ⟨1, true⟩,
    .tickCtlWrite wfM 0, .tickNumLoRead wfM, .utilLoRead wfM 0, .opbegin 1 0, .load 1 0, .stream 1 ⟨0, none⟩, .fill 1 0, .fillRowArrive ⟨1, 0⟩,
    .safe 1 0, .opend 1 0, .arrColRetireReq wfM 0, .groupPowerUp 1, .arrCtlWrite wfM 0, .arrColcntWrite wfM 0, .drnCtlWrite wfM 0,
    .mapStoreAccess wfM 1 true 1 1 none [], .remoteWrite wfM 1 1 1 1 [], .creditRequest wfM 1 1 1, .creditGrant 1 1,
    .creditReturn wfM 1 1 1, .creditTimeout 1 1, .revocation 1 1 1, .revocationAck 1 1 1, .windowOpenAccept 1 1, .winOpen 1 0,
    .winClose 1 0, .winRelease 1 0, .crdWinctlOpen wfM, .crdWinctlClose wfM, .crdWinctlRelease wfM 0, .nop 1 0, .agsetLo 1 0, .agsetHi 1 0,
    .sets 1 0, .kset 1 0, .halt 1 0, .programEnd 1, .cairnEnter 1, .cairnWait 1, .engineHoldRelease ⟨1, 0⟩, .hxrStartGo wfM 1 0, .xfer 1 0,
    .dmaCopy 2, .dmaTensor 2, .dmaCsload 2, .dmaSmall 2, .bootPortDescriptor wfM (List.replicate 64 0), .burstComplete 2 1, .blockAuth 2,
    .xferComplete 2, .footpathAccess wfM 1 1 none {}, .stepSubmit 1, .shareExpiry 1 1, .shapeEntry 1 1, .lbyCmdEnter wfM,
    .lbyCmdResume wfM 0, .csiFrameStart 1 1 1 1 1, .csiLongPacket 1 1 1 [] true 1, .csiFrameEnd 1 1 1 1, .csiPhyError 1,
    .camCtlWrite wfM 0, .camWscmdPost wfM 0, .writeSetStart 1 1, .writeSetEntry 1 true 1, .i3cIbi 1 1, .triggerPulse 1 1,
    .triggerPulseEnd 1 1, .ispCtxenWrite wfM 0, .ispFeedWrite wfM 0, .laneDispatch 1, .lane 1 0, .ispOutputRow 1, .disp 1 0, .crop 1 0,
    .codecJobStart 1, .codecJobComplete 1, .dramBurst wfM 1 1 1 none 1 0, .skewWindow (List.replicate 16 0) [], .rhWindowStart 1 1,
    .dramTempRead (List.replicate 4 0), .refreshDue 1 1 true, .writeLinkPoll (List.replicate 4 (true, true)), .drcCfgInit wfM 0,
    .drcTrnGo wfM 0, .drcTrnDone 1 (List.replicate 16 0) (List.replicate 16 0), .scrubZero wfM 1 1, .linkChange 1 true,
    .netFrameReceive 1 ⟨1, 0, none⟩ [] 1, .netRxrelWrite wfM 0, .netTxEntry 1 none 0, .gvspLeader 1 1 1 1 1 1, .gvspPayload 1 1 1 [],
    .gvspTrailer 1 1 1 1, .gclCycleStart 1 [], .netBarrecRegister wfM 0, .netBarrecUnregister wfM 0, .netBarrierWrite wfM 0,
    .hifRingCfgWrite wfM 0 0 0, .hifSqtailWrite wfM 0 0 0, .hifCqheadWrite wfM 0 0 0, .fhpHello 0 0 (List.replicate 64 0),
    .writeMem 0 0 (List.replicate 64 0) [], .readMem 0 0 (List.replicate 64 0), .loadContainer 0 0 (List.replicate 64 0) [] true [],
    .unloadContainer 0 0 (List.replicate 64 0), .planAdd 0 0 (List.replicate 64 0) [], .planActivate 0 0 (List.replicate 64 0),
    .planRemove 0 0 (List.replicate 64 0), .gclSet 0 0 (List.replicate 64 0) [], .queuePost 0 0 (List.replicate 64 0),
    .milestoneRing 0 0 (List.replicate 64 0), .modeSet 0 0 (List.replicate 64 0), .faultRead 0 0 (List.replicate 64 0),
    .faultResume 0 0 (List.replicate 64 0), .hifEvent 1, .triageTimeout 1 1, .damperUpdate 1 1 (List.replicate 19 (0, 0)) (List.replicate 27 1) 1 1 1,
    .powerWindow 1 (List.replicate 16 0) 1, .droopDetect 1, .droopRecover 1, .voltageStep 1 1, .thermalSample (List.replicate 24 0) 1,
    .emberEnter wfM 0, .powerOn ⟨1, []⟩, .resetN true ⟨1, []⟩, .updStart wfM 0 0 true 1 [], .healthy wfM 0, .confirm wfM 0,
    .recChunk wfM 0 true 0 true true 1 [], .create wfM 0, .loadFw wfM 0 true, .partStart wfM 0, .teardown wfM 0, .cycleQuarter wfM 0,
    .attestationRequest wfM, .attestationDone 1, .fltTake wfM ⟨true, false⟩, .fltDone wfM true, .fltKick wfM true, .fltRestart wfM true,
    .billetEnd 1 (List.replicate 16 0) true, .registerWrite wfM true 1 1 0 {}, .csiSyncChange 1 true, .dramRetrainOverdue 1,
    .causewayNak true 1]
/-- The same commands, each with one operand that one check of WellFormed refuses. -/
def wfBad : List Instr := [
   .causewayDataFlit true ⟨0, [], { flit0 with payload := [] }⟩ flit0, .causewayDataFlit true ⟨0, [], flit0⟩ { flit0 with payload := [] },
    .causewayDataFlit true ⟨0, [3], flit0⟩ flit0,
    .domainPowerDown 36, .domainPowerUp 36, .memoryAccess wfX none 1 1 none {}, .memoryAccess wfM none 281474976710656 1 none {},
    .memoryAccess wfM (some (0, 6)) 1 1 none {}, .memoryAccess wfM none 1 1 (some []) {}, .stagedWordIssue ⟨12, true⟩, .tickCtlWrite wfX 0,
    .tickNumLoRead wfX, .utilLoRead wfX 0, .opbegin 12 0, .load 12 0, .stream 12 ⟨0, none⟩, .fill 12 0, .fillRowArrive ⟨2, 0⟩, .safe 12 0, .opend 12 0,
    .arrColRetireReq wfX 0, .groupPowerUp 16, .arrCtlWrite wfX 0, .arrColcntWrite wfX 0, .drnCtlWrite wfX 0,
    .mapStoreAccess wfX 1 true 1 1 none [], .mapStoreAccess wfM 1 true 281474976710656 1 none [],
    .mapStoreAccess wfM 1 true 1 1 (some []) [], .remoteWrite wfX 1 1 1 1 [], .remoteWrite wfM 24 1 1 1 [], .remoteWrite wfM 1 8 1 1 [],
    .creditRequest wfX 1 1 1, .creditRequest wfM 24 1 1, .creditRequest wfM 1 8 1, .creditGrant 24 1, .creditGrant 1 8,
    .creditReturn wfX 1 1 1, .creditReturn wfM 24 1 1, .creditReturn wfM 1 8 1, .creditTimeout 24 1, .creditTimeout 1 8,
    .revocation 64 1 1, .revocation 1 24 1, .revocation 1 1 8, .revocationAck 64 1 1, .revocationAck 1 24 1, .revocationAck 1 1 8,
    .windowOpenAccept 24 1, .windowOpenAccept 1 8, .winOpen 12 0, .winClose 12 0, .winRelease 12 0, .crdWinctlOpen wfX,
    .crdWinctlClose wfX, .crdWinctlRelease wfX 0, .nop 12 0, .agsetLo 12 0, .agsetHi 12 0, .sets 12 0, .kset 12 0, .halt 12 0,
    .programEnd 12, .cairnEnter 12, .cairnWait 12, .engineHoldRelease ⟨12, 0⟩, .hxrStartGo wfX 1 0, .hxrStartGo wfM 12 0, .xfer 12 0,
    .dmaCopy 1, .dmaCopy 6, .dmaTensor 1, .dmaTensor 6, .dmaCsload 1, .dmaCsload 6, .dmaSmall 1, .dmaSmall 6,
    .bootPortDescriptor wfX (List.replicate 64 0), .bootPortDescriptor wfM [], .burstComplete 1 1, .burstComplete 6 1, .blockAuth 1,
    .blockAuth 6, .xferComplete 1, .xferComplete 6, .footpathAccess wfX 1 1 none {}, .footpathAccess wfM 281474976710656 1 none {},
    .footpathAccess wfM 1 1 (some []) {}, .stepSubmit 8192, .shareExpiry 8 1, .shapeEntry 8192 1, .lbyCmdEnter wfX, .lbyCmdResume wfX 0,
    .csiFrameStart 4 1 1 1 1, .csiFrameStart 1 32 1 1 1, .csiFrameStart 1 1 65536 1 1, .csiFrameStart 1 1 1 4 1,
    .csiLongPacket 4 1 1 [] true 1, .csiLongPacket 1 32 1 [] true 1, .csiLongPacket 1 1 64 [] true 1, .csiLongPacket 1 1 1 [] true 4,
    .csiFrameEnd 4 1 1 1, .csiFrameEnd 1 32 1 1, .csiFrameEnd 1 1 4 1, .csiPhyError 4, .camCtlWrite wfX 0, .camWscmdPost wfX 0,
    .writeSetStart 4 1, .writeSetEntry 4 true 1, .i3cIbi 4 1, .i3cIbi 1 128, .triggerPulse 16 1, .triggerPulseEnd 16 1,
    .ispCtxenWrite wfX 0, .ispFeedWrite wfX 0, .laneDispatch 4, .lane 12 0, .ispOutputRow 4, .disp 12 0, .crop 12 0, .codecJobStart 4,
    .codecJobComplete 4, .dramBurst wfX 1 1 1 none 1 0, .dramBurst wfM 1 281474976710656 1 none 1 0, .dramBurst wfM 1 1 1 (some []) 1 0,
    .skewWindow [] [], .rhWindowStart 16 1, .rhWindowStart 1 16, .dramTempRead [], .refreshDue 16 1 true, .refreshDue 1 16 true,
    .writeLinkPoll [], .drcCfgInit wfX 0, .drcTrnGo wfX 0, .drcTrnDone 16 (List.replicate 16 0) (List.replicate 16 0), .scrubZero wfX 1 1,
    .linkChange 6 true, .netFrameReceive 6 ⟨1, 0, none⟩ [] 1, .netFrameReceive 1 ⟨4096, 0, none⟩ [] 1, .netRxrelWrite wfX 0, .netTxEntry 8192 none 0, .gvspLeader 2048 1 1 1 1 1, .gvspPayload 2048 1 1 [], .gvspTrailer 2048 1 1 1, .gclCycleStart 6 [],
    .netBarrecRegister wfX 0, .netBarrecUnregister wfX 0, .netBarrierWrite wfX 0, .hifRingCfgWrite wfX 0 0 0, .hifSqtailWrite wfX 0 0 0,
    .hifCqheadWrite wfX 0 0 0, .fhpHello 0 0 (List.replicate 65 0), .writeMem 0 0 (List.replicate 65 0) [],
    .readMem 0 0 (List.replicate 65 0), .loadContainer 0 0 (List.replicate 65 0) [] true [], .unloadContainer 0 0 (List.replicate 65 0),
    .planAdd 0 0 (List.replicate 65 0) [], .planActivate 0 0 (List.replicate 65 0), .planRemove 0 0 (List.replicate 65 0),
    .gclSet 0 0 (List.replicate 65 0) [], .queuePost 0 0 (List.replicate 65 0), .milestoneRing 0 0 (List.replicate 65 0),
    .modeSet 0 0 (List.replicate 65 0), .faultRead 0 0 (List.replicate 65 0), .faultResume 0 0 (List.replicate 65 0), .hifEvent 8192,
    .triageTimeout 8 1, .damperUpdate 4294967296 1 (List.replicate 19 (0, 0)) (List.replicate 27 1) 1 1 1,
    .damperUpdate 1 1 [] (List.replicate 27 1) 1 1 1, .damperUpdate 1 1 (List.replicate 19 (0, 0)) [] 1 1 1, .powerWindow 1 [27] 1,
    .droopDetect 27, .droopRecover 27, .voltageStep 9 1, .thermalSample [] 1, .emberEnter wfX 0, .powerOn ⟨16, []⟩, .powerOn ⟨1, [256]⟩, .resetN true ⟨16, []⟩, .resetN true ⟨1, [256]⟩,
    .updStart wfX 0 0 true 1 [], .healthy wfX 0, .confirm wfX 0, .recChunk wfX 0 true 0 true true 1 [], .create wfX 0, .loadFw wfX 0 true,
    .partStart wfX 0, .teardown wfX 0, .cycleQuarter wfX 0, .attestationRequest wfX, .attestationDone 8, .fltTake wfX ⟨true, false⟩,
    .fltDone wfX true, .fltKick wfX true, .fltRestart wfX true, .billetEnd 4 (List.replicate 16 0) true, .registerWrite wfX true 1 1 0 {},
    .registerWrite wfM true 256 1 0 {}, .registerWrite wfM true 1 65536 0 {}, .csiSyncChange 4 true, .dramRetrainOverdue 16,
    .causewayNak true 4096]
set_option maxRecDepth 20000 in
theorem wellformed_admits : wfGood.all Instr.wf = true := by decide
set_option maxRecDepth 20000 in
theorem wellformed_refuses : wfBad.all (fun i => !i.wf) = true ∧ ({ code := 0, part := 8 } : Master).wf = false := by decide

end Sys2Proof.Tests
end

section
/-! The clocks, device time and its announcements, and the registers of the tick unit. -/

namespace Sys2Proof.TickLaws

open Sys2Proof Sys2Proof.Machine

/-! ### The clocks -/

/-- An event of the port die runs both clocks on to its time, and changes nothing else (R17, R38). -/
theorem atPort_eq (t : Nat) (s : State) :
    atPort t s = { s with timeP := max s.timeP t, timeC := s.timeC + (t - s.timeP) } := by
  unfold atPort
  split
  · rw [Nat.max_eq_right (by omega)]
  · rw [Nat.max_eq_left (by omega), Nat.sub_eq_zero_of_le (by omega), Nat.add_zero]

/-- An event of the compute die at a time not yet past, likewise. -/
theorem atComp_eq {t : Nat} {s : State} (h : s.timeC ≤ t) :
    atComp t s = { s with timeC := t, timeP := s.timeP + (t - s.timeC) } := by
  unfold atComp
  split
  · rfl
  · obtain rfl : s.timeC = t := by omega
    rw [Nat.sub_self, Nat.add_zero]

theorem atComp_timeC {t : Nat} {s : State} (h : s.timeC ≤ t) : (atComp t s).timeC = t := by rw [atComp_eq h]

@[simp] theorem atComp_tick (t : Nat) (s : State) : (atComp t s).tick = s.tick := by unfold atComp; split <;> rfl
@[simp] theorem atComp_mem (t : Nat) (s : State) : (atComp t s).mem = s.mem := by unfold atComp; split <;> rfl
@[simp] theorem atComp_regs (t : Nat) (s : State) : (atComp t s).regs = s.regs := by unfold atComp; split <;> rfl
@[simp] theorem atComp_flt (t : Nat) (s : State) : (atComp t s).flt = s.flt := by unfold atComp; split <;> rfl
@[simp] theorem atComp_hx (t : Nat) (s : State) : (atComp t s).hx = s.hx := by unfold atComp; split <;> rfl
@[simp] theorem atComp_hif (t : Nat) (s : State) : (atComp t s).hif = s.hif := by unfold atComp; split <;> rfl
@[simp] theorem atComp_sch (t : Nat) (s : State) : (atComp t s).sch = s.sch := by unfold atComp; split <;> rfl
@[simp] theorem atComp_parts (t : Nat) (s : State) : (atComp t s).parts = s.parts := by unfold atComp; split <;> rfl

@[simp] theorem armedOf_atComp (t : Nat) (s : State) (k : Nat) : armedOf (atComp t s) k = armedOf s k := by simp [armedOf]
@[simp] theorem getF_atComp (t : Nat) (s : State) (x : Fld) : getF (atComp t s) x = getF s x := by simp [getF]
@[simp] theorem isSet_atComp (t : Nat) (s : State) (x : Fld) : isSet (atComp t s) x = isSet s x := by simp [isSet]
@[simp] theorem getE_atComp (t : Nat) (s : State) (e : Nat) : getE (atComp t s) e = getE s e := by simp [getE]
@[simp] theorem nextEdge_atComp (t : Nat) (s : State) : nextEdge (atComp t s) = nextEdge s := by simp [nextEdge, periodUs]
@[simp] theorem hasPred_atComp (t : Nat) (s : State) (a : Armed) : hasPred (atComp t s) a = hasPred s a := by
  simp [hasPred, itemAt, planNow]

/-! ### Device time (R380, R381, R521) -/

/-- A value clamped between a bound and its negation lies between them. -/
theorem neg_le_clampI (x : Int) {b : Int} (h : 0 ≤ b) : -b ≤ clampI x (-b) b := by
  unfold clampI
  split
  · exact Int.le_refl _
  · split <;> omega

/-- A slewing Sync cannot move device time below zero: 100 ppm of the time since the last Sync is no more than the time itself. -/
theorem slewed_nonneg (now last : Nat) (offset : Int) :
    0 ≤ (now : Int) + clampI offset (-(((now - last) / 10000 : Nat) : Int)) (((now - last) / 10000 : Nat) : Int) := by
  have hle : (now - last) / 10000 ≤ now := by omega
  have := neg_le_clampI offset (Int.natCast_nonneg ((now - last) / 10000))
  omega

/-- What a Sync does to device time and to the network's account of it (R380). -/
theorem gptpSync_on {s : State} {t : Nat} (offset : Int) (hon : netOn (atPort t s) = true) :
    let u := atPort t s
    let v := gptpSync offset t s
    v.net.syncAt = some v.timeP ∧ v.net.holdover = false ∧
      (u.net.holdover = false → u.net.slew = false → domainFormed u = false → v.timeP = ((u.timeP : Int) + offset).toNat) ∧
      ((u.net.holdover = true ∨ u.net.slew = true ∨ domainFormed u = true) → (v.timeP : Int) = u.timeP +
        clampI offset (-(((u.timeP - u.net.syncAt.getD u.timeP) / 10000 : Nat) : Int)) (((u.timeP - u.net.syncAt.getD u.timeP) / 10000 : Nat) : Int)) ∧
      { v with timeP := u.timeP, net := u.net } = u := by
  simp only [gptpSync, hon, Bool.true_eq_false, if_false]
  refine ⟨rfl, rfl, fun h1 h2 h3 => ?_, fun h => ?_, rfl⟩
  · simp [setNet, h1, h2, h3]
  · have hslow : ((atPort t s).net.holdover || (atPort t s).net.slew || domainFormed (atPort t s)) = true := by
      simpa [or_assoc] using h
    simp only [setNet, hslow, if_true]
    exact Int.toNat_of_nonneg (slewed_nonneg _ _ _)

/-- At a whole second the network's output goes high for 10 µs (R521). -/
theorem ppsPulse_whole_second {s : State} {t : Nat} (hon : netOn s = true) (ht : t % 1000000000 = 0) :
    ppsPulse t s = { atPort t s with pins := { s.pins with ppsEnd := some (t + 10000) } } := by
  simp [ppsPulse, hon, ht, atPort_eq]

theorem ppsPulse_none {s : State} {t : Nat} (h : netOn s = false ∨ t % 1000000000 ≠ 0) : ppsPulse t s = s := by
  rcases h with h | h <;> simp [ppsPulse, h]

/-! ### Announcements (R38, R39, R306) -/

/-- The edge that an enabled standalone device has to announce is `e`, of tick `n`: its first, or the one after an edge that has come. -/
def StandaloneNext (u : State) (first e n : Nat) : Prop :=
  (u.cwy.ann = none ∧ e = first ∧ n = 0) ∨
    ∃ a, u.cwy.ann = some a ∧ a.edge ≤ u.timeP ∧ e = a.edge + 1000 * periodUs u ∧ n = a.tick + 1

theorem StandaloneNext.nextAnnounce_eq {u : State} {first e n : Nat} (h : StandaloneNext u first e n)
    (hm : getF u F.TICK_CTL_MODE = 0) : nextAnnounce u first = some (e, n) := by
  rcases h with ⟨ha, rfl, rfl⟩ | ⟨a, ha, -, rfl, rfl⟩ <;> simp [nextAnnounce, hm, ha]

/-- No announced edge is still to come. -/
theorem StandaloneNext.none_ahead {u : State} {first e n : Nat} (h : StandaloneNext u first e n) :
    u.cwy.ann.any (fun a => decide (u.timeP < a.edge)) = false := by
  rcases h with ⟨ha, -, -⟩ | ⟨a, ha, hle, -, -⟩
  · simp [ha]
  · simpa [ha] using hle

/-- An enabled standalone device announces its next edge if that is at least 10 µs ahead, and otherwise does nothing. -/
theorem announceSend_standalone {s : State} {t first e n : Nat} (hup : cwyUp (atPort t s) = true)
    (hen : isSet (atPort t s) F.TICK_CTL_ENABLE = true) (hm : getF (atPort t s) F.TICK_CTL_MODE = 0)
    (h : StandaloneNext (atPort t s) first e n) :
    announceSend t first s = if e < (atPort t s).timeP + 10000 then atPort t s
      else tickTriggers { atPort t s with cwy := { (atPort t s).cwy with ann := some { edge := e, tick := n } } } e n := by
  have href : mepRefused (atPort t s) = false := by simp [mepRefused, hm]
  simp [announceSend, hup, hen, href, h.none_ahead, h.nextAnnounce_eq hm]

/-- A tick trigger of the tick is set for its offset from the edge (R306). -/
theorem tickTriggers_sched {s : State} {e n k : Nat} (hk : k < 16) (hen : isSet s (F.TRG_CFG_EN k) = true)
    (hm : getF s (F.TRG_CFG_MODE k) = 1) (hp : n % getF s (F.TRG_CFG_EVERY k) = getF s (F.TRG_OFF_PHASE k)) :
    (nth (tickTriggers s e n).cam.trig k {}).sched = (nth s.cam.trig k {}).sched ++ [e + 8 * getF s (F.TRG_OFF_OFFSET k)] := by
  have hr : (List.range 16)[k]? = some k := by simp [hk]
  simp [tickTriggers, nth, hr, hen, hm, hp]

/-- Settles O39, a clause for each command: a slewing step never takes device time below zero, and no announced edge is ahead. -/
theorem timeIsKeptAndAnnounced : Obligations.TimeIsKeptAndAnnounced := by
  unfold Obligations.TimeIsKeptAndAnnounced
  refine ⟨?sync, ?holdover, ?gates, ?pps, ?announce⟩
  case sync =>
    rintro s _ offset t rfl hon
    exact ⟨gptpSync offset t s, rfl, gptpSync_on offset hon⟩
  case holdover =>
    intro s hon hsync
    show Host.Outcome.next (syncTimeout s) = _
    cases hh : s.net.holdover <;> simp [syncTimeout, hon, hsync, hh, netRaise, netBlock]
  case gates =>
    intro s port own hon hp
    have hp' : ¬ 6 ≤ port := by omega
    refine ⟨fun hsrc => ?_, fun l hsrc hl => ?_⟩
    · show Host.Outcome.next (gclStart port own s) = _
      simp [gclStart, hon, hp', hsrc]
    · show Host.Outcome.next (gclStart port own s) = _
      simp [gclStart, hon, hp', hsrc, hl]
  case pps =>
    intro s t
    refine ⟨fun hon ht => ⟨_, congrArg Host.Outcome.next (ppsPulse_whole_second hon ht), rfl, ?_, ?_⟩,
      fun h => congrArg Host.Outcome.next (ppsPulse_none h)⟩ <;> rw [atPort_eq]
  case announce =>
    rintro s _ t first e n rfl hup hen hm h
    have hsend := announceSend_standalone hup hen hm h
    refine ⟨fun hfar => ⟨_, congrArg Host.Outcome.next (hsend.trans (if_neg (by omega))), rfl, ?_, rfl⟩,
      fun hnear => congrArg Host.Outcome.next (hsend.trans (if_pos hnear))⟩
    exact fun k hk hk1 hk2 hk3 => tickTriggers_sched hk hk1 hk2 hk3

/-! ### TICK_CTL and the registers that latch (R39, R40, R97, R505) -/

/-- The period that a value of TICK_CTL asks for: the nearer of the bounds where it lies outside them. -/
def ctlPeriod (v : Nat) : Nat := min (max (bitsOf v 8 18) 1000) 200000

/-- The fields of TICK_CTL as a value gives them. -/
def withTickCtl (v : Nat) (s : State) : State :=
  setF (setF (setF (setF s F.TICK_CTL_MODE (bitsOf v 1 2)) F.TICK_CTL_PLAN_SRC (bitsOf v 3 1)) F.TICK_CTL_PERIOD_US (ctlPeriod v))
    F.TICK_CTL_ENABLE (bitsOf v 0 1)

theorem bitsOf_lt (v lo n : Nat) : bitsOf v lo n < 2 ^ n := Nat.mod_lt _ (Nat.two_pow_pos n)

theorem bitsOf_one (v i : Nat) : bitsOf v i 1 = if bitOf v i then 1 else 0 := by
  rcases Nat.mod_two_eq_zero_or_one (v / 2 ^ i) with h | h <;> simp [bitsOf, bitOf, h]

/-- A period within its bounds fits its field. -/
theorem ctlPeriod_mod (v : Nat) : ctlPeriod v % 2 ^ F.TICK_CTL_PERIOD_US.width = ctlPeriod v :=
  Nat.mod_eq_of_lt (Nat.lt_of_le_of_lt (Nat.min_le_right _ _) (by decide))

theorem getF_withTickCtl_mode (v : Nat) (s : State) : getF (withTickCtl v s) F.TICK_CTL_MODE = bitsOf v 1 2 := by
  rw [withTickCtl, getF_setF_ne _ _ _ _ (by decide), getF_setF_ne _ _ _ _ (by decide), getF_setF_ne _ _ _ _ (by decide),
    getF_setF_same]
  exact Nat.mod_eq_of_lt (bitsOf_lt v 1 2)

theorem getF_withTickCtl_planSrc (v : Nat) (s : State) : getF (withTickCtl v s) F.TICK_CTL_PLAN_SRC = bitsOf v 3 1 := by
  rw [withTickCtl, getF_setF_ne _ _ _ _ (by decide), getF_setF_ne _ _ _ _ (by decide), getF_setF_same]
  exact Nat.mod_eq_of_lt (bitsOf_lt v 3 1)

theorem getF_withTickCtl_period (v : Nat) (s : State) : getF (withTickCtl v s) F.TICK_CTL_PERIOD_US = ctlPeriod v := by
  rw [withTickCtl, getF_setF_ne _ _ _ _ (by decide), getF_setF_same, ctlPeriod_mod]

theorem isSet_withTickCtl_enable (v : Nat) (s : State) : isSet (withTickCtl v s) F.TICK_CTL_ENABLE = bitOf v 0 := by
  have h : bitsOf v 0 1 % 2 ^ F.TICK_CTL_ENABLE.width = bitsOf v 0 1 := Nat.mod_eq_of_lt (bitsOf_lt v 0 1)
  rw [isSet, withTickCtl, getF_setF_same, h, bitsOf_one]
  cases bitOf v 0 <;> rfl

theorem withTickCtl_frame (v : Nat) (s : State) : { withTickCtl v s with regs := s.regs } = s := by simp only [withTickCtl, setF]

/-- A write that the gate passes and that names a mode, on a stopped tick unit, stores its fields; setting ENABLE switches edge
generation on. -/
theorem tickCtlWrite_stopped {s : State} {m : Master} {v : Nat} (hg : regGate s false 16 0x10 m v = .pass)
    (hoff : isSet s F.TICK_CTL_ENABLE = false) (hm : bitsOf v 1 2 ≠ 3) :
    tickCtlWrite m v s = if bitOf v 0 then tickOn (withTickCtl v s) else withTickCtl v s := by
  simp [tickCtlWrite, gated, hg, hoff, hm, ignoredChange, wrField, withTickCtl, ctlPeriod]

/-- A write that the gate passes and that would change the period of a running tick unit is an ignored configuration write, and
stores ENABLE alone. -/
theorem tickCtlWrite_running {s : State} {m : Master} {v : Nat} (hg : regGate s false 16 0x10 m v = .pass)
    (hon : isSet s F.TICK_CTL_ENABLE = true) (hp : ctlPeriod v ≠ getF s F.TICK_CTL_PERIOD_US) :
    tickCtlWrite m v s = setF (cfgIgnored s false 16 0x10 m v) F.TICK_CTL_ENABLE (bitsOf v 0 1) := by
  have hbad : ignoredChange s false F.TICK_CTL_PERIOD_US (ctlPeriod v) = true := by
    rw [ignoredChange, ctlPeriod_mod]
    simpa using hp.symm
  unfold ctlPeriod at hbad
  simp [tickCtlWrite, gated, hg, hbad, hon, wrField]

/-- A field outside the log's own register reads as before an entry of the register-event log. -/
theorem getF_rlogAdd (s : State) (addr : Nat) (m : Master) (reason data : Nat) (x : Fld) (hw : x.key ≠ F.RLOG_STAT_WRAPPED.key)
    (hc : x.key ≠ F.RLOG_STAT_COUNT.key) : getF (rlogAdd s addr m reason data) x = getF s x := by
  unfold rlogAdd
  refine (getF_setF_ne _ _ _ _ hc).trans ?_
  show getF (ite _ _ _) x = _
  split
  · exact getF_setF_ne _ _ _ _ hw
  · rfl

theorem rlogAdd_tick (s : State) (addr : Nat) (m : Master) (reason data : Nat) : (rlogAdd s addr m reason data).tick = s.tick := by
  unfold rlogAdd
  simp only [bump_tick]
  split <;> rfl

/-- The tick unit has no CFG_IGNORED flag but the one of its EVT register (R504). -/
theorem cfgIgnored_tickBlock (s : State) (o : Nat) (m : Master) (v : Nat) : cfgIgnored s false 16 o m v =
    rlogAdd (setF s (F.BLK_EVT_CFG_IGNORED false 16) 1) (blkBase false 16 + o) m 1 v := rfl

/-- Switched on in standalone mode, the tick unit starts with no edge announced and nothing running (R39). -/
theorem tickOn_standalone {s : State} (hm : getF s F.TICK_CTL_MODE = 0) : (tickOn s).regs = (setF s F.MEP_STAT_STATE 0).regs ∧
    (tickOn s).tick.announced = none ∧ (tickOn s).tick.running = false ∧ (tickOn s).mem = s.mem := by
  simp [tickOn, hm, setMep, setF]

/-- A read that the gate passes gives its value to the master. -/
theorem gatedRead_pass {s : State} {p : Bool} {b o : Nat} {m : Master} (h : accGate s p b o m false 0 = .pass)
    (act : State → State × Nat) : gatedRead s p b o m act = { (act s).1 with rd := leBytes 4 (act s).2, rdErr := false } := by
  simp [gatedRead, readVia, h]

/-- Settles O9: the fields of TICK_CTL lie apart from each other and from the registers that the rest of the write touches. -/
theorem tickRegistersAct : Obligations.TickRegistersAct := by
  unfold Obligations.TickRegistersAct
  refine ⟨⟨?stopped, ?started, ?running⟩, ?tickNum, ?issued, ?useful, ?stall⟩
  case stopped =>
    intro s m v hg hoff hb hm
    have hw := tickCtlWrite_stopped hg hoff hm
    rw [hb, if_neg Bool.false_ne_true] at hw
    exact ⟨_, congrArg Host.Outcome.next hw, getF_withTickCtl_mode _ _, getF_withTickCtl_planSrc _ _, getF_withTickCtl_period _ _,
      (isSet_withTickCtl_enable _ _).trans hb, withTickCtl_frame _ _⟩
  case started =>
    intro s m v hg hoff hb hm
    have hw := tickCtlWrite_stopped hg hoff (by omega)
    rw [hb, if_pos rfl] at hw
    have hmode : getF (withTickCtl v.toNat s) F.TICK_CTL_MODE = 0 := (getF_withTickCtl_mode _ _).trans hm
    obtain ⟨hregs, hann, hrun, hmem⟩ := tickOn_standalone hmode
    have hfield : ∀ x : Fld, x.key ≠ F.MEP_STAT_STATE.key →
        getF (tickOn (withTickCtl v.toNat s)) x = getF (withTickCtl v.toNat s) x := by
      intro x hx
      rw [getF, hregs]
      exact getF_setF_ne _ _ _ _ hx
    refine ⟨_, congrArg Host.Outcome.next hw, ?_, (hfield _ (by decide)).trans hmode,
      (hfield _ (by decide)).trans (getF_withTickCtl_period _ _), hann, hrun, hmem⟩
    show (getF (tickOn _) _ == 1) = true
    rw [hfield _ (by decide)]
    exact (isSet_withTickCtl_enable _ _).trans hb
  case running =>
    intro s m v hg hon _ _ _ hp
    refine ⟨_, congrArg Host.Outcome.next (tickCtlWrite_running hg hon hp), ?_, ?_, ?_⟩ <;> rw [cfgIgnored_tickBlock]
    · rw [getF_setF_ne _ _ _ _ (by decide), getF_rlogAdd _ _ _ _ _ _ (by decide) (by decide), getF_setF_ne _ _ _ _ (by decide)]
    · rw [isSet, getF_setF_ne _ _ _ _ (by decide), getF_rlogAdd _ _ _ _ _ _ (by decide) (by decide), getF_setF_same]
      rfl
    · rw [setF_tick, rlogAdd_tick, setF_tick]
  case tickNum => exact fun s m h => congrArg Host.Outcome.next (gatedRead_pass h tickLoRead)
  case issued => exact fun s m h => congrArg Host.Outcome.next (gatedRead_pass h (utilLoRead 0))
  case useful => exact fun s m h => congrArg Host.Outcome.next (gatedRead_pass h (utilLoRead 1))
  case stall => exact fun s m h => congrArg Host.Outcome.next (gatedRead_pass h (utilLoRead 2))

end Sys2Proof.TickLaws
end

section
/-! The items of a tick: when one starts and what its engine then holds, how it ends, and what a miss does. -/

namespace Sys2Proof.TickLaws

open Sys2Proof Sys2Proof.Machine

/-! ### The start of an item (R41, R44, R47, R187) -/

/-- Nothing but the time keeps an armed item of Hexarel engine `e` from its start: neither an earlier item, an elastic step or its
partition, nor the engine itself. -/
structure Startable (s : State) (a : Armed) (e : Nat) : Prop where
  notStarted : a.started = false
  chain : chainFree s a = true
  step : stepHolds s a = false
  safe : s.flt.safe = false
  part : partBlocked s a.item.part = false
  engine : codeEngine a.item.engine = some e
  enabled : engEnable s e = true
  idle : (getE s e).st = .idle
  level : isSet s (F.HXR_STAT_LEVEL_BAD e) = false
  preset : (a.preset.map presetBad).getD false = false

/-- The running of the clocks takes none of that away. -/
theorem Startable.atComp {s : State} {a : Armed} {e : Nat} (h : Startable s a e) (t : Nat) : Startable (atComp t s) a e where
  notStarted := h.notStarted
  chain := by simpa [chainFree] using h.chain
  step := by simpa [stepHolds] using h.step
  safe := by simpa using h.safe
  part := by simpa [partBlocked, getP] using h.part
  engine := h.engine
  enabled := by simpa [engEnable] using h.enabled
  idle := by simpa using h.idle
  level := by simpa using h.level
  preset := h.preset

/-- The engine accepts the start. -/
theorem Startable.startRefusal_none {s : State} {a : Armed} {e : Nat} (h : Startable s a e) :
    startRefusal s e a.preset false = none := by
  simp [startRefusal, h.level, h.enabled, h.idle, h.preset]

/-- The state in which an item's engine has begun, its first word staged for `w`. -/
def itemBegun (s : State) (a : Armed) (e w : Nat) : State :=
  beginEngine (markStarted s a.idx) e a.item.arg a.item.part (some (a.idx, a.item.id)) a.preset w

/-- An item that can start, at a time its offset has reached, begins its engine. -/
theorem tryStart_startable {s : State} {a : Armed} {e k : Nat} (w : Nat) (h : Startable s a e) (ha : armedOf s k = some a)
    (ht : a.start ≤ s.timeC) : tryStart s k w = itemBegun s a e w := by
  have hr : startRefusal (markStarted s a.idx) e a.preset false = none := h.startRefusal_none
  simp [tryStart, ha, h.notStarted, ht, h.chain, h.step, h.safe, beginItem, h.part, h.engine, startEngine, hr, itemBegun]

/-- The engine of an item that has begun: it runs from the item's address, for the item's partition, and remembers the item. -/
theorem getE_itemBegun {s : State} {e : Nat} (a : Armed) (w : Nat) (he : e < s.hx.length) : getE (itemBegun s a e w) e =
    { freshEngine a.preset with st := .run, pc := a.item.arg, part := a.item.part, item := some (a.idx, a.item.id), staged := some w } := by
  unfold itemBegun beginEngine
  exact getE_setE_same _ _ _ (by split <;> exact he)

theorem getE_itemBegun_ne {s : State} {e f : Nat} (a : Armed) (w : Nat) (hf : f ≠ e) : getE (itemBegun s a e w) f = getE s f := by
  unfold itemBegun beginEngine
  refine (getE_setE_ne _ _ _ _ hf).trans ?_
  split <;> rfl

/-- Outside its engine, the armed items and the drain's chain nothing changes. -/
theorem itemBegun_frame (s : State) (a : Armed) (e w : Nat) :
    { itemBegun s a e w with hx := s.hx, tick := s.tick, drn := s.drn } = s := by
  unfold itemBegun beginEngine
  split <;> rfl

/-- What an item that begins at compute-die time `t` gives its engine, and what it leaves. -/
theorem itemBegun_atComp {s : State} {a : Armed} {e k t : Nat} (w : Nat) (hk : a.idx = k) (hc : s.timeC ≤ t) (he : e < s.hx.length) :
    let u := itemBegun (atComp t s) a e w
    (getE u e).st = .run ∧ (getE u e).pc = a.item.arg ∧ (getE u e).staged = some w ∧ (getE u e).item = some (k, a.item.id) ∧
      (getE u e).part = a.item.part ∧ u.timeC = t ∧ u.mem = s.mem ∧ u.regs = s.regs ∧ u.flt = s.flt ∧
      (∀ f, f ≠ e → getE u f = getE s f) := by
  have hself := getE_itemBegun (s := atComp t s) (e := e) a w (by simpa using he)
  have hframe := itemBegun_frame (atComp t s) a e w
  refine ⟨?_, ?_, ?_, ?_, ?_, (congrArg State.timeC hframe :).trans (atComp_timeC hc),
    (congrArg State.mem hframe :).trans (atComp_mem t s), (congrArg State.regs hframe :).trans (atComp_regs t s),
    (congrArg State.flt hframe :).trans (atComp_flt t s), fun f hf => (getE_itemBegun_ne a w hf).trans (getE_atComp t s f)⟩ <;>
    rw [hself]
  rw [hk]

/-- ITEM_OFFSET_START of an item that waited for none, and ITEM_CHAINED_START of one that waited, begin the engine. -/
theorem offsetStart_startable {s : State} {a : Armed} {e k t : Nat} (h : Startable s a e) (ha : armedOf s k = some a)
    (hc : s.timeC ≤ t) (ht : a.start ≤ t) (hp : hasPred s a = false) :
    offsetStart k t s = itemBegun (atComp t s) a e (a.start + 160) := by
  have hk : armedOf (atComp t s) k = some a := by simpa using ha
  simp only [offsetStart, hk, hasPred_atComp, hp, Bool.false_eq_true, if_false]
  exact tryStart_startable _ (h.atComp t) hk (by rwa [atComp_timeC hc])

theorem chainedStart_startable {s : State} {a : Armed} {e k t : Nat} (h : Startable s a e) (ha : armedOf s k = some a)
    (hc : s.timeC ≤ t) (ht : a.start ≤ t) (hp : hasPred s a = true) :
    chainedStart k t s = itemBegun (atComp t s) a e (t + 200) := by
  have hk : armedOf (atComp t s) k = some a := by simpa using ha
  simp only [chainedStart, hk, hasPred_atComp, hp, if_true, atComp_timeC hc]
  exact tryStart_startable _ (h.atComp t) hk (by rwa [atComp_timeC hc])

/-- A damaged start message of an item that is due cancels it (R482). -/
theorem startDamaged_due {s : State} {a : Armed} {k t : Nat} (ha : armedOf s k = some a) (hs : a.started = false)
    (hc : s.timeC ≤ t) (ht : a.start ≤ t) : startDamaged k t s =
      cancelItem (raise (atComp t s) false 0x0104 2 (some a.item.part) (Config.sourceBlock 0x0104) a.item.id []) k := by
  simp [startDamaged, ha, hs, atComp_timeC hc, ht]

/-! ### The first word (R77, R150, R190) -/

/-- The staged word of an engine other than the array sequencer issues at once. -/
theorem stagedIssue_other {s : State} {e w : Nat} (hs : (getE s e).staged = some w) (hpc : (getE s e).pc < storeWords e)
    (he : e ≠ 0) : stagedIssue e s = setE s e { getE s e with staged := none } := by
  simp [stagedIssue, hs, Nat.not_le.mpr hpc, he]

/-- The array sequencer's, for another partition than before, once every accumulator slot is free, with the array path cleared. -/
theorem stagedIssue_array {s : State} {w : Nat} (hs : (getE s 0).staged = some w) (hpc : (getE s 0).pc < storeWords 0)
    (hp : s.arr.prevPart ≠ some (getE s 0).part) : stagedIssue 0 s =
      if s.arr.slots.all (fun x => x.st == .free) then
        clearArrayPath (setE s 0 { getE s 0 with staged := none }) (getE s 0).part
      else s := by
  simp [stagedIssue, hs, Nat.not_le.mpr hpc, hp]

/-! ### The end of an item (R46, R54, R59, R374) -/

/-- A fault raised leaves the tick unit and the compute die's time. -/
theorem raise_tick (s : State) (port : Bool) (code cls : Nat) (part : Option Nat) (block item : Nat) (detail : List Nat) :
    (raise s port code cls part block item detail).tick = s.tick :=
  (congrArg State.tick (raise_same s port code cls part block item detail) :)

theorem raise_timeC (s : State) (port : Bool) (code cls : Nat) (part : Option Nat) (block item : Nat) (detail : List Nat) :
    (raise s port code cls part block item detail).timeC = s.timeC :=
  (congrArg State.timeC (raise_same s port code cls part block item detail) :)

/-- Two states agree about the tick unit and the compute die's time. -/
def SameTick (s u : State) : Prop := u.tick = s.tick ∧ u.timeC = s.timeC

theorem forceRefresh_sameTick (s : State) (ch : Nat) : SameTick s (forceRefresh s ch) := by
  unfold forceRefresh
  dsimp only
  split
  · exact ⟨raise_tick .., raise_timeC ..⟩
  · exact ⟨rfl, rfl⟩

/-- The refreshes that the end of a retraining step forces leave the tick unit. -/
theorem retrainEnd_sameTick (s : State) (mask : Nat) : SameTick s (retrainEnd s mask) := by
  refine List.foldlRecOn (motive := SameTick s) _ _ ⟨rfl, rfl⟩ fun u hu b _ => ?_
  have hforced : SameTick s ((List.range (getRefr u b.1 b.2 - 8).toNat).foldl (fun v _ => forceRefresh v b.1)
      (setRefr u b.1 b.2 (min 8 (getRefr u b.1 b.2)))) := by
    refine List.foldlRecOn (motive := SameTick s) _ _ hu fun v hv _ _ => ?_
    obtain ⟨h1, h2⟩ := forceRefresh_sameTick v b.1
    exact ⟨h1.trans hv.1, h2.trans hv.2⟩
  split
  · dsimp only
    split <;> exact hforced
  · exact hu

/-- An item that has not missed ends: it leaves the armed items, and the least slack of the tick takes its slack. -/
theorem endItem_onTime {s : State} {a : Armed} (hm : a.missed = false) :
    let v := endItem s a
    v.tick.armed = s.tick.armed.filter (fun b => b.idx != a.idx) ∧
      v.tick.log.minSlack = min s.tick.log.minSlack ((a.deadline : Int) - s.timeC) ∧ v.tick.log.misses = s.tick.log.misses ∧
      v.tick.log.entries = s.tick.log.entries ∧ v.timeC = s.timeC ∧
      (a.item.engine ≠ 0x0C → { v with tick := s.tick } = s) := by
  obtain ⟨htick, htime⟩ : SameTick s (if a.item.engine = 0x0C then retrainEnd s a.item.arg else s) := by
    split
    · exact retrainEnd_sameTick s a.item.arg
    · exact ⟨rfl, rfl⟩
  simp only [endItem, hm, Bool.false_eq_true, if_false, disarm, noteSlack, htick, htime, true_and]
  exact fun he => by rw [if_neg he]

/-- An end that is reported no later than the deadline comes before the comparator. -/
theorem itemEnd_onTime {s : State} {a : Armed} {k t : Nat} (ha : armedOf s k = some a) (hk : a.idx = k) (hc : s.timeC ≤ t) (ht : t ≤ a.deadline) (hr : k ∈ s.tick.reports) : itemEnd k t s = endItem (atComp t s) a := by
  have hended : ended (atComp t s) a = true := by simp [ended, hk, hr]
  have hquiet : fires (atComp t s) a = false := by simp [fires, hk, hr, atComp_timeC hc, ht]
  simp [itemEnd, ha, hended, hquiet]

/-! ### A miss (R54 to R57, R183) -/

/-- The comparator of an item that is no quiet window fires once its deadline has passed. -/
theorem deadlineMiss_late {s : State} {a : Armed} {k t : Nat} (ha : armedOf s k = some a) (hm : a.missed = false)
    (hc : s.timeC ≤ t) (ht : a.deadline < t) (he : a.item.engine ≠ 0x0D) : deadlineMiss k t s = missItem (atComp t s) a := by
  have hfires : fires (atComp t s) a = true := by simp [fires, hm, he, atComp_timeC hc, ht]
  simp [deadlineMiss, ha, hfires]

/-- The state of a miss of `late` ns before anything happens to the item: the fault is raised and TICK_STAT.MISS is set. -/
def missNoted (s : State) (a : Armed) (late : Nat) : State :=
  setF (raise s false 0x0103 2 (some a.item.part) 16 a.item.id [late]) F.TICK_STAT_MISS 1

/-- The state in which item `idx` is marked as missed, its engine waiting on queue `q`. -/
def markMissed (s : State) (idx q : Nat) : State :=
  { s with tick := { s.tick with armed := s.tick.armed.map (fun b => if b.idx = idx then { b with missed := true, lateQ := q } else b) } }

/-- Every armed item of that index is then marked. -/
theorem markMissed_armed {s : State} {idx q : Nat} {b : Armed} (hb : b ∈ (markMissed s idx q).tick.armed) (hi : b.idx = idx) :
    b.missed = true ∧ b.lateQ = q := by
  obtain ⟨c, -, rfl⟩ := List.mem_map.mp hb
  by_cases hc : c.idx = idx
  · simp [hc]
  · simp [hc] at hi

/-- What becomes of a missed item: with ON_MISS 1 it is marked and runs on, with ON_MISS 0 it is stopped and logged. -/
theorem missItem_runsOn {s : State} {a : Armed} (hf : a.item.finish = true) : missItem s a =
    runFifos (cancelDeps (markMissed (missNoted s a (s.timeC - a.deadline)) a.idx (lateQueue s a)) a.idx) := by
  simp [missItem, hf, missNoted, markMissed]

theorem missItem_stops {s : State} {a : Armed} (hf : a.item.finish = false) : missItem s a =
    runFifos (cancelDeps (disarm (logOutcome (stopItem (missNoted s a (s.timeC - a.deadline)) a) a.item 1 0xFFFFFFFF (lateQueue s a)) a.idx)
      a.idx) := by
  simp [missItem, hf, missNoted]

/-- An item that runs on is stopped from 1 µs before the next edge (R55). -/
theorem runonLimit_reached {s : State} {a : Armed} {k t : Nat} (ha : armedOf s k = some a) (hm : a.missed = true)
    (hc : s.timeC ≤ t) (ht : nextEdge s ≤ t + 1000) : runonLimit k t s = stopRunOn (atComp t s) a := by
  simp [runonLimit, ha, hm, atComp_timeC hc, ht]

/-- The clearing of commit bits leaves the tick unit and the registers. -/
theorem clearCommits_frame (s : State) (l : List Nat) :
    (l.foldl clearCommit s).tick = s.tick ∧ (l.foldl clearCommit s).regs = s.regs := by
  refine List.foldlRecOn (motive := fun u => u.tick = s.tick ∧ u.regs = s.regs) l clearCommit ⟨rfl, rfl⟩ fun u hu d _ => ?_
  unfold clearCommit
  split <;> exact hu

/-- An outcome is one entry more of the log, one miss more, and the item's outputs to be uncommitted (R57, R59). -/
theorem logOutcome_log (s : State) (it : PlanItem) (o l q : Nat) : (logOutcome s it o l q).tick.log =
    { s.tick.log with
      entries := s.tick.log.entries ++ [{ id := it.id, outcome := o, engine := it.engine, late := l, queue := q, part := it.part }]
      misses := s.tick.log.misses + 1
      uncommit := s.tick.log.uncommit ++ outsOf s it } := by
  obtain ⟨htick, hregs⟩ := clearCommits_frame s (outsOf s it)
  have houts : outsOf ((outsOf s it).foldl clearCommit s) it = outsOf s it := by
    simp only [outsOf, planNow, getF] at htick hregs ⊢
    rw [htick, hregs]
  simp only [logOutcome, houts]

/-- Settles O10: a start passes each check of `tryStart` and begins the engine; an end that is no later than its deadline finds the
comparator quiet, and a miss is `missItem` at the present time. -/
theorem itemsStartAndEnd : Obligations.ItemsStartAndEnd := by
  unfold Obligations.ItemsStartAndEnd
  refine ⟨⟨?offset, ?chained, ?word, ?arrayFree, ?arrayBusy, ?startParity, ?wordParity⟩,
    ?onTime, ?stopped, ?runsOn, ?limit, ?logged⟩
  case offset =>
    intro s k t e a ha hk hs hc ht hp hchain hstep hsafe hpart heng hen hidle hlevel hpre he
    have hgo := offsetStart_startable ⟨hs, hchain, hstep, hsafe, hpart, heng, hen, hidle, hlevel, hpre⟩ ha hc ht hp
    exact ⟨_, congrArg Host.Outcome.next hgo, itemBegun_atComp _ hk hc he⟩
  case chained =>
    intro s k t e a ha hk hs hc ht hp hchain hstep hsafe hpart heng hen hidle hlevel hpre he
    have hgo := chainedStart_startable ⟨hs, hchain, hstep, hsafe, hpart, heng, hen, hidle, hlevel, hpre⟩ ha hc ht hp
    obtain ⟨hst, hpc, hstaged, hitem, -, -, hmem, hregs, -, -⟩ := itemBegun_atComp (t + 200) hk hc he
    exact ⟨_, congrArg Host.Outcome.next hgo, hst, hpc, hstaged, hitem, hmem, hregs⟩
  case word => exact fun s e w hs hpc he => congrArg Host.Outcome.next (stagedIssue_other hs hpc he)
  case arrayFree =>
    intro s w hs hpc hp hfree
    exact congrArg Host.Outcome.next ((stagedIssue_array hs hpc hp).trans (if_pos (by simpa using hfree)))
  case arrayBusy =>
    intro s w hs hpc hp hbusy
    exact congrArg Host.Outcome.next ((stagedIssue_array hs hpc hp).trans (if_neg (by simpa using hbusy)))
  case startParity => exact fun s k t a ha hs hc ht => congrArg Host.Outcome.next (startDamaged_due ha hs hc ht)
  case wordParity =>
    intro s e w hs
    show Host.Outcome.next (wordDamaged e s) = _
    simp [wordDamaged, hs]
  case onTime =>
    intro s k t a ha hk hm hc ht hr
    obtain ⟨harmed, hslack, hmiss, hent, htime, hrest⟩ := endItem_onTime (s := atComp t s) hm
    rw [hk, atComp_tick] at harmed
    rw [atComp_tick, atComp_timeC hc] at hslack
    rw [atComp_tick] at hmiss hent
    refine ⟨_, congrArg Host.Outcome.next (itemEnd_onTime ha hk hc ht hr), harmed, hslack, hmiss, hent,
      htime.trans (atComp_timeC hc), fun he => ?_⟩
    exact ⟨(congrArg State.mem (hrest he) :).trans (atComp_mem t s), (congrArg State.regs (hrest he) :).trans (atComp_regs t s),
      (congrArg State.flt (hrest he) :).trans (atComp_flt t s), (congrArg State.hx (hrest he) :).trans (atComp_hx t s)⟩
  case stopped =>
    intro s k t a ha hk hm hc ht he hf
    have hmiss := (deadlineMiss_late ha hm hc ht he).trans (missItem_stops hf)
    rw [atComp_timeC hc, hk] at hmiss
    exact congrArg Host.Outcome.next hmiss
  case runsOn =>
    intro s k t a ha hk hm hc ht he hf
    have hmiss := (deadlineMiss_late ha hm hc ht he).trans (missItem_runsOn hf)
    rw [atComp_timeC hc, hk] at hmiss
    exact ⟨_, congrArg Host.Outcome.next hmiss, fun b hb hi => markMissed_armed hb hi, rfl⟩
  case limit =>
    intro s k t a ha hk hm hc ht
    have hstop := runonLimit_reached ha hm hc ht
    rw [stopRunOn, hk] at hstop
    exact congrArg Host.Outcome.next hstop
  case logged =>
    intro s it o l q
    rw [logOutcome_log]
    exact ⟨rfl, rfl, rfl⟩

end Sys2Proof.TickLaws
end

section
/-! What the matrix array takes in and gives out: loads into the shadow registers, rows of FILLs, and results through the checks of their
tile into a slot. -/

namespace Sys2Proof.ArrayLaws

open Sys2Proof Sys2Proof.Machine

/-! ### Slots -/

/-- A slot reads as it was put. -/
theorem getSlot_setSlot_same (s : State) (i : Nat) (x : Slot) (h : i < s.arr.slots.length) : getSlot (setSlot s i x) i = x := by
  simp [getSlot, setSlot, nth, h]

theorem getSlot_setSlot_ne (s : State) (i j : Nat) (x : Slot) (h : j ≠ i) : getSlot (setSlot s i x) j = getSlot s j := by
  simp [getSlot, setSlot, nth, Ne.symm h]

@[simp] theorem setSlot_slots_length (s : State) (i : Nat) (x : Slot) : (setSlot s i x).arr.slots.length = s.arr.slots.length :=
  List.length_set

/-! ### Loads and fills (R202, R206, R222) -/

/-- A load whose rows no FILL has yet to write is complete, with the elements that stand in tile memory 1. -/
theorem loadComplete_ready {s : State} {o : ArrOp} {l : ShadowLoad} (ho : s.arr.op = some o) (hl : s.arr.shadow = some l)
    (hset : l.set = none) (hrows : ∀ i, i < setRows o.fmtN l.k l.n → fillPending s 1 (l.trow + i) = false) :
    loadComplete s = { s with arr := { s.arr with
      shadow := some { l with set := some (StatSet.mk l.k l.n l.trow
        (elemsOf o.fmtN (memRead s.mem (tileAddr 1 + 512 * l.trow) (512 * setRows o.fmtN l.k l.n)) (l.k * l.n)) o.fmtN
        ((physCols s).take l.n)) } } } := by
  have hall : (List.range (setRows o.fmtN l.k l.n)).all (fun i => !fillPending s 1 (l.trow + i)) = true := by
    simpa using hrows
  simp only [loadComplete, ho, hl, hset, hall, Option.isNone_none, and_self, if_true]

/-- A search among FILLs for the next row to a tile memory, with one pending. -/
theorem find_pendingFill {s : State} {f : FillReq} (hf : s.arr.fills = [f]) (hd : f.done < f.rows) :
    s.arr.fills.find? (fun g => g.tgt == f.tgt && decide (g.done < g.rows)) = some f := by
  simp [hf, hd]

/-- The cycles that a load waited for that row count as held. -/
theorem loadWaited_eq {s : State} {f : FillReq} (n : Nat) (hf : s.arr.fills = [f]) (hd : f.done < f.rows) :
    loadWaited ⟨f.tgt, n⟩ s = { s with arr := { s.arr with
      stall := s.arr.stall + (if f.tgt = 1 ∧ loadWaits s (f.trow + f.done) = true then n else 0) } } := by
  simp only [loadWaited, find_pendingFill hf hd]
  split <;> rfl

/-- A check that answers anything but that the access passes must not strike, and the checks after it must pass. -/
theorem ite_eq_pass {c : Prop} [Decidable c] {x b : Bus} (hx : x ≠ .pass) : (if c then x else b) = .pass ↔ ¬ c ∧ b = .pass := by
  by_cases hc : c
  · rw [if_pos hc]
    exact ⟨fun h => absurd h hx, fun h => absurd hc h.1⟩
  · rw [if_neg hc]
    exact ⟨fun h => ⟨hc, h⟩, And.right⟩

theorem ite_refused_eq_pass {c : Prop} [Decidable c] {t : State} {y : Why} {b : Bus} :
    (if c then .refused t y else b) = Bus.pass ↔ ¬ c ∧ b = .pass := ite_eq_pass nofun

theorem ite_silent_eq_pass {c : Prop} [Decidable c] {b : Bus} :
    (if c then .silent else b) = Bus.pass ↔ ¬ c ∧ b = .pass := ite_eq_pass nofun

/-- What lets a read of Map Store pass (R29, R131, R136, R466). -/
theorem busGate_mapStore_pass_iff {s : State} {m : Master} {port : Port} {a len : Nat} (hr : region a = .mapStore) :
    busGate s m port a len false = .pass ↔ sameRegion a len = true ∧ filterPass s m a len = true ∧
      powered s (domQuarter (mapQuarter a)) = true ∧ (port ≠ .maint → isSet s F.MAP_CTL_ENABLE = true) ∧
      (arrayOnly s a = true → aoAllows port false = true) := by
  have hcs : isCs a = false := by simp only [isCs, hr]
  have htile : tileClosed m port a false = false := by simp only [tileClosed, hr]
  simp only [busGate, mapGate, hr, hcs, htile, ite_refused_eq_pass, ite_silent_eq_pass, Bool.false_and, Bool.false_eq_true,
    false_and, and_false, not_false_eq_true, true_and, and_true, Bool.not_eq_true', Bool.not_eq_false, not_and, ne_eq]

/-- None of these looks at the array. -/
theorem busGate_mapStore_withArr {s : State} {m : Master} {port : Port} {a len : Nat} (x : Arr) (hr : region a = .mapStore)
    (h : busGate s m port a len false = .pass) : busGate { s with arr := x } m port a len false = .pass := by
  obtain ⟨hrange, hfilter, hpower, henable, haonly⟩ := (busGate_mapStore_pass_iff hr).mp h
  exact (busGate_mapStore_pass_iff hr).mpr ⟨hrange, hfilter, hpower, henable, haonly⟩

/-- A row none of whose words is bad is read without error and without effect. -/
theorem eccRead_clean {s : State} (m : Master) {a : Nat} (hbad : ∀ k ∈ rowWords a, tabGet s.mapu.bad k 0 = 0) :
    eccRead s m a = (s, false) := by
  have hone : (rowWords a).any (fun w => tabGet s.mapu.bad w 0 == 1) = false := by
    rw [List.any_eq_false]
    intro w hw
    simp [hbad w hw]
  have hnone : (List.range 64).find? (fun i => decide (2 ≤ tabGet s.mapu.bad (a / 512 * 64 + i) 0)) = none := by
    rw [List.find?_eq_none]
    intro i hi
    simp [hbad _ (List.mem_map_of_mem hi)]
  simp only [eccRead, hone, hnone, Bool.false_eq_true, if_false, ite_self]

theorem busRead_mapStore_clean {s : State} {m : Master} {port : Port} {a len : Nat} (hr : region a = .mapStore)
    (hg : busGate s m port a len false = .pass) (hbad : ∀ k ∈ rowWords a, tabGet s.mapu.bad k 0 = 0) :
    busRead s m port a len = ⟨s, memRead s.mem a len, true, false, none⟩ := by
  simp only [busRead, hg, hr, eccRead_clean m hbad]

/-- The next row of the only FILL arrives: it is copied from Map Store and counted, and the FILL goes with its last row. -/
theorem fillArrive_clean {s : State} {f : FillReq} (hf : s.arr.fills = [f]) (hd : f.done < f.rows) (hb : f.bad = [])
    (hr : region (mapBase + fillRow f f.done * 512) = .mapStore)
    (hg : busGate s (engMaster 0 (getE s 0).part) (if f.tgt = 0 then .west else .north) (mapBase + fillRow f f.done * 512) 512 false =
      .pass)
    (hbad : ∀ k ∈ rowWords (mapBase + fillRow f f.done * 512), tabGet s.mapu.bad k 0 = 0) :
    fillArrive f.tgt s = memPut { s with arr := { s.arr with
        fills := if f.done + 1 < f.rows then [{ f with done := f.done + 1 }] else [] } }
      (tileAddr f.tgt + 512 * (f.trow + f.done)) (memRead s.mem (mapBase + fillRow f f.done * 512) 512) := by
  have hleft : (s.arr.fills.map (fun x => if x = f then { f with done := f.done + 1 } else x)).filter
      (fun x => decide (x.done < x.rows) || !x.bad.isEmpty) =
      if f.done + 1 < f.rows then [{ f with done := f.done + 1 }] else [] := by
    simp [hf, hb, List.filter_cons]
  simp only [fillArrive, find_pendingFill hf hd, hr, ne_eq, not_true_eq_false, if_false, busRead_mapStore_clean hr hg hbad,
    Bool.false_eq_true, hleft]

/-! ### Ends of operations and checks of tiles (R82 to R88, R205, R208) -/

/-- With no result outstanding no closed operation waits, and a waiting disable takes effect. -/
theorem operationEnd_settled {s : State} (h : s.arr.shares = []) :
    (s.arr.closing = 0 ∨ s.arr.disablePending = false → operationEnd s = { s with arr := { s.arr with closing := 0 } }) ∧
    (s.arr.closing ≠ 0 → s.arr.disablePending = true →
      operationEnd s = setF { s with arr := { s.arr with closing := 0, disablePending := false } } F.ARR_CTL_ENABLE 0) := by
  refine ⟨fun hw => ?_, fun hc hp => ?_⟩
  · by_cases hc : s.arr.closing = 0
    · simp only [operationEnd, h, List.isEmpty_nil, if_true, hc]
      rw [← hc, ← h]
    · have hp := hw.resolve_left hc
      simp [operationEnd, h, hc, applyDisable, hp]
  · simp [operationEnd, h, hc, applyDisable, hp]

/-- With no upset the results stand as computed. -/
@[simp] theorem upsetVecs_nil (vecs : List (Nat × List Nat)) : upsetVecs vecs [] = vecs := by simp [upsetVecs]

/-- A share of one slot whose vector is the first of its rows writes that slot alone. -/
theorem writeShare_single {s : State} {sh : Share} {l : List Nat} (h2 : sh.slot2 = none) :
    writeShare s sh [(0, l)] = writeVecs s sh sh.slot [(0, l)] := by
  simp [writeShare, h2]

/-- Under FIRST a vector of a share replaces what the slot held of it, each lane added to zero. -/
theorem writeVecs_first_acc {s : State} {sh : Share} (i k : Nat) (l : List Nat) (h2 : sh.slot2 = none) (hfirst : sh.first = true) :
    tabGet (writeVecs s sh i [(k, l)]).arr.acc (512 * i + k) [] = (List.range l.length).map (fun n => accAdd sh.fp 0 (nth l n 0)) := by
  simp [writeVecs, setSlot, h2, hfirst, nth]

/-- The slot that is written keeps all but its vectors, its depth and its pass, and is complete once the last share of its tile is in it. -/
theorem getSlot_writeVecs_same {s : State} {sh : Share} {i : Nat} {vecs : List (Nat × List Nat)} (h : i < s.arr.slots.length) :
    ∃ n d, getSlot (writeVecs s sh i vecs) i =
      { getSlot s i with vecs := n, depth := d, pass := some sh.pass, complete := (getSlot s i).complete || sh.last } :=
  ⟨_, _, getSlot_setSlot_same _ i _ h⟩

theorem getSlot_writeVecs_ne {s : State} {sh : Share} {i j : Nat} {vecs : List (Nat × List Nat)} (h : j ≠ i) :
    getSlot (writeVecs s sh i vecs) j = getSlot s j := getSlot_setSlot_ne _ _ _ _ h

theorem writeVecs_slots_length (s : State) (sh : Share) (i : Nat) (vecs : List (Nat × List Nat)) :
    (writeVecs s sh i vecs).arr.slots.length = s.arr.slots.length := setSlot_slots_length _ _ _

/-- The slot of a tile outside any row group passes to draining on its own. -/
theorem passToDrain_alone {s : State} {i : Nat} (h : (getSlot s i).rowgroup < 2) :
    passToDrain s i = setSlot s i { getSlot s i with st := .draining } := by
  simp only [passToDrain, h, if_true]

theorem getSlot_passToDrain_same {s : State} {i : Nat} (h : (getSlot s i).rowgroup < 2) (hlen : i < s.arr.slots.length) :
    getSlot (passToDrain s i) i = { getSlot s i with st := .draining } := by
  rw [passToDrain_alone h]
  exact getSlot_setSlot_same s i _ hlen

/-- The results of a share's row checks and of its column checks: none without checksums. -/
def rowVerdicts (s : State) (sh : Share) : List Check :=
  if sh.chk then rowChecks (getF s F.ARR_CHK_CTL_TOL_ULP) sh else []

def colVerdicts (s : State) (sh : Share) : List Check :=
  if sh.chk then colChecks (getF s F.ARR_CHK_CTL_TOL_ULP) sh.fp sh.colRef sh.vecs else []

/-- The state in which the oldest share has been taken, `r` remain, and its skipped checks are counted. -/
def shareTaken (s : State) (sh : Share) (r : List Share) : State :=
  bump { s with arr := { s.arr with shares := r } } F.ARR_CHK_STAT_SKIPS ((rowVerdicts s sh ++ colVerdicts s sh).countP (· == .skip))

/-- TILE_CHECK without an upset: a share none of whose checks failed is written, and any other fails its tile. -/
theorem tileCheck_noUpset {s : State} {sh : Share} {r : List Share} (hs : s.arr.shares = sh :: r) : tileCheck [] s =
    if (failedAt (rowVerdicts s sh)).isEmpty ∧ (failedAt (colVerdicts s sh)).isEmpty then
      if sh.last then (sh.slot :: sh.slot2.toList).foldl passToDrain (writeShare (shareTaken s sh r) sh sh.vecs)
      else writeShare (shareTaken s sh r) sh sh.vecs
    else tileFails (shareTaken s sh r) sh (rowVerdicts s sh) (colVerdicts s sh) := by
  simp only [tileCheck, hs, upsetVecs_nil]
  rfl

/-- A share without checksums fails none: it is written to its slot, which after the last of its tile passes to draining. -/
theorem tileCheck_unchecked {s : State} {sh : Share} {r : List Share} (hs : s.arr.shares = sh :: r) (hchk : sh.chk = false)
    (h2 : sh.slot2 = none) (hlast : sh.last = true) :
    tileCheck [] s = passToDrain (writeShare (shareTaken s sh r) sh sh.vecs) sh.slot := by
  simp [tileCheck_noUpset hs, rowVerdicts, colVerdicts, hchk, h2, hlast, failedAt]

/-- The last share of a tile of one vector, first of its pass, unchecked and outside any row group: what it writes and leaves. -/
theorem tileCheck_single {s : State} {sh : Share} {l : List Nat} {r : List Share} (hs : s.arr.shares = sh :: r)
    (hchk : sh.chk = false) (h2 : sh.slot2 = none) (hfirst : sh.first = true) (hlast : sh.last = true) (hv : sh.vecs = [(0, l)])
    (hg : (getSlot s sh.slot).rowgroup < 2) (hlen : sh.slot < s.arr.slots.length) :
    let t := tileCheck [] s
    t.arr.shares = r ∧ (getSlot t sh.slot).st = .draining ∧ (getSlot t sh.slot).complete = true ∧
      tabGet t.arr.acc (512 * sh.slot) [] = (List.range l.length).map (fun n => accAdd sh.fp 0 (nth l n 0)) ∧
      (∀ j, j ≠ sh.slot → getSlot t j = getSlot s j) ∧ { t with arr := s.arr, regs := s.regs } = s := by
  obtain ⟨n, d, hslot⟩ := getSlot_writeVecs_same (s := shareTaken s sh r) (sh := sh) (vecs := [(0, l)]) hlen
  have hgroup : (getSlot (writeVecs (shareTaken s sh r) sh sh.slot [(0, l)]) sh.slot).rowgroup < 2 := by rw [hslot]; exact hg
  have hdrain := getSlot_passToDrain_same hgroup (by rw [writeVecs_slots_length]; exact hlen)
  have hcomplete : (getSlot (writeVecs (shareTaken s sh r) sh sh.slot [(0, l)]) sh.slot).complete = true := by simp [hslot, hlast]
  have hacc := writeVecs_first_acc (s := shareTaken s sh r) sh.slot 0 l h2 hfirst
  rw [tileCheck_unchecked hs hchk h2 hlast, hv, writeShare_single h2]
  refine ⟨?_, congrArg Slot.st hdrain, (congrArg Slot.complete hdrain).trans hcomplete, ?_, fun j hj => ?_, ?_⟩ <;>
    rw [passToDrain_alone hgroup]
  · rfl
  · exact hacc
  · exact (getSlot_setSlot_ne _ _ _ _ hj).trans (getSlot_writeVecs_ne hj)
  · rfl

/-- What the charges of a failed share leave as it was: the results that stand, and memory. -/
structure SameResults (s u : State) : Prop where
  shares : u.arr.shares = s.arr.shares
  acc : u.arr.acc = s.arr.acc
  slots : u.arr.slots = s.arr.slots
  mem : u.mem = s.mem

theorem chargeCol_sameResults (s : State) (i : Nat) : SameResults s (chargeCol s i) := by
  unfold chargeCol
  dsimp only
  split <;> exact ⟨rfl, rfl, rfl, rfl⟩

theorem chargeFails_sameResults (s : State) (rows cols : List Check) : SameResults s (chargeFails s rows cols) := by
  unfold chargeFails
  split
  · exact chargeCol_sameResults s 256
  · split
    · exact chargeCol_sameResults s 257
    · refine List.foldlRecOn (motive := SameResults s) _ _ ⟨rfl, rfl, rfl, rfl⟩ fun u hu i _ => ?_
      obtain ⟨h1, h2, h3, h4⟩ := chargeCol_sameResults u i
      exact ⟨h1.trans hu.shares, h2.trans hu.acc, h3.trans hu.slots, h4.trans hu.mem⟩

/-- A tile's failed checks stop the array with ARRAY_CHECKSUM (R87). -/
theorem tileFails_stops (s : State) (sh : Share) (rows cols : List Check) :
    ∃ u d, tileFails s sh rows cols = engFault u 0 0x0111 d ∧ SameResults s u := by
  obtain ⟨h1, h2, h3, h4⟩ :=
    chargeFails_sameResults (bump s F.ARR_CHK_STAT_FAILS ((failedAt rows).length + (failedAt cols).length)) rows cols
  exact ⟨_, _, rfl, h1, h2, h3, h4⟩

/-- A share with a failed check fails its tile. -/
theorem tileCheck_failed {s : State} {sh : Share} {r : List Share} (hs : s.arr.shares = sh :: r) (hchk : sh.chk = true)
    (hf : failedAt (rowChecks (getF s F.ARR_CHK_CTL_TOL_ULP) sh) ≠ [] ∨
      failedAt (colChecks (getF s F.ARR_CHK_CTL_TOL_ULP) sh.fp sh.colRef sh.vecs) ≠ []) :
    tileCheck [] s = tileFails (shareTaken s sh r) sh (rowVerdicts s sh) (colVerdicts s sh) := by
  have hrows : rowVerdicts s sh = rowChecks (getF s F.ARR_CHK_CTL_TOL_ULP) sh := if_pos hchk
  have hcols : colVerdicts s sh = colChecks (getF s F.ARR_CHK_CTL_TOL_ULP) sh.fp sh.colRef sh.vecs := if_pos hchk
  rw [tileCheck_noUpset hs, if_neg]
  rw [hrows, hcols, List.isEmpty_iff, List.isEmpty_iff]
  exact fun hpass => hf.elim (fun h => h hpass.1) (fun h => h hpass.2)

end Sys2Proof.ArrayLaws
end

section
/-! Retirement of columns, and the registers of the array and of the drain. -/

namespace Sys2Proof.ArrayLaws

open Sys2Proof Sys2Proof.Machine

/-! ### Retirement (R92, R93) -/

/-- A write of the retirement register that names a column neither retired nor requested queues it. -/
theorem retireReqWrite_queued {s : State} {m : Master} {v : Nat} (hg : regGate s false 1 0x28 m v = .pass) (hc : v % 512 < 256)
    (hq : s.arr.retireReq.contains (v % 512) = false) (hr : bitOf s.arr.retired (v % 512) = false) :
    retireReqWrite m v s = { s with arr := { s.arr with retireReq := s.arr.retireReq ++ [v % 512] } } := by
  simp only [retireReqWrite, gated, hg, hc, hq, hr, and_self, if_true]

/-- The oldest requested column retires while the array is idle and no lay-by is under way. -/
theorem retireApply_idle {s : State} {c : Nat} {r : List Nat} (hc : s.arr.retireReq = c :: r) (hb : arrBusy s = false)
    (hl : laybyBusy s = false) :
    let u : State := { s with arr := { s.arr with retireReq := r, retired := Nat.lor s.arr.retired (2 ^ c) } }
    retireApply s = checkService (raise u false 0x0113 0 none 1 0xFFFF [c, widthW u]) := by
  simp only [retireApply, hc, hb, hl, Bool.false_eq_true, or_self, if_false]

/-! ### ARR_CTL (R94, R96, R505) -/

/-- The fields of ARR_CTL. -/
def ctlFields : List Fld :=
  [F.ARR_CTL_ENABLE, F.ARR_CTL_FUSE_BYPASS, F.ARR_CTL_RETIRE_EN, F.ARR_CTL_RETIRE_MODE, F.ARR_CTL_RETIRE_THRESH, F.ARR_CTL_GROUP_ON]

/-- Two states agree about ARR_CTL and about whether the array runs an operation. -/
structure SameCtl (s u : State) : Prop where
  field : ∀ x ∈ ctlFields, getF u x = getF s x
  busy : arrBusy u = arrBusy s

theorem SameCtl.refl (s : State) : SameCtl s s := ⟨fun _ _ => rfl, rfl⟩

theorem SameCtl.trans {s t u : State} (h : SameCtl s t) (g : SameCtl t u) : SameCtl s u :=
  ⟨fun x hx => (g.field x hx).trans (h.field x hx), g.busy.trans h.busy⟩

/-- A field of another register. -/
theorem setF_sameCtl (s : State) {y : Fld} (v : Nat) (h : ∀ x ∈ ctlFields, x.key ≠ y.key) : SameCtl s (setF s y v) :=
  ⟨fun x hx => getF_setF_ne s y x v (h x hx), rfl⟩

theorem rlogAdd_sameCtl (s : State) (addr : Nat) (m : Master) (reason data : Nat) : SameCtl s (rlogAdd s addr m reason data) := by
  refine ⟨fun x hx => TickLaws.getF_rlogAdd s addr m reason data x ?_ ?_, ?_⟩
  · revert x; decide
  · revert x; decide
  · unfold rlogAdd
    simp only [arrBusy, bump_arr]
    split <;> rfl

/-- An ignored write of ARR_CTL leaves it. -/
theorem cfgIgnored_sameCtl (s : State) (m : Master) (v : Nat) : SameCtl s (cfgIgnored s false 1 0x10 m v) :=
  ((setF_sameCtl s 1 (by decide)).trans (setF_sameCtl _ 1 (y := F.ARR_STAT_CFG_IGNORED) (by decide))).trans (rlogAdd_sameCtl _ _ _ _ _)

/-- States with the same registers and the same array. -/
theorem SameCtl.of_eq {s u : State} (hregs : u.regs = s.regs) (harr : u.arr = s.arr) : SameCtl s u :=
  ⟨fun x _ => by rw [getF, hregs, getF], by rw [arrBusy, harr, arrBusy]⟩

theorem fltLost_sameCtl (s : State) (lost : Bool) : SameCtl s (fltLost s false lost) := by
  unfold fltLost
  split
  · exact (setF_sameCtl s 1 (by decide)).trans (setF_sameCtl _ _ (by decide))
  · exact .refl s

theorem interrupt_sameCtl (s : State) : SameCtl s (interrupt s) := by
  unfold interrupt
  split <;> exact .of_eq rfl rfl

theorem saveOne_sameCtl (s : State) (r : FaultRec) : SameCtl s (saveOne s r) := by
  unfold saveOne
  dsimp only
  split <;> exact .of_eq rfl rfl

theorem holdCompute_sameCtl (s : State) : SameCtl s (holdCompute s) :=
  (setF_sameCtl s 4 (y := F.HIF_DEVSTAT_BOOT) (by decide)).trans (.of_eq rfl rfl)

/-- A record of no partition, which no triage holds, enters the compute die's queue. -/
theorem fltEnqueue_sameCtl (s : State) {r : FaultRec} (hr : r.part = none) : SameCtl s (fltEnqueue s false r) := by
  have htriage : ∀ u, triage u r = u := fun u => by simp only [triage, hr]
  simp only [fltEnqueue, Bool.false_eq_true, if_false, htriage]
  refine SameCtl.trans ?_ (interrupt_sameCtl _)
  refine SameCtl.trans ?_ (fltLost_sameCtl _ _)
  exact .of_eq rfl rfl

/-- A fault of the compute die that no partition bears. -/
theorem raise_sameCtl (s : State) (code cls block item : Nat) (detail : List Nat) :
    SameCtl s (raise s false code cls none block item detail) := by
  have hqueued := (SameCtl.of_eq (s := s) (u := fltCount s false) rfl rfl).trans
    (fltEnqueue_sameCtl _ (r := mkRec s false code cls none block item detail) rfl)
  unfold raise
  dsimp only
  split
  · exact hqueued.trans ((saveOne_sameCtl _ _).trans (holdCompute_sameCtl _))
  · exact hqueued

/-- Leaving service neither writes ARR_CTL nor ends an operation. -/
theorem checkService_sameCtl (s : State) : SameCtl s (checkService s) := by
  unfold checkService
  split
  · have hout : SameCtl s (setF { s with arr := { s.arr with outOfService := true } } F.ARR_STAT_OUT_OF_SERVICE 1) := by
      refine SameCtl.trans ?_ (setF_sameCtl _ 1 (by decide))
      exact ⟨fun _ _ => rfl, rfl⟩
    refine (hout.trans (raise_sameCtl _ 0x0114 3 1 0xFFFF [widthW s])).trans ?_
    simp only [raiseDevice, if_true, ite_self]
    exact .of_eq rfl rfl
  · exact .refl s

/-- What a write of ARR_CTL that the gate passes does with ENABLE, after the fields that act only while it reads 0: with ENABLE 1
those stay as they were. -/
theorem arrCtlWrite_enable {s : State} {m : Master} {v : Nat} (hg : regGate s false 1 0x10 m v = .pass) :
    ∃ u, (isSet s F.ARR_CTL_ENABLE = true → SameCtl s u) ∧ arrCtlWrite m v s =
      if bitOf v 0 then setF { u with arr := { u.arr with disablePending := false } } F.ARR_CTL_ENABLE 1
      else if !arrBusy u then setF u F.ARR_CTL_ENABLE 0
      else { u with arr := { u.arr with disablePending := true } } := by
  simp only [arrCtlWrite, gated, hg]
  refine ⟨_, fun hon => ?_, rfl⟩
  have hflagged : ∀ b : Bool, SameCtl s (if b then cfgIgnored s false 1 0x10 m v else s) := by
    rintro (_ | _)
    · exact .refl s
    · exact cfgIgnored_sameCtl s m v
  simp only [hon, Bool.not_true, wrField, Bool.false_eq_true, if_false]
  exact (hflagged _).trans (checkService_sameCtl _)

/-! ### ARR_COLCNT and DRN_CTL (R96, R103, R128) -/

/-- A write of ARR_COLCNT sets the counter that ARR_COLCNT_SEL selects. -/
theorem colcntWrite_selected {s : State} {m : Master} {v : Nat} (hg : regGate s false 1 0x30 m v = .pass)
    (hi : getF s F.ARR_COLCNT_SEL_SEL < 258) : colcntWrite m v s = { s with arr := { s.arr with
      colCnt := tabPut s.arr.colCnt (getF s F.ARR_COLCNT_SEL_SEL) (v % 256) 0 } } := by
  simp only [colcntWrite, gated, hg, hi, if_true]

/-- Setting ENABLE of the drain from 0 seeds its lanes. -/
theorem drnCtlWrite_enables {s : State} {m : Master} {v : Nat} (hg : regGate s false 2 0x10 m v = .pass) (hb : bitOf v 0 = true)
    (hoff : isSet s F.DRN_CTL_ENABLE = false) : drnCtlWrite m v s = { setF s F.DRN_CTL_ENABLE 1 with
      drn := { s.drn with lfsr := seedLanes (setF s F.DRN_CTL_ENABLE 1), disablePending := false } } := by
  simp only [drnCtlWrite, gated, hg, hb, hoff, Bool.false_eq_true, if_false, if_true, setF_drn]

/-- Clearing it while the drain is idle or parked disables it. -/
theorem drnCtlWrite_disables {s : State} {m : Master} {v : Nat} (hg : regGate s false 2 0x10 m v = .pass) (hb : bitOf v 0 = false)
    (hst : (getE s 1).st = .idle ∨ (getE s 1).st = .parked) : drnCtlWrite m v s = setF s F.DRN_CTL_ENABLE 0 := by
  simp only [drnCtlWrite, gated, hg, hb, hst, Bool.false_eq_true, if_false, if_true]

/-- A one-bit field that has just been set reads 1. -/
theorem isSet_setF_one (s : State) {x : Fld} (hw : x.width = 1) : isSet (setF s x 1) x = true := by
  simp [isSet, hw]

/-- Settles O15, a clause for each command: results go through the checks of their tile, and a write of ARR_CTL while ENABLE reads 1
leaves the fields of the register that act only while it reads 0. -/
theorem arrayResultsAndRegistersAct : Obligations.ArrayResultsAndRegistersAct := by
  unfold Obligations.ArrayResultsAndRegistersAct
  refine ⟨⟨?load, ?fill, ?opEnd, ?tile, ?failed⟩, ?request, ?retire, ?group, ?enable, ?disable, ?colcnt, ?drainOn, ?drainOff⟩
  case load => exact fun s o l ho hl hset hrows => congrArg Host.Outcome.next (loadComplete_ready ho hl hset hrows)
  case fill =>
    intro s f n hf hd hb hr hg hbad
    refine ⟨_, congrArg Host.Outcome.next ((congrArg (fillArrive f.tgt) (loadWaited_eq n hf hd)).trans
      (fillArrive_clean hf hd hb hr (busGate_mapStore_withArr _ hr hg) hbad)), rfl, rfl, rfl, rfl⟩
  case opEnd =>
    intro s hs
    obtain ⟨hstays, hdisables⟩ := operationEnd_settled hs
    exact ⟨fun h => congrArg Host.Outcome.next (hstays h), fun hc hp => congrArg Host.Outcome.next (hdisables hc hp)⟩
  case tile =>
    intro s sh l r hs hchk h2 hfirst hlast hv hgroup _ hlen
    exact ⟨_, rfl, tileCheck_single hs hchk h2 hfirst hlast hv hgroup hlen⟩
  case failed =>
    intro s sh r hs hchk _ hf
    obtain ⟨u, d, hstop, hshares, hacc, hslots, hmem⟩ := tileFails_stops (shareTaken s sh r) sh (rowVerdicts s sh) (colVerdicts s sh)
    exact ⟨u, d, congrArg Host.Outcome.next ((tileCheck_failed hs hchk hf).trans hstop), hshares, hacc, hslots, hmem⟩
  case request => exact fun s m v hg hc hq hr => congrArg Host.Outcome.next (retireReqWrite_queued hg hc hq hr)
  case retire => exact fun s c r hc hb hl => congrArg Host.Outcome.next (retireApply_idle hc hb hl)
  case group => exact fun s g => rfl
  case enable =>
    intro s m v hg hv
    obtain ⟨u, hsame, hw⟩ := arrCtlWrite_enable hg
    rw [if_pos hv] at hw
    refine ⟨_, congrArg Host.Outcome.next hw, isSet_setF_one _ rfl, rfl, fun hon => ?_⟩
    have hfield : ∀ x ∈ ctlFields, x.key ≠ F.ARR_CTL_ENABLE.key →
        getF (setF { u with arr := { u.arr with disablePending := false } } F.ARR_CTL_ENABLE 1) x = getF s x :=
      fun x hx hne => (getF_setF_ne _ _ _ _ hne).trans ((hsame hon).field x hx)
    exact ⟨hfield _ (by decide) (by decide), hfield _ (by decide) (by decide), hfield _ (by decide) (by decide)⟩
  case disable =>
    intro s m v hg hv hon hbusy _
    obtain ⟨u, hsame, hw⟩ := arrCtlWrite_enable hg
    have hb : arrBusy u = true := (hsame hon).busy.trans hbusy
    simp only [hv, hb, Bool.not_true, Bool.false_eq_true, if_false] at hw
    refine ⟨_, congrArg Host.Outcome.next hw, rfl, ?_⟩
    exact (congrArg (· == 1) ((hsame hon).field F.ARR_CTL_ENABLE (by decide)) :).trans hon
  case colcnt =>
    intro s m v hg hi
    refine ⟨_, congrArg Host.Outcome.next (colcntWrite_selected hg hi), tabGet_tabPut_same _ _ _ _, rfl,
      fun i hne => tabGet_tabPut_ne _ _ _ _ _ _ hne⟩
  case drainOn =>
    intro s m v hg hb hoff
    refine ⟨_, congrArg Host.Outcome.next (drnCtlWrite_enables hg hb hoff), isSet_setF_one s rfl, ?_, rfl⟩
    show seedLanes _ = _
    rw [seedLanes, getF_setF_ne _ _ _ _ (by decide)]
  case drainOff => exact fun s m v hg hb hst => congrArg Host.Outcome.next (drnCtlWrite_disables hg hb hst)

end Sys2Proof.ArrayLaws
end

section
/-! How the words CHAIN, DRAIN, COMMIT and OPTSTEP act when nothing stands in their way, and what a deposit does. -/

namespace Sys2Proof.DrainLaws

open Sys2Proof Sys2Proof.Machine

/-! ### Words (R161, R171, R200) -/

/-- A word of another CLASS does what its own CLASS says. -/
theorem asClass_other {c e : Nat} {w : BitVec 256} (eng : Bool) (own : State → State) (s : State) (h : wClass w ≠ c) :
    asClass c eng e w own s = wordIssue e w s := if_neg fun hc => h hc.1

section
variable {s t : State} {c e : Nat} {w : BitVec 256} {own : State → State} {bad : List Nat} {act : State → Eff}

/-- A ready word of the row's CLASS, with no reason of its own, ends as any word when its payload acts. -/
theorem ownWord_acts (hown : own s = issue s e w bad act) (hc : wClass w = c) (hr : ready s e w = true) (hb : bad = [])
    (ha : act s = .act t) : asClass c true e w own s = finishWord t e w (getE s e) := by
  rw [asClass, if_pos ⟨hc, rfl⟩, hown, issue_ready s e w bad act hr hb, ha]

/-- When its payload stops the engine, the word ends there. -/
theorem ownWord_stops (hown : own s = issue s e w bad act) (hc : wClass w = c) (hr : ready s e w = true) (hb : bad = [])
    (ha : act s = .stopped t) : asClass c true e w own s = t := by
  rw [asClass, if_pos ⟨hc, rfl⟩, hown, issue_ready s e w bad act hr hb, ha]

end

/-! ### CHAIN (R107, R209, R233) -/

/-- A chain without an optimiser has no gradient to check. -/
theorem gradOk_of_no_optimiser (s : State) {ch : List Stage} (h : ∀ x ∈ ch, x.code ≠ 9) : gradOk s ch = .inr (s, true) := by
  have hfind : ch.find? (fun x => x.code == 9) = none := by simpa [List.find?_eq_none] using h
  simp only [gradOk, hfind]

theorem openScale_of_no_scale (s : State) {ch : List Stage} (h : scaleDesc ch = none) : openScale s ch = .inr (s, 8) := by
  simp only [openScale, h]

/-- The domain of the open operation, if there is one. -/
def opDomain (s : State) : Option Bool := s.arr.op.map (fun o => fmtFp o.fmtW)

/-- The reasons that a chain gives on its own, by the domain of its vectors (R127). -/
def ownReasons (s : State) (ch : List Stage) (fp : Bool) : List Nat := chainReasons s.drn.force (decide (ch.length ≤ 1)) ch fp

/-- The rows of tile memory 2 in which the records of a CHAIN word stand. -/
def recordRows (w : BitVec 256) : List Nat := (List.range ((pF w 14 4 + pF w 0 4 + 15) / 16)).map (pF w 4 10 + ·)

/-- A chain refused on its own stops the drain with the lowest reason, before any of its descriptors is used. -/
theorem chainAct_refused {s q : State} {w : BitVec 256} {r : Nat} (hq : drainSettle s = q) (hn : pF w 0 4 ≤ 8)
    (hrows : tileRows q (recordRows w) = (q, false))
    (hr : chainRefusal (opDomain q) (ownReasons q (activeStages (chainRecords q w))) = some r) :
    chainAct w s = .stopped (drainConfig q r) := by
  unfold recordRows at hrows
  unfold opDomain ownReasons at hr
  simp only [chainAct, hq, Nat.not_lt.mpr hn, hrows, hr, Bool.false_eq_true, false_and, if_false, ite_self]

/-- A chain that nothing refuses comes into force with its output descriptor, whose commit bit is cleared after RESEED. -/
theorem chainAct_inForce {s q u v : State} {w : BitVec 256} {ch : List Stage} {d : TDesc} (hq : drainSettle s = q)
    (hn : pF w 0 4 ≤ 8) (hrows : tileRows q (recordRows w) = (q, false)) (hch : activeStages (chainRecords q w) = ch)
    (hopt : ∀ x ∈ ch, x.code ≠ 9) (hscale : scaleDesc ch = none)
    (huse : useDesc q 1 .drainR (agFirstAddr (getE q 1) w 0 + 64 * pF w 19 3) true false = .ok u d)
    (hown : chainRefusal (opDomain q) (ownReasons q ch) = none)
    (hfmt : chainRefusal (opDomain q) (fun fp => ownReasons q ch fp ++ when (chainOut fp ch != d.fmt) 2) = none)
    (hclear : clearOut (if pF w 18 1 = 1 then { u with drn := { u.drn with lfsr := seedLanes u } } else u) d.addr = .inr v) :
    chainAct w s = .act { v with drn := { v.drn with chain := ch, chainSet := true, outDesc := d.addr, reduce := [] } } := by
  have hany : ch.any (fun x => x.code == 9) = false := by simpa using hopt
  unfold recordRows at hrows
  unfold opDomain ownReasons at hown hfmt
  simp only [chainAct, hq, Nat.not_lt.mpr hn, hrows, hch, hown, huse, openScale_of_no_scale _ hscale, gradOk_of_no_optimiser _ hopt,
    hany, hclear, hscale, Bool.false_eq_true, false_and, if_false, ite_self, Bool.not_false, Bool.not_true, Bool.true_and,
    bne_self_eq_false, Bool.or_false, when, List.append_nil] at hfmt ⊢
  simp only [hfmt]

/-! ### DRAIN (R149, R212) -/

/-- One word cycle whose slots drain, whose parity is sound and whose vector goes through the chain is the whole of its word. -/
theorem drainCycles_one {s u : State} {w : BitVec 256} {ps : List Int} {slots : List Nat}
    (hslots : drainSlots s (pF w 0 4) (pF w 4 12 + drainSeg w * (pF w 16 9 / 512)) (drainSeg w) = some slots)
    (hbad : chainBad s.drn.chain s.drn.force (getSlot s (nth slots 0 0)).fp = none)
    (hpar : ∀ j ∈ slots, tabGet s.arr.accErr (512 * j + pF w 16 9 % 512) 0 = 0)
    (hone : drainOne w (nth ps 0 0) (pF w 16 9 % 512) slots s = .inr u) :
    drainCycles w ps none none 1 0 s = drainFinish u := by
  have hsound : slots.any (fun j => tabGet s.arr.accErr (512 * j + pF w 16 9 % 512) 0 != 0) = false := by
    simpa using hpar
  simp only [drainCycles, Nat.add_zero, hslots, hbad, hsound, hone, Bool.false_eq_true, if_false, reduceCtorEq]

/-- The count of an engine's effects is no part of its generators. -/
theorem getE_countEffect_ags (s : State) (e : Nat) :
    (getE (setE s e { getE s e with eff := (getE s e).eff + 1 }) e).ags = (getE s e).ags := by
  by_cases he : e < s.hx.length
  · rw [getE_setE_same s e _ he]
  · have hsame : setE s e { getE s e with eff := (getE s e).eff + 1 } = s := by
      unfold setE
      rw [List.set_eq_of_length_le (Nat.not_lt.mp he)]
    rw [hsame]

/-- A DRAIN word at its first cycle, under a chain in force whose descriptors open again, reads its vectors from there on. -/
theorem drainAct_reopened {s s1 s2 : State} {w : BitVec 256} {d : TDesc} {par cut : Option Nat} (hset : s.drn.chainSet = true)
    (hpos : s.drn.pos = 0) (hopt : ∀ x ∈ s.drn.chain, x.code ≠ 9)
    (hre : reopenOut (setE s 1 { getE s 1 with eff := (getE s 1).eff + 1 }) = .ok s1 d)
    (hres : openResiduals s1.drn.chain { s1 with drn := { s1.drn with chainSet := true, outDesc := d.addr } } = .inr s2)
    (hpos1 : s1.drn.pos = 0) (hpos2 : s2.drn.pos = 0) :
    drainAct w par cut s =
      drainCycles w (agWord (nth (getE s 1).ags 1 {}) (wAgc w 1) (wRepeat w + 1)).1 par cut (wRepeat w + 1) 0 s2 := by
  have hany : s.drn.chain.any (fun x => x.code == 9) = false := by simpa using hopt
  simp only [drainAct, hpos, if_true, setE_drn, hany, Bool.false_eq_true, if_false, hset, ne_eq, not_true_eq_false, hre,
    getE_countEffect_ags]
  rw [if_pos hpos1, hres]
  simp only [hpos2, Nat.sub_zero]

/-! ### COMMIT (R213) -/

/-- COMMIT of at least one descriptor, without a reserved bit and without REPEAT, is issued. -/
theorem commitReasons_nil {w : BitVec 256} (hn : 1 ≤ pF w 3 3) (hrsv : pF w 6 114 = 0) (hrep : wRepeat w = 0) :
    when (pF w 3 3 == 0) 1 ++ rsvReason (pF w 6 114) ++ singleCycle w = [] := by
  have hne : (pF w 3 3 == 0) = false := by simpa using Nat.one_le_iff_ne_zero.mp hn
  simp [when, rsvReason, singleCycle, hne, hrsv, hrep]

/-- A write of one byte is a put at its address. -/
theorem memWrite_byte (m : Mem) (a : Nat) (b : Byte) : memWrite m a [b] = tabPut m a b 0 := rfl

/-- What sets a commit bit in memory outside Map Store: one byte, its lowest bit set and the others as they were. -/
theorem putCommit_dram {s : State} {m : Master} {a : Nat} (hr : region a = .dram)
    (hg : busGate s m .drainW (a + 10) 1 true (leVal [(rdByte s.mem (a + 10) &&& 0xFE#8) ||| 1#8]) = .pass) :
    putCommit s m a true = (memPut s (a + 10) [(rdByte s.mem (a + 10) &&& 0xFE#8) ||| 1#8], false) := by
  simp [putCommit, hr, busWrite, hg]

theorem bit0_or_one (b : BitVec 8) : bitOf (b ||| 1#8).toNat 0 = true := by
  simp [bitOf, Nat.or_mod_two_eq_one]

theorem commitAll_one_dram {s : State} {m : Master} {a : Nat} (hr : region a = .dram)
    (hg : busGate s m .drainW (a + 10) 1 true (leVal [(rdByte s.mem (a + 10) &&& 0xFE#8) ||| 1#8]) = .pass) :
    commitAll m 1 a s = .act (putCommit s m a true).1 ∧ bitOf (rdByte (putCommit s m a true).1.mem (a + 10)).toNat 0 = true ∧
    (∀ k, k ≠ a + 10 → rdByte (putCommit s m a true).1.mem k = rdByte s.mem k) := by
  have hput := putCommit_dram hr hg
  refine ⟨?acts, ?bit, fun k hk => ?others⟩
  case acts => simp only [commitAll, hput, Bool.false_eq_true, if_false]
  case bit =>
    rw [hput]
    show bitOf (tabGet (memWrite s.mem (a + 10) [_]) (a + 10) 0).toNat 0 = true
    rw [memWrite_byte, tabGet_tabPut_same]
    exact bit0_or_one _
  case others =>
    rw [hput]
    exact tabGet_tabPut_ne _ _ _ _ _ _ hk

/-! ### OPTSTEP (R214) -/

/-- Under a chain of one optimiser stage whose descriptors open with their formats, the blocks run from the first on. -/
theorem optAct_optimiser {s u : State} {w : BitVec 256} {st : Stage} {ds : List TDesc} {cut : Option Nat} (hpos : s.drn.pos = 0)
    (hch : s.drn.chain = [st]) (hcode : st.code = 9) (hopen : openOpt st.aux 7 s [] = .inr (u, ds))
    (hfmt : ∀ i, i < 7 → (nth ds i { addr := 0, raw := [] }).fmt = nth optFmts i 0) (hpos' : u.drn.pos = 0) :
    optAct w cut s = optBlocks st ds cut 0 (agWord (nth (getE u 1).ags 1 {}) (wAgc w 1) (wRepeat w + 1)).1 u := by
  have hall : (List.range 7).any (fun i => (nth ds i { addr := 0, raw := [] }).fmt != nth optFmts i 0) = false := by
    simpa using hfmt
  simp only [optAct, hch, hcode, ne_eq, not_true_eq_false, hpos, hopen, hall, hpos', if_true, if_false,
    Bool.false_eq_true, List.drop_zero]

/-- Under any other chain it stops with reason 2. -/
theorem optAct_other {s : State} (w : BitVec 256) (cut : Option Nat) (h : ∀ st, s.drn.chain = [st] → st.code ≠ 9) :
    optAct w cut s = .stopped (drainConfig s 2) := by
  unfold optAct
  split
  case h_1 st hst => exact if_pos (h st hst)
  case h_2 => rfl

/-! ### Deposits (R111, R173) -/

theorem reduceDeposit_nothing {s : State} (hd : s.drn.deposits = []) (ho : redOver s = false) : reduceDeposit s = s := by
  simp only [reduceDeposit, hd, ho, Bool.false_eq_true, and_false, if_false]

/-- The state once a deposit has landed in register `r` of the array sequencer, with the deposits still to come. -/
def landed (s : State) (l : List (Nat × Nat × Nat)) (r v : Nat) : State :=
  setE { s with drn := { s.drn with deposits := l } } 0 { getE s 0 with sregs := (getE s 0).sregs.set r (BitVec.ofNat 32 v) }

theorem landed_sregs {s : State} (l : List (Nat × Nat × Nat)) {r : Nat} (v : Nat) (hhx : 0 < s.hx.length)
    (hr : r < (getE s 0).sregs.length) : nth (getE (landed s l r v) 0).sregs r 0 = BitVec.ofNat 32 v := by
  have hg : getE (landed s l r v) 0 = { getE s 0 with sregs := (getE s 0).sregs.set r (BitVec.ofNat 32 v) } :=
    getE_setE_same _ _ _ hhx
  simp [hg, nth, hr]

theorem reduceDeposit_lands {s : State} {r v n : Nat} {l : List (Nat × Nat × Nat)} (hd : s.drn.deposits = (r, v, n) :: l) :
    reduceDeposit s = landed s l r v := by
  simp only [reduceDeposit, hd, reduceCtorEq, false_and, if_false]
  rfl

end Sys2Proof.DrainLaws
end

section
/-! The stages of a chain on one lane and on a vector, in the integer domain. -/

namespace Sys2Proof.DrainLaws

open Sys2Proof Sys2Proof.Machine

/-! ### Integers of 32 bits (R6) -/

theorem i32_mem (v : Nat) : -2147483648 ≤ i32 v ∧ i32 v ≤ 2147483647 := by
  simp only [i32, sext]
  split <;> omega

/-- The code of an integer of 32 bits reads back as the integer. -/
theorem i32_u32 {v : Int} (h : -2147483648 ≤ v ∧ v ≤ 2147483647) : i32 (u32 v) = v := by
  have hcode : ((u32 v : Nat) : Int) = v % 4294967296 := by
    simp only [u32, wrapU, Int.reducePow]
    omega
  simp only [i32, sext]
  split <;> omega

theorem clampI_mem (x : Int) {lo hi : Int} (h : lo ≤ hi) : lo ≤ clampI x lo hi ∧ clampI x lo hi ≤ hi := by
  unfold clampI
  split
  · omega
  · split <;> omega

theorem clampI_eq_self {x lo hi : Int} (hlo : lo ≤ x) (hhi : x ≤ hi) : clampI x lo hi = x := by
  simp only [clampI, Int.not_lt.mpr hlo, Int.not_lt.mpr hhi, if_false]

/-! ### Stages 1 to 4 on a lane (R108) -/

section
variable (m : Mem) {s : Stage} (c v r : Nat)

theorem laneStage_bias_int (hs : s.code = 1) : laneStage m s false c v r = u32 (sat32 (i32 v + i32 (stageVal m s 0 c))) := by
  simp only [laneStage, hs, Bool.false_eq_true, if_false]

theorem laneStage_bias_fp (hs : s.code = 1) : laneStage m s true c v r = fAdd v (stageVal m s 0 c) := by
  simp only [laneStage, hs, if_true]

theorem laneStage_rescale_int (hs : s.code = 2) (ho : s.odom = false) : laneStage m s false c v r =
    u32 (sat32 (roundShift (i32 v * i32 (stageVal m s 0 c)) (stageVal m s 1 c % 64) (s.round == 1))) := by
  simp only [laneStage, hs, ho, Bool.false_eq_true, if_false]

theorem laneStage_zeroPoint (hs : s.code = 3) :
    laneStage m s false c v r = u32 (wrap32 (i32 v - i32 s.p0 * i32 (tableVal m s 0 c))) := by
  simp only [laneStage, hs]

theorem laneStage_clip_int (hs : s.code = 4) :
    laneStage m s false c v r = u32 (clampI (i32 v) (i32 s.p0) (i32 s.p1)) := by
  simp only [laneStage, hs, Bool.false_eq_true, if_false]

/-- The integer clip gives the lane clamped between P0 and P1, whatever they are. -/
theorem i32_laneStage_clip (hs : s.code = 4) :
    i32 (laneStage m s false c v r) = clampI (i32 v) (i32 s.p0) (i32 s.p1) := by
  have hv := i32_mem v
  have hlo := i32_mem s.p0
  have hhi := i32_mem s.p1
  rw [laneStage_clip_int m c v r hs, i32_u32]
  unfold clampI
  split
  · exact hlo
  · split
    · exact hhi
    · exact hv

end

/-! ### SUM of a vector's lanes (R111) -/

/-- A fold that adds each lane adds their sum. -/
theorem foldl_add_snd (l : List Nat) (acc : Bool × Int) :
    (l.foldl (fun t x => (true, t.2 + i32 x)) acc).2 = acc.2 + (l.map i32).sum := by
  induction l generalizing acc with
  | nil => simp
  | cons a l ih => simp only [List.foldl_cons, ih, List.map_cons, List.sum_cons, Int.add_assoc]

/-- The lanes in bounds of a vector that lies in bounds are all its lanes. -/
theorem lanes_of_inBounds {x : Vec} (h : ∀ n, n < x.vals.length → nth x.inb n false = true) :
    ((List.range x.vals.length).filter (fun n => nth x.inb n false)).map (fun n => nth x.vals n 0) = x.vals := by
  rw [List.filter_eq_self.mpr fun n hn => h n (List.mem_range.mp hn)]
  refine List.ext_getElem (by simp) fun n _ hn => ?_
  simp [nth, hn]

theorem reduceFold_sum {x : Vec} (wd : Nat) (acc : Bool × Int) (hfp : x.fp = false)
    (h : ∀ n, n < x.vals.length → nth x.inb n false = true) :
    (reduceFold true wd x acc).2 = acc.2 + (x.vals.map i32).sum := by
  simp only [reduceFold, hfp, Bool.false_eq_true, if_false, if_true, lanes_of_inBounds h]
  exact foldl_add_snd x.vals acc

/-- Settles O16, a clause for each word and stage: with the hypotheses of its clause a word meets no refusal on its way to its act; on a
lane, integers of 32 bits read back from their codes, so the clip's bounds hold of the code it gives. -/
theorem drainWordsRunTheirStages : Obligations.DrainWordsRunTheirStages := by
  unfold Obligations.DrainWordsRunTheirStages
  refine ⟨⟨?chain, ?chainRefused, ?drain, ?commit, ?commitOne, ?optstep, ?optRefused, ?otherClass, ?noDeposit, ?deposit⟩, ?stages⟩
  case chain =>
    intro s u v w d hready hclass hissue hn hrows hopt hscale huse hown hfmt hclear
    exact congrArg Host.Outcome.next
      (ownWord_acts rfl hclass hready hissue (chainAct_inForce rfl hn hrows rfl hopt hscale huse hown hfmt hclear))
  case chainRefused =>
    intro s w r hready hclass hissue _ hn hrows hr
    exact congrArg Host.Outcome.next (ownWord_stops rfl hclass hready hissue (chainAct_refused rfl hn hrows hr))
  case drain =>
    intro s s1 s2 u v w d slots hready hclass hissue hrep hset hpos hopt hre hres hpos1 hpos2 hslots hbad hpar hone hfin
    have hact : drainAct w none none s = .act v := by
      rw [drainAct_reopened hset hpos hopt hre hres hpos1 hpos2, hrep, Nat.zero_add]
      exact (drainCycles_one hslots hbad hpar hone).trans hfin
    exact congrArg Host.Outcome.next (ownWord_acts rfl hclass hready hissue hact)
  case commit =>
    intro s u w hready hclass hn hrsv hrep hall
    exact congrArg Host.Outcome.next (ownWord_acts rfl hclass hready (commitReasons_nil hn hrsv hrep) hall)
  case commitOne => exact fun s m a _ hregion hgate _ => commitAll_one_dram hregion hgate
  case optstep =>
    intro s u w st ds hready hclass hrsv hpos hch hcode hopen hfmt hpos' v hblocks
    exact congrArg Host.Outcome.next
      (ownWord_acts rfl hclass hready (if_pos hrsv) ((optAct_optimiser hpos hch hcode hopen hfmt hpos').trans hblocks))
  case optRefused =>
    intro s w c hready hclass hrsv hch
    exact congrArg Host.Outcome.next (ownWord_stops rfl hclass hready (if_pos hrsv) (optAct_other w c hch))
  case otherClass =>
    intro s w p c
    refine ⟨fun h => ?_, fun h => ?_, fun h => ?_, fun h => ?_⟩ <;> exact congrArg Host.Outcome.next (asClass_other true _ s h)
  case noDeposit => exact fun s hd ho => congrArg Host.Outcome.next (reduceDeposit_nothing hd ho)
  case deposit =>
    intro s r v n l hd hhx hr
    exact ⟨_, congrArg Host.Outcome.next (reduceDeposit_lands hd), rfl, landed_sregs l v hhx hr,
      fun f hf => getE_setE_ne _ _ _ _ hf, rfl⟩
  case stages =>
    intro m s c v r wd
    refine ⟨fun hs => ⟨laneStage_bias_int m c v r hs, laneStage_bias_fp m c v r hs⟩, laneStage_rescale_int m c v r,
      laneStage_zeroPoint m c v r, fun hs hle => ?clip, fun x acc hfp hin => reduceFold_sum wd acc hfp hin⟩
    case clip =>
      rw [i32_laneStage_clip m c v r hs]
      obtain ⟨hlo, hhi⟩ := clampI_mem (i32 v) hle
      exact ⟨hlo, hhi, clampI_eq_self⟩

end Sys2Proof.DrainLaws
end

section
/-! Windows of the tile memories: what they read after an opening, a close, a return of credits or a revocation, and the WIN words and
register writes that ask for these. -/

namespace Sys2Proof.WindowLaws

open Sys2Proof Sys2Proof.Machine

/-! ### Credits and closes (R141, R143) -/

@[simp] theorem heldBy_spend (x : Window) (c n : Nat) : heldBy (spend x c n) c = heldBy x c - n :=
  tabGet_tabPut_same x.holders c _ 0

theorem closeIfEmpty_opened {s : State} {t w : Nat} (h : (getW s t w).st = .opened) : closeIfEmpty s t w = s :=
  if_neg fun hc => WinSt.noConfusion (h.symm.trans hc.1)

theorem closeIfEmpty_outstanding {s : State} {t w : Nat} (h : (getW s t w).outstanding ≠ 0) : closeIfEmpty s t w = s :=
  if_neg fun hc => h hc.2

theorem closeIfEmpty_drained {s : State} {t w : Nat} (hst : (getW s t w).st = .draining) (hout : (getW s t w).outstanding = 0) :
    closeIfEmpty s t w = setW s t w (windowClosed (epochUp s (getW s t w))) := if_pos ⟨hst, hout⟩

/-- The window as a close leaves it while credits are out: its requests are gone and its timeout runs. -/
def draining (s : State) (x : Window) : Window :=
  { x with st := .draining, requests := [], deadline := s.timeC + 1000 * getF s F.CRD_TIMEOUT_US }

theorem closeWindow_unrequested {s : State} {t w : Nat} (hst : (getW s t w).st = .opened) (hreq : (getW s t w).requests = []) :
    closeWindow s t w = closeIfEmpty (setW s t w (draining s (getW s t w))) t w := by
  simp only [closeWindow, hst, hreq, if_true, List.foldl_nil, draining]

/-- With no credit out, the window that begins to drain is closed, and has its next epoch. -/
theorem closeWindow_empty {s : State} {t w : Nat} (hst : (getW s t w).st = .opened) (hreq : (getW s t w).requests = [])
    (hout : (getW s t w).outstanding = 0) : getW (closeWindow s t w) t w = windowClosed (epochUp s (draining s (getW s t w))) := by
  have hget : getW (setW s t w (draining s (getW s t w))) t w = draining s (getW s t w) := getW_setW_same ..
  rw [closeWindow_unrequested hst hreq, closeIfEmpty_drained (congrArg Window.st hget) ((congrArg Window.outstanding hget).trans hout),
    getW_setW_same, hget]
  rfl

theorem closeWindow_drains {s : State} {t w : Nat} (hst : (getW s t w).st = .opened) (hreq : (getW s t w).requests = [])
    (hout : (getW s t w).outstanding ≠ 0) : closeWindow s t w = setW s t w (draining s (getW s t w)) := by
  rw [closeWindow_unrequested hst hreq, closeIfEmpty_outstanding]
  rwa [getW_setW_same]

theorem returnCredits_opened {s : State} {t w : Nat} (c k : Nat) (hst : (getW s t w).st = .opened) :
    returnCredits s c t w k = setW s t w { spend (getW s t w) c (min k (heldBy (getW s t w) c)) with
      pool := (getW s t w).pool + min k (heldBy (getW s t w) c) } := by
  simp only [returnCredits, hst, true_or, if_true]
  exact closeIfEmpty_opened (by rw [getW_setW_same]; exact hst)

/-- Beside the window, a release can set the flag of an over-release. -/
theorem releaseRows_opened {s : State} {t w : Nat} (k : Nat) (hst : (getW s t w).st = .opened) :
    ∃ u, { u with regs := s.regs } = s ∧ releaseRows s t w k = setW u t w { getW s t w with
      pool := min ((getW s t w).pool + k) ((getW s t w).rows - (getW s t w).outstanding) } := by
  simp only [releaseRows, hst, true_or, if_true]
  refine ⟨_, ?_, rfl⟩
  split <;> rfl

/-! ### The timeout and its revocations (R143) -/

/-- The window as its timeout leaves it. -/
def timedOut (s : State) (x : Window) : Window := epochUp s { x with st := .revoking, revoking := x.holders.map (·.1) }

theorem creditTimeout_due {s : State} {t w : Nat} (hst : (getW s t w).st = .draining) (hout : 0 < (getW s t w).outstanding)
    (hdue : (getW s t w).deadline ≤ s.timeC) : ∃ d, creditTimeout t w s =
      raise (setW s t w (timedOut s (getW s t w))) false 0x0125 2 (some (getW s t w).part) 5 0xFFFF d :=
  ⟨_, if_pos ⟨hst, hout, hdue⟩⟩

theorem revocation_takes {s : State} {c t w : Nat} (hst : (getW s t w).st = .revoking)
    (hc : (getW s t w).revoking.contains c = true) :
    revocation c t w s = setW s t w (spend (getW s t w) c (heldBy (getW s t w) c)) := if_pos ⟨hst, hc⟩

theorem revocationAck_last {s : State} {c t w : Nat} (hst : (getW s t w).st = .revoking) (hc : (getW s t w).revoking = [c])
    (hheld : heldBy (getW s t w) c = 0) : revocationAck c t w s = setW s t w (windowClosed (getW s t w)) := by
  simp [revocationAck, hst, hc, hheld]

/-! ### Writes of CRD_WINCTL (R156) -/

theorem winCtl_opens {s : State} {m : Master} {t w : Nat} (hg : regGate s false 5 0x2C m 1 = .pass) (hsel : winSel s = some (t, w))
    (hsoon : openTooSoon s (getW s t w) = false) (hbad : openBad s t w (getW s t w).base (getW s t w).rows = false) :
    winCtl m 1 s = openWindow s t w (getW s t w).base (getW s t w).rows (getW s t w).part := by
  simp [winCtl, gated, hg, hsel, hsoon, hbad]

theorem winCtl_closes {s : State} {m : Master} {t w : Nat} (hg : regGate s false 5 0x2C m 2 = .pass) (hsel : winSel s = some (t, w)) :
    winCtl m 2 s = closeWindow s t w := by
  simp [winCtl, gated, hg, hsel]

/-- COUNT stands in bits 16 to 25 of the value, above OP. -/
theorem winCtl_releases {s : State} {m : Master} {n t w : Nat} (hn : n < 1024) (hg : regGate s false 5 0x2C m (3 + 65536 * n) = .pass)
    (hsel : winSel s = some (t, w)) : winCtl m (3 + 65536 * n) s = releaseRows s t w n := by
  have hop : (3 + 65536 * n) % 4 = 3 := by omega
  have hcount : bitsOf (3 + 65536 * n) 16 10 = n := by
    show (3 + 65536 * n) / 65536 % 1024 = n
    omega
  simp [winCtl, gated, hg, hsel, hop, hcount]

/-! ### WIN words (R162, R169) -/

/-- A WIN word of the row's OP that is ready and has no reason of its own ends as any word when its payload acts. -/
theorem winWord_acts {s t : State} {op e : Nat} {w : BitVec 256} {own : State → State} {bad : List Nat} {act : State → Eff}
    (hown : own s = issue s e w bad act) (hc : wClass w = 6) (hop : winOp w = op) (hr : ready s e w = true) (hb : bad = [])
    (ha : act s = .act t) : asClass 6 (winOp w == op) e w own s = finishWord t e w (getE s e) := by
  rw [beq_iff_eq.mpr hop]
  exact DrainLaws.ownWord_acts hown hc hr hb ha

/-- A word of another CLASS or OP does what its own says. -/
theorem winWord_other {op e : Nat} {w : BitVec 256} (own : State → State) (s : State) (h : wClass w ≠ 6 ∨ winOp w ≠ op) :
    asClass 6 (winOp w == op) e w own s = wordIssue e w s :=
  if_neg fun ⟨hc, hop⟩ => h.elim (absurd hc) (absurd (beq_iff_eq.mp hop))

theorem wordIssue_reservedOp {s : State} {e : Nat} {w : BitVec 256} (hr : ready s e w = true) (hc : wClass w = 6) (hop : winOp w = 0) :
    wordIssue e w s = hxrFault s e 0x0130 1 := by
  simp only [wordIssue, hc, hop]
  exact issue_illegal s e w [1] .act 1 hr rfl

theorem winOpenAct_opens {s : State} {e : Nat} {w : BitVec 256} (hacc : (getW s (winTile e w) (pF w 3 3)).accepted ≠ some e)
    (hsoon : openTooSoon s (getW s (winTile e w) (pF w 3 3)) = false)
    (hbad : openBad s (winTile e w) (pF w 3 3) (pF w 6 10) (pF w 16 10) = false) :
    winOpenAct e w s = .act (openWindow s (winTile e w) (pF w 3 3) (pF w 6 10) (pF w 16 10) (getE s e).part) := by
  simp only [winOpenAct, hacc, hsoon, hbad, if_false, Bool.false_eq_true]

/-- The window as its opening leaves it. -/
def opening (x : Window) (base rows part : Nat) : Window :=
  { x with base := base, rows := rows, part := part, st := .opened, pool := rows, outstanding := 0, holders := [], requests := [],
           revoking := [], heldOpen := none }

theorem getW_openWindow (s : State) (t w base rows part : Nat) :
    getW (openWindow s t w base rows part) t w = opening (getW s t w) base rows part := getW_setW_same ..

/-- A held OPEN that is accepted opens its window, which remembers the engine. -/
theorem windowOpenAccept_opens {s : State} {t w e base rows part : Nat} (hheld : (getW s t w).heldOpen = some (e, base, rows, part))
    (hsoon : openTooSoon s (getW s t w) = false) (hbad : openBad s t w base rows = false) : windowOpenAccept t w s =
      setW (openWindow s t w base rows part) t w { getW (openWindow s t w base rows part) t w with accepted := some e } := by
  simp only [windowOpenAccept, hheld, hsoon, hbad, if_false, Bool.false_eq_true]

/-- Settles O19, a clause for each command and each operation on a window: none but a release and a fault reaches past the credit unit. -/
theorem windowsOpenAndClose : Obligations.WindowsOpenAndClose := by
  unfold Obligations.WindowsOpenAndClose
  refine ⟨?ctlOpen, ?ctlClose, ?ctlRelease, ?wordOpen, ?wordClose, ?wordRelease, ?wordOther, ?wordReserved, ?opened, ?closed, ?released,
    ?accepted, ?timeout, ?revoked, ?acknowledged⟩
  case ctlOpen => exact fun s m t w hg hsel hsoon hbad => congrArg Host.Outcome.next (winCtl_opens hg hsel hsoon hbad)
  case ctlClose => exact fun s m t w hg hsel => congrArg Host.Outcome.next (winCtl_closes hg hsel)
  case ctlRelease => exact fun s m n t w hg hsel => congrArg Host.Outcome.next (winCtl_releases n.isLt hg hsel)
  case wordOpen =>
    intro s e w hr hc hop hb hacc hsoon hbad
    exact congrArg Host.Outcome.next (winWord_acts rfl hc hop hr hb (winOpenAct_opens hacc hsoon hbad))
  case wordClose => exact fun s e w hr hc hop hb => congrArg Host.Outcome.next (winWord_acts rfl hc hop hr hb rfl)
  case wordRelease => exact fun s e w hr hc hop hb => congrArg Host.Outcome.next (winWord_acts rfl hc hop hr hb rfl)
  case wordOther =>
    intro s e w
    refine ⟨fun h => ?_, fun h => ?_, fun h => ?_⟩ <;> exact congrArg Host.Outcome.next (winWord_other _ s h)
  case wordReserved => exact fun s e w hr hc hop => wordIssue_reservedOp hr hc hop
  case opened =>
    intro s t w base rows part
    rw [getW_openWindow]
    exact ⟨rfl, rfl, rfl, rfl, rfl⟩
  case closed =>
    intro s t w hst hreq
    refine ⟨fun hout => ?_, closeWindow_drains hst hreq⟩
    rw [closeWindow_empty hst hreq hout]
    exact ⟨rfl, rfl⟩
  case released =>
    intro s t w k hst _
    obtain ⟨u, hu, hr⟩ := releaseRows_opened k hst
    rw [hr, getW_setW_same]
    exact ⟨rfl, (congrArg (fun v : State => { v with crd := s.crd }) hu :)⟩
  case accepted =>
    intro s t w e base rows part hheld hsoon hbad
    refine ⟨_, congrArg Host.Outcome.next (windowOpenAccept_opens hheld hsoon hbad), ?_⟩
    rw [getW_setW_same, getW_openWindow]
    exact ⟨rfl, rfl, rfl, rfl, rfl, rfl⟩
  case timeout =>
    intro s t w hst hout hdue
    obtain ⟨d, hd⟩ := creditTimeout_due hst hout hdue
    refine ⟨_, d, congrArg Host.Outcome.next hd, ?_⟩
    rw [getW_setW_same]
    exact ⟨rfl, rfl, rfl, rfl⟩
  case revoked =>
    intro s c t w hst hc
    refine ⟨_, congrArg Host.Outcome.next (revocation_takes hst hc), ?_⟩
    rw [getW_setW_same, heldBy_spend, Nat.sub_self]
    exact ⟨rfl, rfl, rfl⟩
  case acknowledged =>
    intro s c t w hst hc hheld
    refine ⟨_, congrArg Host.Outcome.next (revocationAck_last hst hc hheld), ?_⟩
    rw [getW_setW_same]
    exact ⟨rfl, rfl, rfl⟩

end Sys2Proof.WindowLaws
end

section
/-! Credits of a window: requests and their answers, grants, returns, and the remote writes that spend them. -/

namespace Sys2Proof.CreditLaws

open Sys2Proof Sys2Proof.Machine Sys2Proof.WindowLaws

/-! ### Requests and grants (R141) -/

/-- The state with the last answer given: its completion code, the number of credits, and the window's epoch. -/
def answered (s : State) (c t w st n : Nat) : State :=
  { s with crd := { s.crd with answer := (c, st, n), answerEpoch := (getW s t w).epoch } }

/-- A grant, or a refusal to a sender below the stream DMA engines, ends no transfer. -/
theorem creditAnswer_answers (s : State) {c st : Nat} (t w n : Nat) (h : st = 0 ∨ c < 23) :
    creditAnswer s c t w st n = answered s c t w st n := by
  refine if_neg ?_
  rintro ⟨hst, hlow, -⟩
  omega

section
variable {s : State} {m : Master} {t w n : Nat} (ht : t < 24) (hw : w < 8) (hn : n ≠ 0)
include ht hw hn

theorem creditRequest_joins (hm : m.code < 23 ∨ 26 < m.code) (hen : isSet s F.CRD_CTL_ENABLE = true)
    (hst : (getW s t w).st = .opened) (hp : (getW s t w).part = m.part) :
    creditRequest m t w n s = setW s t w { getW s t w with requests := (getW s t w).requests ++ [(m.code, n)] } := by
  have hdma : ¬ (23 ≤ m.code ∧ m.code ≤ 26) := by omega
  have hin : ¬ (23 < t ∨ 7 < w ∨ n = 0) := by omega
  simp [creditRequest, hdma, hin, hen, hst, hp]

theorem creditRequest_closed (hm : m.code < 23) (hst : (getW s t w).st = .closed) :
    creditRequest m t w n s = answered s m.code t w 2 0 := by
  have hdma : ¬ (23 ≤ m.code ∧ m.code ≤ 26) := by omega
  have hin : ¬ (23 < t ∨ 7 < w ∨ n = 0) := by omega
  simp [creditRequest, hdma, hin, hst, creditAnswer_answers _ _ _ _ (.inr hm)]

theorem creditRequest_draining (hm : m.code < 23) (hen : isSet s F.CRD_CTL_ENABLE = true) (hst : (getW s t w).st = .draining)
    (hp : (getW s t w).part = m.part) : creditRequest m t w n s = answered s m.code t w 1 0 := by
  have hdma : ¬ (23 ≤ m.code ∧ m.code ≤ 26) := by omega
  have hin : ¬ (23 < t ∨ 7 < w ∨ n = 0) := by omega
  simp [creditRequest, hdma, hin, hen, hst, hp, creditAnswer_answers _ _ _ _ (.inr hm)]

end

/-- The window after `k` credits are granted to the request at its head. -/
def granted (x : Window) (c k : Nat) (rest : List (Nat × Nat)) : Window :=
  { x with requests := rest, pool := x.pool - k, outstanding := x.outstanding + k, holders := tabPut x.holders c (heldBy x c + k) 0 }

theorem heldBy_granted (x : Window) (c k : Nat) (rest : List (Nat × Nat)) : heldBy (granted x c k rest) c = heldBy x c + k :=
  tabGet_tabPut_same x.holders c _ 0

theorem creditGrant_head {s : State} {t w c n : Nat} {r : List (Nat × Nat)} (hreq : (getW s t w).requests = (c, n) :: r)
    (hen : isSet s F.CRD_CTL_ENABLE = true) (hst : (getW s t w).st = .opened) (hpool : 1 ≤ (getW s t w).pool) :
    creditGrant t w s = answered (setW s t w (granted (getW s t w) c (min n (getW s t w).pool) r)) c t w 0 (min n (getW s t w).pool) := by
  simp only [creditGrant, hreq]
  exact (if_pos ⟨hen, hst, hpool⟩).trans (creditAnswer_answers _ _ _ _ (.inl rfl))

/-! ### Remote writes (R139, R142) -/

/-- The words of a row land one after the other. -/
theorem foldl_memPut_mem (s : State) (a : Nat) (ws : RowWords) : (ws.foldl (fun s p => memPut s (a + 8 * p.1) p.2) s).mem =
    ws.foldl (fun mem p => memWrite mem (a + 8 * p.1) p.2) s.mem :=
  (List.foldl_hom State.mem fun _ _ => rfl).symm

theorem foldl_memPut_frame (s : State) (a : Nat) (ws : RowWords) :
    { ws.foldl (fun s p => memPut s (a + 8 * p.1) p.2) s with mem := s.mem, mapu := s.mapu } = s :=
  List.foldlRecOn (motive := fun u : State => { u with mem := s.mem, mapu := s.mapu } = s) ws _ rfl fun _ hu _ _ => hu

section
variable {s : State} {m : Master} {t w e row : Nat} {ws : RowWords}

/-- A sender that names another epoch, or holds a credit, sends its write of whole words. -/
theorem remoteWriteCmd_sent (ht : t < 24) (hw : w < 8) (hrow : row < 768) (hne : ws ≠ []) (hws : ∀ p ∈ ws, p.1 < 64 ∧ p.2.length = 8)
    (hcred : e ≠ (getW s t w).epoch ∨ 0 < heldBy (getW s t w) m.code) : remoteWriteCmd m t w e row ws s =
      { (remoteWrite s m t w e row ws).1 with
        crd := { (remoteWrite s m t w e row ws).1.crd with answer := (m.code, (remoteWrite s m t w e row ws).2, 0) } } := by
  refine if_neg ?_
  have hwhole : ¬ ws.any (fun p => decide (63 < p.1) || p.2.length != 8) = true := by
    simp only [List.any_eq_true, not_exists, not_and]
    intro p hp
    obtain ⟨hword, hlen⟩ := hws p hp
    simp [hlen]
    omega
  rintro (h | h | h | h | h | ⟨hep, hheld, -⟩)
  case inr.inr.inr.inl => exact hne h
  case inr.inr.inr.inr.inl => exact hwhole h
  all_goals omega

theorem remoteWrite_stale (row : Nat) (ws : RowWords) (he : e ≠ (getW s t w).epoch) :
    remoteWrite s m t w e row ws = (dropWrite s t m.code, 2) := by
  simp [remoteWrite, he]

/-- A write into an open window spends the credit first, and its words land in the row. -/
theorem remoteWrite_lands (ws : RowWords) (hen : isSet s F.CRD_CTL_ENABLE = true) (hst : (getW s t w).st = .opened)
    (hlo : (getW s t w).base ≤ row) (hhi : row < (getW s t w).base + (getW s t w).rows)
    (hlock : tileLocked s (tileAddr t + 512 * row) = false) : remoteWrite s m t w (getW s t w).epoch row ws =
      (ws.foldl (fun s p => memPut s (tileAddr t + 512 * row + 8 * p.1) p.2) (setW s t w (spend (getW s t w) m.code 1)), 0) := by
  have hlock' : tileLocked (setW s t w (spend (getW s t w) m.code 1)) (tileAddr t + 512 * row) = false := hlock
  have hcrd := congrArg State.crd (foldl_memPut_frame (setW s t w (spend (getW s t w) m.code 1)) (tileAddr t + 512 * row) ws)
  have hopen : (getW (ws.foldl (fun s p => memPut s (tileAddr t + 512 * row + 8 * p.1) p.2)
      (setW s t w (spend (getW s t w) m.code 1))) t w).st = .opened := by
    rw [getW, hcrd]
    exact (congrArg Window.st (getW_setW_same ..)).trans hst
  simp [remoteWrite, hen, hst, hlo, hhi, hlock', closeIfEmpty_opened hopen]

end

/-- Settles O18, a clause for each command: the window's counters follow its new value, and the words of a remote write change memory
and its upkeep alone. -/
theorem creditsMoveBetweenPoolAndHolders : Obligations.CreditsMoveBetweenPoolAndHolders := by
  unfold Obligations.CreditsMoveBetweenPoolAndHolders
  refine ⟨?request, ?grant, ?giveBack, ?write, ?stale, ?refused⟩
  case request =>
    exact fun s m t w n ht hw hn hm hen hst hp => congrArg Host.Outcome.next (creditRequest_joins ht hw hn hm hen hst hp)
  case grant =>
    intro s t w c n r hreq hen hst hpool
    have hget : getW (setW s t w (granted (getW s t w) c (min n (getW s t w).pool) r)) t w = _ := getW_setW_same ..
    refine ⟨_, congrArg Host.Outcome.next (creditGrant_head hreq hen hst hpool), congrArg Window.pool hget,
      congrArg Window.outstanding hget, (congrArg (heldBy · c) hget).trans (heldBy_granted ..), congrArg Window.requests hget, rfl,
      (congrArg Window.epoch hget :), rfl⟩
  case giveBack =>
    intro s m t w k hst
    refine ⟨_, congrArg Host.Outcome.next (returnCredits_opened m.code k hst), ?_⟩
    rw [getW_setW_same]
    exact ⟨rfl, rfl, rfl⟩
  case write =>
    intro s m t w row ws ht hw hrow hne hws hen hst hheld hlo hhi hlock
    have hframe := foldl_memPut_frame (setW s t w (spend (getW s t w) m.code 1)) (tileAddr t + 512 * row) ws
    refine ⟨_, congrArg Host.Outcome.next (remoteWriteCmd_sent ht hw hrow hne hws (.inr hheld)), ?_⟩
    rw [remoteWrite_lands ws hen hst hlo hhi hlock]
    refine ⟨foldl_memPut_mem _ _ _, ?out, rfl, (congrArg (fun v : State => { v with crd := s.crd }) hframe :)⟩
    case out =>
      have hcrd := congrArg (fun v : State => (tabGet v.crd.wins (8 * t + w) {}).outstanding) hframe
      exact hcrd.trans (congrArg Window.outstanding (getW_setW_same ..))
  case stale =>
    intro s m t w e row ws ht hw hrow hne hws he
    refine ⟨_, congrArg Host.Outcome.next (remoteWriteCmd_sent ht hw hrow hne hws (.inl he)), ?_⟩
    rw [remoteWrite_stale row ws he]
    exact ⟨rfl, rfl, tabGet_tabPut_same s.crd.drops t _ _⟩
  case refused =>
    intro s m t w n ht hw hn hen hm
    exact ⟨fun hst => congrArg Host.Outcome.next (creditRequest_closed ht hw hn hm hst),
      fun hst hp => congrArg Host.Outcome.next (creditRequest_draining ht hw hn hm hen hst hp)⟩

end Sys2Proof.CreditLaws
end

section
/-! Accesses to Map Store through its ports, the write-back of a corrected row, and the patrols of on-chip memory. -/

namespace Sys2Proof.MapStoreLaws

open Sys2Proof Sys2Proof.Machine

/-! ### Accesses (R131, R134, R152) -/

theorem markErrs_nil (s : State) (a : Nat) : markErrs s a [] = s := ite_self s

theorem mapStoreAccess_read {s : State} {m : Master} {port a : Nat} {c : Bool} (hport : port ≤ 8) (hr : region a = .mapStore)
    (hform : accessForm port a 512 false = true) (hg : busGate s m (portOf port c) a 512 false = .pass)
    (hbad : ∀ k ∈ rowWords a, tabGet s.mapu.bad k 0 = 0) :
    mapStoreAccess m port c a 512 none [] s = { s with rd := memRead s.mem a 512, rdErr := false } := by
  simp [mapStoreAccess, hr, Nat.not_lt.mpr hport, hform, hg, markErrs_nil, ArrayLaws.busRead_mapStore_clean hr hg hbad]

theorem mapStoreAccess_write {s : State} {m : Master} {port a : Nat} {c : Bool} {bs : Bytes} (hport : port ≤ 8)
    (hr : region a = .mapStore) (hform : accessForm port a bs.length true = true)
    (hg : busGate s m (portOf port c) a bs.length true (leVal (bs.take 4)) = .pass) :
    mapStoreAccess m port c a bs.length (some bs) [] s = memPut s a bs := by
  simp [mapStoreAccess, hr, Nat.not_lt.mpr hport, hform, busWrite, hg]

/-- The words that a write covers whole have good check bits after it. -/
theorem memPut_wholeWords_good (s : State) (a : Nat) (bs : Bytes) {k : Nat} (hlo : (a + 7) / 8 ≤ k) (hhi : k < (a + bs.length) / 8) :
    tabGet (memPut s a bs).mapu.bad k 0 = 0 := tabGet_tabDrop_in _ _ _ _ _ (by omega)

/-! ### Write-backs (R151) -/

/-- What a key reads in a filtered table is the value of an unlisted key, or the filter keeps it. -/
theorem tabGet_filter {α : Type} (t : Tab α) (p : Nat × α → Bool) (k : Nat) (d : α) :
    tabGet (t.filter p) k d = d ∨ p (k, tabGet (t.filter p) k d) = true := by
  cases hf : (t.filter p).find? (fun x => x.1 == k) with
  | none => exact .inl (by simp only [tabGet, hf])
  | some x =>
    have hkey : x.1 = k := by simpa using List.find?_some hf
    have hkept : p x = true := (List.mem_filter.mp (List.mem_of_find?_eq_some hf)).2
    have hval : tabGet (t.filter p) k d = x.2 := by simp only [tabGet, hf]
    right
    rw [hval, ← hkey]
    exact hkept

/-- The check bits of a word outside the row, or of one in it that has no single-bit error. -/
def notSingle (row : Nat) (x : Nat × Nat) : Bool := !(decide (row * 64 ≤ x.1) && decide (x.1 < row * 64 + 64) && x.2 == 1)

/-- The block after a row's write-back. -/
def writtenBack (s : State) (row : Nat) : State :=
  { s with mapu := { s.mapu with
      writeBack := s.mapu.writeBack.filter (· != row), bad := s.mapu.bad.filter (notSingle row) } }

theorem eccWriteBack_pending {s : State} {row : Nat} (h : s.mapu.writeBack.contains row = true) :
    eccWriteBack row s = writtenBack s row := if_pos h

theorem not_mem_writtenBack (s : State) (row : Nat) : row ∉ (writtenBack s row).mapu.writeBack := by
  simp [writtenBack]

theorem writtenBack_no_single {row k : Nat} (s : State) (hlo : row * 64 ≤ k) (hhi : k < row * 64 + 64) :
    tabGet (writtenBack s row).mapu.bad k 0 ≠ 1 := by
  intro h1
  have hread : tabGet (writtenBack s row).mapu.bad k 0 = 0 ∨ notSingle row (k, tabGet (writtenBack s row).mapu.bad k 0) = true :=
    tabGet_filter ..
  rw [h1] at hread
  simp [notSingle, hlo, hhi] at hread

/-! ### Patrols (R153) -/

/-- Two states agree about the credit unit, the array and the patrol cursor of Map Store, which no reading of rows changes. -/
def SamePatrol (s u : State) : Prop := u.crd = s.crd ∧ u.arr = s.arr ∧ u.mapu.cursor = s.mapu.cursor

theorem SamePatrol.refl (s : State) : SamePatrol s s := ⟨rfl, rfl, rfl⟩

theorem SamePatrol.trans {s t u : State} (h : SamePatrol s t) (g : SamePatrol t u) : SamePatrol s u :=
  ⟨g.1.trans h.1, g.2.1.trans h.2.1, g.2.2.trans h.2.2⟩

theorem raise_samePatrol (s : State) (port : Bool) (code cls : Nat) (part : Option Nat) (block item : Nat) (detail : List Nat) :
    SamePatrol s (raise s port code cls part block item detail) := by
  have h := raise_same s port code cls part block item detail
  exact ⟨(congrArg State.crd h :), (congrArg State.arr h :), (congrArg (fun u : State => u.mapu.cursor) h :)⟩

theorem markErrs_samePatrol (s : State) (a : Nat) (errs : List (Nat × Bool)) : SamePatrol s (markErrs s a errs) := by
  unfold markErrs
  split <;> exact ⟨rfl, rfl, rfl⟩

/-- A read's ECC check notes a corrected word in the registers and the write-backs, and raises its faults. -/
theorem eccRead_samePatrol (s : State) (m : Master) (a : Nat) : SamePatrol s (eccRead s m a).1 := by
  unfold eccRead
  split
  · exact .refl s
  · extract_lets one raised noted upkeep s1
    have hraised : SamePatrol s raised := raise_samePatrol ..
    have hnoted : SamePatrol s noted := by
      unfold noted
      split <;> exact hraised
    have hcorrected : SamePatrol s s1 := by
      unfold s1
      split
      · exact hnoted
      · exact .refl s
    split
    · exact hcorrected.trans (raise_samePatrol ..)
    · exact hcorrected

theorem scrubRows_samePatrol (errs : List (Nat × Nat × Bool)) (rows : List (Nat × Nat)) (s : State) :
    SamePatrol s (scrubRows errs rows s) := by
  induction rows generalizing s with
  | nil => exact .refl s
  | cons r rows ih => exact ((markErrs_samePatrol s r.2 _).trans (eccRead_samePatrol _ maintMaster r.2)).trans (ih _)

theorem mapPatrol_moves {s : State} (errs : List (Nat × Nat × Bool)) (h : getF s F.MAP_CTL_SCRUB_INTERVAL ≠ 0) :
    ∃ u, SamePatrol s u ∧ mapPatrol errs s = { u with mapu := { u.mapu with cursor := (s.mapu.cursor + 1) % 16384 } } :=
  ⟨_, scrubRows_samePatrol errs _ s, if_neg h⟩

theorem tilePatrol_moves {s : State} (errs : List (Nat × Nat × Bool)) (h : getF s F.CRD_CTL_SCRUB_INTERVAL ≠ 0) :
    ∃ u, SamePatrol s u ∧ tilePatrol errs s = { u with crd := { u.crd with tileCursor := (s.crd.tileCursor + 1) % 768 } } :=
  ⟨_, scrubRows_samePatrol errs _ s, if_neg h⟩

/-- Settles O17, a clause for each command; the rows that a patrol reads leave both cursors where they stand. -/
theorem mapStorePortsReadAndWrite : Obligations.MapStorePortsReadAndWrite := by
  unfold Obligations.MapStorePortsReadAndWrite
  refine ⟨?read, ?write, ?writeBack, ?mapPatrol, ?tilePatrol, ?mapOff, ?tileOff⟩
  case read =>
    exact fun s m port a c hport hr hform hg hbad => congrArg Host.Outcome.next (mapStoreAccess_read hport hr hform hg hbad)
  case write =>
    exact fun s m port a c bs hport hr hform hg => ⟨_, congrArg Host.Outcome.next (mapStoreAccess_write hport hr hform hg), rfl,
      fun k hlo hhi => memPut_wholeWords_good s a bs hlo hhi, rfl⟩
  case writeBack =>
    exact fun s row h => ⟨_, congrArg Host.Outcome.next (eccWriteBack_pending h), not_mem_writtenBack s row, rfl,
      fun k hlo hhi => writtenBack_no_single s hlo hhi, rfl⟩
  case mapPatrol =>
    intro s errs h
    obtain ⟨u, ⟨hcrd, harr, -⟩, hu⟩ := mapPatrol_moves errs h
    exact ⟨_, congrArg Host.Outcome.next hu, rfl, hcrd, harr⟩
  case tilePatrol =>
    intro s errs h
    obtain ⟨u, ⟨hcrd, harr, hcursor⟩, hu⟩ := tilePatrol_moves errs h
    exact ⟨_, congrArg Host.Outcome.next hu, by rw [← hcrd], hcursor, harr⟩
  case mapOff => exact fun s errs h => congrArg Host.Outcome.next (if_pos h)
  case tileOff => exact fun s errs h => congrArg Host.Outcome.next (if_pos h)

end Sys2Proof.MapStoreLaws
end

section
/-! What becomes of a word: the checks that its issue makes in their order, its wait for a cairn, and the engine and the next address that
its end leaves. -/

namespace Sys2Proof.WordLaws

open Sys2Proof Sys2Proof.Machine

/-! ### Issue (R171, R182, R194) -/

/-- The engine can issue a word: it runs, has not halted, and has no word staged. -/
structure AtIssue (s : State) (e : Nat) : Prop where
  runs : (getE s e).st = .run
  goesOn : (getE s e).halted = false
  unstaged : (getE s e).staged = none

theorem AtIssue.not_barred {s : State} {e : Nat} (h : AtIssue s e) :
    ¬ ((getE s e).st ≠ .run ∨ (getE s e).halted = true ∨ (getE s e).staged.isSome = true) := by
  simp [h.runs, h.goesOn, h.unstaged]

theorem issue_halted {s : State} {e : Nat} (w : BitVec 256) (bad : List Nat) (act : State → Eff) (h : (getE s e).halted = true) :
    issue s e w bad act = s := if_pos (.inr (.inl h))

section
variable {s : State} {e : Nat} {w : BitVec 256} {bad : List Nat}

/-- A word's checks, in the order in which the first that fails decides. -/
theorem issue_badLevel (act : State → Eff) (h : AtIssue s e) (hl : levelOk s w = false) : issue s e w bad act = hxrFault s e 0x0132 0 := by
  simp [issue, h.runs, h.goesOn, h.unstaged, hl]

theorem issue_reason {r : Nat} (act : State → Eff) (h : AtIssue s e) (hl : levelOk s w = true)
    (hr : lowest (commonReasons s e w ++ bad) = some r) : issue s e w bad act = hxrFault s e 0x0130 r := by
  simp [issue, h.runs, h.goesOn, h.unstaged, hl, hr]

theorem issue_badLoop (act : State → Eff) (h : AtIssue s e) (hl : levelOk s w = true) (hr : lowest (commonReasons s e w ++ bad) = none)
    (hop : wLoopOp w = 1) (hb : beginBad (getE s e) w = true) : issue s e w bad act = hxrFault s e 0x0131 0 := by
  simp [issue, h.runs, h.goesOn, h.unstaged, hl, hr, hop, hb]

theorem issue_noCairn (act : State → Eff) (h : AtIssue s e) (hl : levelOk s w = true) (hr : lowest (commonReasons s e w ++ bad) = none)
    (hop : wLoopOp w ≠ 1) (hc : takeCairn s e w = none) : issue s e w bad act =
      setE s e { getE s e with st := .wait, waitQ := some (wWq w), cur := (getE s e).pc } := by
  simp [issue, h.runs, h.goesOn, h.unstaged, hl, hr, hop, hc]

/-- The engine remembers the cairn that its word has had. -/
theorem issue_cairn {s1 t : State} {act : State → Eff} (h : AtIssue s e) (hl : levelOk s w = true)
    (hr : lowest (commonReasons s e w ++ bad) = none) (hop : wLoopOp w ≠ 1) (hw : wWait w = true) (hc : takeCairn s e w = some s1)
    (ha : act (setE s1 e { getE s e with granted := true }) = .act t) : issue s e w bad act = finishWord t e w (getE s e) := by
  simp only [issue, h.not_barred, hl, hr, hop, hc, hw, ha, if_false, if_true, Bool.not_true, Bool.false_eq_true, false_and]

/-- Whether a cairn stands at the head of its queue decides the wait of a word that has not had one. -/
theorem takeCairn_none (hw : wWait w = true) (hg : (getE s e).granted = false) (hq : (headQ s (wWq w)).any (·.cairn) = false) :
    takeCairn s e w = none := by
  cases hd : headQ s (wWq w) <;> simp_all [takeCairn]

theorem takeCairn_head (hw : wWait w = true) (hg : (getE s e).granted = false) (hq : (headQ s (wWq w)).any (·.cairn) = true) :
    takeCairn s e w = some (popQ s (wWq w)) := by
  cases hd : headQ s (wWq w) <;> simp_all [takeCairn]

end

/-! ### Reasons of HXR_ILLEGAL (R162, R194) -/

/-- No reason is lower than 1. -/
theorem lowest_one {l : List Nat} (h : ∀ r ∈ l, 1 ≤ r) : lowest (1 :: l) = some 1 := by
  show l.foldl _ (some 1) = some 1
  induction l with
  | nil => rfl
  | cons r l ih =>
    have hr : min r 1 = 1 := Nat.min_eq_right (h r (.head l))
    simpa [hr] using ih fun x hx => h x (.tail r hx)

theorem one_le_of_mem_when {b : Bool} {n r : Nat} (hn : 1 ≤ n) (h : r ∈ when b n) : 1 ≤ r := by
  cases b <;> simp_all [when]

/-- A class that the engine does not list gives the lowest reason there is. -/
theorem lowest_unknownClass {s : State} {e : Nat} {w : BitVec 256} {bad : List Nat} (hk : classKnown e (wClass w) = false)
    (hbad : ∀ r ∈ bad, 1 ≤ r) : lowest (commonReasons s e w ++ bad) = some 1 := by
  simp only [commonReasons, hk, Bool.not_false, Bool.true_or, if_true, List.append_assoc, List.cons_append, List.nil_append]
  refine lowest_one fun r hr => ?_
  simp only [List.mem_append, List.mem_ite_nil_right, List.mem_singleton] at hr
  rcases hr with ⟨-, rfl⟩ | ⟨-, rfl⟩ | ⟨-, rfl⟩ | ⟨-, rfl⟩ | hr
  · decide
  · decide
  · decide
  · decide
  · exact hbad r hr

theorem winReasons_pos {e : Nat} {w : BitVec 256} {base rows : Bool} : ∀ r ∈ winReasons e w base rows, 1 ≤ r := by
  intro r hr
  simp only [winReasons, singleCycle, List.mem_append] at hr
  rcases hr with (hr | hr) | hr <;> exact one_le_of_mem_when (by decide) hr

/-- The array sequencer lists the classes 8 to 0xD, and the drain 8 to 0xB (R161, R200). -/
theorem ne_array_of_unknownClass {e c : Nat} (hk : classKnown e c = false) (hc : 8 ≤ c ∧ c ≤ 0xD) : e ≠ 0 := by
  rintro rfl
  simp [classKnown, hc] at hk

theorem ne_drain_of_unknownClass {e c : Nat} (hk : classKnown e c = false) (hc : 8 ≤ c ∧ c ≤ 0xB) : e ≠ 1 := by
  rintro rfl
  simp [classKnown, hc] at hk

/-- A class that the engine does not list comes to issue with the reasons of a WIN word, or with reason 1. -/
theorem wordIssue_unknownClass {s : State} {e : Nat} {w : BitVec 256} (hk : classKnown e (wClass w) = false) :
    ∃ bad act, wordIssue e w s = issue s e w bad act ∧ ∀ r ∈ bad, 1 ≤ r := by
  have hone : ∀ r ∈ [1], 1 ≤ r := by simp
  have hneither (h : 8 ≤ wClass w ∧ wClass w ≤ 0xB) (a b c : State) : (if e = 0 then a else if e = 1 then b else c) = c :=
    (if_neg (ne_array_of_unknownClass hk (by omega))).trans (if_neg (ne_drain_of_unknownClass hk h))
  have hnotArray (h : 8 ≤ wClass w ∧ wClass w ≤ 0xD) (a c : State) : (if e = 0 then a else c) = c :=
    if_neg (ne_array_of_unknownClass hk h)
  unfold wordIssue
  split
  case h_7 =>
    split
    · exact ⟨_, _, rfl, winReasons_pos⟩
    · exact ⟨_, _, rfl, winReasons_pos⟩
    · exact ⟨_, _, rfl, winReasons_pos⟩
    · exact ⟨_, _, rfl, hone⟩
  case h_9 hc => exact ⟨_, _, hneither (by omega) .., hone⟩
  case h_10 hc => exact ⟨_, _, hneither (by omega) .., hone⟩
  case h_11 hc => exact ⟨_, _, hneither (by omega) .., hone⟩
  case h_12 hc => exact ⟨_, _, hnotArray (by omega) .., hone⟩
  case h_13 hc => exact ⟨_, _, hnotArray (by omega) .., hone⟩
  case h_14 => exact ⟨_, _, rfl, hone⟩
  all_goals
    rename_i hc
    simp [classKnown, hc] at hk

theorem issue_unknownClass {s : State} {e : Nat} {w : BitVec 256} (h : AtIssue s e) (hl : levelOk s w = true)
    (hk : classKnown e (wClass w) = false) : wordIssue e w s = hxrFault s e 0x0130 1 := by
  obtain ⟨bad, act, hw, hbad⟩ := wordIssue_unknownClass (s := s) hk
  rw [hw, issue_reason act h hl (lowest_unknownClass hk hbad)]

/-! ### The end of a word (R171 to R175) -/

/-- The loops and the next address after a word of engine `e`, which was `g0` before it. -/
def nextOf (s : State) (e : Nat) (w : BitVec 256) (g0 : Engine) : List Loop × Nat := nextPc s g0 (scalarOp s g0 (getE s e) w) w

/-- The engine as the end of a word leaves it. -/
def endedEngine (s : State) (e : Nat) (w : BitVec 256) (g0 : Engine) : Engine :=
  let g := stepAgs s g0 (scalarOp s g0 (getE s e) w) w (wRepeat w + 1)
  { g with loops := (nextOf s e w g0).1, pc := if wClass w == 5 then g.pc else (nextOf s e w g0).2, granted := false, st := .run,
           emits := if wEmit w then g.emits ++ [{ q := wEq w, after := g.eff, own := wClass w == 8 && decide (2 ≤ e) && decide (e < 6) }]
             else g.emits
           halted := wClass w == 5, cur := g0.pc }

/-- A word that ends the program, or whose next address lies in the store, changes its engine alone. -/
theorem finishWord_goesOn {s : State} {e : Nat} {w : BitVec 256} {g0 : Engine}
    (h : wClass w = 5 ∨ (nextOf s e w g0).2 < storeWords e) : finishWord s e w g0 = setE s e (endedEngine s e w g0) :=
  if_neg fun ⟨hc, hn⟩ => h.elim (fun h5 => by simp [h5] at hc) (Nat.not_lt.mpr hn)

theorem finishWord_pastStore {s : State} {e : Nat} {w : BitVec 256} {g0 : Engine} (hc : wClass w ≠ 5)
    (h : storeWords e ≤ (nextOf s e w g0).2) : finishWord s e w g0 =
      hxrFault (setE (setE s e (endedEngine s e w g0)) e { endedEngine s e w g0 with pc := g0.pc }) e 0x0130 6 :=
  if_pos ⟨by simpa using hc, h⟩

/-- A write of a register leaves the sequencing of its engine. -/
theorem regWrite_sequencing (g : Engine) (i : Nat) (v : BitVec 32) :
    (regWrite g i v).pc = g.pc ∧ (regWrite g i v).emits = g.emits ∧ (regWrite g i v).eff = g.eff := by
  unfold regWrite
  split
  · exact ⟨rfl, rfl, rfl⟩
  · split <;> exact ⟨rfl, rfl, rfl⟩

theorem scalarOp_sequencing (s : State) (g0 g : Engine) (w : BitVec 256) :
    (scalarOp s g0 g w).pc = g.pc ∧ (scalarOp s g0 g w).emits = g.emits ∧ (scalarOp s g0 g w).eff = g.eff := by
  unfold scalarOp
  dsimp only
  split
  · exact ⟨rfl, rfl, rfl⟩
  · exact regWrite_sequencing ..

theorem endedEngine_pc {s : State} {e : Nat} {w : BitVec 256} (g0 : Engine) (hc : wClass w ≠ 5) :
    (endedEngine s e w g0).pc = (nextOf s e w g0).2 := if_neg (by simpa using hc)

theorem endedEngine_pc_of_halt {s : State} {e : Nat} {w : BitVec 256} (g0 : Engine) (hc : wClass w = 5) :
    (endedEngine s e w g0).pc = (getE s e).pc := (if_pos (by simpa using hc)).trans (scalarOp_sequencing ..).1

theorem endedEngine_halted (s : State) (e : Nat) (w : BitVec 256) (g0 : Engine) : (endedEngine s e w g0).halted = (wClass w == 5) := rfl

/-- A cairn that the word emits stands behind the earlier ones and waits for the engine's effects up to now. -/
theorem endedEngine_emits_none {s : State} {e : Nat} {w : BitVec 256} (g0 : Engine) (h : wEmit w = false) :
    (endedEngine s e w g0).emits = (getE s e).emits := by
  obtain ⟨-, hemits, -⟩ := scalarOp_sequencing s g0 (getE s e) w
  simp [endedEngine, h, stepAgs, hemits]

theorem endedEngine_emits_one {s : State} {e : Nat} {w : BitVec 256} (g0 : Engine) (h : wEmit w = true) :
    ∃ m : Emit, m.q = wEq w ∧ m.after = (getE s e).eff ∧ (endedEngine s e w g0).emits = (getE s e).emits ++ [m] := by
  obtain ⟨-, hemits, heff⟩ := scalarOp_sequencing s g0 (getE s e) w
  refine ⟨{ q := wEq w, after := (getE s e).eff, own := wClass w == 8 && decide (2 ≤ e) && decide (e < 6) }, rfl, rfl, ?_⟩
  simp [endedEngine, h, stepAgs, hemits, heff]

/-! ### The next address (R172, R174, R175) -/

section
variable {g0 g : Engine} {w : BitVec 256}

theorem loopEnds_none {ls : List Loop} {a : Nat} (n : Nat) (h : innerLoop ls a = none) : loopEnds (n + 1) ls a = (ls, a + 1) := by
  simp only [loopEnds, h]

theorem nextPc_plain (s : State) (hl : wLoopOp w = 0) (hb : wBrOp w = 0) (hi : innerLoop g.loops g0.pc = none) :
    nextPc s g0 g w = (g.loops, g0.pc + 1) := by
  simp [nextPc, hl, hb, loopEnds_none 3 hi]

theorem nextPc_branch (s : State) (hl : wLoopOp w = 0) (hb : wBrOp w = 1) :
    nextPc s g0 g w = (loopsAtTarget g.loops (wBrTarget w), wBrTarget w) := by
  simp [nextPc, hl, hb]

theorem nextPc_begin (s : State) (hl : wLoopOp w = 1) (hs : wLoopSrc w = false) (hn : wLoopCount w ≠ 0) : nextPc s g0 g w =
    (g.loops.set (wLoopIdx w) { counter := wLoopCount w, first := g0.pc + 1, last := wLoopEnd w }, g0.pc + 1) := by
  simp [nextPc, hl, hs, hn]

end

/-! ### Sums in scalar registers and counters (R165, R166) -/

/-- The low 32 bits of an integer, read back signed, are the integer modulo 2^32. -/
theorem toInt_ofInt_emod (v : Int) : (BitVec.ofInt 32 v).toInt % 2 ^ 32 = v % 2 ^ 32 := by
  rw [BitVec.toInt_ofInt]
  exact Int.bmod_emod

theorem clampI_eq_min_max (x : Int) {lo hi : Int} (h : lo ≤ hi) : clampI x lo hi = min (max x lo) hi := by
  unfold clampI
  split
  · omega
  · split <;> omega

theorem scResult_add_counter (a b : BitVec 32) : (scResult 0x02 true a b).toInt % 2 ^ 32 =
    (min (max ((a.toNat : Int) + b.toInt) 0) 4294967295) % 2 ^ 32 := by
  show (BitVec.ofInt 32 (clampI _ 0 4294967295)).toInt % 2 ^ 32 = _
  rw [toInt_ofInt_emod, clampI_eq_min_max _ (by decide)]

/-- Settles O12: each refusal at issue is the first check that fails, and the end of a word is one replacement of its engine. -/
theorem wordsIssueAndFollow : Obligations.WordsIssueAndFollow := by
  unfold Obligations.WordsIssueAndFollow
  refine ⟨⟨fun s e w hc hst hh hs => ?issue, ?fault, ?halted, ?other, ?unknown⟩, ?goesOn, ?plain, ?branch, ?begin, ?sum, ?pastStore⟩
  case issue =>
    have h : AtIssue s e := ⟨hst, hh, hs⟩
    have hnop : exec (.nop e w) s = .next (issue s e w [] .act) := congrArg Host.Outcome.next (if_pos ⟨hc, rfl⟩)
    have hnone : commonReasons s e w = [] → lowest (commonReasons s e w ++ []) = none := fun hr => by rw [hr]; rfl
    rw [hnop]
    refine ⟨fun hl => ?_, fun r hl hr => ?_, fun hl hr hop hb => ?_, fun hl hr hop hw hg hq => ?_, fun hl hr hop hw hg hq => ?_⟩
    · rw [issue_badLevel _ h hl]
    · rw [issue_reason _ h hl (by rwa [List.append_nil])]
    · rw [issue_badLoop _ h hl (hnone hr) hop hb]
    · rw [issue_noCairn _ h hl (hnone hr) hop (takeCairn_none hw hg hq)]
    · rw [issue_cairn h hl (hnone hr) hop hw (takeCairn_head hw hg hq) rfl]
  case fault => exact fun _ _ _ _ => rfl
  case halted =>
    exact fun s e w hc hh => congrArg Host.Outcome.next ((if_pos ⟨hc, rfl⟩).trans (issue_halted w [] .act hh))
  case other => exact fun s e w hc => congrArg Host.Outcome.next (DrainLaws.asClass_other true (nopWord e w) s hc)
  case unknown => exact fun s e w hk hst hh hs hl => issue_unknownClass ⟨hst, hh, hs⟩ hl hk
  case goesOn =>
    intro s e w he hc hn
    simp only [finishWord_goesOn (g0 := getE s e) (.inr hn), getE_setE_same _ _ _ he]
    exact ⟨rfl, fun f hf => getE_setE_ne _ _ _ _ hf, rfl, (endedEngine_halted ..).trans (by simpa using hc), endedEngine_pc _ hc, rfl,
      rfl, rfl, endedEngine_emits_none _, endedEngine_emits_one _⟩
  case plain => exact fun s g w => nextPc_plain s
  case branch => exact fun s g w => nextPc_branch s
  case begin => exact fun s g w => nextPc_begin s
  case sum => exact fun a b => ⟨rfl, scResult_add_counter a b⟩
  case pastStore =>
    intro s e w he hc hn
    refine ⟨_, finishWord_pastStore hc hn, ?_, rfl⟩
    rw [getE_setE_same _ _ _ (by simpa [setE] using he)]

end Sys2Proof.WordLaws
end

section
/-! What the classes that every engine has do: generators, registers and comparators take what a word's payload says. -/

namespace Sys2Proof.WordLaws

open Sys2Proof Sys2Proof.Machine

/-! ### Entries of a list -/

theorem nth_set_same {α : Type} {l : List α} {i : Nat} (x d : α) (h : i < l.length) : nth (l.set i x) i d = x := by
  simp [nth, h]

theorem nth_set_ne {α : Type} {l : List α} {i j : Nat} (x d : α) (h : j ≠ i) : nth (l.set j x) i d = nth l i d := by
  simp [nth, h]

/-! ### AGSET (R163) -/

/-- Generators after one of them takes the half of an AGSET payload that begins at bit `lo`. -/
def agHalf (w : BitVec 256) (j lo : Nat) (ags : List Ag) : List Ag :=
  if wAgc w j = 2 then ags.set j (agParams (nth ags j {}) (pF w lo 60)) else ags

@[simp] theorem agHalf_length (w : BitVec 256) (j lo : Nat) (ags : List Ag) : (agHalf w j lo ags).length = ags.length := by
  unfold agHalf
  split <;> simp

theorem nth_agHalf_same {w : BitVec 256} {j lo : Nat} {ags : List Ag} (h : j < ags.length) : nth (agHalf w j lo ags) j {} =
    if wAgc w j = 2 then agParams (nth ags j {}) (pF w lo 60) else nth ags j {} := by
  unfold agHalf
  split
  · exact nth_set_same _ _ h
  · rfl

theorem nth_agHalf_ne {w : BitVec 256} {i j lo : Nat} {ags : List Ag} (h : j ≠ i) : nth (agHalf w j lo ags) i {} = nth ags i {} := by
  unfold agHalf
  split
  · exact nth_set_ne _ _ h
  · rfl

theorem getE_agSet {s : State} {e : Nat} (w : BitVec 256) (k : Nat) (he : e < s.hx.length) :
    (getE (agSet s e w k) e).ags = agHalf w (k + 1) 60 (agHalf w k 0 (getE s e).ags) :=
  congrArg Engine.ags (getE_setE_same _ _ _ he)

/-- Each of the two generators takes its own half. -/
theorem nth_agSet_low {s : State} {e k : Nat} (w : BitVec 256) (he : e < s.hx.length) (hk : k + 1 < (getE s e).ags.length) :
    nth (getE (agSet s e w k) e).ags k {} =
      if wAgc w k = 2 then agParams (nth (getE s e).ags k {}) (pF w 0 60) else nth (getE s e).ags k {} := by
  rw [getE_agSet w k he, nth_agHalf_ne (Nat.succ_ne_self k), nth_agHalf_same (Nat.lt_of_succ_lt hk)]

theorem nth_agSet_high {s : State} {e k : Nat} (w : BitVec 256) (he : e < s.hx.length) (hk : k + 1 < (getE s e).ags.length) :
    nth (getE (agSet s e w k) e).ags (k + 1) {} =
      if wAgc w (k + 1) = 2 then agParams (nth (getE s e).ags (k + 1) {}) (pF w 60 60) else nth (getE s e).ags (k + 1) {} := by
  rw [getE_agSet w k he, nth_agHalf_same (by simpa using hk), nth_agHalf_ne (Nat.succ_ne_self k).symm]

/-! ### SETS (R168, R170) -/

/-- The register that an entry of a SETS word names. -/
def setsReg (w : BitVec 256) (k : Nat) : Nat := pF w (38 * k + 32) 5

/-- The engine after one entry of a SETS word. -/
def setsEntry (w : BitVec 256) (g : Engine) (k : Nat) : Engine :=
  if setsEn w k then regWrite g (setsReg w k) (BitVec.ofNat 32 (pF w (38 * k) 32)) else g

theorem setsRegs_eq (g : Engine) (w : BitVec 256) : setsRegs g w = setsEntry w (setsEntry w (setsEntry w g 0) 1) 2 := rfl

theorem regWrite_sregs_length (g : Engine) (i : Nat) (v : BitVec 32) : (regWrite g i v).sregs.length = g.sregs.length := by
  unfold regWrite
  split
  · exact List.length_set
  · split <;> rfl

theorem nth_regWrite_same {g : Engine} {i : Nat} (v : BitVec 32) (hi : i < 16) (hg : g.sregs.length = 16) :
    nth (regWrite g i v).sregs i 0 = v := by
  simp only [regWrite, hi, if_true]
  exact nth_set_same _ _ (hg ▸ hi)

theorem nth_regWrite_ne {g : Engine} {i r : Nat} (v : BitVec 32) (h : i ≠ r) : nth (regWrite g i v).sregs r 0 = nth g.sregs r 0 := by
  unfold regWrite
  split
  · exact nth_set_ne _ _ h
  · split <;> rfl

theorem setsEntry_sregs_length (w : BitVec 256) (g : Engine) (k : Nat) : (setsEntry w g k).sregs.length = g.sregs.length := by
  unfold setsEntry
  split
  · exact regWrite_sregs_length ..
  · rfl

theorem nth_setsEntry_same {w : BitVec 256} {g : Engine} {k : Nat} (hk : setsEn w k = true) (hr : setsReg w k < 16)
    (hg : g.sregs.length = 16) : nth (setsEntry w g k).sregs (setsReg w k) 0 = BitVec.ofNat 32 (pF w (38 * k) 32) := by
  rw [setsEntry, if_pos hk]
  exact nth_regWrite_same _ hr hg

theorem nth_setsEntry_ne {w : BitVec 256} (g : Engine) {j r : Nat} (h : setsEn w j = true → setsReg w j ≠ r) :
    nth (setsEntry w g j).sregs r 0 = nth g.sregs r 0 := by
  unfold setsEntry
  split
  · exact nth_regWrite_ne _ (h ‹_›)
  · rfl

/-- An enabled entry's register holds its value unless a later entry names it too. -/
theorem nth_setsRegs {g : Engine} {w : BitVec 256} {k : Nat} (hk : k < 3) (hen : setsEn w k = true) (hr : setsReg w k < 16)
    (hg : g.sregs.length = 16) (hlast : ∀ j, k < j → j < 3 → setsEn w j = true → setsReg w j ≠ setsReg w k) :
    nth (setsRegs g w).sregs (setsReg w k) 0 = BitVec.ofNat 32 (pF w (38 * k) 32) := by
  have h1 : (setsEntry w g 0).sregs.length = 16 := (setsEntry_sregs_length ..).trans hg
  have h2 : (setsEntry w (setsEntry w g 0) 1).sregs.length = 16 := (setsEntry_sregs_length ..).trans h1
  rw [setsRegs_eq]
  obtain rfl | rfl | rfl : k = 0 ∨ k = 1 ∨ k = 2 := by omega
  · rw [nth_setsEntry_ne _ (hlast 2 (by decide) (by decide)), nth_setsEntry_ne _ (hlast 1 (by decide) (by decide)),
      nth_setsEntry_same hen hr hg]
  · rw [nth_setsEntry_ne _ (hlast 2 (by decide) (by decide)), nth_setsEntry_same hen hr h1]
  · exact nth_setsEntry_same hen hr h2

/-- The reasons that a SETS word gives on its own. -/
def setsReasons (w : BitVec 256) : List Nat :=
  rsvReason (pF w 114 6) ++ when ((List.range 3).any (fun k => setsEn w k && !regWritable (setsReg w k))) 3

theorem setsWord_eq (e : Nat) (w : BitVec 256) (s : State) :
    setsWord e w s = issue s e w (setsReasons w) (fun s => .act (setE s e (setsRegs (getE s e) w))) := rfl

theorem setsReasons_nil {w : BitVec 256} (hrsv : pF w 114 6 = 0) (hreg : ∀ k, k < 3 → setsEn w k = true → setsReg w k < 24) :
    setsReasons w = [] := by
  have hall : (List.range 3).any (fun k => setsEn w k && !regWritable (setsReg w k)) = false := by
    rw [List.any_eq_false]
    intro k hk
    have := hreg k (List.mem_range.mp hk)
    simpa [regWritable] using this
  simp [setsReasons, rsvReason, hrsv, hall, when]

/-- A reserved bit's reason is lower than a register's. -/
theorem lowest_setsReasons_reserved {w : BitVec 256} (hrsv : pF w 114 6 ≠ 0) : lowest (setsReasons w) = some 2 := by
  unfold setsReasons
  rw [rsvReason, if_neg hrsv]
  cases (List.range 3).any (fun k => setsEn w k && !regWritable (setsReg w k)) <;> rfl

theorem lowest_setsReasons_register {w : BitVec 256} {k : Nat} (hrsv : pF w 114 6 = 0) (hk : k < 3) (hen : setsEn w k = true)
    (hr : 24 ≤ setsReg w k) : lowest (setsReasons w) = some 3 := by
  have hany : (List.range 3).any (fun k => setsEn w k && !regWritable (setsReg w k)) = true :=
    List.any_eq_true.mpr ⟨k, List.mem_range.mpr hk, by simp [hen, regWritable, hr]⟩
  simp only [setsReasons, rsvReason, hrsv, hany, when, if_true, List.nil_append]
  rfl

/-! ### KSET (R167) -/

/-- The comparator that an entry of a KSET word configures. -/
def ksetCmp (w : BitVec 256) (k : Nat) : Cmp :=
  { en := pF w (30 * k) 1 == 1, srcA := pF w (30 * k + 1) 5, rel := pF w (30 * k + 6) 4, bkind := pF w (30 * k + 10) 1 == 1,
    b := pF w (30 * k + 11) 15 }

/-- The engine after one entry of a KSET word, and after its first `n`. -/
def ksetEntry (w : BitVec 256) (g : Engine) (k : Nat) : Engine :=
  if ksetWr w k then { g with cmps := g.cmps.set k (ksetCmp w k) } else g

def ksetFirst (w : BitVec 256) (g : Engine) (n : Nat) : Engine := (List.range n).foldl (ksetEntry w) g

theorem ksetCmps_eq (g : Engine) (w : BitVec 256) : ksetCmps g w = ksetFirst w g 4 := rfl

theorem ksetFirst_succ (w : BitVec 256) (g : Engine) (n : Nat) : ksetFirst w g (n + 1) = ksetEntry w (ksetFirst w g n) n := by
  simp [ksetFirst, List.range_succ]

theorem ksetFirst_cmps_length (w : BitVec 256) (g : Engine) (n : Nat) : (ksetFirst w g n).cmps.length = g.cmps.length := by
  induction n with
  | zero => rfl
  | succ n ih =>
    rw [ksetFirst_succ, ksetEntry]
    split
    · exact List.length_set.trans ih
    · exact ih

/-- A comparator is replaced by its own entry, where WR is set, and by no other. -/
theorem nth_ksetFirst {w : BitVec 256} {g : Engine} {k : Nat} (n : Nat) (hk : k < g.cmps.length) :
    nth (ksetFirst w g n).cmps k {} = if k < n ∧ ksetWr w k = true then ksetCmp w k else nth g.cmps k {} := by
  induction n with
  | zero => simp [ksetFirst]
  | succ n ih =>
    rw [ksetFirst_succ, ksetEntry]
    by_cases hn : n = k
    · subst hn
      by_cases hw : ksetWr w n = true
      · simp [hw, nth_set_same, ksetFirst_cmps_length, hk]
      · simp [hw, ih]
    · have hlt : k < n + 1 ↔ k < n := by omega
      simp only [hlt, ← ih]
      split
      · exact nth_set_ne _ _ hn
      · rfl

/-! ### HALT (R161, R191) -/

/-- HALT without a loop operation and a branch, and with no operation open on the array, is issued. -/
theorem haltReasons_nil {s : State} {e : Nat} {w : BitVec 256} (hbr : wBrOp w = 0) (hlo : wLoopOp w = 0) (hop : e = 0 → s.arr.op = none) :
    when (wBrOp w != 0 || wLoopOp w != 0) 9 ++ when (e == 0 && s.arr.op.isSome) 10 = [] := by
  have harr : (e == 0 && s.arr.op.isSome) = false := by
    by_cases he : e = 0
    · simp [hop he]
    · simp [he]
  simp [when, hbr, hlo, harr]

/-- Settles O13: a ready word of its row's class, with no reason of its own, ends as any word once its payload has acted. -/
theorem commonWordsAct : Obligations.CommonWordsAct := by
  unfold Obligations.CommonWordsAct
  refine ⟨?nop, ?agset, ?generators, ?sets, ?registers, ?setsReserved, ?setsRegister, ?kset, ?comparators, ?halt, ?haltDrain, ?other⟩
  case nop => exact fun s e w hr hc => congrArg Host.Outcome.next (DrainLaws.ownWord_acts (own := nopWord e w) rfl hc hr rfl rfl)
  case agset =>
    exact fun s e w hr =>
      ⟨fun hc => congrArg Host.Outcome.next (DrainLaws.ownWord_acts (own := agsetLoWord e w) rfl hc hr rfl rfl),
        fun hc => congrArg Host.Outcome.next (DrainLaws.ownWord_acts (own := agsetHiWord e w) rfl hc hr rfl rfl)⟩
  case generators =>
    intro s e k w he _ hk
    have hlow := nth_agSet_low w he hk
    have hhigh := nth_agSet_high w he hk
    exact ⟨fun h => by rw [hlow, if_pos h], fun h => by rw [hlow, if_neg h], fun h => by rw [hhigh, if_pos h],
      fun h => by rw [hhigh, if_neg h]⟩
  case sets =>
    exact fun s e w hr hc hrsv hreg =>
      congrArg Host.Outcome.next (DrainLaws.ownWord_acts (setsWord_eq e w s) hc hr (setsReasons_nil hrsv hreg) rfl)
  case registers => exact fun g w k hk hen hr hg hlast => nth_setsRegs hk hen hr hg hlast
  case setsReserved =>
    intro s e w hr hc hrsv
    exact congrArg Host.Outcome.next ((if_pos ⟨hc, rfl⟩).trans (issue_illegal s e w _ _ 2 hr (lowest_setsReasons_reserved hrsv)))
  case setsRegister =>
    intro s e k w hr hc hrsv hk hen hreg
    exact congrArg Host.Outcome.next ((if_pos ⟨hc, rfl⟩).trans
      (issue_illegal s e w _ _ 3 hr (lowest_setsReasons_register hrsv hk hen hreg)))
  case kset =>
    intro s e w hr hc hnone
    have hb : ((List.range 4).map (ksetReasons w)).flatten = [] := by simpa using hnone
    exact congrArg Host.Outcome.next (DrainLaws.ownWord_acts (own := ksetWord e w) rfl hc hr hb rfl)
  case comparators =>
    intro g w k hk hg
    have hcmp := nth_ksetFirst (w := w) (g := g) (k := k) 4 (by omega)
    rw [← ksetCmps_eq] at hcmp
    exact ⟨fun hw => hcmp.trans (if_neg (by simp [hw])), fun hw => hcmp.trans (if_pos ⟨hk, hw⟩)⟩
  case halt =>
    intro s e w hr hc hbr hlo hop he hd
    have hact : exec (.halt e w) s = .next (finishWord s e w (getE s e)) :=
      congrArg Host.Outcome.next (DrainLaws.ownWord_acts (own := haltWord e w) rfl hc hr (haltReasons_nil hbr hlo hop)
        (congrArg Eff.act (if_neg hd)))
    rw [finishWord_goesOn (.inl hc)] at hact
    refine ⟨_, hact, ?_, ?_, fun f hf => getE_setE_ne _ _ _ _ hf, rfl⟩
    · rw [getE_setE_same _ _ _ he, endedEngine_halted, hc]
      rfl
    · rw [getE_setE_same _ _ _ he, endedEngine_pc_of_halt _ hc]
  case haltDrain =>
    intro s w hr hc hbr hlo
    exact congrArg Host.Outcome.next (DrainLaws.ownWord_acts (own := haltWord 1 w) rfl hc hr (haltReasons_nil hbr hlo nofun) rfl)
  case other =>
    intro s e w
    have hother {c : Nat} (own : State → State) (hc : wClass w ≠ c) :
        (Host.Outcome.next (asClass c true e w own s) : Host.Outcome State Fault Refusal) = .next (wordIssue e w s) :=
      congrArg Host.Outcome.next (DrainLaws.asClass_other true own s hc)
    exact ⟨hother _, hother _, hother _, hother _, hother _⟩

end Sys2Proof.WordLaws
end

section
/-! The course of a program: its start from a register, its waits and holds, the cairns it emits, and its end. -/

namespace Sys2Proof.ProgramLaws

open Sys2Proof Sys2Proof.Machine

/-! ### Starts (R187, R188) -/

/-- An engine that a write of HXR_START may start, but for its preset record. -/
structure RegisterStartable (s : State) (e : Nat) : Prop where
  enabled : engEnable s e = true
  free : (getE s e).st = .idle ∨ (getE s e).st = .parked
  unarmed : itemArmed s e = false
  level : isSet s (F.HXR_STAT_LEVEL_BAD e) = false

theorem RegisterStartable.startRefusal_none {s : State} {e : Nat} (h : RegisterStartable s e) {r : Option Bytes}
    (hr : (r.map presetBad).getD false = false) : startRefusal s e r (itemArmed s e) = none := by
  have hfree : ¬ ((getE s e).st ≠ .idle ∧ (getE s e).st ≠ .parked) := fun hc => h.free.elim hc.1 hc.2
  simp [startRefusal, h.enabled, hfree, h.unarmed, h.level, hr]

theorem registerStart_bare {s : State} {e : Nat} (addr part : Nat) (h : RegisterStartable s e) :
    (registerStart s e addr part false).1 = beginEngine s e addr part none none (s.timeC + 1000) := by
  simp [registerStart, startEngine, h.startRefusal_none]

/-- The preset record is read once nothing else refuses the start. -/
theorem registerStart_preset {s : State} {e part : Nat} {d : Bytes} (addr : Nat) (h : RegisterStartable s e)
    (hd : busRead s (engMaster e part) .system (presetAddr s e) 128 = ⟨s, d, true, false, none⟩) (hgood : presetBad d = false) :
    (registerStart s e addr part true).1 = beginEngine s e addr part none (some d) (s.timeC + 1000) := by
  have hbare : startRefusal s e none (itemArmed s e) = none := h.startRefusal_none rfl
  have hrec : startRefusal s e (some d) (itemArmed s e) = none := h.startRefusal_none hgood
  unfold registerStart
  rw [if_pos ⟨rfl, by rw [hbare]; rfl⟩, hd]
  simp only [Bool.false_eq_true, if_false, startEngine, hrec]

theorem hxrStart_go {s : State} {m : Master} {e v : Nat} (hg : regGate s false (engBlock e) (hxrBank e % 0x10000 + 0xC) m v = .pass)
    (hgo : bitOf v 15 = true) : hxrStart m e v s = (registerStart s e (bitsOf v 0 14) (bitsOf v 16 3) (bitOf v 14)).1 := by
  simp only [hxrStart, gated, hg, hgo, if_true]

theorem getE_beginEngine {s : State} {e : Nat} (addr part : Nat) (i : Option (Nat × Nat)) (r : Option Bytes) (t : Nat)
    (he : e < s.hx.length) : getE (beginEngine s e addr part i r t) e =
      { freshEngine r with st := .run, pc := addr, part := part, item := i, staged := some t } := by
  unfold beginEngine
  exact getE_setE_same _ _ _ (by split <;> exact he)

/-- A start of the drain clears its chain; beyond that a start changes its engine alone. -/
theorem beginEngine_frame (s : State) (e addr part : Nat) (i : Option (Nat × Nat)) (r : Option Bytes) (t : Nat) :
    { beginEngine s e addr part i r t with hx := s.hx, drn := s.drn } = s := by
  unfold beginEngine
  split <;> rfl

theorem freshEngine_loops (r : Option Bytes) : (freshEngine r).loops = List.replicate 4 {} := by cases r <;> rfl

/-! ### Cairns (R178, R179, R181, R182) -/

theorem cairnWait_head {s : State} {e q : Nat} {x : QEntry} (hst : (getE s e).st = .wait) (hq : (getE s e).waitQ = some q)
    (hx : headQ s q = some x) (hc : x.cairn = true) :
    cairnWait e s = setE (popQ s q) e { getE s e with st := .run, waitQ := none, granted := true } := by
  simp only [cairnWait, hst, hq, hx, Option.any_some, hc, if_true]

/-- The oldest emitted cairn, once no earlier effect is unacknowledged, is offered to its queue. -/
theorem cairnEnter_oldest {s : State} {e : Nat} {m : Emit} {r : List Emit} (hm : (getE s e).emits = m :: r)
    (hack : unacked s e m.after = false) (hown : m.own = false) : cairnEnter e s =
      let p := postCairn (setE s e { getE s e with emits := r }) m.q (engCode e) (getE s e).part
      if p.2 then p.1 else engHalt p.1 e := by
  simp only [cairnEnter, hm, hack, hown, Bool.false_eq_true, false_and, if_false]

/-- A queue with the cairn of a producer behind its entries. -/
def withCairn (q : Queue) (tick producer part : Nat) : Queue :=
  { q with entries := q.entries ++ [{ cairn := true, data := cairnBytes q.seq tick producer part, producer := producer }],
           seq := (q.seq + 1) % 65536 }

theorem postCairn_taken {s : State} {q part : Nat} (producer : Nat) (h : qRefusal (getQ s q) part = none) :
    postCairn s q producer part = (setQ s q (withCairn (getQ s q) s.tick.num producer part), true) := by
  simp only [postCairn, h, withCairn]

theorem postCairn_refused {s : State} {q part c : Nat} (producer : Nat) (h : qRefusal (getQ s q) part = some c) :
    postCairn s q producer part = (qOverflow s q producer part c, false) := by
  simp only [postCairn, h]

/-! ### Holds (R76, R169, R222) -/

/-- The count of ACLK cycles in which the array sequencer was held. -/
def stalled (s : State) (n : Nat) : State := { s with arr := { s.arr with stall := s.arr.stall + n } }

theorem holdRelease_free {s : State} {e : Nat} (n : Nat) (hst : (getE s e).st = .held) (hfrozen : ∀ x ∈ s.sch.frozen, x.1 ≠ e)
    (hopen : ∀ x ∈ s.crd.wins, x.2.heldOpen.map (·.1) ≠ some e) : holdRelease e n s =
      setE (if e = 0 then stalled s n else s) e { getE s e with st := .run } := by
  have hf : s.sch.frozen.all (fun x => x.1 != e) = true := by simpa using hfrozen
  have hw : s.crd.wins.all (fun x => (x.2.heldOpen.map (·.1)) != some e) = true := by simpa using hopen
  have hheld : (getE s e).st = .held ∧ (s.sch.frozen.all (fun x => x.1 != e) = true ∨ midBlock s e = true) := ⟨hst, .inl hf⟩
  rw [holdRelease, if_pos hheld]
  by_cases he : e = 0
  · simp only [he, if_true] at hw ⊢
    exact if_pos hw
  · simp only [he, if_false]
    exact if_pos hw

/-! ### The end of a program (R46, R191) -/

/-- What a disable that waited for an engine's program to end leaves as it was. -/
structure SameBeyondDisable (s u : State) : Prop where
  hx : u.hx = s.hx
  tick : u.tick = s.tick
  mem : u.mem = s.mem
  qm : u.qm = s.qm
  flt : u.flt = s.flt
  sch : u.sch = s.sch

theorem applyDisable_same (s : State) (e : Nat) : SameBeyondDisable s (applyDisable s e) := by
  unfold applyDisable
  repeat' split
  all_goals exact ⟨rfl, rfl, rfl, rfl, rfl, rfl⟩

theorem stepEnded_noStep {s : State} (h : s.sch.run = none) : stepEnded s = s := by simp only [stepEnded, h]

/-- The reports of the tick unit take the index of the item, if there is one. -/
theorem reportEnd_eq (s : State) (i : Option (Nat × Nat)) :
    reportEnd s i = { s with tick := { s.tick with reports := s.tick.reports ++ (i.map (·.1)).toList } } := by
  cases i with
  | none => simp [reportEnd]
  | some x => rfl

/-- Of an engine that is neither stream DMA engine 0 nor an ISP pipe, and outside a step, the end of a program is that engine's alone. -/
theorem programEnd_alone {s : State} {e : Nat} (hh : (getE s e).halted = true) (hem : (getE s e).emits = [])
    (hd : unitDone s e = true) (h2 : e ≠ 2) (hpipe : e < 7 ∨ 11 ≤ e) (hrun : s.sch.run = none) :
    programEnd e s = reportEnd (applyDisable (setE s e (idleEngine (getE s e))) e) (getE s e).item := by
  have hlane : ¬ (7 ≤ e ∧ e < 11) := by omega
  have hnone : (reportEnd (applyDisable (setE s e (idleEngine (getE s e))) e) (getE s e).item).sch.run = none := by
    rw [reportEnd_eq]
    exact (congrArg Sch.run (applyDisable_same _ e).sch).trans hrun
  simp only [programEnd, hh, hem, hd, and_self, if_true, hlane, if_false, h2, stepEnded_noStep hnone]

/-- Settles O20, a clause for each command: where nothing refuses the start, the cairn or the release, each is one replacement of the
engine, beside the queue of a cairn, the array's count of stalls and the reports of the tick unit. -/
theorem programsStartWaitAndEnd : Obligations.ProgramsStartWaitAndEnd := by
  unfold Obligations.ProgramsStartWaitAndEnd
  refine ⟨?start, ?begun, ?wait, ?enter, ?refused, ?held, ?ended⟩
  case start =>
    intro s m e v hg hgo hen hst harm hlev
    have h : RegisterStartable s e := ⟨hen, hst, harm, hlev⟩
    have hexec := congrArg (Host.Outcome.next (φ := Fault) (ρ := Refusal)) (hxrStart_go hg hgo)
    refine ⟨fun hrec => ?_, fun d hrec hd hgood => ?_⟩
    · rw [hrec, registerStart_bare _ _ h] at hexec
      exact hexec
    · rw [hrec, registerStart_preset _ h hd hgood] at hexec
      exact hexec
  case begun =>
    intro s e addr part t i r he
    rw [getE_beginEngine addr part i r t he]
    exact ⟨rfl, rfl, rfl, rfl, fun hr => by rw [hr]; rfl, freshEngine_loops r, beginEngine_frame ..⟩
  case wait => exact fun s e q x hst hq hx hc => congrArg Host.Outcome.next (cairnWait_head hst hq hx hc)
  case enter =>
    intro s e m r hm hack hown hq
    have hpost := postCairn_taken (s := setE s e { getE s e with emits := r }) (engCode e) hq
    have henter := cairnEnter_oldest hm hack hown
    simp only [hpost, if_true] at henter
    refine ⟨_, congrArg Host.Outcome.next henter, ?_, ?_, rfl, rfl⟩ <;> rw [getQ_setQ_same] <;> rfl
  case refused =>
    intro s e c m r hm hack hown hq
    have hpost := postCairn_refused (s := setE s e { getE s e with emits := r }) (engCode e) hq
    have henter := cairnEnter_oldest hm hack hown
    simp only [hpost, Bool.false_eq_true, if_false] at henter
    exact congrArg Host.Outcome.next henter
  case held =>
    intro s e n hst hfrozen hopen
    have hfree := congrArg (Host.Outcome.next (φ := Fault) (ρ := Refusal)) (holdRelease_free n hst hfrozen hopen)
    refine ⟨fun he => ?_, fun he => ?_⟩
    · rw [if_neg he] at hfree
      exact hfree
    · rw [if_pos he] at hfree
      exact hfree
  case ended =>
    intro s e hh hem hd he h2 hpipe hrun
    have hend := programEnd_alone hh hem hd h2 hpipe hrun
    rw [reportEnd_eq] at hend
    obtain ⟨hx, htick, hmem, hqm, hflt, -⟩ := applyDisable_same (setE s e (idleEngine (getE s e))) e
    have hidle : getE (applyDisable (setE s e (idleEngine (getE s e))) e) e = idleEngine (getE s e) := by
      rw [getE, hx]
      exact getE_setE_same s e _ he
    refine ⟨_, congrArg Host.Outcome.next hend, congrArg Engine.st hidle, congrArg Engine.halted hidle, congrArg Engine.item hidle, ?_, hmem,
      hqm, hflt⟩
    show (applyDisable _ e).tick.reports ++ _ = _
    rw [htick]
    rfl

end Sys2Proof.ProgramLaws
end

section
/-! The reads of a stream DMA engine that nothing refuses, and the issue of an XFER word: its descriptor comes into force, and it ends once
its last one is done. -/

namespace Sys2Proof.TransferLaws

open Sys2Proof Sys2Proof.Machine

/-! ### A stream DMA engine -/

theorem getD_setD_same {s : State} {e : Nat} (x : DmaEng) (h : e - 2 < s.dma.length) : getD (setD s e x) e = x := by
  simp [getD, setD, nth, h]

theorem setD_setD (s : State) (e : Nat) (x y : DmaEng) : setD (setD s e x) e y = setD s e y := by simp [setD]

/-- Two states agree about everything but the sequencing of the engines and their stream DMA units. -/
def SameButEngines (s t : State) : Prop := { t with hx := s.hx, dma := s.dma } = s

theorem SameButEngines.setE (s : State) (e : Nat) (v : Engine) : SameButEngines s (setE s e v) := rfl

theorem SameButEngines.setD (s : State) (e : Nat) (x : DmaEng) : SameButEngines s (setD s e x) := rfl

theorem SameButEngines.trans {s t u : State} (h : SameButEngines s t) (g : SameButEngines t u) : SameButEngines s u := by
  unfold SameButEngines at *
  rw [← g] at h
  simpa using h

/-- The last word is in force until its bursts have been issued. -/
theorem wordNow_only {d : DmaEng} {w : DmaWord} (hw : d.words = [w]) (hi : w.issued = false) : wordNow d = some w := by
  simp [wordNow, hw, hi]

/-! ### Reads (R36, R369, R466, R527) -/

theorem busGate_ember_pass {s : State} {m : Master} {a len : Nat} (port : Port) (hr : region a = .ember)
    (hlast : region (a + len - 1) = .ember) (hp : m.part = 0) : busGate s m port a len false = .pass := by
  simp [busGate, sameRegion, isCs, tileClosed, filterPass, hr, hlast, hp]

/-- A read of Ember memory by an engine of partition 0 gives its bytes where no word of its row is bad. -/
theorem dmaRead_ember {s : State} {m : Master} {a len : Nat} (hr : region a = .ember) (hlast : region (a + len - 1) = .ember)
    (hp : m.part = 0) (hbad : ∀ k ∈ rowWords a, tabGet s.mapu.bad k 0 = 0) :
    dmaRead s m false a len = ⟨s, memRead s.mem a len, true, false, none⟩ := by
  have htile : dmaNoTile a = false := by simp only [dmaNoTile, hr]
  simp only [dmaRead, htile, Bool.false_eq_true, if_false, busRead, busGate_ember_pass _ hr hlast hp, hr, ArrayLaws.eccRead_clean m hbad]

/-- What lets an access to DRAM pass. -/
theorem busGate_dram_pass_iff {s : State} {m : Master} {port : Port} {a len data : Nat} {write : Bool} (hr : region a = .dram) :
    busGate s m port a len write data = .pass ↔
      sameRegion a len = true ∧ filterPass s m a len = true ∧ dramDenied s (fromCore m) a len write = none := by
  have hcs : isCs a = false := by simp only [isCs, hr]
  have htile : tileClosed m port a write = false := by simp only [tileClosed, hr]
  have hlock : tileLocked s a = false := by simp only [tileLocked, hr, Bool.and_false]
  simp only [busGate, hr, hcs, htile, hlock, ArrayLaws.ite_refused_eq_pass, ArrayLaws.ite_silent_eq_pass, Bool.and_false,
    Bool.false_eq_true, not_false_eq_true, true_and, Bool.not_eq_true', Bool.not_eq_false]
  cases dramDenied s (fromCore m) a len write <;> simp

/-- None of this looks at the stream DMA engines. -/
theorem busGate_dram_setD {s : State} {m : Master} {port : Port} {a len data : Nat} {write : Bool} (e : Nat) (x : DmaEng)
    (hr : region a = .dram) (h : busGate s m port a len write data = .pass) : busGate (setD s e x) m port a len write data = .pass := by
  obtain ⟨hrange, hfilter, hdenied⟩ := (busGate_dram_pass_iff hr).mp h
  exact (busGate_dram_pass_iff hr).mpr ⟨hrange, hfilter, hdenied⟩

/-- No block of DRAM that a read touches has an error that in-band ECC would find. -/
def DramSound (s : State) (a n : Nat) : Prop :=
  isSet s F.DRC_CFG_IBECC = true → ∀ w ∈ blockWords a n, tabGet s.mapu.bad w 0 = 0

theorem dramEcc_sound {s : State} (m : Master) {a n : Nat} (h : DramSound s a n) : dramEcc s m a n = (s, false) := by
  unfold dramEcc
  split
  case isTrue => rfl
  case isFalse hset =>
    have hgood := h (by simpa using hset)
    have hone : (blockWords a n).any (fun w => tabGet s.mapu.bad w 0 == 1) = false := by
      rw [List.any_eq_false]
      intro w hw
      simp [hgood w hw]
    have hmore : (blockWords a n).any (fun w => decide (2 ≤ tabGet s.mapu.bad w 0)) = false := by
      rw [List.any_eq_false]
      intro w hw
      simp [hgood w hw]
    simp only [hone, Bool.false_eq_true, if_false, hmore]

/-- A value that a table lists at a key is the key's entry. -/
theorem mem_of_tabGet {α : Type} {t : Tab α} {k : Nat} {d : α} (h : tabGet t k d ≠ d) : (k, tabGet t k d) ∈ t := by
  unfold tabGet at h ⊢
  split
  case h_1 x hx =>
    have hk : x.1 = k := by simpa using List.find?_some hx
    exact hk ▸ List.mem_of_find?_eq_some hx
  case h_2 hx => exact absurd (by rw [hx]) h

/-- The errors of DRAM once a read of blocks has written the correctable ones back. -/
def writtenBackBad (s : State) (a n : Nat) : Tab Nat := s.mapu.bad.filter (fun x => !(x.2 == 1 && (blockWords a n).contains x.1))

/-- A read of blocks first writes back those with a correctable error and reports them (R369). -/
def dramCorrected (s : State) (a n : Nat) : State :=
  if (blockWords a n).any (fun w => tabGet s.mapu.bad w 0 == 1) then
    raise { s with mapu := { s.mapu with bad := writtenBackBad s a n } } false 0x0164 1 none drcBlock 0xFFFF []
  else s

theorem dramEcc_checked {s : State} (m : Master) (a n : Nat) (h : isSet s F.DRC_CFG_IBECC = true) : dramEcc s m a n =
    if (blockWords a n).any (fun w => decide (2 ≤ tabGet (dramCorrected s a n).mapu.bad w 0)) then
      (raise (dramCorrected s a n) false 0x0165 2 (some m.part) drcBlock 0xFFFF [a, (dramPos (dramCorrected s a n) a).ch, m.code], true)
    else (dramCorrected s a n, false) :=
  if_neg (by simp [h])

/-- A correction does not leave the state: the errors it wrote back are gone. -/
theorem no_correctable_of_dramCorrected {s : State} {a n : Nat} (h : dramCorrected s a n = s) :
    ∀ w ∈ blockWords a n, tabGet s.mapu.bad w 0 ≠ 1 := by
  intro w hw hone
  have hany : (blockWords a n).any (fun w => tabGet s.mapu.bad w 0 == 1) = true := List.any_eq_true.mpr ⟨w, hw, by simp [hone]⟩
  have hbad : (dramCorrected s a n).mapu.bad = writtenBackBad s a n := by
    rw [dramCorrected, if_pos hany]
    exact (congrArg (fun u : State => u.mapu.bad) (raise_same _ false 0x0164 1 none drcBlock 0xFFFF []) :)
  have hkept : writtenBackBad s a n = s.mapu.bad := hbad.symm.trans (by rw [h])
  have hmem : (w, 1) ∈ s.mapu.bad := hone ▸ mem_of_tabGet (by rw [hone]; decide)
  simpa [hw] using List.filter_eq_self.mp hkept _ hmem

/-- A read that leaves the state and is not poisoned found no error. -/
theorem dramSound_of_dramEcc {s : State} {m : Master} {a n : Nat} (h : dramEcc s m a n = (s, false)) : DramSound s a n := by
  intro hset w hw
  rw [dramEcc_checked m a n hset] at h
  split at h
  case isTrue => exact absurd (congrArg Prod.snd h) (by simp)
  case isFalse hmore =>
    have hs : dramCorrected s a n = s := congrArg Prod.fst h
    have hlt : ¬ 2 ≤ tabGet s.mapu.bad w 0 := fun hge =>
      hmore (List.any_eq_true.mpr ⟨w, hw, by rw [hs]; exact decide_eq_true hge⟩)
    have hne := no_correctable_of_dramCorrected hs w hw
    omega

/-- A read of DRAM that passes and finds no error gives its bytes. -/
theorem dmaRead_dram {s : State} {m : Master} {a n : Nat} (hr : region a = .dram) (hg : busGate s m (.dma false) a n false = .pass)
    (hecc : DramSound s a n) : dmaRead s m false a n = ⟨s, memRead s.mem a n, true, false, none⟩ := by
  have htile : dmaNoTile a = false := by simp only [dmaNoTile, hr]
  simp only [dmaRead, htile, Bool.false_eq_true, if_false, busRead, hg, hr, dramEcc_sound m hecc]

/-! ### XFER (R215, R241, R242) -/

/-- An XFER word that may act and that its payload gives no reason against. -/
structure XferIssues (s : State) (e : Nat) (w : BitVec 256) : Prop where
  low : 2 ≤ e
  high : e < 6
  ready : ready s e w = true
  isXfer : wClass w = 8
  noLayby : laybyDue s e = false
  taglim : pF w 18 9 ≤ 256
  reserved : pF w 41 79 = 0
  srcReg : pF w 8 5 < 30
  dstReg : pF w 13 5 < 30

theorem XferIssues.exec_eq {s : State} {e : Nat} {w : BitVec 256} (h : XferIssues s e w) :
    exec (.xfer e w) s = .next (issue s e w [] (xferAct e w)) := by
  have heng : (decide (2 ≤ e) && decide (e < 6)) = true := by simp [h.low, h.high]
  have hreasons : when (decide (256 < pF w 18 9)) 1 ++ rsvReason (pF w 41 79)
      ++ when (!regReadable (pF w 8 5) || !regReadable (pF w 13 5)) 3 = [] := by
    simp [when, rsvReason, regReadable, h.reserved, h.srcReg, h.dstReg, Nat.not_lt.mpr h.taglim]
  rw [← hreasons]
  exact congrArg Host.Outcome.next (if_pos ⟨h.isXfer, heng⟩)

theorem XferIssues.exec_act {s t : State} {e : Nat} {w : BitVec 256} (h : XferIssues s e w) (ha : xferAct e w s = .act t) :
    exec (.xfer e w) s = .next (finishWord t e w (getE s e)) := by
  rw [h.exec_eq, issue_ready s e w [] _ h.ready rfl, ha]

theorem XferIssues.exec_stay {s t : State} {e : Nat} {w : BitVec 256} (h : XferIssues s e w) (ha : xferAct e w s = .stay t) :
    exec (.xfer e w) s = .next (setE t e { getE t e with cur := (getE s e).pc }) := by
  rw [h.exec_eq, issue_ready s e w [] _ h.ready rfl, ha]

/-- The addresses of the descriptors that an XFER word reads, in order. -/
def xferDescs (g : Engine) (w : BitVec 256) : List Nat :=
  ((agWord (nth g.ags 0 {}) (wAgc w 0) (wRepeat w + 1)).1.map (fun p =>
    (List.range (if pF w 0 8 = 0 then 256 else pF w 0 8)).map (fun k => (agAddr (nth g.ags 0 {}) p + 64 * k) % 2 ^ 48))).flatten

/-- The word that an XFER word brings into force. -/
def xferWordOf (s : State) (e : Nat) (w : BitVec 256) : DmaWord :=
  let g := getE s e
  { serial := g.eff + 1, pc := g.pc, descs := xferDescs g w, srcOff := (regRead s g (pF w 8 5)).toInt,
    dstOff := (regRead s g (pF w 13 5)).toInt, taglim := if pF w 18 9 = 0 then 256 else pF w 18 9,
    post := if pF w 27 1 = 1 then some (pF w 28 13) else none, emit := if wEmit w then some (wEq w) else none }

/-- The state in which it is in force. -/
def xferBegun (s : State) (e : Nat) (w : BitVec 256) : State :=
  setE (setD s e { getD s e with words := (getD s e).words ++ [xferWordOf s e w] }) e { getE s e with eff := (getE s e).eff + 1 }

theorem xferAct_begins {s : State} {e : Nat} {w : BitVec 256} (hlay : laybyDue s e = false) (hnow : wordNow (getD s e) = none) :
    xferAct e w s = fetchDesc (xferBegun s e w) e (xferWordOf s e w) := by
  simp only [xferAct, hlay, Bool.false_eq_true, if_false, hnow]
  rfl

theorem xferAct_ends {s : State} {e : Nat} {w : BitVec 256} {x : DmaWord} (hlay : laybyDue s e = false)
    (hnow : wordNow (getD s e) = some x) (hx : (getD s e).xfer = none) (hn : x.descs.length ≤ x.next) :
    xferAct e w s = .act (setD s e (setWord (getD s e) { x with issued := true })) := by
  simp only [xferAct, hlay, Bool.false_eq_true, if_false, hnow, hx, Nat.not_lt.mpr hn]

theorem agAddr_lt (a : Ag) (p : Int) : agAddr a p < 2 ^ 48 := by
  unfold agAddr wrapU
  omega

theorem agCycles_succ (n : Nat) (a : Ag) (agc : Nat) :
    (agCycles (n + 1) a agc).1 = a.p :: (agCycles n (if agc = 0 then a else agAdvance a) agc).1 := rfl

/-- The first descriptor stands in the row that the generator gives in the word's first cycle. -/
theorem nth_xferDescs_zero (g : Engine) (w : BitVec 256) :
    nth (xferDescs g w) 0 0 = agAddr (nth g.ags 0 {}) (agFirst (nth g.ags 0 {}) (wAgc w 0)).p := by
  obtain ⟨n, hn⟩ : ∃ n, (if pF w 0 8 = 0 then 256 else pF w 0 8) = n + 1 := Nat.exists_eq_succ_of_ne_zero (by split <;> omega)
  have hmod := Nat.mod_eq_of_lt (agAddr_lt (nth g.ags 0 {}) (agFirst (nth g.ags 0 {}) (wAgc w 0)).p)
  simp only [xferDescs, hn, agWord, agCycles_succ, List.map_cons, List.range_succ_eq_map, List.flatten_cons, List.cons_append, Nat.mul_zero,
    Nat.add_zero, hmod]
  rfl

/-- A descriptor in Ember memory that partition 0 reads without error and that passes the checks of R242 comes into force. -/
theorem fetchDesc_ember {s : State} {e a : Nat} {w : DmaWord} {raw : Bytes} (ha : nth w.descs w.next 0 = a) (hr : region a = .ember)
    (hlast : region (a + 63) = .ember) (hp : (getE s e).part = 0) (hbad : ∀ k ∈ rowWords a, tabGet s.mapu.bad k 0 = 0)
    (hraw : addOffsets (memRead s.mem a 64) w.srcOff w.dstOff = raw) (hd : descBad s 0 false raw = none) :
    fetchDesc s e w = .stay (setD s e { getD s e with xfer := some { idx := w.next, addr := a, raw := raw } }) := by
  have hread := dmaRead_ember (m := engMaster e (getE s e).part) (len := 64) hr hlast hp hbad
  have htile : dmaNoTile a = false := by simp only [dmaNoTile, hr]
  have hpart : (engMaster e (getE s e).part).part = 0 := hp
  simp only [fetchDesc, ha, hr, hread, htile, hraw, hpart, hd, Bool.false_eq_true, if_false, reduceCtorEq, false_and, or_self]

/-- Only the key slots of the state enter the checks of a descriptor. -/
theorem descBad_of_sec {s u : State} (h : u.sec = s.sec) (part : Nat) (boot : Bool) (r : Bytes) :
    descBad u part boot r = descBad s part boot r := by
  have hslot : keySlot u part (xSlot r) = keySlot s part (xSlot r) := by simp only [keySlot, h]
  unfold descBad
  rw [hslot]

/-- With its first descriptor the word stays in force. -/
theorem XferIssues.exec_first {s : State} {e a : Nat} {w : BitVec 256} {raw : Bytes} (h : XferIssues s e w) (he : e < s.hx.length)
    (hdma : e - 2 < s.dma.length) (hnow : wordNow (getD s e) = none)
    (ha : agAddr (nth (getE s e).ags 0 {}) (agFirst (nth (getE s e).ags 0 {}) (wAgc w 0)).p = a) (hr : region a = .ember)
    (hlast : region (a + 63) = .ember) (hp : (getE s e).part = 0) (hbad : ∀ k ∈ rowWords a, tabGet s.mapu.bad k 0 = 0)
    (hraw : addOffsets (memRead s.mem a 64) (xferWordOf s e w).srcOff (xferWordOf s e w).dstOff = raw)
    (hd : descBad s 0 false raw = none) :
    ∃ t, exec (.xfer e w) s = .next t ∧ getD t e = { getD s e with
        words := (getD s e).words ++ [xferWordOf s e w], xfer := some { idx := 0, addr := a, raw := raw } } ∧
      { t with hx := s.hx, dma := s.dma } = s := by
  have hbegun : getE (xferBegun s e w) e = { getE s e with eff := (getE s e).eff + 1 } := getE_setE_same _ _ _ he
  have hwords : getD (xferBegun s e w) e = { getD s e with words := (getD s e).words ++ [xferWordOf s e w] } := getD_setD_same _ hdma
  have hfirst : nth (xferWordOf s e w).descs (xferWordOf s e w).next 0 = a := (nth_xferDescs_zero (getE s e) w).trans ha
  have hpart : (getE (xferBegun s e w) e).part = 0 := by rw [hbegun]; exact hp
  have hchecked : descBad (xferBegun s e w) 0 false raw = none := (descBad_of_sec rfl 0 false raw).trans hd
  have hfetch := fetchDesc_ember hfirst hr hlast hpart hbad hraw hchecked
  rw [← xferAct_begins h.noLayby hnow] at hfetch
  refine ⟨_, h.exec_stay hfetch, ?_, (((SameButEngines.setD s e _).trans (.setE _ e _)).trans (.setD _ e _)).trans (.setE _ e _)⟩
  rw [hwords]
  exact getD_setD_same _ (by simpa [xferBegun, setD] using hdma)

end Sys2Proof.TransferLaws
end

section
/-! The transfers of a stream DMA engine: a COPY within one line of DRAM, a line of a TENSOR, a CSLOAD, a SMALL, and the boot port. -/

namespace Sys2Proof.TransferLaws

open Sys2Proof Sys2Proof.Machine

/-! ### The transfer in force (R215, R247, R248) -/

theorem xferReady_of {s : State} {e op : Nat} {x : DmaXfer} {w : DmaWord} (hst : (getE s e).st = .run)
    (hnow : wordNow (getD s e) = some w) (hx : (getD s e).xfer = some x) (hop : xOp x.raw = op) : xferReady s e op = some x := by
  simp [xferReady, hst, hnow, hx, hop]

theorem xfer_of_xferReady {s : State} {e op : Nat} {x : DmaXfer} (h : xferReady s e op = some x) : (getD s e).xfer = some x := by
  unfold xferReady at h
  split at h
  · exact (Option.filter_eq_some_iff.mp h).1
  · cases h

/-- A transfer without credits ends: the next descriptor of its word follows. -/
theorem endXfer_untiled {s : State} {e : Nat} {x : DmaXfer} {w : DmaWord} (hx : (getD s e).xfer = some x)
    (hnow : wordNow (getD s e) = some w) (ht : x.tile = none) :
    endXfer s e = setD s e (setWord { getD s e with xfer := none } { w with next := w.next + 1 }) := by
  simp only [endXfer, hx, hnow, ht]

theorem setWord_only {d : DmaEng} {w y : DmaWord} (hw : d.words = [w]) (hs : w.serial = y.serial) :
    setWord d y = { d with words := [y] } := by
  simp [setWord, hw, hs]

/-! ### COPY (R238, R243) -/

/-- A COPY of one burst, within a line of DRAM on each side, in clear, is the transfer in force of engine `e`, which holds no tag; its
word is `w`, and the read that it makes passes without error. -/
structure OneBurst (s : State) (e : Nat) (w : DmaWord) (x : DmaXfer) : Prop where
  inRange : e - 2 < s.dma.length
  words : (getD s e).words = [w]
  toIssue : w.issued = false
  inForce : (getD s e).xfer = some x
  clear : xCrypt x.raw = 0
  status : x.status = 0
  start : x.pos = 0
  noTile : x.tile = none
  noEntry : s.sch.phase ≠ 1
  bursts : (getD s e).bursts = []
  orphan : (getD s e).orphan = 0
  taglim : 0 < w.taglim
  tagsLeft : withheld s (e - 2) < 256
  nonempty : 0 < xLen x.raw
  srcLine : xSrc x.raw % 512 + xLen x.raw ≤ 512
  dstLine : xDst x.raw % 512 + xLen x.raw ≤ 512
  src : region (xSrc x.raw) = .dram
  dst : region (xDst x.raw) = .dram
  srcAt : region (swizzle (xSrc x.raw) (xMask x.raw false)) = .dram
  passes : busGate s (engMaster e (getE s e).part) (.dma false) (swizzle (xSrc x.raw) (xMask x.raw false)) (xLen x.raw) false = .pass
  sound : DramSound s (swizzle (xSrc x.raw) (xMask x.raw false)) (xLen x.raw)

section
variable {s : State} {e : Nat} {w : DmaWord} {x : DmaXfer}

/-- The transfer once it has begun: without CRYPT it reads no header and takes no nonce. -/
def openedPlain (x : DmaXfer) : DmaXfer := { x with opened := true, tile := tileOf (xDst x.raw), nonce := [] }

theorem openXfer_clear (hc : xCrypt x.raw = 0) : openXfer s e x = .inr (setD s e { getD s e with xfer := some (openedPlain x) }) := by
  simp [openXfer, tagHeader, hc, openedPlain]

theorem tileOf_dram {a : Nat} (h : region a = .dram) : tileOf a = none := by simp only [tileOf, h]

theorem OneBurst.opened (h : OneBurst s e w x) :
    OneBurst (setD s e { getD s e with xfer := some (openedPlain x) }) e w (openedPlain x) := by
  have hd := getD_setD_same { getD s e with xfer := some (openedPlain x) } h.inRange
  exact {
    inRange := by simpa [setD] using h.inRange
    words := by rw [hd]; exact h.words
    toIssue := h.toIssue
    inForce := by rw [hd]
    clear := h.clear
    status := h.status
    start := h.start
    noTile := tileOf_dram h.dst
    noEntry := h.noEntry
    bursts := by rw [hd]; exact h.bursts
    orphan := by rw [hd]; exact h.orphan
    taglim := h.taglim
    tagsLeft := h.tagsLeft
    nonempty := h.nonempty
    srcLine := h.srcLine
    dstLine := h.dstLine
    src := h.src
    dst := h.dst
    srcAt := h.srcAt
    passes := busGate_dram_setD e _ h.srcAt h.passes
    sound := h.sound }

/-- The burst of such a COPY. -/
def onlyBurst (s : State) (w : DmaWord) (x : DmaXfer) : DmaBurst :=
  { word := w.serial, desc := x.idx, dst := swizzle (xDst x.raw) (xMask x.raw true),
    data := memRead s.mem (swizzle (xSrc x.raw) (xMask x.raw false)) (xLen x.raw), src := swizzle (xSrc x.raw) (xMask x.raw false),
    page := xFlags x.raw % 4, cs := xOp x.raw == 2, win := xWin x.raw }

/-- The engine with that burst in flight. -/
def burstOut (s : State) (e : Nat) (w : DmaWord) (x : DmaXfer) : DmaEng :=
  { getD s e with xfer := some { x with pos := xLen x.raw }, bursts := [onlyBurst s w x] }

theorem OneBurst.copyBurst_eq (h : OneBurst s e w x) : copyBurst s e w x (getE s e) = .inr (setD s e (burstOut s e w x)) := by
  have hlen : min (xLen x.raw) (min (512 - xSrc x.raw % 512) (512 - xDst x.raw % 512)) = xLen x.raw := by
    have := h.srcLine
    have := h.dstLine
    omega
  have hread := dmaRead_dram h.srcAt h.passes h.sound
  have hsrc := tileOf_dram h.src
  have hdst := tileOf_dram h.dst
  simp only [copyBurst, h.start, Nat.add_zero, Nat.sub_zero, hlen, h.src, h.dst, hsrc, hdst, h.clear, hread, if_true, if_false,
    bne_self_eq_false, Bool.false_eq_true, reduceCtorEq, Option.isSome_none, false_and, pushBurst, getD_setD_same _ h.inRange, setD_setD,
    h.bursts, List.nil_append, Nat.zero_add]
  rfl

/-- The steps of the loop over a transfer's bursts: one burst, and the end. -/
theorem copyLoop_burst {t : State} {n : Nat} (hx : (getD s e).xfer = some x) (hnow : wordNow (getD s e) = some w)
    (hlay : laybyDue s e = false) (hst : x.status = 0) (hpos : x.pos < xLen x.raw)
    (htag : tagsOut (getD s e) < min w.taglim (256 - withheld s (e - 2))) (hdst : tileOf (xDst x.raw + x.pos) = none)
    (hb : copyBurst s e w x (getE s e) = .inr t) : copyLoop e (n + 1) s = copyLoop e n t := by
  have hmore : ¬ (x.status ≠ 0 ∨ xLen x.raw ≤ x.pos) := by omega
  simp only [copyLoop, hx, hnow, hlay, Bool.false_eq_true, if_false, hmore, Nat.not_le.mpr htag, hdst, Option.any_none, hb]

theorem copyLoop_done {n : Nat} (hx : (getD s e).xfer = some x) (hnow : wordNow (getD s e) = some w) (hlay : laybyDue s e = false)
    (hpos : xLen x.raw ≤ x.pos) : copyLoop e (n + 1) s = endXfer s e := by
  simp only [copyLoop, hx, hnow, hlay, Bool.false_eq_true, if_false, hpos, or_true, if_true]

theorem laybyDue_none (h : s.sch.phase ≠ 1) : laybyDue s e = false := by simp [laybyDue, h]

/-- The engine once the COPY has ended: its burst is in flight, and its word goes on to the next descriptor. -/
def copyEnded (s : State) (e : Nat) (w : DmaWord) (x : DmaXfer) : DmaEng :=
  { getD s e with xfer := none, bursts := [onlyBurst s w x], words := [{ w with next := w.next + 1 }] }

theorem OneBurst.copyLoop_eq (h : OneBurst s e w x) : copyLoop e (xLen x.raw + 1) s = setD s e (copyEnded s e w x) := by
  obtain ⟨n, hn⟩ := Nat.exists_eq_succ_of_ne_zero (Nat.ne_of_gt h.nonempty)
  have htag : tagsOut (getD s e) < min w.taglim (256 - withheld s (e - 2)) := by
    have := h.taglim
    have := h.tagsLeft
    simp only [tagsOut, h.bursts, h.orphan, List.length_nil]
    omega
  have hdst : tileOf (xDst x.raw + x.pos) = none := by rw [h.start]; exact tileOf_dram h.dst
  have hout : getD (setD s e (burstOut s e w x)) e = burstOut s e w x := getD_setD_same _ h.inRange
  have hnow : wordNow (burstOut s e w x) = some w := wordNow_only h.words h.toIssue
  calc copyLoop e (xLen x.raw + 1) s
      = copyLoop e (xLen x.raw) (setD s e (burstOut s e w x)) :=
        copyLoop_burst h.inForce (wordNow_only h.words h.toIssue) (laybyDue_none h.noEntry) h.status (by rw [h.start]; exact h.nonempty)
          htag hdst h.copyBurst_eq
    _ = endXfer (setD s e (burstOut s e w x)) e := by
        rw [hn]
        exact copyLoop_done (congrArg DmaEng.xfer hout) (by rw [hout]; exact hnow) (laybyDue_none h.noEntry) (Nat.le_refl _)
    _ = setD s e (copyEnded s e w x) := by
        rw [endXfer_untiled (congrArg DmaEng.xfer hout) (by rw [hout]; exact hnow) h.noTile, hout, setD_setD]
        exact congrArg (setD s e) (setWord_only h.words rfl)

/-- DMA_COPY, whether or not the transfer had begun. -/
theorem OneBurst.dmaCopy_eq (h : OneBurst s e w x) (hst : (getE s e).st = .run) (hop : xOp x.raw = 0)
    (hfence : bitOf (xFlags x.raw) 5 = false) : dmaCopy e s = setD s e (copyEnded s e w x) := by
  have hready := xferReady_of hst (wordNow_only h.words h.toIssue) h.inForce hop
  have hfree : fenced s e x = false := by simp [fenced, hfence]
  cases hopen : x.opened
  case true => simpa [dmaCopy, hready, hfree, hopen] using h.copyLoop_eq
  case false =>
    have hloop : copyLoop e (xLen x.raw + 1) _ = _ := h.opened.copyLoop_eq
    have hend : copyEnded (setD s e { getD s e with xfer := some (openedPlain x) }) e w (openedPlain x) = copyEnded s e w x := by
      rw [copyEnded, getD_setD_same _ h.inRange]
      rfl
    rw [hend, setD_setD] at hloop
    simpa [dmaCopy, hready, hfree, hopen, openXfer_clear h.clear] using hloop

end

end Sys2Proof.TransferLaws
end

section
/-! A line of a TENSOR, a CSLOAD, a SMALL and the boot port. -/

namespace Sys2Proof.TransferLaws

open Sys2Proof Sys2Proof.Machine

/-! ### TENSOR (R228, R238, R244) -/

section
variable {s u : State} {e : Nat} {x : DmaXfer}

theorem dmaTensor_opened (hr : xferReady s e 1 = some x) (hf : fenced s e x = false) (ho : x.opened = true) :
    dmaTensor e s = settleCommits (tensorLoop e (((tdesc s (xDst x.raw)).alloc / 512 + 2) * 1024) s) e := by
  simp only [dmaTensor, hr, hf, ho, Bool.false_eq_true, if_false, if_true]

theorem dmaTensor_opens (hr : xferReady s e 1 = some x) (hf : fenced s e x = false) (ho : x.opened = false)
    (hu : openTensor s e x = .inr u) :
    dmaTensor e s = settleCommits (tensorLoop e (((tdesc u (xDst x.raw)).alloc / 512 + 2) * 1024) u) e := by
  simp only [dmaTensor, hr, hf, ho, hu, Bool.false_eq_true, if_false]

theorem dmaTensor_stops (hr : xferReady s e 1 = some x) (hf : fenced s e x = false) (ho : x.opened = false)
    (hu : openTensor s e x = .inl u) : dmaTensor e s = u := by
  simp only [dmaTensor, hr, hf, ho, hu, Bool.false_eq_true, if_false]

end

/-- The source line of an element that a destination element takes, if it reads one. -/
def sourceLine (sd dd : TDesc) (no : Nat) : Option Nat :=
  (sd.coords (accessAt dd no).1 (accessAt dd no).2.1 (accessAt dd no).2.2.1 (accessAt dd no).2.2.2).map sd.lineOf

/-- Where one source line holds all the elements of a destination line, it is the source of each. -/
theorem sourceLine_only {sd dd : TDesc} {nos : List Nat} {no l : Nat} (hn : no ∈ nos)
    (hone : (sourceLines sd (nos.map (accessAt dd))).length ≤ 1) (hl : sourceLine sd dd no = some l) :
    (sourceLines sd (nos.map (accessAt dd)))[0]? = some l := by
  have hmem : l ∈ sourceLines sd (nos.map (accessAt dd)) :=
    List.mem_eraseDups.mpr (List.mem_filterMap.mpr ⟨_, List.mem_map_of_mem hn, hl⟩)
  match sourceLines sd (nos.map (accessAt dd)), hone, hmem with
  | [k], _, hk => exact congrArg some (List.mem_singleton.mp hk).symm

/-- A read of elements whose lines pass gives the codes at their coordinates. -/
theorem tensRead_passed {s : State} {m : Master} {port : Port} {d : TDesc} {cs : List (Int × Int × Int × Int)}
    (hg : gateLines s m port false (fun _ => 0) (sourceLines d cs) = (s, [], false)) :
    tensRead s m port d cs = (s, cs.map (fun c => d.read s.mem c.1 c.2.1 c.2.2.1 c.2.2.2), false) := by
  have hlines : (((cs.map (fun c => d.coords c.1 c.2.1 c.2.2.1 c.2.2.2)).filterMap (fun c => c.map d.lineOf)).eraseDups) = sourceLines d cs := by
    simp only [sourceLines, List.filterMap_map, Function.comp_def]
  simp only [tensRead, hlines, hg, List.map_map, Prod.mk.injEq, true_and, and_true]
  refine List.map_congr_left fun c _ => ?_
  simp only [Function.comp_apply, TDesc.read]
  cases d.coords c.1 c.2.1 c.2.2.1 c.2.2.2 <;> rfl

theorem map_nth_range {α : Type} (l : List α) (d : α) : (List.range l.length).map (fun i => nth l i d) = l :=
  List.ext_getElem (by simp) fun i _ hi => by simp [nth, hi]

/-- Two lists of one length, paired by their indices. -/
def paired (l m : List Nat) : Tab Nat := (List.range l.length).map (fun i => (nth l i 0, nth m i 0))

theorem paired_fst (l m : List Nat) : (paired l m).map (·.1) = l := by
  simpa [paired, Function.comp_def] using map_nth_range l 0

theorem paired_snd {l m : List Nat} (h : m.length = l.length) : (paired l m).map (·.2) = m := by
  simpa [paired, Function.comp_def, h] using map_nth_range m 0

/-- The first and only burst of a destination line carries each of its elements with the code that its source reads. -/
theorem tensorBurst_wholeLine {s s1 : State} {e p : Nat} {x : DmaXfer} {sd dd : TDesc} (w : DmaWord)
    (hne : lineElems dd x.pos ≠ []) (ht : tileOf sd.base = none) (hsub : x.sub = 0)
    (hone : (sourceLines sd ((lineElems dd x.pos).map (accessAt dd))).length ≤ 1)
    (hs1 : s1 = setD s e { getD s e with xfer := some { x with pos := x.pos + 1, sub := 0 } })
    (hg : gateLines s1 (engMaster e p) (.dma false) false (fun _ => 0) (sourceLines sd ((lineElems dd x.pos).map (accessAt dd))) =
      (s1, [], false))
    (hun : srcUnreach s1 (engMaster e p) sd ((lineElems dd x.pos).map (accessAt dd)) = false) :
    ∃ b : DmaBurst, tensorBurst s e w x sd dd p = .inr (pushBurst s1 e b none) ∧ b.els.map (·.1) = lineElems dd x.pos ∧
      b.els.map (·.2) = (lineElems dd x.pos).map (fun o => sd.read s.mem (accessAt dd o).1 (accessAt dd o).2.1 (accessAt dd o).2.2.1
        (accessAt dd o).2.2.2) := by
  have hlast : (sourceLines sd ((lineElems dd x.pos).map (accessAt dd))).length ≤ 0 + 1 := hone
  have hread := tensRead_passed hg
  unfold tensorBurst
  dsimp only
  rw [List.filter_eq_self.mpr ?mine]
  case mine =>
    intro no hn
    have hline := fun l => sourceLine_only (sd := sd) (dd := dd) (l := l) hn hone
    unfold sourceLine at hline
    split
    · simp [hsub, hline _ ‹_›]
    · simp [hsub]
  simp only [hsub, hlast, if_true, ← hs1, hne, if_false, ht, Option.isSome_none, Bool.false_eq_true, false_and, hun, hread]
  refine ⟨_, rfl, paired_fst _ _, ?_⟩
  rw [show s.mem = s1.mem by rw [hs1]; rfl]
  exact (paired_snd (by simp)).trans List.map_map

/-! ### CSLOAD (R185, R186, R245) -/

section
variable {s u : State} {e : Nat} {x : DmaXfer}

theorem dmaCsload_opened (hr : xferReady s e 2 = some x) (hf : fenced s e x = false) (hl : storeLocked s (xDst x.raw) = false)
    (ho : x.opened = true) : dmaCsload e s = copyLoop e (xLen x.raw + 1) s := by
  simp only [dmaCsload, hr, hf, hl, ho, Bool.false_eq_true, if_false, if_true]

theorem dmaCsload_opens (hr : xferReady s e 2 = some x) (hf : fenced s e x = false) (hl : storeLocked s (xDst x.raw) = false)
    (ho : x.opened = false) (hu : openXfer (clearLevelBad s (xDst x.raw)) e x = .inr u) :
    dmaCsload e s = copyLoop e (xLen x.raw + 1) u := by
  simp only [dmaCsload, hr, hf, hl, ho, hu, Bool.false_eq_true, if_false]

theorem dmaCsload_locked (hr : xferReady s e 2 = some x) (hf : fenced s e x = false) (hl : storeLocked s (xDst x.raw) = true) :
    dmaCsload e s = engHalt (csLocked s (engMaster e (getE s e).part) (engBlock e) (engItem s e) (xDst x.raw)) e := by
  simp only [dmaCsload, hr, hf, hl, Bool.false_eq_true, if_false, if_true]

end

/-! ### SMALL (R246, R259, R260) -/

/-- A footpath tag is free for the master with a code: it holds none, and no master waits for one. -/
structure TagFree (s : State) (code : Nat) : Prop where
  held : s.fp.held = []
  granted : s.fp.granted.contains code = false
  waiting : s.fp.waiting = []
  tags : s.fp.held.length + s.fp.granted.length < 64

theorem TagFree.smallTag_eq {s : State} {k : FpAcc} (h : TagFree s k.code) : smallTag s k = some s := by
  have hheld : s.fp.held.contains k = false := by simp [h.held]
  have hfree : fpTags s < 64 ∧ s.fp.waiting.isEmpty = true := ⟨h.tags, by simp [h.waiting]⟩
  simp only [smallTag, hheld, h.granted, hfree, and_self, Bool.false_eq_true, if_false, if_true]

/-- The footpath access of a SMALL that goes to DRAM. -/
def dramPart (x : DmaXfer) (p : Nat × Bytes) : Nat := swizzle p.1 (xMask x.raw true)

/-- The state once such an access has been done: its bytes are written and counted, and the next access follows. -/
def smallWritten (s : State) (e : Nat) (w : DmaWord) (x : DmaXfer) (p : Nat × Bytes) : State :=
  let u := countBytes (memPut s (dramPart x p) p.2) e w.serial (partBytes x.raw p)
  setD u e { getD u e with xfer := some { x with pos := x.pos + 1 } }

section
variable {s : State} {e : Nat} {w : DmaWord} {x : DmaXfer} {p : Nat × Bytes}

theorem smallLoop_written {n : Nat} (hx : (getD s e).xfer = some x) (hnow : wordNow (getD s e) = some w)
    (hp : (smallParts x.raw)[x.pos]? = some p) (htag : TagFree s (engCode e)) (hr : region p.1 = .dram)
    (hg : busGate s (engMaster e (getE s e).part) (.dma false) (dramPart x p) p.2.length true (leVal (p.2.take 4)) = .pass) :
    smallLoop e (n + 1) s = smallLoop e n (smallWritten s e w x p) := by
  have ht := tileOf_dram hr
  have hgo : smallTag s (FpAcc.mk (engMaster e (getE s e).part).code (engMaster e (getE s e).part).part p.1 p.2.length (some p.2)) = some s :=
    TagFree.smallTag_eq htag
  unfold dramPart at hg
  simp only [smallLoop, hx, hnow, hp, hgo, ht, hr, if_true, busWrite, hg, reduceCtorEq, if_false]
  rfl

theorem smallLoop_done {n : Nat} (hx : (getD s e).xfer = some x) (hnow : wordNow (getD s e) = some w)
    (hp : (smallParts x.raw)[x.pos]? = none) : smallLoop e (n + 1) s = endXfer s e := by
  simp only [smallLoop, hx, hnow, hp]

/-- A word with `n` bytes more written (R250). -/
def bytesCounted (w : DmaWord) (n : Nat) : DmaWord := { w with bytes := min (w.bytes + n) 0xFFFFFFFF }

theorem countBytes_dma_length (ser n : Nat) : (countBytes s e ser n).dma.length = s.dma.length := List.length_set

/-- Beside its unit the write is all that such an access does. -/
theorem setD_smallWritten (d : DmaEng) : setD (smallWritten s e w x p) e d = setD (memPut s (dramPart x p) p.2) e d := by
  simp only [smallWritten, countBytes, setD_setD]

theorem getD_countBytes_only {n : Nat} (hd : e - 2 < s.dma.length) (hw : (getD s e).words = [w]) :
    getD (countBytes s e w.serial n) e = { getD s e with words := [bytesCounted w n] } := by
  rw [countBytes, getD_setD_same _ hd]
  simp [hw, bytesCounted]

theorem getD_smallWritten (hd : e - 2 < s.dma.length) (hw : (getD s e).words = [w]) : getD (smallWritten s e w x p) e =
    { getD s e with words := [bytesCounted w (partBytes x.raw p)], xfer := some { x with pos := x.pos + 1 } } := by
  have hcount := getD_countBytes_only (s := memPut s (dramPart x p) p.2) (n := partBytes x.raw p) hd hw
  rw [smallWritten]
  dsimp only
  rw [hcount]
  exact getD_setD_same _ (by rw [countBytes_dma_length]; exact hd)

/-- A SMALL of one access to DRAM, with a tag free, writes its bytes and ends. -/
theorem smallLoop_one {n : Nat} (hd : e - 2 < s.dma.length) (hw : (getD s e).words = [w]) (hi : w.issued = false)
    (hx : (getD s e).xfer = some x) (ht : x.tile = none) (hpos : x.pos = 0) (hp : smallParts x.raw = [p])
    (htag : TagFree s (engCode e)) (hr : region p.1 = .dram)
    (hg : busGate s (engMaster e (getE s e).part) (.dma false) (dramPart x p) p.2.length true (leVal (p.2.take 4)) = .pass) :
    ∃ d, smallLoop e (n + 2) s = setD (memPut s (dramPart x p) p.2) e d ∧ d.xfer = none := by
  have hafter := getD_smallWritten (x := x) (p := p) hd hw
  have hfirst : (smallParts x.raw)[x.pos]? = some p := by rw [hp, hpos]; rfl
  have hlast : (smallParts x.raw)[x.pos + 1]? = none := by rw [hp, hpos]; rfl
  have hnow : wordNow (getD (smallWritten s e w x p) e) = some (bytesCounted w (partBytes x.raw p)) := by
    rw [hafter]
    exact wordNow_only rfl hi
  have hx' := congrArg DmaEng.xfer hafter
  refine ⟨setWord { getD (smallWritten s e w x p) e with xfer := none } { bytesCounted w (partBytes x.raw p) with next := w.next + 1 }, ?_, rfl⟩
  calc smallLoop e (n + 2) s
      = smallLoop e (n + 1) (smallWritten s e w x p) := smallLoop_written hx (wordNow_only hw hi) hfirst htag hr hg
    _ = endXfer (smallWritten s e w x p) e := smallLoop_done hx' hnow hlast
    _ = _ := (endXfer_untiled hx' hnow ht).trans (setD_smallWritten _)

theorem dmaSmall_goes (hr : xferReady s e 3 = some x) (hf : fenced s e x = false) (hb : smallBehind s e x = false) :
    dmaSmall e s = smallLoop e 65 s := by
  simp only [dmaSmall, hr, hf, hb, Bool.or_self, Bool.false_eq_true, if_false]

end

/-! ### The boot port (R245) -/

section
variable {s : State} {m : Master} {raw : Bytes}

theorem bootPortDescriptor_taken (hm : m.secure = true) (hlen : raw.length = 64) (hb : s.bootPort = none) (hc : compDown s = false) :
    bootPortDescriptor m raw s = runBootPort { s with bootPort := some raw } := by
  simp [bootPortDescriptor, hm, hlen, hb, hc]

theorem runBootPort_waits (h : (getE s 2).st ≠ .idle) (h' : (getE s 2).st ≠ .parked) :
    runBootPort { s with bootPort := some raw } = { s with bootPort := some raw } :=
  if_neg fun hc => hc.elim h h'

/-- The port is empty again before the descriptor runs. -/
theorem runBootPort_runs (h : (getE s 2).st = .idle ∨ (getE s 2).st = .parked) (hb : s.bootPort = none) :
    runBootPort { s with bootPort := some raw } = bootCsload s raw := by
  have hempty : { s with bootPort := none } = s := by rw [← hb]
  calc runBootPort { s with bootPort := some raw } = bootCsload { s with bootPort := none } raw := if_pos h
    _ = bootCsload s raw := by rw [hempty]

end

/-- Settles O21, a clause for each command: with the hypotheses of its clause each transfer goes through the checks on its way to the loop
over its bursts or accesses, which runs once and ends it. -/
theorem transfersMoveBytes : Obligations.TransfersMoveBytes := by
  unfold Obligations.TransfersMoveBytes
  refine ⟨?first, ?last, ?other, ?copy, ?tensor, ?line, ?csload, ?small, ?bootPort⟩
  case first =>
    intro s e a w hlo hhi he hd hr hc hlay htag hrsv hsrc hdst hnow ha hreg hlast hp hbad hok
    obtain ⟨t, hexec, hunit, hframe⟩ :=
      XferIssues.exec_first ⟨hlo, hhi, hr, hc, hlay, htag, hrsv, hsrc, hdst⟩ he hd hnow ha hreg hlast hp hbad rfl hok
    refine ⟨t, xferWordOf s e w, hexec, ?_, rfl, rfl, ?_, ?_, hframe⟩ <;> rw [hunit] <;> rfl
  case last =>
    exact fun s e w x hlo hhi hr hc hlay htag hrsv hsrc hdst hnow hx hn =>
      XferIssues.exec_act ⟨hlo, hhi, hr, hc, hlay, htag, hrsv, hsrc, hdst⟩ (xferAct_ends hlay hnow hx hn)
  case other =>
    intro s e w h
    refine congrArg Host.Outcome.next (if_neg fun ⟨hc, heng⟩ => ?_)
    have hrange : 2 ≤ e ∧ e < 6 := by simpa using heng
    omega
  case copy =>
    intro s e x w _ hd hst hw hi hx hop hcrypt hfence hstatus hpos ht hphase hbursts horphan htag hleft hlen hsl hdl hsrc hdst hat hg hecc
    have h : OneBurst s e w x := ⟨hd, hw, hi, hx, hcrypt, hstatus, hpos, ht, hphase, hbursts, horphan, htag, hleft, hlen, hsl, hdl, hsrc,
      hdst, hat, hg, dramSound_of_dramEcc hecc⟩
    have hunit := getD_setD_same (copyEnded s e w x) hd
    refine ⟨_, onlyBurst s w x, congrArg Host.Outcome.next (h.dmaCopy_eq hst hop hfence), ?_, rfl, rfl, rfl, ?_, ?_, rfl⟩ <;> rw [hunit] <;>
      rfl
  case tensor =>
    exact fun s e x hr hf => ⟨fun ho => congrArg Host.Outcome.next (dmaTensor_opened hr hf ho),
      fun u ho hu => congrArg Host.Outcome.next (dmaTensor_opens hr hf ho hu),
      fun u ho hu => congrArg Host.Outcome.next (dmaTensor_stops hr hf ho hu)⟩
  case line =>
    intro s s1 e p w x sd dd _ hd hne ht hsub hone hs1 hg hun
    obtain ⟨b, hburst, hnos, hcodes⟩ := tensorBurst_wholeLine w hne ht hsub hone hs1 hg hun
    subst hs1
    refine ⟨_, b, hburst, ?_, hnos, hcodes, ?_⟩
    · rw [pushBurst, getD_setD_same _ hd, setD_setD, getD_setD_same _ hd]
    · rw [pushBurst, setD_setD]
      rfl
  case csload =>
    exact fun s e x hr hf => ⟨fun hl ho => congrArg Host.Outcome.next (dmaCsload_opened hr hf hl ho),
      fun u hl ho hu => congrArg Host.Outcome.next (dmaCsload_opens hr hf hl ho hu),
      fun hl => congrArg Host.Outcome.next (dmaCsload_locked hr hf hl)⟩
  case small =>
    intro s e x w _ hd hready hw hi ht hpos hf hb htags hwait hheld hgranted _ hparts hr _ hg
    obtain ⟨d, hloop, hnone⟩ := smallLoop_one (n := 63) hd hw hi (xfer_of_xferReady hready) ht hpos hparts ⟨hheld, hgranted, hwait, htags⟩
      hr hg
    refine ⟨_, congrArg Host.Outcome.next ((dmaSmall_goes hready hf hb).trans hloop), rfl, ?_, rfl⟩
    rw [getD_setD_same (s := memPut s _ _) _ hd, hnone]
  case bootPort =>
    intro s m raw hm hlen hb hc
    have htaken := bootPortDescriptor_taken hm hlen hb hc
    exact ⟨fun h h' => congrArg Host.Outcome.next (htaken.trans (runBootPort_waits h h')),
      fun h => congrArg Host.Outcome.next (htaken.trans (runBootPort_runs h hb))⟩

end Sys2Proof.TransferLaws
end

section
/-! The words of the array sequencer: what each of them does when it may act, and how OPBEGIN is refused. -/

namespace Sys2Proof.ArrayLaws

open Sys2Proof Sys2Proof.Machine

/-! ### OPBEGIN (R201, R94 to R96) -/

/-- OPBEGIN has no reason of its own with a width of 1 to 256, formats that are not reserved, no operation open, no reserved bit and
no REPEAT. -/
theorem opbeginReasons_nil {s : State} {w : BitVec 256} (hn : pF w 2 4 < 9) (hw : pF w 6 4 < 9) (hlo : 1 ≤ pF w 11 9)
    (hhi : pF w 11 9 ≤ 256) (hop : s.arr.op = none) (hrsv : pF w 44 76 = 0) (hrep : wRepeat w = 0) :
    when (pF w 11 9 == 0 || decide (256 < pF w 11 9) || decide (8 < pF w 2 4) || decide (8 < pF w 6 4) || s.arr.op.isSome) 1
      ++ rsvReason (pF w 44 76) ++ singleCycle w = [] := by
  have h0 : (pF w 11 9 == 0) = false := by simpa using Nat.one_le_iff_ne_zero.mp hlo
  simp [when, rsvReason, singleCycle, h0, hhi, Nat.le_of_lt_succ hn, Nat.le_of_lt_succ hw, hop, hrsv, hrep]

/-- OPBEGIN need not hold: no column group settles, the array is enabled, and no retirement is to be applied. -/
structure OpensNow (s : State) : Prop where
  settled : s.arr.settling = []
  enabled : isSet s F.ARR_CTL_ENABLE = true
  noRetirement : s.arr.retireReq = []

/-- The check of R201 on what a payload names. -/
def payloadRefusal (s : State) (w : BitVec 256) : Option Nat :=
  opRefusal s (pF w 0 2) (pF w 2 4) (pF w 6 4) (pF w 10 1 == 1) (pF w 11 9) (getE s 0).part

/-- What no check refuses opens, unless it has to do without the checksums that its partition asks for. -/
theorem opBegin_opens {s : State} {w : BitVec 256} (h : OpensNow s) (hr : payloadRefusal s w = none)
    (hc : bitOf (getF s F.ARR_CHK_CTL_PART_EN) (getE s 0).part = false ∨ chkAvail s = true) :
    opBegin 0 w s = .act { s with arr := { s.arr with
      op := some { opOf s w (getE s 0).part with ser := s.arr.opened + 1 }, opened := s.arr.opened + 1 } } := by
  have hchk : (bitOf (getF s F.ARR_CHK_CTL_PART_EN) (getE s 0).part && !chkAvail s) = false := by
    rcases hc with hc | hc <;> simp [hc]
  unfold payloadRefusal at hr
  simp only [opBegin, opOf, h.settled, h.enabled, h.noRetirement, hr, hchk, List.isEmpty_nil, Bool.not_true, Bool.false_and,
    Bool.or_self, Bool.false_eq_true, if_false]

/-- A refused operation stops the array with ARRAY_CONFIG and the check's reason, and the shadow registers keep a loaded set (R95). -/
theorem opBegin_refused {s : State} {w : BitVec 256} {r : Nat} (h : OpensNow s) (hr : payloadRefusal s w = some r) :
    opBegin 0 w s = .stopped { engFault s 0 0x0110 [r] with arr := { (engFault s 0 0x0110 [r]).arr with
      shadow := s.arr.shadow.filter (fun l => l.set.isSome) } } := by
  unfold payloadRefusal at hr
  simp only [opBegin, opOf, h.settled, h.enabled, h.noRetirement, hr, List.isEmpty_nil, Bool.not_true, Bool.false_and,
    Bool.or_self, Bool.false_eq_true, if_false]

/-! ### LOAD, FILL, SAFE and OPEND (R202, R206 to R208) -/

theorem loadReasons_nil {s : State} {w : BitVec 256} {o : ArrOp} (ho : s.arr.op = some o) (hk : 1 ≤ pF w 0 11) (hk' : pF w 0 11 ≤ 1024)
    (hn : 1 ≤ pF w 11 9) (hn' : pF w 11 9 ≤ o.wdecl) (hm : o.mode ≠ 1) (hs : s.arr.shadow = none)
    (hrow : pF w 20 10 + setRows o.fmtN (pF w 0 11) (pF w 11 9) ≤ 768) (hrsv : pF w 30 90 = 0) (hrep : wRepeat w = 0) :
    loadReasons s w ++ rsvReason (pF w 30 90) ++ singleCycle w = [] := by
  have hk0 : (pF w 0 11 == 0) = false := by simpa using Nat.one_le_iff_ne_zero.mp hk
  have hn0 : (pF w 11 9 == 0) = false := by simpa using Nat.one_le_iff_ne_zero.mp hn
  simp [loadReasons, when, rsvReason, singleCycle, ho, hk0, hk', hn0, hn', hm, hs, hrow, hrsv, hrep]

theorem regReadable_of_lt {r : Nat} (h : r < 30) : regReadable r = true := by simp [regReadable, h]

theorem fillReasons_nil {w : BitVec 256} (hn : 1 ≤ pF w 11 10) (hrow : pF w 1 10 + pF w 11 10 ≤ 768) (hb : pF w 26 3 ≤ 5)
    (hrsv : pF w 29 91 = 0) (hreg : pF w 21 5 < 30) (hrep : wRepeat w = 0) :
    when (pF w 11 10 == 0 || decide (768 < pF w 1 10 + pF w 11 10) || decide (5 < pF w 26 3)) 1
      ++ rsvReason (pF w 29 91) ++ when (!regReadable (pF w 21 5)) 3 ++ singleCycle w = [] := by
  have hn0 : (pF w 11 10 == 0) = false := by simpa using Nat.one_le_iff_ne_zero.mp hn
  simp [when, rsvReason, singleCycle, hn0, hrow, hb, hrsv, regReadable_of_lt hreg, hrep]

/-- A FILL to a tile memory with fewer than four pending queues its copy, which is the engine's next effect. -/
theorem fillAct_queues {s : State} {w : BitVec 256} (h : (s.arr.fills.filter (fun f => f.tgt == pF w 0 1)).length < 4) :
    fillAct 0 w s = .act (setE { s with arr := { s.arr with fills := s.arr.fills ++
      [{ tgt := pF w 0 1, trow := pF w 1 10, rows := pF w 11 10, src := (regRead s (getE s 0) (pF w 21 5)).toNat, nblog := pF w 26 3,
         serial := (getE s 0).eff + 1 }] } } 0 { getE s 0 with eff := (getE s 0).eff + 1 }) := by
  simp only [fillAct, Nat.not_le.mpr h, if_false]

theorem runs_of_ready {s : State} {e : Nat} {w : BitVec 256} (h : ready s e w = true) : (getE s e).st = .run := by
  simp only [ready, Bool.and_eq_true, beq_iff_eq] at h
  obtain ⟨⟨⟨⟨⟨⟨hst, -⟩, -⟩, -⟩, -⟩, -⟩, -⟩ := h
  exact hst

/-- A SAFE word that is ready and without a reserved bit ends as any word. -/
theorem issue_safe {s : State} {w : BitVec 256} (hr : ready s 0 w = true) (hrsv : pF w 0 120 = 0) :
    issue s 0 w (rsvReason (pF w 0 120)) .act = finishWord s 0 w (getE s 0) := issue_ready s 0 w _ _ hr (if_pos hrsv)

/-- Where no lay-by is requested SAFE does no more than that. -/
theorem safeWord_noRequest {s : State} {w : BitVec 256} (hr : ready s 0 w = true) (hrsv : pF w 0 120 = 0) (hp : s.sch.phase ≠ 3) :
    safeWord 0 w s = finishWord s 0 w (getE s 0) := by
  rw [safeWord, issue_safe hr hrsv]
  exact if_neg fun ⟨_, _, _, _, h⟩ => hp h

/-- At a safe point the entry of a requested lay-by begins once the word has ended. -/
theorem safeWord_atSafePoint {s : State} {w : BitVec 256} (hr : ready s 0 w = true) (hrsv : pF w 0 120 = 0) (hp : s.sch.phase = 3)
    (hs : atSafePoint s = true) (hrun : (getE (finishWord s 0 w (getE s 0)) 0).st = .run) :
    safeWord 0 w s = enterLayby (finishWord s 0 w (getE s 0)) := by
  rw [safeWord, issue_safe hr hrsv]
  exact if_pos ⟨rfl, runs_of_ready hr, hrun, hs, hp⟩

theorem opendReasons_nil {s : State} {w : BitVec 256} {o : ArrOp} (ho : s.arr.op = some o) (hrsv : pF w 0 120 = 0) (hrep : wRepeat w = 0) :
    when s.arr.op.isNone 1 ++ rsvReason (pF w 0 120) ++ singleCycle w = [] := by
  simp [when, rsvReason, singleCycle, ho, hrsv, hrep]

/-! ### STREAM (R146, R203 to R205) -/

/-- An allocation finds the lowest free slot. -/
theorem slotAlloc_lowest {s : State} {i : Nat} (hi : i < 8) (hfree : (getSlot s i).st = .free)
    (hlow : ∀ j, j < i → (getSlot s j).st ≠ .free) : slotAlloc s = .got i := by
  have hfind : (List.range 8).find? (fun j => (getSlot s j).st == .free) = some i := by
    rw [List.find?_range_eq_some]
    exact ⟨by simpa using hfree, List.mem_range.mpr hi, fun j hj => by simpa using hlow j hj⟩
  simp only [slotAlloc, hfind]

theorem shareSlot_lowest {s : State} {i ot : Nat} {o : ArrOp} (hnew : slotOf s .live o.optag ot = none) (hi : i < 8)
    (hfree : (getSlot s i).st = .free) (hlow : ∀ j, j < i → (getSlot s j).st ≠ .free) :
    shareSlot s o ot = .inl (some (takeSlot s i o ot, i)) := by
  simp only [shareSlot, hnew, slotAlloc_lowest hi hfree hlow]

/-- The share of a STREAM word whose vectors are one tile share, with slot `i`. -/
def wholeShare (s : State) (w : BitVec 256) (o : ArrOp) (i : Nat) : Share :=
  mkShare o (seenSet s s.arr.active) s.arr.pass w i (pF w 0 12) (streamVecs s (getE s 0) w o)

/-- The slot that it takes. -/
def freshSlot (w : BitVec 256) (o : ArrOp) : Slot :=
  { st := .live, optag := o.optag, ot := pF w 0 12, opid := o.opid, mode := o.mode, wdecl := o.wdecl, fp := fmtFp o.fmtW, part := o.part,
    rowgroup := o.rowgroup, ser := o.ser }

/-- The array once its last step has ended a tile or not, as LAST of the word in force says. -/
def markEnd (s : State) (w : BitVec 256) : State := { s with arr := { s.arr with atTileEnd := pF w 13 1 == 1 } }

/-- A share leaves for its checks, with the word cycles that bring it. -/
def sendShare (s : State) (w : BitVec 256) (o : ArrOp) (sh : Share) : State :=
  countSteps 0 w o (min (wRepeat w + 1) (512 / cycleSteps o)) { s with arr := { s.arr with shares := s.arr.shares ++ [sh] } }

/-- No word is in force. -/
def endStream (s : State) : State := { s with arr := { s.arr with strPos := 0, strSteps := 0 } }

/-- The state once that share has taken its slot and left for its checks. -/
def shareSent (s : State) (w : BitVec 256) (o : ArrOp) (i : Nat) : State :=
  endStream (sendShare (takeSlot (markEnd s w) i o (pF w 0 12)) w o (wholeShare s w o i))

/-- Beside the array nothing differs. -/
def SameButArr (s t : State) : Prop := { t with arr := s.arr } = s

theorem SameButArr.trans {s t u : State} (h : SameButArr s t) (g : SameButArr t u) : SameButArr s u := by
  calc ({ u with arr := s.arr } : State)
      = { ({ u with arr := t.arr } : State) with arr := s.arr } := rfl
    _ = { t with arr := s.arr } := congrArg (fun x : State => { x with arr := s.arr }) g
    _ = s := h

theorem takeSlot_sameButArr (s : State) (i : Nat) (o : ArrOp) (ot : Nat) : SameButArr s (takeSlot s i o ot) := by
  unfold takeSlot setSlot
  rfl

/-- Which columns are usable depends beside the array's retired columns on registers, fuses and power domains. -/
theorem seenSet_eq {s u : State} (h : SameButArr s u) (hret : u.arr.retired = s.arr.retired) (x : StatSet) : seenSet u x = seenSet s x := by
  unfold SameButArr at h
  have hregs : u.regs = s.regs := (congrArg State.regs h :)
  have hfuse : u.fuse = s.fuse := (congrArg State.fuse h :)
  have hpwr : u.pwr = s.pwr := (congrArg State.pwr h :)
  have hcols : physCols u = physCols s := by simp only [physCols, colUsable, isSet, getF, hregs, hfuse, hpwr, hret]
  simp only [seenSet, hcols]

/-- The share sent from a slot just taken is made of what stood in the array before. -/
theorem mkShare_takeSlot (s : State) (w : BitVec 256) (o : ArrOp) (i : Nat) :
    let u := takeSlot (markEnd s w) i o (pF w 0 12)
    mkShare o (seenSet u u.arr.active) u.arr.pass w i (pF w 0 12) (streamVecs s (getE s 0) w o) = wholeShare s w o i := by
  have hmark : SameButArr s (markEnd s w) := rfl
  have hset := seenSet_eq (hmark.trans (takeSlot_sameButArr (markEnd s w) i o (pF w 0 12))) rfl s.arr.active
  exact congrArg (fun z => mkShare o z s.arr.pass w i (pF w 0 12) (streamVecs s (getE s 0) w o)) hset

/-- A word's only share is sent once it has a slot. -/
theorem sendShares_one {t u : State} {w : BitVec 256} {o : ArrOp} {i : Nat} {vecs : List (List Nat)} (hlen : vecs.length ≤ 512)
    (hslot : shareSlot t o (pF w 0 12) = .inl (some (u, i))) : ∃ v, sendShares 0 w o vecs 1 0 t = .act v ∧
      endStream v = endStream (sendShare u w o (mkShare o (seenSet u u.arr.active) u.arr.pass w i (pF w 0 12) vecs)) := by
  simp only [sendShares, Nat.add_zero, hslot, Nat.mul_zero, List.drop_zero, List.take_of_length_le hlen]
  exact ⟨_, rfl, rfl⟩

theorem streamAct_sends {s v : State} {w : BitVec 256} {o : ArrOp} (ho : s.arr.op = some o) (hm : o.mode ≠ 1)
    (hs : s.arr.shadow = none) (hw : streamWaits s (getE s 0) w o = false) (hpos : s.arr.strPos = 0)
    (hsend : sendShares 0 w o (streamVecs s (getE s 0) w o) (((streamVecs s (getE s 0) w o).length + 511) / 512) 0 (markEnd s w) = .act v) :
    streamAct 0 w none s = .act (endStream v) := by
  unfold markEnd at hsend
  simp only [streamAct, ho, swapIn, hs, hw, hm, hpos, Option.filter_none, Nat.sub_zero, Bool.false_eq_true, if_false] at hsend ⊢
  rw [hsend]
  rfl

theorem streamAct_oneShare {s : State} {i : Nat} {w : BitVec 256} {o : ArrOp} (ho : s.arr.op = some o) (hm : o.mode ≠ 1)
    (hs : s.arr.shadow = none) (hw : streamWaits s (getE s 0) w o = false) (hpos : s.arr.strPos = 0)
    (hlo : 0 < (streamVecs s (getE s 0) w o).length) (hhi : (streamVecs s (getE s 0) w o).length ≤ 512)
    (hnew : slotOf s .live o.optag (pF w 0 12) = none) (hi : i < 8) (hfree : (getSlot s i).st = .free)
    (hlow : ∀ j, j < i → (getSlot s j).st ≠ .free) : streamAct 0 w none s = .act (shareSent s w o i) := by
  have hone : ((streamVecs s (getE s 0) w o).length + 511) / 512 = 1 := by omega
  obtain ⟨v, hsend, hend⟩ := sendShares_one (t := markEnd s w) hhi (shareSlot_lowest hnew hi hfree hlow)
  rw [streamAct_sends ho hm hs hw hpos (hone ▸ hsend), hend, mkShare_takeSlot]
  rfl

/-- The word changes nothing beside the array. -/
theorem shareSent_sameButArr (s : State) (w : BitVec 256) (o : ArrOp) (i : Nat) : SameButArr s (shareSent s w o i) := by
  have hmark : SameButArr s (markEnd s w) := rfl
  have hsend (t : State) : SameButArr t (sendShare t w o (wholeShare s w o i)) := by
    unfold sendShare countSteps
    rfl
  have hend (t : State) : SameButArr t (endStream t) := rfl
  exact ((hmark.trans (takeSlot_sameButArr ..)).trans (hsend _)).trans (hend _)

theorem shareSent_slots (s : State) (w : BitVec 256) (o : ArrOp) (i : Nat) :
    (shareSent s w o i).arr.slots = s.arr.slots.set i (freshSlot w o) := rfl

theorem getSlot_shareSent_same {s : State} (w : BitVec 256) (o : ArrOp) {i : Nat} (h : i < s.arr.slots.length) :
    getSlot (shareSent s w o i) i = freshSlot w o := by
  rw [getSlot, shareSent_slots]
  exact WordLaws.nth_set_same _ _ h

theorem getSlot_shareSent_ne (s : State) (w : BitVec 256) (o : ArrOp) {i j : Nat} (h : j ≠ i) :
    getSlot (shareSent s w o i) j = getSlot s j := by
  rw [getSlot, shareSent_slots]
  exact WordLaws.nth_set_ne _ _ h.symm

/-- Settles O14, a clause for each word: with the hypotheses of its clause a word meets no reason, wait or refusal on the way to its act,
but the refused OPBEGIN, whose check is its one obstacle. -/
theorem arrayWordsAct : Obligations.ArrayWordsAct := by
  unfold Obligations.ArrayWordsAct
  refine ⟨?opens, ?refused, ?load, ?stream, ?fill, ?safe, ?entry, ?opend, ?other⟩
  case opens =>
    intro s w hr hc hn hw hlo hhi hop hrsv hrep hset hen hret hpass hchk
    exact congrArg Host.Outcome.next (DrainLaws.ownWord_acts (own := opbeginWord 0 w) rfl hc hr
      (opbeginReasons_nil hn hw hlo hhi hop hrsv hrep) (opBegin_opens ⟨hset, hen, hret⟩ hpass hchk))
  case refused =>
    intro s r w hr hc hn hw hlo hhi hop hrsv hrep hset hen hret hcheck
    exact ⟨_, congrArg Host.Outcome.next (DrainLaws.ownWord_stops (own := opbeginWord 0 w) rfl hc hr
      (opbeginReasons_nil hn hw hlo hhi hop hrsv hrep) (opBegin_refused ⟨hset, hen, hret⟩ hcheck)), rfl, rfl⟩
  case load =>
    intro s w o hr hc ho hk hk' hn hn' hm hs hrow hrsv hrep
    exact congrArg Host.Outcome.next (DrainLaws.ownWord_acts (own := loadWord 0 w) rfl hc hr
      (loadReasons_nil ho hk hk' hn hn' hm hs hrow hrsv hrep) rfl)
  case stream =>
    intro s i w o hr hc ho hm hreasons hrsv hs hw hpos hlo hhi hnew hfree hlow hi hlen
    have hslot := getSlot_shareSent_same w o hlen
    have hnone : streamReasons s 0 w ++ rsvReason (pF w 36 84) = [] := by simp [hreasons, rsvReason, hrsv]
    have hword : exec (.stream 0 ⟨w, none⟩) s = .next _ := congrArg Host.Outcome.next
      (DrainLaws.ownWord_acts (own := streamWord 0 w none) rfl hc hr hnone (streamAct_oneShare ho hm hs hw hpos hlo hhi hnew hi hfree hlow))
    exact ⟨shareSent s w o i, hword, shareSent_sameButArr s w o i, rfl, rfl, congrArg Slot.st hslot, congrArg Slot.optag hslot,
      congrArg Slot.ot hslot, congrArg Slot.opid hslot, fun j hj => getSlot_shareSent_ne s w o hj⟩
  case fill =>
    intro s w hr hc hn hrow hb hrsv hreg hrep hfew
    exact congrArg Host.Outcome.next (DrainLaws.ownWord_acts (own := fillWord 0 w) rfl hc hr
      (fillReasons_nil hn hrow hb hrsv hreg hrep) (fillAct_queues hfew))
  case safe =>
    intro s w hr hc hrsv hp
    exact congrArg Host.Outcome.next ((if_pos ⟨hc, rfl⟩).trans (safeWord_noRequest hr hrsv hp))
  case entry =>
    intro s w hr hc hrsv hp hs hrun
    exact congrArg Host.Outcome.next ((if_pos ⟨hc, rfl⟩).trans (safeWord_atSafePoint hr hrsv hp hs hrun))
  case opend =>
    intro s w o hr hc ho hrsv hrep
    exact congrArg Host.Outcome.next (DrainLaws.ownWord_acts (own := opendWord 0 w) rfl hc hr (opendReasons_nil ho hrsv hrep) rfl)
  case other =>
    intro s e w c
    have hother {k : Nat} {eng : Bool} (own : State → State) (hk : wClass w ≠ k) :
        (Host.Outcome.next (asClass k eng e w own s) : Host.Outcome State Fault Refusal) = .next (wordIssue e w s) :=
      congrArg Host.Outcome.next (DrainLaws.asClass_other eng own s hk)
    exact ⟨hother _, hother _, hother _, hother _, hother _, hother _⟩

end Sys2Proof.ArrayLaws
end

section
/-! The words of the vision units: the bands of DISP, the boxes of CROP, and what both promise of their values. -/

namespace Sys2Proof.VisionLaws

open Sys2Proof Sys2Proof.Machine

/-! ### Words of an engine's own class (R161, R171, R200, R222) -/

section
variable {s t : State} {c e : Nat} {eng : Bool} {w : BitVec 256} {own : State → State} {bad : List Nat} {act : State → Eff}

/-- A word whose CLASS or whose engine is not the row's does what its own CLASS says. -/
theorem asClass_notOwn (own : State → State) (s : State) (h : wClass w ≠ c ∨ eng = false) :
    asClass c eng e w own s = wordIssue e w s :=
  if_neg fun ⟨hc, he⟩ => h.elim (fun hn => hn hc) (fun hf => Bool.false_ne_true (hf.symm.trans he))

/-- A ready word of the row's CLASS, with no reason of its own, holds where its payload does. -/
theorem ownWord_holds (hown : own s = issue s e w bad act) (hc : wClass w = c) (hr : ready s e w = true) (hb : bad = [])
    (ha : act s = .hold t) : asClass c true e w own s = setE t e { getE t e with st := .held, cur := (getE s e).pc } := by
  rw [asClass, if_pos ⟨hc, rfl⟩, hown, issue_ready s e w bad act hr hb, ha]

end

/-! ### DISP (R221, R337) -/

/-- DISP has no reason of its own with rows, 1 to 256 disparities up to 255, no reserved bit and no REPEAT. -/
theorem dispReasons_nil {w : BitVec 256} (hrsv : pF w 48 72 = 0) (hrep : wRepeat w = 0) (hrows : dRows w ≠ 0) (hn : dCount w ≠ 0)
    (hn' : dCount w ≤ 256) (hmax : dMin w + dCount w ≤ 256) :
    rsvReason (pF w 48 72) ++ singleCycle w
      ++ when (dRows w == 0 || dCount w == 0 || decide (256 < dCount w) || decide (256 < dMin w + dCount w)) 1 = [] := by
  simp [rsvReason, singleCycle, when, hrsv, hrep, hrows, hn, hn', hmax]

/-- The state in which DISP uses its descriptors: its buffers are its partition's. -/
def stereoBuf (s : State) : State := useBuf (turnBuf s 4 (getE s 11).part) 4 (getE s 11).part

theorem stereoBuf_vis (s : State) : (stereoBuf s).vis = s.vis := by
  unfold stereoBuf turnBuf
  split <;> rfl

/-- To name the partition that used the unit last changes nothing. -/
theorem strPart_again {s : State} {p : Nat} (h : s.vis.strPart = some p) :
    ({ s with vis := { s.vis with strPart := some p } } : State) = s := by
  rw [← h]

/-- A DISP word begins in a unit that its partition used last, and its descriptors of images and disparities are good. -/
structure DispBegins (s u1 u2 u : State) (w : BitVec 256) (l r d : TDesc) : Prop where
  part : s.vis.strPart = some (getE s 11).part
  idle : s.vis.band = false
  left : useDesc (stereoBuf s) 11 .image (genAddr (stereoBuf s) 11 0 w) false false = .ok u1 l
  right : useDesc u1 11 .image (genAddr u1 11 1 w) false false = .ok u2 r
  out : useDesc u2 11 .image (genAddr u2 11 2 w) true false = .ok u d

/-- The use of the confidence descriptor, for a word that gives one. -/
def useConf (u : State) (w : BitVec 256) (d : TDesc) : Use :=
  if bitOf (pF w 46 1) 0 then useDesc u 11 .image (genAddr u 11 3 w) true false else .ok u d

/-- The confidence output of a word, if it has one. -/
def confOf (w : BitVec 256) (c : TDesc) : Option TDesc := if bitOf (pF w 46 1) 0 then some c else none

/-- A rule of R337 broken stops the unit with the reason; otherwise the word holds while its band is in progress. -/
theorem dispAct_begins {s u1 u2 u v : State} {w : BitVec 256} {l r d c : TDesc} (h : DispBegins s u1 u2 u w l r d)
    (hc : useConf u w d = .ok v c) : dispAct w s =
      (dispBad w l r d (confOf w c)).elim (.hold { v with vis := { v.vis with band := true } })
        (fun k => .stopped (engFault v 11 0x0151 [k])) := by
  obtain ⟨hpart, hidle, hl, hr, hd⟩ := h
  have hagain := strPart_again ((congrArg Vis.strPart (stereoBuf_vis s)).trans hpart)
  unfold stereoBuf at hagain hl
  unfold useConf at hc
  simp only [dispAct, hidle, hpart, Option.all_some, beq_self_eq_true, Bool.false_eq_true, if_true, if_false, hagain, hl, hr, hd, hc, confOf]
  cases dispBad w l r d (if bitOf (pF w 46 1) 0 = true then some c else none) <;> rfl

/-- After its hold DISP computes its band, where its sources need not wait for DRAM. -/
theorem dispAct_goesOn {s : State} {w : BitVec 256} (hband : s.vis.band = true)
    (hl : dramWaits s 9 (tdesc s (genAddr s 11 0 w)).base = false) (hr : dramWaits s 9 (tdesc s (genAddr s 11 1 w)).base = false) :
    dispAct w s = dispBand { s with vis := { s.vis with band := false } } w (tdesc s (genAddr s 11 0 w)) (tdesc s (genAddr s 11 1 w))
      (tdesc s (genAddr s 11 2 w)) (if bitOf (pF w 46 1) 0 then some (tdesc s (genAddr s 11 3 w)) else none) := by
  simp only [dispAct, hband, dispGoesOn, hl, hr, Bool.false_eq_true, or_self, if_true, if_false]

/-! ### The disparity chosen (R334) -/

theorem least_eq_iff {l : List Nat} (h : l ≠ []) (a : Nat) : least l = a ↔ a ∈ l ∧ ∀ b ∈ l, a ≤ b := by
  cases l with
  | nil => exact absurd rfl h
  | cons x l => rw [← List.min?_eq_some_iff, List.min?_cons', Option.some_inj, least]

/-- The index chosen is the first at which the least value stands. -/
theorem argLeast_spec {l : List Nat} (h : l ≠ []) :
    ∃ hk : argLeast l < l.length, l[argLeast l] = least l ∧ ∀ j (hj : j < argLeast l), l[j] ≠ least l := by
  obtain ⟨hmem, -⟩ := (least_eq_iff h _).mp rfl
  obtain ⟨k, hk⟩ : ∃ k, l.idxOf? (least l) = some k :=
    Option.ne_none_iff_exists'.mp fun hnone => List.idxOf?_eq_none_iff.mp hnone hmem
  obtain rfl : argLeast l = k := by simp [argLeast, hk]
  exact List.idxOf?_eq_some_iff.mp hk

/-- No value of the list is less than the one chosen, and those before it are greater. -/
theorem argLeast_lowest {l : List Nat} {i : Nat} (h : i < l.length) :
    nth l (argLeast l) 0 ≤ nth l i 0 ∧ (i < argLeast l → nth l (argLeast l) 0 < nth l i 0) := by
  have hne : l ≠ [] := List.ne_nil_of_length_pos (Nat.zero_lt_of_lt h)
  obtain ⟨hk, hval, hfirst⟩ := argLeast_spec hne
  have hle : least l ≤ l[i] := ((least_eq_iff hne _).mp rfl).2 _ (List.getElem_mem h)
  simp only [nth, List.getElem?_eq_getElem hk, List.getElem?_eq_getElem h, Option.getD_some, hval]
  exact ⟨hle, fun hi => Nat.lt_of_le_of_ne hle (Ne.symm (hfirst i hi))⟩

/-! ### CROP (R216, R219) -/

theorem cropReasons_nil {s : State} {w : BitVec 256} (hrsv : pF w 44 76 = 0) (hrep : wRepeat w = 0) (hmode : pF w 42 2 < 2)
    (hfmt : (fmtElem (pF w 38 4)).isSome = true) (hq : qBound (getQ s (pF w 13 13)) = true) (hcons : (getQ s (pF w 13 13)).consumer = 6) :
    rsvReason (pF w 44 76) ++ singleCycle w ++ when (decide (2 ≤ pF w 42 2) || (fmtElem (pF w 38 4)).isNone) 1
      ++ when (!bitOf (pF w 0 13) 12 && !(qBound (getQ s (pF w 13 13)) && (getQ s (pF w 13 13)).consumer == 6)) 7 = [] := by
  have hsome : (fmtElem (pF w 38 4)).isNone = false := by simpa using hfmt
  simp [rsvReason, singleCycle, when, hrsv, hrep, hmode, hsome, hq, hcons]

/-- To name the partition that used the unit last changes nothing. -/
theorem crsPart_again {s : State} {p : Nat} (h : s.vis.crsPart = some p) :
    ({ s with vis := { s.vis with crsPart := some p } } : State) = s := by
  rw [← h]

/-- In a unit that its partition used last, a CROP word with good descriptors goes on with the boxes not yet done. -/
theorem cropAct_goesOn {s u1 u : State} {w : BitVec 256} {src out : TDesc} (hpart : s.vis.crsPart = some (getE s 6).part)
    (hsrc : useDesc s 6 .crop (genAddr s 6 1 w) false false = .ok u1 src)
    (hout : useDesc u1 6 .crop (genAddr u1 6 2 w) true false = .ok u out) :
    cropAct w s = cropLoop w src out (cropN w - u.vis.boxes) u := by
  simp only [cropAct, hpart, Option.all_some, beq_self_eq_true, if_true, crsPart_again hpart, hsrc, hout]

/-- Without an entry at the head of its queue it holds. -/
theorem cropLoop_waits {u : State} {w : BitVec 256} {src out : TDesc} {n : Nat} (hn : n ≠ 0) (hb : bitOf (pF w 0 13) 12 = false)
    (hh : headQ u (pF w 13 13) = none) : cropLoop w src out n u = .hold u := by
  obtain ⟨n, rfl⟩ := Nat.exists_eq_succ_of_ne_zero hn
  simp only [cropLoop, hb, hh, Bool.false_eq_true, if_false]

/-- The last box, which the data entry at the head of the queue gives, is written, and the word is done. -/
theorem cropLoop_lastBox {u v : State} {w : BitVec 256} {src out : TDesc} {x : QEntry} (hb : bitOf (pF w 0 13) 12 = false)
    (hh : headQ u (pF w 13 13) = some x) (hx : x.cairn = false)
    (hbox : cropBox (popQ u (pF w 13 13)) w src out (cropN w - 1) x.data = (v, false)) :
    cropLoop w src out 1 u = .act (applyDisable { v with vis := { v.vis with boxes := 0 } } 6) := by
  simp only [cropLoop, hb, hh, hx, Nat.zero_add, hbox, Bool.false_eq_true, if_false]

/-! ### A flat source (R101, R102, R218) -/

/-- A multiple of the divisor shifts down exactly, whatever the rounding. -/
theorem roundShift_mul (n : Int) (k : Nat) (rna : Bool) : roundShift (n * (2 ^ k : Nat)) k rna = n := by
  have hpos : (0 : Int) < (2 ^ (k - 1) : Nat) := Int.natCast_pos.mpr (Nat.two_pow_pos _)
  have hne : ((2 ^ k : Nat) : Int) ≠ 0 := Int.ne_of_gt (Int.natCast_pos.mpr (Nat.two_pow_pos k))
  unfold roundShift
  split
  case isTrue h => simp [h]
  case isFalse => simp only [Int.mul_ediv_cancel n hne, Int.sub_self, hpos, Int.not_lt.mpr (Int.le_of_lt hpos), if_true, if_false]

/-- A whole number rounds to itself in every mode. -/
theorem roundMag_whole (mode : RMode) (neg : Bool) (n : Nat) : roundMag mode neg n 1 = n := by simp [roundMag, Nat.mod_one]

theorem roundInt_fvInt (mode : RMode) (v : Int) : roundInt mode (decide (v < 0)) v.natAbs 1 = v := by
  simp only [roundInt, roundMag_whole, decide_eq_true_eq]
  split <;> omega

/-- Narrowing of a whole number into a grid of integers that holds it gives its code. -/
theorem narrow_int8 (mode : RMode) {v : Int} (hlo : -128 ≤ v) (hhi : v ≤ 127) : (narrow (fvInt v) .int8 mode).code = wrapU 8 v := by
  have hclamp : clampI v (-128) 127 = v := DrainLaws.clampI_eq_self hlo hhi
  show wrapU 8 (clampI (roundInt mode (decide (v < 0)) v.natAbs 1) (-128) 127) = _
  rw [roundInt_fvInt, hclamp]

theorem sext_int8 {c : Nat} (h : c < 256) : -128 ≤ sext 8 c ∧ sext 8 c ≤ 127 ∧ wrapU 8 (sext 8 c) = c := by
  simp only [sext, wrapU]
  split <;> omega

/-- Weights that sum to 2^16 along each axis sum to 2^32. -/
theorem bilinear_flat (n : Int) {fx fy : Nat} (hx : fx ≤ 65536) (hy : fy ≤ 65536) :
    (n * (65536 - fx : Nat) + n * fx) * (65536 - fy : Nat) + (n * (65536 - fx : Nat) + n * fx) * fy = n * (2 ^ 32 : Nat) := by
  have hfx : ((65536 - fx : Nat) : Int) + fx = 65536 := by omega
  have hfy : ((65536 - fy : Nat) : Int) + fy = 65536 := by omega
  rw [← Int.mul_add, hfy, ← Int.mul_add, hfx, Int.mul_assoc]
  rfl

theorem cropVal_flat (p : CropAt) (mode : RMode) {c : Nat} (hc : c < 256) (hx : p.fx ≤ 65536) (hy : p.fy ≤ 65536) :
    cropVal 0 0 mode p [c, c, c, c] = c := by
  obtain ⟨hlo, hhi, hcode⟩ := sext_int8 hc
  show (narrow (fvInt (roundShift ((sext 8 c * (65536 - p.fx : Nat) + sext 8 c * p.fx) * (65536 - p.fy : Nat)
    + (sext 8 c * (65536 - p.fx : Nat) + sext 8 c * p.fx) * p.fy) 32 (mode == .rna))) .int8 mode).code = c
  rw [bilinear_flat _ hx hy, roundShift_mul, narrow_int8 mode hlo hhi, hcode]

/-- Settles O31, a clause for each word and promise: a word that meets no refusal comes to its act; the disparity chosen is the first index
of the least sum; and the weights of a flat source sum to a power of two. -/
theorem bandsAndBoxesAreComputed : Obligations.BandsAndBoxesAreComputed := by
  unfold Obligations.BandsAndBoxesAreComputed
  refine ⟨?begins, ?goesOn, ?other, fun l i hi => argLeast_lowest hi, ?box, ?waits, fun p mode c hc hx hy => cropVal_flat p mode hc hx hy⟩
  case begins =>
    intro s s0 u1 u2 u w l r d hr hc hrsv hrep hrows hn hn' hmax hpart hband hs0 hl hrt hd
    subst hs0
    have h : DispBegins s u1 u2 u w l r d := ⟨hpart, hband, hl, hrt, hd⟩
    have hnone := dispReasons_nil hrsv hrep hrows hn hn' hmax
    have hstops {v : State} {c : TDesc} {k : Nat} (hu : useConf u w d = .ok v c) (hk : dispBad w l r d (confOf w c) = some k) :
        exec (.disp 11 w) s = .next (engFault v 11 0x0151 [k]) :=
      congrArg Host.Outcome.next (DrainLaws.ownWord_stops (own := dispWord 11 w) rfl hc hr hnone
        ((dispAct_begins h hu).trans (by rw [hk]; rfl)))
    have hholds {v : State} {c : TDesc} (hu : useConf u w d = .ok v c) (hk : dispBad w l r d (confOf w c) = none) :
        exec (.disp 11 w) s = .next
          (setE { v with vis := { v.vis with band := true } } 11 { getE v 11 with st := .held, cur := (getE s 11).pc }) :=
      congrArg Host.Outcome.next (ownWord_holds (own := dispWord 11 w) rfl hc hr hnone ((dispAct_begins h hu).trans (by rw [hk]; rfl)))
    have hno (h0 : pF w 46 1 = 0) (c : TDesc) : useConf u w d = .ok u d ∧ confOf w c = none := by simp [useConf, confOf, h0, bitOf]
    have hyes (h1 : pF w 46 1 = 1) (c : TDesc) :
        useConf u w d = useDesc u 11 .image (genAddr u 11 3 w) true false ∧ confOf w c = some c := by simp [useConf, confOf, h1, bitOf]
    refine ⟨fun k h0 hk => ?_, fun h0 hk => ?_, fun v c h1 hu => ⟨fun k hk => ?_, fun hk => ?_⟩⟩
    · exact hstops (hno h0 d).1 ((hno h0 d).2 ▸ hk)
    · exact hholds (hno h0 d).1 ((hno h0 d).2 ▸ hk)
    · exact hstops ((hyes h1 c).1.trans hu) ((hyes h1 c).2 ▸ hk)
    · exact hholds ((hyes h1 c).1.trans hu) ((hyes h1 c).2 ▸ hk)
  case goesOn =>
    intro s v w hr hc hrsv hrep hrows hn hn' hmax hband hl hrt hb
    exact congrArg Host.Outcome.next (DrainLaws.ownWord_acts (own := dispWord 11 w) rfl hc hr
      (dispReasons_nil hrsv hrep hrows hn hn' hmax) ((dispAct_goesOn hband hl hrt).trans hb))
  case other =>
    intro s e w
    exact ⟨fun h => congrArg Host.Outcome.next (asClass_notOwn _ s (h.imp_right beq_false_of_ne)),
      fun h => congrArg Host.Outcome.next (asClass_notOwn _ s (h.imp_right beq_false_of_ne))⟩
  case box =>
    intro s u1 u v w src out x hr hc hrsv hrep hmode hfmt hb hq hcons hpart _ hone hsrc hout hboxes hh hx hbox
    have hact : cropAct w s = .act (applyDisable { v with vis := { v.vis with boxes := 0 } } 6) := by
      rw [cropAct_goesOn hpart hsrc hout, hboxes, hone]
      exact cropLoop_lastBox hb hh hx (by rw [hone]; exact hbox)
    exact congrArg Host.Outcome.next (DrainLaws.ownWord_acts (own := cropWord 6 w) rfl hc hr
      (cropReasons_nil hrsv hrep hmode hfmt hq hcons) hact)
  case waits =>
    intro s u1 u w src out hr hc hrsv hrep hmode hfmt hb hq hcons hpart hleft hsrc hout hh
    have hact : cropAct w s = .hold u := by
      rw [cropAct_goesOn hpart hsrc hout]
      exact cropLoop_waits (Nat.sub_ne_zero_of_lt hleft) hb hh
    exact congrArg Host.Outcome.next (ownWord_holds (own := cropWord 6 w) rfl hc hr (cropReasons_nil hrsv hrep hmode hfmt hq hcons) hact)

end Sys2Proof.VisionLaws
end

section
/-! The lanes of the image pipeline: their dispatch to a free pipe, the LANE word, and their output rows. -/

namespace Sys2Proof.LaneLaws

open Sys2Proof Sys2Proof.Machine

/-! ### Engines and the ISP under accesses to memory (R36, R151, R466, R509) -/

/-- No engine, frame, context or pipe differs. -/
structure SameUnits (s t : State) : Prop where
  hx : t.hx = s.hx
  isp : t.isp = s.isp

theorem SameUnits.refl (s : State) : SameUnits s s := ⟨rfl, rfl⟩

theorem SameUnits.trans {s t u : State} (h : SameUnits s t) (g : SameUnits t u) : SameUnits s u :=
  ⟨g.hx.trans h.hx, g.isp.trans h.isp⟩

theorem raise_sameUnits (s : State) (port : Bool) (code cls : Nat) (part : Option Nat) (block item : Nat) (detail : List Nat) :
    SameUnits s (raise s port code cls part block item detail) := by
  have h := raise_same s port code cls part block item detail
  unfold sameButFaults at h
  exact ⟨(congrArg State.hx h :), (congrArg State.isp h :)⟩

theorem rlogAdd_sameUnits (s : State) (addr : Nat) (m : Master) (reason data : Nat) : SameUnits s (rlogAdd s addr m reason data) := by
  unfold rlogAdd
  dsimp only
  split <;> exact ⟨rfl, rfl⟩

/-- A refusal leaves the units as they were. -/
structure RefusalKeepsUnits (s : State) (b : Bus) : Prop where
  same : ∀ t y, b = .refused t y → SameUnits s t

theorem refusalKeepsUnits_pass (s : State) : RefusalKeepsUnits s .pass := ⟨fun _ _ h => nomatch h⟩

theorem refusalKeepsUnits_silent (s : State) : RefusalKeepsUnits s .silent := ⟨fun _ _ h => nomatch h⟩

theorem refusalKeepsUnits_refused {s t : State} {y : Why} (h : SameUnits s t) : RefusalKeepsUnits s (.refused t y) :=
  ⟨fun _ _ ht => (Bus.refused.inj ht).1 ▸ h⟩

theorem refusalKeepsUnits_ite {s : State} {c : Prop} [Decidable c] {a b : Bus} (ha : RefusalKeepsUnits s a) (hb : RefusalKeepsUnits s b) :
    RefusalKeepsUnits s (if c then a else b) := by
  split
  · exact ha
  · exact hb

theorem refusalKeepsUnits_unreachable (s : State) (m : Master) (reason a : Nat) :
    RefusalKeepsUnits s (.refused (unreachable s m reason a) .unreach) := refusalKeepsUnits_refused (raise_sameUnits ..)

theorem mapGate_keepsUnits (s : State) (m : Master) (port : Port) (a len : Nat) (write : Bool) (data : Nat) :
    RefusalKeepsUnits s (mapGate s m port a len write data) :=
  refusalKeepsUnits_ite (refusalKeepsUnits_unreachable ..) <|
    refusalKeepsUnits_ite (refusalKeepsUnits_silent s) <|
    refusalKeepsUnits_ite (refusalKeepsUnits_refused (raise_sameUnits ..)) <|
    refusalKeepsUnits_ite (refusalKeepsUnits_refused ((raise_sameUnits ..).trans (rlogAdd_sameUnits ..))) (refusalKeepsUnits_pass s)

theorem tileGate_keepsUnits (s : State) (m : Master) (a i : Nat) : RefusalKeepsUnits s (tileGate s m a i) :=
  refusalKeepsUnits_ite (refusalKeepsUnits_unreachable ..) <|
    refusalKeepsUnits_ite (refusalKeepsUnits_unreachable ..) <|
    refusalKeepsUnits_ite (refusalKeepsUnits_unreachable ..) <|
    refusalKeepsUnits_ite (refusalKeepsUnits_unreachable ..) (refusalKeepsUnits_pass s)

theorem busGate_keepsUnits (s : State) (m : Master) (port : Port) (a len : Nat) (write : Bool) (data : Nat) :
    RefusalKeepsUnits s (busGate s m port a len write data) := by
  unfold busGate
  refine refusalKeepsUnits_ite (refusalKeepsUnits_unreachable ..) <|
    refusalKeepsUnits_ite (refusalKeepsUnits_refused (rlogAdd_sameUnits ..)) <|
    refusalKeepsUnits_ite (refusalKeepsUnits_unreachable ..) <|
    refusalKeepsUnits_ite (refusalKeepsUnits_silent s) <|
    refusalKeepsUnits_ite (refusalKeepsUnits_refused ((raise_sameUnits ..).trans (rlogAdd_sameUnits ..))) ?_
  split
  · split
    · exact refusalKeepsUnits_unreachable ..
    · exact refusalKeepsUnits_pass s
  · exact mapGate_keepsUnits ..
  · exact tileGate_keepsUnits ..
  · exact refusalKeepsUnits_pass s

/-- The ECC check of a read raises faults, counts and schedules a write-back. -/
theorem eccRead_sameUnits (s : State) (m : Master) (a : Nat) : SameUnits s (eccRead s m a).1 := by
  unfold eccRead
  split
  · exact .refl s
  · extract_lets one raised counted mapu corrected
    have hraised : SameUnits s raised := raise_sameUnits ..
    have hcounted : SameUnits s counted := by
      unfold counted
      split
      · exact hraised.trans ⟨rfl, rfl⟩
      · exact hraised
    have hcorrected : SameUnits s corrected := by
      unfold corrected
      split
      · exact hcounted.trans ⟨rfl, rfl⟩
      · exact .refl s
    split
    · exact hcorrected.trans (raise_sameUnits ..)
    · exact hcorrected

theorem gateLines_sameUnits (m : Master) (port : Port) (write : Bool) (data : Nat → Nat) (ls : List Nat) (s : State) :
    SameUnits s (gateLines s m port write data ls).1 := by
  induction ls generalizing s with
  | nil => exact .refl s
  | cons l ls ih =>
    simp only [gateLines]
    split
    case h_1 t y hrefused => exact ((busGate_keepsUnits ..).same t y hrefused).trans (ih t)
    case h_2 => exact ih s
    case h_3 =>
      split
      · exact ih s
      · split
        · exact (eccRead_sameUnits ..).trans (ih _)
        · exact (eccRead_sameUnits ..).trans (ih _)
        · exact (eccRead_sameUnits ..).trans (ih _)
        · exact ih s

theorem tensRead_sameUnits (s : State) (m : Master) (port : Port) (d : TDesc) (cs : List (Int × Int × Int × Int)) :
    SameUnits s (tensRead s m port d cs).1 := gateLines_sameUnits ..

theorem tensWrite_sameUnits (s : State) (m : Master) (port : Port) (d : TDesc) (els : Tab Nat) :
    SameUnits s (tensWrite s m port d els) := (gateLines_sameUnits ..).trans ⟨rfl, rfl⟩

/-! ### Frames and pipes -/

theorem getPipe_setPipe_same (s : State) (p : Nat) (x : IspPipe) (h : p < s.isp.pipes.length) : getPipe (setPipe s p x) p = x :=
  WordLaws.nth_set_same _ _ h

/-- A frame that takes another's place is found in its stead. -/
theorem findFrame_setFrame {s : State} {f g : IspFrame} {c n : Nat} (h : findFrame s c n = some f) (hc : g.ctx = f.ctx)
    (hn : g.frame = f.frame) : findFrame (setFrame s g) c n = some g := by
  have hf : f.ctx = c ∧ f.frame = n := by simpa using List.find?_some h
  have hsame : (fun x : IspFrame => x.ctx == c && x.frame == n) ∘ (fun x => if x.ctx = g.ctx ∧ x.frame = g.frame then g else x) =
      fun x => x.ctx == c && x.frame == n := by
    funext x
    by_cases hx : x.ctx = g.ctx ∧ x.frame = g.frame
    · simp [hx]
    · simp [hx]
  have hfind : s.isp.frames.find? (fun x => x.ctx == c && x.frame == n) = some f := h
  show (s.isp.frames.map _).find? _ = _
  rw [List.find?_map, hsame, hfind, Option.map_some, if_pos ⟨hc.symm, hn.symm⟩]

/-! ### Dispatch (R319 to R321) -/

/-- To turn a unit's buffers over to a partition touches the buffers alone. -/
theorem turnBuf_frame (s : State) (b part : Nat) : { turnBuf s b part with bufs := s.bufs } = s := by
  unfold turnBuf
  split <;> rfl

/-- The state in which pipe `p` has taken lane `j` of a frame, and its program is about to start. -/
def laneTaken (s : State) (p : Nat) (f : IspFrame) (j : Nat) : State :=
  setPipe (setLane (turnBuf s p f.part) { f with gains := some (f.gains.getD (getI s f.ctx).wb) } j
      { nth f.lanes j {} with taken := true, pipe := some p }) p
    { getPipe s p with lane := some (f.ctx, f.frame, j), held := some f.ctx, part := some f.part }

theorem turnBuf_isp (s : State) (b part : Nat) : (turnBuf s b part).isp = s.isp :=
  (congrArg State.isp (turnBuf_frame s b part) :)

theorem laneTaken_frame (s : State) (p : Nat) (f : IspFrame) (j : Nat) : { laneTaken s p f j with isp := s.isp, bufs := s.bufs } = s :=
  congrArg (fun x : State => { x with isp := s.isp }) (turnBuf_frame s p f.part)

theorem getPipe_laneTaken {s : State} {p : Nat} (f : IspFrame) (j : Nat) (h : p < s.isp.pipes.length) : getPipe (laneTaken s p f j) p =
    { getPipe s p with lane := some (f.ctx, f.frame, j), held := some f.ctx, part := some f.part } :=
  getPipe_setPipe_same _ _ _ (by simpa [setLane, setFrame, turnBuf_isp] using h)

theorem getI_laneTaken (s : State) (p : Nat) (f : IspFrame) (j c : Nat) : getI (laneTaken s p f j) c = getI s c := by
  show tabGet (turnBuf s p f.part).isp.ctx c {} = _
  rw [turnBuf_isp, getI]

/-- An accepted start is the engine's start. -/
theorem startEngine_started {s v : State} {e addr part at_ : Nat} {i : Option (Nat × Nat)} {r : Option Bytes} {a : Bool}
    (h : startEngine s e addr part i r a at_ = (v, true)) : v = beginEngine s e addr part i r at_ := by
  unfold startEngine at h
  split at h
  · simp at h
  · exact (congrArg Prod.fst h).symm

/-- Of an engine other than the drain a start is one replacement of the engine. -/
theorem beginEngine_eq {s : State} {e : Nat} (addr part : Nat) (i : Option (Nat × Nat)) (r : Option Bytes) (at_ : Nat) (he : e ≠ 1) :
    beginEngine s e addr part i r at_ =
      setE s e { freshEngine r with st := .run, pc := addr, part := part, item := i, staged := some at_ } := by
  rw [beginEngine, if_neg he]

theorem setE_setE (s : State) (e : Nat) (g h : Engine) : setE (setE s e g) e h = setE s e h := by simp [setE]

/-- The engine of a lane's program at its start: its registers name the lane, the frame and the context. -/
def laneEngine (s : State) (f : IspFrame) (j : Nat) : Engine :=
  { freshEngine none with
    st := .run, pc := iEntry (getI s f.ctx).record j, part := f.part, staged := some s.timeC,
    sregs := (((freshEngine none).sregs.set 0 (BitVec.ofNat 32 j)).set 1 (BitVec.ofNat 32 f.frame)).set 2 (BitVec.ofNat 32 f.ctx) }

/-- The state once pipe `p` has taken a lane and its program has started. -/
def laneRuns (s : State) (p : Nat) (f : IspFrame) (j : Nat) : State := setE (laneTaken s p f j) (7 + p) (laneEngine s f j)

theorem takeLane_started {s v : State} {p j : Nat} {f : IspFrame} (hpart : (getPipe s p).part = some f.part) (hhx : 7 + p < s.hx.length)
    (hstart : startEngine (laneTaken s p f j) (7 + p) (iEntry (getI s f.ctx).record j) f.part none none false
      (laneTaken s p f j).timeC = (v, true)) :
    takeLane s p f j = laneRuns s p f j := by
  have hctx : getI (turnBuf s p f.part) f.ctx = getI s f.ctx := by rw [getI, turnBuf_isp, getI]
  have hsame : (getPipe s p).part.all (· == f.part) = true := by simp [hpart]
  have htaken : (laneTaken s p f j).hx = s.hx := (congrArg State.hx (laneTaken_frame s p f j) :)
  have htime : (laneTaken s p f j).timeC = s.timeC := (congrArg State.timeC (laneTaken_frame s p f j) :)
  have hv := (startEngine_started hstart).trans (beginEngine_eq _ _ _ _ _ (by omega))
  have htakes : takeLane s p f j = setE v (7 + p) { getE v (7 + p) with sregs :=
      (((getE v (7 + p)).sregs.set 0 (BitVec.ofNat 32 j)).set 1 (BitVec.ofNat 32 f.frame)).set 2 (BitVec.ofNat 32 f.ctx) } := by
    rw [← getI_laneTaken s p f j] at hstart
    unfold laneTaken at hstart
    simp only [takeLane, hsame, if_true, hctx, hstart]
  rw [htakes, hv, getE_setE_same _ _ _ (htaken ▸ hhx), setE_setE, htime]
  rfl

theorem laneRuns_engine {s : State} {p : Nat} (f : IspFrame) (j : Nat) (h : 7 + p < s.hx.length) :
    getE (laneRuns s p f j) (7 + p) = laneEngine s f j :=
  getE_setE_same _ _ _ ((congrArg (fun x : State => x.hx.length) (laneTaken_frame s p f j) :).symm ▸ h)

theorem laneRuns_otherEngine (s : State) {p e : Nat} (f : IspFrame) (j : Nat) (h : e ≠ 7 + p) : getE (laneRuns s p f j) e = getE s e := by
  rw [laneRuns, getE_setE_ne _ _ _ _ h, getE, (congrArg State.hx (laneTaken_frame s p f j) :), getE]

theorem laneRuns_frame (s : State) (p : Nat) (f : IspFrame) (j : Nat) :
    { laneRuns s p f j with isp := s.isp, hx := s.hx, bufs := s.bufs } = s :=
  congrArg (fun x : State => { x with hx := s.hx }) (laneTaken_frame s p f j)

/-- A pipe that may take a lane takes the best of those that are ready. -/
theorem laneDispatch_takes {s : State} {p j : Nat} {f : IspFrame} (hp : p < 4) (hpow : powered s (domPipe p) = true)
    (hen : engEnable s (7 + p) = true) (hfree : (getPipe s p).lane = none) (hidle : (getE s (7 + p)).st = .idle)
    (hbest : bestLane (readyLanes s p) = some (f, j)) : laneDispatch p s = takeLane s p f j := by
  simp only [laneDispatch, hp, hpow, hen, hfree, hidle, hbest, Option.isNone_none, and_self, if_true]

theorem laneDispatch_noLane {s : State} {p : Nat} (h : readyLanes s p = []) : laneDispatch p s = s := by
  have hbest : bestLane (readyLanes s p) = none := by rw [h]; rfl
  simp only [laneDispatch, hbest, ite_self]

/-! ### LANE (R220, R317, R323, R337) -/

/-- The reasons that a LANE word gives (R198, R220). -/
def laneReasons (w : BitVec 256) : List Nat :=
  rsvReason (pF w 64 56) ++ singleCycle w
    ++ when (pF w 19 14 == 0 || decide (16 < pF w 33 5) || decide (16 < pF w 38 5) || decide (16 < pF w 43 5) || decide (16 < pF w 48 5)) 1

/-- There are none with columns to write, overlaps up to 16, no reserved bit and no REPEAT. -/
theorem laneReasons_nil {w : BitVec 256} (hrsv : pF w 64 56 = 0) (hrep : wRepeat w = 0) (hw : pF w 19 14 ≠ 0) (hl : pF w 33 5 ≤ 16)
    (hr : pF w 38 5 ≤ 16) (ht : pF w 43 5 ≤ 16) (hb : pF w 48 5 ≤ 16) : laneReasons w = [] := by
  simp [laneReasons, rsvReason, singleCycle, when, hrsv, hrep, hw, hl, hr, ht, hb]

/-- A LANE word of an ISP pipe may act. -/
structure LaneIssues (s : State) (e : Nat) (w : BitVec 256) : Prop where
  fromPipe : 7 ≤ e
  toPipe : e < 11
  ready : ready s e w = true
  ownClass : wClass w = 8
  noReason : laneReasons w = []

section
variable {s t : State} {e c n j : Nat} {w : BitVec 256} {f : IspFrame}

theorem LaneIssues.exec_eq (h : LaneIssues s e w) : exec (.lane e w) s = .next (asClass 8 true e w (laneWord e w) s) := by
  show Host.Outcome.next (asClass 8 (decide (7 ≤ e) && decide (e < 11)) e w (laneWord e w) s) = _
  rw [decide_eq_true h.fromPipe, decide_eq_true h.toPipe, Bool.and_self]

theorem LaneIssues.laneWord_eq (h : LaneIssues s e w) : laneWord e w s = issue s e w (laneReasons w) (laneAct e w) :=
  if_pos ⟨h.fromPipe, h.toPipe⟩

theorem LaneIssues.exec_act (h : LaneIssues s e w) (ha : laneAct e w s = .act t) :
    exec (.lane e w) s = .next (finishWord t e w (getE s e)) :=
  h.exec_eq.trans (congrArg Host.Outcome.next (DrainLaws.ownWord_acts h.laneWord_eq h.ownClass h.ready h.noReason ha))

theorem LaneIssues.exec_stopped (h : LaneIssues s e w) (ha : laneAct e w s = .stopped t) : exec (.lane e w) s = .next t :=
  h.exec_eq.trans (congrArg Host.Outcome.next (DrainLaws.ownWord_stops h.laneWord_eq h.ownClass h.ready h.noReason ha))

theorem LaneIssues.exec_hold (h : LaneIssues s e w) (ha : laneAct e w s = .hold t) :
    exec (.lane e w) s = .next (setE t e { getE t e with st := .held, cur := (getE s e).pc }) :=
  h.exec_eq.trans (congrArg Host.Outcome.next (VisionLaws.ownWord_holds h.laneWord_eq h.ownClass h.ready h.noReason ha))

/-- The word of a lane that is not in force yet begins it. -/
theorem laneAct_begins (hl : (getPipe s (e - 7)).lane = some (c, n, j)) (hf : findFrame s c n = some f)
    (hfin : (nth f.lanes j {}).fin = false) (hi : (nth f.lanes j {}).issued = false) : laneAct e w s = laneBegin s e w f j := by
  simp only [laneAct, hl, hf, hfin, hi, Bool.false_eq_true, if_false, if_true]

/-- Once every row is written the word is done. -/
theorem laneAct_ends (hl : (getPipe s (e - 7)).lane = some (c, n, j)) (hf : findFrame s c n = some f) (hfin : (nth f.lanes j {}).fin = false)
    (hi : (nth f.lanes j {}).issued = true) (hrows : iHeight (getI s c).record ≤ (nth f.lanes j {}).rows) :
    laneAct e w s = .act (setLane s f j { nth f.lanes j {} with fin := true }) := by
  simp only [laneAct, hl, hf, hfin, hi, hrows, Bool.false_eq_true, reduceCtorEq, if_false, if_true]

/-- The lane that a LANE word puts in force. -/
def laneInForce (w : BitVec 256) (l : LaneSt) : LaneSt :=
  { l with issued := true, x0 := pF w 5 14, lw := pF w 19 14, vl := pF w 33 5, vr := pF w 38 5, vt := pF w 43 5, vb := pF w 48 5,
           stages := pF w 53 11 }

/-- For a frame that is not fed and a context without OUT_Y one descriptor is used; then a rule of R337 broken stops the pipe. -/
theorem laneBegin_direct {u : State} {a : TDesc} (hfed : f.fed = false) (hy : iOutY (getI s f.ctx).record = 0)
    (ha : useDesc s e .image (iOutA (getI s f.ctx).record) true false = .ok u a) : laneBegin s e w f j =
      (laneBad (getI s f.ctx) f w a none).elim (.hold (setLane (useBuf u (e - 7) f.part) f j (laneInForce w (nth f.lanes j {}))))
        (fun k => .stopped (engFault u e 0x0150 [k])) := by
  simp only [laneBegin, ha, hy, hfed, Bool.false_eq_true, if_false, if_true]
  cases laneBad (getI s f.ctx) f w a none <;> rfl

end

/-! ### Output rows (R315, R316, R322, R326, R328) -/

/-- The pixels that a lane reads for its next row: of a fed frame those in memory. -/
def rowPixels (s : State) (p : Nat) (f : IspFrame) (l : LaneSt) : State × (Nat → Nat → Nat → Nat) × Bool :=
  if f.fed then fedPixels s p f l l.rows else (s, fun _ _ _ => 0, false)

theorem rowPixels_sameUnits (s : State) (p : Nat) (f : IspFrame) (l : LaneSt) : SameUnits s (rowPixels s p f l).1 := by
  unfold rowPixels
  split
  · exact tensRead_sameUnits ..
  · exact .refl s

theorem writeRow_sameUnits (s : State) (env : PixEnv) (p : Nat) (f : IspFrame) (l : LaneSt) (y : Nat) :
    SameUnits s (writeRow s env p f l y) := by
  unfold writeRow
  split
  · extract_lets r m k d t
    have ht : SameUnits s t := by
      unfold t
      split
      · exact .refl s
      · exact tensWrite_sameUnits ..
    split
    · exact ht.trans (tensWrite_sameUnits ..)
    · exact ht
  · exact .refl s

/-- Beside its statistics a frame stands as it was. -/
structure SameButStats (f g : IspFrame) : Prop where
  ctx : g.ctx = f.ctx
  frame : g.frame = f.frame
  linesIn : g.linesIn = f.linesIn
  lanes : g.lanes = f.lanes

theorem rowStats_sameButStats (env : PixEnv) (f : IspFrame) (l : LaneSt) (y : Nat) : SameButStats f (rowStats env f l y) := by
  unfold rowStats
  split
  · exact List.foldlRecOn (motive := SameButStats f) _ _ ⟨rfl, rfl, rfl, rfl⟩
      fun g hg _ _ => ⟨hg.ctx, hg.frame, hg.linesIn, hg.lanes⟩
  · exact ⟨rfl, rfl, rfl, rfl⟩

/-- To release lines notifies intake. -/
theorem releaseLines_sameUnits (s : State) (f : IspFrame) (n : Nat) : SameUnits s (releaseLines s f n).1 := by
  unfold releaseLines
  dsimp only
  split <;> exact ⟨rfl, rfl⟩

/-- A frame in which lane `j` has completed one row more. -/
structure RowDone (f : IspFrame) (j : Nat) (g : IspFrame) : Prop where
  ctx : g.ctx = f.ctx
  frame : g.frame = f.frame
  linesIn : g.linesIn = f.linesIn
  lanes : g.lanes = f.lanes.set j { nth f.lanes j {} with rows := (nth f.lanes j {}).rows + 1 }

/-- The lines that it releases are no part of that. -/
theorem rowDone_released {f g : IspFrame} (s : State) (j n : Nat) (h : SameButStats f g) : RowDone f j
    (releaseLines s { g with lanes := g.lanes.set j { nth f.lanes j {} with rows := (nth f.lanes j {}).rows + 1 } } n).2 :=
  ⟨h.ctx, h.frame, h.linesIn, by rw [← h.lanes]; rfl⟩

/-- A lane in force on a held pipe may complete its next row: the row's input lines have come, and its pixels are neither waited for nor
poisoned. -/
structure RowReady (s : State) (p c n j : Nat) (f : IspFrame) : Prop where
  lane : (getPipe s p).lane = some (c, n, j)
  frame : findFrame s c n = some f
  issued : (nth f.lanes j {}).issued = true
  rows : (nth f.lanes j {}).rows < iHeight (getI s c).record
  held : (getE s (7 + p)).st = .held
  lines : min (iHeight (getI s c).record - 1) ((nth f.lanes j {}).rows + (nth f.lanes j {}).vb) < f.linesIn
  fetched : (f.fed && dramWaits s 9 (tdesc s (iSrcDesc (getI s c).record)).base) = false
  sound : (rowPixels s p f (nth f.lanes j {})).2.2 = false

theorem outputRow_completes {s : State} {p c n j : Nat} {f : IspFrame} (h : RowReady s p c n j f) :
    ∃ u g, outputRow p s = setFrame u g ∧ SameUnits s u ∧ RowDone f j g := by
  obtain ⟨hlane, hframe, hissued, hrows, hheld, hlines, hfetched, hsound⟩ := h
  have hpix := rowPixels_sameUnits s p f (nth f.lanes j {})
  unfold rowPixels at hsound hpix
  have hgo : (!(f.fed && dramWaits s 9 (tdesc s (iSrcDesc (getI s c).record)).base)) = true := by rw [hfetched]; rfl
  simp only [outputRow, hlane, hframe]
  rw [if_pos ⟨hissued, hrows, hheld, hlines, hgo⟩, if_neg (Bool.eq_false_iff.mp hsound)]
  refine ⟨_, _, rfl, (hpix.trans (writeRow_sameUnits ..)).trans (releaseLines_sameUnits ..),
    rowDone_released _ _ _ (rowStats_sameButStats ..)⟩

/-- A lane whose input lines have not come waits. -/
theorem outputRow_waits {s : State} {p c n j : Nat} {f : IspFrame} (hlane : (getPipe s p).lane = some (c, n, j))
    (hframe : findFrame s c n = some f)
    (h : f.linesIn ≤ min (iHeight (getI s c).record - 1) ((nth f.lanes j {}).rows + (nth f.lanes j {}).vb)) : outputRow p s = s := by
  simp only [outputRow, hlane, hframe, Nat.not_lt.mpr h, false_and, and_false, if_false]

/-- Settles O30, a clause for each outcome: a lane is taken by one replacement of its frame and pipe before its program starts; a LANE word
without a reason comes to its act; and the accesses that an output row makes leave engines and frames as they were. -/
theorem lanesRun : Obligations.LanesRun := by
  unfold Obligations.LanesRun
  refine ⟨?dispatch, fun s p h => congrArg Host.Outcome.next (laneDispatch_noLane h), ?direct, ?begins, ?other, ?ends, ?row, ?waits⟩
  case dispatch =>
    intro s u v p j f hp hpow hen hfree hidle hbest hlen hhx hpart hu hstart
    subst hu
    have htakes : exec (.laneDispatch p) s = .next (laneRuns s p f j) :=
      congrArg Host.Outcome.next ((laneDispatch_takes hp hpow hen hfree hidle hbest).trans (takeLane_started hpart hhx hstart))
    have hlane : (getPipe (laneRuns s p f j) p).lane = some (f.ctx, f.frame, j) := congrArg IspPipe.lane (getPipe_laneTaken f j hlen)
    have heng := laneRuns_engine f j hhx
    refine ⟨laneRuns s p f j, htakes, hlane, ?_, ?_, ?_, ?_, ?_, fun e he => laneRuns_otherEngine s f j he, laneRuns_frame s p f j⟩ <;>
      rw [heng] <;> rfl
  case direct =>
    intro s u e c n j w f a he he' hr hc hrsv hrep hw hl hrt ht hb hlane hframe hfin hi hfed hy ha
    have h : LaneIssues s e w := ⟨he, he', hr, hc, laneReasons_nil hrsv hrep hw hl hrt ht hb⟩
    have hact := (laneAct_begins hlane hframe hfin hi).trans (laneBegin_direct (w := w) (j := j) hfed hy ha)
    refine ⟨fun k hk => h.exec_stopped ?_,
      fun hk => h.exec_hold (t := setLane (useBuf u (e - 7) f.part) f j (laneInForce w (nth f.lanes j {}))) ?_⟩ <;>
      rw [hact, hk] <;> rfl
  case begins =>
    intro s e c n j w f he he' hr hc hrsv hrep hw hl hrt ht hb hlane hframe hfin hi
    have h : LaneIssues s e w := ⟨he, he', hr, hc, laneReasons_nil hrsv hrep hw hl hrt ht hb⟩
    have hact := laneAct_begins (w := w) hlane hframe hfin hi
    exact ⟨fun u hu => h.exec_hold (hact.trans hu), fun u hu => h.exec_stopped (hact.trans hu)⟩
  case other =>
    intro s e w h
    have hnot : wClass w ≠ 8 ∨ (decide (7 ≤ e) && decide (e < 11)) = false := h.imp_right (by simp; omega)
    exact congrArg Host.Outcome.next (VisionLaws.asClass_notOwn _ s hnot)
  case ends =>
    intro s e c n j w f he he' hr hc hrsv hrep hw hl hrt ht hb hlane hframe hfin hi hrows
    have h : LaneIssues s e w := ⟨he, he', hr, hc, laneReasons_nil hrsv hrep hw hl hrt ht hb⟩
    exact h.exec_act (laneAct_ends hlane hframe hfin hi hrows)
  case row =>
    intro s p c n j f hlane hframe hj hi hrows hheld hfed hlines
    have hfetched : (f.fed && dramWaits s 9 (tdesc s (iSrcDesc (getI s c).record)).base) = false := by
      cases hf : f.fed
      · rfl
      · rw [Bool.true_and]
        exact (hfed hf).1
    have hsound : (rowPixels s p f (nth f.lanes j {})).2.2 = false := by
      cases hf : f.fed
      · simp [rowPixels, hf]
      · simpa [rowPixels, hf] using (hfed hf).2
    obtain ⟨u, g, hrow, hsame, hdone⟩ := outputRow_completes ⟨hlane, hframe, hi, hrows, hheld, hlines, hfetched, hsound⟩
    have hfound : findFrame u c n = some f := by rw [findFrame, hsame.isp]; exact hframe
    refine ⟨setFrame u g, g, congrArg Host.Outcome.next hrow, findFrame_setFrame hfound hdone.ctx hdone.frame, ?_, fun i hij => ?_,
      hdone.linesIn, hsame.hx⟩ <;> rw [hdone.lanes]
    · exact WordLaws.nth_set_same _ _ hj
    · exact WordLaws.nth_set_ne _ _ hij.symm
  case waits => exact fun s p c n j f hlane hframe h => congrArg Host.Outcome.next (outputRow_waits hlane hframe h)

end Sys2Proof.LaneLaws
end

section
/-! The scheduler of elastic steps: the entries it takes, its choice of a step, the end of a share, shape entries and completions. -/

namespace Sys2Proof.SchedulerLaws

open Sys2Proof Sys2Proof.Machine

/-! ### Taking the entry at the head of a queue (R183) -/

@[simp] theorem popQ_sch (s : State) (q : Nat) : (popQ s q).sch = s.sch := by simp only [popQ]; split <;> rfl
@[simp] theorem popQ_tick (s : State) (q : Nat) : (popQ s q).tick = s.tick := by simp only [popQ]; split <;> rfl
@[simp] theorem popQ_regs (s : State) (q : Nat) : (popQ s q).regs = s.regs := by simp only [popQ]; split <;> rfl
@[simp] theorem popQ_timeC (s : State) (q : Nat) : (popQ s q).timeC = s.timeC := by simp only [popQ]; split <;> rfl

/-- The plan in force does not depend on the queues. -/
@[simp] theorem planNow_popQ (s : State) (q : Nat) : planNow (popQ s q) = planNow s := by simp [planNow, getF]

/-! ### Submission (R266, R267) -/

/-- The step that submission entry `x` of partition `p` names, with step descriptor `d`. -/
def entryStep (x : QEntry) (p : Nat) (d : Bytes) : Step :=
  { id := leAt x.data 8 2, cq := leAt x.data 10 2, part := p, engs := stepEngines d }

section
variable {s : State} {q : Nat} {x : QEntry} {d : Bytes}

/-- A valid step joins the submitted steps. No step runs that could hold the array on spill, so none is asked to give way. -/
theorem stepSubmit_valid (hhead : schedHead s q = some x) (halign : leAt x.data 0 6 % 64 = 0)
    (hin : inPartition (popQ s q) (getQ s q).part (leAt x.data 0 6) 64 = true) (harea : laybyBase (popQ s q) (getQ s q).part ≠ 0)
    (hread : busRead (popQ s q) schedMaster .system (leAt x.data 0 6) 64 = ⟨popQ s q, d, true, false, none⟩)
    (hdesc : stepDescOk d = true) (hrun : s.sch.run = none) :
    stepSubmit q s = { popQ s q with sch := { s.sch with submitted := s.sch.submitted ++ [entryStep x (getQ s q).part d] } } := by
  have hok : (leAt x.data 0 6 % 64 == 0 && inPartition (popQ s q) (getQ s q).part (leAt x.data 0 6) 64 &&
      laybyBase (popQ s q) (getQ s q).part != 0) = true := by simp [halign, hin, harea]
  simp [stepSubmit, hhead, hok, hread, hdesc, hrun, entryStep]

/-- A step whose descriptor is not aligned ends with status 2; nothing of the descriptor is read. -/
theorem stepSubmit_unaligned (hhead : schedHead s q = some x) (halign : leAt x.data 0 6 % 64 ≠ 0) :
    stepSubmit q s = postStep (popQ s q) (entryStep x (getQ s q).part []) 2 := by
  simp [stepSubmit, hhead, halign, entryStep]

end

/-! ### Choice and start (R269) -/

/-- The array held by step `x` of partition `p`, which is no longer among the submitted steps. -/
def holdArray (u : State) (x : Step) (p : Nat) (spill : Bool) : State :=
  { u with sch := { u.sch with submitted := u.sch.submitted.eraseP (fun y => y.part == p), run := some { x with spill := spill },
                               since := u.timeC, last := p, again := false } }

/-- The scheduler's choice, never yet parked, holds the array when no item is due on its engines, all of them are free, and every start
is accepted. -/
theorem stepStart_chosen {s u : State} {t p : Nat} {spill : Bool} {x : Step} (hu : u = atComp t s) (hrun : u.sch.run = none)
    (hphase : u.sch.phase = 0) (hresume : u.sch.resume = none) (hchoice : schedChoice u = some (p, spill))
    (hstep : stepOf u p = some x) (hsaved : x.saved = none) (hlead : leadAt u (x.engs.map (·.1)) = none)
    (hfree : ∀ y ∈ x.engs, itemArmed u y.1 = false ∧ ((getE u y.1).st = .idle ∨ (getE u y.1).st = .parked))
    (hstarts : (startAll (holdArray u x p spill) p x.engs).2 = true) :
    stepStart t s = (startAll (holdArray u x p spill) p x.engs).1 := by
  have hidle : ¬(u.sch.run.isSome ∨ u.sch.phase ≠ 0 ∨ u.sch.resume.isSome) := by simp [hrun, hphase, hresume]
  have hengs : (x.engs.map (·.1)).any (fun e => itemArmed u e || !((getE u e).st == .idle || (getE u e).st == .parked)) = false := by
    rw [List.any_map, List.any_eq_false]
    intro y hy
    obtain ⟨harmed, hst⟩ := hfree y hy
    rcases hst with h | h <;> simp [harmed, h]
  have hnew : x.saved.isSome = false := by rw [hsaved, Option.isSome_none]
  simp only [stepStart, ← hu, if_neg hidle, hchoice, hstep, hlead, hnew, hengs, Option.any_none, Bool.false_eq_true, if_false]
  exact if_pos hstarts

/-! ### The end of a share (R268, R274) -/

/-- A lay-by of a running step with none under way is requested now. -/
theorem laybyRequest_running {s : State} {x : Step} (hrun : s.sch.run = some x) (hphase : s.sch.phase = 0) :
    laybyRequest s = { s with sch := { s.sch with phase := 3, reqAt := s.timeC } } := by
  simp [laybyRequest, laybyBusy, hrun, hphase]

/-- A lay-by is requested of a step not on spill when its partition's meter has reached the share. -/
theorem shareExpiry_reached {s u : State} {x : Step} {t : Nat} (hu : u = chargeStep (atComp t s)) (hrun : u.sch.run = some x)
    (hspill : x.spill = false) (hshare : belowShare u x.part = false) : shareExpiry x.part t s = laybyRequest u := by
  simp [shareExpiry, ← hu, hrun, hspill, hshare]

/-! ### Shape entries (R271) -/

/-- Record `r` stands in the shadow of preset `i` of plan `id`, in the place of any other, to be swapped in after 10 µs. -/
def withShadow (u : State) (id i : Nat) (r : Bytes) : State :=
  { u with sch := { u.sch with shadows := u.sch.shadows.filter (fun y => !(y.1 == id && y.2.1 == i)) ++ [(id, i, r, u.timeC + 10000)] } }

theorem mem_withShadow (u : State) (id i : Nat) (r : Bytes) : (id, i, r, u.timeC + 10000) ∈ (withShadow u id i r).sch.shadows := by
  simp [withShadow]

theorem withShadow_frame (u : State) (id i : Nat) (r : Bytes) : { withShadow u id i r with sch := u.sch } = u := rfl

section
variable {s u : State} {q t : Nat} {x : QEntry} {pl : Plan}

/-- A shape entry for a batch item of its queue's partition, within the sixteen registers, makes the shadow of the item's preset
record from the record itself when there is none yet. -/
theorem shapeEntry_first {it : PlanItem} (hu : u = atComp t s) (hhead : schedHead u q = some x) (hplan : planNow u = some pl)
    (hitem : pl.items.find? (fun i => i.id == leAt x.data 0 2) = some it) (hbatch : it.batch = true)
    (hpart : it.part = (getQ u q).part) (hlow : 1 ≤ leAt x.data 3 1) (hhigh : leAt x.data 3 1 ≤ 3)
    (hregs : leAt x.data 2 1 + leAt x.data 3 1 ≤ 16) (hpreset : it.preset < pl.presets.length)
    (hnew : u.sch.shadows.find? (fun y => y.1 == pl.id && y.2.1 == it.preset) = none) :
    shapeEntry q t s = withShadow (popQ u q) pl.id it.preset
      (shapeRecord (nth pl.presets it.preset []) (leAt x.data 2 1) ((x.data.drop 4).take (4 * leAt x.data 3 1))) := by
  have hgood : ¬(it.batch = false ∨ it.part ≠ (getQ u q).part ∨ leAt x.data 3 1 = 0 ∨ 3 < leAt x.data 3 1 ∨
      16 < leAt x.data 2 1 + leAt x.data 3 1 ∨ pl.presets.length ≤ it.preset) := by
    rintro (hb | hrest)
    · exact Bool.false_ne_true (hb.symm.trans hbatch)
    · omega
  simp only [shapeEntry, ← hu, hhead, planNow_popQ, hplan, hitem, if_neg hgood, popQ_sch, hnew, withShadow]

/-- A shape entry for no item of the plan in force is dropped, and the flag says so. -/
theorem shapeEntry_noItem (hu : u = atComp t s) (hhead : schedHead u q = some x) (hplan : planNow u = some pl)
    (hitem : pl.items.find? (fun i => i.id == leAt x.data 0 2) = none) :
    shapeEntry q t s = setF (popQ u q) F.LBY_STAT_SHAPE_DROP 1 := by
  simp only [shapeEntry, ← hu, hhead, planNow_popQ, hplan, hitem]

end

/-! ### Completions (R267) -/

/-- The completion of the step that ended first goes to that step's queue. -/
theorem stepCompletion_first {s : State} {x : Step} {st : Nat} {r : List (Step × Nat)} (hended : s.sch.ended = (x, st) :: r) :
    stepCompletion s = (postData { s with sch := { s.sch with ended := r } } x.cq (stepEntry s x st) 8 x.part).1 := by
  simp only [stepCompletion, hended]

/-- Settles O23, a clause for each command: each takes the one branch of its command that the hypotheses leave open. -/
theorem elasticStepsRun : Obligations.ElasticStepsRun := by
  unfold Obligations.ElasticStepsRun
  refine ⟨?submit, ?refuse, ?start, ?share, ?shape, ?drop, ?complete⟩
  case submit =>
    intro s q x hhead halign hin harea hread hdesc hrun
    refine ⟨_, congrArg Host.Outcome.next (stepSubmit_valid hhead halign hin harea hread hdesc hrun), rfl, ?_⟩
    rw [← popQ_sch s q]
  case refuse => exact fun s q x hhead halign => congrArg Host.Outcome.next (stepSubmit_unaligned hhead halign)
  case start =>
    intro s u t p spill x hu hrun hphase hresume hchoice hstep hsaved hlead hfree hstarts
    exact congrArg Host.Outcome.next (stepStart_chosen hu hrun hphase hresume hchoice hstep hsaved hlead hfree hstarts)
  case share =>
    rintro s u _ t x hu hrun rfl hspill hshare hphase
    exact congrArg Host.Outcome.next ((shareExpiry_reached hu hrun hspill hshare).trans (laybyRequest_running hrun hphase))
  case shape =>
    intro s u q t x pl it hu hhead hplan hitem hbatch hpart hlow hhigh hregs hpreset hnew
    refine ⟨_, congrArg Host.Outcome.next (shapeEntry_first hu hhead hplan hitem hbatch hpart hlow hhigh hregs hpreset hnew), ?_, ?_⟩
    · rw [← popQ_sch u q]
      exact withShadow_frame _ _ _ _
    · rw [← popQ_timeC u q]
      exact mem_withShadow _ _ _ _
  case drop => exact fun s u q t x pl hu hhead hplan hitem => congrArg Host.Outcome.next (shapeEntry_noItem hu hhead hplan hitem)
  case complete => exact fun s x st r hended => congrArg Host.Outcome.next (stepCompletion_first hended)

end Sys2Proof.SchedulerLaws
end

section
/-! What the camera laws share: bits of register values, folds of which one step acts, the bytes of a byte memory after a write, and the
contexts and FIFOs of camera intake. -/

namespace Sys2Proof.CameraLaws

open Sys2Proof Sys2Proof.Machine

/-! ### Bits -/

theorem bitOf_eq_testBit (v i : Nat) : bitOf v i = v.testBit i := by
  rw [Nat.testBit_eq_decide_div_mod_eq, bitOf, Bool.beq_eq_decide_eq]

/-- To add a power of two whose bit is clear sets that bit. -/
theorem add_two_pow_eq_or {v i : Nat} (h : v.testBit i = false) : v + 2 ^ i = v ||| 2 ^ i := by
  have hlow : v % 2 ^ i < 2 ^ i := Nat.mod_lt _ (Nat.two_pow_pos i)
  have hsplit : 2 ^ (i + 1) * (v / 2 ^ (i + 1)) + v % 2 ^ i = v := by
    have hbit : v / 2 ^ i % 2 = 0 := by simpa [Nat.testBit_eq_decide_div_mod_eq] using h
    have hmod : v % 2 ^ (i + 1) = v % 2 ^ i := by rw [Nat.mod_pow_succ, hbit, Nat.mul_zero, Nat.add_zero]
    rw [← hmod, Nat.div_add_mod]
  have hor : 2 ^ i + v % 2 ^ i = 2 ^ i ||| v % 2 ^ i := by simpa using Nat.two_pow_add_eq_or_of_lt hlow 1
  calc v + 2 ^ i = 2 ^ (i + 1) * (v / 2 ^ (i + 1)) + (2 ^ i + v % 2 ^ i) := by omega
    _ = 2 ^ (i + 1) * (v / 2 ^ (i + 1)) ||| (2 ^ i ||| v % 2 ^ i) := by
        rw [Nat.two_pow_add_eq_or_of_lt (by omega), hor]
    _ = (2 ^ (i + 1) * (v / 2 ^ (i + 1)) ||| v % 2 ^ i) ||| 2 ^ i := by rw [Nat.or_comm (2 ^ i), Nat.or_assoc]
    _ = v ||| 2 ^ i := by rw [← Nat.two_pow_add_eq_or_of_lt (by omega), hsplit]

theorem bitOf_setBit (v i j : Nat) : bitOf (setBit v i) j = (bitOf v j || decide (i = j)) := by
  simp only [bitOf_eq_testBit, setBit]
  split
  case isTrue h =>
    by_cases hij : i = j
    · rw [← hij, h, Bool.true_or]
    · simp [hij]
  case isFalse h => rw [add_two_pow_eq_or (Bool.not_eq_true _ ▸ h), Nat.testBit_or, Nat.testBit_two_pow]

theorem bitOf_clearBit (v i j : Nat) : bitOf (clearBit v i) j = (bitOf v j && !decide (i = j)) := by
  simp only [bitOf_eq_testBit, clearBit]
  split
  case isTrue h =>
    have hv : 2 ^ i + (v - 2 ^ i) = v := Nat.add_sub_cancel' (Nat.ge_two_pow_of_testBit h)
    have hclear : (v - 2 ^ i).testBit i = false := by
      have := Nat.testBit_two_pow_add_eq (v - 2 ^ i) i
      rwa [hv, h, Bool.true_eq, Bool.not_eq_true'] at this
    have hbit : v.testBit j = ((v - 2 ^ i).testBit j || decide (i = j)) := by
      rw [← Nat.testBit_two_pow, ← Nat.testBit_or, ← add_two_pow_eq_or hclear, Nat.add_comm, hv]
    by_cases hij : i = j
    · simp [← hij, hclear]
    · simp [hbit, hij]
  case isFalse h =>
    by_cases hij : i = j
    · simp [← hij, h]
    · simp [hij]

/-- A bit of a field of bits. -/
theorem bitOf_bitsOf (v lo n i : Nat) : bitOf (bitsOf v lo n) i = (decide (i < n) && bitOf v (lo + i)) := by
  simp only [bitOf_eq_testBit, bitsOf, Nat.testBit_mod_two_pow, Nat.testBit_div_two_pow, Nat.add_comm]

theorem bitOf_mod_two_pow (v n i : Nat) : bitOf (v % 2 ^ n) i = (decide (i < n) && bitOf v i) := by
  rw [bitOf_eq_testBit, bitOf_eq_testBit, Nat.testBit_mod_two_pow]

theorem bitOf_two_pow (i j : Nat) : bitOf (2 ^ i) j = decide (i = j) := by rw [bitOf_eq_testBit, Nat.testBit_two_pow]

theorem bitOf_zero (i : Nat) : bitOf 0 i = false := by simp [bitOf]

theorem setBit_zero (i : Nat) : setBit 0 i = 2 ^ i := by simp [setBit, bitOf_zero]

theorem clearBit_two_pow (i : Nat) : clearBit (2 ^ i) i = 0 := by simp [clearBit, bitOf_two_pow]

/-! ### Folds over a range -/

/-- A fold whose steps all change nothing. -/
theorem foldl_fixed {α β : Type} {f : α → β → α} {a : α} {l : List β} (h : ∀ b ∈ l, f a b = a) : l.foldl f a = a :=
  List.foldlRecOn (motive := (· = a)) l f rfl fun _ hx b hb => hx ▸ h b hb

/-- A fold over a range of which step `k` alone acts. -/
theorem foldl_range_single {α : Type} {f : α → Nat → α} {a : α} {n k : Nat} (hk : k < n) (hbefore : ∀ i < n, i ≠ k → f a i = a)
    (hafter : ∀ i < n, i ≠ k → f (f a k) i = f a k) : (List.range n).foldl f a = f a k := by
  induction n with
  | zero => omega
  | succ n ih =>
    rw [List.range_succ, List.foldl_append, List.foldl_cons, List.foldl_nil]
    by_cases hkn : k = n
    · subst hkn
      rw [foldl_fixed fun i hi => hbefore i (Nat.lt_succ_of_lt (List.mem_range.mp hi)) (Nat.ne_of_lt (List.mem_range.mp hi))]
    · rw [ih (by omega) (fun i hi => hbefore i (by omega)) fun i hi => hafter i (by omega), hafter n (Nat.lt_succ_self n) (Ne.symm hkn)]

/-! ### Bytes of a memory after a write -/

/-- A byte that a write covers. -/
theorem rdByte_memWrite_in (m : Mem) (a : Nat) {bs : Bytes} {i : Nat} (h : i < bs.length) :
    rdByte (memWrite m a bs) (a + i) = nth bs i 0 := by
  have hlow : (m.filter (fun x => decide (x.1 < a))).find? (fun x => x.1 == a + i) = none :=
    find_key_dropped m _ _ fun x hx => by simp [hx]
  have hhigh : (m.filter (fun x => decide (a + bs.length ≤ x.1))).find? (fun x => x.1 == a + i) = none :=
    find_key_dropped m _ _ fun x hx => by simp [hx, h]
  rw [← rdByte_cells bs a i h]
  simp [rdByte, tabGet, memWrite, List.find?_append, hlow, hhigh]

/-- A byte that it does not cover. -/
theorem rdByte_memWrite_out (m : Mem) (a : Nat) (bs : Bytes) {x : Nat} (h : x < a ∨ a + bs.length ≤ x) :
    rdByte (memWrite m a bs) x = rdByte m x := by
  have hcells : (cells a bs).find? (fun y => y.1 == x) = none := by
    refine find_key_none _ _ fun y hy => ?_
    obtain ⟨-, hlo, hhi⟩ := (cells_spec bs a).2 y hy
    omega
  rw [rdByte, rdByte, ← tabGet_tabDrop_out m a bs.length x 0 h]
  simp [tabGet, tabDrop, memWrite, List.find?_append, hcells]

/-- A byte that one of a range of writes covers, and no other. -/
theorem rdByte_foldl_memWrite (m : Mem) (dst : Nat → Nat) (bs : Nat → Bytes) {n k i : Nat} (hk : k < n) (hi : i < (bs k).length)
    (hother : ∀ j < n, j ≠ k → dst k + i < dst j ∨ dst j + (bs j).length ≤ dst k + i) :
    rdByte ((List.range n).foldl (fun m j => memWrite m (dst j) (bs j)) m) (dst k + i) = nth (bs k) i 0 := by
  induction n with
  | zero => omega
  | succ n ih =>
    rw [List.range_succ, List.foldl_append, List.foldl_cons, List.foldl_nil]
    by_cases hkn : k = n
    · subst hkn
      exact rdByte_memWrite_in _ _ hi
    · rw [rdByte_memWrite_out _ _ _ (hother n (Nat.lt_succ_self n) (Ne.symm hkn))]
      exact ih (by omega) fun j hj => hother j (by omega)

/-! ### Contexts and FIFOs -/

/-- Nothing outside camera intake differs. -/
def SameButCam (s t : State) : Prop := { t with cam := s.cam } = s

theorem SameButCam.trans {s t u : State} (h : SameButCam s t) (g : SameButCam t u) : SameButCam s u := by
  unfold SameButCam at h g
  rw [← g] at h
  exact h

/-- If the ISP alone changes after that, nothing outside the two differs. -/
theorem SameButCam.andIsp {s t u : State} (h : SameButCam s t) (g : { u with isp := t.isp } = t) :
    { u with cam := s.cam, isp := s.isp } = s := by
  have hisp : t.isp = s.isp := (congrArg State.isp h :)
  unfold SameButCam at h
  rw [← g] at h
  rw [hisp] at h
  exact h

/-- If registers alone changed before it, nothing outside the two differs. -/
theorem SameButCam.afterRegs {s t u : State} (h : SameButCam t u) (g : { t with regs := s.regs } = s) :
    { u with regs := s.regs, cam := s.cam } = s := by
  have hcam : t.cam = s.cam := (congrArg State.cam g :)
  unfold SameButCam at h
  rw [← h] at g
  rw [hcam] at g
  exact g

theorem setC_sameButCam (s : State) (c : Nat) (x : CamCtx) : SameButCam s (setC s c x) := rfl

@[simp] theorem getC_setC_same (s : State) (c : Nat) (x : CamCtx) : getC (setC s c x) c = x := tabGet_tabPut_same s.cam.ctx c _ _

@[simp] theorem getFifo_setC (s : State) (c port : Nat) (x : CamCtx) : getFifo (setC s c x) port = getFifo s port := rfl

@[simp] theorem camRec_setC (s : State) (c k : Nat) (x : CamCtx) : camRec (setC s c x) k = camRec s k := rfl

/-- A port whose FIFO is empty has nothing to send on. -/
theorem runFifo_empty {s : State} {port : Nat} (h : getFifo s port = []) : runFifo s port = s := by rw [runFifo, h]; rfl

/-- A context of a port and virtual channel is one of that port. -/
theorem cPort_of_mem_ctxsOf {s : State} {port vc c : Nat} (h : c ∈ ctxsOf s port vc) : cPort (camRec s c) = port := by
  have hkeep := (List.mem_filter.mp h).2
  simp only [Bool.and_eq_true, beq_iff_eq] at hkeep
  obtain ⟨⟨-, hport⟩, -⟩ := hkeep
  exact hport

end Sys2Proof.CameraLaws
end

section
/-! Frame starts of one direct context, errors of a port, and changes of its synchronisation. -/

namespace Sys2Proof.CameraLaws

open Sys2Proof Sys2Proof.Machine

/-! ### The frame that starts (R294, R296, R298, R300, R304) -/

/-- The DROP_REASON of a frame that starts: 3 without the plan item that it needs, 1 without space, 0 when it is admitted. -/
def dropReason (s : State) (c : Nat) : Nat :=
  if bitOf (cFlags (camRec s c)) 0 && (waitingIntake s c).isNone then 3 else if camFree s c < cAdmit (camRec s c) then 1 else 0

theorem dropReason_admitted {s : State} {c : Nat}
    (hplan : bitOf (cFlags (camRec s c)) 0 = false ∨ (waitingIntake s c).isSome = true) (hroom : cAdmit (camRec s c) ≤ camFree s c) :
    dropReason s c = 0 := by
  have hbound : (bitOf (cFlags (camRec s c)) 0 && (waitingIntake s c).isNone) = false := by
    rcases hplan with h | h
    · rw [h, Bool.false_and]
    · rw [← Option.not_isSome, h, Bool.not_true, Bool.and_false]
  rw [dropReason, hbound, if_neg Bool.false_ne_true, if_neg (Nat.not_lt.mpr hroom)]

theorem dropReason_dropped {s : State} {c : Nat}
    (h : (bitOf (cFlags (camRec s c)) 0 = true ∧ waitingIntake s c = none) ∨ camFree s c < cAdmit (camRec s c)) :
    dropReason s c = if bitOf (cFlags (camRec s c)) 0 ∧ waitingIntake s c = none then 3 else 1 := by
  simp only [dropReason, Bool.and_eq_true, Option.isNone_iff_eq_none]
  split
  case isTrue => rfl
  case isFalse hplan => rw [if_pos (h.resolve_left hplan)]

/-- The state in which a frame start has advanced its context's counter. -/
def countFrame (s : State) (c : Nat) : State :=
  let x := getC s c
  setC s c { x with counter := x.counter + 1, interval := x.lastFs.map (fun t => s.timeP - t), lastFs := some s.timeP, blank := none }

theorem getC_countFrame (s : State) (c : Nat) : getC (countFrame s c) c =
    { getC s c with counter := (getC s c).counter + 1, interval := (getC s c).lastFs.map (fun t => s.timeP - t), lastFs := some s.timeP,
                    blank := none } := getC_setC_same ..

theorem dropReason_countFrame (s : State) (c : Nat) : dropReason (countFrame s c) c = dropReason s c := by
  have hfree : camFree (countFrame s c) c = camFree s c := by rw [camFree, getC_countFrame]; rfl
  rw [dropReason, hfree]
  rfl

/-- Frame `n` of a context as it starts. -/
def newFrame (u : State) (c n fn hdr : Nat) : CamFrame :=
  let x := getC u c
  let e := epochOf x n
  { frame := n, fn := fn, flags := (if bitOf (cFlags (camRec u c)) 0 then 0 else 0x200) + epochFlags e n,
    epoch := (e.map (·.num)).getD 0, reason := dropReason u c, fsTime := u.timeP, hdr := hdr, rbFirst := x.next,
    admitted := dropReason u c == 0, item := (waitingIntake u c).map (fun a => (a.idx, a.item.id, u.tick.num, a.deadline)) }

/-- A frame binds the intake item that waits for one. -/
def bindItem (s : State) (it : Option Armed) : State :=
  match it with
  | some a => { s with cam := { s.cam with bound := s.cam.bound ++ [a.idx] } }
  | none => s

/-- The state in which frame `n` is open, its item bound and its triggers scheduled. -/
def openFrame (u : State) (c n fn hdr : Nat) : State :=
  frameTriggers (bindItem (setC u c { getC u c with cur := some (newFrame u c n fn hdr) }) (waitingIntake u c)) c

theorem openFrame_sameButCam (u : State) (c n fn hdr : Nat) : SameButCam u (openFrame u c n fn hdr) := by
  unfold openFrame bindItem
  split <;> rfl

theorem getC_openFrame (u : State) (c n fn hdr : Nat) :
    getC (openFrame u c n fn hdr) c = { getC u c with cur := some (newFrame u c n fn hdr) } := by
  unfold openFrame bindItem
  split <;> exact getC_setC_same ..

theorem getFifo_openFrame (u : State) (c n fn hdr port : Nat) : getFifo (openFrame u c n fn hdr) port = getFifo u port := by
  unfold openFrame bindItem
  split <;> rfl

/-- The ISP's frame of frame `n`, which arrives in state `v` from a context as it is in `u`. -/
def ispFrameOf (u v : State) (c n : Nat) : IspFrame :=
  { ctx := c, frame := n, dt := cDt (camRec u c), part := (ctxPart v c).getD 0, fed := false, rbFirst := (getC u c).next,
    rpl := cLineRows (camRec u c), fsTime := v.timeP }

/-- The state once the next frame of a context is open. -/
def frameBegun (s : State) (c fn hdr : Nat) : State := openFrame (countFrame s c) c ((getC s c).counter + 1) fn hdr

theorem frameBegun_sameButCam (s : State) (c fn hdr : Nat) : SameButCam s (frameBegun s c fn hdr) :=
  (setC_sameButCam ..).trans (openFrame_sameButCam ..)

/-- The frame that it opens. -/
def nextFrame (s : State) (c fn hdr : Nat) : CamFrame := newFrame (countFrame s c) c ((getC s c).counter + 1) fn hdr

theorem nextFrame_reason (s : State) (c fn hdr : Nat) : (nextFrame s c fn hdr).reason = dropReason s c := dropReason_countFrame s c

theorem nextFrame_admitted (s : State) (c fn hdr : Nat) : (nextFrame s c fn hdr).admitted = (dropReason s c == 0) :=
  congrArg (· == 0) (dropReason_countFrame s c)

theorem nextFrame_rbFirst (s : State) (c fn hdr : Nat) : (nextFrame s c fn hdr).rbFirst = (getC s c).next :=
  (congrArg CamCtx.next (getC_countFrame s c) :)

theorem cur_frameBegun (s : State) (c fn hdr : Nat) : (getC (frameBegun s c fn hdr) c).cur = some (nextFrame s c fn hdr) :=
  congrArg CamCtx.cur (getC_openFrame ..)

theorem counter_frameBegun (s : State) (c fn hdr : Nat) : (getC (frameBegun s c fn hdr) c).counter = (getC s c).counter + 1 :=
  (congrArg CamCtx.counter (getC_openFrame ..)).trans (congrArg CamCtx.counter (getC_countFrame s c))

theorem getFifo_frameBegun (s : State) (c fn hdr port : Nat) : getFifo (frameBegun s c fn hdr) port = getFifo s port :=
  getFifo_openFrame ..

/-- With no frame open and no write set running on its port, a context opens its next frame, which reaches the ISP if it is admitted. -/
theorem frameStart_idle {s : State} {c : Nat} (fn hdr : Nat) (hcur : (getC s c).cur = none)
    (hrun : nth s.cam.run (cPort (camRec s c)) none = none) : frameStart s c fn hdr =
      if dropReason s c = 0 then
        frameArrive (frameBegun s c fn hdr) (ispFrameOf (countFrame s c) (frameBegun s c fn hdr) c ((getC s c).counter + 1))
      else frameBegun s c fn hdr := by
  have hclose : closeFrame s c 0x100 = s := by simp only [closeFrame, hcur]
  have hcut : ∀ n, cutSet (countFrame s c) c (cPort (camRec s c)) n = countFrame s c := fun n => by
    have hrun' : nth (countFrame s c).cam.run (cPort (camRec s c)) none = none := hrun
    simp only [cutSet, hrun']
  unfold countFrame at hcut
  rw [← dropReason_countFrame]
  simp only [frameStart, hclose, hcut]
  rfl

/-! ### Its arrival at the ISP (R318, R320) -/

/-- The frame that arrives has lanes to be taken, or is released as it comes in a context that the ISP has not enabled. -/
def arrived (s : State) (f : IspFrame) : IspFrame :=
  { f with dead := !ispOn s f.ctx, lanes := if ispOn s f.ctx then List.replicate (iLanes (getI s f.ctx).record) {} else f.lanes }

/-- Of a context without another frame, an item that waits or automatic frames, the ISP takes the frame as it is. -/
theorem frameArrive_alone {s : State} {f : IspFrame} (hlive : f.dead = false) (hframes : ∀ g ∈ s.isp.frames, g.ctx ≠ f.ctx)
    (hwait : waitingIsp s f.ctx = none) (hauto : iAuto (getI s f.ctx).record = 0) :
    frameArrive s f = { s with isp := { s.isp with frames := s.isp.frames ++ [arrived s f] } } := by
  have hnone : s.isp.frames.filter (fun g => g.ctx == f.ctx && untaken g) = [] :=
    List.filter_eq_nil_iff.mpr fun g hg => by simp [hframes g hg]
  have hdiscard : discardUntaken s f.ctx = s := by rw [discardUntaken, hnone, List.foldl_nil]
  cases hon : ispOn s f.ctx
  · simp [frameArrive, arrived, hon]
  · simp [frameArrive, arrived, hon, hdiscard, hwait, hauto, hlive]

/-! ### Frame start packets (R288, R294, R298) -/

section
variable {s u : State} {port vc hdr t c : Nat}

/-- A frame start of one context starts its frame, and what waits in the port's FIFO goes on. -/
theorem csiFrameStart_single (fn : Nat) (hu : u = atPort t s) (hon : portOn u port = true) (hhdr : hdr ≤ 1)
    (hctx : ctxsOf u port vc = [c]) : csiFrameStart port vc fn hdr t s = runFifo (frameStart u c (fn % 65536) hdr) port := by
  simp [csiFrameStart, ← hu, hon, Nat.not_lt.mpr hhdr, hctx]

theorem csiFrameStart_dropped (fn : Nat) (hu : u = atPort t s) (hon : portOn u port = true) (hhdr : hdr ≤ 1)
    (hctx : ctxsOf u port vc = [c]) (hcur : (getC u c).cur = none) (hrun : nth u.cam.run port none = none) (hfifo : getFifo u port = [])
    (hreason : dropReason u c ≠ 0) : csiFrameStart port vc fn hdr t s = frameBegun u c (fn % 65536) hdr := by
  have hport : cPort (camRec u c) = port := cPort_of_mem_ctxsOf (hctx ▸ List.mem_singleton_self c)
  rw [csiFrameStart_single fn hu hon hhdr hctx, frameStart_idle _ _ hcur (hport.symm ▸ hrun), if_neg hreason,
    runFifo_empty ((getFifo_frameBegun ..).trans hfifo)]

/-- The state once an admitted frame has also arrived at the ISP. -/
def frameAdmitted (u : State) (c fn hdr : Nat) : State :=
  let v := frameBegun u c fn hdr
  { v with isp := { v.isp with
      frames := v.isp.frames ++ [arrived v (ispFrameOf (countFrame u c) v c ((getC u c).counter + 1))] } }

theorem csiFrameStart_admitted (fn : Nat) (hu : u = atPort t s) (hon : portOn u port = true) (hhdr : hdr ≤ 1)
    (hctx : ctxsOf u port vc = [c]) (hcur : (getC u c).cur = none) (hrun : nth u.cam.run port none = none) (hfifo : getFifo u port = [])
    (hframes : ∀ g ∈ u.isp.frames, g.ctx ≠ c) (hwait : waitingIsp u c = none) (hauto : iAuto (getI u c).record = 0)
    (hreason : dropReason u c = 0) : csiFrameStart port vc fn hdr t s = frameAdmitted u c (fn % 65536) hdr := by
  have hport : cPort (camRec u c) = port := cPort_of_mem_ctxsOf (hctx ▸ List.mem_singleton_self c)
  have hsame := frameBegun_sameButCam u c (fn % 65536) hdr
  have hisp : (frameBegun u c (fn % 65536) hdr).isp = u.isp := (congrArg State.isp hsame :)
  have hwaits : waitingIsp (frameBegun u c (fn % 65536) hdr) c = waitingIsp u c := (congrArg (waitingIsp · c) hsame :)
  have harrive := frameArrive_alone (s := frameBegun u c (fn % 65536) hdr)
    (f := ispFrameOf (countFrame u c) (frameBegun u c (fn % 65536) hdr) c ((getC u c).counter + 1))
    rfl (hisp ▸ hframes) (hwaits.trans hwait) (by rw [getI, hisp]; exact hauto)
  rw [csiFrameStart_single fn hu hon hhdr hctx, frameStart_idle _ _ hcur (hport.symm ▸ hrun), if_pos hreason, harrive]
  exact runFifo_empty ((getFifo_frameBegun u c (fn % 65536) hdr port).trans hfifo)

end

/-! ### Errors and synchronisation (R298, R299, R307) -/

/-- An error within a millisecond of the port's last CAM_LINK_ERROR is counted alone. -/
theorem linkErr_recent {s : State} {port t0 : Nat} (x : Fld) (hlast : nth s.cam.linkErrAt port none = some t0)
    (hrecent : s.timeP < t0 + 1000000) : linkErr s port x = bump s x 1 := by
  refine if_neg ?_
  rw [bump_cam, hlast, Option.all_some, bump_timeP, decide_eq_true_eq]
  omega

/-- Any other raises CAM_LINK_ERROR too. -/
theorem linkErr_due {s : State} {port : Nat} (x : Fld) (hdue : ∀ t0 ∈ nth s.cam.linkErrAt port none, t0 + 1000000 ≤ s.timeP) :
    linkErr s port x = camRaise { bump s x 1 with cam := { s.cam with linkErrAt := s.cam.linkErrAt.set port (some s.timeP) } } 0x0203
      none 0xFFFF [port] := by
  have hall : (nth s.cam.linkErrAt port none).all (fun t => decide (t + 1000000 ≤ s.timeP)) = true := by
    simpa [Option.all_eq_true] using hdue
  exact if_pos hall

theorem csiPhyError_on {s : State} {port : Nat} (hon : portOn s port = true) :
    exec (.csiPhyError port) s = .next (linkErr s port (F.CAM_PORTERR_PHY port)) := by
  show Host.Outcome.next (if _ then _ else _) = _
  rw [if_pos hon]

/-- A change of synchronisation of a port that may make it stores the port's bit of LINK_UP. -/
theorem csiSyncChange_stored {s : State} {port : Nat} {up : Bool} (hport : port < 4) (hup : up = true → portOn s port = true) :
    csiSyncChange port up s = setF s F.CAM_STAT_LINK_UP
      (if up then setBit (getF s F.CAM_STAT_LINK_UP) port else clearBit (getF s F.CAM_STAT_LINK_UP) port) := by
  have hmay : ¬(4 ≤ port ∨ (up = true ∧ portOn s port = false)) := by
    rintro (h | ⟨h, hoff⟩)
    · omega
    · rw [hup h] at hoff; cases hoff
  rw [csiSyncChange, if_neg hmay]

/-- A bit of LINK_UP after a value has been stored there. -/
theorem linkUp_stored (s : State) (v : Nat) {q : Nat} (hq : q < 4) :
    bitOf (getF (setF s F.CAM_STAT_LINK_UP v) F.CAM_STAT_LINK_UP) q = bitOf v q := by
  have hwidth : decide (q < F.CAM_STAT_LINK_UP.width) = true := decide_eq_true hq
  rw [getF_setF_same, bitOf_mod_two_pow, hwidth, Bool.true_and]

/-- Settles O25, a clause for each event: with nothing open, running or waiting, a frame start is one replacement of its context, with the
frame's arrival at the ISP where it is admitted; an error is counted, and raised when the last is old enough. -/
theorem framesAreAdmittedOrDropped : Obligations.FramesAreAdmittedOrDropped := by
  unfold Obligations.FramesAreAdmittedOrDropped
  refine ⟨?admitted, ?dropped, ?recent, ?due, ?sync, ?off⟩
  case admitted =>
    intro s u port vc fn hdr t c hu hon hhdr hctx hcur hrun hfifo hframes hwait hauto hplan hroom
    have hreason := dropReason_admitted hplan hroom
    have hsame := frameBegun_sameButCam u c (fn % 65536) hdr
    have htime : (frameBegun u c (fn % 65536) hdr).timeP = u.timeP := (congrArg State.timeP hsame :)
    have hispOn : ispOn (frameBegun u c (fn % 65536) hdr) c = ispOn u c := (congrArg (ispOn · c) hsame :)
    refine ⟨_, nextFrame u c (fn % 65536) hdr, congrArg Host.Outcome.next
      (csiFrameStart_admitted fn hu hon hhdr hctx hcur hrun hfifo hframes hwait hauto hreason), counter_frameBegun .., cur_frameBegun ..,
      rfl, rfl, rfl, ?_, (nextFrame_reason ..).trans hreason, nextFrame_rbFirst .., rfl, rfl,
      ⟨_, List.mem_append_right _ (List.mem_singleton_self _), rfl, rfl, rfl, rfl, htime, congrArg (!·) hispOn⟩,
      hsame.andIsp rfl⟩
    rw [nextFrame_admitted, hreason, beq_self_eq_true]
  case dropped =>
    intro s u port vc fn hdr t c hu hon hhdr hctx hcur hrun hfifo hdrop
    have hreason := dropReason_dropped hdrop
    have hne : dropReason u c ≠ 0 := by rw [hreason]; split <;> decide
    refine ⟨_, nextFrame u c (fn % 65536) hdr, congrArg Host.Outcome.next
      (csiFrameStart_dropped fn hu hon hhdr hctx hcur hrun hfifo hne), counter_frameBegun .., cur_frameBegun .., rfl, ?_,
      (nextFrame_reason ..).trans hreason, frameBegun_sameButCam ..⟩
    rw [nextFrame_admitted, beq_eq_false_iff_ne.mpr hne]
  case recent =>
    intro s port t0 hon hlast hrecent
    exact (csiPhyError_on hon).trans (congrArg Host.Outcome.next (linkErr_recent _ hlast hrecent))
  case due =>
    intro s port hon hdue
    exact ⟨_, (csiPhyError_on hon).trans (congrArg Host.Outcome.next (linkErr_due _ hdue)), rfl⟩
  case sync =>
    intro s port b hport hup
    refine ⟨_, congrArg Host.Outcome.next (csiSyncChange_stored hport hup), ?_, fun q hq hne => ?_, rfl⟩
    · rw [linkUp_stored _ _ hport]
      cases b
      · simp [bitOf_clearBit]
      · simp [bitOf_setBit]
    · rw [linkUp_stored _ _ hq]
      cases b
      · simp [bitOf_clearBit, hne.symm]
      · simp [bitOf_setBit, hne.symm]
  case off =>
    intro s port hoff
    exact congrArg Host.Outcome.next (if_pos (.inr ⟨rfl, hoff⟩))

end Sys2Proof.CameraLaws
end

section
/-! Packets of an open frame: pixel lines, embedded data and the frame end, and the release of raw-buffer rows. -/

namespace Sys2Proof.CameraLaws

open Sys2Proof Sys2Proof.Machine

/-! ### Rows of the raw buffer (R294, R295) -/

/-- Row `i` of a line's bytes, padded with zero. -/
def rowBytes (d : Bytes) (i : Nat) : Bytes :=
  ((d.drop (512 * i)).take 512) ++ List.replicate (512 - ((d.drop (512 * i)).take 512).length) 0

theorem rowBytes_length (d : Bytes) (i : Nat) : (rowBytes d i).length = 512 := by
  rw [rowBytes, List.length_append, List.length_replicate, List.length_take]
  omega

theorem nth_rowBytes {d : Bytes} {j : Nat} (h : j < d.length) : nth (rowBytes d (j / 512)) (j % 512) 0 = nth d j 0 := by
  have hlen : j % 512 < ((d.drop (512 * (j / 512))).take 512).length := by
    rw [List.length_take, List.length_drop]
    omega
  have hj : 512 * (j / 512) + j % 512 = j := Nat.div_add_mod j 512
  rw [nth, rowBytes, List.getElem?_append_left hlen, List.getElem?_take_of_lt (by omega), List.getElem?_drop, hj, nth]

/-- The raw buffer once a line stands at its place of a context's ring. -/
def lineStored (m : Tab Byte) (r : Bytes) (row : Nat) (d : Bytes) : Tab Byte :=
  (List.range ((d.length + 511) / 512)).foldl (fun m i => memWrite m (512 * (cRbBase r + (row + i) % cRbRows r)) (rowBytes d i)) m

/-- Rows of a ring no longer than the ring lie apart. -/
theorem ringRow_ne {row n i j : Nat} (hi : i < n) (hj : j < n) (h : i ≠ j) : (row + i) % n ≠ (row + j) % n := by
  intro heq
  have hij := Nat.sub_mod_eq_zero_of_mod_eq heq
  have hji := Nat.sub_mod_eq_zero_of_mod_eq heq.symm
  rw [Nat.add_sub_add_left, Nat.mod_eq_of_lt (by omega)] at hij hji
  omega

/-- Every byte of a line that fits its ring stands at its place. -/
theorem rdByte_lineStored (m : Tab Byte) {r : Bytes} (row : Nat) {d : Bytes} {j : Nat} (hfit : (d.length + 511) / 512 ≤ cRbRows r)
    (hj : j < d.length) :
    rdByte (lineStored m r row d) (512 * (cRbBase r + (row + j / 512) % cRbRows r) + j % 512) = nth d j 0 := by
  rw [← nth_rowBytes hj]
  refine rdByte_foldl_memWrite m (fun i => 512 * (cRbBase r + (row + i) % cRbRows r)) (rowBytes d) (k := j / 512) (by omega) ?_ ?_
  · rw [rowBytes_length]; omega
  · intro i hi hne
    have := ringRow_ne (row := row) (show i < cRbRows r by omega) (show j / 512 < cRbRows r by omega) hne
    rw [rowBytes_length]
    omega

/-! ### A pixel line (R294, R295, R298) -/

section
variable {s : State} {c : Nat} {f : CamFrame} {d : Bytes}

@[simp] theorem getC_setCur_same (s : State) (c : Nat) (f : CamFrame) : getC (setCur s c f) c = { getC s c with cur := some f } :=
  getC_setC_same ..

@[simp] theorem camRec_setCur (s : State) (c k : Nat) (f : CamFrame) : camRec (setCur s c f) k = camRec s k := rfl

/-- To put the open frame of a context in its own place changes nothing of the context. -/
theorem getC_setCur_cur (hcur : (getC s c).cur = some f) : getC (setCur s c f) c = getC s c := by
  rw [getC_setCur_same, ← hcur]

/-- A whole line of an admitted frame goes straight on when nothing waits before it and its rows are free. -/
theorem pixelLine_whole (hcur : (getC s c).cur = some f) (hreason : f.reason = 0) (hlines : f.lines < cLines (camRec s c))
    (hwidth : d.length = cWidth (camRec s c)) (hemb : embMissing (getC s c) (camRec s c) f = false)
    (hfifo : getFifo s (cPort (camRec s c)) = []) (hroom : cLineRows (camRec s c) ≤ camFree s c) : pixelLine s c d true =
      sendLine (setCur s c { f with lines := f.lines + 1 }) c f.frame
        ((f.rbFirst + f.lines * cLineRows (camRec s c)) % cRbRows (camRec s c)) d := by
  have hwhole : d.take (cWidth (camRec s c)) = d := List.take_of_length_le (Nat.le_of_eq hwidth)
  have hpad : cWidth (camRec s c) - d.length = 0 := by rw [hwidth, Nat.sub_self]
  have hon : (d.length != cWidth (camRec s c)) = false := by simp [hwidth]
  simp [pixelLine, hcur, hemb, hreason, Nat.not_le.mpr hlines, hon, hfifo, hroom, hwhole, hpad]

/-- The state once a line of frame `g` of the ISP has reached the raw buffer. -/
def lineHere (s : State) (c row : Nat) (d : Bytes) (g : IspFrame) : State :=
  setFrame { s with isp := { s.isp with raw := lineStored s.isp.raw (camRec s c) row d } } { g with linesIn := g.linesIn + 1 }

theorem raw_lineHere (s : State) (c row : Nat) (d : Bytes) (g : IspFrame) :
    (lineHere s c row d g).isp.raw = lineStored s.isp.raw (camRec s c) row d := rfl

theorem findFrame_lineHere {s : State} {c n : Nat} {g : IspFrame} (row : Nat) (d : Bytes) (h : findFrame s c n = some g) :
    findFrame (lineHere s c row d g) c n = some { g with linesIn := g.linesIn + 1 } := by
  unfold lineHere
  exact LaneLaws.findFrame_setFrame h rfl rfl

theorem lineHere_frame (s : State) (c row : Nat) (d : Bytes) (g : IspFrame) : { lineHere s c row d g with isp := s.isp } = s := rfl

theorem getC_lineHere (s : State) (c row : Nat) (d : Bytes) (g : IspFrame) (k : Nat) : getC (lineHere s c row d g) k = getC s k := rfl

/-- A line reaches a frame that the ISP has not given up. -/
theorem lineArrive_live {n : Nat} {g : IspFrame} (row : Nat) (d : Bytes) (hframe : findFrame s c n = some g) (hlive : g.dead = false) :
    lineArrive s c n row d = lineHere s c row d g := by
  have hfind : ∀ raw, findFrame { s with isp := { s.isp with raw := raw } } c n = some g := fun _ => hframe
  simp only [lineArrive, hfind]
  exact if_neg (Bool.eq_false_iff.mp hlive)

/-- The state once a line of a context is under way: its rows have left FREE. -/
def rowsTaken (s : State) (c n : Nat) : State := setC s c { getC s c with used := (getC s c).used + n }

theorem getC_rowsTaken (s : State) (c n : Nat) : getC (rowsTaken s c n) c = { getC s c with used := (getC s c).used + n } :=
  getC_setC_same ..

@[simp] theorem camRec_rowsTaken (s : State) (c n k : Nat) : camRec (rowsTaken s c n) k = camRec s k := rfl

theorem sendLine_eq (s : State) (c n row : Nat) (d : Bytes) :
    sendLine s c n row d = lineArrive (rowsTaken s c ((d.length + 511) / 512)) c n row d := rfl

/-- A pixel packet of a context whose frame is open is a line of that frame. -/
theorem csiLongPacket_pixel {port vc dt : Nat} (hon : portOn s port = true) (h18 : dt ≠ 0x12) (h2 : dt ≠ 2) (h3 : dt ≠ 3)
    (hctx : (ctxsOf s port vc).find? (fun k => cDt (camRec s k) == dt) = some c) (hcur : (getC s c).cur = some f) (crcOk : Bool) :
    csiLongPacket port vc dt d crcOk 0 s = pixelLine (setCur s c f) c d crcOk := by
  have hpix : (dt == 0x12) = false := beq_eq_false_iff_ne.mpr h18
  simp [csiLongPacket, hon, h2, h3, hpix, hctx, hcur]

/-! ### Embedded data (R305) -/

/-- An embedded-data packet of a context whose frame is open is checked against that frame's epoch. -/
theorem csiLongPacket_embedded {port vc hdr : Nat} (hon : portOn s port = true) (hhdr : hdr ≤ 1)
    (hctx : (ctxsOf s port vc).find? (fun k => bitOf (cFlags (camRec s k)) 4) = some c) (hcur : (getC s c).cur = some f)
    (crcOk : Bool) : csiLongPacket port vc 0x12 d crcOk hdr s = embCheck (setCur s c { f with hdr := f.hdr + hdr }) c d := by
  simp [csiLongPacket, hon, Nat.not_lt.mpr hhdr, hctx, hcur]

/-- The first embedded-data line of a frame, with every checked register as its epoch says, confirms that epoch. -/
theorem embCheck_confirms {e : Epoch} (hcur : (getC s c).cur = some f) (hemb : f.emb = false) (hlines : f.lines = 0)
    (hepoch : epochOf (getC s c) f.frame = some e) (hcheck : e.check = true)
    (hvals : e.vals.all (embHas (bitOf (cFlags (camRec s c)) 5) d) = true) :
    embCheck s c d = setCur s c { f with emb := true, flags := f.flags ||| 0x20, conf := e.num } := by
  simp [embCheck, hcur, hemb, hlines, hepoch, hcheck, hvals]

end

/-! ### The close of a frame (R297, R298) -/

/-- An open frame as its close completes it. -/
def closedFrame (s : State) (c extra : Nat) (f : CamFrame) : CamFrame :=
  let f := if bitOf (cFlags (camRec s c)) 1 && f.crc != 0 && f.reason == 0 then { f with reason := 4 } else f
  let short := f.admitted && (f.reason == 0 || f.reason == 4) && decide (f.lines < cLines (camRec s c))
  let late := (f.item.map (fun i => decide (i.2.2.2 < s.timeP))).getD false
  { f with flags := f.flags ||| extra ||| (if f.reason = 0 then 0 else 1) ||| (if short then 2 else 0) ||| (if late then 8 else 0),
           feTime := s.timeP }

/-- Ring row after an open frame. -/
def rowAfter (s : State) (c : Nat) (f : CamFrame) : Nat :=
  if f.admitted then (f.rbFirst + f.lines * cLineRows (camRec s c)) % cRbRows (camRec s c) else (getC s c).next

/-- A status word queues in its port's FIFO. -/
def queueStatus (s : State) (c : Nat) (g : CamFrame) : State :=
  setFifo s (cPort (camRec s c)) (getFifo s (cPort (camRec s c)) ++ [.status c g])

theorem queueStatus_sameButCam (s : State) (c : Nat) (g : CamFrame) : SameButCam s (queueStatus s c g) := rfl

theorem closeFrame_open {s : State} {c : Nat} {f : CamFrame} (extra : Nat) (hcur : (getC s c).cur = some f) : closeFrame s c extra =
    queueStatus (setC s c { getC s c with cur := none, next := rowAfter s c f }) c (closedFrame s c extra f) := by
  simp only [closeFrame, hcur, closedFrame]
  split <;> rfl

@[simp] theorem getC_queueStatus (s : State) (c k : Nat) (g : CamFrame) : getC (queueStatus s c g) k = getC s k := rfl

/-- A status word waits behind what its port's FIFO holds. -/
theorem getFifo_queueStatus {s : State} {c port : Nat} (g : CamFrame) (hport : cPort (camRec s c) = port)
    (hlen : port < s.cam.fifo.length) : getFifo (queueStatus s c g) port = getFifo s port ++ [.status c g] := by
  subst hport
  exact WordLaws.nth_set_same _ _ hlen

theorem closedFrame_frame (s : State) (c extra : Nat) (f : CamFrame) : (closedFrame s c extra f).frame = f.frame := by
  unfold closedFrame
  split <;> rfl

/-- A flag that the close gives a frame stays. -/
theorem closedFrame_flag {s : State} {c extra i : Nat} {f : CamFrame} (h : bitOf extra i = true) :
    bitOf (closedFrame s c extra f).flags i = true := by
  rw [bitOf_eq_testBit] at h ⊢
  unfold closedFrame
  split <;> simp [Nat.testBit_or, h]

/-- The frame end of a whole frame, with neither errors nor an item, gives it its end time alone. -/
theorem closedFrame_whole {s : State} {c : Nat} {f : CamFrame} (hreason : f.reason = 0) (hcrc : f.crc = 0)
    (hlines : cLines (camRec s c) ≤ f.lines) (hitem : f.item = none) : closedFrame s c 0 f = { f with feTime := s.timeP } := by
  simp [closedFrame, hreason, hcrc, Nat.not_lt.mpr hlines, hitem]

/-! ### Frame ends (R297, R303) -/

/-- A frame end closes its context's open frame, and vertical blanking begins. -/
theorem frameEnd_open {s : State} {c hdr : Nat} {f : CamFrame} (hcur : (getC s c).cur = some f) : frameEnd s c hdr =
    let u := closeFrame (setCur s c { f with hdr := f.hdr + hdr }) c 0
    setC u c { getC u c with blank := some (f.frame, u.timeP, false) } := by
  simp only [frameEnd, hcur]

theorem csiFrameEnd_single {s u : State} {port vc hdr t c : Nat} {f : CamFrame} (hu : u = atPort t s) (hon : portOn u port = true)
    (hhdr : hdr ≤ 1) (hctx : ctxsOf u port vc = [c]) (hcur : (getC u c).cur = some f) :
    csiFrameEnd port vc hdr t s = runFifo (frameEnd u c hdr) port := by
  simp [csiFrameEnd, ← hu, hon, Nat.not_lt.mpr hhdr, hctx, hcur]

/-! ### Release notices (R295) -/

/-- The state once the oldest notice has given its context's rows back. -/
def rowsReleased (s : State) (c n : Nat) (rest : List (Nat × Nat)) : State :=
  setC { s with cam := { s.cam with notices := rest } } c { getC s c with used := (getC s c).used - n }

theorem releaseNotice_first {s : State} {c n : Nat} {rest : List (Nat × Nat)} (h : s.cam.notices = (c, n) :: rest) :
    releaseNotice s = runFifo (rowsReleased s c n rest) (cPort (camRec s c)) := by
  simp only [releaseNotice, h]
  rfl

theorem getC_rowsReleased (s : State) (c n : Nat) (rest : List (Nat × Nat)) :
    getC (rowsReleased s c n rest) c = { getC s c with used := (getC s c).used - n } := getC_setC_same ..

theorem getFifo_setFifo_nil (s : State) (port : Nat) : getFifo (setFifo s port []) port = [] := by
  by_cases h : port < s.cam.fifo.length
  · exact WordLaws.nth_set_same _ _ h
  · simp [getFifo, setFifo, nth, h]

/-- The one line that waits in a FIFO goes on when its rows are free. -/
theorem runFifo_line {s : State} {port c n row : Nat} {d : Bytes} (hfifo : getFifo s port = [.line c n row d])
    (hroom : (d.length + 511) / 512 ≤ camFree s c) : runFifo s port = sendLine (setFifo s port []) c n row d := by
  simp [runFifo, hfifo, drainFifo, Nat.not_lt.mpr hroom]

/-- Settles O26, a clause for each packet and two for the notices: a line is one replacement of its context, its rows and its ISP frame; a
frame end closes the frame as its flags say; and what a notice releases lets the line that waits go on. -/
theorem linesFillTheRawBuffer : Obligations.LinesFillTheRawBuffer := by
  unfold Obligations.LinesFillTheRawBuffer
  refine ⟨?line, ?embedded, ?frameEnd, ?notice, ?goesOn, ?none⟩
  case line =>
    intro s port vc dt c d f g hon h18 h2 h3 hctx hcur hreason hlines hwidth hemb hfifo hroom hring hframe hlive
    have hport : cPort (camRec s c) = port := cPort_of_mem_ctxsOf (List.mem_of_find?_eq_some hctx)
    have hrows : cLineRows (camRec s c) = (d.length + 511) / 512 := by rw [cLineRows, hwidth]
    have hsame : getC (setCur s c f) c = getC s c := getC_setCur_cur hcur
    have hline := pixelLine_whole (s := setCur s c f) (c := c) (d := d) (hsame ▸ hcur) hreason hlines hwidth (by rw [hsame]; exact hemb)
      (hport ▸ hfifo :) (by rw [camFree, hsame]; exact hroom)
    rw [camRec_setCur] at hline
    have harrive := lineArrive_live (s := rowsTaken (setCur (setCur s c f) c { f with lines := f.lines + 1 }) c ((d.length + 511) / 512))
      ((f.rbFirst + f.lines * cLineRows (camRec s c)) % cRbRows (camRec s c)) d hframe hlive
    rw [sendLine_eq, harrive] at hline
    refine ⟨_, congrArg Host.Outcome.next ((csiLongPacket_pixel hon h18 h2 h3 hctx hcur true).trans hline), ?_, ?_,
      findFrame_lineHere _ _ hframe, fun j hj => ?_, ?_⟩
    · rw [getC_lineHere, getC_rowsTaken, getC_setCur_same]
    · rw [getC_lineHere, getC_rowsTaken, getC_setCur_same, getC_setCur_same, hrows]
    · rw [raw_lineHere, camRec_rowsTaken, camRec_setCur, camRec_setCur]
      exact rdByte_lineStored _ _ (hrows ▸ hring) hj
    · exact (((setC_sameButCam ..).trans (setC_sameButCam ..)).trans (setC_sameButCam ..)).andIsp (lineHere_frame ..)
  case embedded =>
    intro s port vc c hdr d f e hon hhdr hctx hcur hemb hlines hepoch hcheck hvals
    have hconf := embCheck_confirms (s := setCur s c { f with hdr := f.hdr + hdr }) (c := c) (d := d)
      (congrArg CamCtx.cur (getC_setCur_same ..)) hemb hlines (by rw [getC_setCur_same]; exact hepoch) hcheck hvals
    refine ⟨_, congrArg Host.Outcome.next ((csiLongPacket_embedded hon hhdr hctx hcur true).trans hconf), ?_, rfl⟩
    rw [getC_setCur_same]
  case frameEnd =>
    intro s u port vc hdr t c f hu hon hhdr hctx hcur hadm hreason hcrc hlines hitem hlen
    have hport : cPort (camRec u c) = port := cPort_of_mem_ctxsOf (hctx ▸ List.mem_singleton_self c)
    have hopen : (getC (setCur u c { f with hdr := f.hdr + hdr }) c).cur = some { f with hdr := f.hdr + hdr } :=
      congrArg CamCtx.cur (getC_setCur_same ..)
    have hwhole := closedFrame_whole (s := setCur u c { f with hdr := f.hdr + hdr }) (c := c) (f := { f with hdr := f.hdr + hdr })
      hreason hcrc hlines hitem
    have hend := frameEnd_open (hdr := hdr) hcur
    rw [closeFrame_open 0 hopen, hwhole] at hend
    have hstep := (csiFrameEnd_single hu hon hhdr hctx hcur).trans (congrArg (runFifo · port) hend)
    refine ⟨_, _, congrArg Host.Outcome.next hstep, ?_, ?_, ?_, rfl, ?_⟩
    · rw [getC_setC_same, getC_queueStatus, getC_setC_same]
    · rw [getC_setC_same]
      rfl
    · rw [getFifo_setC]
      exact getFifo_queueStatus _ hport hlen
    · exact (((setC_sameButCam ..).trans (setC_sameButCam ..)).trans (queueStatus_sameButCam ..)).trans (setC_sameButCam ..)
  case notice =>
    intro s c n rest hnotice hfifo
    refine ⟨_, congrArg Host.Outcome.next ((releaseNotice_first hnotice).trans (runFifo_empty hfifo)), rfl, ?_, rfl⟩
    rw [getC_rowsReleased]
  case goesOn =>
    intro s c n fr row d rest hnotice hfifo hroom
    have hfree : camFree (rowsReleased s c n rest) c = cRbRows (camRec s c) - ((getC s c).used - n) := by
      rw [camFree, getC_rowsReleased]
      rfl
    refine ⟨_, congrArg Host.Outcome.next ((releaseNotice_first hnotice).trans (runFifo_line hfifo (hfree ▸ hroom))), rfl, ?_,
      getFifo_setFifo_nil ..⟩
    exact congrArg CamCtx.used (getC_rowsReleased ..)
  case none =>
    intro s h
    show Host.Outcome.next (releaseNotice s) = _
    simp only [releaseNotice, h]

end Sys2Proof.CameraLaws
end

section
/-! Writes of CAM_CTL, which enable ports and contexts and disable contexts, and I3C in-band interrupts. -/

namespace Sys2Proof.CameraLaws

open Sys2Proof Sys2Proof.Machine

/-! ### A write of CAM_CTL (R307) -/

/-- A write that passes its gate gives the ports, then takes contexts off, then puts contexts on. -/
theorem camCtlWrite_word {s : State} {m : Master} {v p x : Nat} (hg : regGate s true 1 0x10 m v = .pass) (hv : v = p + 65536 * x)
    (hp : p < 16) (hx : x < 65536) : camCtlWrite m v s =
      runFifos ((List.range 16).foldl (ctxUp x) ((List.range 16).foldl (ctxOff x) ((List.range 4).foldl (portEn p) s))) := by
  have hports : bitsOf v 0 4 = p := by rw [bitsOf]; omega
  have hctxs : bitsOf v 16 16 = x := by rw [bitsOf]; omega
  have hgate : regGate s true camBlock 0x10 m v = .pass := hg
  simp only [camCtlWrite, gated, hgate, hports, hctxs]

theorem runFifos_empty {s : State} (h : ∀ q, q < 4 → getFifo s q = []) : runFifos s = s :=
  foldl_fixed fun q hq => runFifo_empty (h q (List.mem_range.mp hq))

/-! ### Ports (R288, R308) -/

theorem portEn_same {v n : Nat} {s : State} (h : bitOf v n = bitOf (getF s F.CAM_CTL_PORT_EN) n) : portEn v s n = s := if_pos h

theorem ports_same {s : State} {v : Nat} (h : getF s F.CAM_CTL_PORT_EN = v) : (List.range 4).foldl (portEn v) s = s :=
  foldl_fixed fun _ _ => portEn_same (h ▸ rfl)

/-- With no port enabled, the write of one port's bit enables that port or refuses it. -/
theorem portEn_first {s : State} {p : Nat} (h : getF s F.CAM_CTL_PORT_EN = 0) : portEn (2 ^ p) s p =
    if portCfgOk s p then setF s F.CAM_CTL_PORT_EN (2 ^ p) else setF s F.CAM_STAT_CTX_REFUSED 1 := by
  simp [portEn, h, bitOf_two_pow, bitOf_zero, setBit_zero]

theorem ports_first {s : State} {p : Nat} (hp : p < 4) (h : getF s F.CAM_CTL_PORT_EN = 0) :
    (List.range 4).foldl (portEn (2 ^ p)) s =
      if portCfgOk s p then setF s F.CAM_CTL_PORT_EN (2 ^ p) else setF s F.CAM_STAT_CTX_REFUSED 1 := by
  have hother : ∀ i, i ≠ p → bitOf (2 ^ p) i = false := fun i hi => by simp [bitOf_two_pow, hi.symm]
  rw [foldl_range_single hp (fun i _ hi => portEn_same ?_) (fun i hi4 hi => portEn_same ?_), portEn_first h]
  · rw [h, hother i hi, bitOf_zero]
  · rw [portEn_first h, hother i hi]
    split
    · rw [getF_setF_same, bitOf_mod_two_pow, hother i hi, Bool.and_false]
    · rw [getF_setF_ne _ _ _ _ (by decide), h, bitOf_zero]

/-! ### Contexts (R292) -/

theorem ctxOff_same {v c : Nat} {s : State} (h : bitOf (getF s F.CAM_CTL_CTX_EN) c = false) : ctxOff v s c = s := if_pos (.inr h)

theorem ctxUp_same {v c : Nat} {s : State} (h : bitOf v c = false) : ctxUp v s c = s := if_pos (.inl h)

theorem ctxsOff_none {s : State} (v : Nat) (h : getF s F.CAM_CTL_CTX_EN = 0) : (List.range 16).foldl (ctxOff v) s = s :=
  foldl_fixed fun c _ => ctxOff_same (h ▸ bitOf_zero c)

theorem ctxsUp_zero (s : State) : (List.range 16).foldl (ctxUp 0) s = s := foldl_fixed fun c _ => ctxUp_same (bitOf_zero c)

/-- A write of one context's bit acts on that context alone. -/
theorem ctxsUp_single (s : State) {c : Nat} (hc : c < 16) : (List.range 16).foldl (ctxUp (2 ^ c)) s = ctxUp (2 ^ c) s c := by
  have hother : ∀ i, i ≠ c → bitOf (2 ^ c) i = false := fun i hi => by simp [bitOf_two_pow, hi.symm]
  exact foldl_range_single hc (fun i _ hi => ctxUp_same (hother i hi)) fun i _ hi => ctxUp_same (hother i hi)

/-- The state with context `c`, the only one, enabled afresh. -/
def ctxEnabled (s : State) (c : Nat) : State :=
  let x := getC s c
  setC (setF s F.CAM_CTL_CTX_EN (2 ^ c)) c
    { x with counter := 0, next := 0, cur := none, epochs := x.epochs.map (fun e => { e with from_ := 0, split := 0 }) }

theorem ctxUp_first {s : State} {c : Nat} (h : getF s F.CAM_CTL_CTX_EN = 0) : ctxUp (2 ^ c) s c =
    if ctxRefused s c then setF s F.CAM_STAT_CTX_REFUSED 1 else ctxEnabled s c := by
  simp [ctxUp, ctxEnabled, h, bitOf_two_pow, bitOf_zero, setBit_zero]

/-- With no context enabled, a write that adds one context's bit to the ports in force puts that context on. -/
theorem camCtlWrite_ctx {s : State} {m : Master} {v c : Nat} (hc : c < 16) (hv : v = getF s F.CAM_CTL_PORT_EN + 2 ^ (16 + c))
    (hports : getF s F.CAM_CTL_PORT_EN < 16) (hg : regGate s true 1 0x10 m v = .pass) (hnone : getF s F.CAM_CTL_CTX_EN = 0) :
    camCtlWrite m v s = runFifos (if ctxRefused s c then setF s F.CAM_STAT_CTX_REFUSED 1 else ctxEnabled s c) := by
  have hx : 2 ^ c < 65536 := Nat.pow_lt_pow_right (by decide) hc
  rw [camCtlWrite_word hg (hv.trans (congrArg _ (Nat.pow_add 2 16 c))) hports hx, ports_same rfl, ctxsOff_none _ hnone,
    ctxsUp_single s hc, ctxUp_first hnone]

/-! ### A context that is disabled (R297, R301, R302) -/

/-- Its posted sets are discarded, with what it holds of frame times. -/
def ctxReset (s : State) (c : Nat) : State := setC s c { getC s c with posted := [], blank := none, lastFs := none, interval := none }

/-- The rest of a write set that a frame start cut is discarded. -/
def heldDropped (s : State) (c : Nat) : State :=
  { s with cam := { s.cam with run := s.cam.run.map (fun r => if r.any (fun r => r.ctx == c && r.hold == 2) then none else r) } }

theorem heldDropped_sameButCam (s : State) (c : Nat) : SameButCam s (heldDropped s c) := rfl

/-- The state once context `c`, the only one enabled, with frame `f` open, is off. -/
def ctxDisabled (s : State) (c : Nat) (f : CamFrame) : State :=
  let u := setF s F.CAM_CTL_CTX_EN 0
  heldDropped (ctxReset (queueStatus (setC u c { getC u c with cur := none, next := rowAfter u c f }) c (closedFrame u c 2 f)) c) c

theorem ctxOff_last {s : State} {c : Nat} {f : CamFrame} (hon : getF s F.CAM_CTL_CTX_EN = 2 ^ c) (hcur : (getC s c).cur = some f) :
    ctxOff 0 s c = ctxDisabled s c f := by
  have hbit : ¬(bitOf 0 c = true ∨ bitOf (getF s F.CAM_CTL_CTX_EN) c = false) := by simp [hon, bitOf_two_pow, bitOf_zero]
  have hclose := closeFrame_open (s := setF s F.CAM_CTL_CTX_EN 0) 2 hcur
  rw [ctxOff, if_neg hbit, hon, clearBit_two_pow, hclose]
  rfl

theorem getF_ctxDisabled (s : State) (c : Nat) (f : CamFrame) : getF (ctxDisabled s c f) F.CAM_CTL_CTX_EN = 0 := getF_setF_same ..

theorem getC_ctxDisabled (s : State) (c : Nat) (f : CamFrame) :
    (getC (ctxDisabled s c f) c).cur = none ∧ (getC (ctxDisabled s c f) c).posted = [] := by
  have h : getC (ctxDisabled s c f) c = _ := getC_setC_same ..
  rw [h, getC_queueStatus, getC_setC_same]
  exact ⟨rfl, rfl⟩

theorem ctxsOff_last {s : State} {c : Nat} {f : CamFrame} (hc : c < 16) (hon : getF s F.CAM_CTL_CTX_EN = 2 ^ c)
    (hcur : (getC s c).cur = some f) : (List.range 16).foldl (ctxOff 0) s = ctxDisabled s c f := by
  rw [foldl_range_single hc (fun i _ hi => ctxOff_same ?_) (fun i _ _ => ctxOff_same ?_), ctxOff_last hon hcur]
  · simp [hon, bitOf_two_pow, hi.symm]
  · rw [ctxOff_last hon hcur, getF_ctxDisabled, bitOf_zero]

theorem ctxDisabled_frame (s : State) (c : Nat) (f : CamFrame) : { ctxDisabled s c f with regs := s.regs, cam := s.cam } = s :=
  (((setC_sameButCam ..).trans (queueStatus_sameButCam ..)).trans
    ((setC_sameButCam ..).trans (heldDropped_sameButCam ..))).afterRegs (s := s) rfl

/-- Its status word waits behind what the port's FIFO holds. -/
theorem getFifo_ctxDisabled {s : State} (c : Nat) (f : CamFrame) (hlen : cPort (camRec s c) < s.cam.fifo.length) :
    getFifo (ctxDisabled s c f) (cPort (camRec s c)) =
      getFifo s (cPort (camRec s c)) ++ [.status c (closedFrame (setF s F.CAM_CTL_CTX_EN 0) c 2 f)] :=
  WordLaws.nth_set_same _ _ hlen

/-! ### In-band interrupts (R301) -/

theorem ibi_latched (s : State) {port addr : Nat} (haddr : addr < 128) :
    let t := setF (setF s (F.CAM_PORT_STAT_IBI port) 1) (F.CAM_PORT_STAT_IBI_ADDR port) addr
    isSet t (F.CAM_PORT_STAT_IBI port) = true ∧ getF t (F.CAM_PORT_STAT_IBI_ADDR port) = addr := by
  have hkey : (F.CAM_PORT_STAT_IBI port).key ≠ (F.CAM_PORT_STAT_IBI_ADDR port).key := by
    simp only [Fld.key, F.CAM_PORT_STAT_IBI, F.CAM_PORT_STAT_IBI_ADDR]
    omega
  refine ⟨?_, (getF_setF_same ..).trans (Nat.mod_eq_of_lt haddr)⟩
  rw [isSet, getF_setF_ne _ _ _ _ hkey, getF_setF_same]
  rfl

/-- Settles O27, a clause for each write and one for the interrupt: of a fold over ports or contexts the step of the written bit alone acts. -/
theorem camerasAreConfigured : Obligations.CamerasAreConfigured := by
  unfold Obligations.CamerasAreConfigured
  refine ⟨?port, ?enabled, ?refused, ?disabled, ?ibi⟩
  case port =>
    intro s m v p hp hv hg hports hctxs hfifo
    have hp16 : 2 ^ p < 16 := Nat.pow_lt_pow_right (by decide) hp
    refine congrArg Host.Outcome.next ?_
    rw [camCtlWrite_word (p := 2 ^ p) (x := 0) hg hv hp16 (by decide), ports_first hp hports, ctxsOff_none, ctxsUp_zero, runFifos_empty]
    · split <;> exact hfifo
    · split <;> rw [getF_setF_ne _ _ _ _ (by decide), hctxs]
  case enabled =>
    intro s m v c hc hv hports hg hnone hfifo hgood
    have hwrite := camCtlWrite_ctx hc hv hports hg hnone
    rw [hgood, if_neg Bool.false_ne_true, runFifos_empty (s := ctxEnabled s c) hfifo] at hwrite
    have hbit : getF (ctxEnabled s c) F.CAM_CTL_CTX_EN = 2 ^ c :=
      (getF_setF_same ..).trans (Nat.mod_eq_of_lt (Nat.pow_lt_pow_right (by decide) hc))
    have hctx : getC (ctxEnabled s c) c = _ := getC_setC_same ..
    refine ⟨_, congrArg Host.Outcome.next hwrite, hbit, ?_, ?_, ?_, rfl⟩ <;> rw [hctx]
  case refused =>
    intro s m v c hc hv hports hg hnone hfifo hbad
    have hwrite := camCtlWrite_ctx hc hv hports hg hnone
    rw [hbad, if_pos rfl, runFifos_empty (s := setF s _ 1) hfifo] at hwrite
    exact congrArg Host.Outcome.next hwrite
  case disabled =>
    intro s m v c f hc hv hports hg hon hfifo hcur
    have hstep : camCtlWrite m v.toNat s = runFifos (ctxDisabled s c f) := by
      rw [camCtlWrite_word (p := getF s F.CAM_CTL_PORT_EN) (x := 0) hg hv hports (by decide), ports_same rfl, ctxsOff_last hc hon hcur, ctxsUp_zero]
    have hport : cPort (camRec s c) < 4 := Nat.mod_lt _ (by decide)
    have hempty : getFifo s (cPort (camRec s c)) = [] := by
      rw [getFifo, hfifo, nth, List.getElem?_replicate, if_pos hport, Option.getD_some]
    obtain ⟨hnone, hposted⟩ := getC_ctxDisabled s c f
    refine ⟨ctxDisabled s c f, closedFrame (setF s F.CAM_CTL_CTX_EN 0) c 2 f, congrArg Host.Outcome.next hstep,
      getF_ctxDisabled s c f, hnone, hposted, ?_, closedFrame_flag (by decide), closedFrame_frame .., ctxDisabled_frame s c f⟩
    rw [getFifo_ctxDisabled c f (by rw [hfifo]; exact hport), hempty, List.nil_append]
  case ibi =>
    intro s port addr hport hmode haddr
    exact ⟨_, congrArg Host.Outcome.next (if_pos ⟨hport, hmode⟩), (ibi_latched s haddr).1, (ibi_latched s haddr).2, rfl⟩

end Sys2Proof.CameraLaws
end

section
/-! Write sets, from their posting to their last transaction, and the pulses of the trigger outputs. -/

namespace Sys2Proof.CameraLaws

open Sys2Proof Sys2Proof.Machine

/-! ### Posting (R302, R304) -/

/-- A write of CAM_WSCMD that passes its gate posts a set with GO, and does nothing without. -/
theorem camWscmdPost_pass {s : State} {m : Master} {v : Nat} (hg : regGate s true 1 0x50 m v = .pass) : camWscmdPost m v s =
    if bitOf v 31 then postSet s (bitsOf v 0 4) (bitsOf v 4 7) (bitsOf v 11 6) (bitOf v 17) else s := by
  have hgate : regGate s true camBlock 0x50 m v = .pass := hg
  simp only [camWscmdPost, gated, hgate]

/-- A set is posted when its count, its range, the queue and its entries allow. -/
theorem postSet_eq (s : State) (c a n : Nat) (noEpoch : Bool) : postSet s c a n noEpoch =
    if 1 ≤ n ∧ n ≤ 32 ∧ a + n ≤ 128 ∧ (getC s c).posted.length < 4 ∧
        (noEpoch = true ∨ ∀ i, i < n → wsRead (wsEntry s (cPort (camRec s c)) (a + i)) = false) then
      setC s c { getC s c with posted := (getC s c).posted ++ [{ first := a, count := n, noEpoch := noEpoch }] }
    else setF s (F.CAM_WSSTAT_REFUSED c) 1 := by
  have hread : (!noEpoch && (List.range n).any (fun i => wsRead (wsEntry s (cPort (camRec s c)) (a + i)))) = true ↔
      ¬(noEpoch = true ∨ ∀ i, i < n → wsRead (wsEntry s (cPort (camRec s c)) (a + i)) = false) := by
    cases noEpoch <;> simp
  have hbad : (n = 0 ∨ 32 < n ∨ 128 < a + n ∨ 4 ≤ (getC s c).posted.length ∨
      (!noEpoch && (List.range n).any (fun i => wsRead (wsEntry s (cPort (camRec s c)) (a + i)))) = true) ↔
      ¬(1 ≤ n ∧ n ≤ 32 ∧ a + n ≤ 128 ∧ (getC s c).posted.length < 4 ∧
        (noEpoch = true ∨ ∀ i, i < n → wsRead (wsEntry s (cPort (camRec s c)) (a + i)) = false)) := by
    simp only [hread, Classical.not_and_iff_not_or_not, Nat.not_le, Nat.not_lt, Nat.lt_one_iff]
  simp only [postSet, hbad, ite_not]

/-! ### The start of a set (R303, R304) -/

section
variable {s u : State} {port t bit c b0 n0 : Nat} {b1 : Bool} {w : WsPost} {rest : List WsPost}

/-- A set of an enabled context whose blanking has come starts, or is deferred when it would not end in time. -/
theorem writeSetStart_due (hu : u = atPort t s) (hport : port < 4) (hpow : powered u domCam = true) (hbit : bitTime u port = some bit)
    (hrun : nth u.cam.run port none = none) (hnext : nextSet u port = some c) (hon : ctxOn u c = true)
    (hposted : (getC u c).posted = w :: rest) (hblank : (getC u c).blank = some (n0, b0, b1))
    (hdue : b0 + 1000 * leAt (camRec u c) 26 2 ≤ u.timeP) : writeSetStart port t s =
      if setFits u c (setNs u port bit w) then beginSet u port c w else setC u c (markBlank (getC u c)) := by
  simp [writeSetStart, ← hu, Nat.not_le.mpr hport, hpow, hbit, hrun, hnext, hon, hposted, hblank, Nat.not_lt.mpr hdue]

end

/-- The number that the next epoch of a context has. -/
def nextEpoch (s : State) (c : Nat) : Nat := (getC s c).lastEpoch % 0xFFFE + 1

/-- That epoch, in force from D frames after the one whose blanking this is. -/
def newEpoch (s : State) (c : Nat) : Epoch :=
  let x := getC s c
  let n := (x.blank.map (·.1)).getD x.counter + cDelay (camRec s c)
  let vals := (x.epochs.getLast?.map (·.vals)).getD []
  { num := nextEpoch s c, prev := x.lastEpoch, from_ := n, split := n, vals := vals, prevVals := vals }

/-- A context once its next set has started: the set is no longer posted, and its epoch has begun unless it has none. -/
def setBegun (s : State) (c : Nat) (w : WsPost) : CamCtx :=
  let x := getC s c
  let y := { markBlank x with posted := x.posted.drop 1 }
  if w.noEpoch then y
  else { y with lastEpoch := nextEpoch s c, epochs := (y.epochs ++ [newEpoch s c]).drop (y.epochs.length - 7) }

theorem setBegun_posted (s : State) (c : Nat) (w : WsPost) : (setBegun s c w).posted = (getC s c).posted.drop 1 := by
  unfold setBegun
  split <;> rfl

theorem setBegun_lastEpoch (s : State) (c : Nat) (w : WsPost) :
    (setBegun s c w).lastEpoch = if w.noEpoch then (getC s c).lastEpoch else nextEpoch s c := by
  unfold setBegun
  split <;> rfl

/-- The epoch that begins is the youngest. -/
theorem setBegun_epoch (s : State) (c : Nat) {w : WsPost} (hw : w.noEpoch = false) :
    (setBegun s c w).epochs.getLast? = some (newEpoch s c) := by
  simp only [setBegun, hw, Bool.false_eq_true, if_false]
  rw [List.getLast?_drop, if_neg (by rw [List.length_append, List.length_singleton]; omega), List.getLast?_concat]

theorem newEpoch_from {s : State} {c n0 b0 : Nat} {b1 : Bool} (hblank : (getC s c).blank = some (n0, b0, b1)) :
    (newEpoch s c).from_ = n0 + cDelay (camRec s c) := by
  simp only [newEpoch, hblank, Option.map_some, Option.getD_some]

/-- The state with the running set of a port replaced. -/
def setRun (s : State) (port : Nat) (x : Option WsRun) : State := { s with cam := { s.cam with run := s.cam.run.set port x } }

theorem setRun_sameButCam (s : State) (port : Nat) (x : Option WsRun) : SameButCam s (setRun s port x) := rfl

theorem run_setRun_same {s : State} {port : Nat} (x : Option WsRun) (h : port < s.cam.run.length) :
    nth (setRun s port x).cam.run port none = x := WordLaws.nth_set_same _ _ h

theorem beginSet_eq (s : State) (port c : Nat) (w : WsPost) : beginSet s port c w =
    setRun (setC s c (setBegun s c w)) port (some { ctx := c, set := w, epoch := if w.noEpoch then none else some (nextEpoch s c) }) := rfl

theorem getC_beginSet (s : State) (port c : Nat) (w : WsPost) : getC (beginSet s port c w) c = setBegun s c w := getC_setC_same ..

/-! ### The transactions of a set (R302, R304, R305) -/

section
variable {s : State} {port : Nat} {r : WsRun}

/-- A port that runs a set is one of the camera's. -/
theorem port_of_run (h : nth s.cam.run port none = some r) : port < s.cam.run.length := by
  refine Nat.lt_of_not_le fun hout => ?_
  rw [nth, List.getElem?_eq_none hout] at h
  cases h

/-- An entry done leaves the running sets as they were. -/
theorem entryDone_run (s : State) (port : Nat) (r : WsRun) (rd : Nat) : (entryDone s port r rd).cam.run = s.cam.run := by
  simp only [entryDone]
  split <;> rfl

theorem entryDone_sameButCam (s : State) (port : Nat) (r : WsRun) (rd : Nat) : SameButCam s (entryDone s port r rd) := by
  simp only [entryDone]
  split <;> rfl

/-- An acknowledged transaction does its entry, and the set goes on to the next or has ended. -/
theorem writeSetEntry_acked (rd : Nat) (hrun : nth s.cam.run port none = some r) (hhold : r.hold = 0) :
    writeSetEntry port true rd s = setRun (entryDone s port r rd) port
      (if r.set.count ≤ r.done + 1 then none else some { r with done := r.done + 1, tries := 0 }) := by
  simp [writeSetEntry, hrun, hhold, setRun]

theorem writeSetEntry_retried (rd : Nat) (hrun : nth s.cam.run port none = some r) (hhold : r.hold = 0) (htries : r.tries < 2) :
    writeSetEntry port false rd s = setRun s port (some { r with tries := r.tries + 1 }) := by
  simp [writeSetEntry, hrun, hhold, htries, setRun]

/-- The youngest epoch of a context, where it is that of a set that has failed, is marked so. -/
def markFailed (x : CamCtx) (epoch : Option Nat) : CamCtx :=
  { x with epochs := x.epochs.map (fun y => if some y.num = epoch ∧ x.lastEpoch = y.num then { y with failed := true } else y) }

theorem failed_of_mem_markFailed {x : CamCtx} {epoch : Option Nat} {y : Epoch} (hy : y ∈ (markFailed x epoch).epochs)
    (hnum : some y.num = epoch) (hlast : y.num = x.lastEpoch) : y.failed = true := by
  obtain ⟨z, -, rfl⟩ := List.mem_map.mp hy
  split
  case isTrue => rfl
  case isFalse h =>
    rw [if_neg h] at hnum hlast
    exact absurd ⟨hnum, hlast.symm⟩ h

/-- The state once a set has failed on its bus. -/
def setFailed (s : State) (port : Nat) (r : WsRun) : State :=
  setF (setC (setRun s port none) r.ctx (markFailed (getC s r.ctx) r.epoch)) (F.CAM_WSSTAT_BUS_FAIL r.ctx) 1

theorem getC_setFailed (s : State) (port : Nat) (r : WsRun) : getC (setFailed s port r) r.ctx = markFailed (getC s r.ctx) r.epoch :=
  getC_setC_same ..

theorem writeSetEntry_failed (rd : Nat) (hrun : nth s.cam.run port none = some r) (hhold : r.hold = 0) (htries : 2 ≤ r.tries) :
    writeSetEntry port false rd s = camRaise (setFailed s port r) 0x0204 (ctxPart s r.ctx) 0xFFFF [r.ctx] := by
  simp only [writeSetEntry, hrun, hhold, Nat.not_lt.mpr htries]
  rfl

end

/-! ### Triggers (R306) -/

section
variable {s u : State} {n t a : Nat}

/-- A pulse that is due on an enabled output is driven for WIDTH microseconds. -/
theorem triggerPulse_due {rest : List Nat} (hu : u = atPort t s) (hsched : (nth u.cam.trig n {}).sched = a :: rest)
    (hen : isSet u (F.TRG_CFG_EN n) = true) (hdue : a ≤ u.timeP) :
    triggerPulse n t s = setTrig u n { sched := rest, endAt := some (a + 1000 * getF u (F.TRG_CFG_WIDTH n)) } := by
  simp [triggerPulse, ← hu, hsched, hen, hdue]

theorem triggerPulseEnd_driving (hu : u = atPort t s) (hend : (nth u.cam.trig n {}).endAt = some a) :
    triggerPulseEnd n t s = if a ≤ u.timeP then setTrig u n { nth u.cam.trig n {} with endAt := none } else u := by
  simp [triggerPulseEnd, ← hu, hend]

end

/-- Settles O28, a clause for each event of a set and two for the triggers: each takes the one branch of its command that the hypotheses
leave open. -/
theorem writeSetsAndTriggersRun : Obligations.WriteSetsAndTriggersRun := by
  unfold Obligations.WriteSetsAndTriggersRun
  refine ⟨?posted, ?noGo, ?starts, ?deferred, ?acked, ?retried, ?failed, ?pulse, ?pulseEnd⟩
  case posted =>
    intro s m v hg hgo
    refine congrArg Host.Outcome.next ?_
    rw [camWscmdPost_pass hg, if_pos hgo, postSet_eq]
  case noGo =>
    intro s m v hg hgo
    refine congrArg Host.Outcome.next ?_
    rw [camWscmdPost_pass hg, if_neg (Bool.eq_false_iff.mp hgo)]
  case starts =>
    intro s u port t bit c b0 n0 b1 w rest hu hlen hport hpow hbit hrun hnext hon hposted hblank hdue hfits
    have hstep := writeSetStart_due hu hport hpow hbit hrun hnext hon hposted hblank hdue
    rw [if_pos hfits] at hstep
    refine ⟨beginSet u port c w, _, congrArg Host.Outcome.next hstep, ?_, rfl, run_setRun_same (s := setC u c _) _ hlen, ?_, fun hw => ?_,
      (setC_sameButCam ..).trans (setRun_sameButCam ..)⟩
    · rw [getC_beginSet, setBegun_posted, hposted, List.drop_one, List.tail_cons]
    · rw [getC_beginSet, setBegun_lastEpoch]
      rfl
    · refine ⟨newEpoch u c, ?_, ?_, newEpoch_from hblank⟩
      · rw [getC_beginSet, setBegun_epoch u c hw]
      · rw [hw, if_neg Bool.false_ne_true]
        rfl
  case deferred =>
    intro s u port t bit c b0 n0 b1 w rest hu hport hpow hbit hrun hnext hon hposted hblank hdue hfits
    have hstep := writeSetStart_due hu hport hpow hbit hrun hnext hon hposted hblank hdue
    rw [hfits, if_neg Bool.false_ne_true, markBlank, hblank] at hstep
    exact congrArg Host.Outcome.next hstep
  case acked =>
    intro s port rd r hrun hhold _
    refine ⟨_, congrArg Host.Outcome.next (writeSetEntry_acked rd hrun hhold), run_setRun_same _ ?_,
      (entryDone_sameButCam ..).trans (setRun_sameButCam ..)⟩
    rw [entryDone_run]
    exact port_of_run hrun
  case retried =>
    exact fun s port rd r hrun hhold htries => congrArg Host.Outcome.next (writeSetEntry_retried rd hrun hhold htries)
  case failed =>
    intro s port rd r hrun hhold htries
    refine ⟨setFailed s port r, congrArg Host.Outcome.next (writeSetEntry_failed rd hrun hhold htries), ArrayLaws.isSet_setF_one _ rfl,
      run_setRun_same none (port_of_run hrun), fun y hy hnum hlast => ?_, rfl⟩
    rw [getC_setFailed] at hy
    exact failed_of_mem_markFailed hy hnum hlast
  case pulse =>
    exact fun s u n t a rest hu _ hsched hen hdue => congrArg Host.Outcome.next (triggerPulse_due hu hsched hen hdue)
  case pulseEnd => exact fun s u n t a hu hend => congrArg Host.Outcome.next (triggerPulseEnd_driving hu hend)

end Sys2Proof.CameraLaws
end

section
/-! What an access to memory leaves as it was, whether it passes its checks or is refused. -/

namespace Sys2Proof.CodecLaws

open Sys2Proof Sys2Proof.Machine

/-- Nothing differs but what a unit's accesses and the turn of its memories can change: what a fault can, memory with its checks, the
register-event log, the unit's buffers and the count of draws. -/
def SameButAccess (s t : State) : Prop :=
  { t with regs := s.regs, flt := s.flt, hif := s.hif, sch := s.sch, pwr := s.pwr, mem := s.mem, mapu := s.mapu, rlog := s.rlog,
           rlogHead := s.rlogHead, bufs := s.bufs, free := s.free } = s

theorem SameButAccess.refl (s : State) : SameButAccess s s := rfl

theorem SameButAccess.trans {s t u : State} (h : SameButAccess s t) (g : SameButAccess t u) : SameButAccess s u := by
  unfold SameButAccess at h g
  rw [← g] at h
  exact h

section
variable {s t : State} (h : SameButAccess s t)
include h

theorem SameButAccess.qm : t.qm = s.qm := (congrArg State.qm h :)

theorem SameButAccess.cdc : t.cdc = s.cdc := (congrArg State.cdc h :)

theorem SameButAccess.tick : t.tick = s.tick := (congrArg State.tick h :)

end

theorem SameButAccess.ofFaults {s t : State} (h : sameButFaults s t) : SameButAccess s t := by
  unfold sameButFaults at h
  unfold SameButAccess
  rw [← h]

theorem raise_sameButAccess (s : State) (port : Bool) (code cls : Nat) (part : Option Nat) (block item : Nat) (detail : List Nat) :
    SameButAccess s (raise s port code cls part block item detail) := .ofFaults (raise_same ..)

theorem rlogAdd_sameButAccess (s : State) (addr : Nat) (m : Master) (reason data : Nat) :
    SameButAccess s (rlogAdd s addr m reason data) := by
  unfold rlogAdd
  dsimp only
  split <;> rfl

theorem setF_sameButAccess (s : State) (x : Fld) (v : Nat) : SameButAccess s (setF s x v) := rfl

/-- The state that the checks of an access leave. -/
def after (s : State) : Bus → State
  | .refused t _ => t
  | _ => s

/-- The checks of an access change nothing but what an access can. -/
def Keeps (s : State) (b : Bus) : Prop := SameButAccess s (after s b)

theorem keeps_pass (s : State) : Keeps s .pass := rfl

theorem keeps_silent (s : State) : Keeps s .silent := rfl

theorem keeps_unreachable (s : State) (m : Master) (reason a : Nat) : Keeps s (.refused (unreachable s m reason a) .unreach) :=
  raise_sameButAccess ..

theorem keeps_ite {s : State} {c : Prop} [Decidable c] {a b : Bus} (ha : Keeps s a) (hb : Keeps s b) : Keeps s (if c then a else b) := by
  split
  · exact ha
  · exact hb

theorem mapGate_keeps (s : State) (m : Master) (port : Port) (a len : Nat) (write : Bool) (data : Nat) :
    Keeps s (mapGate s m port a len write data) :=
  have hpartial := raise_sameButAccess s false 0x0120 2 (some m.part) 4 0xFFFF []
  have hdenied := (raise_sameButAccess s false 0x0121 2 (some m.part) 4 0xFFFF []).trans (rlogAdd_sameButAccess _ a m 6 data)
  keeps_ite (keeps_unreachable ..) <| keeps_ite (keeps_silent s) <| keeps_ite hpartial <| keeps_ite hdenied (keeps_pass s)

theorem tileGate_keeps (s : State) (m : Master) (a i : Nat) : Keeps s (tileGate s m a i) :=
  have hoff := keeps_unreachable s m 1 a
  keeps_ite hoff <| keeps_ite hoff <| keeps_ite hoff <| keeps_ite hoff (keeps_pass s)

theorem busGate_keeps (s : State) (m : Master) (port : Port) (a len : Nat) (write : Bool) (data : Nat) :
    Keeps s (busGate s m port a len write data) := by
  have hstore : SameButAccess s (rlogAdd s a m 5 data) := rlogAdd_sameButAccess ..
  have hfilter : SameButAccess s (partFilter s m (if write then 1 else 0) a data) :=
    (raise_sameButAccess ..).trans (rlogAdd_sameButAccess ..)
  refine keeps_ite (keeps_unreachable ..) <| keeps_ite hstore <| keeps_ite (keeps_unreachable ..) <| keeps_ite (keeps_silent s) <|
    keeps_ite hfilter ?_
  split
  · split
    · exact keeps_unreachable ..
    · exact keeps_pass s
  · exact mapGate_keeps ..
  · exact tileGate_keeps ..
  · exact keeps_pass s

theorem busWrite_sameButAccess (s : State) (m : Master) (port : Port) (a : Nat) (bs : Bytes) :
    SameButAccess s (busWrite s m port a bs).1 := by
  have hgate := busGate_keeps s m port a bs.length true (leVal (bs.take 4))
  unfold busWrite
  split
  case h_1 t y hrefused => rwa [hrefused] at hgate
  case h_2 => exact .refl s
  case h_3 => exact .refl s

end Sys2Proof.CodecLaws
end

section
/-! The jobs of the codec cores: their start, their refusal, and their end with a completion. -/

namespace Sys2Proof.CodecLaws

open Sys2Proof Sys2Proof.Machine

/-! ### Queues and jobs -/

theorem popQ_cdc (s : State) (q : Nat) : (popQ s q).cdc = s.cdc := by
  unfold popQ
  dsimp only
  split <;> rfl

theorem getQ_popQ_entries (s : State) (q : Nat) : (getQ (popQ s q) q).entries = (getQ s q).entries.tail := by
  unfold popQ
  dsimp only
  split
  case h_1 hempty => rw [hempty, List.tail_nil]
  case h_2 x xs hentries => rw [getQ_setQ_same, hentries, List.tail_cons]

theorem getJob_setJob_same {s : State} {k : Nat} (j : Option CdcJob) (h : k < s.cdc.jobs.length) : getJob (setJob s k j) k = j :=
  WordLaws.nth_set_same _ _ h

theorem nth_set_none {α : Type} (l : List (Option α)) (k : Nat) : nth (l.set k none) k none = none := by
  rw [nth, List.getElem?_set_self']
  cases l[k]? <;> rfl

/-- An entry that its queue admits, and that no codec item can bind, is its queue's last. -/
theorem postData_taken {s : State} {q : Nat} (data : Bytes) (producer : Nat) {part : Nat} (hadmit : qRefusal (getQ s q) part = none)
    (hcons : (getQ s q).consumer < 24 ∨ 28 ≤ (getQ s q).consumer) : (postData s q data producer part).1 =
      setQ s q { getQ s q with entries := (getQ s q).entries ++ [{ cairn := false, data := data, producer := producer }] } := by
  have hbind : ¬(24 ≤ (getQ s q).consumer ∧ (getQ s q).consumer < 28) := by omega
  simp only [postData, hadmit, if_neg hbind, bindJob]

/-! ### The start of a job (R31, R341, R343, R344) -/

theorem clearTile_sameButAccess (s : State) (i : Nat) : SameButAccess s (clearTile s i) := rfl

theorem useBuf_sameButAccess (s : State) (b part : Nat) : SameButAccess s (useBuf s b part) := rfl

theorem turnBuf_sameButAccess (s : State) (b part : Nat) : SameButAccess s (turnBuf s b part) := by
  unfold turnBuf
  split <;> rfl

/-- To turn a core over to a partition touches its tile memory and its buffers alone. -/
theorem coreTurn_sameButAccess (s : State) (k part : Nat) : SameButAccess s (coreTurn s k part) := by
  unfold coreTurn
  refine .trans (.trans ?_ (turnBuf_sameButAccess ..)) (useBuf_sameButAccess ..)
  split
  · exact .refl s
  · exact clearTile_sameButAccess ..

/-- The core has been turned over to a partition, and holds that of its last job. -/
def coreTaken (s : State) (k part : Nat) : State :=
  let u := coreTurn s k part
  drawn { u with cdc := { u.cdc with prev := u.cdc.prev.set k (some part) } }

theorem coreTaken_qm (s : State) (k part : Nat) : (coreTaken s k part).qm = s.qm := (coreTurn_sameButAccess s k part).qm

theorem coreTaken_jobs (s : State) (k part : Nat) : (coreTaken s k part).cdc.jobs = s.cdc.jobs :=
  (congrArg Cdc.jobs (coreTurn_sameButAccess s k part).cdc :)

/-- A job holds an encoder. -/
def jobTaken (s : State) (k : Nat) (j : CdcJob) : State := setJob (coreTaken s k j.part) k (some j)

theorem getJob_jobTaken {s : State} {k : Nat} (j : CdcJob) (h : k < s.cdc.jobs.length) : getJob (jobTaken s k j) k = some j :=
  getJob_setJob_same _ (by rw [coreTaken_jobs]; exact h)

theorem getQ_jobTaken (s : State) (k : Nat) (j : CdcJob) (q : Nat) : getQ (jobTaken s k j) q = getQ s q := by
  have hqueues : (jobTaken s k j).qm = s.qm := coreTaken_qm s k j.part
  rw [getQ, hqueues, getQ]

/-- An encoder's job for one core begins on it. -/
theorem beginJob_encoder (s : State) {k : Nat} {desc : Bytes} {part : Nat} {item : Option Nat} (hk : k < 2) :
    beginJob s k { desc := desc, part := part, item := item } = jobTaken s k { desc := desc, part := part, item := item } := by
  simp [beginJob, jobTaken, coreTaken, Nat.not_le.mpr hk]

section
variable {s : State} {k q : Nat} {e : QEntry} {d y c : State × Bytes × Bool}

/-- What becomes of a free core's next job whose descriptors could be read. -/
theorem codecStart_chosen (hk : k < 4) (hpow : powered s domCodec = true) (hfree : coreFree s k = true)
    (hchoice : codecChoice s k = some (q, e)) (hd : d = readBytes s (codecMaster k (getQ s q).part) .system 1 (leAt e.data 0 8) 64)
    (hy : y = readBytes d.1 (codecMaster k (getQ s q).part) .system 1 (jPicY d.2.1) 64)
    (hc : c = if jPicC d.2.1 = 0 then (y.1, [], false) else readBytes y.1 (codecMaster k (getQ s q).part) .system 1 (jPicC d.2.1) 64)
    (hwait : dramWaits s 8 (leAt e.data 0 8) = false) (hdp : d.2.2 = false) (hyp : y.2.2 = false) (hcp : c.2.2 = false) :
    let part := (getQ s q).part
    let yd : TDesc := { addr := jPicY d.2.1, raw := y.2.1 }
    let cd : TDesc := { addr := jPicC d.2.1, raw := c.2.1 }
    let j : CdcJob := { desc := d.2.1, part := part, item := e.item, pair := bitOf (jFlags d.2.1) 0 }
    codecStart k s =
      if codecRefused k d.2.1 yd cd then
        jobEnd (raise (popQ c.1 q) false 0x0152 2 (some part) 15 (boundId s e.item) []) k { j with pair := false } 2 0 0
      else if j.pair ∧ !coreFree s (k + 1) then s
      else if k < 2 ∧ (uncommitted yd ∨ (jPicC d.2.1 ≠ 0 ∧ !bitOf (jFlags d.2.1) 3 ∧ uncommitted cd)) then
        stopJob (raise (popQ c.1 q) false 0x0141 2 (some part) 15 (boundId s e.item) []) k { j with pair := false }
      else beginJob (popQ c.1 q) k j := by
  have hgo : ¬(4 ≤ k ∨ (!powered s domCodec) = true ∨ (!coreFree s k) = true) := by simp [hpow, hfree, hk]
  have hbad : (d.2.2 || y.2.2 || c.2.2) = false := by rw [hdp, hyp, hcp]; rfl
  intro part yd cd j
  simp only [codecStart, if_neg hgo, hchoice, hwait, Bool.false_eq_true, if_false, ← hd, ← hy, ← hc, hbad]
  rfl

/-- An encoder's job for one core begins when its picture is committed where it asks for it. -/
theorem codecStart_begins (hk : k < 2) (hpow : powered s domCodec = true) (hfree : coreFree s k = true)
    (hchoice : codecChoice s k = some (q, e)) (hd : d = readBytes s (codecMaster k (getQ s q).part) .system 1 (leAt e.data 0 8) 64)
    (hy : y = readBytes d.1 (codecMaster k (getQ s q).part) .system 1 (jPicY d.2.1) 64)
    (hc : c = if jPicC d.2.1 = 0 then (y.1, [], false) else readBytes y.1 (codecMaster k (getQ s q).part) .system 1 (jPicC d.2.1) 64)
    (hwait : dramWaits s 8 (leAt e.data 0 8) = false) (hdp : d.2.2 = false) (hyp : y.2.2 = false) (hcp : c.2.2 = false)
    (hgood : codecRefused k d.2.1 { addr := jPicY d.2.1, raw := y.2.1 } { addr := jPicC d.2.1, raw := c.2.1 } = false)
    (hsingle : bitOf (jFlags d.2.1) 0 = false) (hluma : uncommitted { addr := jPicY d.2.1, raw := y.2.1 } = false)
    (hchroma : jPicC d.2.1 = 0 ∨ bitOf (jFlags d.2.1) 3 = true ∨ uncommitted { addr := jPicC d.2.1, raw := c.2.1 } = false) :
    codecStart k s = jobTaken (popQ c.1 q) k { desc := d.2.1, part := (getQ s q).part, item := e.item } := by
  have hcommitted : ¬(k < 2 ∧ (uncommitted { addr := jPicY d.2.1, raw := y.2.1 } = true ∨ (jPicC d.2.1 ≠ 0 ∧
      (!bitOf (jFlags d.2.1) 3) = true ∧ uncommitted { addr := jPicC d.2.1, raw := c.2.1 } = true))) := by
    rintro ⟨-, hy | ⟨hplane, hyuv, hc⟩⟩
    · simp [hluma] at hy
    · rcases hchroma with h | h | h
      · exact hplane h
      · simp [h] at hyuv
      · simp [h] at hc
  rw [codecStart_chosen (by omega) hpow hfree hchoice hd hy hc hwait hdp hyp hcp]
  simp only [hgood, hsingle, Bool.false_eq_true, false_and, if_false, if_neg hcommitted]
  exact beginJob_encoder _ hk

end

theorem codecStart_idle {s : State} {k : Nat} (h : codecChoice s k = none) : codecStart k s = s := by
  unfold codecStart
  split
  · rfl
  · rw [h]

/-! ### The end of a job (R341, R346, R347) -/

/-- No queue's entries and no core's job differ. -/
structure SameJobs (s t : State) : Prop where
  qm : t.qm = s.qm
  jobs : t.cdc.jobs = s.cdc.jobs

theorem SameJobs.refl (s : State) : SameJobs s s := ⟨rfl, rfl⟩

theorem SameJobs.trans {s t u : State} (h : SameJobs s t) (g : SameJobs t u) : SameJobs s u :=
  ⟨g.qm.trans h.qm, g.jobs.trans h.jobs⟩

theorem SameJobs.ofAccess {s t : State} (h : SameButAccess s t) : SameJobs s t := ⟨h.qm, congrArg Cdc.jobs h.cdc⟩

theorem settleCore_sameJobs (s : State) (k : Nat) : SameJobs s (settleCore s k) := by
  unfold settleCore
  split <;> exact ⟨rfl, rfl⟩

/-- The jobs that remain when core `k` ends its job, which may have held the next core too. -/
def jobsFreed (l : List (Option CdcJob)) (k : Nat) (pair : Bool) : List (Option CdcJob) :=
  if pair then (l.set k none).set (k + 1) none else l.set k none

theorem nth_jobsFreed (l : List (Option CdcJob)) (k : Nat) (pair : Bool) : nth (jobsFreed l k pair) k none = none := by
  unfold jobsFreed
  split
  · rw [WordLaws.nth_set_ne _ _ (Nat.succ_ne_self k), nth_set_none]
  · exact nth_set_none l k

/-- Once the completion is posted, the end of a job posts nothing more and frees its cores. -/
theorem jobEnd_posted (s : State) (k : Nat) (j : CdcJob) (status flags bytes : Nat) :
    let posted := (postData s (jCq j.desc) (codecEntry s k j status flags bytes) (33 + k) j.part).1
    (jobEnd s k j status flags bytes).qm = posted.qm ∧
      (jobEnd s k j status flags bytes).cdc.jobs = jobsFreed posted.cdc.jobs k j.pair := by
  intro posted
  unfold jobEnd
  extract_lets others jobs left cdc released counted raised tick reported
  have hcounted : SameJobs released counted := by
    unfold counted
    split
    · exact .ofAccess (setF_sameButAccess ..)
    · exact .refl _
  have hraised : SameJobs counted raised := by
    unfold raised
    split
    · exact .ofAccess (raise_sameButAccess ..)
    · exact .refl _
  have hreported : SameJobs raised reported := by
    unfold reported
    split
    · split <;> exact ⟨rfl, rfl⟩
    · exact .refl _
  have hsettled : SameJobs reported (if j.pair then settleCore reported (k + 1) else reported) := by
    split
    · exact settleCore_sameJobs ..
    · exact .refl _
  have hended := (((hcounted.trans hraised).trans hreported).trans hsettled).trans (settleCore_sameJobs _ k)
  exact ⟨hended.qm, hended.jobs⟩

theorem getJob_jobEnd (s : State) (k : Nat) (j : CdcJob) (status flags bytes : Nat) : getJob (jobEnd s k j status flags bytes) k = none := by
  obtain ⟨-, hjobs⟩ := jobEnd_posted s k j status flags bytes
  rw [getJob, hjobs]
  exact nth_jobsFreed ..

/-- A completion that its queue admits is the queue's last entry once the job has ended. -/
theorem getQ_jobEnd {s : State} (k : Nat) {j : CdcJob} (status flags bytes : Nat) (hadmit : qRefusal (getQ s (jCq j.desc)) j.part = none)
    (hcons : (getQ s (jCq j.desc)).consumer < 24 ∨ 28 ≤ (getQ s (jCq j.desc)).consumer) :
    (getQ (jobEnd s k j status flags bytes) (jCq j.desc)).entries = (getQ s (jCq j.desc)).entries ++
      [{ cairn := false, data := codecEntry s k j status flags bytes, producer := 33 + k }] := by
  obtain ⟨hqueues, -⟩ := jobEnd_posted s k j status flags bytes
  rw [getQ, hqueues, postData_taken _ _ hadmit hcons]
  exact congrArg Queue.entries (getQ_setQ_same ..)

/-- What an encoder writes: its bitstream, and with a job that ended well its state area. -/
def encoded (u : State) (k : Nat) (j : CdcJob) (status n : Nat) : State :=
  let v := jobWrites (drawn u) k j n
  if status = 0 then writeState v k j else v

theorem encoded_sameButAccess (u : State) (k : Nat) {j : CdcJob} (status n : Nat) (hop : jOp j.desc = 0) :
    SameButAccess u (encoded u k j status n) := by
  have hdrawn : ∀ v, SameButAccess v (drawn v) := fun _ => rfl
  have hstream : SameButAccess u (jobWrites (drawn u) k j n) := by
    unfold jobWrites
    rw [if_pos hop]
    exact ((hdrawn u).trans (hdrawn _)).trans (busWrite_sameButAccess ..)
  unfold encoded
  split
  · exact hstream.trans ((hdrawn _).trans (busWrite_sameButAccess ..))
  · exact hstream

/-- The status of an encoder's job: its bitstream fits its buffer, or does not. -/
def encStatus (u : State) (j : CdcJob) : Nat := if jBsBytes j.desc < Config.codecLen u.free then 4 else 0

/-- The bytes of bitstream that an encoder's job writes. -/
def encBytes (u : State) (j : CdcJob) : Nat := min (Config.codecLen u.free) (jBsBytes j.desc)

theorem encStatus_eq (u : State) (j : CdcJob) : encStatus u j = 0 ∨ encStatus u j = 4 := by
  unfold encStatus
  split
  · exact .inr rfl
  · exact .inl rfl

/-- An encoder's job whose picture could be read ends with its bitstream written. -/
theorem codecComplete_encoder {s u : State} {k : Nat} {j : CdcJob} (hk : k < 2) (hjob : getJob s k = some j) (hpair : j.pair = false)
    (hwait : codecWaits s j = false) (hread : jobReads s k j = (u, false)) :
    ∃ flags, codecComplete k s = jobEnd (encoded u k j (encStatus u j) (encBytes u j)) k j (encStatus u j) flags (encBytes u j) := by
  simp only [codecComplete, hjob, hpair, hwait, hread, Bool.false_eq_true, false_and, or_self, if_false, Nat.not_le.mpr hk, and_false]
  exact ⟨_, rfl⟩

theorem codecComplete_idle {s : State} {k : Nat} (h : getJob s k = none) : codecComplete k s = s := by
  rw [codecComplete, h]

theorem codecEntry_congr {u v : State} (h : v.tick = u.tick) (k : Nat) (j : CdcJob) (status flags bytes : Nat) :
    codecEntry v k j status flags bytes = codecEntry u k j status flags bytes := by
  rw [codecEntry, h, codecEntry]

/-- Settles O32, a clause for each way a job starts or ends: to turn a core over, to write a bitstream and to
raise a fault leave queues and jobs, so that a start takes one entry from its queue and an end adds one to the completion queue. -/
theorem codecJobsStartAndEnd : Obligations.CodecJobsStartAndEnd := by
  unfold Obligations.CodecJobsStartAndEnd
  refine ⟨?begins, ?refused, ?idle, ?ends, ?nothingEnds⟩
  case begins =>
    intro s k q e d y c hk hpow hfree hchoice hd hy hc hwait hdp hyp hcp hgood hsingle hluma hchroma hlen
    have hstart := codecStart_begins hk hpow hfree hchoice hd hy hc hwait hdp hyp hcp hgood hsingle hluma hchroma
    refine ⟨_, _, congrArg Host.Outcome.next hstart, getJob_jobTaken _ ?_, rfl, rfl, rfl, ?_⟩
    · rw [popQ_cdc]
      exact hlen
    · rw [getQ_jobTaken, getQ_popQ_entries]
  case refused =>
    intro s k q e d y c hk hpow hfree hchoice hitem hd hy hc hwait hdp hyp hcp hbad
    have hstart := codecStart_chosen hk hpow hfree hchoice hd hy hc hwait hdp hyp hcp
    simp only [hbad, if_true, hitem] at hstart
    exact congrArg Host.Outcome.next hstart
  case idle => exact fun s k h => congrArg Host.Outcome.next (codecStart_idle h)
  case ends =>
    intro s u k j hk hjob hpair _ hop hwait hread hadmit hcons
    obtain ⟨flags, hend⟩ := codecComplete_encoder hk hjob hpair hwait hread
    have hsame := encoded_sameButAccess u k (encStatus u j) (encBytes u j) hop
    have hqueue : getQ (encoded u k j (encStatus u j) (encBytes u j)) (jCq j.desc) = getQ u (jCq j.desc) := by rw [getQ, hsame.qm, getQ]
    refine ⟨_, _, flags, encBytes u j, congrArg Host.Outcome.next hend, getJob_jobEnd .., encStatus_eq u j, Nat.min_le_right .., ?_⟩
    rw [getQ_jobEnd _ _ _ _ (hqueue ▸ hadmit) (hqueue ▸ hcons), hqueue, codecEntry_congr hsame.tick]
  case nothingEnds => exact fun s k h => congrArg Host.Outcome.next (codecComplete_idle h)

end Sys2Proof.CodecLaws
end

section
/-! The depth of the fault queues (R484): what keeps it, and the shared operations. -/

namespace Sys2Proof.FaultLaws

open Sys2Proof Sys2Proof.Machine

/-! ### The shapes in which an operation hands a state on

A step changes a fault queue only where it raises a fault, takes a record, or resets a die (R484, R485). Every operation of the model is
therefore given one lemma, which follows the operation's own branches: each branch ends in an operation before it, or in a change of fields
that leaves both queues. -/

/-- A state beside another result. -/
def FstOk {α : Type} (x : State × α) : Prop := x.1.faultsOk
/-- What a read answers. -/
def ReadOk (r : BusRd) : Prop := r.s.faultsOk
/-- What a host command answers. -/
def ReplyOk (r : Reply) : Prop := r.s.faultsOk
/-- What a burst's destination write gives. -/
def LandedOk (r : Landed) : Prop := r.s.faultsOk
/-- What a word's payload does at issue. -/
def EffOk : Eff → Prop
  | .act s | .stopped s | .hold s | .stay s => s.faultsOk
/-- What the checks before an access answer. -/
def BusOk : Bus → Prop
  | .refused s _ => s.faultsOk
  | _ => True
/-- What the register gate answers. -/
def GateOk : Gate → Prop
  | .refused s => s.faultsOk
  | .pass => True
/-- What the first use of a descriptor gives. -/
def UseOk : Use → Prop
  | .ok s _ | .stop s => s.faultsOk
/-- A state that there may be. -/
def OptionOk : Option State → Prop
  | some s => s.faultsOk
  | none => True
/-- A state that ends an operation or goes on with it. -/
def EitherOk : State ⊕ State → Prop
  | .inl s | .inr s => s.faultsOk
/-- The same, where it goes on with another result beside it. -/
def EitherFstOk {α : Type} : State ⊕ State × α → Prop
  | .inl s => s.faultsOk
  | .inr x => FstOk x
/-- The fault units alone. -/
def FltOk (f : Flt) : Prop := f.comp.queue.length ≤ 32 ∧ f.port.queue.length ≤ 32

/-- Of a state's fields only its fault units count. -/
theorem faultsOk_mk {a b c d e f g i j k l m n o p q r s t u v w x y z a1 b1 c1 d1 e1 f1 g1 i1 j1 k1 l1 m1} {flt : Flt} (h : FltOk flt) :
    (State.mk a b c d e f g i j k flt l m n o p q r s t u v w x y z a1 b1 c1 d1 e1 f1 g1 i1 j1 k1 l1 m1).faultsOk := h
/-- Of the fault units' fields only the two queues count. -/
theorem fltOk_mk {a b c d e f g i j k l m n o p} {comp port : FltDie} (h : comp.queue.length ≤ 32 ∧ port.queue.length ≤ 32) :
    FltOk (Flt.mk comp port a b c d e f g i j k l m n o p) := h
theorem fst_mk_faultsOk {α : Type} {s : State} {b : α} (h : s.faultsOk) : FstOk (s, b) := h

theorem ite_keeps {α : Type} (p : α → Prop) {c : Prop} [Decidable c] {a b : α} (ha : p a) (hb : p b) : p (if c then a else b) := by
  split
  · exact ha
  · exact hb
theorem ite_faultsOk {c : Prop} [Decidable c] {a b : State} (ha : a.faultsOk) (hb : b.faultsOk) : (if c then a else b).faultsOk :=
  ite_keeps State.faultsOk ha hb
theorem ite_fst_faultsOk {α : Type} {c : Prop} [Decidable c] {a b : State × α} (ha : FstOk a) (hb : FstOk b) : FstOk (if c then a else b) :=
  ite_keeps FstOk ha hb
theorem ite_effOk {c : Prop} [Decidable c] {a b : Eff} (ha : EffOk a) (hb : EffOk b) : EffOk (if c then a else b) := ite_keeps EffOk ha hb
theorem ite_busOk {c : Prop} [Decidable c] {a b : Bus} (ha : BusOk a) (hb : BusOk b) : BusOk (if c then a else b) := ite_keeps BusOk ha hb
theorem ite_eitherOk {c : Prop} [Decidable c] {a b : State ⊕ State} (ha : EitherOk a) (hb : EitherOk b) : EitherOk (if c then a else b) :=
  ite_keeps EitherOk ha hb

theorem foldl_keeps {α σ : Type} (p : σ → Prop) {f : σ → α → σ} {l : List α} {s : σ} (hf : ∀ u a, p u → p (f u a)) (h : p s) : p (l.foldl f s) := by
  induction l generalizing s with
  | nil => exact h
  | cons a l ih => exact ih (hf s a h)
theorem foldl_faultsOk {α : Type} {f : State → α → State} {l : List α} {s : State} (hf : ∀ u a, u.faultsOk → (f u a).faultsOk) (h : s.faultsOk) :
    (l.foldl f s).faultsOk := foldl_keeps State.faultsOk hf h
theorem foldl_fst_faultsOk {α β : Type} {f : State × β → α → State × β} {l : List α} {q : State × β} (hf : ∀ u a, FstOk u → FstOk (f u a))
    (h : FstOk q) : FstOk (l.foldl f q) := foldl_keeps FstOk hf h

theorem busOk_of_eq {b : Bus} {s : State} {y : Why} (e : b = .refused s y) (h : BusOk b) : s.faultsOk := by rwa [e] at h
theorem gateOk_of_eq {b : Gate} {s : State} (e : b = .refused s) (h : GateOk b) : s.faultsOk := by rwa [e] at h
theorem effOk_of_eq {b c : Eff} (e : b = c) (h : EffOk b) : EffOk c := by rwa [e] at h
theorem useOk_of_eq {b c : Use} (e : b = c) (h : UseOk b) : UseOk c := by rwa [e] at h
theorem optionOk_of_eq {b : Option State} {s : State} (e : b = some s) (h : OptionOk b) : s.faultsOk := by rwa [e] at h
theorem eitherOk_of_eq {b c : State ⊕ State} (e : b = c) (h : EitherOk b) : EitherOk c := by rwa [e] at h
theorem eitherFstOk_of_eq {α : Type} {b c : State ⊕ State × α} (e : b = c) (h : EitherFstOk b) : EitherFstOk c := by rwa [e] at h

/-! ### Shared operations -/

theorem setF_faultsOk {s : State} {x : Fld} {v : Nat} (h : s.faultsOk) : (setF s x v).faultsOk := faultsOk_mk h
theorem bump_faultsOk {s : State} {x : Fld} {n : Nat} (h : s.faultsOk) : (bump s x n).faultsOk := setF_faultsOk h
theorem drawn_faultsOk {s : State} (h : s.faultsOk) : (drawn s).faultsOk := faultsOk_mk h
theorem atPort_faultsOk {t : Nat} {s : State} (h : s.faultsOk) : (atPort t s).faultsOk := ite_faultsOk (faultsOk_mk h) h
theorem atComp_faultsOk {t : Nat} {s : State} (h : s.faultsOk) : (atComp t s).faultsOk := ite_faultsOk (faultsOk_mk h) h
theorem setRing_faultsOk {s : State} {g n : Nat} {r : Ring} (h : s.faultsOk) : (setRing s g n r).faultsOk := faultsOk_mk h
theorem writeCqe_faultsOk {s : State} {g n : Nat} {e : Bytes} {noirq : Bool} (h : s.faultsOk) : (writeCqe s g n e noirq).faultsOk :=
  faultsOk_mk (setRing_faultsOk h)
theorem postCqe_faultsOk {s : State} {g n : Nat} {e : Bytes} {noirq : Bool} (h : s.faultsOk) : (postCqe s g n e noirq).faultsOk :=
  ite_faultsOk h (ite_faultsOk (writeCqe_faultsOk h) (setRing_faultsOk h))
theorem postEvent_faultsOk {s : State} {g : Nat} {data : Bytes} {cairn : Bool} (h : s.faultsOk) : (postEvent s g data cairn).faultsOk :=
  ite_faultsOk (postCqe_faultsOk h) h
theorem laybyRequest_faultsOk {s : State} (h : s.faultsOk) : (laybyRequest s).faultsOk :=
  ite_faultsOk h (ite_faultsOk (faultsOk_mk h) (ite_faultsOk h (faultsOk_mk h)))
theorem interrupt_faultsOk {s : State} (h : s.faultsOk) : (interrupt s).faultsOk := ite_faultsOk (faultsOk_mk (fltOk_mk h)) h

theorem fltEnqueue_faultsOk {s : State} {port : Bool} {r : FaultRec} (h : s.faultsOk) : (fltEnqueue s port r).faultsOk := by
  obtain ⟨-, hown, hother, -, -⟩ := fltEnqueue_same s port r
  cases port with
  | false =>
    simp only [fltDie, Bool.false_eq_true, if_false, Bool.not_false, if_true] at hown hother
    exact ⟨hown ▸ fltPush_length _ _ h.1, hother ▸ h.2⟩
  | true =>
    simp only [fltDie, Bool.false_eq_true, if_false, Bool.not_true, if_true] at hown hother
    exact ⟨hother ▸ h.1, hown ▸ fltPush_length _ _ h.2⟩

theorem fltCount_faultsOk {s : State} {port : Bool} (h : s.faultsOk) : (fltCount s port).faultsOk :=
  ite_faultsOk (faultsOk_mk (fltOk_mk h)) (faultsOk_mk (fltOk_mk h))
theorem saveOne_faultsOk {s : State} {r : FaultRec} (h : s.faultsOk) : (saveOne s r).faultsOk := ite_faultsOk (faultsOk_mk h) h
theorem linkDown_faultsOk {s : State} (h : s.faultsOk) : (linkDown s).faultsOk := faultsOk_mk h
theorem holdCompute_faultsOk {s : State} (h : s.faultsOk) : (holdCompute s).faultsOk := faultsOk_mk (fltOk_mk (linkDown_faultsOk (setF_faultsOk h)))
theorem rlogAdd_faultsOk {s : State} {addr : Nat} {m : Master} {reason data : Nat} (h : s.faultsOk) : (rlogAdd s addr m reason data).faultsOk :=
  bump_faultsOk (faultsOk_mk (ite_faultsOk (setF_faultsOk h) h))
theorem setB_faultsOk {s : State} {b : Nat} {x : Buf} (h : s.faultsOk) : (setB s b x).faultsOk := faultsOk_mk h
theorem useBuf_faultsOk {s : State} {b part : Nat} (h : s.faultsOk) : (useBuf s b part).faultsOk := setB_faultsOk h
theorem dropBufs_faultsOk {s : State} {b n : Nat} (h : s.faultsOk) : (dropBufs s b n).faultsOk := faultsOk_mk h
theorem turnBuf_faultsOk {s : State} {b part : Nat} (h : s.faultsOk) : (turnBuf s b part).faultsOk := ite_faultsOk h (dropBufs_faultsOk h)
theorem setQ_faultsOk {s : State} {q : Nat} {v : Queue} (h : s.faultsOk) : (setQ s q v).faultsOk := faultsOk_mk h
theorem qOverflow_faultsOk {s : State} {q producer part reason : Nat} (h : s.faultsOk) : (qOverflow s q producer part reason).faultsOk :=
  raise_faultsOk (h := setQ_faultsOk h) ..

theorem bindJob_faultsOk {s : State} {b : Option Nat} (h : s.faultsOk) : (bindJob s b).faultsOk := by
  unfold bindJob
  split
  · exact h
  · exact faultsOk_mk h

theorem postData_faultsOk {s : State} {q : Nat} {data : Bytes} {producer part : Nat} (h : s.faultsOk) : FstOk (postData s q data producer part) :=
    by
  unfold postData
  split
  · exact qOverflow_faultsOk h
  · exact bindJob_faultsOk (setQ_faultsOk h)

theorem postCairn_faultsOk {s : State} {q producer part : Nat} (h : s.faultsOk) : FstOk (postCairn s q producer part) := by
  unfold postCairn
  split
  · exact qOverflow_faultsOk h
  · exact setQ_faultsOk h

theorem popQ_faultsOk {s : State} {q : Nat} (h : s.faultsOk) : (popQ s q).faultsOk := by
  unfold popQ
  dsimp only
  split
  · exact h
  · exact setQ_faultsOk h

theorem rollback_faultsOk {s : State} {consumer code : Nat} (h : s.faultsOk) : (rollback s consumer code).faultsOk := faultsOk_mk h
theorem setE_faultsOk {s : State} {e : Nat} {v : Engine} (h : s.faultsOk) : (setE s e v).faultsOk := faultsOk_mk h

/-! ### DRAM blocks -/

theorem setRefr_faultsOk {s : State} {ch bank : Nat} {v : Int} (h : s.faultsOk) : (setRefr s ch bank v).faultsOk := faultsOk_mk h
theorem forceRefresh_faultsOk {s : State} {ch : Nat} (h : s.faultsOk) : (forceRefresh s ch).faultsOk :=
  ite_faultsOk (raise_faultsOk (h := faultsOk_mk (bump_faultsOk h)) ..) (bump_faultsOk h)
theorem quietWindow_faultsOk {s : State} (h : s.faultsOk) : (quietWindow s).faultsOk :=
  foldl_faultsOk (fun _ _ hu => ite_faultsOk hu (setRefr_faultsOk hu)) h
theorem retrainEnd_faultsOk {s : State} {mask : Nat} (h : s.faultsOk) : (retrainEnd s mask).faultsOk :=
  foldl_faultsOk (fun _ _ hu => ite_faultsOk (ite_faultsOk (setRefr_faultsOk (foldl_faultsOk (fun _ _ hu => forceRefresh_faultsOk hu)
    (setRefr_faultsOk hu))) (foldl_faultsOk (fun _ _ hu => forceRefresh_faultsOk hu) (setRefr_faultsOk hu))) hu) h

/-! ### The register gate -/

theorem guardDrop_faultsOk {s : State} {p : Bool} {b o : Nat} {m : Master} {data : Nat} (h : s.faultsOk) : (guardDrop s p b o m data).faultsOk :=
  rlogAdd_faultsOk (setF_faultsOk h)
theorem rsvdWrite_faultsOk {s : State} {p : Bool} {b o : Nat} {m : Master} {data : Nat} (h : s.faultsOk) : (rsvdWrite s p b o m data).faultsOk :=
  rlogAdd_faultsOk (setF_faultsOk h)
theorem unassigned_faultsOk {s : State} {p : Bool} {b o : Nat} {m : Master} {reason data : Nat} (h : s.faultsOk) : (unassigned s p b o m reason
    data).faultsOk :=
  rlogAdd_faultsOk (setF_faultsOk h)
theorem unreachable_faultsOk {s : State} {m : Master} {reason addr : Nat} (h : s.faultsOk) : (unreachable s m reason addr).faultsOk :=
  raise_faultsOk (h := h) ..

theorem accGate_faultsOk {s : State} {p : Bool} {b o : Nat} {m : Master} {wr : Bool} {v : Nat} (h : s.faultsOk) : GateOk (accGate s p b o m wr v)
    := by
  unfold accGate
  split
  · exact h
  · split
    · exact unreachable_faultsOk h
    · split
      · exact guardDrop_faultsOk h
      · split
        · exact unassigned_faultsOk h
        · split
          · exact rsvdWrite_faultsOk h
          · exact trivial

theorem regGate_faultsOk {s : State} {p : Bool} {b o : Nat} {m : Master} {v : Nat} (h : s.faultsOk) : GateOk (regGate s p b o m v) :=
  accGate_faultsOk h

theorem gated_faultsOk {s : State} {p : Bool} {b o : Nat} {m : Master} {v : Nat} {act : State → State} (h : s.faultsOk) (hact : ∀ u0, u0.faultsOk →
    (act u0).faultsOk) : (gated s p b o m v act).faultsOk := by
  unfold gated
  split
  · rename_i hr
    have hg := gateOk_of_eq hr (regGate_faultsOk h)
    exact hg
  · exact hact _ h

theorem readVia_faultsOk {s : State} {p : Bool} {b o : Nat} {m : Master} {act : State → State × Nat} (h : s.faultsOk) (hact : ∀ u0, u0.faultsOk →
    FstOk (act u0)) : FstOk (readVia s p b o m act) := by
  unfold readVia
  split
  · rename_i hr
    have hg := gateOk_of_eq hr (accGate_faultsOk h)
    exact hg
  · exact hact _ h

theorem gatedRead_faultsOk {s : State} {p : Bool} {b o : Nat} {m : Master} {act : State → State × Nat} (h : s.faultsOk) (hact : ∀ u0, u0.faultsOk →
    FstOk (act u0)) : (gatedRead s p b o m act).faultsOk :=
  faultsOk_mk (readVia_faultsOk h (fun _ hu => hact _ hu))
theorem cfgIgnored_faultsOk {s : State} {p : Bool} {b o : Nat} {m : Master} {v : Nat} (h : s.faultsOk) : (cfgIgnored s p b o m v).faultsOk :=
  rlogAdd_faultsOk (foldl_faultsOk (fun _ _ hu => setF_faultsOk hu) (setF_faultsOk h))
theorem wrField_faultsOk {s : State} {open_ : Bool} {x : Fld} {v : Nat} (h : s.faultsOk) : (wrField s open_ x v).faultsOk :=
  ite_faultsOk (setF_faultsOk h) h
theorem w1c_faultsOk {s : State} {x : Fld} {v : Nat} (h : s.faultsOk) : (w1c s x v).faultsOk := ite_faultsOk h (setF_faultsOk h)

/-! ### Accesses and their checks -/

theorem setP_faultsOk {s : State} {p : Nat} {x : Part} (h : s.faultsOk) : (setP s p x).faultsOk := faultsOk_mk h
theorem partFilter_faultsOk {s : State} {m : Master} {kind a data : Nat} (h : s.faultsOk) : (partFilter s m kind a data).faultsOk :=
  rlogAdd_faultsOk (raise_faultsOk (h := h) ..)
theorem mapGate_faultsOk {s : State} {m : Master} {port : Port} {a len : Nat} {write : Bool} {data : Nat} (h : s.faultsOk) : BusOk (mapGate s m
    port a len write data) :=
  ite_busOk (unreachable_faultsOk h) (ite_busOk trivial (ite_busOk (raise_faultsOk (h := h) ..) (ite_busOk (rlogAdd_faultsOk (raise_faultsOk (h :=
    h) ..)) trivial)))
theorem tileGate_faultsOk {s : State} {m : Master} {a i : Nat} (h : s.faultsOk) : BusOk (tileGate s m a i) :=
  ite_busOk (unreachable_faultsOk h) (ite_busOk (unreachable_faultsOk h) (ite_busOk (unreachable_faultsOk h) (ite_busOk (unreachable_faultsOk h)
    trivial)))

theorem busGate_faultsOk {s : State} {m : Master} {port : Port} {a len : Nat} {write : Bool} {data : Nat} (h : s.faultsOk) : BusOk (busGate s m
    port a len write data) := by
  unfold busGate
  refine ite_busOk (unreachable_faultsOk h) ?_
  refine ite_busOk (rlogAdd_faultsOk h) ?_
  refine ite_busOk (unreachable_faultsOk h) ?_
  refine ite_busOk trivial ?_
  refine ite_busOk (partFilter_faultsOk h) ?_
  split
  · split
    · exact unreachable_faultsOk h
    · exact trivial
  · exact mapGate_faultsOk h
  · exact tileGate_faultsOk h
  · exact trivial

theorem eccRead_faultsOk {s : State} {m : Master} {a : Nat} (h : s.faultsOk) : FstOk (eccRead s m a) := by
  unfold eccRead
  refine ite_fst_faultsOk h ?_
  extract_lets _ s1 s2 _ s11
  have hs1 : s1.faultsOk := raise_faultsOk (h := h) ..
  have hs2 : s2.faultsOk := by
    unfold s2
    split
    · exact bump_faultsOk hs1
    · exact hs1
  have hs11 : s11.faultsOk := ite_faultsOk (faultsOk_mk hs2) h
  split
  · exact raise_faultsOk (h := hs11) ..
  · exact hs11

theorem memPut_faultsOk {s : State} {a : Nat} {bs : Bytes} (h : s.faultsOk) : (memPut s a bs).faultsOk := faultsOk_mk h
theorem zeroMem_faultsOk {s : State} {a n : Nat} (h : s.faultsOk) : (zeroMem s a n).faultsOk := faultsOk_mk h
theorem clearRows_faultsOk {s : State} {a n : Nat} (h : s.faultsOk) : (clearRows s a n).faultsOk := faultsOk_mk (zeroMem_faultsOk h)
theorem clearTile_faultsOk {s : State} {i : Nat} (h : s.faultsOk) : (clearTile s i).faultsOk := clearRows_faultsOk h
theorem markBlock_faultsOk {s : State} {a v : Nat} (h : s.faultsOk) : (markBlock s a v).faultsOk := ite_faultsOk (faultsOk_mk h) h
theorem dramEcc_faultsOk {s : State} {m : Master} {a n : Nat} (h : s.faultsOk) : FstOk (dramEcc s m a n) :=
  ite_fst_faultsOk h (ite_fst_faultsOk (raise_faultsOk (h := ite_faultsOk (raise_faultsOk (h := faultsOk_mk h) ..) h) ..) (ite_faultsOk
    (raise_faultsOk (h := faultsOk_mk h) ..) h))

theorem busRead_faultsOk {s : State} {m : Master} {port : Port} {a len : Nat} (h : s.faultsOk) : ReadOk (busRead s m port a len) := by
  unfold busRead
  split
  · rename_i hr
    have hg := busOk_of_eq hr (busGate_faultsOk h)
    exact hg
  · exact h
  · dsimp only
    split
    · exact eccRead_faultsOk h
    · exact eccRead_faultsOk h
    · exact eccRead_faultsOk h
    · exact dramEcc_faultsOk h
    · exact h

theorem busWrite_faultsOk {s : State} {m : Master} {port : Port} {a : Nat} {bs : Bytes} (h : s.faultsOk) : FstOk (busWrite s m port a bs) := by
  unfold busWrite
  split
  · rename_i hr
    have hg := busOk_of_eq hr (busGate_faultsOk h)
    exact hg
  · exact h
  · exact memPut_faultsOk h

/-! ### Credit windows -/

theorem setW_faultsOk {s : State} {t w : Nat} {x : Window} (h : s.faultsOk) : (setW s t w x).faultsOk := faultsOk_mk h
theorem setD_faultsOk {s : State} {e : Nat} {x : DmaEng} (h : s.faultsOk) : (setD s e x).faultsOk := faultsOk_mk h
theorem closeIfEmpty_faultsOk {s : State} {t w : Nat} (h : s.faultsOk) : (closeIfEmpty s t w).faultsOk := ite_faultsOk (setW_faultsOk h) h
theorem returnCredits_faultsOk {s : State} {code t w k : Nat} (h : s.faultsOk) : (returnCredits s code t w k).faultsOk :=
  ite_faultsOk (closeIfEmpty_faultsOk (setW_faultsOk h)) h
theorem returnAll_faultsOk {s : State} {code : Nat} (h : s.faultsOk) : (returnAll s code).faultsOk :=
  foldl_faultsOk (fun _ _ hu => returnCredits_faultsOk hu) h
theorem dropHeldOpens_faultsOk {s : State} {e : Nat} (h : s.faultsOk) : (dropHeldOpens s e).faultsOk := faultsOk_mk h

/-! ### Descriptors -/

theorem dmaRead_faultsOk {s : State} {m : Master} {crypt : Bool} {a n : Nat} (h : s.faultsOk) : ReadOk (dmaRead s m crypt a n) := by
  unfold dmaRead
  split
  · exact partFilter_faultsOk h
  · exact busRead_faultsOk h

theorem tagHeader_faultsOk {s : State} {m : Master} {r : Bytes} (h : s.faultsOk) : ReadOk (tagHeader s m r).1 := by
  unfold tagHeader
  split
  · exact h
  · exact dmaRead_faultsOk h

theorem clearLevelBad_faultsOk {s : State} {a : Nat} (h : s.faultsOk) : (clearLevelBad s a).faultsOk := by
  unfold clearLevelBad
  split
  · exact setF_faultsOk h
  · exact h

theorem csLocked_faultsOk {s : State} {m : Master} {blk item a : Nat} (h : s.faultsOk) : (csLocked s m blk item a).faultsOk :=
  rlogAdd_faultsOk (raise_faultsOk (h := h) ..)

theorem noteLevels_faultsOk {s : State} {a : Nat} {bs : Bytes} (h : s.faultsOk) : (noteLevels s a bs).faultsOk := by
  unfold noteLevels
  split
  · exact ite_faultsOk (setF_faultsOk h) h
  · exact h

theorem csloadRun_faultsOk {part : Nat} {s : State} {raw : Bytes} (h : s.faultsOk) : (csloadRun part s raw).faultsOk := by
  unfold csloadRun
  extract_lets _ s1 _ _ _ _ _ bad
  have hs1 : s1.faultsOk := clearLevelBad_faultsOk h
  refine ite_faultsOk (csLocked_faultsOk h) ?_
  clear_value bad
  split
  · exact raise_faultsOk (h := setF_faultsOk (noteLevels_faultsOk (memPut_faultsOk (foldl_faultsOk (fun _ _ hu => ite_faultsOk (noteLevels_faultsOk
      (memPut_faultsOk (dmaRead_faultsOk hu))) (dmaRead_faultsOk hu)) hs1)))) ..
  · exact foldl_faultsOk (fun _ _ hu => ite_faultsOk (noteLevels_faultsOk (memPut_faultsOk (dmaRead_faultsOk hu))) (dmaRead_faultsOk hu)) hs1

theorem bootCsload_faultsOk {s : State} {raw : Bytes} (h : s.faultsOk) : (bootCsload s raw).faultsOk := by
  unfold bootCsload
  split
  · exact raise_faultsOk (h := h) ..
  · exact ite_faultsOk (raise_faultsOk (h := tagHeader_faultsOk h) ..) (faultsOk_mk (csloadRun_faultsOk (tagHeader_faultsOk h)))

theorem runBootPort_faultsOk {s : State} (h : s.faultsOk) : (runBootPort s).faultsOk := by
  unfold runBootPort
  split
  · exact ite_faultsOk (bootCsload_faultsOk (faultsOk_mk h)) h
  · exact h

/-! ### Tensors -/

theorem gateLines_faultsOk {s : State} {m : Master} {port : Port} {write : Bool} {data : Nat → Nat} {ls : List Nat} (h : s.faultsOk) :
    FstOk (gateLines s m port write data ls) := by
  induction ls generalizing s with
  | nil => exact h
  | cons l ls ih =>
    refine ih (s := Prod.fst _) ?_
    split
    · rename_i hr
      exact busOk_of_eq hr (busGate_faultsOk h)
    · exact h
    · refine ite_fst_faultsOk h ?_
      dsimp only
      split
      · exact eccRead_faultsOk h
      · exact eccRead_faultsOk h
      · exact eccRead_faultsOk h
      · exact h

theorem tensRead_faultsOk {s : State} {m : Master} {port : Port} {d : TDesc} {cs : List (Int × Int × Int × Int)} (h : s.faultsOk) : FstOk (tensRead
    s m port d cs) :=
  gateLines_faultsOk h
theorem tensWrite_faultsOk {s : State} {m : Master} {port : Port} {d : TDesc} {els : Tab Nat} (h : s.faultsOk) : (tensWrite s m port d
    els).faultsOk :=
  faultsOk_mk (gateLines_faultsOk h)

theorem putCommit_faultsOk {s : State} {m : Master} {a : Nat} {v : Bool} (h : s.faultsOk) : FstOk (putCommit s m a v) := by
  unfold putCommit
  dsimp only
  split
  · exact ite_fst_faultsOk (busRead_faultsOk h) (ite_fst_faultsOk (busWrite_faultsOk (busRead_faultsOk h)) (busRead_faultsOk h))
  · exact busWrite_faultsOk h

/-! ### A stopped engine -/

theorem setPipe_faultsOk {s : State} {p : Nat} {x : IspPipe} (h : s.faultsOk) : (setPipe s p x).faultsOk := faultsOk_mk h
theorem applyDisable_faultsOk {s : State} {e : Nat} (h : s.faultsOk) : (applyDisable s e).faultsOk :=
  ite_faultsOk (ite_faultsOk (setF_faultsOk (faultsOk_mk h)) h) (ite_faultsOk (ite_faultsOk (setF_faultsOk (faultsOk_mk h)) h) (ite_faultsOk
    (ite_faultsOk (setF_faultsOk (setD_faultsOk h)) h) (ite_faultsOk (ite_faultsOk (setF_faultsOk (faultsOk_mk h)) h) (ite_faultsOk (ite_faultsOk
    (setF_faultsOk (setPipe_faultsOk h)) h) h))))
theorem dropArray_faultsOk {s : State} (h : s.faultsOk) : (dropArray s).faultsOk := faultsOk_mk h

theorem wholeRows_faultsOk {s : State} (h : s.faultsOk) : (wholeRows s).faultsOk := by
  unfold wholeRows
  dsimp only
  split
  · exact tensWrite_faultsOk h
  · exact tensWrite_faultsOk h

theorem clearDrain_faultsOk {s : State} (h : s.faultsOk) : (clearDrain s).faultsOk := faultsOk_mk h
theorem dropDrain_faultsOk {s : State} (h : s.faultsOk) : (dropDrain s).faultsOk := clearDrain_faultsOk (ite_faultsOk h (wholeRows_faultsOk h))
theorem dropDma_faultsOk {s : State} {e : Nat} (h : s.faultsOk) : (dropDma s e).faultsOk := returnAll_faultsOk (setD_faultsOk (faultsOk_mk h))
theorem dropPipe_faultsOk {s : State} {p : Nat} (h : s.faultsOk) : (dropPipe s p).faultsOk := setPipe_faultsOk (faultsOk_mk h)

theorem stopUnit_faultsOk {s : State} {e : Nat} (h : s.faultsOk) : (stopUnit s e).faultsOk := by
  unfold stopUnit
  extract_lets s1 _ s2
  have hs1 : s1.faultsOk := dropHeldOpens_faultsOk h
  have hs2 : s2.faultsOk := ite_faultsOk (dropArray_faultsOk hs1) (ite_faultsOk (dropDrain_faultsOk hs1) (ite_faultsOk (dropDma_faultsOk hs1)
    (ite_faultsOk (faultsOk_mk hs1) (ite_faultsOk (dropPipe_faultsOk hs1) (faultsOk_mk hs1)))))
  exact applyDisable_faultsOk hs2

theorem stopEngine_faultsOk {s : State} {e : Nat} (h : s.faultsOk) : (stopEngine s e).faultsOk :=
  ite_faultsOk (runBootPort_faultsOk (setE_faultsOk (rollback_faultsOk (stopUnit_faultsOk h)))) (setE_faultsOk (rollback_faultsOk
    (stopUnit_faultsOk h)))

/-! ### Codec cores -/

theorem jobWrites_faultsOk {s : State} {k : Nat} {j : CdcJob} {n : Nat} (h : s.faultsOk) : (jobWrites s k j n).faultsOk :=
  ite_faultsOk (busWrite_faultsOk (drawn_faultsOk h)) (ite_faultsOk (tensWrite_faultsOk (drawn_faultsOk h)) (tensWrite_faultsOk (drawn_faultsOk
    (tensWrite_faultsOk (drawn_faultsOk h)))))
theorem writeState_faultsOk {s : State} {k : Nat} {j : CdcJob} (h : s.faultsOk) : (writeState s k j).faultsOk :=
  busWrite_faultsOk (drawn_faultsOk h)
theorem settleCore_faultsOk {s : State} {k : Nat} (h : s.faultsOk) : (settleCore s k).faultsOk := ite_faultsOk (setF_faultsOk (faultsOk_mk h)) h

theorem jobEnd_faultsOk {s : State} {k : Nat} {j : CdcJob} {status flags bytes : Nat} (h : s.faultsOk) : (jobEnd s k j status flags bytes).faultsOk
    := by
  unfold jobEnd
  extract_lets s1 _ _ _ _ s2 s3 s4 _ s5
  have hs1 : s1.faultsOk := postData_faultsOk h
  have hs2 : s2.faultsOk := faultsOk_mk hs1
  have hs3 : s3.faultsOk := ite_faultsOk (bump_faultsOk hs2) hs2
  have hs4 : s4.faultsOk := ite_faultsOk (raise_faultsOk (h := hs3) ..) hs3
  have hs5 : s5.faultsOk := by
    unfold s5
    split
    · exact ite_faultsOk hs4 (faultsOk_mk hs4)
    · exact hs4
  exact settleCore_faultsOk (ite_faultsOk (settleCore_faultsOk hs5) hs5)

theorem stopCodec_faultsOk {s : State} {idx : Nat} (h : s.faultsOk) : (stopCodec s idx).faultsOk := by
  unfold stopCodec
  split
  · split
    · exact jobEnd_faultsOk (ite_faultsOk h (jobWrites_faultsOk h))
    · exact h
  · exact h

/-! ### Write sets -/

theorem setC_faultsOk {s : State} {c : Nat} {x : CamCtx} (h : s.faultsOk) : (setC s c x).faultsOk := faultsOk_mk h
theorem setWsValue_faultsOk {s : State} {port i v : Nat} (h : s.faultsOk) : (setWsValue s port i v).faultsOk := faultsOk_mk h
theorem postSet_faultsOk {s : State} {c first count : Nat} {noEpoch : Bool} (h : s.faultsOk) : (postSet s c first count noEpoch).faultsOk :=
  ite_faultsOk (setF_faultsOk h) (setC_faultsOk h)

/-! ### Frames of the image pipeline -/

theorem setI_faultsOk {s : State} {c : Nat} {x : IspCtx} (h : s.faultsOk) : (setI s c x).faultsOk := faultsOk_mk h
theorem setFrame_faultsOk {s : State} {f : IspFrame} (h : s.faultsOk) : (setFrame s f).faultsOk := faultsOk_mk h
theorem removeFrame_faultsOk {s : State} {f : IspFrame} (h : s.faultsOk) : (removeFrame s f).faultsOk := faultsOk_mk h
theorem ispPost_faultsOk {s : State} {f : IspFrame} {status idx : Nat} (h : s.faultsOk) : (ispPost s f status idx).faultsOk :=
  ite_faultsOk (postData_faultsOk h) h
theorem releaseLines_faultsOk {s : State} {f : IspFrame} {n : Nat} (h : s.faultsOk) : FstOk (releaseLines s f n) := ite_faultsOk (faultsOk_mk h) h
theorem endFrame_faultsOk {s : State} {f : IspFrame} (h : s.faultsOk) : (endFrame s f).faultsOk :=
  ite_faultsOk (removeFrame_faultsOk (releaseLines_faultsOk h)) (setFrame_faultsOk (releaseLines_faultsOk h))

theorem stopFrame_faultsOk {s : State} {f : IspFrame} {status : Nat} (h : s.faultsOk) : (stopFrame s f status).faultsOk := by
  unfold stopFrame
  refine ite_faultsOk h ?_
  refine endFrame_faultsOk ?_
  refine ispPost_faultsOk ?_
  refine foldl_faultsOk (fun _ _ hu => ?_) h
  split
  · exact stopEngine_faultsOk hu
  · exact hu

theorem settleCtx_faultsOk {s : State} {c : Nat} (h : s.faultsOk) : (settleCtx s c).faultsOk :=
  ite_faultsOk (setI_faultsOk (setF_faultsOk (foldl_faultsOk (fun _ _ hu => stopFrame_faultsOk hu) h))) h
theorem aeUpdate_faultsOk {s : State} {f : IspFrame} (h : s.faultsOk) : (aeUpdate s f).faultsOk :=
  ite_faultsOk h (ite_faultsOk h (setI_faultsOk (postSet_faultsOk (setWsValue_faultsOk (setWsValue_faultsOk h)))))
theorem awbUpdate_faultsOk {s : State} {f : IspFrame} (h : s.faultsOk) : (awbUpdate s f).faultsOk := setI_faultsOk h

theorem completeFrame_faultsOk {s : State} {f : IspFrame} (h : s.faultsOk) : (completeFrame s f).faultsOk := by
  unfold completeFrame
  extract_lets _ _ s1 s2 _ _ _ s3 s4 _ s5 s6 s7
  have hs1 : s1.faultsOk := putCommit_faultsOk h
  have hs2 : s2.faultsOk := ite_faultsOk hs1 (putCommit_faultsOk hs1)
  have hs3 : s3.faultsOk := ite_faultsOk (foldl_faultsOk (fun _ _ hu => busWrite_faultsOk hu) hs2) hs2
  have hs4 : s4.faultsOk := ispPost_faultsOk hs3
  have hs5 : s5.faultsOk := by
    unfold s5
    split
    · exact faultsOk_mk hs4
    · exact hs4
  have hs6 : s6.faultsOk := ite_faultsOk (aeUpdate_faultsOk hs5) hs5
  have hs7 : s7.faultsOk := ite_faultsOk (awbUpdate_faultsOk hs6) hs6
  exact ite_faultsOk h (settleCtx_faultsOk (endFrame_faultsOk hs7))

theorem deliverStatus_faultsOk {s : State} {c : Nat} {cf : CamFrame} (h : s.faultsOk) : (deliverStatus s c cf).faultsOk := by
  unfold deliverStatus
  extract_lets _ _ _ s1
  have hs1 : s1.faultsOk := busWrite_faultsOk h
  split
  · exact ite_faultsOk (ispPost_faultsOk hs1) hs1
  · exact ite_faultsOk (endFrame_faultsOk (setFrame_faultsOk hs1)) (ite_faultsOk (settleCtx_faultsOk (stopFrame_faultsOk (setFrame_faultsOk hs1)))
      (completeFrame_faultsOk (setFrame_faultsOk hs1)))

theorem closeFrame_faultsOk {s : State} {c extra : Nat} (h : s.faultsOk) : (closeFrame s c extra).faultsOk := by
  unfold closeFrame
  dsimp only
  split
  · exact h
  · exact faultsOk_mk (setC_faultsOk h)

theorem stopIntake_faultsOk {s : State} {idx : Nat} (h : s.faultsOk) : (stopIntake s idx).faultsOk :=
  foldl_faultsOk (fun _ _ hu => ite_faultsOk (closeFrame_faultsOk hu) hu) h

/-! ### Plan items and safe state -/

theorem stopOther_faultsOk {s : State} {a : Armed} (h : s.faultsOk) : (stopOther s a).faultsOk := by
  unfold stopOther
  split
  · split
    · exact settleCtx_faultsOk (stopFrame_faultsOk h)
    · exact h
  · exact stopIntake_faultsOk h
  · exact stopCodec_faultsOk h
  · exact faultsOk_mk (setF_faultsOk (setF_faultsOk h))
  · exact retrainEnd_faultsOk h
  · exact h

theorem stopItem_faultsOk {s : State} {a : Armed} (h : s.faultsOk) : (stopItem s a).faultsOk := by
  unfold stopItem
  refine ite_faultsOk ?_ h
  split
  · exact ite_faultsOk (stopEngine_faultsOk h) h
  · exact stopOther_faultsOk h

theorem clearCommit_faultsOk {s : State} {d : Nat} (h : s.faultsOk) : (clearCommit s d).faultsOk := ite_faultsOk h (faultsOk_mk h)
theorem takeActivations_faultsOk {s : State} {n : Nat} (h : s.faultsOk) : (takeActivations s n).faultsOk := faultsOk_mk h

theorem takeCeiling_faultsOk {s : State} {n : Nat} (h : s.faultsOk) : (takeCeiling s n).faultsOk := by
  unfold takeCeiling
  split
  · exact ite_faultsOk (faultsOk_mk h) h
  · exact h

theorem logOutcome_faultsOk {s : State} {it : PlanItem} {outcome late queue : Nat} (h : s.faultsOk) : (logOutcome s it outcome late queue).faultsOk
    :=
  faultsOk_mk (foldl_faultsOk (fun _ _ hu => clearCommit_faultsOk hu) h)
theorem disarm_faultsOk {s : State} {idx : Nat} (h : s.faultsOk) : (disarm s idx).faultsOk := faultsOk_mk h
theorem cancelArmed_faultsOk {s : State} {a : Armed} (h : s.faultsOk) : (cancelArmed s a).faultsOk :=
  disarm_faultsOk (logOutcome_faultsOk (stopItem_faultsOk h))
theorem cancelDeps_faultsOk {s : State} {idx : Nat} (h : s.faultsOk) : (cancelDeps s idx).faultsOk :=
  foldl_faultsOk (fun _ _ hu => cancelArmed_faultsOk hu) h

theorem cancelItem_faultsOk {s : State} {idx : Nat} (h : s.faultsOk) : (cancelItem s idx).faultsOk := by
  unfold cancelItem
  split
  · exact cancelDeps_faultsOk (cancelArmed_faultsOk h)
  · exact h

theorem postStep_faultsOk {s : State} {x : Step} {status : Nat} (h : s.faultsOk) : (postStep s x status).faultsOk := faultsOk_mk h
theorem settleParked_faultsOk {s : State} (h : s.faultsOk) : (settleParked s).faultsOk := faultsOk_mk h

theorem chargeStep_faultsOk {s : State} (h : s.faultsOk) : (chargeStep s).faultsOk := by
  unfold chargeStep
  split
  · exact h
  · exact faultsOk_mk h

theorem leaveArray_faultsOk {s : State} (h : s.faultsOk) : (leaveArray s).faultsOk := faultsOk_mk h

theorem endStep_faultsOk {s : State} {status : Nat} (h : s.faultsOk) : (endStep s status).faultsOk := by
  unfold endStep
  dsimp only
  split
  · exact chargeStep_faultsOk h
  · exact postStep_faultsOk (leaveArray_faultsOk (applyDisable_faultsOk (foldl_faultsOk (fun _ _ hu => ite_faultsOk hu (stopEngine_faultsOk hu))
      (chargeStep_faultsOk h))))

theorem discardSteps_faultsOk {s : State} {p status : Nat} (h : s.faultsOk) : (discardSteps s p status).faultsOk :=
  settleParked_faultsOk (foldl_faultsOk (fun _ _ hu => postStep_faultsOk hu) (faultsOk_mk (ite_faultsOk (endStep_faultsOk h) h)))
theorem stepFaulted_faultsOk {s : State} {e : Nat} (h : s.faultsOk) : (stepFaulted s e).faultsOk := ite_faultsOk (endStep_faultsOk h) h

theorem stepEnded_faultsOk {s : State} (h : s.faultsOk) : (stepEnded s).faultsOk := by
  unfold stepEnded
  split
  · exact ite_faultsOk (endStep_faultsOk h) h
  · exact h

theorem laneFault_faultsOk {s : State} {c n : Nat} (h : s.faultsOk) : (laneFault s c n).faultsOk := by
  unfold laneFault
  split
  · dsimp only
    split
    · exact cancelItem_faultsOk (settleCtx_faultsOk (stopFrame_faultsOk h))
    · exact settleCtx_faultsOk (stopFrame_faultsOk h)
  · exact h

theorem engHalt_faultsOk {s : State} {e : Nat} (h : s.faultsOk) : (engHalt s e).faultsOk := by
  unfold engHalt
  dsimp only
  split
  · exact cancelItem_faultsOk (stopEngine_faultsOk h)
  · exact laneFault_faultsOk (stopEngine_faultsOk h)
  · exact stepFaulted_faultsOk (stopEngine_faultsOk h)

theorem engFault_faultsOk {s : State} {e code : Nat} {detail : List Nat} (h : s.faultsOk) : (engFault s e code detail).faultsOk :=
  engHalt_faultsOk (raise_faultsOk (h := h) ..)
theorem hxrFault_faultsOk {s : State} {e code reason : Nat} (h : s.faultsOk) : (hxrFault s e code reason).faultsOk := engFault_faultsOk h
theorem safeState_faultsOk {s : State} (h : s.faultsOk) : (safeState s).faultsOk :=
  faultsOk_mk (fltOk_mk (setF_faultsOk (leaveArray_faultsOk (foldl_faultsOk (fun _ _ hu => stopEngine_faultsOk hu) h))))
theorem saveFaults_faultsOk {s : State} {n : Nat} (h : s.faultsOk) : (saveFaults s n).faultsOk := faultsOk_mk (fltOk_mk ⟨h.1, Nat.zero_le 32⟩)
theorem doubleFault_faultsOk {s : State} {reason trigger : Nat} (h : s.faultsOk) : (doubleFault s reason trigger).faultsOk :=
  ite_faultsOk (holdCompute_faultsOk (saveOne_faultsOk (fltEnqueue_faultsOk (fltCount_faultsOk h)))) (saveFaults_faultsOk (safeState_faultsOk
    (fltEnqueue_faultsOk (fltCount_faultsOk h))))

theorem raiseDevice_faultsOk {s : State} {port : Bool} {code block item : Nat} {detail : List Nat} (h : s.faultsOk) : (raiseDevice s port code
    block item detail).faultsOk := by
  unfold raiseDevice
  extract_lets _ s1 _ s2
  have hs1 : s1.faultsOk := raise_faultsOk (h := h) ..
  have hs2 : s2.faultsOk := faultsOk_mk (fltOk_mk hs1)
  exact ite_faultsOk hs2 (ite_faultsOk hs2 (ite_faultsOk (setF_faultsOk (faultsOk_mk (fltOk_mk hs2))) (ite_faultsOk (holdCompute_faultsOk
    (saveFaults_faultsOk (safeState_faultsOk hs2))) (saveFaults_faultsOk (safeState_faultsOk hs2)))))

/-! ### Map Store and tile memories -/

theorem markErrs_faultsOk {s : State} {a : Nat} {errs : List (Nat × Bool)} (h : s.faultsOk) : (markErrs s a errs).faultsOk :=
  ite_faultsOk h (faultsOk_mk h)

theorem mapStoreAccess_faultsOk {m : Master} {port : Nat} {crypt : Bool} {a len : Nat} {wr : Option Bytes} {errs : List (Nat × Bool)} {s : State}
    (h : s.faultsOk) : (mapStoreAccess m port crypt a len wr errs s).faultsOk := by
  unfold mapStoreAccess
  refine ite_faultsOk h ?_
  split
  · exact busWrite_faultsOk h
  · refine faultsOk_mk ?_
    refine busRead_faultsOk ?_
    split
    · exact markErrs_faultsOk h
    · exact h

theorem eccWriteBack_faultsOk {row : Nat} {s : State} (h : s.faultsOk) : (eccWriteBack row s).faultsOk := ite_faultsOk (faultsOk_mk h) h
theorem shadowFill_faultsOk {s : State} {a : Nat} (h : s.faultsOk) : (shadowFill s a).faultsOk :=
  faultsOk_mk (foldl_faultsOk (fun _ _ hu => eccRead_faultsOk hu) h)

theorem shadowBack_faultsOk {s : State} {words : List Nat} {corrected : Bool} (h : s.faultsOk) : (shadowBack s words corrected).faultsOk := by
  unfold shadowBack
  split
  · exact h
  · exact foldl_faultsOk (fun _ _ hu => ite_faultsOk (markErrs_faultsOk hu) hu) (faultsOk_mk h)

theorem scrubRows_faultsOk {errs : List (Nat × Nat × Bool)} {l : List (Nat × Nat)} {s : State} (h : s.faultsOk) : (scrubRows errs l s).faultsOk :=
    by
  induction l generalizing s with
  | nil => exact h
  | cons x r ih => exact ih (eccRead_faultsOk (markErrs_faultsOk h))

theorem mapPatrol_faultsOk {errs : List (Nat × Nat × Bool)} {s : State} (h : s.faultsOk) : (mapPatrol errs s).faultsOk :=
  ite_faultsOk h (faultsOk_mk (scrubRows_faultsOk h))
theorem tilePatrol_faultsOk {errs : List (Nat × Nat × Bool)} {s : State} (h : s.faultsOk) : (tilePatrol errs s).faultsOk :=
  ite_faultsOk h (faultsOk_mk (scrubRows_faultsOk h))

/-! ### Arriving frames -/

theorem takeFrame_faultsOk {s : State} {a : Armed} {f : IspFrame} (h : s.faultsOk) : (takeFrame s a f).faultsOk := setFrame_faultsOk (faultsOk_mk h)
theorem discardUntaken_faultsOk {s : State} {c : Nat} (h : s.faultsOk) : (discardUntaken s c).faultsOk :=
  foldl_faultsOk (fun _ _ hu => bump_faultsOk (stopFrame_faultsOk hu)) h

theorem frameArrive_faultsOk {s : State} {f : IspFrame} (h : s.faultsOk) : (frameArrive s f).faultsOk := by
  unfold frameArrive
  refine ite_faultsOk (faultsOk_mk h) ?_
  dsimp only
  split
  · exact takeFrame_faultsOk (faultsOk_mk (discardUntaken_faultsOk h))
  · exact faultsOk_mk (discardUntaken_faultsOk h)

theorem lineArrive_faultsOk {s : State} {c frame row : Nat} {data : Bytes} (h : s.faultsOk) : (lineArrive s c frame row data).faultsOk := by
  unfold lineArrive
  dsimp only
  split
  · exact ite_faultsOk (setFrame_faultsOk (releaseLines_faultsOk (faultsOk_mk h))) (setFrame_faultsOk (faultsOk_mk h))
  · exact faultsOk_mk (faultsOk_mk h)

end Sys2Proof.FaultLaws
end

section
/-! The depth of the fault queues: camera intake, engines, credits and the matrix array. -/

namespace Sys2Proof.FaultLaws

open Sys2Proof Sys2Proof.Machine

/-! ### Camera intake -/

theorem camRaise_faultsOk {s : State} {code : Nat} {part : Option Nat} {item : Nat} {detail : List Nat} (h : s.faultsOk) : (camRaise s code part
    item detail).faultsOk :=
  raise_faultsOk (h := h) ..
theorem linkErr_faultsOk {s : State} {port : Nat} {x : Fld} (h : s.faultsOk) : (linkErr s port x).faultsOk :=
  ite_faultsOk (camRaise_faultsOk (faultsOk_mk (bump_faultsOk h))) (bump_faultsOk h)
theorem setFifo_faultsOk {s : State} {port : Nat} {l : List CamFifo} (h : s.faultsOk) : (setFifo s port l).faultsOk := faultsOk_mk h
theorem sendLine_faultsOk {s : State} {c frame row : Nat} {data : Bytes} (h : s.faultsOk) : (sendLine s c frame row data).faultsOk :=
  lineArrive_faultsOk (setC_faultsOk h)

theorem statusOut_faultsOk {s : State} {c : Nat} {f : CamFrame} (h : s.faultsOk) : (statusOut s c f).faultsOk := by
  unfold statusOut
  extract_lets s1 _ _ s2 s3
  have hs1 : s1.faultsOk := deliverStatus_faultsOk h
  have hs2 : s2.faultsOk := ite_faultsOk (camRaise_faultsOk hs1) hs1
  have hs3 : s3.faultsOk := ite_faultsOk (camRaise_faultsOk hs2) hs2
  split
  · exact hs3
  · exact ite_faultsOk hs3 (ite_faultsOk (cancelItem_faultsOk hs3) (faultsOk_mk hs3))

theorem drainFifo_faultsOk {n port : Nat} {s : State} (h : s.faultsOk) : (drainFifo n port s).faultsOk := by
  induction n generalizing s with
  | zero => exact h
  | succ n ih =>
    unfold drainFifo
    split
    · exact h
    · exact ite_faultsOk h (ih (sendLine_faultsOk (setFifo_faultsOk h)))
    · exact ih (statusOut_faultsOk (setFifo_faultsOk h))

theorem runFifo_faultsOk {s : State} {port : Nat} (h : s.faultsOk) : (runFifo s port).faultsOk := drainFifo_faultsOk h
theorem runFifos_faultsOk {s : State} (h : s.faultsOk) : (runFifos s).faultsOk := foldl_faultsOk (fun _ _ hu => runFifo_faultsOk hu) h

theorem cutSet_faultsOk {s : State} {c port frame : Nat} (h : s.faultsOk) : (cutSet s c port frame).faultsOk := by
  unfold cutSet
  split
  · exact ite_faultsOk (setC_faultsOk (faultsOk_mk h)) h
  · exact h

theorem frameTriggers_faultsOk {s : State} {c : Nat} (h : s.faultsOk) : (frameTriggers s c).faultsOk := faultsOk_mk h

theorem frameStart_faultsOk {s : State} {c fn hdr : Nat} (h : s.faultsOk) : (frameStart s c fn hdr).faultsOk := by
  unfold frameStart
  extract_lets _ s1 _ _ s2 _ it _ _ _ _ s3 _ s4 s5
  have hs1 : s1.faultsOk := closeFrame_faultsOk h
  have hs2 : s2.faultsOk := cutSet_faultsOk (setC_faultsOk hs1)
  have hs3 : s3.faultsOk := setC_faultsOk hs2
  have hs4 : s4.faultsOk := by
    unfold s4
    clear_value it
    split
    · exact faultsOk_mk hs3
    · exact hs3
  have hs5 : s5.faultsOk := frameTriggers_faultsOk hs4
  exact ite_faultsOk (frameArrive_faultsOk hs5) hs5

theorem csiFrameStart_faultsOk {port vc fn hdr t : Nat} {s : State} (h : s.faultsOk) : (csiFrameStart port vc fn hdr t s).faultsOk := by
  unfold csiFrameStart
  refine ite_faultsOk (atPort_faultsOk h) ?_
  refine ite_faultsOk (linkErr_faultsOk (atPort_faultsOk h)) ?_
  split
  · exact linkErr_faultsOk (atPort_faultsOk h)
  · exact runFifo_faultsOk (foldl_faultsOk (fun _ _ hu => frameStart_faultsOk hu) (atPort_faultsOk h))

theorem setCur_faultsOk {s : State} {c : Nat} {f : CamFrame} (h : s.faultsOk) : (setCur s c f).faultsOk := setC_faultsOk h

theorem embCheck_faultsOk {s : State} {c : Nat} {d : Bytes} (h : s.faultsOk) : (embCheck s c d).faultsOk := by
  unfold embCheck
  dsimp only
  split
  · exact h
  · refine ite_faultsOk h ?_
    split
    · exact setCur_faultsOk h
    · exact ite_faultsOk (setCur_faultsOk h) (ite_faultsOk (setCur_faultsOk h) (setCur_faultsOk h))

theorem pixelLine_faultsOk {s : State} {c : Nat} {d : Bytes} {crcOk : Bool} (h : s.faultsOk) : (pixelLine s c d crcOk).faultsOk := by
  unfold pixelLine
  dsimp only
  split
  · exact h
  · exact ite_faultsOk (setCur_faultsOk h) (ite_faultsOk (setCur_faultsOk h) (ite_faultsOk (sendLine_faultsOk (setCur_faultsOk h)) (ite_faultsOk
      (setFifo_faultsOk (setCur_faultsOk h)) (setCur_faultsOk h))))

theorem csiLongPacket_faultsOk {port vc dt : Nat} {d : Bytes} {crcOk : Bool} {hdr : Nat} {s : State} (h : s.faultsOk) : (csiLongPacket port vc dt d
    crcOk hdr s).faultsOk := by
  unfold csiLongPacket
  refine ite_faultsOk h ?_
  refine ite_faultsOk (linkErr_faultsOk h) ?_
  refine ite_faultsOk h ?_
  dsimp only
  split
  · exact linkErr_faultsOk h
  · refine ite_faultsOk ?_ ?_
    · refine embCheck_faultsOk ?_
      split
      · exact setCur_faultsOk h
      · exact h
    · refine pixelLine_faultsOk ?_
      split
      · exact setCur_faultsOk h
      · exact h

theorem frameEnd_faultsOk {s : State} {c hdr : Nat} (h : s.faultsOk) : (frameEnd s c hdr).faultsOk := by
  unfold frameEnd
  dsimp only
  split
  · exact h
  · exact setC_faultsOk (closeFrame_faultsOk (setCur_faultsOk h))

theorem csiFrameEnd_faultsOk {port vc hdr t : Nat} {s : State} (h : s.faultsOk) : (csiFrameEnd port vc hdr t s).faultsOk := by
  unfold csiFrameEnd
  extract_lets s1
  have hs1 : s1.faultsOk := atPort_faultsOk h
  exact ite_faultsOk hs1 (ite_faultsOk (linkErr_faultsOk hs1) (ite_faultsOk (linkErr_faultsOk hs1) (ite_faultsOk (linkErr_faultsOk hs1)
    (runFifo_faultsOk (foldl_faultsOk (fun _ _ hu => frameEnd_faultsOk hu) hs1)))))

theorem csiSyncChange_faultsOk {port : Nat} {up : Bool} {s : State} (h : s.faultsOk) : (csiSyncChange port up s).faultsOk :=
  ite_faultsOk h (setF_faultsOk h)

theorem releaseNotice_faultsOk {s : State} (h : s.faultsOk) : (releaseNotice s).faultsOk := by
  unfold releaseNotice
  split
  · exact h
  · exact runFifo_faultsOk (setC_faultsOk (faultsOk_mk h))

theorem portEn_faultsOk {v : Nat} {s : State} {n : Nat} (h : s.faultsOk) : (portEn v s n).faultsOk :=
  ite_faultsOk h (ite_faultsOk (ite_faultsOk (setF_faultsOk h) (setF_faultsOk h)) (foldl_faultsOk (fun _ _ hu => closeFrame_faultsOk hu)
    (setF_faultsOk (setF_faultsOk h))))
theorem ctxOff_faultsOk {v : Nat} {s : State} {c : Nat} (h : s.faultsOk) : (ctxOff v s c).faultsOk :=
  ite_faultsOk h (faultsOk_mk (setC_faultsOk (closeFrame_faultsOk (setF_faultsOk h))))
theorem ctxUp_faultsOk {v : Nat} {s : State} {c : Nat} (h : s.faultsOk) : (ctxUp v s c).faultsOk :=
  ite_faultsOk h (ite_faultsOk (setF_faultsOk h) (setC_faultsOk (setF_faultsOk h)))
theorem camCtlWrite_faultsOk {m : Master} {v : Nat} {s : State} (h : s.faultsOk) : (camCtlWrite m v s).faultsOk :=
  gated_faultsOk h (fun _ hu => runFifos_faultsOk (foldl_faultsOk (fun _ _ hu => ctxUp_faultsOk hu) (foldl_faultsOk (fun _ _ hu => ctxOff_faultsOk
    hu) (foldl_faultsOk (fun _ _ hu => portEn_faultsOk hu) hu))))
theorem camWscmdPost_faultsOk {m : Master} {v : Nat} {s : State} (h : s.faultsOk) : (camWscmdPost m v s).faultsOk :=
  gated_faultsOk h (fun _ hu => ite_faultsOk (postSet_faultsOk hu) hu)
theorem beginSet_faultsOk {s : State} {port c : Nat} {w : WsPost} (h : s.faultsOk) : (beginSet s port c w).faultsOk := faultsOk_mk (setC_faultsOk h)

theorem writeSetStart_faultsOk {port t : Nat} {s : State} (h : s.faultsOk) : (writeSetStart port t s).faultsOk := by
  unfold writeSetStart
  extract_lets s1
  have hs1 : s1.faultsOk := atPort_faultsOk h
  refine ite_faultsOk hs1 ?_
  split
  · exact hs1
  · exact ite_faultsOk (setC_faultsOk (faultsOk_mk hs1)) hs1
  · split
    · exact hs1
    · split
      · exact hs1
      · exact ite_faultsOk (beginSet_faultsOk hs1) (ite_faultsOk hs1 (ite_faultsOk (beginSet_faultsOk hs1) (setC_faultsOk hs1)))

theorem entryDone_faultsOk {s : State} {port : Nat} {r : WsRun} {rd : Nat} (h : s.faultsOk) : (entryDone s port r rd).faultsOk :=
  ite_faultsOk (setWsValue_faultsOk h) (setC_faultsOk h)

theorem writeSetEntry_faultsOk {port : Nat} {ack : Bool} {rd : Nat} {s : State} (h : s.faultsOk) : (writeSetEntry port ack rd s).faultsOk := by
  unfold writeSetEntry
  split
  · exact h
  · exact ite_faultsOk h (ite_faultsOk (faultsOk_mk (entryDone_faultsOk h)) (ite_faultsOk (faultsOk_mk h) (camRaise_faultsOk (setF_faultsOk
      (setC_faultsOk (faultsOk_mk h))))))

theorem setTrig_faultsOk {s : State} {n : Nat} {x : Trig} (h : s.faultsOk) : (setTrig s n x).faultsOk := faultsOk_mk h

theorem triggerPulse_faultsOk {n t : Nat} {s : State} (h : s.faultsOk) : (triggerPulse n t s).faultsOk := by
  unfold triggerPulse
  dsimp only
  split
  · exact atPort_faultsOk h
  · exact ite_faultsOk (setTrig_faultsOk (atPort_faultsOk h)) (atPort_faultsOk h)

theorem triggerPulseEnd_faultsOk {n t : Nat} {s : State} (h : s.faultsOk) : (triggerPulseEnd n t s).faultsOk :=
  ite_faultsOk (setTrig_faultsOk (atPort_faultsOk h)) (atPort_faultsOk h)

/-! ### Control words -/

theorem finishWord_faultsOk {s : State} {e : Nat} {w : BitVec 256} {g0 : Engine} (h : s.faultsOk) : (finishWord s e w g0).faultsOk :=
  ite_faultsOk (hxrFault_faultsOk (setE_faultsOk (setE_faultsOk h))) (setE_faultsOk h)

theorem takeCairn_faultsOk {s : State} {e : Nat} {w : BitVec 256} (h : s.faultsOk) : OptionOk (takeCairn s e w) := by
  unfold takeCairn
  split
  · exact h
  · split
    · split
      · exact popQ_faultsOk h
      · exact trivial
    · exact trivial

theorem issue_faultsOk {s : State} {e : Nat} {w : BitVec 256} {bad : List Nat} {act : State → Eff} (h : s.faultsOk) (hact : ∀ u0, u0.faultsOk →
    EffOk (act u0)) : (issue s e w bad act).faultsOk := by
  unfold issue
  extract_lets 
  refine ite_faultsOk h ?_
  refine ite_faultsOk (hxrFault_faultsOk h) ?_
  split
  · exact hxrFault_faultsOk h
  · refine ite_faultsOk (hxrFault_faultsOk h) ?_
    split
    · exact setE_faultsOk h
    · rename_i hr
      have hg := optionOk_of_eq hr (takeCairn_faultsOk h)
      extract_lets s21
      have hs21 : s21.faultsOk := ite_faultsOk (setE_faultsOk hg) hg
      split
      · rename_i hr
        have hg' := effOk_of_eq hr (hact _ hs21)
        exact finishWord_faultsOk hg'
      · rename_i hr
        have hg' := effOk_of_eq hr (hact _ hs21)
        exact hg'
      · rename_i hr
        have hg' := effOk_of_eq hr (hact _ hs21)
        exact setE_faultsOk hg'
      · rename_i hr
        have hg' := effOk_of_eq hr (hact _ hs21)
        exact setE_faultsOk hg'

theorem nopWord_faultsOk {e : Nat} {w : BitVec 256} {s : State} (h : s.faultsOk) : (nopWord e w s).faultsOk := issue_faultsOk h (fun _ hu => hu)
theorem agSet_faultsOk {s : State} {e : Nat} {w : BitVec 256} {k : Nat} (h : s.faultsOk) : (agSet s e w k).faultsOk := setE_faultsOk h
theorem agsetLoWord_faultsOk {e : Nat} {w : BitVec 256} {s : State} (h : s.faultsOk) : (agsetLoWord e w s).faultsOk :=
  issue_faultsOk h (fun _ hu => agSet_faultsOk hu)
theorem agsetHiWord_faultsOk {e : Nat} {w : BitVec 256} {s : State} (h : s.faultsOk) : (agsetHiWord e w s).faultsOk :=
  issue_faultsOk h (fun _ hu => agSet_faultsOk hu)
theorem setsWord_faultsOk {e : Nat} {w : BitVec 256} {s : State} (h : s.faultsOk) : (setsWord e w s).faultsOk :=
  issue_faultsOk h (fun _ hu => setE_faultsOk hu)
theorem ksetWord_faultsOk {e : Nat} {w : BitVec 256} {s : State} (h : s.faultsOk) : (ksetWord e w s).faultsOk :=
  issue_faultsOk h (fun _ hu => setE_faultsOk hu)

/-! ### Engines -/

theorem beginEngine_faultsOk {s : State} {e addr part : Nat} {item : Option (Nat × Nat)} {preset : Option Bytes} {at_ : Nat} (h : s.faultsOk) :
    (beginEngine s e addr part item preset at_).faultsOk :=
  setE_faultsOk (ite_faultsOk (faultsOk_mk h) h)

theorem startEngine_faultsOk {s : State} {e addr part : Nat} {item : Option (Nat × Nat)} {preset : Option Bytes} {armedItem : Bool} {at_ : Nat} (h
    : s.faultsOk) : FstOk (startEngine s e addr part item preset armedItem at_) := by
  unfold startEngine
  split
  · exact raise_faultsOk (h := h) ..
  · exact beginEngine_faultsOk h

theorem cairnEnter_faultsOk {e : Nat} {s : State} (h : s.faultsOk) : (cairnEnter e s).faultsOk := by
  unfold cairnEnter
  dsimp only
  split
  · exact h
  · exact ite_faultsOk h (ite_faultsOk (setE_faultsOk h) (ite_faultsOk (postCairn_faultsOk (setE_faultsOk h)) (engHalt_faultsOk (postCairn_faultsOk
      (setE_faultsOk h)))))

theorem cairnWait_faultsOk {e : Nat} {s : State} (h : s.faultsOk) : (cairnWait e s).faultsOk := by
  unfold cairnWait
  dsimp only
  split
  · exact ite_faultsOk (setE_faultsOk (popQ_faultsOk h)) h
  · exact h

theorem holdRelease_faultsOk {e n : Nat} {s : State} (h : s.faultsOk) : (holdRelease e n s).faultsOk :=
  ite_faultsOk (ite_faultsOk (setE_faultsOk (ite_faultsOk (faultsOk_mk h) h)) (ite_faultsOk (faultsOk_mk h) h)) h
theorem registerStart_faultsOk {s : State} {e addr part : Nat} {rec : Bool} (h : s.faultsOk) : FstOk (registerStart s e addr part rec) :=
  ite_fst_faultsOk (ite_fst_faultsOk (fst_mk_faultsOk (busRead_faultsOk h)) (startEngine_faultsOk (busRead_faultsOk h))) (startEngine_faultsOk h)

theorem hxrStart_faultsOk {m : Master} {e v : Nat} {s : State} (h : s.faultsOk) : (hxrStart m e v s).faultsOk := by
  unfold hxrStart
  exact gated_faultsOk h (fun _ hu => ite_faultsOk (registerStart_faultsOk hu) hu)

theorem clearArrayPath_faultsOk {s : State} {p : Nat} (h : s.faultsOk) : (clearArrayPath s p).faultsOk :=
  clearTile_faultsOk (clearTile_faultsOk (clearTile_faultsOk (faultsOk_mk h)))

theorem stagedIssue_faultsOk {e : Nat} {s : State} (h : s.faultsOk) : (stagedIssue e s).faultsOk := by
  unfold stagedIssue
  dsimp only
  split
  · exact h
  · exact ite_faultsOk (hxrFault_faultsOk (setE_faultsOk h)) (ite_faultsOk (ite_faultsOk (clearArrayPath_faultsOk (setE_faultsOk h)) h)
      (setE_faultsOk h))

theorem wordDamaged_faultsOk {e : Nat} {s : State} (h : s.faultsOk) : (wordDamaged e s).faultsOk :=
  ite_faultsOk (engFault_faultsOk (setE_faultsOk h)) h

theorem reportEnd_faultsOk {s : State} {item : Option (Nat × Nat)} (h : s.faultsOk) : (reportEnd s item).faultsOk := by
  unfold reportEnd
  split
  · exact faultsOk_mk h
  · exact h

/-! ### Credits -/

theorem returnUnspent_faultsOk {s : State} {e t w : Nat} (h : s.faultsOk) : (returnUnspent s e t w).faultsOk := returnCredits_faultsOk h
theorem abortXfer_faultsOk {s : State} {e serial idx t w st : Nat} (h : s.faultsOk) : (abortXfer s e serial idx t w st).faultsOk :=
  ite_faultsOk h (raise_faultsOk (h := setF_faultsOk (returnUnspent_faultsOk (setD_faultsOk h))) ..)

theorem creditAnswer_faultsOk {s : State} {code t w st n : Nat} (h : s.faultsOk) : (creditAnswer s code t w st n).faultsOk := by
  unfold creditAnswer
  refine ite_faultsOk ?_ (faultsOk_mk h)
  dsimp only
  split
  · exact ite_faultsOk (abortXfer_faultsOk (faultsOk_mk h)) (faultsOk_mk h)
  · exact faultsOk_mk h

theorem creditRequest_faultsOk {m : Master} {t w n : Nat} {s : State} (h : s.faultsOk) : (creditRequest m t w n s).faultsOk :=
  ite_faultsOk h (ite_faultsOk (creditAnswer_faultsOk h) (ite_faultsOk (creditAnswer_faultsOk (partFilter_faultsOk h)) (ite_faultsOk
    (creditAnswer_faultsOk h) (setW_faultsOk h))))

theorem creditGrant_faultsOk {t w : Nat} {s : State} (h : s.faultsOk) : (creditGrant t w s).faultsOk := by
  unfold creditGrant
  dsimp only
  split
  · exact h
  · exact ite_faultsOk (creditAnswer_faultsOk (setW_faultsOk h)) h

theorem dropWrite_faultsOk {s : State} {t code : Nat} (h : s.faultsOk) : (dropWrite s t code).faultsOk := faultsOk_mk h
theorem remoteWrite_faultsOk {s : State} {m : Master} {t w epoch row : Nat} {ws : RowWords} (h : s.faultsOk) : FstOk (remoteWrite s m t w epoch row
    ws) :=
  ite_fst_faultsOk (dropWrite_faultsOk h) (ite_fst_faultsOk (closeIfEmpty_faultsOk (ite_faultsOk (setW_faultsOk h) (foldl_faultsOk (fun _ _ hu =>
    memPut_faultsOk hu) (setW_faultsOk h)))) (closeIfEmpty_faultsOk (raise_faultsOk (h := setW_faultsOk h) ..)))
theorem remoteWriteCmd_faultsOk {m : Master} {t w epoch row : Nat} {ws : RowWords} {s : State} (h : s.faultsOk) : (remoteWriteCmd m t w epoch row
    ws s).faultsOk :=
  ite_faultsOk h (faultsOk_mk (remoteWrite_faultsOk h))
theorem closeWindow_faultsOk {s : State} {t w : Nat} (h : s.faultsOk) : (closeWindow s t w).faultsOk :=
  ite_faultsOk (closeIfEmpty_faultsOk (foldl_faultsOk (fun _ _ hu => creditAnswer_faultsOk hu) (setW_faultsOk h))) h
theorem returnSpare_faultsOk {s : State} {e : Nat} (h : s.faultsOk) : (returnSpare s e).faultsOk :=
  foldl_faultsOk (fun _ _ hu => returnCredits_faultsOk hu) h

theorem closeStep_faultsOk {s : State} (h : s.faultsOk) : (closeStep s).faultsOk := by
  unfold closeStep
  split
  · exact ite_faultsOk (faultsOk_mk (foldl_faultsOk (fun _ _ hu => closeWindow_faultsOk hu) h)) h
  · exact h

theorem creditTimeout_faultsOk {t w : Nat} {s : State} (h : s.faultsOk) : (creditTimeout t w s).faultsOk :=
  ite_faultsOk (raise_faultsOk (h := setW_faultsOk h) ..) h
theorem revocation_faultsOk {code t w : Nat} {s : State} (h : s.faultsOk) : (revocation code t w s).faultsOk := ite_faultsOk (setW_faultsOk h) h
theorem revocationAck_faultsOk {code t w : Nat} {s : State} (h : s.faultsOk) : (revocationAck code t w s).faultsOk :=
  ite_faultsOk (ite_faultsOk (setW_faultsOk h) (setW_faultsOk h)) h
theorem openWindow_faultsOk {s : State} {t w base rows part : Nat} (h : s.faultsOk) : (openWindow s t w base rows part).faultsOk := setW_faultsOk h
theorem releaseRows_faultsOk {s : State} {t w k : Nat} (h : s.faultsOk) : (releaseRows s t w k).faultsOk :=
  ite_faultsOk (setW_faultsOk (ite_faultsOk (setF_faultsOk h) h)) h
theorem winOpenAct_faultsOk {e : Nat} {w : BitVec 256} {s : State} (h : s.faultsOk) : EffOk (winOpenAct e w s) :=
  ite_effOk (setW_faultsOk h) (ite_effOk (setW_faultsOk h) (ite_effOk (hxrFault_faultsOk (setF_faultsOk h)) (openWindow_faultsOk h)))
theorem winOpenWord_faultsOk {e : Nat} {w : BitVec 256} {s : State} (h : s.faultsOk) : (winOpenWord e w s).faultsOk :=
  issue_faultsOk h (fun _ hu => winOpenAct_faultsOk hu)
theorem winCloseWord_faultsOk {e : Nat} {w : BitVec 256} {s : State} (h : s.faultsOk) : (winCloseWord e w s).faultsOk :=
  issue_faultsOk h (fun _ hu => closeWindow_faultsOk hu)
theorem winReleaseWord_faultsOk {e : Nat} {w : BitVec 256} {s : State} (h : s.faultsOk) : (winReleaseWord e w s).faultsOk :=
  issue_faultsOk h (fun _ hu => releaseRows_faultsOk hu)

theorem windowOpenAccept_faultsOk {t w : Nat} {s : State} (h : s.faultsOk) : (windowOpenAccept t w s).faultsOk := by
  unfold windowOpenAccept
  dsimp only
  split
  · exact ite_faultsOk h (ite_faultsOk (hxrFault_faultsOk (setF_faultsOk (setW_faultsOk h))) (setW_faultsOk (openWindow_faultsOk h)))
  · exact h

theorem winCtl_faultsOk {m : Master} {v : Nat} {s : State} (h : s.faultsOk) : (winCtl m v s).faultsOk := by
  unfold winCtl
  refine gated_faultsOk h ?_
  intro _ hu
  split
  · exact hu
  · dsimp only
    split
    · exact ite_faultsOk (setF_faultsOk hu) (openWindow_faultsOk hu)
    · exact closeWindow_faultsOk hu
    · exact releaseRows_faultsOk hu
    · exact hu

/-! ### The matrix array -/

theorem opBegin_faultsOk {e : Nat} {w : BitVec 256} {s : State} (h : s.faultsOk) : EffOk (opBegin e w s) := by
  unfold opBegin
  refine ite_effOk h ?_
  split
  · exact faultsOk_mk (engFault_faultsOk h)
  · exact faultsOk_mk (ite_faultsOk (raise_faultsOk (h := h) ..) h)

theorem opbeginWord_faultsOk {e : Nat} {w : BitVec 256} {s : State} (h : s.faultsOk) : (opbeginWord e w s).faultsOk :=
  issue_faultsOk h (fun _ hu => opBegin_faultsOk hu)
theorem loadWord_faultsOk {e : Nat} {w : BitVec 256} {s : State} (h : s.faultsOk) : (loadWord e w s).faultsOk :=
  issue_faultsOk h (fun _ hu => faultsOk_mk hu)

theorem loadComplete_faultsOk {s : State} (h : s.faultsOk) : (loadComplete s).faultsOk := by
  unfold loadComplete
  split
  · exact ite_faultsOk (faultsOk_mk h) h
  · exact h

theorem setSlot_faultsOk {s : State} {i : Nat} {x : Slot} (h : s.faultsOk) : (setSlot s i x).faultsOk := faultsOk_mk h
theorem takeSlot_faultsOk {s : State} {i : Nat} {o : ArrOp} {ot : Nat} (h : s.faultsOk) : (takeSlot s i o ot).faultsOk :=
  faultsOk_mk (setSlot_faultsOk h)

theorem shareSlot_faultsOk {s t : State} {o : ArrOp} {ot i : Nat} (h : s.faultsOk) (e : shareSlot s o ot = .inl (some (t, i))) : t.faultsOk := by
  unfold shareSlot at e
  split at e
  · cases e
    exact h
  · split at e
    · cases e
      exact takeSlot_faultsOk h
    · cases e
    · cases e

theorem accOverflow_faultsOk {s : State} {e : Nat} {o : ArrOp} {ot : Nat} (h : s.faultsOk) : (accOverflow s e o ot).faultsOk := engFault_faultsOk h

theorem swapIn_faultsOk {s : State} (h : s.faultsOk) : OptionOk (swapIn s) := by
  unfold swapIn
  split
  · exact h
  · split
    · exact trivial
    · exact faultsOk_mk h

theorem countSteps_faultsOk {e : Nat} {w : BitVec 256} {o : ArrOp} {b : Nat} {s : State} (h : s.faultsOk) : (countSteps e w o b s).faultsOk :=
  faultsOk_mk h

theorem sendShares_faultsOk {e : Nat} {w : BitVec 256} {o : ArrOp} {vecs : List (List Nat)} {n j : Nat} {s : State} (h : s.faultsOk) :
    EffOk (sendShares e w o vecs n j s) := by
  induction n generalizing s j with
  | zero => exact faultsOk_mk h
  | succ n ih =>
    unfold sendShares
    dsimp only
    split
    · exact accOverflow_faultsOk h
    · exact faultsOk_mk h
    · rename_i h1
      exact ih (countSteps_faultsOk (faultsOk_mk (shareSlot_faultsOk h h1)))

theorem streamOs_faultsOk {e : Nat} {w : BitVec 256} {cut : Option Nat} {o : ArrOp} {s : State} (h : s.faultsOk) : EffOk (streamOs e w cut o s) :=
    by
  unfold streamOs
  dsimp only
  refine ite_effOk (faultsOk_mk (countSteps_faultsOk h)) (ite_effOk ?_ ?_)
  case refine_2 => exact faultsOk_mk (countSteps_faultsOk h)
  split
  · exact accOverflow_faultsOk h
  · exact h
  · rename_i h1
    have hs1 := shareSlot_faultsOk h h1
    split
    · exact accOverflow_faultsOk hs1
    · exact h
    · rename_i h2
      exact faultsOk_mk (countSteps_faultsOk (shareSlot_faultsOk hs1 h2))

theorem streamAct_faultsOk {e : Nat} {w : BitVec 256} {cut : Option Nat} {s : State} (h : s.faultsOk) : EffOk (streamAct e w cut s) := by
  unfold streamAct
  dsimp only
  split
  · exact h
  · split
    · exact h
    · rename_i hr
      have hs1 := optionOk_of_eq hr (swapIn_faultsOk h)
      split
      · exact hs1
      · refine ite_effOk h (ite_effOk (streamOs_faultsOk hs1) ?_)
        split
        · rename_i h2 _
          exact faultsOk_mk (countSteps_faultsOk (effOk_of_eq h2 (sendShares_faultsOk (faultsOk_mk hs1))))
        · rename_i h2 _
          exact faultsOk_mk (effOk_of_eq h2 (sendShares_faultsOk (faultsOk_mk hs1)))
        · exact sendShares_faultsOk (faultsOk_mk hs1)

theorem streamWord_faultsOk {e : Nat} {w : BitVec 256} {cut : Option Nat} {s : State} (h : s.faultsOk) : (streamWord e w cut s).faultsOk :=
  issue_faultsOk h (fun _ hu => streamAct_faultsOk hu)
theorem fillAct_faultsOk {e : Nat} {w : BitVec 256} {s : State} (h : s.faultsOk) : EffOk (fillAct e w s) :=
  ite_effOk h (setE_faultsOk (faultsOk_mk h))
theorem fillWord_faultsOk {e : Nat} {w : BitVec 256} {s : State} (h : s.faultsOk) : (fillWord e w s).faultsOk :=
  issue_faultsOk h (fun _ hu => fillAct_faultsOk hu)

theorem fillArrive_faultsOk {tgt : Nat} {s : State} (h : s.faultsOk) : (fillArrive tgt s).faultsOk := by
  unfold fillArrive
  split
  · exact h
  · exact ite_faultsOk (unreachable_faultsOk (faultsOk_mk h)) (ite_faultsOk (engHalt_faultsOk (busRead_faultsOk h)) (memPut_faultsOk (faultsOk_mk
      (busRead_faultsOk h))))

theorem loadWaited_faultsOk {x : RowArrival} {s : State} (h : s.faultsOk) : (loadWaited x s).faultsOk := by
  unfold loadWaited
  split
  · exact ite_faultsOk (faultsOk_mk h) h
  · exact h

theorem enterLayby_faultsOk {s : State} (h : s.faultsOk) : (enterLayby s).faultsOk := by
  unfold enterLayby
  split
  · exact h
  · exact closeStep_faultsOk (faultsOk_mk (foldl_faultsOk (fun _ _ hu => ite_faultsOk (returnSpare_faultsOk hu) hu) (foldl_faultsOk (fun _ _ hu =>
      ite_faultsOk hu (setE_faultsOk hu)) h)))

theorem safeWord_faultsOk {e : Nat} {w : BitVec 256} {s : State} (h : s.faultsOk) : (safeWord e w s).faultsOk :=
  ite_faultsOk (enterLayby_faultsOk (issue_faultsOk h (fun _ hu => hu))) (issue_faultsOk h (fun _ hu => hu))
theorem opendWord_faultsOk {e : Nat} {w : BitVec 256} {s : State} (h : s.faultsOk) : (opendWord e w s).faultsOk :=
  issue_faultsOk h (fun _ hu => faultsOk_mk hu)
theorem operationEnd_faultsOk {s : State} (h : s.faultsOk) : (operationEnd s).faultsOk :=
  ite_faultsOk (ite_faultsOk h (applyDisable_faultsOk (faultsOk_mk h))) h
theorem chargeCol_faultsOk {s : State} {i : Nat} (h : s.faultsOk) : (chargeCol s i).faultsOk :=
  ite_faultsOk (faultsOk_mk (faultsOk_mk h)) (faultsOk_mk h)
theorem chargeFails_faultsOk {s : State} {rows cols : List Check} (h : s.faultsOk) : (chargeFails s rows cols).faultsOk :=
  ite_faultsOk (chargeCol_faultsOk h) (ite_faultsOk (chargeCol_faultsOk h) (foldl_faultsOk (fun _ _ hu => chargeCol_faultsOk hu) h))
theorem writeVecs_faultsOk {s : State} {sh : Share} {i : Nat} {vecs : List (Nat × List Nat)} (h : s.faultsOk) : (writeVecs s sh i vecs).faultsOk :=
  setSlot_faultsOk (faultsOk_mk h)

theorem writeShare_faultsOk {s : State} {sh : Share} {vecs : List (Nat × List Nat)} (h : s.faultsOk) : (writeShare s sh vecs).faultsOk := by
  unfold writeShare
  dsimp only
  split
  · exact writeVecs_faultsOk (writeVecs_faultsOk h)
  · exact writeVecs_faultsOk h

theorem passToDrain_faultsOk {s : State} {i : Nat} (h : s.faultsOk) : (passToDrain s i).faultsOk :=
  ite_faultsOk (setSlot_faultsOk h) (ite_faultsOk (foldl_faultsOk (fun _ _ hu => setSlot_faultsOk hu) h) h)
theorem tileFails_faultsOk {s : State} {sh : Share} {rows cols : List Check} (h : s.faultsOk) : (tileFails s sh rows cols).faultsOk :=
  engFault_faultsOk (chargeFails_faultsOk (bump_faultsOk h))

theorem tileCheck_faultsOk {up : List (Nat × Nat × BitVec 32)} {s : State} (h : s.faultsOk) : (tileCheck up s).faultsOk := by
  unfold tileCheck
  split
  · exact h
  · exact ite_faultsOk (ite_faultsOk (foldl_faultsOk (fun _ _ hu => passToDrain_faultsOk hu) (writeShare_faultsOk (bump_faultsOk (faultsOk_mk h))))
      (writeShare_faultsOk (bump_faultsOk (faultsOk_mk h)))) (tileFails_faultsOk (bump_faultsOk (faultsOk_mk h)))

theorem retireReqWrite_faultsOk {m : Master} {v : Nat} {s : State} (h : s.faultsOk) : (retireReqWrite m v s).faultsOk :=
  gated_faultsOk h (fun _ hu => ite_faultsOk (faultsOk_mk hu) hu)
theorem checkService_faultsOk {s : State} (h : s.faultsOk) : (checkService s).faultsOk :=
  ite_faultsOk (raiseDevice_faultsOk (setF_faultsOk (faultsOk_mk h))) h

theorem retireApply_faultsOk {s : State} (h : s.faultsOk) : (retireApply s).faultsOk := by
  unfold retireApply
  split
  · exact h
  · exact ite_faultsOk h (checkService_faultsOk (raise_faultsOk (h := faultsOk_mk h) ..))

theorem loseGroup_faultsOk {s : State} {g : Nat} (h : s.faultsOk) : (loseGroup s g).faultsOk := faultsOk_mk h
theorem applyGroups_faultsOk {s : State} {mask : Nat} (h : s.faultsOk) : (applyGroups s mask).faultsOk :=
  faultsOk_mk (foldl_faultsOk (fun _ _ hu => loseGroup_faultsOk hu) h)

theorem arrCtlWrite_faultsOk {m : Master} {v : Nat} {s : State} (h : s.faultsOk) : (arrCtlWrite m v s).faultsOk := by
  unfold arrCtlWrite
  refine gated_faultsOk h ?_
  intro _ hu
  extract_lets _ _ _ s1 s2 s3 s4 s5 s6 s7
  have hs1 : s1.faultsOk := ite_faultsOk (cfgIgnored_faultsOk hu) hu
  have hs2 : s2.faultsOk := wrField_faultsOk hs1
  have hs3 : s3.faultsOk := wrField_faultsOk hs2
  have hs4 : s4.faultsOk := wrField_faultsOk hs3
  have hs5 : s5.faultsOk := wrField_faultsOk hs4
  have hs6 : s6.faultsOk := ite_faultsOk (applyGroups_faultsOk (setF_faultsOk hs5)) hs5
  have hs7 : s7.faultsOk := checkService_faultsOk hs6
  exact ite_faultsOk (setF_faultsOk (faultsOk_mk hs7)) (ite_faultsOk (setF_faultsOk hs7) (faultsOk_mk hs7))

theorem colcntWrite_faultsOk {m : Master} {v : Nat} {s : State} (h : s.faultsOk) : (colcntWrite m v s).faultsOk :=
  gated_faultsOk h (fun _ hu => ite_faultsOk (faultsOk_mk hu) hu)

/-! ### Tensor reads -/

theorem useDesc_faultsOk {s : State} {e : Nat} {port : Port} {a : Nat} {written dma : Bool} (h : s.faultsOk) : UseOk (useDesc s e port a written
    dma) := by
  unfold useDesc
  dsimp only
  split
  · exact engHalt_faultsOk (busRead_faultsOk h)
  · split
    · exact engFault_faultsOk (busRead_faultsOk h)
    · split
      · exact engFault_faultsOk (busRead_faultsOk h)
      · exact busRead_faultsOk h

end Sys2Proof.FaultLaws
end

section
/-! The depth of the fault queues: the drain, the image pipeline, codecs, DRAM, the stream engines and lay-by. -/

namespace Sys2Proof.FaultLaws

open Sys2Proof Sys2Proof.Machine

/-! ### The drain -/

theorem sendDeposits_faultsOk {s : State} (h : s.faultsOk) : (sendDeposits s).faultsOk := faultsOk_mk h

theorem flushScale_faultsOk {s : State} (h : s.faultsOk) : (flushScale s).faultsOk := by
  unfold flushScale
  split
  · exact h
  · exact tensWrite_faultsOk (faultsOk_mk h)

theorem addScale_faultsOk {s : State} {a : Nat} {c : Int × Int × Int × Int} {v : Nat} (h : s.faultsOk) : (addScale s a c v).faultsOk := by
  unfold addScale
  dsimp only
  split
  · exact h
  · refine faultsOk_mk ?_
    split
    · exact ite_faultsOk h (flushScale_faultsOk h)
    · exact h

theorem drainSettle_faultsOk {s : State} (h : s.faultsOk) : (drainSettle s).faultsOk := flushScale_faultsOk (sendDeposits_faultsOk h)
theorem haltWord_faultsOk {e : Nat} {w : BitVec 256} {s : State} (h : s.faultsOk) : (haltWord e w s).faultsOk :=
  issue_faultsOk h (fun _ hu => ite_faultsOk (drainSettle_faultsOk hu) hu)

theorem reduceDeposit_faultsOk {s : State} (h : s.faultsOk) : (reduceDeposit s).faultsOk := by
  unfold reduceDeposit
  dsimp only
  split
  · exact ite_faultsOk (sendDeposits_faultsOk h) h
  · exact setE_faultsOk (faultsOk_mk (ite_faultsOk (sendDeposits_faultsOk h) h))

theorem drainConfig_faultsOk {s : State} {r : Nat} (h : s.faultsOk) : (drainConfig s r).faultsOk := engFault_faultsOk h

theorem clearOut_faultsOk {s : State} {a : Nat} (h : s.faultsOk) : EitherOk (clearOut s a) := by
  unfold clearOut
  dsimp only
  split
  · exact engHalt_faultsOk (putCommit_faultsOk h)
  · exact putCommit_faultsOk h

theorem openOut_faultsOk {s : State} {a : Nat} (h : s.faultsOk) : UseOk (openOut s a) := by
  unfold openOut
  split
  · rename_i hr
    have hg := useOk_of_eq hr (useDesc_faultsOk h)
    exact hg
  · rename_i hr
    have hg := useOk_of_eq hr (useDesc_faultsOk h)
    split
    · rename_i hr
      have hg' := eitherOk_of_eq hr (clearOut_faultsOk hg)
      exact hg'
    · rename_i hr
      have hg' := eitherOk_of_eq hr (clearOut_faultsOk hg)
      exact hg'

theorem openScale_faultsOk {s : State} {ch : List Stage} (h : s.faultsOk) : EitherFstOk (openScale s ch) := by
  unfold openScale
  split
  · exact h
  · split
    · rename_i hr
      have hg := useOk_of_eq hr (useDesc_faultsOk h)
      exact hg
    · rename_i hr
      have hg := useOk_of_eq hr (useDesc_faultsOk h)
      exact hg

theorem gradOk_faultsOk {s : State} {ch : List Stage} (h : s.faultsOk) : EitherFstOk (gradOk s ch) := by
  unfold gradOk
  split
  · exact h
  · dsimp only
    split
    · exact engHalt_faultsOk (busRead_faultsOk h)
    · exact busRead_faultsOk h

theorem tileRows_faultsOk {s : State} {rows : List Nat} (h : s.faultsOk) : FstOk (tileRows s rows) :=
  foldl_fst_faultsOk (fun _ _ hu => fst_mk_faultsOk (eccRead_faultsOk hu)) h

theorem chainAct_faultsOk {w : BitVec 256} {s : State} (h : s.faultsOk) : EffOk (chainAct w s) := by
  unfold chainAct
  extract_lets s1 _ _ row1 s2
  have hs1 : s1.faultsOk := drainSettle_faultsOk h
  have hrow1 : FstOk row1 := tileRows_faultsOk hs1
  have hs2 : s2.faultsOk := ite_faultsOk hs1 hrow1
  refine ite_effOk (drainConfig_faultsOk hs1) ?_
  refine ite_effOk (engHalt_faultsOk hrow1) ?_
  split
  · exact drainConfig_faultsOk hs2
  · split
    · rename_i hr
      have hg := useOk_of_eq hr (useDesc_faultsOk hs2)
      exact hg
    · rename_i hr
      have hg := useOk_of_eq hr (useDesc_faultsOk hs2)
      split
      · rename_i hr
        have hg' := eitherFstOk_of_eq hr (openScale_faultsOk hg)
        exact hg'
      · rename_i hr
        have hg' := eitherFstOk_of_eq hr (openScale_faultsOk hg)
        split
        · rename_i hr
          have hg' := eitherFstOk_of_eq hr (gradOk_faultsOk hg')
          exact hg'
        · rename_i hr
          have hg' := eitherFstOk_of_eq hr (gradOk_faultsOk hg')
          split
          · exact drainConfig_faultsOk hg'
          · extract_lets _ s3
            have hs3 : s3.faultsOk := ite_faultsOk (faultsOk_mk hg') hg'
            split
            · rename_i hr
              have hg' := eitherOk_of_eq hr (clearOut_faultsOk hs3)
              exact hg'
            · rename_i hr
              have hg' := eitherOk_of_eq hr (clearOut_faultsOk hs3)
              dsimp only
              split
              · exact faultsOk_mk hg'
              · split
                · rename_i hr
                  have hg' := eitherOk_of_eq hr (clearOut_faultsOk (faultsOk_mk hg'))
                  exact hg'
                · rename_i hr
                  have hg' := eitherOk_of_eq hr (clearOut_faultsOk (faultsOk_mk hg'))
                  exact hg'

theorem chainWord_faultsOk {w : BitVec 256} {s : State} (h : s.faultsOk) : (chainWord w s).faultsOk :=
  issue_faultsOk h (fun _ hu => chainAct_faultsOk hu)

theorem residuals_faultsOk {m : Master} {pos : List (Int × Int × Int × Int)} {l : List Stage} {i : Nat} {s : State} (h : s.faultsOk) :
    FstOk (residuals m pos l i s) := by
  induction l generalizing s i with
  | nil => exact h
  | cons st r ih => exact ite_fst_faultsOk (ih (tensRead_faultsOk h)) (ih h)

theorem openResiduals_faultsOk {l : List Stage} {s : State} (h : s.faultsOk) : EitherOk (openResiduals l s) := by
  induction l generalizing s with
  | nil => exact h
  | cons st r ih =>
    unfold openResiduals
    split
    · split
      · rename_i hr
        exact useOk_of_eq hr (useDesc_faultsOk h)
      · rename_i hr
        exact ih (useOk_of_eq hr (useDesc_faultsOk h))
    · exact ih h

theorem readSlot_faultsOk {s : State} {i v : Nat} (h : s.faultsOk) : (readSlot s i v).faultsOk :=
  ite_faultsOk (setSlot_faultsOk h) (setSlot_faultsOk h)

theorem drainFinish_faultsOk {s : State} (h : s.faultsOk) : EffOk (drainFinish s) := by
  unfold drainFinish
  dsimp only
  split
  · exact ite_effOk (tensWrite_faultsOk (faultsOk_mk h)) (drainConfig_faultsOk (tensWrite_faultsOk (faultsOk_mk h)))
  · exact tensWrite_faultsOk (faultsOk_mk h)

theorem reduceFor_faultsOk {s : State} {slot : Nat} (h : s.faultsOk) : (reduceFor s slot).faultsOk :=
  faultsOk_mk (ite_faultsOk h (sendDeposits_faultsOk h))

theorem drainOne_faultsOk {w : BitVec 256} {p : Int} {v : Nat} {slots : List Nat} {s : State} (h : s.faultsOk) : EitherOk (drainOne w p v slots s)
    := by
  unfold drainOne
  extract_lets s1 _ _ _ _ _ _ g1 tl1 r1 _ _ _ _ s2 s3 s4 s5
  have hs1 : s1.faultsOk := reduceFor_faultsOk h
  have hg1 : FstOk g1 := gateLines_faultsOk hs1
  have htl1 : FstOk tl1 := tileRows_faultsOk hg1
  have hr1 : FstOk r1 := residuals_faultsOk htl1
  have hs2 : s2.faultsOk := faultsOk_mk hr1
  have hs3 : s3.faultsOk := bump_faultsOk (bump_faultsOk hs2)
  have hs4 : s4.faultsOk := by
    unfold s4
    split
    · exact ite_faultsOk (foldl_faultsOk (fun _ _ hu => addScale_faultsOk hu) hs3) hs3
    · exact hs3
  have hs5 : s5.faultsOk := foldl_faultsOk (fun _ _ hu => readSlot_faultsOk (faultsOk_mk hu)) hs4
  split
  · exact engHalt_faultsOk hr1
  · split
    · exact drainConfig_faultsOk hr1
    · exact hs5

theorem parityUpset_faultsOk {s : State} {k : Nat} (h : s.faultsOk) : (parityUpset s k).faultsOk := ite_faultsOk h (faultsOk_mk h)

theorem drainCycles_faultsOk {w : BitVec 256} {ps : List Int} {par cut : Option Nat} {n i : Nat} {s : State} (h : s.faultsOk) :
    EffOk (drainCycles w ps par cut n i s) := by
  induction n generalizing s i with
  | zero => exact drainFinish_faultsOk h
  | succ n ih =>
    unfold drainCycles
    refine ite_effOk (faultsOk_mk h) ?_
    extract_lets
    split
    · exact faultsOk_mk h
    · split
      · exact drainConfig_faultsOk h
      · extract_lets s1
        have hs : s1.faultsOk := ite_faultsOk (parityUpset_faultsOk h) h
        refine ite_effOk (engHalt_faultsOk (raise_faultsOk (h := bump_faultsOk hs) ..)) ?_
        split
        · rename_i hr
          exact eitherOk_of_eq hr (drainOne_faultsOk hs)
        · rename_i hr
          exact ih (eitherOk_of_eq hr (drainOne_faultsOk hs))

theorem reopenOut_faultsOk {s : State} (h : s.faultsOk) : UseOk (reopenOut s) := by
  unfold reopenOut
  split
  · rename_i hr
    have hg := useOk_of_eq hr (useDesc_faultsOk h)
    exact hg
  · rename_i hr
    have hg := useOk_of_eq hr (useDesc_faultsOk h)
    split
    · rename_i hr
      have hg' := eitherFstOk_of_eq hr (openScale_faultsOk hg)
      exact hg'
    · rename_i hr
      have hg' := eitherFstOk_of_eq hr (openScale_faultsOk hg)
      exact hg'

theorem drainAct_faultsOk {w : BitVec 256} {par cut : Option Nat} {s : State} (h : s.faultsOk) : EffOk (drainAct w par cut s) := by
  unfold drainAct
  extract_lets _ s1 _ o1
  have hs1 : s1.faultsOk := ite_faultsOk (setE_faultsOk h) h
  have ho1 : UseOk o1 := by
    unfold o1
    split
    · exact hs1
    · split
      · exact reopenOut_faultsOk hs1
      · exact openOut_faultsOk hs1
  refine ite_effOk (drainConfig_faultsOk hs1) ?_
  clear_value o1
  split
  · exact ho1
  · have hg := ho1
    extract_lets _ s2
    have hs2 : s2.faultsOk := faultsOk_mk hg
    split
    · rename_i hr
      have hg' := eitherOk_of_eq hr (by
          split
          · exact openResiduals_faultsOk hs2
          · exact hs2
        )
      exact hg'
    · rename_i hr
      have hg' := eitherOk_of_eq hr (by
          split
          · exact openResiduals_faultsOk hs2
          · exact hs2
        )
      exact drainCycles_faultsOk hg'

theorem drainWord_faultsOk {w : BitVec 256} {par cut : Option Nat} {s : State} (h : s.faultsOk) : (drainWord w par cut s).faultsOk :=
  issue_faultsOk h (fun _ hu => drainAct_faultsOk hu)

theorem commitAll_faultsOk {m : Master} {n a : Nat} {s : State} (h : s.faultsOk) : EffOk (commitAll m n a s) := by
  induction n generalizing s a with
  | zero => exact h
  | succ n ih => exact ite_effOk (engHalt_faultsOk (putCommit_faultsOk h)) (ih (putCommit_faultsOk h))

theorem commitWord_faultsOk {w : BitVec 256} {s : State} (h : s.faultsOk) : (commitWord w s).faultsOk :=
  issue_faultsOk h (fun _ hu => commitAll_faultsOk (drainSettle_faultsOk hu))

theorem putRows_faultsOk {s : State} {m : Master} {d : TDesc} {els : Tab Nat} (h : s.faultsOk) : (putRows s m d els).faultsOk := by
  unfold putRows
  dsimp only
  split
  · exact tensWrite_faultsOk (faultsOk_mk h)
  · exact tensWrite_faultsOk h

theorem putScale_faultsOk {s : State} {m : Master} {d : TDesc} {k v : Nat} (h : s.faultsOk) : (putScale s m d k v).faultsOk := by
  unfold putScale
  split
  · exact h
  · exact busWrite_faultsOk (busRead_faultsOk h)

theorem openOpt_faultsOk {aux n : Nat} {s : State} {l : List TDesc} (h : s.faultsOk) : EitherFstOk (openOpt aux n s l) := by
  induction n generalizing s l with
  | zero => exact h
  | succ n ih =>
    unfold openOpt
    dsimp only
    split
    · exact engHalt_faultsOk (busRead_faultsOk h)
    · split
      · rename_i hr
        exact useOk_of_eq hr (useDesc_faultsOk (busRead_faultsOk h))
      · rename_i hr
        have hs := useOk_of_eq hr (useDesc_faultsOk (busRead_faultsOk h))
        split
        · exact engFault_faultsOk hs
        · exact ih hs

theorem optBlock_faultsOk {st : Stage} {ds : List TDesc} {b : Int} {s : State} (h : s.faultsOk) : EitherOk (optBlock st ds b s) := by
  unfold optBlock
  extract_lets _ _ _ _ _ rg1 rs1 rm1 rms1 rv1 rvs1 rw1 _ _ _ _ _ s1 _ _ s2 _ _ _ _ _ _ _ _ _ _ _ s3 s4 s5 s6
  have hrg1 : FstOk rg1 := tensRead_faultsOk h
  have hrs1 : FstOk rs1 := tensRead_faultsOk hrg1
  have hrm1 : FstOk rm1 := tensRead_faultsOk hrs1
  have hrms1 : FstOk rms1 := tensRead_faultsOk hrm1
  have hrv1 : FstOk rv1 := tensRead_faultsOk hrms1
  have hrvs1 : FstOk rvs1 := tensRead_faultsOk hrv1
  have hrw1 : FstOk rw1 := tensRead_faultsOk hrvs1
  have hs1 : s1.faultsOk := ite_faultsOk (faultsOk_mk hrw1) hrw1
  have hs2 : s2.faultsOk := bump_faultsOk (setF_faultsOk hs1)
  have hs3 : s3.faultsOk := bump_faultsOk (bump_faultsOk hs1)
  have hs4 : s4.faultsOk := putRows_faultsOk hs3
  have hs5 : s5.faultsOk := putRows_faultsOk hs4
  have hs6 : s6.faultsOk := putRows_faultsOk hs5
  split
  · exact engHalt_faultsOk hrw1
  · split
    · exact putRows_faultsOk (putRows_faultsOk hs2)
    · exact putScale_faultsOk (putScale_faultsOk hs6)

theorem optBlocks_faultsOk {st : Stage} {ds : List TDesc} {cut : Option Nat} {i : Nat} {l : List Int} {s : State} (h : s.faultsOk) :
    EffOk (optBlocks st ds cut i l s) := by
  induction l generalizing s i with
  | nil => exact faultsOk_mk h
  | cons b r ih =>
    unfold optBlocks
    refine ite_effOk (faultsOk_mk h) (ite_effOk (ih h) ?_)
    split
    · rename_i hr
      exact eitherOk_of_eq hr (optBlock_faultsOk h)
    · rename_i hr
      exact ih (eitherOk_of_eq hr (optBlock_faultsOk h))

theorem optAct_faultsOk {w : BitVec 256} {cut : Option Nat} {s : State} (h : s.faultsOk) : EffOk (optAct w cut s) := by
  unfold optAct
  split
  · refine ite_effOk (drainConfig_faultsOk h) ?_
    split
    · rename_i hr
      have hg := eitherFstOk_of_eq hr (by
          split
          · exact openOpt_faultsOk h
          · exact h
        )
      exact hg
    · rename_i hr
      have hg := eitherFstOk_of_eq hr (by
          split
          · exact openOpt_faultsOk h
          · exact h
        )
      exact ite_effOk (drainConfig_faultsOk hg) (optBlocks_faultsOk hg)
  · exact drainConfig_faultsOk h

theorem optstepWord_faultsOk {w : BitVec 256} {cut : Option Nat} {s : State} (h : s.faultsOk) : (optstepWord w cut s).faultsOk :=
  issue_faultsOk h (fun _ hu => optAct_faultsOk hu)
theorem drnCtlWrite_faultsOk {m : Master} {v : Nat} {s : State} (h : s.faultsOk) : (drnCtlWrite m v s).faultsOk :=
  gated_faultsOk h (fun _ hu => ite_faultsOk (ite_faultsOk (faultsOk_mk hu) (faultsOk_mk (setF_faultsOk hu))) (ite_faultsOk (setF_faultsOk hu)
    (faultsOk_mk hu)))

/-! ### The image pipeline -/

theorem readBytes_faultsOk {s : State} {m : Master} {port : Port} {k a n : Nat} (h : s.faultsOk) : FstOk (readBytes s m port k a n) := by
  induction k generalizing s a n with
  | zero => exact h
  | succ k ih =>
    cases n with
    | zero => exact h
    | succ n => exact ih (busRead_faultsOk h)

theorem ispEnable_faultsOk {s : State} {c : Nat} (h : s.faultsOk) : (ispEnable s c).faultsOk :=
  ite_faultsOk (setF_faultsOk (readBytes_faultsOk (readBytes_faultsOk h))) (setI_faultsOk (setF_faultsOk (readBytes_faultsOk (readBytes_faultsOk
    h))))
theorem ctxenBit_faultsOk {v : Nat} {s : State} {c : Nat} (h : s.faultsOk) : (ctxenBit v s c).faultsOk :=
  ite_faultsOk (ite_faultsOk (setI_faultsOk h) (ispEnable_faultsOk h)) (ite_faultsOk (settleCtx_faultsOk (setI_faultsOk h)) h)
theorem ctxenWrite_faultsOk {m : Master} {v : Nat} {s : State} (h : s.faultsOk) : (ctxenWrite m v s).faultsOk :=
  gated_faultsOk h (fun _ hu => foldl_faultsOk (fun _ _ hu => ctxenBit_faultsOk hu) (foldl_faultsOk (fun _ _ hu => ctxenBit_faultsOk hu) hu))
theorem feedWrite_faultsOk {m : Master} {v : Nat} {s : State} (h : s.faultsOk) : (feedWrite m v s).faultsOk :=
  gated_faultsOk h (fun _ hu => ite_faultsOk hu (ite_faultsOk (cfgIgnored_faultsOk hu) (ite_faultsOk (readBytes_faultsOk (readBytes_faultsOk hu))
    (frameArrive_faultsOk (setI_faultsOk (readBytes_faultsOk (readBytes_faultsOk hu)))))))
theorem setLane_faultsOk {s : State} {f : IspFrame} {j : Nat} {l : LaneSt} (h : s.faultsOk) : (setLane s f j l).faultsOk := setFrame_faultsOk h

theorem takeLane_faultsOk {s : State} {p : Nat} {f : IspFrame} {j : Nat} (h : s.faultsOk) : (takeLane s p f j).faultsOk := by
  unfold takeLane
  extract_lets _ s1 _ _ s2 s3 r1
  have hs1 : s1.faultsOk := turnBuf_faultsOk (ite_faultsOk h (clearTile_faultsOk h))
  have hs2 : s2.faultsOk := setLane_faultsOk hs1
  have hs3 : s3.faultsOk := setPipe_faultsOk hs2
  have hr1 : FstOk r1 := startEngine_faultsOk hs3
  exact ite_faultsOk (setE_faultsOk hr1) (laneFault_faultsOk (dropPipe_faultsOk hr1))

theorem laneDispatch_faultsOk {p : Nat} {s : State} (h : s.faultsOk) : (laneDispatch p s).faultsOk := by
  unfold laneDispatch
  refine ite_faultsOk ?_ h
  split
  · exact takeLane_faultsOk h
  · exact h

theorem laneBegin_faultsOk {s : State} {e : Nat} {w : BitVec 256} {f : IspFrame} {j : Nat} (h : s.faultsOk) : EffOk (laneBegin s e w f j) := by
  unfold laneBegin
  extract_lets 
  split
  · rename_i hr
    have hg := useOk_of_eq hr (useDesc_faultsOk h)
    exact hg
  · rename_i hr
    have hg := useOk_of_eq hr (useDesc_faultsOk h)
    split
    · rename_i hr
      have hg' := useOk_of_eq hr (by
          split
          · exact hg
          · exact useDesc_faultsOk hg
        )
      exact hg'
    · rename_i hr
      have hg' := useOk_of_eq hr (by
          split
          · exact hg
          · exact useDesc_faultsOk hg
        )
      split
      · rename_i hr
        have hg' := useOk_of_eq hr (by
            split
            · exact useDesc_faultsOk hg'
            · exact hg'
          )
        exact hg'
      · rename_i hr
        have hg' := useOk_of_eq hr (by
            split
            · exact useDesc_faultsOk hg'
            · exact hg'
          )
        split
        · exact engFault_faultsOk hg'
        · exact setLane_faultsOk (useBuf_faultsOk hg')

theorem laneAct_faultsOk {e : Nat} {w : BitVec 256} {s : State} (h : s.faultsOk) : EffOk (laneAct e w s) := by
  unfold laneAct
  split
  · exact engFault_faultsOk h
  · split
    · exact engFault_faultsOk h
    · exact ite_effOk (engFault_faultsOk h) (ite_effOk (laneBegin_faultsOk h) (ite_effOk (setLane_faultsOk h) h))

theorem laneWord_faultsOk {e : Nat} {w : BitVec 256} {s : State} (h : s.faultsOk) : (laneWord e w s).faultsOk :=
  ite_faultsOk (issue_faultsOk h (fun _ hu => laneAct_faultsOk hu)) h
theorem fedPixels_faultsOk {s : State} {p : Nat} {f : IspFrame} {l : LaneSt} {y : Nat} (h : s.faultsOk) : FstOk (fedPixels s p f l y) :=
  tensRead_faultsOk h
theorem writeRow_faultsOk {s : State} {e : PixEnv} {p : Nat} {f : IspFrame} {l : LaneSt} {y : Nat} (h : s.faultsOk) : (writeRow s e p f l
    y).faultsOk :=
  ite_faultsOk (ite_faultsOk (tensWrite_faultsOk (ite_faultsOk h (tensWrite_faultsOk h))) (ite_faultsOk h (tensWrite_faultsOk h))) h

theorem outputRow_faultsOk {p : Nat} {s : State} (h : s.faultsOk) : (outputRow p s).faultsOk := by
  unfold outputRow
  split
  · exact h
  · split
    · exact h
    · exact ite_faultsOk (ite_faultsOk (engHalt_faultsOk (ite_fst_faultsOk (fedPixels_faultsOk h) h)) (setFrame_faultsOk (releaseLines_faultsOk
        (writeRow_faultsOk (ite_fst_faultsOk (fedPixels_faultsOk h) h))))) h

/-! ### Codecs -/

theorem codecCommit_faultsOk {s : State} {k : Nat} {j : CdcJob} {v : Bool} (h : s.faultsOk) : (codecCommit s k j v).faultsOk :=
  ite_faultsOk (putCommit_faultsOk h) (putCommit_faultsOk (putCommit_faultsOk h))
theorem setJob_faultsOk {s : State} {k : Nat} {j : Option CdcJob} (h : s.faultsOk) : (setJob s k j).faultsOk := faultsOk_mk h
theorem coreTurn_faultsOk {s : State} {k part : Nat} (h : s.faultsOk) : (coreTurn s k part).faultsOk :=
  useBuf_faultsOk (turnBuf_faultsOk (ite_faultsOk h (clearTile_faultsOk h)))

theorem beginJob_faultsOk {s : State} {k : Nat} {j : CdcJob} (h : s.faultsOk) : (beginJob s k j).faultsOk := by
  unfold beginJob
  extract_lets s1 _ s2 _ _ s3 s4 _ s5
  have hs1 : s1.faultsOk := coreTurn_faultsOk h
  have hs2 : s2.faultsOk := faultsOk_mk hs1
  have hs3 : s3.faultsOk := setJob_faultsOk (drawn_faultsOk hs2)
  have hs4 : s4.faultsOk := coreTurn_faultsOk hs3
  have hs5 : s5.faultsOk := ite_faultsOk (setJob_faultsOk (faultsOk_mk hs4)) hs3
  exact ite_faultsOk (codecCommit_faultsOk hs5) hs5

theorem stopJob_faultsOk {s : State} {k : Nat} {j : CdcJob} (h : s.faultsOk) : (stopJob s k j).faultsOk := by
  unfold stopJob
  dsimp only
  split
  · exact cancelItem_faultsOk (jobEnd_faultsOk h)
  · exact jobEnd_faultsOk h

theorem codecStart_faultsOk {k : Nat} {s : State} (h : s.faultsOk) : (codecStart k s).faultsOk := by
  unfold codecStart
  refine ite_faultsOk h ?_
  split
  · exact h
  · refine ite_faultsOk h ?_
    extract_lets _ _ d1 y1 c1
    have hd1 : FstOk d1 := readBytes_faultsOk h
    have hy1 : FstOk y1 := readBytes_faultsOk hd1
    have hc1 : FstOk c1 := ite_fst_faultsOk hy1 (readBytes_faultsOk hy1)
    exact ite_faultsOk (stopJob_faultsOk (popQ_faultsOk hc1)) (ite_faultsOk (jobEnd_faultsOk (raise_faultsOk (h := popQ_faultsOk hc1) ..))
      (ite_faultsOk h (ite_faultsOk (stopJob_faultsOk (raise_faultsOk (h := popQ_faultsOk hc1) ..)) (beginJob_faultsOk (popQ_faultsOk hc1)))))

theorem jobReads_faultsOk {s : State} {k : Nat} {j : CdcJob} (h : s.faultsOk) : FstOk (jobReads s k j) := by
  unfold jobReads
  exact ite_fst_faultsOk (fst_mk_faultsOk (readBytes_faultsOk h))
    (ite_fst_faultsOk (fst_mk_faultsOk (tensRead_faultsOk h)) (fst_mk_faultsOk (tensRead_faultsOk (tensRead_faultsOk h))))

theorem codecComplete_faultsOk {k : Nat} {s : State} (h : s.faultsOk) : (codecComplete k s).faultsOk := by
  unfold codecComplete
  split
  · exact h
  · refine ite_faultsOk h ?_
    extract_lets r1 _ _ _ _ _ _ s1 s2 s3
    have hr1 : FstOk r1 := jobReads_faultsOk h
    have hs1 : s1.faultsOk := jobWrites_faultsOk (drawn_faultsOk hr1)
    have hs2 : s2.faultsOk := ite_faultsOk (writeState_faultsOk hs1) hs1
    have hs3 : s3.faultsOk := ite_faultsOk (codecCommit_faultsOk hs2) hs2
    exact ite_faultsOk (stopJob_faultsOk (jobWrites_faultsOk hr1)) (jobEnd_faultsOk hs3)

/-! ### DRAM -/

theorem xtsSeal_faultsOk {s : State} {a n : Nat} (h : s.faultsOk) : (xtsSeal s a n).faultsOk := by
  unfold xtsSeal
  refine foldl_faultsOk (fun _ _ hu => ?_) h
  split
  · exact memPut_faultsOk hu
  · exact hu

theorem dramPut_faultsOk {s : State} {a : Nat} {bs : Bytes} (h : s.faultsOk) : (dramPut s a bs).faultsOk := xtsSeal_faultsOk (memPut_faultsOk h)
theorem throttleReport_faultsOk {s : State} {q : Nat × Nat × Nat} {p : DramPos} (h : s.faultsOk) : (throttleReport s q p).faultsOk :=
  ite_faultsOk (raise_faultsOk (h := faultsOk_mk h) ..) h
theorem activate_faultsOk {s : State} {m : Master} {r : Nat} {p : DramPos} (h : s.faultsOk) : (activate s m r p).faultsOk :=
  ite_faultsOk (foldl_faultsOk (fun _ _ hu => throttleReport_faultsOk hu) (drawn_faultsOk (faultsOk_mk h))) (drawn_faultsOk (faultsOk_mk h))
theorem leaveRow_faultsOk {s : State} {p : DramPos} {page : Nat} (h : s.faultsOk) : (leaveRow s p page).faultsOk := ite_faultsOk (faultsOk_mk h) h
theorem dramErr_faultsOk {s : State} {m : Master} {a len : Nat} {p : DramPos} {link ecc : Nat} (h : s.faultsOk) : FstOk (dramErr s m a len p link
    ecc) :=
  dramEcc_faultsOk (ite_faultsOk (markBlock_faultsOk (ite_fst_faultsOk (raise_faultsOk (h := h) ..) (ite_fst_faultsOk (raise_faultsOk (h := h) ..)
    h))) (ite_fst_faultsOk (raise_faultsOk (h := h) ..) (ite_fst_faultsOk (raise_faultsOk (h := h) ..) h)))

theorem dramBurst_faultsOk {m : Master} {r a len : Nat} {wr : Option Bytes} {link ecc : Nat} {s : State} (h : s.faultsOk) : (dramBurst m r a len wr
    link ecc s).faultsOk := by
  unfold dramBurst
  refine ite_faultsOk h ?_
  refine ite_faultsOk h ?_
  split
  · rename_i hr
    have hg := busOk_of_eq hr (busGate_faultsOk h)
    exact faultsOk_mk hg
  · exact h
  · extract_lets _ s1 s2 e1 __src1
    have hs1 : s1.faultsOk := ite_faultsOk h (activate_faultsOk h)
    have hs2 : s2.faultsOk := leaveRow_faultsOk hs1
    have he1 : FstOk e1 := dramErr_faultsOk hs2
    have h__src1 : __src1.faultsOk := raise_faultsOk (h := he1) ..
    split
    · exact dramPut_faultsOk hs2
    · exact ite_faultsOk (faultsOk_mk h__src1) (faultsOk_mk he1)

theorem skewOne_faultsOk {occ : List Nat} {holders : List (Nat × Nat)} {s : State} {ch : Nat} (h : s.faultsOk) : (skewOne occ holders s
    ch).faultsOk :=
  ite_faultsOk (raise_faultsOk (h := faultsOk_mk h) ..) (faultsOk_mk h)
theorem skewWindow_faultsOk {occ : List Nat} {holders : List (Nat × Nat)} {s : State} (h : s.faultsOk) : (skewWindow occ holders s).faultsOk :=
  ite_faultsOk (foldl_faultsOk (fun _ _ hu => skewOne_faultsOk hu) h) h
theorem rhWindow_faultsOk {ch bank : Nat} {s : State} (h : s.faultsOk) : (rhWindow ch bank s).faultsOk := faultsOk_mk h
theorem tempRead_faultsOk {t : List Int} {s : State} (h : s.faultsOk) : (tempRead t s).faultsOk := setF_faultsOk h
theorem refreshDue_faultsOk {ch bank : Nat} {busy : Bool} {s : State} (h : s.faultsOk) : (refreshDue ch bank busy s).faultsOk :=
  ite_faultsOk h (ite_faultsOk (setRefr_faultsOk (faultsOk_mk h)) (ite_faultsOk (setRefr_faultsOk (faultsOk_mk h)) (ite_faultsOk (setRefr_faultsOk
    (faultsOk_mk h)) (ite_faultsOk (setRefr_faultsOk (faultsOk_mk h)) (forceRefresh_faultsOk (setRefr_faultsOk (faultsOk_mk h)))))))
theorem writeLinkPoll_faultsOk {l : List (Bool × Bool)} {s : State} (h : s.faultsOk) : (writeLinkPoll l s).faultsOk :=
  foldl_faultsOk (fun _ _ hu => ite_faultsOk (raiseDevice_faultsOk (ite_faultsOk (raise_faultsOk (h := hu) ..) hu)) (ite_faultsOk (raise_faultsOk
    (h := hu) ..) hu)) h
theorem drcCfgWrite_faultsOk {m : Master} {v : Nat} {s : State} (h : s.faultsOk) : (drcCfgWrite m v s).faultsOk :=
  gated_faultsOk h (fun _ hu => ite_faultsOk (ite_faultsOk (cfgIgnored_faultsOk hu) hu) (foldl_faultsOk (fun _ _ hu => setF_faultsOk hu) hu))
theorem dramReady_faultsOk {s : State} (h : s.faultsOk) : (dramReady s).faultsOk := setF_faultsOk (ite_faultsOk (faultsOk_mk h) h)
theorem dramTraining_faultsOk {ok1 ok2 : Bool} {s : State} (h : s.faultsOk) : (dramTraining ok1 ok2 s).faultsOk :=
  ite_faultsOk h (ite_faultsOk (dramReady_faultsOk h) (raiseDevice_faultsOk h))
theorem drcTrnWrite_faultsOk {m : Master} {v : Nat} {s : State} (h : s.faultsOk) : (drcTrnWrite m v s).faultsOk :=
  gated_faultsOk h (fun _ hu => ite_faultsOk (faultsOk_mk (setF_faultsOk (setF_faultsOk (wrField_faultsOk (ite_faultsOk (cfgIgnored_faultsOk hu)
    hu))))) (setF_faultsOk (setF_faultsOk (wrField_faultsOk (ite_faultsOk (cfgIgnored_faultsOk hu) hu)))))
theorem trnDone_faultsOk {ch : Nat} {errors deskew : List Nat} {s : State} (h : s.faultsOk) : (trnDone ch errors deskew s).faultsOk :=
  ite_faultsOk (faultsOk_mk h) h
theorem zeroQueue_faultsOk {s : State} {base len : Nat} {down : Bool} (h : s.faultsOk) : (zeroQueue s base len down).faultsOk :=
  ite_faultsOk (faultsOk_mk h) h
theorem scrubZero_faultsOk {m : Master} {base len : Nat} {s : State} (h : s.faultsOk) : (scrubZero m base len s).faultsOk :=
  ite_faultsOk (zeroQueue_faultsOk h) h

theorem scrubDone_faultsOk {s : State} (h : s.faultsOk) : (scrubDone s).faultsOk := by
  unfold scrubDone
  split
  · exact h
  · refine setF_faultsOk ?_
    split
    · exact zeroMem_faultsOk (faultsOk_mk h)
    · rename_i hr
      have hg := busOk_of_eq hr (busGate_faultsOk (faultsOk_mk h))
      exact hg
    · exact faultsOk_mk h

theorem dramPatrol_faultsOk {errs : List (Nat × Bool)} {s : State} (h : s.faultsOk) : (dramPatrol errs s).faultsOk :=
  ite_faultsOk h (foldl_faultsOk (fun _ _ hu => ite_faultsOk hu (ite_faultsOk (raise_faultsOk (h := markBlock_faultsOk hu) ..) (raise_faultsOk (h
    := hu) ..))) h)

/-! ### Stream engines and the footpath -/

theorem endXfer_faultsOk {s : State} {e : Nat} (h : s.faultsOk) : (endXfer s e).faultsOk := by
  unfold endXfer
  dsimp only
  split
  · split
    · exact returnUnspent_faultsOk (setD_faultsOk h)
    · exact setD_faultsOk h
  · exact h

theorem postEntry_faultsOk {s : State} {e : Nat} {w : DmaWord} (h : s.faultsOk) : FstOk (postEntry s e w) := by
  unfold postEntry
  split
  · exact postData_faultsOk h
  · exact h

theorem endWord_faultsOk {s : State} {e serial idx st : Nat} (h : s.faultsOk) : (endWord s e serial idx st).faultsOk := by
  unfold endWord
  dsimp only
  split
  · exact postEntry_faultsOk (setD_faultsOk h)
  · exact setD_faultsOk h

theorem dmaUnreach_faultsOk {s : State} {e idx : Nat} (h : s.faultsOk) : (dmaUnreach s e idx).faultsOk := by
  unfold dmaUnreach
  split
  · exact engHalt_faultsOk (endWord_faultsOk h)
  · exact engHalt_faultsOk h

theorem fetchDesc_faultsOk {s : State} {e : Nat} {w : DmaWord} (h : s.faultsOk) : EffOk (fetchDesc s e w) := by
  unfold fetchDesc
  extract_lets _ _ _ r1
  have hr1 : ReadOk r1 := dmaRead_faultsOk h
  split
  · refine ite_effOk (engHalt_faultsOk hr1) ?_
    refine ite_effOk (dmaUnreach_faultsOk hr1) ?_
    refine ite_effOk (setD_faultsOk hr1) ?_
    split
    · exact engFault_faultsOk hr1
    · exact setD_faultsOk hr1
  · refine ite_effOk (engHalt_faultsOk hr1) ?_
    refine ite_effOk (dmaUnreach_faultsOk hr1) ?_
    refine ite_effOk (setD_faultsOk hr1) ?_
    split
    · exact engFault_faultsOk hr1
    · exact setD_faultsOk hr1
  · refine ite_effOk (engHalt_faultsOk hr1) ?_
    refine ite_effOk (dmaUnreach_faultsOk hr1) ?_
    refine ite_effOk (setD_faultsOk hr1) ?_
    split
    · exact engFault_faultsOk hr1
    · exact setD_faultsOk hr1
  · exact dmaUnreach_faultsOk (unreachable_faultsOk h)

theorem xferAct_faultsOk {e : Nat} {w : BitVec 256} {s : State} (h : s.faultsOk) : EffOk (xferAct e w s) := by
  unfold xferAct
  refine ite_effOk (closeStep_faultsOk (returnSpare_faultsOk h)) ?_
  split
  · exact fetchDesc_faultsOk (setE_faultsOk (setD_faultsOk h))
  · split
    · exact ite_effOk (endXfer_faultsOk h) h
    · exact ite_effOk (fetchDesc_faultsOk h) (setD_faultsOk h)

theorem xferWord_faultsOk {e : Nat} {w : BitVec 256} {s : State} (h : s.faultsOk) : (xferWord e w s).faultsOk :=
  issue_faultsOk h (fun _ hu => xferAct_faultsOk hu)
theorem dmaHold_faultsOk {s : State} {e : Nat} (h : s.faultsOk) : (dmaHold s e).faultsOk := setE_faultsOk h

theorem pushBurst_faultsOk {s : State} {e : Nat} {b : DmaBurst} {blk : Option (DmaBlock × Nat × Bytes)} (h : s.faultsOk) : (pushBurst s e b
    blk).faultsOk := by
  unfold pushBurst
  dsimp only
  split
  · exact setD_faultsOk h
  · exact setD_faultsOk h

theorem copyBurst_faultsOk {s : State} {e : Nat} {w : DmaWord} {x : DmaXfer} {g : Engine} (h : s.faultsOk) : EitherOk (copyBurst s e w x g) := by
  exact ite_eitherOk (engHalt_faultsOk (dmaRead_faultsOk h)) (ite_eitherOk (dmaUnreach_faultsOk (dmaRead_faultsOk h))
    (ite_eitherOk (setD_faultsOk (dmaRead_faultsOk h)) (pushBurst_faultsOk (setD_faultsOk (dmaRead_faultsOk h)))))

theorem copyLoop_faultsOk {e n : Nat} {s : State} (h : s.faultsOk) : (copyLoop e n s).faultsOk := by
  induction n generalizing s with
  | zero => exact h
  | succ n ih =>
    unfold copyLoop
    dsimp only
    split
    · refine ite_faultsOk (closeStep_faultsOk (returnSpare_faultsOk (dmaHold_faultsOk h))) (ite_faultsOk (endXfer_faultsOk h)
        (ite_faultsOk (dmaHold_faultsOk h) (ite_faultsOk (dmaHold_faultsOk h) ?_)))
      split
      · rename_i hr
        exact eitherOk_of_eq hr (copyBurst_faultsOk h)
      · rename_i hr
        exact ih (eitherOk_of_eq hr (copyBurst_faultsOk h))
    · exact h

theorem openXfer_faultsOk {s : State} {e : Nat} {x : DmaXfer} (h : s.faultsOk) : EitherOk (openXfer s e x) := by
  unfold openXfer
  extract_lets _ _ h1 s1
  have hs1 : s1.faultsOk := tagHeader_faultsOk h
  split
  · exact engHalt_faultsOk hs1
  · split
    · exact dmaUnreach_faultsOk hs1
    · split
      · exact engFault_faultsOk hs1
      · split
        · exact setD_faultsOk hs1
        · exact setD_faultsOk (busWrite_faultsOk (faultsOk_mk hs1))

theorem dmaCopy_faultsOk {e : Nat} {s : State} (h : s.faultsOk) : (dmaCopy e s).faultsOk := by
  unfold dmaCopy
  split
  · exact h
  · refine ite_faultsOk (dmaHold_faultsOk h) ?_
    split
    · rename_i hr
      have hg := eitherOk_of_eq hr (by
          split
          · exact h
          · exact openXfer_faultsOk h
        )
      exact hg
    · rename_i hr
      have hg := eitherOk_of_eq hr (by
          split
          · exact h
          · exact openXfer_faultsOk h
        )
      exact copyLoop_faultsOk hg

theorem dmaCsload_faultsOk {e : Nat} {s : State} (h : s.faultsOk) : (dmaCsload e s).faultsOk := by
  unfold dmaCsload
  split
  · exact h
  · refine ite_faultsOk (dmaHold_faultsOk h) ?_
    refine ite_faultsOk (engHalt_faultsOk (csLocked_faultsOk h)) ?_
    split
    · rename_i hr
      have hg := eitherOk_of_eq hr (by
          split
          · exact h
          · exact openXfer_faultsOk (clearLevelBad_faultsOk h)
        )
      exact hg
    · rename_i hr
      have hg := eitherOk_of_eq hr (by
          split
          · exact h
          · exact openXfer_faultsOk (clearLevelBad_faultsOk h)
        )
      exact copyLoop_faultsOk hg

theorem tensorBurst_faultsOk {s : State} {e : Nat} {w : DmaWord} {x : DmaXfer} {sd dd : TDesc} {part : Nat} (h : s.faultsOk) : EitherOk
    (tensorBurst s e w x sd dd part) := by
  unfold tensorBurst
  extract_lets _ _ _ _ _ _ _ _ s1 _ r1
  have hs1 : s1.faultsOk := setD_faultsOk h
  have hr1 : FstOk r1 := tensRead_faultsOk hs1
  split
  · exact hs1
  · split
    · exact partFilter_faultsOk hs1
    · split
      · exact dmaUnreach_faultsOk hr1
      · split
        · exact engHalt_faultsOk hr1
        · exact pushBurst_faultsOk hr1

theorem tensorLoop_faultsOk {e n : Nat} {s : State} (h : s.faultsOk) : (tensorLoop e n s).faultsOk := by
  induction n generalizing s with
  | zero => exact h
  | succ n ih =>
    unfold tensorLoop
    dsimp only
    split
    · refine ite_faultsOk (endXfer_faultsOk h) (ite_faultsOk (dmaHold_faultsOk h) (ite_faultsOk (dmaHold_faultsOk h) ?_))
      split
      · rename_i hr
        exact eitherOk_of_eq hr (tensorBurst_faultsOk h)
      · rename_i hr
        exact ih (eitherOk_of_eq hr (tensorBurst_faultsOk h))
    · exact h

theorem dmaDesc_faultsOk {s : State} {e : Nat} {x : DmaXfer} {a : Nat} {written : Bool} (h : s.faultsOk) : EitherFstOk (dmaDesc s e x a written) :=
    by
  unfold dmaDesc
  extract_lets r1
  have hr1 : ReadOk r1 := dmaRead_faultsOk h
  split
  · exact engHalt_faultsOk hr1
  · split
    · exact dmaUnreach_faultsOk hr1
    · split
      · exact endXfer_faultsOk hr1
      · split
        · exact engFault_faultsOk hr1
        · split
          · exact engFault_faultsOk hr1
          · exact hr1

theorem openTensor_faultsOk {s : State} {e : Nat} {x : DmaXfer} (h : s.faultsOk) : EitherOk (openTensor s e x) := by
  unfold openTensor
  split
  · rename_i hr
    have hg := eitherFstOk_of_eq hr (dmaDesc_faultsOk h)
    exact hg
  · rename_i hr
    have hg := eitherFstOk_of_eq hr (dmaDesc_faultsOk h)
    split
    · rename_i hr
      have hg' := eitherFstOk_of_eq hr (dmaDesc_faultsOk hg)
      exact hg'
    · rename_i hr
      have hg' := eitherFstOk_of_eq hr (dmaDesc_faultsOk hg)
      split
      · exact engFault_faultsOk hg'
      · dsimp only
        split
        · exact engHalt_faultsOk (putCommit_faultsOk hg')
        · exact setD_faultsOk (putCommit_faultsOk hg')

theorem settleCommits_faultsOk {s : State} {e : Nat} (h : s.faultsOk) : (settleCommits s e).faultsOk :=
  foldl_faultsOk (fun _ _ hu => putCommit_faultsOk hu) (setD_faultsOk h)

theorem dmaTensor_faultsOk {e : Nat} {s : State} (h : s.faultsOk) : (dmaTensor e s).faultsOk := by
  unfold dmaTensor
  split
  · exact h
  · refine ite_faultsOk (dmaHold_faultsOk h) ?_
    split
    · rename_i hr
      have hg := eitherOk_of_eq hr (by
          split
          · exact h
          · exact openTensor_faultsOk h
        )
      exact hg
    · rename_i hr
      have hg := eitherOk_of_eq hr (by
          split
          · exact h
          · exact openTensor_faultsOk h
        )
      exact settleCommits_faultsOk (tensorLoop_faultsOk hg)

theorem fpTileWrite_faultsOk {s : State} {m : Master} {a : Nat} {bs : Bytes} (h : s.faultsOk) : EitherFstOk (fpTileWrite s m a bs) := by
  unfold fpTileWrite
  split
  · exact h
  · dsimp only
    split
    · exact h
    · split
      · exact h
      · split
        · exact remoteWrite_faultsOk h
        · split
          · exact remoteWrite_faultsOk (setW_faultsOk h)
          · exact setW_faultsOk h

theorem countBytes_faultsOk {s : State} {e ser n : Nat} (h : s.faultsOk) : (countBytes s e ser n).faultsOk := setD_faultsOk h

theorem smallTag_faultsOk {s : State} {k : FpAcc} (h : s.faultsOk) : OptionOk (smallTag s k) := by
  unfold smallTag
  split
  · exact faultsOk_mk h
  · split
    · exact faultsOk_mk h
    · split
      · exact h
      · exact trivial

theorem smallLoop_faultsOk {e n : Nat} {s : State} (h : s.faultsOk) : (smallLoop e n s).faultsOk := by
  induction n generalizing s with
  | zero => exact h
  | succ n ih =>
    unfold smallLoop
    dsimp only
    split
    · split
      · exact endXfer_faultsOk h
      · split
        · exact dmaHold_faultsOk (faultsOk_mk (bump_faultsOk h))
        · rename_i hr
          have hs := optionOk_of_eq hr (smallTag_faultsOk h)
          split
          · split
            · rename_i hg
              exact dmaUnreach_faultsOk (busOk_of_eq hg (tileGate_faultsOk hs))
            · split
              · rename_i hw
                exact dmaHold_faultsOk (faultsOk_mk (eitherFstOk_of_eq hw (fpTileWrite_faultsOk hs)))
              · rename_i hw
                exact ih (setD_faultsOk (countBytes_faultsOk (eitherFstOk_of_eq hw (fpTileWrite_faultsOk hs))))
              · rename_i hw
                exact endXfer_faultsOk (abortXfer_faultsOk (eitherFstOk_of_eq hw (fpTileWrite_faultsOk hs)))
          · exact ite_faultsOk (dmaUnreach_faultsOk (busWrite_faultsOk hs)) (ih (setD_faultsOk (countBytes_faultsOk (busWrite_faultsOk hs))))
    · exact h

theorem dmaSmall_faultsOk {e : Nat} {s : State} (h : s.faultsOk) : (dmaSmall e s).faultsOk := by
  unfold dmaSmall
  split
  · exact h
  · exact ite_faultsOk (dmaHold_faultsOk h) (smallLoop_faultsOk h)

theorem burstWrite_faultsOk {s : State} {e : Nat} {b : DmaBurst} (h : s.faultsOk) : LandedOk (burstWrite s e b) := by
  unfold burstWrite
  extract_lets _ _ _ g1 r1
  have hr1 : FstOk r1 := busWrite_faultsOk h
  split
  · exact remoteWrite_faultsOk h
  · split
    · split
      · exact csLocked_faultsOk h
      · exact noteLevels_faultsOk (memPut_faultsOk h)
    · split
      · clear_value g1
        split
        · exact tensWrite_faultsOk h
        · exact tensWrite_faultsOk h
        · exact tensWrite_faultsOk h
      · exact hr1

theorem blockDone_faultsOk {s : State} {e : Nat} {wrote : Bool} {b : DmaBurst} (h : s.faultsOk) : (blockDone s e wrote b).faultsOk := by
  unfold blockDone
  split
  · exact h
  · dsimp only
    split
    · exact ite_faultsOk (setD_faultsOk (busWrite_faultsOk (setD_faultsOk h))) (setD_faultsOk h)
    · exact setD_faultsOk h

theorem burstComplete_faultsOk {e i : Nat} {s : State} (h : s.faultsOk) : (burstComplete e i s).faultsOk := by
  unfold burstComplete
  extract_lets 
  split
  · exact ite_faultsOk (setD_faultsOk h) h
  · extract_lets _ r1 _ _ s1 s2
    have hr1 : LandedOk r1 := burstWrite_faultsOk h
    have hs1 : s1.faultsOk := setD_faultsOk hr1
    have hs2 : s2.faultsOk := by
      unfold s2
      split
      · exact countBytes_faultsOk hs1
      · exact abortXfer_faultsOk hs1
      · exact hs1
    exact ite_faultsOk h (ite_faultsOk (setD_faultsOk h) (ite_faultsOk (engHalt_faultsOk hs1) (ite_faultsOk (engHalt_faultsOk (endWord_faultsOk
      hs1)) (settleCommits_faultsOk (foldl_faultsOk (fun _ _ hu => blockDone_faultsOk hu) hs2)))))

theorem zeroBlocks_faultsOk {s : State} {m : Master} {l : List DmaBlock} (h : s.faultsOk) : (zeroBlocks s m l).faultsOk := by
  unfold zeroBlocks
  refine foldl_faultsOk (fun _ _ hu => ?_) h
  refine foldl_faultsOk (fun _ _ hu => ?_) hu
  split
  · exact busWrite_faultsOk hu
  · exact busWrite_faultsOk hu
  · exact busWrite_faultsOk hu
  · exact noteLevels_faultsOk (memPut_faultsOk hu)

theorem blockAuth_faultsOk {e : Nat} {s : State} (h : s.faultsOk) : (blockAuth e s).faultsOk := by
  unfold blockAuth
  dsimp only
  split
  · exact h
  · split
    · exact h
    · exact ite_faultsOk (engHalt_faultsOk (dmaRead_faultsOk h)) (ite_faultsOk (setD_faultsOk (dmaRead_faultsOk h)) (engFault_faultsOk
        (endWord_faultsOk (setF_faultsOk (zeroBlocks_faultsOk (dmaRead_faultsOk h))))))

theorem xferComplete_faultsOk {e : Nat} {s : State} (h : s.faultsOk) : (xferComplete e s).faultsOk := by
  unfold xferComplete
  dsimp only
  split
  · exact settleCommits_faultsOk h
  · exact ite_faultsOk (ite_faultsOk (postEntry_faultsOk (setD_faultsOk (settleCommits_faultsOk h))) (engHalt_faultsOk (postEntry_faultsOk
      (setD_faultsOk (settleCommits_faultsOk h))))) (settleCommits_faultsOk h)

theorem bootPortDescriptor_faultsOk {m : Master} {raw : Bytes} {s : State} (h : s.faultsOk) : (bootPortDescriptor m raw s).faultsOk :=
  ite_faultsOk (runBootPort_faultsOk (faultsOk_mk h)) h

/-! ### The scheduler and lay-by -/

theorem stepSubmit_faultsOk {q : Nat} {s : State} (h : s.faultsOk) : (stepSubmit q s).faultsOk := by
  unfold stepSubmit
  split
  · exact h
  · extract_lets _ _ s1 _ r1 _ _ _ s2
    have hs1 : s1.faultsOk := popQ_faultsOk h
    have hr1 : ReadOk r1 := by
      unfold r1
      split
      · exact busRead_faultsOk hs1
      · exact hs1
    have hs2 : s2.faultsOk := faultsOk_mk hr1
    exact ite_faultsOk (ite_faultsOk (laybyRequest_faultsOk hs2) hs2) (postStep_faultsOk hr1)

theorem stepCompletion_faultsOk {s : State} (h : s.faultsOk) : (stepCompletion s).faultsOk := by
  unfold stepCompletion
  split
  · exact h
  · exact postData_faultsOk (faultsOk_mk h)

theorem leadRequest_faultsOk {t : Nat} {s : State} (h : s.faultsOk) : (leadRequest t s).faultsOk := by
  unfold leadRequest
  dsimp only
  split
  · exact atComp_faultsOk h
  · exact ite_faultsOk (laybyRequest_faultsOk (atComp_faultsOk h)) (atComp_faultsOk h)

theorem shareExpiry_faultsOk {p t : Nat} {s : State} (h : s.faultsOk) : (shareExpiry p t s).faultsOk := by
  unfold shareExpiry
  dsimp only
  split
  · exact ite_faultsOk (laybyRequest_faultsOk (chargeStep_faultsOk (atComp_faultsOk h))) (chargeStep_faultsOk (atComp_faultsOk h))
  · exact chargeStep_faultsOk (atComp_faultsOk h)

theorem startAll_faultsOk {s : State} {p : Nat} {l : List (Nat × Nat × Nat)} (h : s.faultsOk) : FstOk (startAll s p l) := by
  induction l generalizing s with
  | nil => exact h
  | cons x rest ih =>
    obtain ⟨e, addr, pre⟩ := x
    unfold startAll
    extract_lets s1 r1
    have hs1 : s1.faultsOk := ite_faultsOk h (setF_faultsOk (setF_faultsOk h))
    have hr1 : FstOk r1 := registerStart_faultsOk hs1
    exact ite_fst_faultsOk (ih hr1) hr1

theorem stepStart_faultsOk {t : Nat} {s : State} (h : s.faultsOk) : (stepStart t s).faultsOk := by
  unfold stepStart
  extract_lets s1
  have hs1 : s1.faultsOk := atComp_faultsOk h
  refine ite_faultsOk hs1 ?_
  split
  · exact hs1
  · split
    · exact hs1
    · exact ite_faultsOk hs1 (ite_faultsOk (faultsOk_mk hs1) (ite_faultsOk hs1 (ite_faultsOk (startAll_faultsOk (faultsOk_mk hs1))
        (endStep_faultsOk (startAll_faultsOk (faultsOk_mk hs1))))))

theorem shapeEntry_faultsOk {q t : Nat} {s : State} (h : s.faultsOk) : (shapeEntry q t s).faultsOk := by
  unfold shapeEntry
  extract_lets s1 _ s2 drop1
  have hs1 : s1.faultsOk := atComp_faultsOk h
  have hs2 : s2.faultsOk := popQ_faultsOk hs1
  have hdrop1 : drop1.faultsOk := setF_faultsOk hs2
  split
  · exact hs1
  · dsimp only
    split
    · exact hdrop1
    · split
      · exact hdrop1
      · exact ite_faultsOk hdrop1 (faultsOk_mk hs2)

theorem lbyCmdWrite_faultsOk {m : Master} {v : Nat} {s : State} (h : s.faultsOk) : (lbyCmdWrite m v s).faultsOk :=
  gated_faultsOk h (fun _ hu => ite_faultsOk (laybyRequest_faultsOk hu) (ite_faultsOk (faultsOk_mk hu) hu))
theorem freeSlots_faultsOk {s : State} (h : s.faultsOk) : (freeSlots s).faultsOk := faultsOk_mk h

theorem laybyLate_faultsOk {t : Nat} {s : State} (h : s.faultsOk) : (laybyLate t s).faultsOk := by
  unfold laybyLate
  dsimp only
  split
  · exact ite_faultsOk (freeSlots_faultsOk (endStep_faultsOk (raise_faultsOk (h := setF_faultsOk (atComp_faultsOk h)) ..))) (atComp_faultsOk h)
  · exact atComp_faultsOk h

theorem saveBlock_eq : saveBlock = fun p key nonce src s i =>
    let base := laybyBase s p
    let ct := gcmXor key (gcmIv nonce i) 0 (laybyPlain src i)
    let s := (busWrite s (moverMaster p) .system (base + 4096 * i) ct).1
    (busWrite s (moverMaster p) .system (base + 0x4000 + 16 + 16 * i) (gcmTagOf key (gcmIv nonce i) ct)).1 := rfl

theorem saveBlock_faultsOk {p : Nat} {key : BitVec 256} {nonce : Bytes} {src s : State} {i : Nat} (h : s.faultsOk) : (saveBlock p key nonce src s
    i).faultsOk := by
  rw [saveBlock_eq]
  exact busWrite_faultsOk (busWrite_faultsOk h)

theorem laybyTiles_faultsOk {s : State} {p : Nat} (h : s.faultsOk) : FstOk (laybyTiles s p) := by
  unfold laybyTiles
  exact foldl_fst_faultsOk (fun _ _ hu => fst_mk_faultsOk (eccRead_faultsOk hu)) h

theorem clearStepUnits_faultsOk {s : State} {x : Step} (h : s.faultsOk) : (clearStepUnits s x).faultsOk :=
  foldl_faultsOk (fun _ _ hu => ite_faultsOk (setD_faultsOk hu) hu) (ite_faultsOk (clearDrain_faultsOk h) h)

theorem laybyEntry_faultsOk {par : Bool} {t : Nat} {s : State} (h : s.faultsOk) : (laybyEntry par t s).faultsOk := by
  unfold laybyEntry
  extract_lets s1 s2
  have hs1 : s1.faultsOk := closeStep_faultsOk (atComp_faultsOk h)
  have hs2 : s2.faultsOk := chargeStep_faultsOk hs1
  split
  · exact hs1
  · refine ite_faultsOk hs1 ?_
    extract_lets _ r1 s3 _ _ _ _ _ __src1 _ s4 _ s5 s6 s7 _ s8 s9 s10 _ s11 s12 s13
    have hr1 : FstOk r1 := laybyTiles_faultsOk hs2
    have hs3 : s3.faultsOk := ite_faultsOk (raise_faultsOk (h := bump_faultsOk hr1) ..) hr1
    have h__src1 : __src1.faultsOk := drawn_faultsOk hs3
    have hs4 : s4.faultsOk := faultsOk_mk h__src1
    have hs5 : s5.faultsOk := busWrite_faultsOk hs4
    have hs6 : s6.faultsOk := foldl_faultsOk (fun _ _ hu => saveBlock_faultsOk hu) hs5
    have hs7 : s7.faultsOk := clearStepUnits_faultsOk hs6
    have hs8 : s8.faultsOk := faultsOk_mk hs7
    have hs9 : s9.faultsOk := freeSlots_faultsOk (clearArrayPath_faultsOk hs8)
    have hs10 : s10.faultsOk := foldl_faultsOk (fun _ _ hu => setE_faultsOk hu) hs9
    have hs11 : s11.faultsOk := leaveArray_faultsOk (faultsOk_mk hs10)
    have hs12 : s12.faultsOk := applyDisable_faultsOk (ite_faultsOk (applyDisable_faultsOk hs11) hs11)
    have hs13 : s13.faultsOk := ite_faultsOk (runBootPort_faultsOk hs12) hs12
    exact ite_faultsOk (applyDisable_faultsOk (freeSlots_faultsOk (clearArrayPath_faultsOk (endStep_faultsOk hs3)))) (ite_faultsOk
      (discardSteps_faultsOk hs13) hs13)

theorem laybyExitBegin_faultsOk {t : Nat} {s : State} (h : s.faultsOk) : (laybyExitBegin t s).faultsOk := by
  unfold laybyExitBegin
  dsimp only
  split
  · exact atComp_faultsOk h
  · exact ite_faultsOk (faultsOk_mk (atComp_faultsOk h)) (atComp_faultsOk h)

theorem restoreMemories_faultsOk {s : State} {p : Nat} {key : BitVec 256} {sv : Saved} (h : s.faultsOk) : (restoreMemories s p key sv).faultsOk :=
  faultsOk_mk (foldl_faultsOk (fun _ _ hu => memPut_faultsOk hu) h)
theorem restoreArray_faultsOk {s : State} {sv : Saved} (h : s.faultsOk) : (restoreArray s sv).faultsOk := faultsOk_mk h
theorem reopen_faultsOk {p : Nat} {s : State} {w : Nat × Nat × Nat × Nat} (h : s.faultsOk) : (reopen p s w).faultsOk :=
  openWindow_faultsOk (setW_faultsOk h)

theorem laybyExit_faultsOk {t : Nat} {s : State} (h : s.faultsOk) : (laybyExit t s).faultsOk := by
  unfold laybyExit
  extract_lets s1
  have hs1 : s1.faultsOk := atComp_faultsOk h
  split
  · exact hs1
  · split
    · exact hs1
    · refine ite_faultsOk hs1 ?_
      extract_lets _ _ s2 s3 s4 _ s5 s6 s7 s8 _ _ s9
      have hs2 : s2.faultsOk := raise_faultsOk (h := setF_faultsOk hs1) ..
      have hs3 : s3.faultsOk := restoreArray_faultsOk (restoreMemories_faultsOk (clearArrayPath_faultsOk hs1))
      have hs4 : s4.faultsOk := foldl_faultsOk (fun _ _ hu => reopen_faultsOk hu) hs3
      have hs5 : s5.faultsOk := faultsOk_mk hs4
      have hs6 : s6.faultsOk := foldl_faultsOk (fun _ _ hu => setD_faultsOk hu) hs5
      have hs7 : s7.faultsOk := foldl_faultsOk (fun _ _ hu => setE_faultsOk hu) hs6
      have hs8 : s8.faultsOk := chargeStep_faultsOk hs7
      have hs9 : s9.faultsOk := faultsOk_mk hs8
      refine ite_faultsOk (settleParked_faultsOk (endStep_faultsOk (freeSlots_faultsOk (clearArrayPath_faultsOk hs2)))) ?_
      split
      · split
        · exact freeSlots_faultsOk (endStep_faultsOk (raise_faultsOk (h := hs9) ..))
        · exact ite_faultsOk (laybyRequest_faultsOk hs9) hs9
      · exact ite_faultsOk (laybyRequest_faultsOk hs9) hs9

end Sys2Proof.FaultLaws
end

section
/-! The depth of the fault queues: the fault unit, the causeway, ticks, the network, power, boot and security. -/

namespace Sys2Proof.FaultLaws

open Sys2Proof Sys2Proof.Machine

/-! ### The fault unit -/

theorem cancelStarted_faultsOk {s : State} {p : Nat} (h : s.faultsOk) : (cancelStarted s p).faultsOk :=
  foldl_faultsOk (fun _ _ hu => cancelItem_faultsOk hu) h
theorem partRestart_faultsOk {s : State} {p : Nat} (h : s.faultsOk) : (partRestart s p).faultsOk :=
  ite_faultsOk h (faultsOk_mk (fltOk_mk (foldl_faultsOk (fun _ _ hu => stopEngine_faultsOk hu) (cancelStarted_faultsOk (ite_faultsOk h
    (discardSteps_faultsOk h))))))

theorem takeComp_faultsOk {s : State} (h : s.faultsOk) : (takeComp s).faultsOk := by
  unfold takeComp
  split
  · exact h
  · extract_lets _ _ s1
    have hs1 : s1.faultsOk := faultsOk_mk (fltOk_mk ⟨(List.length_erase_le ..).trans h.1, h.2⟩)
    exact ite_faultsOk (partRestart_faultsOk hs1) hs1

theorem takePort_faultsOk {s : State} (h : s.faultsOk) : (takePort s).faultsOk := by
  unfold takePort
  split
  · exact h
  · exact faultsOk_mk (fltOk_mk ⟨h.1, (List.length_erase_le ..).trans h.2⟩)

theorem doneComp_faultsOk {s : State} (h : s.faultsOk) : (doneComp s).faultsOk := interrupt_faultsOk (faultsOk_mk (fltOk_mk h))
theorem kickComp_faultsOk {s : State} (h : s.faultsOk) : (kickComp s).faultsOk := ite_faultsOk (faultsOk_mk (fltOk_mk h)) h
theorem restartComp_faultsOk {s : State} (h : s.faultsOk) : (restartComp s).faultsOk := ite_faultsOk h (faultsOk_mk (fltOk_mk h))

theorem fltCmdAct_faultsOk {port : Bool} {c : Nat} {s : State} (h : s.faultsOk) : (fltCmdAct port c s).faultsOk := by
  unfold fltCmdAct
  split
  · exact ite_faultsOk (takePort_faultsOk h) (takeComp_faultsOk h)
  · exact ite_faultsOk h (doneComp_faultsOk h)
  · exact ite_faultsOk h (kickComp_faultsOk h)
  · exact ite_faultsOk h (restartComp_faultsOk h)
  · exact h

theorem fltCmd_faultsOk {m : Master} {port : Bool} {v : Nat} {s : State} (h : s.faultsOk) : (fltCmd m port v s).faultsOk :=
  gated_faultsOk h (fun _ hu => fltCmdAct_faultsOk hu)

theorem recordDamaged_faultsOk {port : Bool} {s : State} (h : s.faultsOk) : (recordDamaged port s).faultsOk := by
  unfold recordDamaged
  dsimp only
  split
  · exact h
  · refine doubleFault_faultsOk (faultsOk_mk ?_)
    cases port with
    | false => exact fltOk_mk ⟨(List.length_map ..).trans_le h.1, h.2⟩
    | true => exact fltOk_mk ⟨h.1, (List.length_map ..).trans_le h.2⟩

theorem watchdogExpiry_faultsOk {t : Nat} {s : State} (h : s.faultsOk) : (watchdogExpiry t s).faultsOk := by
  have ha := atComp_faultsOk (t := t) h
  unfold watchdogExpiry
  dsimp only
  split
  · exact ha
  · exact doubleFault_faultsOk (faultsOk_mk (fltOk_mk ⟨(List.length_map ..).trans_le ha.1, ha.2⟩))

theorem rtLockstep_faultsOk {s : State} (h : s.faultsOk) : (rtLockstep s).faultsOk :=
  ite_faultsOk h (faultsOk_mk (fltOk_mk (raise_faultsOk (h := h) ..)))
theorem rebindPair_faultsOk {s : State} (h : s.faultsOk) : (rebindPair s).faultsOk := ite_faultsOk (faultsOk_mk (fltOk_mk h)) h
theorem advanceCursor_faultsOk {s : State} {c : Nat} (h : s.faultsOk) : (advanceCursor s c).faultsOk :=
  ite_faultsOk (faultsOk_mk (fltOk_mk h)) (ite_faultsOk (bump_faultsOk (faultsOk_mk (fltOk_mk h))) (faultsOk_mk (fltOk_mk h)))
theorem bistFail_faultsOk {s : State} {c t item : Nat} {cols : List Nat} {corrected : Bool} (h : s.faultsOk) : (bistFail s c t item cols
    corrected).faultsOk :=
  ite_faultsOk (foldl_faultsOk (fun _ _ hu => chargeCol_faultsOk hu) (raise_faultsOk (h := h) ..)) (ite_faultsOk (ite_faultsOk (raise_faultsOk (h
    := h) ..) (raise_faultsOk (h := h) ..)) (raiseDevice_faultsOk h))

theorem billetEnd_faultsOk {res : Nat} {cols : List Nat} {corrected : Bool} {s : State} (h : s.faultsOk) : (billetEnd res cols corrected
    s).faultsOk := by
  unfold billetEnd
  split
  · exact h
  · extract_lets _ _ _ s1 _ _ s2 s3 s4
    have hs1 : s1.faultsOk := setF_faultsOk (setF_faultsOk h)
    have hs2 : s2.faultsOk := faultsOk_mk hs1
    have hs3 : s3.faultsOk := ite_faultsOk (shadowBack_faultsOk hs2) hs2
    have hs4 : s4.faultsOk := ite_faultsOk hs3 (advanceCursor_faultsOk hs3)
    exact ite_faultsOk (bistFail_faultsOk hs4) hs4

/-! ### The causeway -/

theorem cwyFail_faultsOk {s : State} {port : Bool} (h : s.faultsOk) : (cwyFail s port).faultsOk :=
  raiseDevice_faultsOk (linkDown_faultsOk (setF_faultsOk (setF_faultsOk (setF_faultsOk (setF_faultsOk h)))))
theorem setCwyDir_faultsOk {s : State} {toComp : Bool} {d : CwyDir} (h : s.faultsOk) : (setCwyDir s toComp d).faultsOk :=
  ite_faultsOk (faultsOk_mk h) (faultsOk_mk h)
theorem setCwyDirs_faultsOk {s : State} {toComp : Bool} {x : CwyDir × CwyDir} (h : s.faultsOk) : (setCwyDirs s toComp x).faultsOk :=
  setCwyDir_faultsOk (setCwyDir_faultsOk h)
theorem dataFlit_faultsOk {toComp : Bool} {idle : Nat} {queued : List Nat} {sent got : Flit} {s : State} (h : s.faultsOk) : (dataFlit toComp idle
    queued sent got s).faultsOk :=
  ite_faultsOk (setCwyDirs_faultsOk h) h

theorem causewayNak_faultsOk {toComp : Bool} {good : Nat} {s : State} (h : s.faultsOk) : (causewayNak toComp good s).faultsOk := by
  unfold causewayNak
  dsimp only
  split
  · exact h
  · exact ite_faultsOk h (ite_faultsOk (cwyFail_faultsOk h) (ite_faultsOk (setCwyDir_faultsOk h) (raise_faultsOk (h := bump_faultsOk
      (setCwyDirs_faultsOk h)) ..)))

theorem causewayAck_faultsOk {toComp : Bool} {s : State} (h : s.faultsOk) : (causewayAck toComp s).faultsOk := ite_faultsOk (setCwyDir_faultsOk h) h
theorem ackTimeout_faultsOk {toComp : Bool} {s : State} (h : s.faultsOk) : (ackTimeout toComp s).faultsOk := ite_faultsOk (cwyFail_faultsOk h) h
theorem training_faultsOk {s : State} (h : s.faultsOk) : (training s).faultsOk := ite_faultsOk (setF_faultsOk (setF_faultsOk (faultsOk_mk h))) h
theorem trainingTimeout_faultsOk {s : State} (h : s.faultsOk) : (trainingTimeout s).faultsOk := ite_faultsOk (faultsOk_mk (cwyFail_faultsOk h)) h
theorem timeSync_faultsOk {copy22 copy23 : Bool} {s : State} (h : s.faultsOk) : (timeSync copy22 copy23 s).faultsOk :=
  ite_faultsOk (faultsOk_mk h) h

theorem tickAnnouncement_faultsOk {copy22 copy23 : Bool} {s : State} (h : s.faultsOk) : (tickAnnouncement copy22 copy23 s).faultsOk := by
  unfold tickAnnouncement
  split
  · exact h
  · exact ite_faultsOk (faultsOk_mk h) h

theorem tickEdgeMessage_faultsOk {copy22 copy23 : Bool} {s : State} (h : s.faultsOk) : (tickEdgeMessage copy22 copy23 s).faultsOk := by
  unfold tickEdgeMessage
  refine ite_faultsOk (faultsOk_mk h) ?_
  split
  · exact faultsOk_mk h
  · exact h

theorem faultNotification_faultsOk {copy22 copy23 : Bool} {s : State} (h : s.faultsOk) : (faultNotification copy22 copy23 s).faultsOk := by
  unfold faultNotification
  split
  · exact h
  · exact ite_faultsOk (fltEnqueue_faultsOk (faultsOk_mk (fltOk_mk h))) h

theorem signalAck_faultsOk {ofFault copy22 copy23 : Bool} {s : State} (h : s.faultsOk) : (signalAck ofFault copy22 copy23 s).faultsOk :=
  ite_faultsOk h (ite_faultsOk (faultsOk_mk (fltOk_mk ⟨h.1, (List.length_filter_le _ _).trans h.2⟩)) (faultsOk_mk h))
theorem signalRepeat_faultsOk {ofFault : Bool} {s : State} (h : s.faultsOk) : (signalRepeat ofFault s).faultsOk :=
  ite_faultsOk h (ite_faultsOk (bump_faultsOk h) h)
theorem announceDeadline_faultsOk {t : Nat} {s : State} (h : s.faultsOk) : (announceDeadline t s).faultsOk :=
  ite_faultsOk (cwyFail_faultsOk (atPort_faultsOk h)) (atPort_faultsOk h)

/-! ### Plans -/

theorem addPlan_faultsOk {s : State} {b : Bytes} (h : s.faultsOk) : FstOk (addPlan s b) := by
  unfold addPlan
  dsimp only
  split
  · exact h
  · exact ite_fst_faultsOk (faultsOk_mk h) h

theorem activatePlan_faultsOk {s : State} {id n : Nat} (h : s.faultsOk) : FstOk (activatePlan s id n) := ite_fst_faultsOk h (faultsOk_mk h)
theorem removePlan_faultsOk {s : State} {id : Nat} (h : s.faultsOk) : FstOk (removePlan s id) := ite_fst_faultsOk h (faultsOk_mk h)

/-! ### The tick unit -/

theorem markStarted_faultsOk {s : State} {idx : Nat} (h : s.faultsOk) : (markStarted s idx).faultsOk := faultsOk_mk h
theorem billetBegin_faultsOk {s : State} {a : Armed} (h : s.faultsOk) : (billetBegin s a).faultsOk :=
  ite_faultsOk (faultsOk_mk (setF_faultsOk (setF_faultsOk h))) (ite_faultsOk (shadowFill_faultsOk h) (ite_faultsOk (faultsOk_mk h) h))

theorem ispBegin_faultsOk {s : State} {a : Armed} (h : s.faultsOk) : (ispBegin s a).faultsOk := by
  unfold ispBegin
  split
  · exact takeFrame_faultsOk h
  · exact h

theorem beginItem_faultsOk {s : State} {a : Armed} {at_ : Nat} (h : s.faultsOk) : (beginItem s a at_).faultsOk := by
  unfold beginItem
  refine ite_faultsOk (cancelItem_faultsOk h) ?_
  extract_lets s1
  have hs1 : s1.faultsOk := markStarted_faultsOk h
  split
  · exact ite_faultsOk (startEngine_faultsOk hs1) (cancelItem_faultsOk (startEngine_faultsOk hs1))
  · split
    · exact ispBegin_faultsOk hs1
    · exact billetBegin_faultsOk hs1
    · exact quietWindow_faultsOk hs1
    · exact hs1

theorem tryStart_faultsOk {s : State} {idx at_ : Nat} (h : s.faultsOk) : (tryStart s idx at_).faultsOk := by
  unfold tryStart
  split
  · exact ite_faultsOk (beginItem_faultsOk h) h
  · exact h

theorem offsetStart_faultsOk {idx t : Nat} {s : State} (h : s.faultsOk) : (offsetStart idx t s).faultsOk := by
  unfold offsetStart
  dsimp only
  split
  · exact ite_faultsOk (atComp_faultsOk h) (tryStart_faultsOk (atComp_faultsOk h))
  · exact atComp_faultsOk h

theorem startDamaged_faultsOk {idx t : Nat} {s : State} (h : s.faultsOk) : (startDamaged idx t s).faultsOk := by
  unfold startDamaged
  dsimp only
  split
  · exact ite_faultsOk (cancelItem_faultsOk (raise_faultsOk (h := atComp_faultsOk h) ..)) (atComp_faultsOk h)
  · exact atComp_faultsOk h

theorem chainedStart_faultsOk {idx t : Nat} {s : State} (h : s.faultsOk) : (chainedStart idx t s).faultsOk := by
  unfold chainedStart
  dsimp only
  split
  · exact ite_faultsOk (tryStart_faultsOk (atComp_faultsOk h)) (atComp_faultsOk h)
  · exact atComp_faultsOk h

theorem missItem_faultsOk {s : State} {a : Armed} (h : s.faultsOk) : (missItem s a).faultsOk :=
  runFifos_faultsOk (cancelDeps_faultsOk (ite_faultsOk (faultsOk_mk (setF_faultsOk (raise_faultsOk (h := h) ..))) (disarm_faultsOk
    (logOutcome_faultsOk (stopItem_faultsOk (setF_faultsOk (raise_faultsOk (h := h) ..)))))))

theorem deadlineMiss_faultsOk {idx t : Nat} {s : State} (h : s.faultsOk) : (deadlineMiss idx t s).faultsOk := by
  unfold deadlineMiss
  dsimp only
  split
  · exact ite_faultsOk (missItem_faultsOk (atComp_faultsOk h)) (atComp_faultsOk h)
  · exact atComp_faultsOk h

theorem stopRunOn_faultsOk {s : State} {a : Armed} (h : s.faultsOk) : (stopRunOn s a).faultsOk :=
  runFifos_faultsOk (disarm_faultsOk (logOutcome_faultsOk (stopItem_faultsOk h)))

theorem runonLimit_faultsOk {idx t : Nat} {s : State} (h : s.faultsOk) : (runonLimit idx t s).faultsOk := by
  unfold runonLimit
  dsimp only
  split
  · exact ite_faultsOk (stopRunOn_faultsOk (atComp_faultsOk h)) (atComp_faultsOk h)
  · exact atComp_faultsOk h

theorem noteSlack_faultsOk {s : State} {slack : Int} (h : s.faultsOk) : (noteSlack s slack).faultsOk := faultsOk_mk h
theorem endItem_faultsOk {s : State} {a : Armed} (h : s.faultsOk) : (endItem s a).faultsOk :=
  ite_faultsOk (disarm_faultsOk (logOutcome_faultsOk (faultsOk_mk (ite_faultsOk (retrainEnd_faultsOk h) h)))) (disarm_faultsOk (noteSlack_faultsOk
    (faultsOk_mk (ite_faultsOk (retrainEnd_faultsOk h) h))))

theorem itemEnd_faultsOk {idx t : Nat} {s : State} (h : s.faultsOk) : (itemEnd idx t s).faultsOk := by
  unfold itemEnd
  dsimp only
  split
  · exact atComp_faultsOk h
  · refine ite_faultsOk (atComp_faultsOk h) ?_
    split
    · exact endItem_faultsOk (ite_faultsOk (missItem_faultsOk (atComp_faultsOk h)) (atComp_faultsOk h))
    · exact ite_faultsOk (missItem_faultsOk (atComp_faultsOk h)) (atComp_faultsOk h)

theorem sweep_faultsOk {s : State} (h : s.faultsOk) : (sweep s).faultsOk := by
  unfold sweep
  refine foldl_faultsOk (fun _ _ hu => ?_) ?_
  · split
    · exact ite_faultsOk (stopRunOn_faultsOk hu) hu
    · exact hu
  · refine foldl_faultsOk (fun _ _ hu => ?_) h
    split
    · exact ite_faultsOk (endItem_faultsOk hu) (ite_faultsOk (missItem_faultsOk hu) hu)
    · exact hu

theorem swapShadows_faultsOk {s : State} (h : s.faultsOk) : (swapShadows s).faultsOk := faultsOk_mk h
theorem freshShares_faultsOk {s : State} (h : s.faultsOk) : (freshShares s).faultsOk := faultsOk_mk (chargeStep_faultsOk h)
theorem liftBlocks_faultsOk {s : State} (h : s.faultsOk) : (liftBlocks s).faultsOk := setF_faultsOk (faultsOk_mk (fltOk_mk h))
theorem rollLog_faultsOk {s : State} {n edge : Nat} (h : s.faultsOk) : (rollLog s n edge).faultsOk := faultsOk_mk h
theorem preemptAuto_faultsOk {s : State} {mask : Nat} (h : s.faultsOk) : (preemptAuto s mask).faultsOk :=
  foldl_faultsOk (fun _ _ hu => settleCtx_faultsOk (stopFrame_faultsOk hu)) h
theorem unbindCodec_faultsOk {s : State} (h : s.faultsOk) : (unbindCodec s).faultsOk := faultsOk_mk h

theorem enterPlan_faultsOk {s : State} {n : Nat} (h : s.faultsOk) : (enterPlan s n).faultsOk := by
  unfold enterPlan
  split
  · exact setF_faultsOk (setF_faultsOk (setF_faultsOk h))
  · exact faultsOk_mk (unbindCodec_faultsOk (preemptAuto_faultsOk (setF_faultsOk (setF_faultsOk (setF_faultsOk h)))))

theorem startAtEdge_faultsOk {s : State} (h : s.faultsOk) : (startAtEdge s).faultsOk := foldl_faultsOk (fun _ _ hu => tryStart_faultsOk hu) h

theorem edgeActs_faultsOk {s : State} {n edge : Nat} (h : s.faultsOk) : (edgeActs s n edge).faultsOk := by
  unfold edgeActs
  extract_lets s1 s2 _ s3 s4 _ _ s5 s6 _ _ s7
  have hs1 : s1.faultsOk := sweep_faultsOk h
  have hs2 : s2.faultsOk := rollLog_faultsOk hs1
  have hs3 : s3.faultsOk := faultsOk_mk hs2
  have hs4 : s4.faultsOk := takeCeiling_faultsOk (takeActivations_faultsOk hs3)
  have hs5 : s5.faultsOk := faultsOk_mk hs4
  have hs6 : s6.faultsOk := liftBlocks_faultsOk (rebindPair_faultsOk (freshShares_faultsOk (swapShadows_faultsOk hs5)))
  have hs7 : s7.faultsOk := faultsOk_mk hs6
  exact interrupt_faultsOk (startAtEdge_faultsOk (enterPlan_faultsOk hs7))

theorem tickEdge_faultsOk {t : Nat} {s : State} (h : s.faultsOk) : (tickEdge t s).faultsOk := by
  unfold tickEdge
  dsimp only
  split
  · exact atComp_faultsOk h
  · exact ite_faultsOk (edgeActs_faultsOk (atComp_faultsOk h)) (atComp_faultsOk h)

theorem ringRecord_faultsOk {l : TickLog} {s : State} {g : Nat} (h : s.faultsOk) : (ringRecord l s g).faultsOk := by
  unfold ringRecord
  split
  · exact postEvent_faultsOk (faultsOk_mk h)
  · exact h

theorem setMep_faultsOk {s : State} {m : Mep} (h : s.faultsOk) : (setMep s m).faultsOk := faultsOk_mk h
theorem shareRecord_faultsOk {s : State} {l : TickLog} (h : s.faultsOk) : (shareRecord s l).faultsOk :=
  ite_faultsOk (setMep_faultsOk (faultsOk_mk h)) (ite_faultsOk (setMep_faultsOk h) (ite_faultsOk (setMep_faultsOk h) h))

theorem writeRecord_faultsOk {s : State} {l : TickLog} (h : s.faultsOk) : (writeRecord s l).faultsOk := by
  unfold writeRecord
  exact shareRecord_faultsOk (foldl_faultsOk (fun _ _ hu => ringRecord_faultsOk hu) (faultsOk_mk (foldl_faultsOk (fun _ _ hu =>
    clearCommit_faultsOk hu) h)))

theorem milestoneRecord_faultsOk {t : Nat} {s : State} (h : s.faultsOk) : (milestoneRecord t s).faultsOk := by
  unfold milestoneRecord
  extract_lets s1 _ s2 s3 _ _ s4
  have hs1 : s1.faultsOk := atComp_faultsOk h
  have hs2 : s2.faultsOk := faultsOk_mk hs1
  have hs3 : s3.faultsOk := rollLog_faultsOk (sweep_faultsOk hs1)
  have hs4 : s4.faultsOk := faultsOk_mk hs3
  split
  · exact ite_faultsOk hs1 (ite_faultsOk hs2 (writeRecord_faultsOk hs2))
  · exact ite_faultsOk (ite_faultsOk hs4 (writeRecord_faultsOk hs4)) hs1

theorem tickOn_faultsOk {s : State} (h : s.faultsOk) : (tickOn s).faultsOk := by
  unfold tickOn
  extract_lets _ _ _ s1 _ _ s2
  have hs1 : s1.faultsOk := faultsOk_mk h
  have hs2 : s2.faultsOk := setF_faultsOk (setF_faultsOk (setF_faultsOk (setF_faultsOk hs1)))
  exact ite_faultsOk (setMep_faultsOk (setF_faultsOk hs1)) (ite_faultsOk (ite_faultsOk (setMep_faultsOk (setF_faultsOk (setF_faultsOk hs1))) hs1)
    (setMep_faultsOk hs2))

theorem tickCtlWrite_faultsOk {m : Master} {v : Nat} {s : State} (h : s.faultsOk) : (tickCtlWrite m v s).faultsOk := by
  unfold tickCtlWrite
  refine gated_faultsOk h ?_
  intro _ hu
  extract_lets _ _ _ _ s1 s2 s3 s4
  have hs1 : s1.faultsOk := ite_faultsOk (cfgIgnored_faultsOk hu) hu
  have hs2 : s2.faultsOk := ite_faultsOk hs1 (wrField_faultsOk hs1)
  have hs3 : s3.faultsOk := wrField_faultsOk (wrField_faultsOk hs2)
  have hs4 : s4.faultsOk := setF_faultsOk hs3
  exact ite_faultsOk (tickOn_faultsOk hs4) hs4

theorem tickLoRead_faultsOk {s : State} (h : s.faultsOk) : FstOk (tickLoRead s) := setF_faultsOk h
theorem utilLoRead_faultsOk {k : Nat} {s : State} (h : s.faultsOk) : FstOk (utilLoRead k s) := setF_faultsOk h

/-! ### The network switch -/

theorem netRaise_faultsOk {s : State} {code : Nat} {part : Option Nat} (h : s.faultsOk) : (netRaise s code part).faultsOk :=
  raise_faultsOk (h := h) ..
theorem setNet_faultsOk {s : State} {n : Net} (h : s.faultsOk) : (setNet s n).faultsOk := faultsOk_mk h
theorem portDrop_faultsOk {s : State} {p : Nat} (h : s.faultsOk) : (portDrop s p).faultsOk := setNet_faultsOk h
theorem fdbLearn_faultsOk {s : State} {port vid : Nat} {d : Bytes} (h : s.faultsOk) : (fdbLearn s port vid d).faultsOk :=
  ite_faultsOk (setNet_faultsOk h) (setNet_faultsOk h)
theorem enqueue_faultsOk {cls : Nat} {f : Bytes} {q : State × List Nat} {p : Nat} (h : FstOk q) : FstOk (enqueue cls f q p) :=
  ite_fst_faultsOk (portDrop_faultsOk h) (setNet_faultsOk h)
theorem enqueueAll_faultsOk {s : State} {cls : Nat} {f : Bytes} {outs : List Nat} (h : s.faultsOk) : FstOk (enqueueAll s cls f outs) :=
  foldl_fst_faultsOk (fun _ _ hu => enqueue_faultsOk hu) h
theorem serveClass_faultsOk {p : Nat} {s : State} {c : Nat} (h : s.faultsOk) : (serveClass p s c).faultsOk := ite_faultsOk (setNet_faultsOk h) h
theorem servePort_faultsOk {s : State} {p : Nat} (h : s.faultsOk) : (servePort s p).faultsOk :=
  ite_faultsOk (foldl_faultsOk (fun _ _ hu => serveClass_faultsOk hu) h) h
theorem netServe_faultsOk {s : State} (h : s.faultsOk) : (netServe s).faultsOk :=
  foldl_faultsOk (fun _ _ hu => servePort_faultsOk hu) (setNet_faultsOk h)
theorem flushPort_faultsOk {s : State} {p : Nat} (h : s.faultsOk) : (flushPort s p).faultsOk := setNet_faultsOk h
theorem qciDrop_faultsOk {s : State} {x : Qci} (h : s.faultsOk) : (qciDrop s x).faultsOk := setNet_faultsOk h

/-! ### The network and its domains -/

theorem linkChange_faultsOk {p : Nat} {up : Bool} {s : State} (h : s.faultsOk) : (linkChange p up s).faultsOk :=
  ite_faultsOk h (ite_faultsOk (setF_faultsOk h) (netRaise_faultsOk (flushPort_faultsOk (setF_faultsOk h))))
theorem setSes_faultsOk {s : State} {k : Nat} {x : NetSess} (h : s.faultsOk) : (setSes s k x).faultsOk := setNet_faultsOk h

theorem netWrite_faultsOk {s : State} {m : Master} {k a : Nat} {b : Bytes} (h : s.faultsOk) : (netWrite s m k a b).faultsOk := by
  induction k generalizing s a b with
  | zero => exact h
  | succ k ih => exact ite_faultsOk h (ih (busWrite_faultsOk h))

theorem netRead_faultsOk {s : State} {m : Master} {k a n : Nat} (h : s.faultsOk) : FstOk (netRead s m k a n) := by
  induction k generalizing s a n with
  | zero => exact h
  | succ k ih => exact ite_fst_faultsOk h (ite_fst_faultsOk (ih (busRead_faultsOk h)) (busRead_faultsOk h))

theorem stagePacket_faultsOk {s : State} {part : Nat} {d : Bytes} (h : s.faultsOk) : (stagePacket s part d).faultsOk :=
  setNet_faultsOk (memPut_faultsOk (ite_faultsOk h (clearRows_faultsOk h)))
theorem rxStore_faultsOk {s : State} {k port slot : Nat} {d : Bytes} {rx : Nat} (h : s.faultsOk) : (rxStore s k port slot d rx).faultsOk :=
  postData_faultsOk (netWrite_faultsOk h)
theorem runStaged_faultsOk {s : State} (h : s.faultsOk) : (runStaged s).faultsOk :=
  foldl_faultsOk (fun _ _ hu => ite_faultsOk (setNet_faultsOk hu) (rxStore_faultsOk hu)) (setNet_faultsOk h)
theorem rxTake_faultsOk {s : State} {k port : Nat} {d : Bytes} {rx : Nat} (h : s.faultsOk) : (rxTake s k port d rx).faultsOk :=
  ite_faultsOk (setNet_faultsOk (setSes_faultsOk (stagePacket_faultsOk h))) (rxStore_faultsOk (setSes_faultsOk (stagePacket_faultsOk h)))
theorem sesDrop_faultsOk {s : State} {k : Nat} (h : s.faultsOk) : (sesDrop s k).faultsOk :=
  ite_faultsOk (netRaise_faultsOk (setSes_faultsOk h)) (setSes_faultsOk h)

theorem admitHeld_faultsOk {k n : Nat} {s : State} (h : s.faultsOk) : (admitHeld k n s).faultsOk := by
  induction n generalizing s with
  | zero => exact h
  | succ n ih =>
    unfold admitHeld
    split
    · exact ite_faultsOk (ih (rxTake_faultsOk (setNet_faultsOk h))) h
    · exact h

theorem resumeNet_faultsOk {s : State} (h : s.faultsOk) : (resumeNet s).faultsOk :=
  foldl_faultsOk (fun _ _ hu => admitHeld_faultsOk hu) (runStaged_faultsOk h)
theorem rxPolicy_faultsOk {s : State} {k port : Nat} {d : Bytes} {rx : Nat} (h : s.faultsOk) : (rxPolicy s k port d rx).faultsOk :=
  ite_faultsOk (rxTake_faultsOk h) (ite_faultsOk (setNet_faultsOk h) (sesDrop_faultsOk h))

theorem sessionTake_faultsOk {s : State} {port vid : Nat} {d : Bytes} {t : Nat} (h : s.faultsOk) : (sessionTake s port vid d t).faultsOk := by
  unfold sessionTake
  split
  · exact bump_faultsOk h
  · dsimp only
    split
    · exact qOverflow_faultsOk h
    · exact ite_faultsOk h (rxPolicy_faultsOk h)

theorem switchFrame_faultsOk {s : State} {port vid pcp : Nat} {d : Bytes} {t : Nat} (h : s.faultsOk) : (switchFrame s port vid pcp d t).faultsOk :=
  netServe_faultsOk (ite_faultsOk (sessionTake_faultsOk (resumeNet_faultsOk (enqueueAll_faultsOk (fdbLearn_faultsOk h)))) (enqueueAll_faultsOk
    (fdbLearn_faultsOk h)))

theorem frameReceive_faultsOk {port vid pcp : Nat} {d : Bytes} {qci : Option Qci} {t : Nat} {s : State} (h : s.faultsOk) : (frameReceive port vid
    pcp d qci t s).faultsOk := by
  unfold frameReceive
  refine ite_faultsOk (atPort_faultsOk h) ?_
  refine ite_faultsOk (atPort_faultsOk h) ?_
  refine ite_faultsOk (portDrop_faultsOk (atPort_faultsOk h)) ?_
  split
  · exact qciDrop_faultsOk (atPort_faultsOk h)
  · exact switchFrame_faultsOk (atPort_faultsOk h)

theorem holdExpiry_faultsOk {t : Nat} {s : State} (h : s.faultsOk) : (holdExpiry t s).faultsOk :=
  foldl_faultsOk (fun _ _ hu => sesDrop_faultsOk hu) (setNet_faultsOk (atPort_faultsOk h))
theorem rxrelWrite_faultsOk {m : Master} {v : Nat} {s : State} (h : s.faultsOk) : (rxrelWrite m v s).faultsOk :=
  gated_faultsOk h (fun _ hu => admitHeld_faultsOk (setSes_faultsOk hu))

theorem txSwitch_faultsOk {s : State} {r d : Bytes} {qci : Option Qci} (h : s.faultsOk) : (txSwitch s r d qci).faultsOk := by
  unfold txSwitch
  split
  · exact setNet_faultsOk (qciDrop_faultsOk h)
  · exact netServe_faultsOk (setNet_faultsOk (enqueueAll_faultsOk (fdbLearn_faultsOk h)))

theorem txFrameOut_faultsOk {s : State} {q : Nat} {e : Bytes} {qci : Option Qci} (h : s.faultsOk) : (txFrameOut s q e qci).faultsOk := by
  unfold txFrameOut
  refine ite_faultsOk h ?_
  split
  · exact qOverflow_faultsOk h
  · dsimp only
    split
    · exact netRead_faultsOk h
    · exact ite_faultsOk (txSwitch_faultsOk (netRead_faultsOk h)) (postData_faultsOk (drawn_faultsOk (txSwitch_faultsOk (netRead_faultsOk h))))

theorem txEntry_faultsOk {q : Nat} {qci : Option Qci} {t : Nat} {s : State} (h : s.faultsOk) : (txEntry q qci t s).faultsOk := by
  unfold txEntry
  refine ite_faultsOk (atPort_faultsOk h) ?_
  split
  · exact atPort_faultsOk h
  · exact ite_faultsOk (popQ_faultsOk (atPort_faultsOk h)) (ite_faultsOk (atPort_faultsOk h) (txFrameOut_faultsOk (popQ_faultsOk (atPort_faultsOk
      h))))

theorem setBlk_faultsOk {s : State} {k : Nat} {b : Option GvspBlk} (h : s.faultsOk) : (setBlk s k b).faultsOk := setNet_faultsOk h

theorem gvspTake_faultsOk {s : State} {k : Nat} {f : State → State} (h : s.faultsOk) (hf : ∀ u0, u0.faultsOk → (f u0).faultsOk) : (gvspTake s k
    f).faultsOk := by
  unfold gvspTake
  refine ite_faultsOk h ?_
  split
  · exact qOverflow_faultsOk h
  · exact hf _ h

theorem srcDesc_faultsOk {s : State} {c : Nat} {m : Master} (h : s.faultsOk) : FstOk (srcDesc s c m) := netRead_faultsOk h
theorem gvspEnd_faultsOk {s : State} {k : Nat} {b : GvspBlk} (h : s.faultsOk) : (gvspEnd s k b).faultsOk :=
  ite_faultsOk (raise_faultsOk (h := setBlk_faultsOk (netWrite_faultsOk (srcDesc_faultsOk h))) ..) (frameArrive_faultsOk (setBlk_faultsOk
    (netWrite_faultsOk (srcDesc_faultsOk h))))

theorem gvspLeader_faultsOk {k block w h1 depth t : Nat} {s : State} (h : s.faultsOk) : (gvspLeader k block w h1 depth t s).faultsOk := by
  unfold gvspLeader
  refine gvspTake_faultsOk (atPort_faultsOk h) ?_
  intro _ hu
  dsimp only
  split
  · refine raise_faultsOk (h := ?_) ..
    refine setBlk_faultsOk ?_
    refine setI_faultsOk ?_
    refine srcDesc_faultsOk ?_
    split
    · exact gvspEnd_faultsOk hu
    · exact hu
  · refine setBlk_faultsOk ?_
    refine setI_faultsOk ?_
    refine srcDesc_faultsOk ?_
    split
    · exact gvspEnd_faultsOk hu
    · exact hu

theorem gvspPayload_faultsOk {k block pkt : Nat} {d : Bytes} {s : State} (h : s.faultsOk) : (gvspPayload k block pkt d s).faultsOk := by
  unfold gvspPayload
  refine gvspTake_faultsOk h ?_
  intro _ hu
  split
  · exact hu
  · exact ite_faultsOk hu (ite_faultsOk hu (ite_faultsOk (setBlk_faultsOk hu) (ite_faultsOk hu (setBlk_faultsOk (tensWrite_faultsOk
      (srcDesc_faultsOk (stagePacket_faultsOk hu)))))))

theorem gvspTrailer_faultsOk {k block pkt t : Nat} {s : State} (h : s.faultsOk) : (gvspTrailer k block pkt t s).faultsOk := by
  unfold gvspTrailer
  refine gvspTake_faultsOk (atPort_faultsOk h) ?_
  intro _ hu
  split
  · exact hu
  · exact ite_faultsOk hu (gvspEnd_faultsOk hu)

theorem gptpSync_faultsOk {offset : Int} {t : Nat} {s : State} (h : s.faultsOk) : (gptpSync offset t s).faultsOk :=
  ite_faultsOk (atPort_faultsOk h) (setNet_faultsOk (faultsOk_mk (atPort_faultsOk h)))
theorem syncTimeout_faultsOk {s : State} (h : s.faultsOk) : (syncTimeout s).faultsOk := ite_faultsOk (netRaise_faultsOk (setNet_faultsOk h)) h

theorem gclStart_faultsOk {port : Nat} {own : Bytes} {s : State} (h : s.faultsOk) : (gclStart port own s).faultsOk := by
  unfold gclStart
  refine ite_faultsOk h ?_
  refine ite_faultsOk ?_ (netServe_faultsOk (setNet_faultsOk h))
  split
  · exact netServe_faultsOk (setNet_faultsOk h)
  · exact h

theorem tickTriggers_faultsOk {s : State} {edge n : Nat} (h : s.faultsOk) : (tickTriggers s edge n).faultsOk := faultsOk_mk h

theorem announceSend_faultsOk {t first : Nat} {s : State} (h : s.faultsOk) : (announceSend t first s).faultsOk := by
  unfold announceSend
  refine ite_faultsOk (atPort_faultsOk h) ?_
  split
  · exact atPort_faultsOk h
  · exact ite_faultsOk (atPort_faultsOk h) (tickTriggers_faultsOk (faultsOk_mk (atPort_faultsOk h)))

theorem mepSend_faultsOk {s : State} {type tick : Nat} {body : Bytes} (h : s.faultsOk) : (mepSend s type tick body).faultsOk := setMep_faultsOk h
theorem helloTimer_faultsOk {t : Nat} {s : State} (h : s.faultsOk) : (helloTimer t s).faultsOk :=
  ite_faultsOk (setMep_faultsOk (atPort_faultsOk h)) (atPort_faultsOk h)
theorem countMembers_faultsOk {s : State} (h : s.faultsOk) : (countMembers s).faultsOk := setF_faultsOk h

theorem masterHello_faultsOk {s : State} {b : Bytes} (h : s.faultsOk) : (masterHello s b).faultsOk := by
  unfold masterHello
  dsimp only
  split
  · exact ite_faultsOk (setMep_faultsOk h) (mepSend_faultsOk (setMep_faultsOk h))
  · refine ite_faultsOk h ?_
    refine ite_faultsOk (mepSend_faultsOk h) ?_
    split
    · exact ite_faultsOk (mepSend_faultsOk h) (mepSend_faultsOk (countMembers_faultsOk (setMep_faultsOk h)))
    · exact mepSend_faultsOk h

theorem mepHello_faultsOk {b : Bytes} {fcs : Bool} {t : Nat} {s : State} (h : s.faultsOk) : (mepHello b fcs t s).faultsOk :=
  ite_faultsOk (atPort_faultsOk h) (ite_faultsOk (masterHello_faultsOk (setMep_faultsOk (atPort_faultsOk h))) (setMep_faultsOk (atPort_faultsOk h)))
theorem mepAdmit_faultsOk {b : Bytes} {fcs : Bool} {s : State} (h : s.faultsOk) : (mepAdmit b fcs s).faultsOk :=
  ite_faultsOk h (ite_faultsOk (setF_faultsOk (setF_faultsOk (setF_faultsOk (setF_faultsOk h)))) (ite_faultsOk (setF_faultsOk h) h))
theorem mepRefuse_faultsOk {b : Bytes} {fcs : Bool} {s : State} (h : s.faultsOk) : (mepRefuse b fcs s).faultsOk :=
  ite_faultsOk (netRaise_faultsOk (setF_faultsOk (setF_faultsOk h))) h
theorem takeSchedule_faultsOk {s : State} {b : Bytes} (h : s.faultsOk) : (takeSchedule s b).faultsOk :=
  ite_faultsOk (setF_faultsOk h) (ite_faultsOk (netRaise_faultsOk (setF_faultsOk (faultsOk_mk (setMep_faultsOk h)))) (setF_faultsOk (faultsOk_mk
    (setMep_faultsOk h))))
theorem mepSchedule_faultsOk {b : Bytes} {fcs : Bool} {s : State} (h : s.faultsOk) : (mepSchedule b fcs s).faultsOk :=
  ite_faultsOk h (ite_faultsOk (ite_faultsOk (setMep_faultsOk h) h) (ite_faultsOk (takeSchedule_faultsOk h) h))

theorem mepReport_faultsOk {b : Bytes} {fcs : Bool} {s : State} (h : s.faultsOk) : (mepReport b fcs s).faultsOk := by
  unfold mepReport
  refine ite_faultsOk h ?_
  split
  · exact setMep_faultsOk h
  · exact h

theorem sendSchedule_faultsOk {s : State} {k ceil streak : Nat} (h : s.faultsOk) : (sendSchedule s k ceil streak).faultsOk :=
  ite_faultsOk (netRaise_faultsOk (setF_faultsOk (setF_faultsOk (faultsOk_mk (setMep_faultsOk h))))) (faultsOk_mk (setMep_faultsOk h))
theorem collectDeadline_faultsOk {t : Nat} {s : State} (h : s.faultsOk) : (collectDeadline t s).faultsOk :=
  ite_faultsOk (atPort_faultsOk h) (ite_faultsOk (sendSchedule_faultsOk (atPort_faultsOk h)) (sendSchedule_faultsOk (foldl_faultsOk (fun _ _ hu =>
    netRaise_faultsOk hu) (countMembers_faultsOk (setMep_faultsOk (atPort_faultsOk h))))))
theorem scheduleMissing_faultsOk {t : Nat} {s : State} (h : s.faultsOk) : (scheduleMissing t s).faultsOk :=
  ite_faultsOk (atPort_faultsOk h) (netRaise_faultsOk (setF_faultsOk (faultsOk_mk (setMep_faultsOk (atPort_faultsOk h)))))
theorem masterTakeover_faultsOk {t : Nat} {s : State} (h : s.faultsOk) : (masterTakeover t s).faultsOk :=
  ite_faultsOk (netRaise_faultsOk (countMembers_faultsOk (setF_faultsOk (setMep_faultsOk (atPort_faultsOk h))))) (atPort_faultsOk h)
theorem setBar_faultsOk {s : State} {i : Nat} {x : Option Barrier} (h : s.faultsOk) : (setBar s i x).faultsOk := setNet_faultsOk h
theorem barPost_faultsOk {s : State} {x : Barrier} {late : Bool} (h : s.faultsOk) : (barPost s x late).faultsOk := postData_faultsOk h

theorem barCheck_faultsOk {s : State} {i : Nat} (h : s.faultsOk) : (barCheck s i).faultsOk := by
  unfold barCheck
  split
  · exact ite_faultsOk (barPost_faultsOk (setBar_faultsOk h)) h
  · exact h

theorem barArrive_faultsOk {s : State} {i who step : Nat} (h : s.faultsOk) : (barArrive s i who step).faultsOk := by
  unfold barArrive
  split
  · exact barCheck_faultsOk (setBar_faultsOk h)
  · exact h

theorem mepArrive_faultsOk {b : Bytes} {fcs : Bool} {s : State} (h : s.faultsOk) : (mepArrive b fcs s).faultsOk := by
  unfold mepArrive
  refine ite_faultsOk ?_ h
  split
  · exact barArrive_faultsOk h
  · exact h

theorem barrecWrite_faultsOk {m : Master} {v : Nat} {s : State} (h : s.faultsOk) : (barrecWrite m v s).faultsOk :=
  gated_faultsOk h (fun _ hu => ite_faultsOk (setBar_faultsOk hu) (ite_faultsOk (cfgIgnored_faultsOk hu) (setBar_faultsOk hu)))

theorem barrierWrite_faultsOk {m : Master} {v : Nat} {s : State} (h : s.faultsOk) : (barrierWrite m v s).faultsOk := by
  unfold barrierWrite
  refine gated_faultsOk h ?_
  intro _ hu
  split
  · exact cfgIgnored_faultsOk hu
  · exact barArrive_faultsOk (setBar_faultsOk (mepSend_faultsOk hu))

theorem barrierTimeout_faultsOk {i t : Nat} {s : State} (h : s.faultsOk) : (barrierTimeout i t s).faultsOk := by
  unfold barrierTimeout
  dsimp only
  split
  · exact ite_faultsOk (netRaise_faultsOk (barPost_faultsOk (setBar_faultsOk (atPort_faultsOk h)))) (atPort_faultsOk h)
  · exact atPort_faultsOk h

/-! ### Power domains -/

theorem resetRegs_faultsOk {s : State} {a n : Nat} (h : s.faultsOk) : (resetRegs s a n).faultsOk := faultsOk_mk h
theorem loseEngine_faultsOk {s : State} {e : Nat} (h : s.faultsOk) : (loseEngine s e).faultsOk := setE_faultsOk (stopEngine_faultsOk h)
theorem loseCamera_faultsOk {s : State} (h : s.faultsOk) : (loseCamera s).faultsOk := resetRegs_faultsOk (faultsOk_mk h)
theorem loseNetwork_faultsOk {s : State} (h : s.faultsOk) : (loseNetwork s).faultsOk := resetRegs_faultsOk (resetRegs_faultsOk (faultsOk_mk h))

theorem loseDomain_faultsOk {s : State} {d : Nat} (h : s.faultsOk) : (loseDomain s d).faultsOk :=
  ite_faultsOk (loseGroup_faultsOk h) (ite_faultsOk (setF_faultsOk (setF_faultsOk (zeroMem_faultsOk h))) (ite_faultsOk (dropBufs_faultsOk
    (zeroMem_faultsOk h)) (ite_faultsOk (resetRegs_faultsOk (zeroMem_faultsOk (zeroMem_faultsOk (dropBufs_faultsOk (loseEngine_faultsOk h)))))
    (ite_faultsOk (resetRegs_faultsOk (zeroMem_faultsOk (dropBufs_faultsOk (loseEngine_faultsOk h)))) (ite_faultsOk (resetRegs_faultsOk
    (foldl_faultsOk (fun _ _ hu => zeroMem_faultsOk hu) (dropBufs_faultsOk (faultsOk_mk h)))) (ite_faultsOk (loseNetwork_faultsOk h)
    (loseCamera_faultsOk h)))))))

theorem domainDown_faultsOk {s : State} {d : Nat} (h : s.faultsOk) : (domainDown s d).faultsOk :=
  ite_faultsOk (faultsOk_mk (loseDomain_faultsOk h)) h
theorem domainUp_faultsOk {s : State} {d : Nat} (h : s.faultsOk) : (domainUp s d).faultsOk :=
  ite_faultsOk (ite_faultsOk (faultsOk_mk (faultsOk_mk h)) (faultsOk_mk h)) h

/-! ### Boot and update -/

theorem resetComp_faultsOk {s : State} (h : s.faultsOk) : (resetComp s).faultsOk := by
  have hf : (resetComp s).flt.port.queue = s.flt.port.queue := rfl
  exact ⟨Nat.zero_le 32, hf ▸ h.2⟩
theorem resetPort_faultsOk {s : State} (h : s.faultsOk) : (resetPort s).faultsOk := faultsOk_mk (fltOk_mk ⟨h.1, Nat.zero_le 32⟩)
theorem loseDram_faultsOk {s : State} (h : s.faultsOk) : (loseDram s).faultsOk := faultsOk_mk h
theorem compOff_faultsOk {s : State} (h : s.faultsOk) : (compOff s).faultsOk := faultsOk_mk (resetComp_faultsOk h)
theorem allOff_faultsOk {s : State} (h : s.faultsOk) : (allOff s).faultsOk := faultsOk_mk (resetPort_faultsOk (compOff_faultsOk h))
theorem jAppend_faultsOk {s : State} {r : JRec} (h : s.faultsOk) : (jAppend s r).faultsOk := faultsOk_mk h
theorem raiseSvn_faultsOk {s : State} {v : Nat} (h : s.faultsOk) : (raiseSvn s v).faultsOk := faultsOk_mk h

theorem followConfirmed_faultsOk {s : State} (h : s.faultsOk) : (followConfirmed s).faultsOk := by
  unfold followConfirmed
  split
  · split
    · exact ite_faultsOk (raiseSvn_faultsOk h) h
    · exact h
  · exact h

theorem emnRaise_faultsOk {s : State} {code : Nat} (h : s.faultsOk) : (emnRaise s code).faultsOk := raise_faultsOk (h := h) ..
theorem recovery_faultsOk {s : State} (h : s.faultsOk) : (recovery s).faultsOk := faultsOk_mk (fltOk_mk (setF_faultsOk h))
theorem loadImages_faultsOk {s : State} (h : s.faultsOk) : (loadImages s).faultsOk := faultsOk_mk (useBuf_faultsOk (useBuf_faultsOk h))

theorem pickRec_faultsOk {l : List JRec} {s : State} (h : s.faultsOk) : (pickRec l s).faultsOk := by
  induction l generalizing s with
  | nil => exact recovery_faultsOk (raise_faultsOk (h := h) ..)
  | cons r rs ih =>
    unfold pickRec
    refine ite_faultsOk (ih (emnRaise_faultsOk h)) ?_
    extract_lets _ s1
    have hs1 : s1.faultsOk := ite_faultsOk h (jAppend_faultsOk h)
    exact ite_faultsOk (followConfirmed_faultsOk (loadImages_faultsOk (faultsOk_mk (setF_faultsOk (setF_faultsOk (setF_faultsOk (setF_faultsOk
      hs1))))))) (ih (emnRaise_faultsOk hs1))

theorem selectImage_faultsOk {s : State} (h : s.faultsOk) : (selectImage s).faultsOk := pickRec_faultsOk h
theorem coldBoot_faultsOk {straps : Nat} {s : State} (h : s.faultsOk) : (coldBoot straps s).faultsOk :=
  ite_faultsOk (selectImage_faultsOk (setF_faultsOk (faultsOk_mk (fltOk_mk (allOff_faultsOk h))))) (recovery_faultsOk (setF_faultsOk (faultsOk_mk
    (fltOk_mk (allOff_faultsOk h)))))
theorem blowFuses_faultsOk {cols : List Nat} {s : State} (h : s.faultsOk) : (blowFuses cols s).faultsOk :=
  foldl_faultsOk (fun _ _ hu => ite_faultsOk (faultsOk_mk hu) hu) h
theorem powerOn_faultsOk {straps : Nat} {blown : List Nat} {s : State} : (powerOn straps blown s).faultsOk :=
  coldBoot_faultsOk (faultsOk_mk ⟨Nat.zero_le 32, Nat.zero_le 32⟩)
theorem resetN_faultsOk {low : Bool} {straps : Nat} {blown : List Nat} {s : State} (h : s.faultsOk) : (resetN low straps blown s).faultsOk :=
  ite_faultsOk (ite_faultsOk h (faultsOk_mk (fltOk_mk (loseDram_faultsOk (allOff_faultsOk h))))) (ite_faultsOk (coldBoot_faultsOk (faultsOk_mk
    (blowFuses_faultsOk h))) h)
theorem reload_faultsOk {s : State} (h : s.faultsOk) : (reload s).faultsOk :=
  setF_faultsOk (faultsOk_mk (loadImages_faultsOk (resetComp_faultsOk h)))
theorem compRestart_faultsOk {s : State} (h : s.faultsOk) : (compRestart s).faultsOk :=
  ite_faultsOk h (ite_faultsOk (ite_faultsOk (ite_faultsOk (faultsOk_mk (fltOk_mk (reload_faultsOk h))) (coldBoot_faultsOk h)) h) (ite_faultsOk
    (faultsOk_mk (fltOk_mk (reload_faultsOk h))) h))
theorem tickReady_faultsOk {s : State} (h : s.faultsOk) : (tickReady s).faultsOk :=
  ite_faultsOk (faultsOk_mk (fltOk_mk (setF_faultsOk (setF_faultsOk h)))) h
theorem hostTrainingTimeout_faultsOk {s : State} (h : s.faultsOk) : (hostTrainingTimeout s).faultsOk := ite_faultsOk (raiseDevice_faultsOk h) h
theorem updResult_faultsOk {s : State} {r : Nat} (h : s.faultsOk) : (updResult s r).faultsOk :=
  ite_faultsOk (emnRaise_faultsOk (setF_faultsOk h)) (setF_faultsOk h)
theorem updStart_faultsOk {img : SlotImg} {s : State} (h : s.faultsOk) : (updStart img s).faultsOk :=
  ite_faultsOk (updResult_faultsOk h) (ite_faultsOk (updResult_faultsOk h) (faultsOk_mk (setF_faultsOk (setF_faultsOk h))))
theorem updDone_faultsOk {s : State} {r : Nat} (h : s.faultsOk) : (updDone s r).faultsOk :=
  updResult_faultsOk (faultsOk_mk (setF_faultsOk (setF_faultsOk h)))

theorem updateComplete_faultsOk {ok : Bool} {s : State} (h : s.faultsOk) : (updateComplete ok s).faultsOk := by
  unfold updateComplete
  split
  · exact h
  · exact ite_faultsOk (updDone_faultsOk (jAppend_faultsOk (faultsOk_mk h))) (updDone_faultsOk (faultsOk_mk h))

theorem healthy_faultsOk {s : State} (h : s.faultsOk) : (healthy s).faultsOk := faultsOk_mk h

theorem confirm_faultsOk {s : State} (h : s.faultsOk) : (confirm s).faultsOk := by
  unfold confirm
  split
  · refine ite_faultsOk ?_ h
    refine setF_faultsOk ?_
    split
    · exact raiseSvn_faultsOk (ite_faultsOk h (jAppend_faultsOk h))
    · exact ite_faultsOk h (jAppend_faultsOk h)
  · exact h

theorem recChunk_faultsOk {last : Bool} {img : SlotImg} {s : State} (h : s.faultsOk) : (recChunk last img s).faultsOk :=
  ite_faultsOk h (ite_faultsOk (faultsOk_mk h) (ite_faultsOk (updResult_faultsOk (faultsOk_mk h)) (ite_faultsOk (updResult_faultsOk (faultsOk_mk
    h)) (coldBoot_faultsOk (jAppend_faultsOk (updResult_faultsOk (faultsOk_mk h)))))))

theorem updCmdWrite_faultsOk {m : Master} {v : Nat} {img : SlotImg} {last : Bool} {s : State} (h : s.faultsOk) : (updCmdWrite m v img last
    s).faultsOk := by
  unfold updCmdWrite
  refine gated_faultsOk h ?_
  intro _ hu
  dsimp only
  split
  · exact updStart_faultsOk (setF_faultsOk hu)
  · exact healthy_faultsOk (setF_faultsOk hu)
  · exact confirm_faultsOk (setF_faultsOk hu)
  · exact recChunk_faultsOk (setF_faultsOk hu)
  · exact setF_faultsOk hu

/-! ### Power and heat -/

theorem setKiln_faultsOk {s : State} {k : Kiln} (h : s.faultsOk) : (setKiln s k).faultsOk := faultsOk_mk h
theorem kilnRaise_faultsOk {s : State} {code : Nat} (h : s.faultsOk) : (kilnRaise s code).faultsOk := raise_faultsOk (h := h) ..
theorem damperUpdate_faultsOk {p vin : Nat} {rails : List (Nat × Nat)} {cyc : List Nat} {lost sa sh : Nat} {s : State} (h : s.faultsOk) :
    (damperUpdate p vin rails cyc lost sa sh s).faultsOk :=
  setF_faultsOk (setF_faultsOk (setF_faultsOk (setF_faultsOk (setKiln_faultsOk (faultsOk_mk h)))))
theorem hcApply_faultsOk {s : State} {k : Nat} (h : s.faultsOk) : (hcApply s k).faultsOk := setF_faultsOk h
theorem hcDown_faultsOk {s : State} {k : Nat} (h : s.faultsOk) : (hcDown s k).faultsOk := ite_faultsOk (hcApply_faultsOk (setKiln_faultsOk h)) h
theorem hcRaise_faultsOk {s : State} {k : Nat} (h : s.faultsOk) : (hcRaise s k).faultsOk := ite_faultsOk (setKiln_faultsOk h) h

theorem powerWindow_faultsOk {avg : Nat} {stretched : List Nat} {t : Nat} {s : State} (h : s.faultsOk) : (powerWindow avg stretched t s).faultsOk
    := by
  unfold powerWindow
  extract_lets s1 _ _ _ _ _ s2 s3 _ _ s4 s5
  have hs1 : s1.faultsOk := atPort_faultsOk h
  have hs2 : s2.faultsOk := setF_faultsOk hs1
  have hs3 : s3.faultsOk := ite_faultsOk (foldl_faultsOk (fun _ _ hu => hcDown_faultsOk hu) hs2) (ite_faultsOk (foldl_faultsOk (fun _ _ hu =>
    hcRaise_faultsOk hu) hs2) hs2)
  have hs4 : s4.faultsOk := setKiln_faultsOk hs3
  have hs5 : s5.faultsOk := ite_faultsOk (kilnRaise_faultsOk hs4) hs4
  exact foldl_faultsOk (fun _ _ hu => ite_faultsOk (kilnRaise_faultsOk (setKiln_faultsOk hu)) hu) hs5

theorem droopDetect_faultsOk {d : Nat} {s : State} (h : s.faultsOk) : (droopDetect d s).faultsOk :=
  ite_faultsOk h (bump_faultsOk (setKiln_faultsOk h))
theorem droopRecover_faultsOk {d : Nat} {s : State} (h : s.faultsOk) : (droopRecover d s).faultsOk := setKiln_faultsOk h
theorem arrStep_faultsOk {s : State} (h : s.faultsOk) : (arrStep s).faultsOk := ite_faultsOk h (setKiln_faultsOk h)
theorem voltageStep_faultsOk {rail t : Nat} {s : State} (h : s.faultsOk) : (voltageStep rail t s).faultsOk :=
  ite_faultsOk (arrStep_faultsOk (atPort_faultsOk h)) (ite_faultsOk (hcApply_faultsOk (setKiln_faultsOk (atPort_faultsOk h))) (atPort_faultsOk h))
theorem aclkChange_faultsOk {t : Nat} {s : State} (h : s.faultsOk) : (aclkChange t s).faultsOk :=
  ite_faultsOk (atPort_faultsOk h) (setF_faultsOk (atPort_faultsOk h))
theorem availWindow_faultsOk {d : Nat} {s : State} (h : s.faultsOk) : (availWindow d s).faultsOk :=
  ite_faultsOk h (setF_faultsOk (setKiln_faultsOk h))

theorem thermalTrip_faultsOk {s : State} (h : s.faultsOk) : (thermalTrip s).faultsOk := by
  unfold thermalTrip
  extract_lets _ s1 s2 s3 _ s4
  have hs1 : s1.faultsOk := raise_faultsOk (h := h) ..
  have hs2 : s2.faultsOk := ite_faultsOk hs1 (saveFaults_faultsOk hs1)
  have hs3 : s3.faultsOk := compOff_faultsOk hs2
  have hs4 : s4.faultsOk := ite_faultsOk (allOff_faultsOk hs2) (faultsOk_mk hs3)
  exact faultsOk_mk (fltOk_mk hs4)

theorem thermalSample_faultsOk {temps : List Int} {t : Nat} {s : State} (h : s.faultsOk) : (thermalSample temps t s).faultsOk := by
  unfold thermalSample
  extract_lets s1 _ _ _ _ _ s2 s3 _ _ s4
  have hs1 : s1.faultsOk := atPort_faultsOk h
  have hs2 : s2.faultsOk := setKiln_faultsOk hs1
  have hs3 : s3.faultsOk := ite_faultsOk (kilnRaise_faultsOk hs2) hs2
  have hs4 : s4.faultsOk := ite_faultsOk (kilnRaise_faultsOk (setF_faultsOk (setKiln_faultsOk hs3))) hs3
  exact ite_faultsOk (thermalTrip_faultsOk hs4) hs4

theorem thermalCapStep_faultsOk {t : Nat} {s : State} (h : s.faultsOk) : (thermalCapStep t s).faultsOk := by
  unfold thermalCapStep
  extract_lets s1 _ _ _ s2
  have hs1 : s1.faultsOk := atPort_faultsOk h
  have hs2 : s2.faultsOk := setKiln_faultsOk hs1
  exact ite_faultsOk hs1 (ite_faultsOk (ite_faultsOk (setKiln_faultsOk hs1) hs1) (ite_faultsOk (ite_faultsOk (setF_faultsOk hs2) hs2) hs1))

theorem vinFault_faultsOk {s : State} (h : s.faultsOk) : (vinFault s).faultsOk :=
  faultsOk_mk (fltOk_mk (loseDram_faultsOk (allOff_faultsOk (raise_faultsOk (h := h) ..))))
theorem vinLost_faultsOk {s : State} : (vinLost s).faultsOk := faultsOk_mk ⟨Nat.zero_le 32, Nat.zero_le 32⟩

theorem vinSample_faultsOk {mv t : Nat} {s : State} (h : s.faultsOk) : (vinSample mv t s).faultsOk := by
  unfold vinSample
  extract_lets s1 _ _ _ _ _ _ _ s2 s3
  have hs1 : s1.faultsOk := atPort_faultsOk h
  have hs2 : s2.faultsOk := setKiln_faultsOk hs1
  have hs3 : s3.faultsOk := ite_faultsOk (kilnRaise_faultsOk hs2) hs2
  exact ite_faultsOk (vinLost_faultsOk) (ite_faultsOk (vinFault_faultsOk hs3) (ite_faultsOk (coldBoot_faultsOk hs3) hs3))

theorem emberBegin_faultsOk {s : State} (h : s.faultsOk) : (emberBegin s).faultsOk :=
  foldl_faultsOk (fun _ _ hu => discardSteps_faultsOk hu) (faultsOk_mk (setF_faultsOk h))
theorem kilnEmberWrite_faultsOk {m : Master} {v : Nat} {s : State} (h : s.faultsOk) : (kilnEmberWrite m v s).faultsOk :=
  gated_faultsOk h (fun _ hu => ite_faultsOk (setF_faultsOk (setF_faultsOk (w1c_faultsOk hu))) (ite_faultsOk (setF_faultsOk (setF_faultsOk
    (setF_faultsOk (w1c_faultsOk hu)))) (emberBegin_faultsOk (setF_faultsOk (setF_faultsOk (w1c_faultsOk hu))))))
theorem emberEntered_faultsOk {t : Nat} {s : State} (h : s.faultsOk) : (emberEntered t s).faultsOk :=
  ite_faultsOk (atPort_faultsOk h) (faultsOk_mk (foldl_faultsOk (fun _ _ hu => setF_faultsOk hu) (allOff_faultsOk (ite_faultsOk (updDone_faultsOk
    (atPort_faultsOk h)) (atPort_faultsOk h)))))

theorem restoreDrc_faultsOk {s : State} (h : s.faultsOk) : (restoreDrc s).faultsOk := by
  unfold restoreDrc
  split
  · exact h
  · exact faultsOk_mk (setF_faultsOk (setF_faultsOk (setF_faultsOk (setF_faultsOk (setF_faultsOk h)))))

theorem restoreXts_faultsOk {s : State} (h : s.faultsOk) : (restoreXts s).faultsOk := faultsOk_mk h

theorem emberWake_faultsOk {src : Nat} {good : Bool} {t : Nat} {s : State} (h : s.faultsOk) : (emberWake src good t s).faultsOk := by
  unfold emberWake
  extract_lets s1 _ _ s2 _ _ _ s3 _ _ _ s4
  have hs1 : s1.faultsOk := atPort_faultsOk h
  have hs2 : s2.faultsOk := setF_faultsOk (faultsOk_mk hs1)
  have hs3 : s3.faultsOk := setF_faultsOk (setF_faultsOk (setF_faultsOk (setF_faultsOk hs2)))
  have hs4 : s4.faultsOk := selectImage_faultsOk (faultsOk_mk hs2)
  exact ite_faultsOk hs1 (ite_faultsOk (followConfirmed_faultsOk (loadImages_faultsOk (restoreXts_faultsOk (restoreDrc_faultsOk (faultsOk_mk
    hs3))))) (ite_faultsOk (restoreDrc_faultsOk hs4) hs4))

/-! ### Partitions and security -/

theorem clearAo_faultsOk {s : State} {f : Nat → Bool} (h : s.faultsOk) : (clearAo s f).faultsOk :=
  foldl_faultsOk (fun _ _ hu => ite_faultsOk (setF_faultsOk (zeroMem_faultsOk hu)) hu) h
theorem partResult_faultsOk {s : State} {r : Nat} (h : s.faultsOk) : (partResult s r).faultsOk := setF_faultsOk h
theorem eminoRead_faultsOk {s : State} {a n : Nat} (h : s.faultsOk) : FstOk (eminoRead s a n) := netRead_faultsOk h
theorem bindQueues_faultsOk {s : State} {base n : Nat} {f : Queue → Queue} (h : s.faultsOk) : (bindQueues s base n f).faultsOk := faultsOk_mk h

theorem createPart_faultsOk {p : Nat} {s : State} (h : s.faultsOk) : (createPart p s).faultsOk := by
  unfold createPart
  extract_lets _ r1 _ _ _ _ s1 s2 _ __src1
  have hr1 : FstOk r1 := eminoRead_faultsOk h
  have hs1 : s1.faultsOk := setP_faultsOk (bindQueues_faultsOk hr1)
  have hs2 : s2.faultsOk := setF_faultsOk (setF_faultsOk (setF_faultsOk hs1))
  have h__src1 : __src1.faultsOk := drawn_faultsOk hs2
  exact ite_faultsOk (partResult_faultsOk hr1) (ite_faultsOk (partResult_faultsOk hr1) (ite_faultsOk (partResult_faultsOk hr1) (partResult_faultsOk
    (faultsOk_mk h__src1))))

theorem loadFw_faultsOk {p : Nat} {ok : Bool} {s : State} (h : s.faultsOk) : (loadFw p ok s).faultsOk := by
  unfold loadFw
  extract_lets _ _ _ _ t1 _ __src1
  have ht1 : FstOk t1 := eminoRead_faultsOk h
  have h__src1 : __src1.faultsOk := drawn_faultsOk ht1
  refine ite_faultsOk (partResult_faultsOk h) ?_
  split
  · exact partResult_faultsOk h
  · refine ite_faultsOk (partResult_faultsOk h) ?_
    split
    · exact partResult_faultsOk ht1
    · exact partResult_faultsOk (setP_faultsOk (xtsSeal_faultsOk (memPut_faultsOk (faultsOk_mk h__src1))))

theorem startPart_faultsOk {p : Nat} {s : State} (h : s.faultsOk) : (startPart p s).faultsOk :=
  ite_faultsOk (partResult_faultsOk h) (partResult_faultsOk (setP_faultsOk h))
theorem sessionsOff_faultsOk {s : State} {x : Part} (h : s.faultsOk) : (sessionsOff s x).faultsOk := faultsOk_mk h
theorem dropKeys_faultsOk {s : State} {p : Nat} (h : s.faultsOk) : (dropKeys s p).faultsOk := faultsOk_mk h
theorem dropLines_faultsOk {s : State} {p : Nat} (h : s.faultsOk) : (dropLines s p).faultsOk := setB_faultsOk h

theorem teardownSteps_faultsOk {s : State} {p : Nat} (h : s.faultsOk) : (teardownSteps s p).faultsOk := by
  unfold teardownSteps
  extract_lets _ s1 _ _ s2 s3 s4 s5 s6 s7
  have hs1 : s1.faultsOk := setP_faultsOk h
  have hs2 : s2.faultsOk := faultsOk_mk hs1
  have hs3 : s3.faultsOk := dropKeys_faultsOk (discardSteps_faultsOk hs2)
  have hs4 : s4.faultsOk := clearAo_faultsOk hs3
  have hs5 : s5.faultsOk := foldl_faultsOk (fun _ _ hu => domainUp_faultsOk (domainDown_faultsOk hu)) (dropLines_faultsOk hs4)
  have hs6 : s6.faultsOk := sessionsOff_faultsOk (bindQueues_faultsOk hs5)
  have hs7 : s7.faultsOk := foldl_faultsOk (fun _ _ hu => ctxenBit_faultsOk hu) hs6
  exact faultsOk_mk hs7

theorem teardown_faultsOk {p : Nat} {s : State} (h : s.faultsOk) : (teardown p s).faultsOk :=
  ite_faultsOk (partResult_faultsOk h) (ite_faultsOk (partResult_faultsOk h) (setF_faultsOk (partResult_faultsOk (faultsOk_mk
    (teardownSteps_faultsOk h)))))

theorem teardownDone_faultsOk {s : State} (h : s.faultsOk) : (teardownDone s).faultsOk := by
  unfold teardownDone
  split
  · exact ite_faultsOk h (setF_faultsOk (partResult_faultsOk (setP_faultsOk (faultsOk_mk h))))
  · exact h

theorem cycleQuarter_faultsOk {q : Nat} {s : State} (h : s.faultsOk) : (cycleQuarter q s).faultsOk :=
  ite_faultsOk (partResult_faultsOk h) (partResult_faultsOk (faultsOk_mk (domainUp_faultsOk (domainDown_faultsOk h))))

theorem partCmdWrite_faultsOk {m : Master} {v : Nat} {ok : Bool} {s : State} (h : s.faultsOk) : (partCmdWrite m v ok s).faultsOk := by
  unfold partCmdWrite
  refine gated_faultsOk h ?_
  intro _ hu
  refine ite_faultsOk hu ?_
  refine ite_faultsOk (partResult_faultsOk hu) ?_
  split
  · exact createPart_faultsOk hu
  · exact loadFw_faultsOk hu
  · exact startPart_faultsOk hu
  · exact teardown_faultsOk hu
  · exact cycleQuarter_faultsOk hu

theorem debugChallenge_faultsOk {s : State} (h : s.faultsOk) : (debugChallenge s).faultsOk := ite_faultsOk h (faultsOk_mk (drawn_faultsOk h))
theorem debugOpen_faultsOk {s : State} (h : s.faultsOk) : (debugOpen s).faultsOk :=
  emnRaise_faultsOk (faultsOk_mk (setF_faultsOk (clearAo_faultsOk (settleParked_faultsOk (foldl_faultsOk (fun _ _ hu => postStep_faultsOk hu)
    (faultsOk_mk (faultsOk_mk h)))))))
theorem debugResponse_faultsOk {ok : Bool} {s : State} (h : s.faultsOk) : (debugResponse ok s).faultsOk :=
  ite_faultsOk h (ite_faultsOk (debugOpen_faultsOk (faultsOk_mk h)) (bump_faultsOk (faultsOk_mk h)))
theorem setAtt_faultsOk {s : State} {p : Nat} {x : Att} (h : s.faultsOk) : (setAtt s p x).faultsOk := faultsOk_mk h
theorem attRequest_faultsOk {m : Master} {s : State} (h : s.faultsOk) : (attRequest m s).faultsOk :=
  gated_faultsOk h (fun _ hu => ite_faultsOk hu (ite_faultsOk (setAtt_faultsOk hu) (ite_faultsOk (setAtt_faultsOk (eminoRead_faultsOk hu))
    (setAtt_faultsOk (eminoRead_faultsOk hu)))))
theorem attDone_faultsOk {p : Nat} {s : State} (h : s.faultsOk) : (attDone p s).faultsOk :=
  ite_faultsOk h (ite_faultsOk (setAtt_faultsOk h) (setAtt_faultsOk (netWrite_faultsOk h)))

end Sys2Proof.FaultLaws
end

section
/-! The depth of the fault queues: pins, rings, registers, accesses, the host and the words; then every command. -/

namespace Sys2Proof.FaultLaws

open Sys2Proof Sys2Proof.Machine

/-! ### Pins -/

theorem modAbsChange_faultsOk {port : Nat} {low : Bool} {s : State} (h : s.faultsOk) : (modAbsChange port low s).faultsOk := faultsOk_mk h
theorem vmodOvercurrent_faultsOk {port : Nat} {s : State} (h : s.faultsOk) : (vmodOvercurrent port s).faultsOk :=
  ite_faultsOk (netRaise_faultsOk (flushPort_faultsOk (setF_faultsOk (faultsOk_mk h)))) h
theorem ppsPulse_faultsOk {t : Nat} {s : State} (h : s.faultsOk) : (ppsPulse t s).faultsOk := ite_faultsOk (faultsOk_mk (atPort_faultsOk h)) h

/-! ### Host rings -/

theorem fnGated_faultsOk {s : State} {g o : Nat} {m : Master} {v : Nat} {act : State → State} (h : s.faultsOk) (hact : ∀ u0, u0.faultsOk → (act
    u0).faultsOk) : (fnGated s g o m v act).faultsOk :=
  ite_faultsOk h (gated_faultsOk h (fun _ hu => hact _ hu))

theorem helloApply_faultsOk {s : State} {g vmin vmax : Nat} (h : s.faultsOk) : (helloApply s g vmin vmax).faultsOk := by
  unfold helloApply
  dsimp only
  split
  · exact setF_faultsOk (setF_faultsOk (setF_faultsOk (setF_faultsOk (setF_faultsOk h))))
  · exact setF_faultsOk (setF_faultsOk (setF_faultsOk (setF_faultsOk (setF_faultsOk h))))

theorem writeOut_faultsOk {s : State} {g n : Nat} {x : Bytes × Bool} (h : s.faultsOk) : (writeOut s g n x).faultsOk := by
  unfold writeOut
  dsimp only
  split
  · exact ite_faultsOk (writeCqe_faultsOk h) (helloApply_faultsOk (setRing_faultsOk (writeCqe_faultsOk h)))
  · exact writeCqe_faultsOk h

theorem flushHeld_faultsOk {g n : Nat} {l : List (Bytes × Bool)} {s : State} (h : s.faultsOk) : (flushHeld g n l s).faultsOk := by
  induction l generalizing s with
  | nil => exact setRing_faultsOk h
  | cons x l ih => exact ite_faultsOk (ih (writeOut_faultsOk h)) (setRing_faultsOk h)

theorem complete_faultsOk {g n : Nat} {s : State} (h : s.faultsOk) : (complete g n s).faultsOk := by
  unfold complete
  split
  · exact h
  · exact ite_faultsOk (writeOut_faultsOk (setRing_faultsOk h)) (setRing_faultsOk (setRing_faultsOk h))

theorem ringCfgWrite_faultsOk {m : Master} {g n v : Nat} {s : State} (h : s.faultsOk) : (ringCfgWrite m g n v s).faultsOk := by
  unfold ringCfgWrite
  refine fnGated_faultsOk h ?_
  intro _ hu
  extract_lets _ _ _ _ _ s1 s2 s3
  have hs1 : s1.faultsOk := ite_faultsOk (cfgIgnored_faultsOk hu) hu
  have hs2 : s2.faultsOk := wrField_faultsOk (wrField_faultsOk (wrField_faultsOk hs1))
  have hs3 : s3.faultsOk := setF_faultsOk hs2
  exact ite_faultsOk (flushHeld_faultsOk (setRing_faultsOk hs3)) (ite_faultsOk (setRing_faultsOk hs3) hs3)

theorem ringError_faultsOk {s : State} {g n : Nat} (h : s.faultsOk) : (ringError s g n).faultsOk :=
  setRing_faultsOk (setF_faultsOk (setF_faultsOk h))
theorem sqtailWrite_faultsOk {m : Master} {g n v : Nat} {s : State} (h : s.faultsOk) : (sqtailWrite m g n v s).faultsOk :=
  fnGated_faultsOk h (fun _ hu => ite_faultsOk (setRing_faultsOk hu) (ringError_faultsOk hu))
theorem cqheadWrite_faultsOk {m : Master} {g n v : Nat} {s : State} (h : s.faultsOk) : (cqheadWrite m g n v s).faultsOk :=
  fnGated_faultsOk h (fun _ hu => ite_faultsOk (flushHeld_faultsOk (setRing_faultsOk hu)) hu)

theorem hifEvent_faultsOk {q : Nat} {s : State} (h : s.faultsOk) : (hifEvent q s).faultsOk := by
  unfold hifEvent
  dsimp only
  split
  · exact h
  · exact ite_faultsOk (writeCqe_faultsOk (popQ_faultsOk h)) h

theorem fnReset_faultsOk {s : State} {g : Nat} (h : s.faultsOk) : (fnReset s g).faultsOk := resetRegs_faultsOk (faultsOk_mk h)
theorem perstN_faultsOk {low : Bool} {s : State} (h : s.faultsOk) : (perstN low s).faultsOk :=
  ite_faultsOk (faultsOk_mk (resetRegs_faultsOk (foldl_faultsOk (fun _ _ hu => fnReset_faultsOk hu) h))) (faultsOk_mk h)
theorem linkTrained_faultsOk {s : State} (h : s.faultsOk) : (linkTrained s).faultsOk := ite_faultsOk h (faultsOk_mk h)

/-! ### Fields that report -/

theorem regReadAct_faultsOk {p : Bool} {b o : Nat} {m : Master} {s : State} (h : s.faultsOk) : FstOk (regReadAct p b o m s) :=
  ite_fst_faultsOk (tickLoRead_faultsOk h) (ite_fst_faultsOk (utilLoRead_faultsOk h) h)
theorem readReg_faultsOk {s : State} {p : Bool} {b o : Nat} {m : Master} (h : s.faultsOk) : FstOk (readReg s p b o m) :=
  readVia_faultsOk h (fun _ hu => regReadAct_faultsOk hu)

/-! ### Register writes -/

theorem writeField_faultsOk {open_ : Bool} {s0 : State} {p : Bool} {b o v : Nat} {s : State} {x : Fld × Acc} (h1 : s.faultsOk) : (writeField open_
    s0 p b o v s x).faultsOk := by
  unfold writeField
  split
  · exact setF_faultsOk h1
  · exact wrField_faultsOk h1
  · exact wrField_faultsOk h1
  · exact w1c_faultsOk h1
  · exact h1

theorem writeFields_faultsOk {s : State} {p : Bool} {b o : Nat} {m : Master} {v : Nat} {fl : FieldList} (h : s.faultsOk) : (writeFields s p b o m v
    fl).faultsOk :=
  foldl_faultsOk (fun _ _ hu => writeField_faultsOk hu) (ite_faultsOk (cfgIgnored_faultsOk h) h)
theorem enableWrite_faultsOk {s : State} {e : Nat} {v : Bool} (h : s.faultsOk) : (enableWrite s e v).faultsOk :=
  ite_faultsOk (ite_faultsOk (setF_faultsOk (setD_faultsOk h)) (ite_faultsOk (setF_faultsOk h) (setD_faultsOk h))) (ite_faultsOk (ite_faultsOk
    (setF_faultsOk (faultsOk_mk h)) (ite_faultsOk (faultsOk_mk h) (setF_faultsOk h))) (ite_faultsOk (setF_faultsOk (setPipe_faultsOk h))
    (ite_faultsOk (setPipe_faultsOk h) (setF_faultsOk h))))
theorem coreEnable.settleIdle_faultsOk {k : Nat} {s : State} (h : s.faultsOk) : (coreEnable.settleIdle k s).faultsOk :=
  ite_faultsOk (settleCore_faultsOk h) h
theorem coreEnable_faultsOk {v : Nat} {s : State} {k : Nat} (h : s.faultsOk) : (coreEnable v s k).faultsOk :=
  ite_faultsOk (setF_faultsOk (faultsOk_mk h)) (coreEnable.settleIdle_faultsOk (faultsOk_mk h))

theorem wincfgWrite_faultsOk {s : State} {m : Master} {v : Nat} (h : s.faultsOk) : (wincfgWrite s m v).faultsOk := by
  unfold wincfgWrite
  split
  · exact h
  · exact ite_faultsOk (setW_faultsOk h) (ite_faultsOk h (cfgIgnored_faultsOk h))

theorem dropcntWrite_faultsOk {s : State} {v : Nat} (h : s.faultsOk) : (dropcntWrite s v).faultsOk := by
  unfold dropcntWrite
  split
  · exact ite_faultsOk h (faultsOk_mk h)
  · exact h

theorem qcfgWrite_faultsOk {s : State} {m : Master} {v : Nat} (h : s.faultsOk) : (qcfgWrite s m v).faultsOk :=
  ite_faultsOk h (ite_faultsOk (setQ_faultsOk h) (cfgIgnored_faultsOk h))
theorem ctxrecWrite_faultsOk {s : State} {m : Master} {hi : Bool} {v : Nat} (h : s.faultsOk) : (ctxrecWrite s m hi v).faultsOk :=
  ite_faultsOk h (ite_faultsOk (cfgIgnored_faultsOk h) (setI_faultsOk h))
theorem wbWrite_faultsOk {s : State} {m : Master} {b : Bool} {v : Nat} (h : s.faultsOk) : (wbWrite s m b v).faultsOk :=
  ite_faultsOk (cfgIgnored_faultsOk h) (setI_faultsOk h)
theorem netPortEn_faultsOk {s : State} {v : Nat} (h : s.faultsOk) : (netPortEn s v).faultsOk := faultsOk_mk (setF_faultsOk h)
theorem blockMemWrite_faultsOk {s : State} {b o : Nat} {m : Master} {v : Nat} (h : s.faultsOk) : (blockMemWrite s b o m v).faultsOk :=
  ite_faultsOk (ite_faultsOk (ite_faultsOk h (cfgIgnored_faultsOk h)) (ite_faultsOk (setBlk_faultsOk (setSes_faultsOk (setNet_faultsOk h)))
    (setNet_faultsOk h))) (ite_faultsOk (ite_faultsOk h (cfgIgnored_faultsOk h)) (faultsOk_mk h))
theorem ringErrW1c_faultsOk {s : State} {g v : Nat} (h : s.faultsOk) : (ringErrW1c s g v).faultsOk := setF_faultsOk h

theorem compWrite_faultsOk {s : State} {b o : Nat} {m : Master} {v : Nat} (h : s.faultsOk) : (compWrite s b o m v).faultsOk := by
  unfold compWrite
  split
  · exact wincfgWrite_faultsOk h
  · exact dropcntWrite_faultsOk h
  · exact qcfgWrite_faultsOk h
  · exact ite_faultsOk (setQ_faultsOk h) h
  · exact enableWrite_faultsOk h
  · exact enableWrite_faultsOk h
  · exact enableWrite_faultsOk h
  · exact enableWrite_faultsOk h
  · exact enableWrite_faultsOk h
  · exact foldl_faultsOk (fun _ _ hu => enableWrite_faultsOk hu) h
  · exact ctxrecWrite_faultsOk h
  · exact ctxrecWrite_faultsOk h
  · exact wbWrite_faultsOk h
  · exact wbWrite_faultsOk h
  · exact foldl_faultsOk (fun _ _ hu => coreEnable_faultsOk hu) h
  · exact ite_faultsOk (ringErrW1c_faultsOk h) (writeFields_faultsOk h)

theorem portWrite_faultsOk {s : State} {b o : Nat} {m : Master} {v : Nat} (h : s.faultsOk) : (portWrite s b o m v).faultsOk := by
  unfold portWrite
  refine ite_faultsOk (blockMemWrite_faultsOk h) ?_
  dsimp only
  split
  · exact setAtt_faultsOk h
  · exact setAtt_faultsOk h
  · exact ite_faultsOk (netPortEn_faultsOk (setF_faultsOk (writeFields_faultsOk h))) (ite_faultsOk (faultsOk_mk (writeFields_faultsOk h))
      (ite_faultsOk (hcApply_faultsOk (writeFields_faultsOk h)) (writeFields_faultsOk h)))

theorem evtWrite_faultsOk {s : State} {p : Bool} {b : Nat} {m : Master} {v : Nat} (h : s.faultsOk) : (evtWrite s p b m v).faultsOk :=
  ite_faultsOk (foldl_faultsOk (fun _ _ hu => setF_faultsOk hu) (writeFields_faultsOk h)) (writeFields_faultsOk h)
theorem plainWrite_faultsOk {p : Bool} {b o : Nat} {m : Master} {v : Nat} {s : State} (h : s.faultsOk) : (plainWrite p b o m v s).faultsOk :=
  ite_faultsOk (evtWrite_faultsOk h) (ite_faultsOk (portWrite_faultsOk h) (compWrite_faultsOk h))
theorem bulkcapWrite_faultsOk {m : Master} {v : Nat} {s : State} (h : s.faultsOk) : (bulkcapWrite m v s).faultsOk :=
  gated_faultsOk h (fun _ hu => resumeNet_faultsOk (plainWrite_faultsOk hu))

theorem compOwn_faultsOk {b o : Nat} {m : Master} {v : Nat} {f : State → State} {s : State} (e : compOwn b o m v = some f) (h : s.faultsOk) :
    (f s).faultsOk := by
  unfold compOwn at e
  split at e
  · exact Option.some.inj e ▸ arrCtlWrite_faultsOk h
  · exact Option.some.inj e ▸ retireReqWrite_faultsOk h
  · exact Option.some.inj e ▸ colcntWrite_faultsOk h
  · exact Option.some.inj e ▸ lbyCmdWrite_faultsOk h
  · exact Option.some.inj e ▸ drnCtlWrite_faultsOk h
  · exact Option.some.inj e ▸ winCtl_faultsOk h
  · exact Option.some.inj e ▸ ctxenWrite_faultsOk h
  · exact Option.some.inj e ▸ feedWrite_faultsOk h
  · exact Option.some.inj e ▸ tickCtlWrite_faultsOk h
  · exact Option.some.inj e ▸ drcCfgWrite_faultsOk h
  · exact Option.some.inj e ▸ drcTrnWrite_faultsOk h
  · exact Option.some.inj e ▸ bulkcapWrite_faultsOk h
  · exact Option.some.inj e ▸ fltCmd_faultsOk h
  · split at e
    · dsimp only at e
      split at e
      · exact Option.some.inj e ▸ ringCfgWrite_faultsOk h
      · exact Option.some.inj e ▸ sqtailWrite_faultsOk h
      · exact Option.some.inj e ▸ cqheadWrite_faultsOk h
      · cases e
    · split at e
      · exact Option.some.inj e ▸ hxrStart_faultsOk h
      · cases e

theorem portOwn_faultsOk {b o : Nat} {m : Master} {v : Nat} {x : Found} {f : State → State} {s : State} (e : portOwn b o m v x = some f) (h :
    s.faultsOk) :
    (f s).faultsOk := by
  unfold portOwn at e
  split at e
  · exact Option.some.inj e ▸ camCtlWrite_faultsOk h
  · exact Option.some.inj e ▸ camWscmdPost_faultsOk h
  · exact Option.some.inj e ▸ rxrelWrite_faultsOk h
  · exact Option.some.inj e ▸ barrecWrite_faultsOk h
  · exact Option.some.inj e ▸ barrierWrite_faultsOk h
  · exact Option.some.inj e ▸ updCmdWrite_faultsOk h
  · exact Option.some.inj e ▸ partCmdWrite_faultsOk h
  · split at e
    · exact Option.some.inj e ▸ attRequest_faultsOk h
    · cases e
  · exact Option.some.inj e ▸ kilnEmberWrite_faultsOk h
  · exact Option.some.inj e ▸ fltCmd_faultsOk h
  · cases e

theorem writeReg_faultsOk {s : State} {p : Bool} {b o : Nat} {m : Master} {v : Nat} {x : Found} (h : s.faultsOk) : (writeReg s p b o m v
    x).faultsOk := by
  unfold writeReg
  refine ite_faultsOk (ite_faultsOk h (unreachable_faultsOk h)) ?_
  split
  · rename_i hf
    split at hf
    · exact portOwn_faultsOk hf h
    · exact compOwn_faultsOk hf h
  · exact gated_faultsOk h fun _ hu => plainWrite_faultsOk hu

theorem handlerFault_faultsOk {m : Master} {s s' : State} (h : s'.faultsOk) : (handlerFault m s s').faultsOk := by
  unfold handlerFault
  refine ite_faultsOk ?_ h
  split
  · exact doubleFault_faultsOk (faultsOk_mk (fltOk_mk ⟨(List.length_set ..).trans_le h.1, h.2⟩))
  · exact h

/-! ### Routed accesses -/

theorem answer_faultsOk {s : State} {bs : Bytes} {err : Bool} (h : s.faultsOk) : (answer s bs err).faultsOk := faultsOk_mk h

theorem regsRead_faultsOk {s : State} {p : Bool} {b : Nat} {m : Master} {os : List Nat} (h : s.faultsOk) : FstOk (regsRead s p b m os) := by
  induction os generalizing s with
  | nil => exact h
  | cons o os ih => exact ih (readReg_faultsOk h)

theorem regsWrite_faultsOk {p : Bool} {b : Nat} {m : Master} {x : Found} {os : List Nat} {bs : Bytes} {s : State} (h : s.faultsOk) :
    (regsWrite p b m x os bs s).faultsOk := by
  induction os generalizing s bs with
  | nil => exact h
  | cons o os ih => exact ih (writeReg_faultsOk h)

theorem regAccess_faultsOk {s : State} {p : Bool} {b o : Nat} {m : Master} {n : Nat} {wr : Option Bytes} {x : Found} (h : s.faultsOk) : (regAccess
    s p b o m n wr x).faultsOk := by
  unfold regAccess
  split
  · exact answer_faultsOk (regsRead_faultsOk h)
  · exact ite_faultsOk (answer_faultsOk (regsWrite_faultsOk h)) (answer_faultsOk (unassigned_faultsOk h))

theorem throughCache_faultsOk {s : State} {m : Master} {a : Nat} (h : s.faultsOk) : (throughCache s m a).faultsOk :=
  ite_faultsOk (useBuf_faultsOk (useBuf_faultsOk h)) h
theorem ownTilePut_faultsOk {s : State} {a : Nat} {bs : Bytes} (h : s.faultsOk) : (ownTilePut s a bs).faultsOk := memPut_faultsOk h

theorem memAccess_faultsOk {s : State} {m : Master} {a n : Nat} {wr : Option Bytes} (h : s.faultsOk) : (memAccess s m a n wr).faultsOk := by
  unfold memAccess
  refine ite_faultsOk h ?_
  split
  · dsimp only
    split
    · rename_i hr
      have hg := busOk_of_eq hr (busGate_faultsOk h)
      exact answer_faultsOk hg
    · exact answer_faultsOk h
    · refine answer_faultsOk ?_
      refine ite_faultsOk (dramPut_faultsOk (throughCache_faultsOk h)) ?_
      split
      · exact ownTilePut_faultsOk h
      · exact memPut_faultsOk h
  · exact ite_faultsOk (answer_faultsOk (raise_faultsOk (h := busRead_faultsOk h) ..)) (answer_faultsOk (ite_faultsOk (throughCache_faultsOk
      (busRead_faultsOk h)) (busRead_faultsOk h)))

theorem memParts_faultsOk {m : Master} {k : Nat} {s : State} {a n : Nat} {wr : Option Bytes} (h : s.faultsOk) : (memParts m k s a n wr).faultsOk :=
    by
  induction k generalizing s a n wr with
  | zero => exact h
  | succ k ih => exact ite_faultsOk (memAccess_faultsOk h) (answer_faultsOk (ih (memAccess_faultsOk h)))

theorem route_faultsOk {s : State} {m : Master} {a n : Nat} {wr : Option Bytes} {x : Found} (h : s.faultsOk) : (route s m a n wr x).faultsOk := by
  unfold route
  refine ite_faultsOk (answer_faultsOk h) ?_
  split
  · exact ite_faultsOk (regAccess_faultsOk h) h
  · exact ite_faultsOk (regAccess_faultsOk h) h
  · exact ite_faultsOk h (ite_faultsOk (memAccess_faultsOk h) (memParts_faultsOk h))

theorem barAccess_faultsOk {s : State} {g bar o n : Nat} {wr : Option Bytes} {x : Found} (h : s.faultsOk) : (barAccess s g bar o n wr x).faultsOk
    := by
  unfold barAccess
  refine ite_faultsOk h ?_
  split
  · exact answer_faultsOk h
  · exact ite_faultsOk (answer_faultsOk h) (route_faultsOk h)

theorem memoryAccess_faultsOk {m : Master} {bar : Option (Fin 9 × Nat)} {a n : Nat} {wr : Option Bytes} {x : Found} {s : State} (h : s.faultsOk) :
    (memoryAccess m bar a n wr x s).faultsOk := by
  unfold memoryAccess
  split
  · exact barAccess_faultsOk h
  · exact handlerFault_faultsOk (route_faultsOk h)

theorem fpPerform_faultsOk {s : State} {m : Master} {a n : Nat} {wr : Option Bytes} {x : Found} (h : s.faultsOk) : (fpPerform s m a n wr
    x).faultsOk := by
  unfold fpPerform
  refine ite_faultsOk (route_faultsOk h) ?_
  split
  · extract_lets _ _ s01
    have hs01 : s01.faultsOk := faultsOk_mk h
    split
    · rename_i hr
      have hg := busOk_of_eq hr (tileGate_faultsOk hs01)
      exact answer_faultsOk hg
    · exact hs01
    · split
      · rename_i hr
        have hg := eitherFstOk_of_eq hr (fpTileWrite_faultsOk hs01)
        exact faultsOk_mk hg
      · rename_i hr
        have hg := eitherFstOk_of_eq hr (fpTileWrite_faultsOk hs01)
        exact answer_faultsOk hg
  · exact route_faultsOk h

theorem footpathAccess_faultsOk {m : Master} {a n : Nat} {wr : Option Bytes} {x : Found} {s : State} (h : s.faultsOk) : (footpathAccess m a n wr x
    s).faultsOk :=
  ite_faultsOk h (ite_faultsOk (handlerFault_faultsOk (fpPerform_faultsOk h)) (ite_faultsOk h (ite_faultsOk (handlerFault_faultsOk
    (fpPerform_faultsOk (faultsOk_mk h))) (ite_faultsOk (handlerFault_faultsOk (fpPerform_faultsOk h)) (faultsOk_mk (bump_faultsOk h))))))

theorem tagGrant_faultsOk {s : State} (h : s.faultsOk) : (tagGrant s).faultsOk := by
  unfold tagGrant
  split
  · exact ite_faultsOk (faultsOk_mk h) h
  · exact h

/-! ### Host commands -/

theorem fetched_faultsOk {s : State} {g n : Nat} (h : s.faultsOk) : (fetched s g n).faultsOk := setRing_faultsOk h
theorem running_faultsOk {s : State} {g n : Nat} {c : Bytes} {status detail result : Nat} (h : s.faultsOk) : (running s g n c status detail
    result).faultsOk :=
  setRing_faultsOk h

theorem fhp_faultsOk {g n op : Nat} {c : Bytes} {act : State → Reply} {s : State} (hact : ∀ u0, u0.faultsOk → ReplyOk (act u0)) (h : s.faultsOk) :
    (fhp g n op c act s).faultsOk := by
  unfold fhp
  refine ite_faultsOk h ?_
  refine ite_faultsOk (ringError_faultsOk h) ?_
  dsimp only
  split
  · exact running_faultsOk (fetched_faultsOk h)
  · exact running_faultsOk (hact _ (fetched_faultsOk h))

theorem hello_faultsOk {g n : Nat} {c : Bytes} {s : State} (h : s.faultsOk) : ReplyOk (hello g n c s) := by
  unfold hello
  dsimp only
  split
  · exact h
  · split
    · exact setRing_faultsOk h
    · exact setRing_faultsOk h

theorem hostWrite_faultsOk {m : Master} {k a off : Nat} {bs : Bytes} {s : State} (h : s.faultsOk) : FstOk (hostWrite m k a off bs s) := by
  induction k generalizing s a off bs with
  | zero => exact h
  | succ k ih => exact ite_fst_faultsOk h (ite_fst_faultsOk (route_faultsOk h) (ih (route_faultsOk h)))

theorem hostRead_faultsOk {m : Master} {k a off n : Nat} {acc : Bytes} {s : State} (h : s.faultsOk) :
    FstOk (hostRead m k a off n acc s) := by
  induction k generalizing s a off n acc with
  | zero => exact h
  | succ k ih => exact ite_fst_faultsOk h (ite_fst_faultsOk (route_faultsOk h) (ih (route_faultsOk h)))

theorem writeMem_faultsOk {g : Nat} {c data : Bytes} {s : State} (h : s.faultsOk) : ReplyOk (writeMem g c data s) := by
  unfold writeMem
  dsimp only
  split
  · exact h
  · split
    · exact h
    · split
      · exact hostWrite_faultsOk h
      · split
        · exact hostWrite_faultsOk h
        · exact hostWrite_faultsOk h

theorem readMem_faultsOk {g : Nat} {c : Bytes} {s : State} (h : s.faultsOk) : ReplyOk (readMem g c s) := by
  unfold readMem
  dsimp only
  split
  · exact h
  · split
    · exact h
    · split
      · exact answer_faultsOk (hostRead_faultsOk h)
      · exact answer_faultsOk (hostRead_faultsOk h)

theorem releaseKeys_faultsOk {s : State} {p : Nat} {keys : List (Option (BitVec 256))} {n : Nat} (h : s.faultsOk) : (releaseKeys s p keys
    n).faultsOk :=
  faultsOk_mk h
theorem markAo_faultsOk {s : State} {b : Bytes} (h : s.faultsOk) : (markAo s b).faultsOk := foldl_faultsOk (fun _ _ hu => setF_faultsOk hu) h
theorem handPlan_faultsOk {r : State × List Nat} {b : Bytes} (h : FstOk r) : FstOk (handPlan r b) := faultsOk_mk (addPlan_faultsOk h)

theorem firstPlan_faultsOk {s : State} {ids : List Nat} (h : s.faultsOk) : (firstPlan s ids).faultsOk := by
  unfold firstPlan
  split
  · exact ite_faultsOk (activatePlan_faultsOk h) h
  · exact h

theorem loadStep6_faultsOk {s : State} {p a : Nat} {b : Bytes} {keys : List (Option (BitVec 256))} (h : s.faultsOk) : (loadStep6 s p a b
    keys).faultsOk := by
  have hs : (markAo (releaseKeys s p keys (kNkeys b)) b).faultsOk := markAo_faultsOk (releaseKeys_faultsOk h)
  have hl := foldl_faultsOk (f := fun s t => csloadRun p s (loadDesc b p a t)) (l := chosen (markAo (releaseKeys s p keys (kNkeys b)) b) b)
    (fun _ _ hu => csloadRun_faultsOk hu) hs
  exact faultsOk_mk (firstPlan_faultsOk (ite_fst_faultsOk hl (foldl_fst_faultsOk (fun _ _ hu => handPlan_faultsOk hu) (faultsOk_mk hl))))

theorem loadContainer_faultsOk {g : Nat} {c data : Bytes} {good : Bool} {keys : List (Option (BitVec 256))} {s : State} (h : s.faultsOk) : ReplyOk
    (loadContainer g c data good keys s) := by
  unfold loadContainer
  dsimp only
  split
  · exact h
  · split
    · exact h
    · split
      · exact h
      · split
        · exact hostWrite_faultsOk h
        · split
          · exact hostWrite_faultsOk h
          · exact loadStep6_faultsOk (hostWrite_faultsOk h)

theorem unloadContainer_faultsOk {g : Nat} {c : Bytes} {s : State} (h : s.faultsOk) : ReplyOk (unloadContainer g c s) := by
  unfold unloadContainer
  split
  · exact h
  · split
    · exact h
    · split
      · exact h
      · exact faultsOk_mk (clearAo_faultsOk (faultsOk_mk h))

theorem planSrc_faultsOk {s : State} {act : State → Reply} (h : s.faultsOk) (hact : ∀ u0, u0.faultsOk → ReplyOk (act u0)) : ReplyOk (planSrc s act)
    := by
  unfold planSrc
  split
  · exact hact _ h
  · exact h

theorem planReply_faultsOk {r : State × Option Nat} {result : Nat} (h : FstOk r) : ReplyOk (planReply r result) := by
  unfold planReply
  split
  · exact h
  · exact h

theorem planAdd_faultsOk {c data : Bytes} {s : State} (h : s.faultsOk) : ReplyOk (planAdd c data s) := by
  unfold planAdd
  refine planSrc_faultsOk h ?_
  intro _ hu
  split
  · exact hu
  · split
    · exact hu
    · exact planReply_faultsOk (addPlan_faultsOk hu)

theorem gclSet_faultsOk {c data : Bytes} {s : State} (h : s.faultsOk) : ReplyOk (gclSet c data s) := by
  unfold gclSet
  split
  · exact h
  · split
    · exact h
    · split
      · exact h
      · exact setNet_faultsOk h

theorem queuePost_faultsOk {g : Nat} {c : Bytes} {s : State} (h : s.faultsOk) : ReplyOk (queuePost g c s) := by
  unfold queuePost
  dsimp only
  split
  · exact h
  · split
    · exact h
    · exact postData_faultsOk h

theorem milestoneRing_faultsOk {g : Nat} {c : Bytes} {s : State} (h : s.faultsOk) : ReplyOk (milestoneRing g c s) := by
  unfold milestoneRing
  dsimp only
  split
  · exact faultsOk_mk h
  · split
    · exact h
    · exact faultsOk_mk h

theorem modeBit_faultsOk {s : State} {ok : Bool} {x : Fld} {i v : Nat} (h : s.faultsOk) : ReplyOk (modeBit s ok x i v) := by
  unfold modeBit
  split
  · exact h
  · exact setF_faultsOk h

theorem modeIsp_faultsOk {s : State} {ctx v : Nat} (h : s.faultsOk) : ReplyOk (modeIsp s ctx v) := by
  unfold modeIsp
  split
  · exact h
  · exact memPut_faultsOk h

theorem modeSet_faultsOk {c : Bytes} {s : State} (h : s.faultsOk) : ReplyOk (modeSet c s) := by
  unfold modeSet
  dsimp only
  split
  · split
    · exact modeIsp_faultsOk h
    · exact h
  · split
    · exact h
    · split
      · exact modeBit_faultsOk h
      · exact faultsOk_mk h
      · exact modeBit_faultsOk h
      · exact modeBit_faultsOk h
      · exact modeBit_faultsOk h
      · exact modeBit_faultsOk h
      · exact h

theorem faultRead_faultsOk {c : Bytes} {s : State} (h : s.faultsOk) : ReplyOk (faultRead c s) := by
  unfold faultRead
  split
  · exact h
  · exact answer_faultsOk h

theorem endPause_faultsOk {s : State} {p : Nat} (h : s.faultsOk) : (endPause s p).faultsOk :=
  faultsOk_mk (fltOk_mk ⟨(List.length_filter_le _ _).trans h.1, h.2⟩)

theorem faultResume_faultsOk {c : Bytes} {s : State} (h : s.faultsOk) : ReplyOk (faultResume c s) := by
  unfold faultResume
  dsimp only
  split
  · exact h
  · split
    · exact endPause_faultsOk h
    · exact partRestart_faultsOk (endPause_faultsOk h)

theorem triageTimeout_faultsOk {p t : Nat} {s : State} (h : s.faultsOk) : (triageTimeout p t s).faultsOk :=
  ite_faultsOk (interrupt_faultsOk (setF_faultsOk (setF_faultsOk (faultsOk_mk (atComp_faultsOk h))))) (atComp_faultsOk h)

/-! ### Program starts -/

theorem laneEnd_faultsOk {s : State} {p : Nat} (h : s.faultsOk) : (laneEnd s p).faultsOk := by
  unfold laneEnd
  split
  · exact h
  · refine settleCtx_faultsOk ?_
    split
    · exact completeFrame_faultsOk (dropPipe_faultsOk h)
    · exact dropPipe_faultsOk h

theorem programEnd_faultsOk {e : Nat} {s : State} (h : s.faultsOk) : (programEnd e s).faultsOk := by
  unfold programEnd
  extract_lets _ s1 s2 s3 s4
  have hs1 : s1.faultsOk := setE_faultsOk h
  have hs2 : s2.faultsOk := applyDisable_faultsOk hs1
  have hs3 : s3.faultsOk := ite_faultsOk (laneEnd_faultsOk hs2) hs2
  have hs4 : s4.faultsOk := stepEnded_faultsOk (reportEnd_faultsOk hs3)
  exact ite_faultsOk (ite_faultsOk (runBootPort_faultsOk hs4) hs4) h

/-! ### Crop and disparity words -/

theorem cropBox_faultsOk {s : State} {w : BitVec 256} {src out : TDesc} {b : Nat} {box : Bytes} (h : s.faultsOk) : FstOk (cropBox s w src out b
    box) :=
  ite_fst_faultsOk (tensRead_faultsOk h) (tensWrite_faultsOk (tensRead_faultsOk h))

theorem cropLoop_faultsOk {w : BitVec 256} {src out : TDesc} {n : Nat} {s : State} (h : s.faultsOk) : EffOk (cropLoop w src out n s) := by
  induction n generalizing s with
  | zero => exact applyDisable_faultsOk (faultsOk_mk h)
  | succ n ih =>
    unfold cropLoop
    dsimp only
    refine ite_effOk (ite_effOk (engHalt_faultsOk (busRead_faultsOk h)) (ite_effOk (engHalt_faultsOk (cropBox_faultsOk (busRead_faultsOk h)))
      (ih (faultsOk_mk (cropBox_faultsOk (busRead_faultsOk h)))))) ?_
    split
    · exact ite_effOk h (ite_effOk (engHalt_faultsOk (cropBox_faultsOk (popQ_faultsOk h))) (ih (faultsOk_mk (cropBox_faultsOk (popQ_faultsOk h)))))
    · exact h

theorem cropAct_faultsOk {w : BitVec 256} {s : State} (h : s.faultsOk) : EffOk (cropAct w s) := by
  unfold cropAct
  extract_lets _ s1 _ s2
  have hs1 : s1.faultsOk := ite_faultsOk h (clearTile_faultsOk h)
  have hs2 : s2.faultsOk := faultsOk_mk hs1
  split
  · rename_i hr
    have hg := useOk_of_eq hr (useDesc_faultsOk hs2)
    exact hg
  · rename_i hr
    have hg := useOk_of_eq hr (useDesc_faultsOk hs2)
    split
    · rename_i hr
      have hg' := useOk_of_eq hr (useDesc_faultsOk hg)
      exact hg'
    · rename_i hr
      have hg' := useOk_of_eq hr (useDesc_faultsOk hg)
      exact cropLoop_faultsOk hg'

theorem cropWord_faultsOk {e : Nat} {w : BitVec 256} {s : State} (h : s.faultsOk) : (cropWord e w s).faultsOk :=
  ite_faultsOk (issue_faultsOk h (fun _ hu => cropAct_faultsOk hu)) h
theorem bandImage_faultsOk {s : State} {m : Master} {w : BitVec 256} {d : TDesc} (h : s.faultsOk) : FstOk (bandImage s m w d) := tensRead_faultsOk h

theorem dispBand_faultsOk {s : State} {w : BitVec 256} {l r d : TDesc} {c : Option TDesc} (h : s.faultsOk) : EffOk (dispBand s w l r d c) := by
  unfold dispBand
  extract_lets _ il1 ir1 _ s1 _ _ _ s2 s3
  have hil1 : FstOk il1 := bandImage_faultsOk h
  have hir1 : FstOk ir1 := bandImage_faultsOk hil1
  have hs1 : s1.faultsOk := ite_faultsOk (foldl_faultsOk (fun _ _ hu => putCommit_faultsOk hu) (putCommit_faultsOk hir1)) hir1
  have hs2 : s2.faultsOk := tensWrite_faultsOk hs1
  have hs3 : s3.faultsOk := by
    unfold s3
    split
    · exact tensWrite_faultsOk hs2
    · exact hs2
  exact ite_effOk (engHalt_faultsOk hir1) (ite_faultsOk (foldl_faultsOk (fun _ _ hu => putCommit_faultsOk hu) (putCommit_faultsOk hs3)) hs3)

theorem dispGoesOn_faultsOk {w : BitVec 256} {s : State} (h : s.faultsOk) : EffOk (dispGoesOn w s) :=
  ite_effOk h (dispBand_faultsOk (faultsOk_mk h))

theorem dispAct_faultsOk {w : BitVec 256} {s : State} (h : s.faultsOk) : EffOk (dispAct w s) := by
  unfold dispAct
  refine ite_effOk (dispGoesOn_faultsOk h) ?_
  extract_lets _ s1 _ s2
  have hs1 : s1.faultsOk := useBuf_faultsOk (turnBuf_faultsOk (ite_faultsOk h (clearTile_faultsOk h)))
  have hs2 : s2.faultsOk := faultsOk_mk hs1
  split
  · rename_i hr
    have hg := useOk_of_eq hr (useDesc_faultsOk hs2)
    exact hg
  · rename_i hr
    have hg := useOk_of_eq hr (useDesc_faultsOk hs2)
    split
    · rename_i hr
      have hg' := useOk_of_eq hr (useDesc_faultsOk hg)
      exact hg'
    · rename_i hr
      have hg' := useOk_of_eq hr (useDesc_faultsOk hg)
      split
      · rename_i hr
        have hg' := useOk_of_eq hr (useDesc_faultsOk hg')
        exact hg'
      · rename_i hr
        have hg' := useOk_of_eq hr (useDesc_faultsOk hg')
        split
        · rename_i hr
          have hg' := useOk_of_eq hr (by
              split
              · exact useDesc_faultsOk hg'
              · exact hg'
            )
          exact hg'
        · rename_i hr
          have hg' := useOk_of_eq hr (by
              split
              · exact useDesc_faultsOk hg'
              · exact hg'
            )
          dsimp only
          split
          · exact engFault_faultsOk hg'
          · exact faultsOk_mk hg'

theorem dispWord_faultsOk {e : Nat} {w : BitVec 256} {s : State} (h : s.faultsOk) : (dispWord e w s).faultsOk :=
  ite_faultsOk (issue_faultsOk h (fun _ hu => dispAct_faultsOk hu)) h

/-! ### Words by class -/

theorem wordIssue_faultsOk {e : Nat} {w : BitVec 256} {s : State} (h : s.faultsOk) : (wordIssue e w s).faultsOk := by
  unfold wordIssue
  split
  · exact nopWord_faultsOk h
  · exact agsetLoWord_faultsOk h
  · exact agsetHiWord_faultsOk h
  · exact setsWord_faultsOk h
  · exact ksetWord_faultsOk h
  · exact haltWord_faultsOk h
  · split
    · exact winOpenWord_faultsOk h
    · exact winCloseWord_faultsOk h
    · exact winReleaseWord_faultsOk h
    · exact issue_faultsOk h (fun _ hu => hu)
  · exact ite_faultsOk (opbeginWord_faultsOk h) (ite_faultsOk (chainWord_faultsOk h) (ite_faultsOk (xferWord_faultsOk h) (ite_faultsOk
      (cropWord_faultsOk h) (ite_faultsOk (laneWord_faultsOk h) (dispWord_faultsOk h)))))
  · exact ite_faultsOk (loadWord_faultsOk h) (ite_faultsOk (drainWord_faultsOk h) (issue_faultsOk h (fun _ hu => hu)))
  · exact ite_faultsOk (streamWord_faultsOk h) (ite_faultsOk (commitWord_faultsOk h) (issue_faultsOk h (fun _ hu => hu)))
  · exact ite_faultsOk (fillWord_faultsOk h) (ite_faultsOk (optstepWord_faultsOk h) (issue_faultsOk h (fun _ hu => hu)))
  · exact ite_faultsOk (safeWord_faultsOk h) (issue_faultsOk h (fun _ hu => hu))
  · exact ite_faultsOk (opendWord_faultsOk h) (issue_faultsOk h (fun _ hu => hu))
  · exact issue_faultsOk h (fun _ hu => hu)

theorem asClass_faultsOk {c : Nat} {eng : Bool} {e : Nat} {w : BitVec 256} {own : State → State} {s : State} (hown : ∀ u0, u0.faultsOk → (own
    u0).faultsOk) (h : s.faultsOk) : (asClass c eng e w own s).faultsOk :=
  ite_faultsOk (hown _ h) (wordIssue_faultsOk h)

/-! ### Every command -/

/-- Every command gives a next state, and one whose fault queues are within their depth where they were. -/
theorem exec_faultsOk (i : Instr) (s : State) : ∃ t, exec i s = .next t ∧ (s.faultsOk → t.faultsOk) := by
  cases i with
  | causewayDataFlit toComp sent got => exact ⟨_, rfl, fun h => dataFlit_faultsOk h⟩
  | causewayNak toComp good => exact ⟨_, rfl, fun h => causewayNak_faultsOk h⟩
  | causewayAck toComp => exact ⟨_, rfl, fun h => causewayAck_faultsOk h⟩
  | causewayAckTimeout toComp => exact ⟨_, rfl, fun h => ackTimeout_faultsOk h⟩
  | causewayTraining => exact ⟨_, rfl, fun h => training_faultsOk h⟩
  | causewayTrainingTimeout => exact ⟨_, rfl, fun h => trainingTimeout_faultsOk h⟩
  | timeSync copy22 copy23 => exact ⟨_, rfl, fun h => timeSync_faultsOk h⟩
  | tickAnnounceSend t first => exact ⟨_, rfl, fun h => announceSend_faultsOk h⟩
  | tickAnnouncement copy22 copy23 => exact ⟨_, rfl, fun h => tickAnnouncement_faultsOk h⟩
  | tickEdgeMessage copy22 copy23 => exact ⟨_, rfl, fun h => tickEdgeMessage_faultsOk h⟩
  | faultNotification copy22 copy23 => exact ⟨_, rfl, fun h => faultNotification_faultsOk h⟩
  | signalAcknowledgement ofFault copy22 copy23 => exact ⟨_, rfl, fun h => signalAck_faultsOk h⟩
  | signalRepeat ofFault => exact ⟨_, rfl, fun h => signalRepeat_faultsOk h⟩
  | announceAckDeadline t => exact ⟨_, rfl, fun h => announceDeadline_faultsOk h⟩
  | domainPowerDown d => exact ⟨_, rfl, fun h => domainDown_faultsOk h⟩
  | domainPowerUp d => exact ⟨_, rfl, fun h => domainUp_faultsOk h⟩
  | memoryAccess m bar a n wr x => exact ⟨_, rfl, fun h => memoryAccess_faultsOk h⟩
  | tickEdge t => exact ⟨_, rfl, fun h => ite_faultsOk (raiseDevice_faultsOk (atComp_faultsOk h)) (tickEdge_faultsOk h)⟩
  | itemOffsetStart idx t => exact ⟨_, rfl, fun h => ite_faultsOk (startDamaged_faultsOk h) (offsetStart_faultsOk h)⟩
  | itemChainedStart idx t => exact ⟨_, rfl, fun h => chainedStart_faultsOk h⟩
  | stagedWordIssue e => exact ⟨_, rfl, fun h => ite_faultsOk (wordDamaged_faultsOk h) (stagedIssue_faultsOk h)⟩
  | itemEnd idx t => exact ⟨_, rfl, fun h => itemEnd_faultsOk h⟩
  | deadlineMiss idx t => exact ⟨_, rfl, fun h => deadlineMiss_faultsOk h⟩
  | itemRunonLimit idx t => exact ⟨_, rfl, fun h => runonLimit_faultsOk h⟩
  | milestoneRecord t => exact ⟨_, rfl, fun h => milestoneRecord_faultsOk h⟩
  | tickCtlWrite m v => exact ⟨_, rfl, fun h => tickCtlWrite_faultsOk h⟩
  | tickNumLoRead m => exact ⟨_, rfl, fun h => gatedRead_faultsOk h (fun _ hu => tickLoRead_faultsOk hu)⟩
  | utilLoRead m k => exact ⟨_, rfl, fun h => gatedRead_faultsOk h (fun _ hu => utilLoRead_faultsOk hu)⟩
  | opbegin e w => exact ⟨_, rfl, fun h => asClass_faultsOk (fun _ hu => opbeginWord_faultsOk hu) h⟩
  | load e w => exact ⟨_, rfl, fun h => asClass_faultsOk (fun _ hu => loadWord_faultsOk hu) h⟩
  | loadComplete => exact ⟨_, rfl, fun h => loadComplete_faultsOk h⟩
  | stream e w => exact ⟨_, rfl, fun h => asClass_faultsOk (fun _ hu => streamWord_faultsOk hu) h⟩
  | fill e w => exact ⟨_, rfl, fun h => asClass_faultsOk (fun _ hu => fillWord_faultsOk hu) h⟩
  | fillRowArrive tgt => exact ⟨_, rfl, fun h => fillArrive_faultsOk (loadWaited_faultsOk h)⟩
  | safe e w => exact ⟨_, rfl, fun h => asClass_faultsOk (fun _ hu => safeWord_faultsOk hu) h⟩
  | opend e w => exact ⟨_, rfl, fun h => asClass_faultsOk (fun _ hu => opendWord_faultsOk hu) h⟩
  | operationEnd => exact ⟨_, rfl, fun h => operationEnd_faultsOk h⟩
  | tileCheck up => exact ⟨_, rfl, fun h => tileCheck_faultsOk h⟩
  | arrColRetireReq m v => exact ⟨_, rfl, fun h => retireReqWrite_faultsOk h⟩
  | retirementApply => exact ⟨_, rfl, fun h => retireApply_faultsOk h⟩
  | groupPowerUp g => exact ⟨_, rfl, fun h => faultsOk_mk h⟩
  | arrCtlWrite m v => exact ⟨_, rfl, fun h => arrCtlWrite_faultsOk h⟩
  | arrColcntWrite m v => exact ⟨_, rfl, fun h => colcntWrite_faultsOk h⟩
  | chain w => exact ⟨_, rfl, fun h => asClass_faultsOk (fun _ hu => chainWord_faultsOk hu) h⟩
  | drain w par => exact ⟨_, rfl, fun h => asClass_faultsOk (fun _ hu => drainWord_faultsOk hu) h⟩
  | commit w => exact ⟨_, rfl, fun h => asClass_faultsOk (fun _ hu => commitWord_faultsOk hu) h⟩
  | optstep w => exact ⟨_, rfl, fun h => asClass_faultsOk (fun _ hu => optstepWord_faultsOk hu) h⟩
  | reduceDeposit => exact ⟨_, rfl, fun h => reduceDeposit_faultsOk h⟩
  | drnCtlWrite m v => exact ⟨_, rfl, fun h => drnCtlWrite_faultsOk h⟩
  | mapStoreAccess m port crypt a len wr errs => exact ⟨_, rfl, fun h => mapStoreAccess_faultsOk h⟩
  | eccWriteBack row => exact ⟨_, rfl, fun h => eccWriteBack_faultsOk h⟩
  | mapPatrolScrub errs => exact ⟨_, rfl, fun h => mapPatrol_faultsOk h⟩
  | tilePatrolScrub errs => exact ⟨_, rfl, fun h => tilePatrol_faultsOk h⟩
  | remoteWrite m t w epoch row ws => exact ⟨_, rfl, fun h => remoteWriteCmd_faultsOk h⟩
  | creditRequest m t w n => exact ⟨_, rfl, fun h => creditRequest_faultsOk h⟩
  | creditGrant t w => exact ⟨_, rfl, fun h => creditGrant_faultsOk h⟩
  | creditReturn m t w k => exact ⟨_, rfl, fun h => returnCredits_faultsOk h⟩
  | creditTimeout t w => exact ⟨_, rfl, fun h => creditTimeout_faultsOk h⟩
  | revocation code t w => exact ⟨_, rfl, fun h => revocation_faultsOk h⟩
  | revocationAck code t w => exact ⟨_, rfl, fun h => revocationAck_faultsOk h⟩
  | windowOpenAccept t w => exact ⟨_, rfl, fun h => windowOpenAccept_faultsOk h⟩
  | winOpen e w => exact ⟨_, rfl, fun h => asClass_faultsOk (fun _ hu => winOpenWord_faultsOk hu) h⟩
  | winClose e w => exact ⟨_, rfl, fun h => asClass_faultsOk (fun _ hu => winCloseWord_faultsOk hu) h⟩
  | winRelease e w => exact ⟨_, rfl, fun h => asClass_faultsOk (fun _ hu => winReleaseWord_faultsOk hu) h⟩
  | crdWinctlOpen m => exact ⟨_, rfl, fun h => winCtl_faultsOk h⟩
  | crdWinctlClose m => exact ⟨_, rfl, fun h => winCtl_faultsOk h⟩
  | crdWinctlRelease m n => exact ⟨_, rfl, fun h => winCtl_faultsOk h⟩
  | nop e w => exact ⟨_, rfl, fun h => asClass_faultsOk (fun _ hu => nopWord_faultsOk hu) h⟩
  | agsetLo e w => exact ⟨_, rfl, fun h => asClass_faultsOk (fun _ hu => agsetLoWord_faultsOk hu) h⟩
  | agsetHi e w => exact ⟨_, rfl, fun h => asClass_faultsOk (fun _ hu => agsetHiWord_faultsOk hu) h⟩
  | sets e w => exact ⟨_, rfl, fun h => asClass_faultsOk (fun _ hu => setsWord_faultsOk hu) h⟩
  | kset e w => exact ⟨_, rfl, fun h => asClass_faultsOk (fun _ hu => ksetWord_faultsOk hu) h⟩
  | halt e w => exact ⟨_, rfl, fun h => asClass_faultsOk (fun _ hu => haltWord_faultsOk hu) h⟩
  | programEnd e => exact ⟨_, rfl, fun h => programEnd_faultsOk h⟩
  | cairnEnter e => exact ⟨_, rfl, fun h => cairnEnter_faultsOk h⟩
  | cairnWait e => exact ⟨_, rfl, fun h => cairnWait_faultsOk h⟩
  | engineHoldRelease e => exact ⟨_, rfl, fun h => holdRelease_faultsOk h⟩
  | hxrStartGo m e v => exact ⟨_, rfl, fun h => hxrStart_faultsOk h⟩
  | xfer e w => exact ⟨_, rfl, fun h => asClass_faultsOk (fun _ hu => xferWord_faultsOk hu) h⟩
  | dmaCopy e => exact ⟨_, rfl, fun h => dmaCopy_faultsOk h⟩
  | dmaTensor e => exact ⟨_, rfl, fun h => dmaTensor_faultsOk h⟩
  | dmaCsload e => exact ⟨_, rfl, fun h => dmaCsload_faultsOk h⟩
  | dmaSmall e => exact ⟨_, rfl, fun h => dmaSmall_faultsOk h⟩
  | bootPortDescriptor m raw => exact ⟨_, rfl, fun h => bootPortDescriptor_faultsOk h⟩
  | burstComplete e k => exact ⟨_, rfl, fun h => burstComplete_faultsOk h⟩
  | blockAuth e => exact ⟨_, rfl, fun h => blockAuth_faultsOk h⟩
  | xferComplete e => exact ⟨_, rfl, fun h => xferComplete_faultsOk h⟩
  | footpathAccess m a n wr x => exact ⟨_, rfl, fun h => footpathAccess_faultsOk h⟩
  | footpathTagGrant => exact ⟨_, rfl, fun h => tagGrant_faultsOk h⟩
  | stepSubmit q => exact ⟨_, rfl, fun h => stepSubmit_faultsOk h⟩
  | elasticStepStart t => exact ⟨_, rfl, fun h => stepStart_faultsOk h⟩
  | stepCompletion => exact ⟨_, rfl, fun h => stepCompletion_faultsOk h⟩
  | shareExpiry p t => exact ⟨_, rfl, fun h => shareExpiry_faultsOk h⟩
  | shapeEntry q t => exact ⟨_, rfl, fun h => shapeEntry_faultsOk h⟩
  | laybyLeadRequest t => exact ⟨_, rfl, fun h => leadRequest_faultsOk h⟩
  | lbyCmdEnter m => exact ⟨_, rfl, fun h => lbyCmdWrite_faultsOk h⟩
  | lbyCmdResume m p => exact ⟨_, rfl, fun h => lbyCmdWrite_faultsOk h⟩
  | laybyLate t => exact ⟨_, rfl, fun h => laybyLate_faultsOk h⟩
  | laybyEntryComplete par t => exact ⟨_, rfl, fun h => laybyEntry_faultsOk h⟩
  | laybyExitBegin t => exact ⟨_, rfl, fun h => laybyExitBegin_faultsOk h⟩
  | laybyExitComplete t => exact ⟨_, rfl, fun h => laybyExit_faultsOk h⟩
  | csiFrameStart port vc fn hdr t => exact ⟨_, rfl, fun h => csiFrameStart_faultsOk h⟩
  | csiLongPacket port vc dt d crcOk hdr => exact ⟨_, rfl, fun h => csiLongPacket_faultsOk h⟩
  | csiFrameEnd port vc hdr t => exact ⟨_, rfl, fun h => csiFrameEnd_faultsOk h⟩
  | csiPhyError port => exact ⟨_, rfl, fun h => ite_faultsOk (linkErr_faultsOk h) h⟩
  | rawReleaseNotice => exact ⟨_, rfl, fun h => releaseNotice_faultsOk h⟩
  | camCtlWrite m v => exact ⟨_, rfl, fun h => camCtlWrite_faultsOk h⟩
  | camWscmdPost m v => exact ⟨_, rfl, fun h => camWscmdPost_faultsOk h⟩
  | writeSetStart port t => exact ⟨_, rfl, fun h => writeSetStart_faultsOk h⟩
  | writeSetEntry port ack rd => exact ⟨_, rfl, fun h => writeSetEntry_faultsOk h⟩
  | i3cIbi port addr => exact ⟨_, rfl, fun h => ite_faultsOk (setF_faultsOk (setF_faultsOk h)) h⟩
  | triggerPulse n t => exact ⟨_, rfl, fun h => triggerPulse_faultsOk h⟩
  | triggerPulseEnd n t => exact ⟨_, rfl, fun h => triggerPulseEnd_faultsOk h⟩
  | ispCtxenWrite m v => exact ⟨_, rfl, fun h => ctxenWrite_faultsOk h⟩
  | ispFeedWrite m v => exact ⟨_, rfl, fun h => feedWrite_faultsOk h⟩
  | laneDispatch p => exact ⟨_, rfl, fun h => laneDispatch_faultsOk h⟩
  | lane e w => exact ⟨_, rfl, fun h => asClass_faultsOk (fun _ hu => laneWord_faultsOk hu) h⟩
  | ispOutputRow p => exact ⟨_, rfl, fun h => outputRow_faultsOk h⟩
  | disp e w => exact ⟨_, rfl, fun h => asClass_faultsOk (fun _ hu => dispWord_faultsOk hu) h⟩
  | crop e w => exact ⟨_, rfl, fun h => asClass_faultsOk (fun _ hu => cropWord_faultsOk hu) h⟩
  | codecJobStart k => exact ⟨_, rfl, fun h => codecStart_faultsOk h⟩
  | codecJobComplete k => exact ⟨_, rfl, fun h => codecComplete_faultsOk h⟩
  | dramBurst m r a len wr link ecc => exact ⟨_, rfl, fun h => dramBurst_faultsOk h⟩
  | skewWindow occ holders => exact ⟨_, rfl, fun h => skewWindow_faultsOk h⟩
  | rhWindowStart ch bank => exact ⟨_, rfl, fun h => rhWindow_faultsOk h⟩
  | dramTempRead t => exact ⟨_, rfl, fun h => tempRead_faultsOk h⟩
  | refreshDue ch bank busy => exact ⟨_, rfl, fun h => refreshDue_faultsOk h⟩
  | writeLinkPoll l => exact ⟨_, rfl, fun h => writeLinkPoll_faultsOk h⟩
  | drcCfgInit m v => exact ⟨_, rfl, fun h => ite_faultsOk (drcCfgWrite_faultsOk h) h⟩
  | dramTraining ok1 ok2 => exact ⟨_, rfl, fun h => dramTraining_faultsOk h⟩
  | drcTrnGo m v => exact ⟨_, rfl, fun h => ite_faultsOk (drcTrnWrite_faultsOk h) h⟩
  | drcTrnDone ch errors deskew => exact ⟨_, rfl, fun h => trnDone_faultsOk h⟩
  | scrubZero m base len => exact ⟨_, rfl, fun h => scrubZero_faultsOk h⟩
  | scrubZeroDone => exact ⟨_, rfl, fun h => scrubDone_faultsOk h⟩
  | dramPatrol errs => exact ⟨_, rfl, fun h => dramPatrol_faultsOk h⟩
  | linkChange p up => exact ⟨_, rfl, fun h => linkChange_faultsOk h⟩
  | netFrameReceive port tag d t => exact ⟨_, rfl, fun h => frameReceive_faultsOk h⟩
  | netHoldExpiry t => exact ⟨_, rfl, fun h => holdExpiry_faultsOk h⟩
  | netRxrelWrite m v => exact ⟨_, rfl, fun h => rxrelWrite_faultsOk h⟩
  | netTxEntry q qci t => exact ⟨_, rfl, fun h => txEntry_faultsOk h⟩
  | gvspLeader k block w height depth t => exact ⟨_, rfl, fun h => gvspLeader_faultsOk h⟩
  | gvspPayload k block pkt d => exact ⟨_, rfl, fun h => gvspPayload_faultsOk h⟩
  | gvspTrailer k block pkt t => exact ⟨_, rfl, fun h => gvspTrailer_faultsOk h⟩
  | gptpSync offset t => exact ⟨_, rfl, fun h => gptpSync_faultsOk h⟩
  | syncTimeout => exact ⟨_, rfl, fun h => syncTimeout_faultsOk h⟩
  | gclCycleStart port own => exact ⟨_, rfl, fun h => gclStart_faultsOk h⟩
  | mepHelloTimer t => exact ⟨_, rfl, fun h => helloTimer_faultsOk h⟩
  | mepHello b fcs t => exact ⟨_, rfl, fun h => mepHello_faultsOk h⟩
  | mepAdmit b fcs => exact ⟨_, rfl, fun h => mepAdmit_faultsOk h⟩
  | mepRefuse b fcs => exact ⟨_, rfl, fun h => mepRefuse_faultsOk h⟩
  | mepSchedule b fcs => exact ⟨_, rfl, fun h => mepSchedule_faultsOk h⟩
  | mepReport b fcs => exact ⟨_, rfl, fun h => mepReport_faultsOk h⟩
  | mepCollectDeadline t => exact ⟨_, rfl, fun h => collectDeadline_faultsOk h⟩
  | mepScheduleMissing t => exact ⟨_, rfl, fun h => scheduleMissing_faultsOk h⟩
  | mepMasterTakeover t => exact ⟨_, rfl, fun h => masterTakeover_faultsOk h⟩
  | mepArrive b fcs => exact ⟨_, rfl, fun h => mepArrive_faultsOk h⟩
  | netBarrecRegister m v => exact ⟨_, rfl, fun h => barrecWrite_faultsOk h⟩
  | netBarrecUnregister m v => exact ⟨_, rfl, fun h => barrecWrite_faultsOk h⟩
  | netBarrierWrite m v => exact ⟨_, rfl, fun h => barrierWrite_faultsOk h⟩
  | barrierTimeout k t => exact ⟨_, rfl, fun h => barrierTimeout_faultsOk h⟩
  | perstN low => exact ⟨_, rfl, fun h => perstN_faultsOk h⟩
  | flr g => exact ⟨_, rfl, fun h => fnReset_faultsOk h⟩
  | hifRingCfgWrite m g n v => exact ⟨_, rfl, fun h => ringCfgWrite_faultsOk h⟩
  | hifSqtailWrite m g n v => exact ⟨_, rfl, fun h => sqtailWrite_faultsOk h⟩
  | hifCqheadWrite m g n v => exact ⟨_, rfl, fun h => cqheadWrite_faultsOk h⟩
  | fhpHello g n c => exact ⟨_, rfl, fun h => fhp_faultsOk (fun _ hu => hello_faultsOk hu) h⟩
  | writeMem g n c data => exact ⟨_, rfl, fun h => fhp_faultsOk (fun _ hu => writeMem_faultsOk hu) h⟩
  | readMem g n c => exact ⟨_, rfl, fun h => fhp_faultsOk (fun _ hu => readMem_faultsOk hu) h⟩
  | loadContainer g n c data good keys => exact ⟨_, rfl, fun h => ite_faultsOk h (fhp_faultsOk (fun _ hu => loadContainer_faultsOk hu) h)⟩
  | unloadContainer g n c => exact ⟨_, rfl, fun h => fhp_faultsOk (fun _ hu => unloadContainer_faultsOk hu) h⟩
  | planAdd g n c data => exact ⟨_, rfl, fun h => fhp_faultsOk (fun _ hu => planAdd_faultsOk hu) h⟩
  | planActivate g n c => exact ⟨_, rfl, fun h => fhp_faultsOk (fun _ hu => planSrc_faultsOk hu (fun _ hu => planReply_faultsOk
      (activatePlan_faultsOk hu))) h⟩
  | planRemove g n c => exact ⟨_, rfl, fun h => fhp_faultsOk (fun _ hu => planSrc_faultsOk hu (fun _ hu => planReply_faultsOk (removePlan_faultsOk
      hu))) h⟩
  | gclSet g n c data => exact ⟨_, rfl, fun h => fhp_faultsOk (fun _ hu => gclSet_faultsOk hu) h⟩
  | queuePost g n c => exact ⟨_, rfl, fun h => fhp_faultsOk (fun _ hu => queuePost_faultsOk hu) h⟩
  | milestoneRing g n c => exact ⟨_, rfl, fun h => fhp_faultsOk (fun _ hu => milestoneRing_faultsOk hu) h⟩
  | modeSet g n c => exact ⟨_, rfl, fun h => fhp_faultsOk (fun _ hu => modeSet_faultsOk hu) h⟩
  | faultRead g n c => exact ⟨_, rfl, fun h => fhp_faultsOk (fun _ hu => faultRead_faultsOk hu) h⟩
  | faultResume g n c => exact ⟨_, rfl, fun h => fhp_faultsOk (fun _ hu => faultResume_faultsOk hu) h⟩
  | hifEvent q => exact ⟨_, rfl, fun h => hifEvent_faultsOk h⟩
  | triageTimeout p t => exact ⟨_, rfl, fun h => triageTimeout_faultsOk h⟩
  | damperUpdate p vin rails cyc lost sa sh => exact ⟨_, rfl, fun h => damperUpdate_faultsOk h⟩
  | powerWindow avg stretched t => exact ⟨_, rfl, fun h => powerWindow_faultsOk h⟩
  | droopDetect d => exact ⟨_, rfl, fun h => droopDetect_faultsOk h⟩
  | droopRecover d => exact ⟨_, rfl, fun h => droopRecover_faultsOk h⟩
  | voltageStep rail t => exact ⟨_, rfl, fun h => voltageStep_faultsOk h⟩
  | aclkChange t => exact ⟨_, rfl, fun h => aclkChange_faultsOk h⟩
  | availWindow d => exact ⟨_, rfl, fun h => availWindow_faultsOk h⟩
  | thermalSample temps t => exact ⟨_, rfl, fun h => thermalSample_faultsOk h⟩
  | thermalCapStep t => exact ⟨_, rfl, fun h => thermalCapStep_faultsOk h⟩
  | vinSample mv t => exact ⟨_, rfl, fun h => vinSample_faultsOk h⟩
  | emberEnter m v => exact ⟨_, rfl, fun h => kilnEmberWrite_faultsOk h⟩
  | emberWake src good t => exact ⟨_, rfl, fun h => emberWake_faultsOk h⟩
  | powerOn part => exact ⟨_, rfl, fun _ => powerOn_faultsOk⟩
  | resetN low part => exact ⟨_, rfl, fun h => resetN_faultsOk h⟩
  | computeDieRestart => exact ⟨_, rfl, fun h => compRestart_faultsOk h⟩
  | updStart m len digest signed svn comps => exact ⟨_, rfl, fun h => updCmdWrite_faultsOk h⟩
  | updateComplete ok => exact ⟨_, rfl, fun h => updateComplete_faultsOk h⟩
  | healthy m len => exact ⟨_, rfl, fun h => updCmdWrite_faultsOk h⟩
  | confirm m len => exact ⟨_, rfl, fun h => updCmdWrite_faultsOk h⟩
  | recChunk m len last digest signed good svn comps => exact ⟨_, rfl, fun h => updCmdWrite_faultsOk h⟩
  | create m p => exact ⟨_, rfl, fun h => partCmdWrite_faultsOk h⟩
  | loadFw m p ok => exact ⟨_, rfl, fun h => partCmdWrite_faultsOk h⟩
  | partStart m p => exact ⟨_, rfl, fun h => partCmdWrite_faultsOk h⟩
  | teardown m p => exact ⟨_, rfl, fun h => partCmdWrite_faultsOk h⟩
  | teardownComplete => exact ⟨_, rfl, fun h => teardownDone_faultsOk h⟩
  | cycleQuarter m q => exact ⟨_, rfl, fun h => partCmdWrite_faultsOk h⟩
  | debugChallenge => exact ⟨_, rfl, fun h => debugChallenge_faultsOk h⟩
  | debugResponse ok => exact ⟨_, rfl, fun h => debugResponse_faultsOk h⟩
  | attestationRequest m => exact ⟨_, rfl, fun h => attRequest_faultsOk h⟩
  | attestationDone p => exact ⟨_, rfl, fun h => attDone_faultsOk h⟩
  | fltTake m src => exact ⟨_, rfl, fun h => ite_faultsOk (gated_faultsOk h (fun _ hu => recordDamaged_faultsOk hu)) (fltCmd_faultsOk h)⟩
  | fltDone m port => exact ⟨_, rfl, fun h => fltCmd_faultsOk h⟩
  | fltKick m port => exact ⟨_, rfl, fun h => fltCmd_faultsOk h⟩
  | fltRestart m port => exact ⟨_, rfl, fun h => fltCmd_faultsOk h⟩
  | watchdogExpiry t => exact ⟨_, rfl, fun h => watchdogExpiry_faultsOk h⟩
  | rtLockstep => exact ⟨_, rfl, fun h => rtLockstep_faultsOk h⟩
  | billetEnd res cols corrected => exact ⟨_, rfl, fun h => billetEnd_faultsOk h⟩
  | registerWrite m port b o v x => exact ⟨_, rfl, fun h => handlerFault_faultsOk (writeReg_faultsOk h)⟩
  | csiSyncChange port up => exact ⟨_, rfl, fun h => csiSyncChange_faultsOk h⟩
  | dramRetrainOverdue ch => exact ⟨_, rfl, fun h => raise_faultsOk (h := h) ..⟩
  | modAbsChange port low => exact ⟨_, rfl, fun h => modAbsChange_faultsOk h⟩
  | vmodOvercurrent port => exact ⟨_, rfl, fun h => vmodOvercurrent_faultsOk h⟩
  | pcieLinkTrained => exact ⟨_, rfl, fun h => linkTrained_faultsOk h⟩
  | commandCompletion g n => exact ⟨_, rfl, fun h => complete_faultsOk h⟩
  | emberEntryComplete t => exact ⟨_, rfl, fun h => emberEntered_faultsOk h⟩
  | tickReady => exact ⟨_, rfl, fun h => tickReady_faultsOk h⟩
  | hostTrainingTimeout => exact ⟨_, rfl, fun h => hostTrainingTimeout_faultsOk h⟩
  | pair1LockstepMismatch => exact ⟨_, rfl, fun h => doubleFault_faultsOk h⟩
  | ppsOutPulse t => exact ⟨_, rfl, fun h => ppsPulse_faultsOk h⟩

/-- Settles O57, by what each command does: a queue grows only by a raised fault's record, for which `fltPush` makes room. -/
theorem everyStepKeepsTheFaultQueues : Obligations.EveryStepKeepsTheFaultQueues := by
  unfold Obligations.EveryStepKeepsTheFaultQueues
  intro s t h hstep
  unfold step at hstep
  split at hstep
  · cases hstep
    exact h
  · next c rest _ =>
    obtain ⟨u, hexec, hu⟩ := exec_faultsOk c { s with pending := rest }
    rw [hexec] at hstep
    cases hstep
    exact hu h

/-- Settles O59: `step` is a case for each form of the queue, and every arm of `exec` answers a next state. -/
theorem stepRunsTheFrontCommand : Obligations.StepRunsTheFrontCommand := by
  unfold Obligations.StepRunsTheFrontCommand
  refine ⟨fun s c rest h => ?_, fun s h => ?_, fun c s => ?_⟩
  · simp only [step, h]
  · simp only [step, h]
  · obtain ⟨t, hexec, -⟩ := exec_faultsOk c s
    exact ⟨t, hexec⟩

end Sys2Proof.FaultLaws
end

section
/-! What raising a fault does to its die's queue, to the registers and to the handler (R483 to R485). -/

namespace Sys2Proof.RaiseLaws

open Sys2Proof Sys2Proof.Machine

/-! ### A queue of 32 records (R484) -/

theorem fltPush_room {q : List FaultRec} (r : FaultRec) (h : q.length < 32) : fltPush q r = (q ++ [r], false) := if_pos h

theorem fltPush_low {q : List FaultRec} {r : FaultRec} (h : 32 ≤ q.length) (hr : r.cls ≤ 1) : fltPush q r = (q, true) := by
  simp only [fltPush, if_neg (Nat.not_lt.mpr h), if_pos hr]

/-- A record of a higher class displaces the youngest of the low classes. -/
theorem fltPush_displaces {l1 l2 : List FaultRec} {x r : FaultRec} (h : 32 ≤ (l1 ++ x :: l2).length) (hr : 2 ≤ r.cls) (hx : x.cls ≤ 1)
    (hl : ∀ y ∈ l2, 2 ≤ y.cls) : fltPush (l1 ++ x :: l2) r = (l1 ++ l2 ++ [r], true) := by
  have hnone : l2.reverse.findIdx? (fun y => decide (y.cls ≤ 1)) = none := by
    rw [List.findIdx?_eq_none_iff]
    intro y hy
    have := hl y (List.mem_reverse.mp hy)
    simpa using by omega
  have hfind : (l2.reverse ++ x :: l1.reverse).findIdx? (fun y => decide (y.cls ≤ 1)) = some l2.length := by
    simp [List.findIdx?_append, hnone, List.findIdx?_cons, hx]
  have hrev : (l1 ++ x :: l2).reverse = l2.reverse ++ x :: l1.reverse := by simp
  simp only [fltPush, if_neg (Nat.not_lt.mpr h), if_neg (Nat.not_le.mpr hr), hrev, hfind]
  rw [List.eraseIdx_append_of_length_le (by simp)]
  simp

theorem fltPush_drops {q : List FaultRec} {r : FaultRec} (h : 32 ≤ q.length) (hr : 2 ≤ r.cls) (hq : ∀ y ∈ q, 2 ≤ y.cls) :
    fltPush q r = (q, true) := by
  have hnone : q.reverse.findIdx? (fun y => decide (y.cls ≤ 1)) = none := by
    rw [List.findIdx?_eq_none_iff]
    intro y hy
    have := hq y (List.mem_reverse.mp hy)
    simpa using by omega
  simp only [fltPush, if_neg (Nat.not_lt.mpr h), if_neg (Nat.not_le.mpr hr), hnone]

/-- A full queue loses a record with every record that comes. -/
theorem fltPush_full {q : List FaultRec} (r : FaultRec) (h : 32 ≤ q.length) : (fltPush q r).2 = true := by
  unfold fltPush
  rw [if_neg (Nat.not_lt.mpr h)]
  split
  · rfl
  · dsimp only
    split <;> rfl

/-! ### A die's fault unit -/

theorem fltDie_holdCompute (s : State) (p : Bool) : fltDie (holdCompute s) p = fltDie s p := by cases p <;> rfl

theorem fltDie_saveOne (s : State) (r : FaultRec) (p : Bool) : fltDie (saveOne s r) p = fltDie s p := by simp only [fltDie, saveOne_flt]

theorem fltLost_flt (s : State) (p l : Bool) : (fltLost s p l).flt = s.flt := by unfold fltLost; split <;> rfl

theorem interrupt_comp (s : State) : (interrupt s).flt.comp = s.flt.comp := by unfold interrupt; split <;> rfl

/-- A record that enters a queue changes no more of its die's fault unit. -/
theorem fltDie_fltEnqueue (s : State) (port : Bool) (r : FaultRec) :
    fltDie (fltEnqueue s port r) port = { fltDie s port with queue := (fltPush (fltDie s port).queue r).1 } := by
  cases port with
  | false =>
    simp only [fltEnqueue, fltDie, Bool.false_eq_true, if_false]
    rw [interrupt_comp, (triage_same _ _).2.1, fltLost_flt]
  | true => simp only [fltEnqueue, fltDie, if_true, fltLost_flt]

theorem fltDie_fltCount (s : State) (port : Bool) :
    fltDie (fltCount s port) port = { fltDie s port with seq := ((fltDie s port).seq + 1) % 2 ^ 32 } := by cases port <;> rfl

theorem fltDie_fltCount_other (s : State) (port : Bool) : fltDie (fltCount s port) (!port) = fltDie s (!port) := by cases port <;> rfl

section
variable (s : State) (port : Bool) (code cls : Nat) (part : Option Nat) (block item : Nat) (detail : List Nat)

/-- Of both dies' queues a raised fault changes what its record's entry changes. -/
theorem fltDie_raise (p : Bool) : fltDie (raise s port code cls part block item detail) p =
    fltDie (fltEnqueue (fltCount s port) port (mkRec s port code cls part block item detail)) p := by
  unfold raise
  dsimp only
  split
  · rw [fltDie_holdCompute, fltDie_saveOne]
  · rfl

theorem raise_die : fltDie (raise s port code cls part block item detail) port =
    { fltDie s port with queue := (fltPush (fltDie s port).queue (mkRec s port code cls part block item detail)).1,
                         seq := ((fltDie s port).seq + 1) % 2 ^ 32 } := by
  rw [fltDie_raise, fltDie_fltEnqueue, fltDie_fltCount]

theorem raise_otherDie : fltDie (raise s port code cls part block item detail) (!port) = fltDie s (!port) := by
  rw [fltDie_raise, (fltEnqueue_same _ _ _).2.2.1, fltDie_fltCount_other]

/-- With room the record goes to the end of its die's queue. -/
theorem raise_queue (h : (fltDie s port).queue.length < 32) : (fltDie (raise s port code cls part block item detail) port).queue =
    (fltDie s port).queue ++ [mkRec s port code cls part block item detail] := by
  rw [raise_die, fltPush_room _ h]

end

/-! ### The registers -/

theorem postEvent_regs (s : State) (g : Nat) (d : Bytes) (c : Bool) : (postEvent s g d c).regs = s.regs := by
  unfold postEvent
  split
  · unfold postCqe
    dsimp only
    split
    · rfl
    · split <;> rfl
  · rfl

theorem laybyRequest_regs (s : State) : (laybyRequest s).regs = s.regs := by
  unfold laybyRequest
  split
  · rfl
  · split
    · rfl
    · split <;> rfl

theorem laybyRequest_ite_regs (c : Prop) [Decidable c] (s : State) : (if c then laybyRequest s else s).regs = s.regs := by
  split
  · exact laybyRequest_regs s
  · rfl

theorem getF_of_regs {s t : State} (h : t.regs = s.regs) (x : Fld) : getF t x = getF s x :=
  congrArg (fun regs => tabGet regs x.key x.reset) h

/-- Triage marks the paused partition in DEVSTAT, and writes no other field (R417). -/
theorem getF_triage (s : State) (r : FaultRec) {x : Fld} (hx : x.key ≠ F.HIF_DEVSTAT_PAUSED.key) : getF (triage s r) x = getF s x := by
  unfold triage
  split
  · rfl
  · split
    · refine (getF_of_regs (postEvent_regs _ _ _ _) x).trans ((getF_of_regs (laybyRequest_ite_regs _ _) x).trans ?_)
      exact getF_setF_ne _ _ _ _ hx
    · rfl

theorem getF_interrupt (s : State) (x : Fld) : getF (interrupt s) x = getF s x := by
  unfold interrupt
  split <;> rfl

/-- The fields that a lost record, triage and a held compute die write. -/
def faultFields (port : Bool) : List Fld := [F.FLT_STAT_FAULT_LOST port, F.FLT_STAT_LOST_COUNT port, F.HIF_DEVSTAT_PAUSED, F.HIF_DEVSTAT_BOOT]

theorem getF_holdCompute (s : State) {x : Fld} (hx : x.key ≠ F.HIF_DEVSTAT_BOOT.key) : getF (holdCompute s) x = getF s x :=
  getF_setF_ne s _ x _ hx

theorem getF_saveOne (s : State) (r : FaultRec) (x : Fld) : getF (saveOne s r) x = getF s x := by
  unfold saveOne
  dsimp only
  split <;> rfl

/-- Beyond triage's and Emino's marks a raised fault writes what a lost record writes. -/
theorem getF_raise (s : State) (port : Bool) (code cls : Nat) (part : Option Nat) (block item : Nat) (detail : List Nat) {x : Fld}
    (hp : x.key ≠ F.HIF_DEVSTAT_PAUSED.key) (hb : x.key ≠ F.HIF_DEVSTAT_BOOT.key) : getF (raise s port code cls part block item detail) x =
    getF (fltLost s port (fltPush (fltDie s port).queue (mkRec s port code cls part block item detail)).2) x := by
  have hlost : ∀ (u : State) (l : Bool), u.regs = s.regs → getF (fltLost u port l) x = getF (fltLost s port l) x := by
    intro u l hu
    cases l
    · exact congrArg (fun t => tabGet t x.key x.reset) hu
    · simp only [fltLost, if_true, bump, setF, getF, hu]
  have henq : ∀ r, getF (fltEnqueue (fltCount s port) port r) x = getF (fltLost s port (fltPush (fltDie s port).queue r).2) x := by
    intro r
    cases port with
    | false =>
      simp only [fltEnqueue, Bool.false_eq_true, if_false]
      rw [getF_interrupt, getF_triage _ _ hp]
      exact hlost _ _ rfl
    | true =>
      simp only [fltEnqueue, if_true]
      exact hlost _ _ rfl
  unfold raise
  dsimp only
  split
  · rw [getF_holdCompute _ hb, getF_saveOne, henq]
  · exact henq _

/-- A field outside those of a fault reads as before. -/
theorem getF_raise_ne (s : State) (port : Bool) (code cls : Nat) (part : Option Nat) (block item : Nat) (detail : List Nat) {x : Fld}
    (hx : ∀ y ∈ faultFields port, x.key ≠ y.key) : getF (raise s port code cls part block item detail) x = getF s x := by
  simp only [faultFields, List.mem_cons, List.not_mem_nil, or_false, forall_eq_or_imp, forall_eq] at hx
  obtain ⟨hlost, hcount, hpaused, hboot⟩ := hx
  rw [getF_raise _ _ _ _ _ _ _ _ hpaused hboot]
  unfold fltLost
  split
  · exact (getF_setF_ne _ _ _ _ hcount).trans (getF_setF_ne _ _ _ _ hlost)
  · rfl

theorem lostFields_ne (port : Bool) : (F.FLT_STAT_FAULT_LOST port).key ≠ (F.FLT_STAT_LOST_COUNT port).key ∧
    (F.FLT_STAT_FAULT_LOST port).key ≠ F.HIF_DEVSTAT_PAUSED.key ∧ (F.FLT_STAT_FAULT_LOST port).key ≠ F.HIF_DEVSTAT_BOOT.key ∧
    (F.FLT_STAT_LOST_COUNT port).key ≠ F.HIF_DEVSTAT_PAUSED.key ∧ (F.FLT_STAT_LOST_COUNT port).key ≠ F.HIF_DEVSTAT_BOOT.key := by
  cases port <;> decide

theorem getF_lost_raise (s : State) (port : Bool) (code cls : Nat) (part : Option Nat) (block item : Nat) (detail : List Nat)
    (h : 32 ≤ (fltDie s port).queue.length) :
    getF (raise s port code cls part block item detail) (F.FLT_STAT_FAULT_LOST port) = 1 ∧
    getF (raise s port code cls part block item detail) (F.FLT_STAT_LOST_COUNT port) = min (getF s (F.FLT_STAT_LOST_COUNT port) + 1) 65535 := by
  obtain ⟨hne, hlp, hlb, hcp, hcb⟩ := lostFields_ne port
  rw [getF_raise _ _ _ _ _ _ _ _ hlp hlb, getF_raise _ _ _ _ _ _ _ _ hcp hcb, fltPush_full _ h]
  simp only [fltLost, if_true, bump, getF_setF_ne _ _ _ _ hne, getF_setF_same, getF_setF_ne _ _ _ _ hne.symm]
  exact ⟨rfl, Nat.mod_eq_of_lt (Nat.lt_of_le_of_lt (Nat.min_le_right _ _) (Nat.sub_lt (Nat.two_pow_pos _) Nat.one_pos))⟩

/-! ### The handler (R485) -/

theorem triage_off {s : State} (h : getF s F.HIF_TRIAGE_PART = 0) (r : FaultRec) : triage s r = s := by
  unfold triage
  split
  · rfl
  · rw [if_neg]
    simp [h, bitOf]

/-- A queued record of a class above the one being handled interrupts an idle handler. -/
theorem interrupt_interrupted {s : State} {r : FaultRec} (hidle : s.flt.interrupted = false) (hpaused : s.hif.paused = [])
    (hr : r ∈ s.flt.comp.queue) (hcls : handlingCode s < r.cls + 1) : (interrupt s).flt.interrupted = true := by
  have hhost : hostHas s r = false := by simp [hostHas, hpaused]
  unfold interrupt
  rw [if_pos ⟨hidle, List.any_eq_true.mpr ⟨r, hr, by simp [hhost, hcls]⟩⟩]

theorem holdCompute_interrupted (s : State) : (holdCompute s).flt.interrupted = s.flt.interrupted := rfl

/-- With no partition under triage a record that enters the queue interrupts the handler where its class is above the one being handled. -/
theorem fltEnqueue_interrupts {s : State} {r : FaultRec} (hpaused : s.hif.paused = []) (hno : getF s F.HIF_TRIAGE_PART = 0)
    (hroom : s.flt.comp.queue.length < 32) (hidle : s.flt.interrupted = false) (hcls : handlingCode s < r.cls + 1) :
    (fltEnqueue s false r).flt.interrupted = true := by
  simp only [fltEnqueue, Bool.false_eq_true, if_false, fltPush_room r hroom, fltLost]
  rw [triage_off (by exact hno)]
  exact interrupt_interrupted (r := r) hidle hpaused (by simp) hcls

theorem raise_interrupts (s : State) (code cls : Nat) (part : Option Nat) (block item : Nat) (detail : List Nat) (hpaused : s.hif.paused = [])
    (hno : getF s F.HIF_TRIAGE_PART = 0) (hroom : s.flt.comp.queue.length < 32) (hidle : s.flt.interrupted = false)
    (hcls : handlingCode s < cls + 1) : (raise s false code cls part block item detail).flt.interrupted = true := by
  have henq : (fltEnqueue (fltCount s false) false (mkRec s false code cls part block item detail)).flt.interrupted = true :=
    fltEnqueue_interrupts hpaused hno hroom hidle hcls
  unfold raise
  dsimp only
  split
  · rw [holdCompute_interrupted, saveOne_flt]
    exact henq
  · exact henq

/-- Settles O56: each clause is read off what the entry of a record does to a queue, `fltPush`, by whether there is room. -/
theorem faultQueuesKeepTheirOrder : Obligations.FaultQueuesKeepTheirOrder := by
  unfold Obligations.FaultQueuesKeepTheirOrder
  intro s port code cls block item part detail r hr
  subst hr
  refine ⟨rfl, rfl, rfl, rfl, rfl, rfl, rfl, rfl, ?_⟩
  rintro t rfl
  have hq := congrArg FltDie.queue (raise_die s port code cls part block item detail)
  refine ⟨congrArg FltDie.queue (raise_otherDie ..), congrArg FltDie.seq (raise_die ..), ?room, getF_lost_raise s port code cls part block item detail,
    ?low, ?displaces, ?drops, ?interrupts⟩
  case room =>
    intro hroom
    obtain ⟨-, hlp, hlb, hcp, hcb⟩ := lostFields_ne port
    refine ⟨raise_queue s port code cls part block item detail hroom, ?_, ?_⟩
    · rw [getF_raise _ _ _ _ _ _ _ _ hlp hlb, fltPush_room _ hroom]
      rfl
    · rw [getF_raise _ _ _ _ _ _ _ _ hcp hcb, fltPush_room _ hroom]
      rfl
  case low => exact fun hfull hcls => hq.trans (congrArg Prod.fst (fltPush_low hfull hcls))
  case displaces =>
    intro l1 x l2 hfull hcls hl hx hyoung
    rw [hl] at hq hfull
    exact hq.trans (congrArg Prod.fst (fltPush_displaces hfull hcls hx hyoung))
  case drops => exact fun hfull hcls hall => hq.trans (congrArg Prod.fst (fltPush_drops hfull hcls hall))
  case interrupts =>
    rintro rfl hpaused hno hroom hidle hcode
    exact raise_interrupts s code cls part block item detail hpaused hno hroom hidle hcode

end Sys2Proof.RaiseLaws
end

section
/-! An access to an offset that no register occupies (R508). -/

namespace Sys2Proof.UnassignedLaws

open Sys2Proof Sys2Proof.Machine

/-! ### The register-event log (R36) -/

/-- An entry of the log touches the registers, the log and its cursor. -/
theorem rlogAdd_same (s : State) (addr : Nat) (m : Master) (reason data : Nat) :
    { rlogAdd s addr m reason data with regs := s.regs, rlog := s.rlog, rlogHead := s.rlogHead } = s := by
  unfold rlogAdd
  by_cases h : (tabGet s.rlog s.rlogHead none).isSome = true
  · simp only [h, if_true]
    rfl
  · simp only [h, if_false]
    rfl

/-- The entry that the log takes stands at the cursor. -/
theorem rlogAdd_entry (s : State) (addr : Nat) (m : Master) (reason data : Nat) :
    tabGet (rlogAdd s addr m reason data).rlog s.rlogHead none =
      some { addr := addr, master := m.code, part := m.part, priv := m.priv || m.secure, reason := reason, data := data % 2 ^ 32,
             time := s.timeC % 2 ^ 32 } := by
  unfold rlogAdd
  by_cases h : (tabGet s.rlog s.rlogHead none).isSome = true
  · simp only [h, if_true]
    exact tabGet_tabPut_same _ _ _ _
  · simp only [h, if_false]
    exact tabGet_tabPut_same _ _ _ _

/-! ### The flag and its entry -/

theorem unassigned_key_ne_wrapped (p : Bool) (b : Nat) : (F.BLK_EVT_UNASSIGNED p b).key ≠ F.RLOG_STAT_WRAPPED.key := by
  cases p <;> simp only [Fld.key, F.BLK_EVT_UNASSIGNED, F.RLOG_STAT_WRAPPED, Reg.BLK_EVT, Reg.RLOG_STAT, blkBase] <;> simp <;> omega

theorem unassigned_key_ne_count (p : Bool) (b : Nat) : (F.BLK_EVT_UNASSIGNED p b).key ≠ F.RLOG_STAT_COUNT.key := by
  cases p <;> simp only [Fld.key, F.BLK_EVT_UNASSIGNED, F.RLOG_STAT_COUNT, Reg.BLK_EVT, Reg.RLOG_STAT, blkBase] <;> simp <;> omega

theorem getF_unassigned_flag (s : State) (p : Bool) (b o : Nat) (m : Master) (reason data : Nat) :
    getF (unassigned s p b o m reason data) (F.BLK_EVT_UNASSIGNED p (evtBlock p b)) = 1 := by
  unfold unassigned
  rw [TickLaws.getF_rlogAdd _ _ _ _ _ _ (unassigned_key_ne_wrapped _ _) (unassigned_key_ne_count _ _), getF_setF_same]
  rfl

theorem getF_unassigned_ne (s : State) (p : Bool) (b o : Nat) (m : Master) (reason data : Nat) {y : Fld}
    (hy : y.key ≠ (F.BLK_EVT_UNASSIGNED p (evtBlock p b)).key) (hw : y.key ≠ F.RLOG_STAT_WRAPPED.key) (hc : y.key ≠ F.RLOG_STAT_COUNT.key) :
    getF (unassigned s p b o m reason data) y = getF s y :=
  (TickLaws.getF_rlogAdd _ _ _ _ _ _ hw hc).trans (getF_setF_ne _ _ _ _ hy)

theorem unassigned_same (s : State) (p : Bool) (b o : Nat) (m : Master) (reason data : Nat) :
    { unassigned s p b o m reason data with regs := s.regs, rlog := s.rlog, rlogHead := s.rlogHead } = s :=
  congrArg (fun t : State => { t with regs := s.regs }) (rlogAdd_same (setF s (F.BLK_EVT_UNASSIGNED p (evtBlock p b)) 1) (blkBase p b + o) m reason data)

theorem unassigned_flt (s : State) (p : Bool) (b o : Nat) (m : Master) (reason data : Nat) : (unassigned s p b o m reason data).flt = s.flt :=
  (congrArg State.flt (unassigned_same s p b o m reason data) :)

/-- An access that raises no fault costs the handler nothing (R489). -/
theorem handlerFault_of_flt {s t : State} (m : Master) (h : t.flt = s.flt) : handlerFault m s t = t := by
  unfold handlerFault
  rw [if_neg]
  rintro ⟨-, -, hseq, -⟩
  exact hseq (by rw [h])

theorem answer_flt (s : State) (bs : Bytes) (err : Bool) : (answer s bs err).flt = s.flt := rfl

theorem leBytes_four_zero : leBytes 4 0 = [0, 0, 0, 0] := rfl

/-! ### The gate -/

section
variable {s : State} {m : Master} {p : Bool} {b o : Nat}

/-- Past the windows, the header and the block's power, an access within the master's reach that meets no register is unassigned. -/
theorem accGate_unassigned (hslot : emptySlot p b o = false) (hheld : heldBack s p m = false)
    (hpow : ∀ d, regDomain p b o = some d → powered s d = true) (hreach : regReach p b o m = true) (hnone : fieldsAt p b o = none)
    (wr : Bool) (v : Nat) : accGate s p b o m wr v = .refused (unassigned s p b o m 4 v) := by
  have hdom : (regDomain p b o).any (fun d => !powered s d) = false := by
    cases h : regDomain p b o with
    | none => rfl
    | some d => simp [hpow d h]
  simp [accGate, hslot, hheld, hdom, hreach, hnone]

/-- A block whose domain is off is unreachable. -/
theorem accGate_off {d : Nat} (hslot : emptySlot p b o = false) (hheld : heldBack s p m = false) (hdom : regDomain p b o = some d)
    (hoff : powered s d = false) (wr : Bool) (v : Nat) : accGate s p b o m wr v = .refused (unreachable s m 1 (blkBase p b + o)) := by
  simp [accGate, hslot, hheld, hdom, hoff]

theorem writeReg_plain {v : Nat} {x : Found} (hb : blockIs p b = true) (hown : (if p then portOwn b o m v x else compOwn b o m v) = none) :
    writeReg s p b o m v x = gated s p b o m v (plainWrite p b o m v) := by
  simp [writeReg, hb, hown]

theorem gated_refused {u : State} {v : Nat} (h : regGate s p b o m v = .refused u) (act : State → State) : gated s p b o m v act = u := by
  simp [gated, h]

theorem registerWrite_eq {v : BitVec 32} {x : Found} (ho : o < 0x10000) :
    exec (.registerWrite m p b o v x) s = .next (handlerFault m s (writeReg s p b o m v.toNat x)) := by
  show Host.Outcome.next (handlerFault m s (writeReg s p b (o % 0x10000) m v.toNat x)) = _
  rw [Nat.mod_eq_of_lt ho]

/-! ### The map -/

/-- The address of a register leads to its block and offset (R33). -/
theorem region_block (hb : blockIs p b = true) (ho : o < 0x10000) :
    region (blkBase p b + o) = if p then .portReg b o else .compReg b o := by
  cases p with
  | false =>
    have hb : b < 21 := by simpa [blockIs] using hb
    have hdiv : (blkBase false b + o - 0x002000000000) / 0x10000 = b := by simp only [blkBase]; simp; omega
    have hmod : (blkBase false b + o) % 0x10000 = o := by simp only [blkBase]; simp; omega
    have hlo : blkBase false b + o = 0x002000000000 + (b * 0x10000 + o) := by simp [blkBase]; omega
    rw [region, hdiv, hmod, hlo]
    unfold mapBase tileBase csAddr
    rw [if_neg (by omega), if_neg (by omega), if_neg (by omega), if_neg (by omega), if_pos (by omega)]
    rfl
  | true =>
    have hb : b < 7 := by simpa [blockIs] using hb
    have hdiv : (blkBase true b + o - 0x002800000000) / 0x10000 = b := by simp only [blkBase]; simp; omega
    have hmod : (blkBase true b + o) % 0x10000 = o := by simp only [blkBase]; simp; omega
    have hlo : blkBase true b + o = 0x002800000000 + (b * 0x10000 + o) := by simp [blkBase]; omega
    rw [region, hdiv, hmod, hlo]
    unfold mapBase tileBase csAddr
    rw [if_neg (by omega), if_neg (by omega), if_neg (by omega), if_neg (by omega), if_neg (by omega), if_pos (by omega)]
    rfl

theorem natural_four {a : Nat} (h : a % 4 = 0) : natural a 4 = true := by simp [natural, h]

theorem outOfReach_register {a : Nat} (hreg : region a = if p then .portReg b o else .compReg b o) : outOfReach s m a = heldBack s p m := by
  cases p <;> simp [outOfReach, hreg]

/-- A read of one register's four bytes is one access to that register (R502). -/
theorem route_read_register (hb : blockIs p b = true) (ho : o < 0x10000) (h4 : o % 4 = 0) (hheld : heldBack s p m = false) (x : Found) :
    route s m (blkBase p b + o) 4 none x = answer (readReg s p b o m).1 (leBytes 4 (readReg s p b o m).2) false := by
  have hreg := region_block hb ho
  have hnat : natural (blkBase p b + o) 4 = true := natural_four (by cases p <;> simp [blkBase] <;> omega)
  have hone : regAccess s p b o m 4 none x = answer (readReg s p b o m).1 (leBytes 4 (readReg s p b o m).2) false := by
    have hcov : regsCovered o 4 = [o] := by
      have : (o + 4 + 3) / 4 - o / 4 = 1 := by omega
      simp [regsCovered, this]
      omega
    simp [regAccess, hcov, regsRead, h4]
    rfl
  unfold route
  rw [outOfReach_register hreg, hheld, hreg]
  cases p <;> simp [hnat, hone]

theorem readReg_unassigned (h : accGate s p b o m false 0 = .refused (unassigned s p b o m 4 0)) :
    readReg s p b o m = (unassigned s p b o m 4 0, 0) := by
  simp [readReg, readVia, h]

end

/-- Settles O55: the gate of the access refuses it as unassigned, which sets the flag and adds the entry. -/
theorem unassignedOffsetsAreFlagged : Obligations.UnassignedOffsetsAreFlagged := by
  unfold Obligations.UnassignedOffsetsAreFlagged
  refine ⟨?flagged, ?unused, ?off⟩
  case flagged =>
    intro s m p b o v x hb ho h4 hown hnone hslot hheld hpow hreach
    have hgate := accGate_unassigned hslot hheld hpow hreach hnone
    have hdata : v.toNat % 2 ^ 32 = v.toNat := Nat.mod_eq_of_lt v.isLt
    refine ⟨⟨unassigned s p b o m 4 v.toNat, _, ?_, getF_unassigned_flag .., rlogAdd_entry .., rfl, rfl, hdata, rfl, rfl, unassigned_flt ..,
      unassigned_same .., fun y hy hw hc => getF_unassigned_ne _ _ _ _ _ _ _ hy hw hc⟩,
      ⟨answer (unassigned s p b o m 4 0) [0, 0, 0, 0] false, _, ?_, rfl, rfl, getF_unassigned_flag .., rlogAdd_entry .., rfl, rfl, rfl, rfl, rfl,
        unassigned_flt s p b o m 4 0, ?_⟩⟩
    · rw [registerWrite_eq ho, writeReg_plain hb hown, gated_refused (hgate true _), handlerFault_of_flt m (unassigned_flt s p b o m 4 v.toNat)]
    · show Host.Outcome.next (handlerFault m s (route s m (blkBase p b + o) 4 none x)) = _
      rw [route_read_register hb ho h4 hheld, readReg_unassigned (hgate false 0)]
      rw [leBytes_four_zero, handlerFault_of_flt m ((answer_flt ..).trans (unassigned_flt s p b o m 4 0))]
    · exact congrArg (fun t : State => { t with rd := s.rd, rdErr := s.rdErr }) (unassigned_same s p b o m 4 0)
  case unused =>
    intro s m p b o v x hb ho hheld
    rw [registerWrite_eq ho]
    simp [writeReg, hb, hheld]
  case off =>
    intro s m p b o d v x hb ho hslot hown hheld hdom hoff
    rw [registerWrite_eq ho, writeReg_plain hb hown, gated_refused (accGate_off hslot hheld hdom hoff true _)]

end Sys2Proof.UnassignedLaws
end

section
/-! A damaged record that no TAKE presents (R489, R417). -/
namespace Sys2Proof.HandlerLaws

open Sys2Proof Sys2Proof.Machine

/-- A contained record of partition 0, which host triage holds. -/
def heldRec : FaultRec := { code := 0x0102, cls := 2, part := some 0 }

/-- A linked device whose only queued record waits for host triage of its partition. -/
def triageState : State :=
  let s := setF (setF State.reset (F.CWY_STAT_LINK_UP true) 1) (F.CWY_STAT_LINK_UP false) 1
  { s with flt := { s.flt with comp := { s.flt.comp with queue := [heldRec] } }, hif := { s.hif with paused := [{ part := 0, rec_ := heldRec, since := 0 }] } }

/-- The handler's core. -/
def handler : Master := { code := 9, priv := true }

theorem triageState_gate : regGate triageState false 20 0x20 handler 1 = .pass := by decide

theorem triageState_held : nextRec (triageState.flt.comp.queue.filter (fun r => false || !hostHas triageState r)) = none := by decide

/-- The record that the host holds is not presented to the handler, damaged or not. -/
theorem recordDamaged_triageState : recordDamaged false triageState = triageState := by
  simp only [recordDamaged, fltDie, Bool.false_eq_true, if_false, triageState_held]

/-- Refutes O53: while host triage holds every queued record of the compute die, TAKE presents none, and one that would fail its check is no
double fault; the clause of the damaged record does not ask that some queued record be presented. -/
theorem not_theFaultUnitServesItsHandler : ¬ Obligations.TheFaultUnitServesItsHandler := by
  unfold Obligations.TheFaultUnitServesItsHandler
  rintro ⟨-, -, -, hbad, -⟩
  obtain ⟨t, ht, hsafe, -⟩ := hbad triageState handler false triageState_gate rfl (by decide)
  have hnext : exec (.fltTake handler ⟨false, true⟩) triageState = .next triageState := by
    show Host.Outcome.next (gated triageState false 20 0x20 handler 1 (recordDamaged false)) = _
    rw [gated, triageState_gate]
    exact congrArg Host.Outcome.next recordDamaged_triageState
  rw [hnext] at ht
  cases ht
  exact absurd hsafe (by decide)

end Sys2Proof.HandlerLaws
end

section
/-! The dampers (R424): each interval's fractions, their bubbles, and the cycle counts. -/

namespace Sys2Proof.DamperLaws

open Sys2Proof Sys2Proof.Machine

/-- A quotient rounded down is the one integer between. -/
theorem floor_unique {a b q : Int} (hb : 0 < b) (h1 : b * q ≤ a) (h2 : a < b * (q + 1)) : a / b = q :=
  le_antisymm (Int.lt_add_one_iff.mp (Int.ediv_lt_of_lt_mul hb (by rwa [mul_comm]))) (Int.le_ediv_of_mul_le hb (by rwa [mul_comm]))

theorem damper_eq {s : State} {p : Nat} {u v w : Int} (hc : 0 < capEff s)
    (hu1 : (250 * capEff s : Nat) * u ≤ 256 * ((p : Int) - (250 * capEff s : Nat)))
    (hu2 : 256 * ((p : Int) - (250 * capEff s : Nat)) < (250 * capEff s : Nat) * (u + 1))
    (hv1 : 256 * v ≤ (getF s F.KILN_DAMP_GAIN_I : Int) * u) (hv2 : (getF s F.KILN_DAMP_GAIN_I : Int) * u < 256 * (v + 1))
    (hw1 : 16 * w ≤ (getF s F.KILN_DAMP_GAIN_P : Int) * u) (hw2 : (getF s F.KILN_DAMP_GAIN_P : Int) * u < 16 * (w + 1)) :
    damper s p = (clampI (s.kiln.acc + v) 0 (getF s F.KILN_DAMP_DMAX : Int),
      clampI (w + clampI (s.kiln.acc + v) 0 (getF s F.KILN_DAMP_DMAX : Int)) 0 (getF s F.KILN_DAMP_DMAX : Int)) := by
  have hcap : (250 * capEff s : Nat) = (capEff s : Int) * 250 := by push_cast; ring
  rw [hcap] at hu1 hu2
  have hu := floor_unique (by omega) hu1 hu2
  have hv := floor_unique (by omega) hv1 hv2
  have hw := floor_unique (by omega) hw1 hw2
  unfold damper
  simp only [hu, hv, hw]

theorem damper_steady {s : State} (hc : capEff s = 300) (hp : getF s F.KILN_DAMP_GAIN_P = 32) (hi : getF s F.KILN_DAMP_GAIN_I = 16)
    (hd : getF s F.KILN_DAMP_DMAX = 192) : damper s 82500 = (clampI (s.kiln.acc + 1) 0 192, clampI (50 + clampI (s.kiln.acc + 1) 0 192) 0 192) := by
  unfold damper
  simp only [hc, hp, hi, hd]
  norm_num

/-- What the interval's end stores: the damper's two results, the fractions of the interval after next, and those now in force. -/
theorem damperUpdate_kiln (p vin : Nat) (rails : List (Nat × Nat)) (cyc : List Nat) (lost sa sh : Nat) (s : State) :
    (damperUpdate p vin rails cyc lost sa sh s).kiln.acc = (damper s p).1 ∧
    (damperUpdate p vin rails cyc lost sa sh s).kiln.d = (damper s p).2.toNat ∧
    (damperUpdate p vin rails cyc lost sa sh s).kiln.dNext = groupFractions s (damper s p).2.toNat ∧
    (damperUpdate p vin rails cyc lost sa sh s).kiln.dg = s.kiln.dNext := ⟨rfl, rfl, rfl, rfl⟩

theorem damperUpdate_stall (p vin : Nat) (rails : List (Nat × Nat)) (cyc : List Nat) (lost sa sh : Nat) (s : State) :
    (damperUpdate p vin rails cyc lost sa sh s).arr.stall =
      s.arr.stall + (bubbles (nth s.pwr.cyc 0 0) (nth cyc 0 0) (nth s.kiln.dg 0 0) - lost + sa) := rfl

theorem damperUpdate_cyc (p vin : Nat) (rails : List (Nat × Nat)) (cyc : List Nat) (lost sa sh : Nat) (s : State) :
    (damperUpdate p vin rails cyc lost sa sh s).pwr.cyc = cycNext s cyc := rfl

theorem damperUpdate_same (p vin : Nat) (rails : List (Nat × Nat)) (cyc : List Nat) (lost sa sh : Nat) (s : State) :
    { damperUpdate p vin rails cyc lost sa sh s with
      regs := s.regs, kiln := s.kiln, arr := { (damperUpdate p vin rails cyc lost sa sh s).arr with stall := s.arr.stall },
      pwr := { (damperUpdate p vin rails cyc lost sa sh s).pwr with cyc := s.pwr.cyc } } = s := by
  unfold damperUpdate setKiln
  simp only [setF]

/-- The count of a damped domain goes on by the interval's cycles (R425). -/
theorem cycNext_damped (s : State) (cyc : List Nat) {i : Nat} (hi : i < 27) (hd : clkDamped i = true) :
    nth (cycNext s cyc) i 0 = (nth s.pwr.cyc i 0 + nth cyc i 0) % 256 := by
  simp [cycNext, nth, hi, hd]

theorem clkDamped_of_lt {i : Nat} (hi : i < 20) (h1 : i ≠ 1) (h10 : i ≠ 10) (h11 : i ≠ 11) : clkDamped i = true := by
  simp [clkDamped]
  omega

/-- Settles O46: the floors of R424 are the quotients that the damper takes. -/
theorem dampersFollowTheLaw : Obligations.DampersFollowTheLaw := by
  unfold Obligations.DampersFollowTheLaw
  refine ⟨?law, ?steady⟩
  case law =>
    intro s p vin rails cyc lost sa sh u v w hc hu1 hu2 hv1 hv2 hw1 hw2
    obtain ⟨hacc, hd, hnext, hdg⟩ := damperUpdate_kiln p vin rails cyc lost sa sh s
    have hdamp := damper_eq hc hu1 hu2 hv1 hv2 hw1 hw2
    rw [hdamp] at hacc hd hnext
    refine ⟨damperUpdate p vin rails cyc lost sa sh s, rfl, ?_, ?_, ?_, hdg, damperUpdate_stall .., ?_, damperUpdate_same ..⟩
    · rw [hacc]
      simp only [clampI]
      omega
    · rw [hacc, hd]
      simp only [clampI]
      omega
    · rw [hnext, ← hd]
      rfl
    · intro i hi h1 h10 h11
      rw [damperUpdate_cyc, cycNext_damped s cyc (by omega) (clkDamped_of_lt hi h1 h10 h11)]
  case steady =>
    intro s vin rails cyc lost sa sh hc hp hi hd h0 h192
    obtain ⟨hacc, hdd, -⟩ := damperUpdate_kiln 82500 vin rails cyc lost sa sh s
    rw [damper_steady hc hp hi hd] at hacc hdd
    refine ⟨damperUpdate 82500 vin rails cyc lost sa sh s, rfl, ?_, ?_⟩
    · rw [hacc]
      simp only [clampI]
      omega
    · rw [hacc, hdd]
      simp only [clampI]
      omega

end Sys2Proof.DamperLaws
end

section
/-! Bursts of DRAM (R356, R362, R368 to R371). -/

namespace Sys2Proof.BurstLaws

open Sys2Proof Sys2Proof.Machine Sys2Proof.TransferLaws

/-! ### Without XTS regions (R371) -/

theorem xtsOf_nil {s : State} (h : s.drc.xts = []) (a : Nat) : xtsOf s a = none := by simp [xtsOf, h]

theorem xtsBad_nil {s : State} (h : s.drc.xts = []) (a n : Nat) : xtsBad s a n = false := by
  simp [xtsBad, xtsOf_nil h]

theorem xtsSeal_nil {s : State} (h : s.drc.xts = []) (a n : Nat) : xtsSeal s a n = s := by
  unfold xtsSeal
  generalize linesOf a n = ls
  induction ls with
  | nil => rfl
  | cons l ls ih => rw [List.foldl_cons, xtsOf_nil h, ih]

theorem dramPut_nil {s : State} (h : s.drc.xts = []) (a : Nat) (bs : Bytes) : dramPut s a bs = memPut s a bs :=
  xtsSeal_nil (s := memPut s a bs) h a bs.length

/-! ### Rows (R356, R362) -/

/-- A row is left open under a hint to keep it, or without a hint to close it where the page default keeps it. -/
theorem leaveRow_open {s : State} {page : Nat} (p : DramPos)
    (h : page = 1 ∨ (page ≠ 2 ∧ isSet s F.DRC_CFG_PAGE_DEFAULT = false)) : leaveRow s p page = s := by
  unfold leaveRow
  rw [if_neg]
  rcases h with rfl | ⟨h2, hd⟩
  · simp
  · simp [h2, hd]

theorem leaveRow_same (s : State) (p : DramPos) (page : Nat) : { leaveRow s p page with drc := s.drc } = s := by
  unfold leaveRow
  split <;> rfl

theorem leaveRow_xts (s : State) (p : DramPos) (page : Nat) : (leaveRow s p page).drc.xts = s.drc.xts := by
  unfold leaveRow
  split <;> rfl

/-- The requesters of a row with one more (R357). -/
def reqsWith (x : RowAct) (m : Master) (r : Nat) : List (Nat × Nat × Nat) :=
  if x.reqs.any (·.1 == r) then x.reqs else x.reqs ++ [(r, m.code, m.part)]

theorem mem_reqsWith (x : RowAct) (m : Master) (r : Nat) : ∃ q ∈ reqsWith x m r, q.1 = r := by
  unfold reqsWith
  split
  · next h =>
    obtain ⟨q, hq, hr⟩ := List.any_eq_true.mp h
    exact ⟨q, hq, by simpa using hr⟩
  · exact ⟨(r, m.code, m.part), by simp, rfl⟩

/-- What the tracker holds of a row after one activation more (R356). -/
def actMore (s : State) (m : Master) (r : Nat) (x : RowAct) : RowAct :=
  { count := x.count + 1, rep := x.count + 1 - Config.rhUnder s.free % 2077, reqs := reqsWith x m r }

/-- The state after an activation that the tracker reports to nobody. -/
def activated (s : State) (m : Master) (r : Nat) (p : DramPos) : State :=
  drawn { s with drc := { s.drc with
    acts := tabPut s.drc.acts (65536 * (16 * p.ch + p.bank) + p.row) (actMore s m r (tabGet s.drc.acts (65536 * (16 * p.ch + p.bank) + p.row) {})) {},
    open_ := tabPut s.drc.open_ (16 * p.ch + p.bank) (p.row + 1, s.timeC) (0, 0) } }

/-- Below the threshold an activation only counts: the reported count is never above the true one. -/
theorem activate_below {s : State} (m : Master) (r : Nat) {p : DramPos}
    (h : (tabGet s.drc.acts (65536 * (16 * p.ch + p.bank) + p.row) {}).count < getF s F.DRC_RH_THRESH) : activate s m r p = activated s m r p := by
  unfold activate
  exact if_neg (Nat.not_lt.mpr (Nat.le_trans (Nat.sub_le _ _) h))

/-! ### The burst -/

section
variable {s : State} {m : Master} {r a len : Nat}

theorem dramBurst_waits (h : burstWaits s r (dramPos s a).ch = true) (wr : Option Bytes) (link ecc : Nat) :
    dramBurst m r a len wr link ecc s = s := by
  simp only [dramBurst, h, if_true, ite_self]

/-- The state in which a burst that passes meets its row: opened, and left as the hint says. -/
def atRow (s : State) (m : Master) (r a : Nat) : State :=
  leaveRow (if rowOpen s (dramPos s a) then s else activate s m r (dramPos s a)) (dramPos s a)
    (pageHint (if rowOpen s (dramPos s a) then s else activate s m r (dramPos s a)) r a)

variable (h0 : 0 < len) (h512 : a % 512 + len ≤ 512) (hr : r < 12) (hreg : region a = .dram) (hwait : burstWaits s r (dramPos s a).ch = false)
include h0 h512 hr hreg hwait

theorem dramBurst_write {bs : Bytes} (hgate : busGate s m .system a len true (leVal (bs.take 4)) = .pass) (hlen : bs.length = len) (link ecc : Nat) :
    dramBurst m r a len (some bs) link ecc s = dramPut (atRow s m r a) a bs := by
  have hbs : bs.take len ++ List.replicate (len - bs.length) 0 = bs := by simp [hlen]
  unfold dramBurst
  rw [if_neg (by simp only [hreg, ne_eq, not_true_eq_false, or_false]; omega), hwait]
  simp only [Bool.false_eq_true, if_false, Option.isSome_some, Option.getD_some, hgate, hbs]
  rfl

/-- A read of rows without XTS lines. -/
theorem dramBurst_read (hgate : busGate s m .system a len false = .pass) (link ecc : Nat)
    (hx : (dramErr (atRow s m r a) m a len (dramPos s a) link ecc).1.drc.xts = []) :
    dramBurst m r a len none link ecc s = { (dramErr (atRow s m r a) m a len (dramPos s a) link ecc).1 with
      rd := memRead (atRow s m r a).mem a len, rdErr := (dramErr (atRow s m r a) m a len (dramPos s a) link ecc).2 } := by
  unfold dramBurst
  rw [if_neg (by simp only [hreg, ne_eq, not_true_eq_false, or_false]; omega), hwait]
  have hgate' : busGate s m .system a len (none : Option Bytes).isSome (leVal (((none : Option Bytes).getD []).take 4)) = .pass := hgate
  simp only [Bool.false_eq_true, if_false, hgate']
  exact (if_neg (ne_true_of_eq_false (xtsBad_nil hx a len))).trans rfl

end

/-- A row that is open is met as it is, but for the page hint. -/
theorem atRow_open {s : State} {m : Master} {r a : Nat} (h : rowOpen s (dramPos s a) = true) :
    atRow s m r a = leaveRow s (dramPos s a) (pageHint s r a) := by
  simp only [atRow, h, if_true]

/-- What a read with no stored error finds: an uncorrectable link error, or none (R368). -/
theorem dramErr_sound {s : State} {m : Master} {a len : Nat} (p : DramPos) (h : ∀ w ∈ blockWords a len, tabGet s.mapu.bad w 0 = 0) :
    dramErr s m a len p 0 0 = (s, false) ∧
    dramErr s m a len p 2 0 = (raise s false 0x0165 2 (some m.part) drcBlock 0xFFFF [a, p.ch, m.code], true) := by
  have hraised : ∀ u : State, u.mapu = s.mapu → dramEcc u m a len = (u, false) := fun u hu =>
    dramEcc_sound m (fun _ w hw => by rw [hu]; exact h w hw)
  constructor
  · simp [dramErr, hraised s rfl]
  · have hmapu : (raise s false 0x0165 2 (some m.part) drcBlock 0xFFFF [a, p.ch, m.code]).mapu = s.mapu :=
      (congrArg State.mapu (raise_same s false 0x0165 2 (some m.part) drcBlock 0xFFFF [a, p.ch, m.code]) :)
    simp [dramErr, hraised _ hmapu]

/-- Settles O33, each clause by the row that the burst meets. -/
theorem dramServesItsBursts : Obligations.DramServesItsBursts := by
  unfold Obligations.DramServesItsBursts
  refine ⟨?write, ?hit, ?activates, ?waits, ?window⟩
  case write =>
    intro s m r a len link ecc bs h0 h512 hr hreg hwait hgate hopen hxts hlen
    have hx : (leaveRow s (dramPos s a) (pageHint s r a)).drc.xts = [] := by rw [leaveRow_xts, hxts]
    refine ⟨_, congrArg Host.Outcome.next (dramBurst_write h0 h512 hr hreg hwait hgate hlen link ecc), ?_, ?_⟩
    · rw [atRow_open hopen, dramPut_nil hx]
      show memWrite (leaveRow _ _ _).mem a bs = _
      rw [(congrArg State.mem (leaveRow_same s (dramPos s a) (pageHint s r a)) :)]
    · rw [atRow_open hopen, dramPut_nil hx]
      exact congrArg (fun t : State => { t with mem := s.mem, mapu := s.mapu }) (leaveRow_same s (dramPos s a) (pageHint s r a))
  case hit =>
    intro s m r a len h0 h512 hr hreg hwait hgate hopen hxts hpage hgood
    have hrow : atRow s m r a = s := (atRow_open hopen).trans (leaveRow_open _ hpage)
    obtain ⟨hclean, hlink⟩ := dramErr_sound (m := m) (dramPos s a) hgood
    constructor
    · refine congrArg Host.Outcome.next ((dramBurst_read h0 h512 hr hreg hwait hgate 0 0 ?_).trans ?_)
      · rw [hrow, hclean]
        exact hxts
      · rw [hrow, hclean]
    · refine congrArg Host.Outcome.next ((dramBurst_read h0 h512 hr hreg hwait hgate 2 0 ?_).trans ?_)
      · rw [hrow, hlink]
        exact (congrArg (fun t : State => t.drc.xts) (raise_same ..)).trans hxts
      · rw [hrow, hlink]
        rfl
  case activates =>
    rintro s m r a len k p h0 h512 hr hreg rfl hwait hgate hclosed hxts hpage hgood rfl hcount
    have hrow : atRow s m r a = activated s m r (dramPos s a) := by
      simp only [atRow, hclosed, Bool.false_eq_true, if_false, activate_below m r hcount]
      exact leaveRow_open _ hpage
    have hclean := (dramErr_sound (s := activated s m r (dramPos s a)) (m := m) (dramPos s a) hgood).1
    refine ⟨_, actMore s m r (tabGet s.drc.acts (65536 * (16 * (dramPos s a).ch + (dramPos s a).bank) + (dramPos s a).row) {}), congrArg Host.Outcome.next (dramBurst_read h0 h512 hr hreg hwait hgate 0 0 ?_), ?_⟩
    · rw [hrow, hclean]
      exact hxts
    · rw [hrow, hclean]
      refine ⟨rfl, rfl, tabGet_tabPut_same _ _ _ _, rfl, Nat.sub_le _ _, ?_, mem_reqsWith _ m r, tabGet_tabPut_same _ _ _ _, rfl⟩
      have := Nat.mod_lt (Config.rhUnder s.free) (y := 2077) (by decide)
      simp only [actMore]
      omega
  case waits => exact fun s m r a len link ecc wr h => congrArg Host.Outcome.next (dramBurst_waits h wr link ecc)
  case window =>
    exact fun s ch bank => ⟨rhWindow ch bank s, rfl, fun row hrow => tabGet_tabDrop_in _ _ _ _ _ (by omega),
      fun k hk => tabGet_tabDrop_out _ _ _ _ _ hk, rfl⟩

end Sys2Proof.BurstLaws
end

section
/-! The skew monitor, the temperatures, refreshes and write-link errors (R355, R358 to R360, R368). -/

namespace Sys2Proof.RefreshLaws

open Sys2Proof Sys2Proof.Machine

/-! ### The skew monitor (R355) -/

/-- Windows in a row after this one. -/
def skewNext (occ skew : List Nat) (ch : Nat) : Nat := if skewed occ ch then nth skew ch 0 + 1 else 0

/-- The state with the count of a channel replaced. -/
def withSkew (s : State) (l : List Nat) : State := { s with drc := { s.drc with skew := l } }

/-- A channel that does not reach 64 only counts. -/
theorem skewOne_quiet {occ : List Nat} (holders : List (Nat × Nat)) {s : State} {ch : Nat} (h : skewed occ ch = true → nth s.drc.skew ch 0 < 63) :
    skewOne occ holders s ch = withSkew s (s.drc.skew.set ch (skewNext occ s.drc.skew ch)) := by
  have hn : ¬ (64 ≤ skewNext occ s.drc.skew ch ∧ (skewNext occ s.drc.skew ch - 64) % 60000 = 0) := by
    unfold skewNext
    split
    · have := h ‹_›
      omega
    · omega
  exact if_neg hn

/-- A channel that reaches 64 is reported. -/
theorem skewOne_reached {occ : List Nat} (holders : List (Nat × Nat)) {s : State} {ch : Nat} (hs : skewed occ ch = true)
    (h : nth s.drc.skew ch 0 = 63) : skewOne occ holders s ch =
    raise (withSkew s (s.drc.skew.set ch 64)) false 0x0160 0 (some (nth holders ch (0, 0)).2) drcBlock 0xFFFF [ch, (nth holders ch (0, 0)).1] := by
  simp [skewOne, hs, h, withSkew]

/-- Channels none of which reaches 64 are counted one after the other. -/
theorem foldl_skewOne_quiet {occ : List Nat} (holders : List (Nat × Nat)) {chs : List Nat} {s : State} (hnd : chs.Nodup)
    (h : ∀ ch ∈ chs, skewed occ ch = true → nth s.drc.skew ch 0 < 63) :
    chs.foldl (skewOne occ holders) s = withSkew s (chs.foldl (fun l ch => l.set ch (skewNext occ s.drc.skew ch)) s.drc.skew) := by
  suffices hgen : ∀ (chs : List Nat) (u : State), chs.Nodup → (∀ ch ∈ chs, nth u.drc.skew ch 0 = nth s.drc.skew ch 0) →
      (∀ ch ∈ chs, skewed occ ch = true → nth s.drc.skew ch 0 < 63) →
      chs.foldl (skewOne occ holders) u = withSkew u (chs.foldl (fun l ch => l.set ch (skewNext occ s.drc.skew ch)) u.drc.skew) from
    hgen chs s hnd (fun _ _ => rfl) h
  intro chs
  induction chs with
  | nil => exact fun _ _ _ _ => rfl
  | cons c cs ih =>
    intro u hnd hsame hq
    obtain ⟨hc, hnd⟩ := List.nodup_cons.mp hnd
    have hnext : skewNext occ u.drc.skew c = skewNext occ s.drc.skew c := by simp only [skewNext, hsame c (by simp)]
    rw [List.foldl_cons, skewOne_quiet holders (fun hs => by rw [hsame c (by simp)]; exact hq c (by simp) hs), hnext, List.foldl_cons]
    refine ih _ hnd (fun ch hch => ?_) (fun ch hch => hq ch (by simp [hch]))
    rw [← hsame ch (by simp [hch])]
    exact WordLaws.nth_set_ne _ _ (fun hcc => hc (hcc ▸ hch))

/-- Every place of a list of 16 set in turn. -/
theorem foldl_set_range {l : List Nat} (f : Nat → Nat) {n : Nat} (h : l.length = n) :
    (List.range n).foldl (fun l ch => l.set ch (f ch)) l = (List.range n).map f := by
  have hlen : ∀ (k : Nat), ((List.range k).foldl (fun l ch => l.set ch (f ch)) l).length = n := by
    intro k
    induction k with
    | zero => exact h
    | succ k ih => rw [List.range_succ, List.foldl_append, List.foldl_cons, List.foldl_nil, List.length_set, ih]
  have hget : ∀ (k i : Nat), i < k → i < n → ((List.range k).foldl (fun l ch => l.set ch (f ch)) l)[i]? = some (f i) := by
    intro k
    induction k with
    | zero => omega
    | succ k ih =>
      intro i hi hin
      rw [List.range_succ, List.foldl_append, List.foldl_cons, List.foldl_nil, List.getElem?_set]
      by_cases hk : k = i
      · rw [if_pos hk, if_pos (by rw [hlen]; omega), hk]
      · rw [if_neg hk, ih i (by omega) hin]
  refine List.ext_getElem? (fun i => ?_)
  by_cases hi : i < n
  · rw [hget n i hi hi]
    simp [hi]
  · rw [List.getElem?_eq_none (by rw [hlen]; omega), List.getElem?_eq_none (by simp; omega)]

theorem nth_foldl_set_ne {α : Type} {chs : List Nat} {c : Nat} (f : Nat → α) (l : List α) (d : α) (h : c ∉ chs) :
    nth (chs.foldl (fun l ch => l.set ch (f ch)) l) c d = nth l c d := by
  induction chs generalizing l with
  | nil => rfl
  | cons x xs ih =>
    rw [List.mem_cons, not_or] at h
    rw [List.foldl_cons, ih _ h.2, WordLaws.nth_set_ne _ _ (Ne.symm h.1)]

/-! ### Temperatures (R358) -/

theorem hot_bits_bool : ∀ c0 c1 c2 c3 : Bool, ∀ p < 4, bitOf (((((if c0 = true then 0 + 2 ^ 0 else 0 : Nat) |> fun v => if c1 = true then v + 2 ^ 1 else v) |>
    fun v => if c2 = true then v + 2 ^ 2 else v) |> fun v => if c3 = true then v + 2 ^ 3 else v) % 2 ^ 4) p = nth [c0, c1, c2, c3] p false := by
  decide

/-- The sum of the bits of four packages has the bit of each. -/
theorem hot_bits (c : Nat → Prop) [DecidablePred c] {p : Nat} (hp : p < 4) :
    bitOf ((List.range 4).foldl (fun v p => if c p then v + 2 ^ p else v) 0 % 2 ^ 4) p = decide (c p) := by
  have h := hot_bits_bool (decide (c 0)) (decide (c 1)) (decide (c 2)) (decide (c 3)) p hp
  simp only [decide_eq_true_eq] at h
  refine (show _ = _ from h).trans ?_
  obtain rfl | rfl | rfl | rfl : p = 0 ∨ p = 1 ∨ p = 2 ∨ p = 3 := by omega
  all_goals rfl

/-! ### Refreshes (R359, R360) -/

/-- What a due refresh leaves of the count of refreshes postponed. -/
def refreshCount (n : Int) (busy : Bool) : Int := if n < 0 then n + 1 else if busy = false then 0 else min 8 (n + 1)

theorem getRefr_setRefr (s : State) (ch bank : Nat) (v : Int) : getRefr (setRefr s ch bank v) ch bank = v := tabGet_tabPut_same ..

/-- The state with the bank's row closed. -/
def rowClosed (s : State) (ch bank : Nat) : State :=
  { s with drc := { s.drc with open_ := tabPut s.drc.open_ (16 * ch + bank) (0, 0) (0, 0) } }

theorem refreshDue_kept {s : State} {ch bank : Nat} {busy : Bool} (hch : ch < 16) (hb : bank < 16) (hret : retraining s ch = false)
    (hle : getRefr s ch bank ≤ 8) (h : ¬ (busy = true ∧ getRefr s ch bank = 8)) :
    refreshDue ch bank busy s = setRefr (rowClosed s ch bank) ch bank (refreshCount (getRefr s ch bank) busy) := by
  have hret' : retraining (rowClosed s ch bank) ch = false := hret
  unfold refreshDue
  rw [if_neg (by omega)]
  show (if getRefr s ch bank < 0 then setRefr (rowClosed s ch bank) ch bank (getRefr s ch bank + 1)
    else if retraining (rowClosed s ch bank) ch then setRefr (rowClosed s ch bank) ch bank (getRefr s ch bank + 1)
    else if !busy then setRefr (rowClosed s ch bank) ch bank 0
    else if getRefr s ch bank < 8 then setRefr (rowClosed s ch bank) ch bank (getRefr s ch bank + 1)
    else forceRefresh (setRefr (rowClosed s ch bank) ch bank 8) ch) = _
  rw [hret', refreshCount]
  cases busy with
  | false => simp only [Bool.false_eq_true, if_false, Bool.not_false, if_true]; split <;> rfl
  | true =>
    have hlt : getRefr s ch bank < 8 := by
      have : getRefr s ch bank ≠ 8 := fun h8 => h ⟨rfl, h8⟩
      omega
    simp only [Bool.false_eq_true, if_false, Bool.not_true, hlt, if_true, reduceCtorEq]
    rw [min_eq_right (by omega)]
    split <;> rfl

theorem refreshDue_forced {s : State} {ch bank : Nat} (hch : ch < 16) (hb : bank < 16) (hret : retraining s ch = false)
    (h8 : getRefr s ch bank = 8) :
    refreshDue ch bank true s = forceRefresh (setRefr (rowClosed s ch bank) ch bank 8) ch := by
  have hret' : retraining (rowClosed s ch bank) ch = false := hret
  unfold refreshDue
  rw [if_neg (by omega)]
  show (if getRefr s ch bank < 0 then setRefr (rowClosed s ch bank) ch bank (getRefr s ch bank + 1)
    else if retraining (rowClosed s ch bank) ch then setRefr (rowClosed s ch bank) ch bank (getRefr s ch bank + 1)
    else if !true then setRefr (rowClosed s ch bank) ch bank 0
    else if getRefr s ch bank < 8 then setRefr (rowClosed s ch bank) ch bank (getRefr s ch bank + 1)
    else forceRefresh (setRefr (rowClosed s ch bank) ch bank 8) ch) = _
  simp [hret', h8]

/-- A forced refresh is counted, and reported at most once a second: of DRAM's state only the time of the report changes. -/
theorem forceRefresh_facts (s : State) (ch : Nat) : (forceRefresh s ch).drc.open_ = s.drc.open_ ∧ (forceRefresh s ch).drc.refr = s.drc.refr ∧
    getF (forceRefresh s ch) F.DRC_STAT_FORCED = min (getF s F.DRC_STAT_FORCED + 1) 65535 ∧ (forceRefresh s ch).mem = s.mem := by
  have hcount : getF (bump s F.DRC_STAT_FORCED 1) F.DRC_STAT_FORCED = min (getF s F.DRC_STAT_FORCED + 1) 65535 :=
    (getF_setF_same ..).trans (Nat.mod_eq_of_lt (Nat.lt_of_le_of_lt (Nat.min_le_right _ _) (by decide)))
  unfold forceRefresh
  dsimp only
  split
  · refine ⟨(congrArg (fun t : State => t.drc.open_) (raise_same ..) :), (congrArg (fun t : State => t.drc.refr) (raise_same ..) :), ?_,
      (raise_mem _ _ _ _ _ _ _ _ (.inr (by decide))).1⟩
    rw [RaiseLaws.getF_raise_ne _ _ _ _ _ _ _ _ (by decide)]
    exact hcount
  · exact ⟨rfl, rfl, hcount, rfl⟩

/-! ### Write links (R368) -/

/-- Entries that each keep the state keep it together. -/
theorem foldl_kept {α : Type} {f : State → α → State} {l : List α} (h : ∀ y ∈ l, ∀ u, f u y = u) (s : State) : l.foldl f s = s := by
  induction l generalizing s with
  | nil => rfl
  | cons y ys ih => rw [List.foldl_cons, h y (by simp), ih (fun z hz => h z (by simp [hz]))]

/-- Packages whose counts did not rise raise nothing. -/
theorem writeLinkPoll_first (x : Bool × Bool) {l : List (Bool × Bool)} (h : ∀ y ∈ l, y = (false, false)) (s : State) :
    writeLinkPoll (x :: l) s = writeLinkPoll [x] s := by
  unfold writeLinkPoll
  rw [List.take_succ_cons, List.foldl_cons, List.take_succ_cons, List.foldl_cons]
  refine (foldl_kept (fun y hy u => ?_) _).trans rfl
  rw [h y (List.mem_of_mem_take hy)]
  rfl

/-- Settles O34: channels are judged one after the other, and only one that reaches 64 raises. -/
theorem dramIsWatchedAndRefreshed : Obligations.DramIsWatchedAndRefreshed := by
  unfold Obligations.DramIsWatchedAndRefreshed
  refine ⟨?quiet, ?reached, ?hot, ?refresh, ?links⟩
  case quiet =>
    intro s occ holders hready hlen hq
    refine congrArg Host.Outcome.next ((if_pos hready).trans ?_)
    rw [foldl_skewOne_quiet holders List.nodup_range (fun ch hch => hq ch (List.mem_range.mp hch)), foldl_set_range _ hlen]
    rfl
  case reached =>
    intro s occ holders c hready hlen hc hs h63 hq hroom
    obtain ⟨before, after, hsplit⟩ := List.append_of_mem (List.mem_range.mpr hc)
    have hnd : (before ++ c :: after).Nodup := hsplit ▸ List.nodup_range
    have hmem : ∀ ch ∈ before ++ c :: after, ch < 16 := fun ch hch => List.mem_range.mp (hsplit ▸ hch)
    obtain ⟨hndb, hndc, hdisj⟩ := List.nodup_append.mp hnd
    obtain ⟨hca, hnda⟩ := List.nodup_cons.mp hndc
    have hcb : c ∉ before := fun hcb => hdisj c hcb c (by simp) rfl
    have hbefore := foldl_skewOne_quiet (s := s) (occ := occ) holders hndb (fun ch hch => hq ch (hmem ch (by simp [hch])) (fun h => hcb (h ▸ hch)))
    generalize hu : before.foldl (skewOne occ holders) s = u at hbefore
    have hat : ∀ ch, ch ∉ before → nth u.drc.skew ch 0 = nth s.drc.skew ch 0 := by
      intro ch hch
      rw [hbefore]
      exact nth_foldl_set_ne _ _ _ hch
    have hraise := skewOne_reached holders hs ((hat c hcb).trans h63)
    generalize hv : skewOne occ holders u c = v at hraise
    have hvskew : v.drc.skew = u.drc.skew.set c 64 := by
      rw [hraise]
      exact (congrArg (fun t : State => t.drc.skew) (raise_same ..) :)
    have hvqueue : v.flt.comp.queue = s.flt.comp.queue ++
        [mkRec (withSkew u (u.drc.skew.set c 64)) false 0x0160 0 (some (nth holders c (0, 0)).2) drcBlock 0xFFFF [c, (nth holders c (0, 0)).1]] := by
      have hflt : u.flt = s.flt := by rw [hbefore]; rfl
      rw [hraise]
      refine (RaiseLaws.raise_queue (port := false) _ _ _ _ _ _ _ ?_).trans ?_
      · show u.flt.comp.queue.length < 32
        rw [hflt]
        exact hroom
      · show u.flt.comp.queue ++ _ = _
        rw [hflt]
    have hafter := foldl_skewOne_quiet (s := v) (occ := occ) holders hnda (by
      intro ch hch hsk
      have hne : ch ≠ c := fun h => hca (h ▸ hch)
      have hchb : ch ∉ before := fun hb => hdisj ch hb ch (by simp [hch]) rfl
      rw [hvskew, WordLaws.nth_set_ne _ _ (Ne.symm hne), hat ch hchb]
      exact hq ch (hmem ch (by simp [hch])) hne hsk)
    refine ⟨withSkew v (after.foldl (fun l ch => l.set ch (skewNext occ v.drc.skew ch)) v.drc.skew), _, congrArg Host.Outcome.next ((if_pos hready).trans ?_), hvqueue, rfl, rfl, rfl, rfl⟩
    rw [hsplit, List.foldl_append, List.foldl_cons, hu, hv]
    exact hafter
  case hot =>
    refine fun s l => ⟨tempRead l s, rfl, fun p hp => ?_, rfl⟩
    rw [tempRead, getF_setF_same]
    exact hot_bits (fun p => 85000 < nth l p 0) hp
  case refresh =>
    intro s ch bank busy hch hb hle hret
    refine ⟨refreshDue ch bank busy s, rfl, ?_⟩
    by_cases hforced : busy = true ∧ getRefr s ch bank = 8
    · obtain ⟨rfl, h8⟩ := hforced
      obtain ⟨hopen, hrefr, hcount, hmem⟩ := forceRefresh_facts (setRefr (rowClosed s ch bank) ch bank 8) ch
      rw [refreshDue_forced hch hb hret h8]
      refine ⟨?_, ?_, ?_, hmem⟩
      · rw [hopen]
        exact tabGet_tabPut_same ..
      · rw [h8]
        exact (congrArg (fun t => tabGet t (16 * ch + bank) 0) hrefr).trans (getRefr_setRefr (rowClosed s ch bank) ch bank 8)
      · rw [if_pos ⟨rfl, h8⟩]
        exact hcount
    · rw [refreshDue_kept hch hb hret hle hforced, if_neg hforced]
      exact ⟨tabGet_tabPut_same .., getRefr_setRefr .., rfl, rfl⟩
  case links => exact fun s x l hl => congrArg Host.Outcome.next (writeLinkPoll_first x hl s)

end Sys2Proof.RefreshLaws
end

section
/-! DRAM's configuration and training (R354, R363 to R365, R369). -/

namespace Sys2Proof.TrainingLaws

open Sys2Proof Sys2Proof.Machine

theorem getF_setF_bits (s : State) (x : Fld) (v lo : Nat) : getF (setF s x (bitsOf v lo x.width)) x = bitsOf v lo x.width := by
  rw [getF_setF_same]
  exact Nat.mod_eq_of_lt (Nat.mod_lt _ (Nat.two_pow_pos _))

/-! ### DRC_CFG (R354) -/

/-- The state after the first write of DRC_CFG that passes. -/
def drcConfigured (s : State) (v : Nat) : State :=
  setF (setF (setF (setF s F.DRC_CFG_HASH (bitsOf v 0 2)) F.DRC_CFG_IBECC (bitsOf v 2 1)) F.DRC_CFG_PAGE_DEFAULT (bitsOf v 3 1)) F.DRC_CFG_INIT
    (bitsOf v 31 1)

theorem drcCfgWrite_open {s : State} {m : Master} {v : Nat} (hg : regGate s false 17 0x10 m v = .pass) (h : isSet s F.DRC_CFG_INIT = false) :
    drcCfgWrite m v s = drcConfigured s v := by
  have hg' : regGate s false drcBlock 0x10 m v = .pass := hg
  simp [drcCfgWrite, gated, hg', h, drcConfigured]

theorem getF_drcConfigured (s : State) (v : Nat) : getF (drcConfigured s v) F.DRC_CFG_HASH = bitsOf v 0 2 ∧
    getF (drcConfigured s v) F.DRC_CFG_IBECC = bitsOf v 2 1 ∧ getF (drcConfigured s v) F.DRC_CFG_PAGE_DEFAULT = bitsOf v 3 1 ∧
    getF (drcConfigured s v) F.DRC_CFG_INIT = bitsOf v 31 1 := by
  unfold drcConfigured
  refine ⟨?_, ?_, ?_, getF_setF_bits _ F.DRC_CFG_INIT v 31⟩
  · rw [getF_setF_ne _ _ _ _ (by decide), getF_setF_ne _ _ _ _ (by decide), getF_setF_ne _ _ _ _ (by decide)]
    exact getF_setF_bits _ F.DRC_CFG_HASH v 0
  · rw [getF_setF_ne _ _ _ _ (by decide), getF_setF_ne _ _ _ _ (by decide)]
    exact getF_setF_bits _ F.DRC_CFG_IBECC v 2
  · rw [getF_setF_ne _ _ _ _ (by decide)]
    exact getF_setF_bits _ F.DRC_CFG_PAGE_DEFAULT v 3

theorem drcConfigured_same (s : State) (v : Nat) : { drcConfigured s v with regs := s.regs } = s := by simp only [drcConfigured, setF]

/-- Once INIT is set a write is ignored, whether it would change a field or not. -/
theorem drcCfgWrite_closed {s : State} {m : Master} {v : Nat} (hg : regGate s false 17 0x10 m v = .pass) (h : isSet s F.DRC_CFG_INIT = true) :
    drcCfgWrite m v s = s ∨ drcCfgWrite m v s = cfgIgnored s false drcBlock 0x10 m v := by
  have hg' : regGate s false drcBlock 0x10 m v = .pass := hg
  simp only [drcCfgWrite, gated, hg', h, if_true]
  split
  · exact .inr rfl
  · exact .inl rfl

/-- An ignored write of the DRAM controllers' block writes its two flags and the log. -/
theorem cfgIgnored_drc (s : State) (o : Nat) (m : Master) (v : Nat) : cfgIgnored s false drcBlock o m v =
    rlogAdd (setF (setF s (F.BLK_EVT_CFG_IGNORED false 17) 1) F.DRC_STAT_CFG_IGNORED 1) (blkBase false 17 + o) m 1 v := rfl

theorem getF_cfgIgnored_drc (s : State) (o : Nat) (m : Master) (v : Nat) {x : Fld}
    (h : ∀ y ∈ [F.BLK_EVT_CFG_IGNORED false 17, F.DRC_STAT_CFG_IGNORED, F.RLOG_STAT_WRAPPED, F.RLOG_STAT_COUNT], x.key ≠ y.key) :
    getF (cfgIgnored s false drcBlock o m v) x = getF s x := by
  simp only [List.mem_cons, List.not_mem_nil, or_false, forall_eq_or_imp, forall_eq] at h
  obtain ⟨hevt, hstat, hw, hc⟩ := h
  rw [cfgIgnored_drc, TickLaws.getF_rlogAdd _ _ _ _ _ _ hw hc, getF_setF_ne _ _ _ _ hstat, getF_setF_ne _ _ _ _ hevt]

theorem cfgIgnored_drc_mem (s : State) (o : Nat) (m : Master) (v : Nat) : (cfgIgnored s false drcBlock o m v).mem = s.mem :=
  (congrArg State.mem (UnassignedLaws.rlogAdd_same (setF (setF s (F.BLK_EVT_CFG_IGNORED false 17) 1) F.DRC_STAT_CFG_IGNORED 1)
    (blkBase false 17 + o) m 1 v) :)

/-! ### Training (R363, R364, R369) -/

theorem dramTraining_done {s : State} (a b : Bool) (hdown : compDown s = false) (hinit : isSet s F.DRC_CFG_INIT = true)
    (hready : isSet s F.DRC_STAT_READY = false) (hstage : getF s F.EMN_BOOT_STAT_STAGE ≠ 7) :
    dramTraining a b s = if a || b then dramReady s else raiseDevice s false 0x0167 drcBlock 0xFFFF [] := by
  simp [dramTraining, hdown, hinit, hready, hstage]

theorem dramReady_mem (s : State) : (dramReady s).mem = if isSet s F.DRC_CFG_IBECC then tabDrop s.mem 0 ibeccLimit else s.mem := by
  unfold dramReady
  split <;> rfl

theorem dramReady_same (s : State) : { dramReady s with regs := s.regs, mem := s.mem } = s := by
  unfold dramReady
  split <;> rfl

/-- The state in which a helper starts on the selected channel (R364). -/
def helperStarted (s : State) (ch : Nat) : State :=
  { s with drc := { s.drc with trnRun := s.drc.trnRun.filter (· != ch) ++ [ch],
                               trn := tabPut s.drc.trn ch { tabGet s.drc.trn ch {} with done := false } {} } }

/-- The fields of DRC_TRN_CTL that a write sets before INIT. -/
def trnCtl (s : State) (v : Nat) : State :=
  setF (setF (setF s F.DRC_TRN_CTL_OWNER (bitsOf v 4 1)) F.DRC_TRN_CTL_PATTERN (bitsOf v 0 2)) F.DRC_TRN_CTL_OP (bitsOf v 2 2)

theorem helperStarted_same (s : State) (v ch : Nat) : { helperStarted (trnCtl s v) ch with regs := s.regs, drc := s.drc } = s := by
  simp only [helperStarted, trnCtl, setF]

theorem drcTrnWrite_go {s : State} {m : Master} {v : Nat} (hg : regGate s false 17 0x34 m v = .pass) (h : isSet s F.DRC_CFG_INIT = false)
    (hgo : bitOf v 31 = true) (hop : bitsOf v 2 2 ≠ 3) : drcTrnWrite m v s = helperStarted (trnCtl s v) (getF s F.DRC_TRN_SEL_CH) := by
  have hg' : regGate s false drcBlock 0x34 m v = .pass := hg
  have hsel : getF (trnCtl s v) F.DRC_TRN_SEL_CH = getF s F.DRC_TRN_SEL_CH := by
    rw [trnCtl, getF_setF_ne _ _ _ _ (by decide), getF_setF_ne _ _ _ _ (by decide), getF_setF_ne _ _ _ _ (by decide)]
  rw [← hsel]
  simp [drcTrnWrite, gated, hg', h, wrField, hgo, hop, helperStarted, trnCtl]

theorem getF_trnCtl (s : State) (v : Nat) : getF (trnCtl s v) F.DRC_TRN_CTL_PATTERN = bitsOf v 0 2 ∧
    getF (trnCtl s v) F.DRC_TRN_CTL_OP = bitsOf v 2 2 ∧ getF (trnCtl s v) F.DRC_TRN_CTL_OWNER = bitsOf v 4 1 := by
  unfold trnCtl
  refine ⟨?_, getF_setF_bits _ F.DRC_TRN_CTL_OP v 2, ?_⟩
  · rw [getF_setF_ne _ _ _ _ (by decide)]
    exact getF_setF_bits _ F.DRC_TRN_CTL_PATTERN v 0
  · rw [getF_setF_ne _ _ _ _ (by decide), getF_setF_ne _ _ _ _ (by decide)]
    exact getF_setF_bits _ F.DRC_TRN_CTL_OWNER v 4

theorem trnDone_running {s : State} {ch : Nat} {errors deskew : List Nat} (hrun : s.drc.trnRun.contains ch = true)
    (he : errors.length = 18) (hd : deskew.length = 18) (hemax : ∀ x ∈ errors, x ≤ 0xFFFFFF) (hdmax : ∀ x ∈ deskew, x < 128) :
    trnDone ch errors deskew s = { s with drc := { s.drc with
      trnRun := s.drc.trnRun.filter (· != ch), trn := tabPut s.drc.trn ch { errors := errors, deskew := deskew, done := true } {} } } := by
  have herr : (errors.take 18).map (min 0xFFFFFF) = errors := by
    rw [List.take_of_length_le he.le]
    exact (List.map_congr_left (g := id) (fun x hx => min_eq_right (hemax x hx))).trans (List.map_id _)
  have hdes : (deskew.take 18).map (· % 128) = deskew := by
    rw [List.take_of_length_le hd.le]
    exact (List.map_congr_left (g := id) (fun x hx => Nat.mod_eq_of_lt (hdmax x hx))).trans (List.map_id _)
  rw [trnDone, if_pos hrun, herr, hdes]

/-- Settles O35, each clause by the write or the end that it speaks of. -/
theorem dramComesUp : Obligations.DramComesUp := by
  unfold Obligations.DramComesUp
  refine ⟨?first, ?closed, ?trained, ?failed, ?go, ?done, fun s ch => rfl⟩
  case first =>
    intro s m v hv hg hinit
    obtain ⟨hhash, hecc, hpage, hset⟩ := getF_drcConfigured s v.toNat
    refine ⟨drcConfigured s v.toNat, congrArg Host.Outcome.next ((if_pos hv).trans (drcCfgWrite_open hg hinit)), hhash, hecc, hpage, ?_,
      drcConfigured_same s v.toNat⟩
    rw [isSet, hset, TickLaws.bitsOf_one, hv]
    rfl
  case closed =>
    intro s m v hv hg hinit
    refine ⟨drcCfgWrite m v.toNat s, congrArg Host.Outcome.next (if_pos hv), ?_⟩
    rcases drcCfgWrite_closed hg hinit with h | h
    · rw [h]
      exact ⟨rfl, rfl, rfl, hinit, rfl⟩
    · rw [h, isSet]
      refine ⟨getF_cfgIgnored_drc _ _ _ _ (by decide), getF_cfgIgnored_drc _ _ _ _ (by decide), getF_cfgIgnored_drc _ _ _ _ (by decide), ?_,
        cfgIgnored_drc_mem ..⟩
      rw [getF_cfgIgnored_drc _ _ _ _ (by decide)]
      exact hinit
  case trained =>
    intro s a b hdown hinit hready hstage hab
    refine ⟨dramReady s, congrArg Host.Outcome.next ((dramTraining_done a b hdown hinit hready hstage).trans (if_pos hab)), ?_, ?_, ?_, dramReady_same s⟩
    · unfold dramReady
      exact ArrayLaws.isSet_setF_one _ rfl
    · intro hecc k hk
      rw [rdByte, dramReady_mem, if_pos hecc]
      exact tabGet_tabDrop_in _ _ _ _ _ ⟨by omega, by simpa [ibeccLimit] using hk⟩
    · intro k hk
      rw [rdByte, dramReady_mem]
      split
      case isTrue hecc =>
        refine tabGet_tabDrop_out _ _ _ _ _ (.inr ?_)
        rcases hk with h | h
        · exact absurd hecc (by simp [h])
        · simpa [ibeccLimit] using h
      case isFalse => rfl
  case failed =>
    intro s hdown hinit hready hstage
    exact congrArg Host.Outcome.next (dramTraining_done false false hdown hinit hready hstage)
  case go =>
    intro s m v hv hg hinit hop
    obtain ⟨hpat, hop', howner⟩ := getF_trnCtl s v.toNat
    refine ⟨_, congrArg Host.Outcome.next ((if_pos hv).trans (drcTrnWrite_go hg hinit hv hop)), hpat, hop', howner, ?_, ?_,
      helperStarted_same ..⟩
    · simp [helperStarted]
    · simp [helperStarted]
  case done =>
    intro s ch errors deskew hrun he hd hemax hdmax
    exact ⟨_, congrArg Host.Outcome.next (trnDone_running hrun he hd hemax hdmax), by simp, tabGet_tabPut_same .., rfl⟩

end Sys2Proof.TrainingLaws
end

section
/-! The scrub engine (R373, R375). -/

namespace Sys2Proof.ScrubLaws

open Sys2Proof Sys2Proof.Machine

theorem scrubZero_taken {s : State} {m : Master} {base len : Nat} (hm : m.secure = true ∨ (m.priv = true ∧ m.part = 0))
    (hbase : base % 0x200000 = 0) (hlen : len % 0x200000 = 0) (hpos : 0 < len) (hend : base + len ≤ 0x800000000) (hroom : s.drc.zero.length < 5) :
    scrubZero m base len s = { s with drc := { s.drc with zero := s.drc.zero ++ [(base, len, false)] } } :=
  (if_pos ⟨hm, hbase, hlen, hpos, hend⟩).trans (if_pos hroom)

/-- The state with the first ZERO taken out of the engine. -/
def zeroTaken (s : State) (down : Bool) (rest : List (Nat × Nat × Bool)) : State :=
  { s with drc := { s.drc with zero := rest }, sec := { s.sec with scrubLeft := s.sec.scrubLeft - if down then 1 else 0 } }

theorem scrubDone_zeroes {s : State} {base len : Nat} {down : Bool} {rest : List (Nat × Nat × Bool)} (hz : s.drc.zero = (base, len, down) :: rest)
    (hg : busGate (zeroTaken s down rest) scrubMaster .system base len true = .pass) :
    scrubDone s = setF (zeroMem (zeroTaken s down rest) base len) F.DRC_SCRUB_STAT_DONE 1 := by
  unfold scrubDone
  rw [hz]
  show setF (match busGate (zeroTaken s down rest) scrubMaster .system base len true with
    | .pass => zeroMem (zeroTaken s down rest) base len
    | .refused s' _ => s'
    | .silent => zeroTaken s down rest) _ _ = _
  rw [hg]

/-- A patrol that is on, with no ZERO to do, reports what it finds block by block. -/
theorem dramPatrol_on {s : State} (hecc : isSet s F.DRC_CFG_IBECC = true) (hready : isSet s F.DRC_STAT_READY = true)
    (hon : getF s F.DRC_SCRUB_CTL_PATROL_US ≠ 0) (hidle : s.drc.zero = []) {a : Nat} (ha : a < 0x7C0000000) :
    dramPatrol [] s = s ∧ dramPatrol [(a, false)] s = raise s false 0x0164 1 none drcBlock 0xFFFF [] ∧
    dramPatrol [(a, true)] s = raise (markBlock s a 2) false 0x0165 2 (dramOwner s a) drcBlock 0xFFFF [a, (dramPos s a).ch, 38] := by
  have hlim : ¬ ibeccLimit ≤ a := Nat.not_le.mpr ha
  refine ⟨?_, ?_, ?_⟩ <;> unfold dramPatrol <;>
    simp only [hecc, hready, hon, hidle, Bool.not_true, Bool.false_eq_true, ne_eq, not_true_eq_false, or_false, if_false, List.foldl_cons, List.foldl_nil,
      hlim, if_true]
  rfl

/-- Settles O36, each clause by the command that it speaks of. -/
theorem scrubZeroesAndPatrols : Obligations.ScrubZeroesAndPatrols := by
  unfold Obligations.ScrubZeroesAndPatrols
  refine ⟨?queued, ?zeroed, ?idle, ?patrol⟩
  case queued =>
    intro s m base len hm hbase hlen hpos hend hroom
    exact congrArg Host.Outcome.next (scrubZero_taken hm hbase hlen hpos hend hroom)
  case zeroed =>
    intro s base len down rest hz hg
    exact ⟨_, congrArg Host.Outcome.next (scrubDone_zeroes hz (hg _ rfl)), rfl, ArrayLaws.isSet_setF_one _ rfl,
      fun k hlo hhi => tabGet_tabDrop_in _ _ _ _ _ ⟨hlo, hhi⟩, fun k hk => tabGet_tabDrop_out _ _ _ _ _ hk, rfl⟩
  case idle =>
    intro s hz
    refine congrArg Host.Outcome.next ?_
    unfold scrubDone
    rw [hz]
  case patrol =>
    intro s a hecc hready hon hidle ha
    obtain ⟨hnone, hone, hbad⟩ := dramPatrol_on hecc hready hon hidle ha
    exact ⟨congrArg Host.Outcome.next hnone, congrArg Host.Outcome.next hone, congrArg Host.Outcome.next hbad⟩

end Sys2Proof.ScrubLaws
end

section
/-! Little-endian numbers within byte strings, and the messages of the Milestone Exchange Protocol (R389). -/

namespace Sys2Proof.MessageLaws

open Sys2Proof Sys2Proof.Machine

theorem length_leBytes (n v : Nat) : (leBytes n v).length = n := by
  induction n generalizing v with
  | zero => rfl
  | succ n ih => rw [leBytes, List.length_cons, ih]

theorem leVal_leBytes (n v : Nat) : leVal (leBytes n v) = v % 256 ^ n := by
  induction n generalizing v with
  | zero => rw [Nat.pow_zero, Nat.mod_one]; rfl
  | succ n ih =>
    rw [leBytes, leVal, ih, BitVec.toNat_ofNat, show 256 ^ (n + 1) = 256 * 256 ^ n from Nat.pow_succ', Nat.mod_mul]

/-- A number written at an offset reads there. -/
theorem leAt_leBytes {pre rest : Bytes} {o : Nat} (n v : Nat) (h : pre.length = o) : leAt (pre ++ (leBytes n v ++ rest)) o n = v % 256 ^ n := by
  rw [leAt, ← h, List.drop_left, List.take_left' (length_leBytes n v), leVal_leBytes]

theorem leVal_lt (bs : Bytes) : leVal bs < 256 ^ bs.length := by
  induction bs with
  | nil => exact Nat.one_pos
  | cons b bs ih =>
    have hb : b.toNat < 256 := b.isLt
    rw [leVal, List.length_cons, Nat.pow_succ']
    omega

/-- A field of `n` bytes holds a number below `256 ^ n`. -/
theorem leAt_lt (bs : Bytes) (o n : Nat) : leAt bs o n < 256 ^ n :=
  Nat.lt_of_lt_of_le (leVal_lt _) (Nat.pow_le_pow_right (by decide) (List.length_take_le ..))

/-! ### Messages -/

/-- A message from its flags on. -/
def msgRest (s : State) (tick : Nat) (body : Bytes) : Bytes :=
  leBytes 2 (if getF s F.MEP_STAT_STATE = 2 ∨ getF s F.MEP_STAT_STATE = 3 ∨ getF s F.MEP_STAT_STATE = 5 then 1 else 0) ++
    (leBytes 8 s.fuse.uid ++ (leBytes 8 tick ++ body))

theorem mepMsg_eq (s : State) (type tick : Nat) (body : Bytes) : mepMsg s type tick body = leBytes 1 1 ++ (leBytes 1 type ++
    (leBytes 1 (getF s F.MEP_CFG_DOMAIN) ++ (leBytes 1 (getF s F.MEP_STAT_MEMBER) ++ (leBytes 2 body.length ++ msgRest s tick body)))) := by
  simp only [mepMsg, msgRest, List.append_assoc]

theorem mType_mepMsg (s : State) {type : Nat} (tick : Nat) (body : Bytes) (h : type < 256) : mType (mepMsg s type tick body) = type := by
  rw [mType, mepMsg_eq, leAt_leBytes (o := 1) 1 type (length_leBytes ..)]
  exact Nat.mod_eq_of_lt h

theorem mBody_mepMsg (s : State) (type tick : Nat) {body : Bytes} (h : body.length < 65536) : mBody (mepMsg s type tick body) = body := by
  have hdrop : (mepMsg s type tick body).drop 24 = body := by
    unfold mepMsg
    exact List.drop_left' (by simp [length_leBytes])
  have hlen : leAt (mepMsg s type tick body) 4 2 = body.length := by
    have hpre := leAt_leBytes (rest := msgRest s tick body) (o := 4) 2 body.length
      (pre := leBytes 1 1 ++ (leBytes 1 type ++ (leBytes 1 (getF s F.MEP_CFG_DOMAIN) ++ leBytes 1 (getF s F.MEP_STAT_MEMBER))))
      (by simp [length_leBytes])
    simp only [List.append_assoc] at hpre
    rw [mepMsg_eq, hpre]
    exact Nat.mod_eq_of_lt h
  rw [mBody, hdrop, hlen, List.take_length]

end Sys2Proof.MessageLaws
end

section
/-! How a device joins its domain and follows its master (R388 to R393). -/

namespace Sys2Proof.MemberLaws

open Sys2Proof Sys2Proof.Machine Sys2Proof.MessageLaws

/-- The next HELLO is due once the last is 100 ms old, and not before. -/
theorem helloTimer_due {s u : State} {t : Nat} (hu : u = atPort t s) (hactive : mepActive u = true)
    (hlast : ∀ x ∈ u.net.mep.helloAt, x + 100000000 ≤ u.timeP) :
    helloTimer t s = setMep u { u.net.mep with helloAt := some u.timeP, out := mepMsg u 1 u.tick.num (helloBody u) } := by
  unfold helloTimer
  rw [← hu]
  dsimp only
  refine if_pos ⟨hactive, ?_⟩
  cases hx : u.net.mep.helloAt with
  | none => rfl
  | some x =>
    rw [Option.all_some]
    exact decide_eq_true (hlast x hx)

/-- What a message leaves of the device's state. -/
theorem setMep_same (s : State) (x : Mep) : { setMep s x with net := s.net } = s := rfl

theorem helloTimer_early {s u : State} {t x : Nat} (hu : u = atPort t s) (hx : u.net.mep.helloAt = some x) (hlt : u.timeP < x + 100000000) :
    helloTimer t s = u := by
  unfold helloTimer
  rw [← hu]
  dsimp only
  refine if_neg ?_
  rintro ⟨-, hall⟩
  rw [hx, Option.all_some] at hall
  exact absurd (of_decide_eq_true hall) (Nat.not_le_of_lt hlt)

theorem length_helloBody (s : State) : (helloBody s).length = 8 := by simp [helloBody, length_leBytes]

/-! ### HELLO (R389 to R391) -/

/-- A HELLO is noted in place of its sender's last one. -/
def helloNoted (u : State) (b : Bytes) : State :=
  setMep u { u.net.mep with hellos := u.net.mep.hellos.filter (fun x => x.1 != mSender b) ++
    [(mSender b, (if leAt (mBody b) 3 1 = 2 then 255 else leAt (mBody b) 2 1), u.timeP)] }

theorem helloNoted_same (u : State) (b : Bytes) : { helloNoted u b with net := u.net } = u := setMep_same ..

theorem mepHello_taken {s u : State} {b : Bytes} {t : Nat} (hu : u = atPort t s) (h : mepTakes u b true 1 = true) (hid : mSender b ≠ u.fuse.uid) :
    mepHello b true t s = if getF u F.MEP_STAT_STATE = 3 then masterHello (helloNoted u b) b else helloNoted u b := by
  unfold mepHello
  rw [← hu]
  dsimp only
  rw [if_neg (by simp [h, hid])]
  rfl

/-- Every HELLO noted of a sender is its last. -/
theorem mem_helloNoted {u : State} {b : Bytes} {x : Nat × Nat × Nat} (hx : x ∈ (helloNoted u b).net.mep.hellos) (hid : x.1 = mSender b) :
    x.2.2 = u.timeP := by
  have hx : x ∈ u.net.mep.hellos.filter (fun x => x.1 != mSender b) ++
    [(mSender b, (if leAt (mBody b) 3 1 = 2 then 255 else leAt (mBody b) 2 1), u.timeP)] := hx
  rcases List.mem_append.mp hx with h | h
  · have hne := (List.mem_filter.mp h).2
    simp [hid] at hne
  · rw [List.mem_singleton.mp h]

theorem find_member_none {s : State} {id : Nat} (h : ∀ x ∈ s.net.mep.members, x.id ≠ id) : s.net.mep.members.find? (fun x => x.id == id) = none :=
  List.find?_eq_none.mpr (fun x hx => by simp [h x hx])

/-- The state after a new device has been admitted at an index (R391). -/
def admitted (s : State) (b : Bytes) (i : Nat) : State :=
  mepSend (countMembers (setMep s { s.net.mep with members := s.net.mep.members ++ [{ idx := i, id := mSender b, fused := leAt (mBody b) 4 2 }] }))
    2 (mTick b) (leBytes 1 i ++ [1])

theorem admitted_same (s : State) (b : Bytes) (i : Nat) : { admitted s b i with net := s.net, regs := s.regs } = s := by
  simp only [admitted, mepSend, countMembers, setMep, setF]

theorem masterHello_admits {s : State} {b : Bytes} {i : Nat} (hnew : ∀ x ∈ s.net.mep.members, x.id ≠ mSender b) (hrole : leAt (mBody b) 3 1 ≠ 2)
    (h1 : leAt (mBody b) 0 1 ≤ 1) (h2 : 1 ≤ leAt (mBody b) 1 1) (hfree : freeIndex s (mMember b) = some i) (hroom : s.net.mep.members.length < 255) :
    masterHello s b = admitted s b i := by
  unfold masterHello
  dsimp only
  rw [find_member_none hnew]
  dsimp only
  rw [if_neg (fun h => hrole h.1), if_neg (by simp [h1, h2]), hfree]
  exact if_neg (by omega)

theorem masterHello_refuses {s : State} {b : Bytes} (hnew : ∀ x ∈ s.net.mep.members, x.id ≠ mSender b) (hrole : leAt (mBody b) 3 1 ≠ 2)
    (hbad : ¬ (leAt (mBody b) 0 1 ≤ 1 ∧ 1 ≤ leAt (mBody b) 1 1)) : masterHello s b = mepSend s 3 (mTick b) [1] := by
  unfold masterHello
  dsimp only
  rw [find_member_none hnew]
  dsimp only
  rw [if_neg (fun h => hrole h.1)]
  exact if_pos (by simpa [imp_iff_not_or] using hbad)

/-- What the master's answer to a new device leaves of its state. -/
theorem admitted_facts (s : State) (b : Bytes) (i : Nat) :
    (admitted s b i).net.mep.members = s.net.mep.members ++ [{ idx := i, id := mSender b, fused := leAt (mBody b) 4 2 }] ∧
    getF (admitted s b i) F.MEP_STAT_MEMBERS = (s.net.mep.members.length + 2) % 2 ^ F.MEP_STAT_MEMBERS.width ∧
    mType (admitted s b i).net.mep.out = 2 ∧ mBody (admitted s b i).net.mep.out = leBytes 1 i ++ [1] := by
  refine ⟨rfl, ?_, mType_mepMsg _ _ _ (by decide), mBody_mepMsg _ _ _ (by simp [length_leBytes])⟩
  show getF (countMembers _) _ = _
  rw [countMembers, getF_setF_same]
  show ((s.net.mep.members ++ [_]).length + 1) % _ = _
  rw [List.length_append]
  rfl

/-! ### ADMIT and REFUSE (R390, R391) -/

/-- A device is admitted at an index with version 1. -/
def memberAt (s : State) (i : Nat) : State :=
  setF (setF (setF (setF s F.MEP_STAT_STATE 1) F.MEP_STAT_REASON 0) F.MEP_STAT_MEMBER i) F.MEP_STAT_VERSION 1

theorem mepAdmit_joining {s : State} {b : Bytes} (h : mepTakes s b true 2 = true) (hst : getF s F.MEP_STAT_STATE = 1 ∨ getF s F.MEP_STAT_STATE = 4)
    (hver : leAt (mBody b) 1 1 = 1) : mepAdmit b true s = memberAt s (leAt (mBody b) 0 1) := by
  unfold mepAdmit
  dsimp only
  rw [if_neg (by simp [h, hver]), if_pos hst]
  rfl

theorem memberAt_facts (s : State) {i : Nat} (hi : i < 256) : getF (memberAt s i) F.MEP_STAT_STATE = 1 ∧ getF (memberAt s i) F.MEP_STAT_REASON = 0 ∧
    getF (memberAt s i) F.MEP_STAT_MEMBER = i ∧ getF (memberAt s i) F.MEP_STAT_VERSION = 1 := by
  unfold memberAt
  refine ⟨?_, ?_, ?_, ?_⟩
  · rw [getF_setF_ne _ _ _ _ (by decide), getF_setF_ne _ _ _ _ (by decide), getF_setF_ne _ _ _ _ (by decide), getF_setF_same]
    rfl
  · rw [getF_setF_ne _ _ _ _ (by decide), getF_setF_ne _ _ _ _ (by decide), getF_setF_same]
    rfl
  · rw [getF_setF_ne _ _ _ _ (by decide), getF_setF_same]
    exact Nat.mod_eq_of_lt hi
  · rw [getF_setF_same]
    rfl

theorem memberAt_same (s : State) (i : Nat) : { memberAt s i with regs := s.regs } = s := by simp only [memberAt, setF]

theorem mepRefuse_joining {s : State} {b : Bytes} (h : mepTakes s b true 3 = true) (hst : getF s F.MEP_STAT_STATE = 1) :
    mepRefuse b true s = netRaise (setF (setF s F.MEP_STAT_STATE 4) F.MEP_STAT_REASON (leAt (mBody b) 0 1)) 0x0220 none := if_pos ⟨h, hst⟩

/-! ### SCHEDULE (R392, R393) -/

/-- A device has taken the first schedule of a tick. -/
def scheduled (s : State) (b : Bytes) : State :=
  setF { s with
    net := { s.net with mep := { s.net.mep with
      sched := some (mTick b, leAt (mBody b) 0 8, leAt (mBody b) 12 2),
      origin := some ((leAt (mBody b) 0 8 : Int) - ((mTick b * leAt (mBody b) 8 4 * 1000 : Nat) : Int)),
      period := leAt (mBody b) 8 4, missed := 0, master := some (leAt (mBody b) 14 1, mSender b) } },
    tick := { s.tick with nextCeil := some (mTick b, leAt (mBody b) 12 2) } } F.MEP_STAT_STATE 2

/-- The first schedule of a tick from the device's master, or from any when it has none. -/
theorem takeSchedule_first {s : State} {b : Bytes} (hfirst : ∀ x ∈ s.net.mep.sched, x.1 < mTick b) (hmaster : ∀ x ∈ s.net.mep.master, x.2 = mSender b) :
    takeSchedule s b = scheduled s b := by
  have hany : ∀ f : Nat × Nat → Bool, s.net.mep.master.any (fun x => x.2 != mSender b && f x) = false := by
    intro f
    cases hm : s.net.mep.master with
    | none => rfl
    | some x => simp [hmaster x hm]
  have hother : s.net.mep.master.any (fun x => x.2 != mSender b) = false := by simpa using hany (fun _ => true)
  have hsame : s.net.mep.sched.filter (fun x => x.1 == mTick b) = none := by
    cases hs : s.net.mep.sched with
    | none => rfl
    | some x => simp [Option.filter, (hfirst x hs).ne]
  have hlater : s.net.mep.sched.any (fun x => decide (mTick b < x.1)) = false := by
    cases hs : s.net.mep.sched with
    | none => rfl
    | some x => simpa using (hfirst x hs).le
  unfold takeSchedule
  simp only [hany, hother, hsame, hlater, Bool.false_and, Bool.false_eq_true, if_false]
  rfl

theorem takeSchedule_earlier {s : State} {b : Bytes} {x : Nat × Nat × Nat} (hs : s.net.mep.sched = some x) (h : mTick b < x.1) :
    takeSchedule s b = setF s F.MEP_STAT_STATE 2 := by
  unfold takeSchedule
  exact if_pos (by simp [hs, h])

theorem mepSchedule_member {s : State} {b : Bytes} (h : mepTakes s b true 4 = true) (hst : getF s F.MEP_STAT_STATE = 2 ∨ getF s F.MEP_STAT_STATE = 5 ∨
    (getF s F.MEP_STAT_STATE = 1 ∧ getF s F.MEP_STAT_VERSION = 1)) : mepSchedule b true s = takeSchedule s b := by
  unfold mepSchedule
  dsimp only
  rw [if_neg (by simp [h]), if_neg (by omega), if_pos hst]

theorem mepSchedule_master {s : State} {b : Bytes} (h : mepTakes s b true 4 = true) (hst : getF s F.MEP_STAT_STATE = 3)
    (hbetter : better (leAt (mBody b) 14 1, mSender b) (ownPrio s, s.fuse.uid) = true) :
    mepSchedule b true s = setMep s { s.net.mep with yield_ := true, master := some (leAt (mBody b) 14 1, mSender b) } := by
  unfold mepSchedule
  dsimp only
  rw [if_neg (by simp [h]), if_pos hst, if_pos hbetter]

/-- Settles O40, each clause by what the message does in the device's state. -/
theorem membersJoinAndFollow : Obligations.MembersJoinAndFollow := by
  unfold Obligations.MembersJoinAndFollow
  refine ⟨?timer, ?noted, ?master, ?admission, ?refuse, ?follows, ?earlier, ?yields⟩
  case timer =>
    intro s u t hu hactive
    refine ⟨fun hlast => ?_, fun x hx hlt => congrArg Host.Outcome.next (helloTimer_early hu hx hlt)⟩
    exact ⟨_, congrArg Host.Outcome.next (helloTimer_due hu hactive hlast), rfl, mType_mepMsg _ _ _ (by decide),
      mBody_mepMsg _ _ _ (by rw [length_helloBody]; decide), setMep_same ..⟩
  case noted =>
    intro s u b t hu h hid hst
    exact ⟨helloNoted u b, congrArg Host.Outcome.next ((mepHello_taken hu h hid).trans (if_neg hst)), List.getLast?_concat .., fun x hx => mem_helloNoted hx,
      helloNoted_same u b⟩
  case master =>
    intro s u b t hu h hid hst hnew hrole
    have hmaster : mepHello b true t s = masterHello (helloNoted u b) b := (mepHello_taken hu h hid).trans (if_pos hst)
    refine ⟨fun i h1 h2 hfree hroom => ?_, fun hbad => ?_⟩
    · have heq : masterHello (helloNoted u b) b = admitted (helloNoted u b) b i := masterHello_admits hnew hrole h1 h2 hfree hroom
      obtain ⟨hmembers, hcount, htype, hbody⟩ := admitted_facts (helloNoted u b) b i
      exact ⟨admitted (helloNoted u b) b i, congrArg Host.Outcome.next (hmaster.trans heq), hmembers, hcount, htype, hbody,
        congrArg (fun v : State => { v with net := u.net }) (admitted_same (helloNoted u b) b i)⟩
    · have heq : masterHello (helloNoted u b) b = mepSend (helloNoted u b) 3 (mTick b) [1] := masterHello_refuses hnew hrole hbad
      exact ⟨mepSend (helloNoted u b) 3 (mTick b) [1], congrArg Host.Outcome.next (hmaster.trans heq), rfl, mType_mepMsg _ _ _ (by decide),
        mBody_mepMsg _ _ _ (by decide), congrArg (fun v : State => { v with net := u.net }) (setMep_same (helloNoted u b) _)⟩
  case admission =>
    intro s b h hst hver
    obtain ⟨hstate, hreason, hmember, hversion⟩ := memberAt_facts s (leAt_lt (mBody b) 0 1)
    exact ⟨_, congrArg Host.Outcome.next (mepAdmit_joining h hst hver), hstate, hreason, hmember, hversion, memberAt_same ..⟩
  case refuse => exact fun s b h hst => congrArg Host.Outcome.next (mepRefuse_joining h hst)
  case follows =>
    intro s b h hst hfirst hmaster
    exact ⟨scheduled s b, congrArg Host.Outcome.next ((mepSchedule_member h hst).trans (takeSchedule_first hfirst hmaster)), rfl, rfl, rfl, rfl, rfl, rfl,
      getF_setF_same .., rfl⟩
  case earlier =>
    intro s b x h hst hs hlt
    exact congrArg Host.Outcome.next ((mepSchedule_member h (by omega)).trans (takeSchedule_earlier hs hlt))
  case yields => exact fun s b h hst hbetter => congrArg Host.Outcome.next (mepSchedule_master h hst hbetter)

end Sys2Proof.MemberLaws
end

section
/-! How the master collects reports and schedules edges, and what a member does without a schedule (R392 to R396). -/

namespace Sys2Proof.MasterLaws

open Sys2Proof Sys2Proof.Machine Sys2Proof.MessageLaws

/-! ### Reports (R393, R394) -/

theorem any_sched_before {o : Option (Nat × Nat × Nat)} {k : Nat} (h : ∀ y ∈ o, y.1 < k) : o.any (fun x => decide (k ≤ x.1)) = false := by
  cases o with
  | none => rfl
  | some y =>
    rw [Option.any_some]
    exact decide_eq_false (Nat.not_le_of_lt (h y rfl))

/-- A report is kept in place of the member's last one of the tick. -/
def reportKept (s : State) (b : Bytes) (x : MepMember) : State :=
  setMep s { s.net.mep with reports := s.net.mep.reports.filter (fun r => !(r.1 == mTick b && r.2.1 == x.idx)) ++
    [(mTick b, x.idx, leAt (mBody b) 22 2, leAt (mBody b) 20 2)] }

theorem mepReport_kept {s : State} {b : Bytes} {x : MepMember} (h : mepTakes s b true 5 = true) (hst : getF s F.MEP_STAT_STATE = 3)
    (hopen : ∀ y ∈ s.net.mep.sched, y.1 < mTick b + 2) (hfind : s.net.mep.members.find? (fun y => y.id == mSender b) = some x) :
    mepReport b true s = reportKept s b x := by
  have hlate : s.net.mep.sched.any (fun y => decide (mTick b + 2 ≤ y.1)) = false := any_sched_before hopen
  unfold mepReport
  dsimp only
  rw [if_neg (by simp [h, hst, hlate]), hfind]
  rfl

theorem reportKept_same (s : State) (b : Bytes) (x : MepMember) : { reportKept s b x with net := s.net } = s := rfl

theorem mem_reportKept {s : State} {b : Bytes} {x : MepMember} {r : Nat × Nat × Nat × Nat} (hr : r ∈ (reportKept s b x).net.mep.reports)
    (htick : r.1 = mTick b) (hidx : r.2.1 = x.idx) : r.2.2 = (leAt (mBody b) 22 2, leAt (mBody b) 20 2) := by
  have hr : r ∈ s.net.mep.reports.filter (fun r => !(r.1 == mTick b && r.2.1 == x.idx)) ++
    [(mTick b, x.idx, leAt (mBody b) 22 2, leAt (mBody b) 20 2)] := hr
  rcases List.mem_append.mp hr with h | h
  · have hne := (List.mem_filter.mp h).2
    simp [htick, hidx] at hne
  · rw [List.mem_singleton.mp h]

/-! ### The ceiling (R395, R396) -/

theorem leastOf_le (l : List Nat) (b : Nat) : leastOf l b ≤ b ∧ ∀ x ∈ l, leastOf l b ≤ x := by
  induction l generalizing b with
  | nil => exact ⟨le_rfl, fun x hx => absurd hx (by simp)⟩
  | cons y ys ih =>
    obtain ⟨hle, hall⟩ := ih (min b y)
    have hcons : leastOf (y :: ys) b = leastOf ys (min b y) := rfl
    rw [hcons]
    refine ⟨hle.trans (min_le_left _ _), fun x hx => ?_⟩
    rcases List.mem_cons.mp hx with rfl | hx
    · exact hle.trans (min_le_right _ _)
    · exact hall x hx

/-- While a member asks for pace the ceiling formed is the least of the one before and those asked for. -/
theorem formCeiling_pace (s : State) (c1 : Nat) {reps : List (Nat × Nat)} (a : Bool) (fused streak : Nat) (h : ∃ r ∈ reps, r.1 ≠ 0) :
    (formCeiling s c1 reps a fused streak).1 = leastOf ((reps.map (·.1)).filter (· != 0)) c1 := by
  obtain ⟨r, hr, h0⟩ := h
  have hne : (reps.map (·.1)).filter (· != 0) ≠ [] := List.ne_nil_of_mem (List.mem_filter.mpr ⟨List.mem_map_of_mem hr, by simpa using h0⟩)
  unfold formCeiling
  dsimp only
  rw [if_pos hne]

/-! ### The schedules that the master sends (R393, R394) -/

/-- The state after the SCHEDULE of edge `k` while no better master has appeared. -/
def scheduleSent (s : State) (k ceil streak : Nat) : State :=
  { s with
    net := { s.net with mep := { s.net.mep with
      sched := some (k, domainEdge s k, ceil), streak := streak,
      out := mepMsg s 4 k (leBytes 8 (domainEdge s k) ++ leBytes 4 s.net.mep.period ++ leBytes 2 ceil ++ leBytes 1 (ownPrio s) ++ [0]), yield_ := false,
      reports := s.net.mep.reports.filter (fun r => decide (k ≤ r.1 + 1)) } },
    tick := { s.tick with nextCeil := some (k, ceil) } }

theorem sendSchedule_stays {s : State} (k ceil streak : Nat) (h : s.net.mep.yield_ = false) : sendSchedule s k ceil streak = scheduleSent s k ceil streak := by
  unfold sendSchedule
  dsimp only
  rw [h]
  rfl

theorem scheduleSent_type (s : State) (k ceil streak : Nat) : mType (scheduleSent s k ceil streak).net.mep.out = 4 := mType_mepMsg _ _ _ (by decide)

/-- Each member that reported or has missed fewer than seven before stays. -/
theorem afterCollect_all {m : Mep} {n : Nat} (h : ∀ y ∈ m.members, hasReport m n y.idx = true ∨ y.missing < 7) :
    afterCollect m n = m.members.map (fun x => { x with missing := if hasReport m n x.idx then 0 else x.missing + 1 }) := by
  unfold afterCollect
  refine List.filter_eq_self.mpr (fun x hx => ?_)
  obtain ⟨y, hy, rfl⟩ := List.mem_map.mp hx
  refine decide_eq_true ?_
  dsimp only
  split
  · decide
  · have := (h y hy).resolve_left ‹_›
    omega

/-- The members as the master counts them after a collection. -/
def collected (u : State) (n : Nat) : State := countMembers (setMep u { u.net.mep with members := afterCollect u.net.mep n })

section
variable {s u : State} {t : Nat} (hu : u = atPort t s) (hactive : mepActive u = true) (hst : getF u F.MEP_STAT_STATE = 3)
  (hrun : u.tick.running = true) (hdue : u.tick.edge + 1000 * getF u F.MEP_CFG_COLLECT_US ≤ u.timeP)
  (hnew : ∀ y ∈ u.net.mep.sched, y.1 < u.tick.num + 1)
include hu hactive hst hrun hdue hnew

theorem collectDeadline_due : collectDeadline t s = if u.tick.num = 0 then
      sendSchedule u (u.tick.num + 1) (min u.tick.ceiling (leastOf (u.net.mep.members.map (·.fused)) u.fuse.aclkMax)) 0
    else
      sendSchedule ((List.range (u.net.mep.members.length - (afterCollect u.net.mep (u.tick.num - 1)).length)).foldl (fun s _ => netRaise s 0x0223 none)
        (collected u (u.tick.num - 1))) (u.tick.num + 1) (masterCeiling u (u.tick.num - 1)).1 (masterCeiling u (u.tick.num - 1)).2 := by
  have hsched : u.net.mep.sched.any (fun x => decide (u.tick.num + 1 ≤ x.1)) = false := any_sched_before hnew
  have hearly : ¬ u.timeP < u.tick.edge + 1000 * getF u F.MEP_CFG_COLLECT_US := Nat.not_lt_of_le hdue
  unfold collectDeadline
  rw [← hu]
  dsimp only
  rw [if_neg (by simp only [hactive, hst, hrun, hsched, hearly]; decide)]
  rfl

theorem collectDeadline_first (hyield : u.net.mep.yield_ = false) (h0 : u.tick.num = 0) : collectDeadline t s =
    scheduleSent u 1 (min u.tick.ceiling (leastOf (u.net.mep.members.map (·.fused)) u.fuse.aclkMax)) 0 := by
  rw [collectDeadline_due hu hactive hst hrun hdue hnew, if_pos h0, sendSchedule_stays _ _ _ hyield, h0]

theorem collectDeadline_later (hyield : u.net.mep.yield_ = false) (h0 : u.tick.num ≠ 0)
    (hall : ∀ y ∈ u.net.mep.members, hasReport u.net.mep (u.tick.num - 1) y.idx = true ∨ y.missing < 7) : collectDeadline t s =
    scheduleSent (collected u (u.tick.num - 1)) (u.tick.num + 1) (masterCeiling u (u.tick.num - 1)).1 (masterCeiling u (u.tick.num - 1)).2 := by
  have hnone : u.net.mep.members.length - (afterCollect u.net.mep (u.tick.num - 1)).length = 0 := by
    rw [afterCollect_all hall, List.length_map, Nat.sub_self]
  rw [collectDeadline_due hu hactive hst hrun hdue hnew, if_neg h0, hnone, List.range_zero, List.foldl_nil, sendSchedule_stays]
  exact hyield

end

theorem collected_same (u : State) (n : Nat) : { collected u n with net := u.net, regs := u.regs } = u := by
  simp only [collected, countMembers, setMep, setF]

/-! ### Without a schedule (R393) -/

/-- The ceiling that a member keeps to when it extrapolates. -/
def ownCeiling (u : State) : Nat := if leAt u.tick.record 22 2 = 0 then u.tick.ceiling else min u.tick.ceiling (leAt u.tick.record 22 2)

theorem ownCeiling_le (u : State) : ownCeiling u ≤ u.tick.ceiling := by
  unfold ownCeiling
  split
  · exact le_rfl
  · exact min_le_left _ _

/-- A member has extrapolated the next edge. -/
def extrapolated (u : State) : State :=
  setF { u with
    net := { u.net with mep := { u.net.mep with
      sched := some (u.tick.num + 1, domainEdge u (u.tick.num + 1), ownCeiling u), missed := u.net.mep.missed + 1 } },
    tick := { u.tick with nextCeil := some (u.tick.num + 1, ownCeiling u) } } F.MEP_STAT_STATE 5

theorem extrapolated_same (u : State) : { extrapolated u with net := u.net, tick := u.tick, regs := u.regs } = u := by
  simp only [extrapolated, setF]

theorem scheduleMissing_due {s u : State} {t : Nat} (hu : u = atPort t s) (hactive : mepActive u = true)
    (hst : getF u F.MEP_STAT_STATE = 2 ∨ getF u F.MEP_STAT_STATE = 5) (hrun : u.tick.running = true)
    (hnew : ∀ y ∈ u.net.mep.sched, y.1 < u.tick.num + 1) (hdue : domainEdge u (u.tick.num + 1) ≤ u.timeP + 20000) :
    scheduleMissing t s = netRaise (extrapolated u) 0x0221 none := by
  have hsched : u.net.mep.sched.any (fun x => decide (u.tick.num + 1 ≤ x.1)) = false := any_sched_before hnew
  have hearly : ¬ u.timeP + 20000 < domainEdge u (u.tick.num + 1) := Nat.not_lt_of_le hdue
  unfold scheduleMissing
  rw [← hu]
  dsimp only
  rw [if_neg (by simp only [hactive, hst, hrun, hsched, hearly]; decide)]
  rfl

/-! ### A new master (R392) -/

/-- A candidate has become master, with no members yet. -/
def tookOver (u : State) : State :=
  countMembers (setF (setMep u { u.net.mep with master := none, members := [], reports := [], streak := 0, missed := 0, yield_ := false })
    F.MEP_STAT_STATE 3)

theorem tookOver_same (u : State) : { tookOver u with net := u.net, regs := u.regs } = u := by
  simp only [tookOver, countMembers, setMep, setF]

theorem masterTakeover_due {s u : State} {t : Nat} (hu : u = atPort t s) (hactive : mepActive u = true)
    (hst : getF u F.MEP_STAT_STATE = 2 ∨ getF u F.MEP_STAT_STATE = 5) (hprio : getF u F.MEP_CFG_PRIO ≠ 0) (hmissed : 3 ≤ u.net.mep.missed)
    (hquiet : u.net.mep.hellos = []) : masterTakeover t s = netRaise (tookOver u) 0x0222 none := by
  have hown : 0 < ownPrio u := by
    unfold ownPrio
    split
    · decide
    · omega
  unfold masterTakeover
  rw [← hu]
  dsimp only
  rw [if_pos ⟨hactive, hst, hown, hmissed, by rw [hquiet]; rfl⟩]
  rfl

theorem tookOver_state (u : State) : getF (tookOver u) F.MEP_STAT_STATE = 3 := by
  unfold tookOver countMembers
  rw [getF_setF_ne _ _ _ _ (by decide), getF_setF_same]
  rfl

/-- Settles O41, each clause by the state that its command leaves. -/
theorem masterCollectsAndSchedules : Obligations.MasterCollectsAndSchedules := by
  unfold Obligations.MasterCollectsAndSchedules
  refine ⟨?report, ?deadline, ?ceiling, ?missing, ?takeover⟩
  case report =>
    intro s b x h hst hopen hfind
    exact ⟨reportKept s b x, congrArg Host.Outcome.next (mepReport_kept h hst hopen hfind), List.mem_append_right _ (List.mem_singleton_self _),
      fun r hr htick hidx => mem_reportKept hr htick hidx, reportKept_same s b x⟩
  case deadline =>
    intro s u t hu hactive hst hrun hdue hnew hyield
    refine ⟨fun h0 => ?_, fun h0 hall => ?_⟩
    · obtain ⟨hmax, hfused⟩ := leastOf_le (u.net.mep.members.map (·.fused)) u.fuse.aclkMax
      refine ⟨_, _, congrArg Host.Outcome.next (collectDeadline_first hu hactive hst hrun hdue hnew hyield h0), rfl, min_le_left _ _,
        (min_le_right _ _).trans hmax, fun y hy => (min_le_right _ _).trans (hfused _ (List.mem_map_of_mem hy)), rfl, scheduleSent_type .., rfl⟩
    · refine ⟨_, congrArg Host.Outcome.next (collectDeadline_later hu hactive hst hrun hdue hnew hyield h0 hall), rfl, ?_, scheduleSent_type .., ?_⟩
      · show (afterCollect u.net.mep (u.tick.num - 1)).map (·.id) = _
        rw [afterCollect_all hall, List.map_map]
        rfl
      · exact congrArg (fun v : State => { v with net := u.net, tick := u.tick }) (collected_same u (u.tick.num - 1))
  case ceiling =>
    intro s c1 reps a fused streak h
    obtain ⟨hle, hall⟩ := leastOf_le ((reps.map (·.1)).filter (· != 0)) c1
    rw [formCeiling_pace s c1 a fused streak h]
    exact ⟨hle, fun r hr h0 => hall _ (List.mem_filter.mpr ⟨List.mem_map_of_mem hr, by simpa using h0⟩)⟩
  case missing =>
    intro s u t hu hactive hst hrun hnew hdue
    exact ⟨extrapolated u, ownCeiling u, congrArg Host.Outcome.next (scheduleMissing_due hu hactive hst hrun hnew hdue), rfl, ownCeiling_le u, rfl, rfl,
      getF_setF_same .., extrapolated_same u⟩
  case takeover =>
    intro s u t hu hactive hst hprio hmissed hquiet
    exact ⟨tookOver u, congrArg Host.Outcome.next (masterTakeover_due hu hactive hst hprio hmissed hquiet), tookOver_state u, rfl, rfl, rfl, rfl, rfl,
      tookOver_same u⟩

end Sys2Proof.MasterLaws
end

section
/-! Step barriers (R398, R400). -/

namespace Sys2Proof.BarrierLaws

open Sys2Proof Sys2Proof.Machine Sys2Proof.MessageLaws

/-! ### Job slots -/

@[simp] theorem getBar_setBar_same (s : State) (i : Nat) (x : Option Barrier) : getBar (setBar s i x) i = x := tabGet_tabPut_same ..

theorem getBar_setBar_ne (s : State) {i j : Nat} (x : Option Barrier) (h : j ≠ i) : getBar (setBar s i x) j = getBar s j := tabGet_tabPut_ne _ _ _ _ _ _ h

theorem setBar_same (s : State) (i : Nat) (x : Option Barrier) : { setBar s i x with net := s.net } = s := rfl

/-- The slot that a job is found in holds it. -/
theorem getBar_of_barOf {s : State} {job i : Nat} {x : Barrier} (h : barOf s job = some (i, x)) : getBar s i = some x := by
  obtain ⟨k, -, hk⟩ := List.exists_of_findSome?_eq_some h
  split at hk
  case h_1 y hy =>
    split at hk
    · cases hk
      exact hy
    · cases hk
  case h_2 => cases hk

/-- A barrier's participants follow from its record in memory. -/
theorem barWho_of_mem {s t : State} {x y : Barrier} (hmem : t.mem = s.mem) (haddr : y.addr = x.addr) : barWho t y = barWho s x := by
  simp only [barWho, barRec, hmem, haddr]

/-! ### NET_BARREC (R400) -/

theorem bitOf_top {v : Nat} (h : v < 2 ^ 31) : bitOf (v + 2 ^ 31) 31 = true ∧ bitOf v 31 = false := by
  simp only [bitOf]
  constructor <;> simp <;> omega

theorem bitsOf_top (v : Nat) {lo n : Nat} (h : lo + n ≤ 31) : bitsOf (v + 2 ^ 31) lo n = bitsOf v lo n := by
  obtain ⟨k, hk⟩ : ∃ k, 31 = lo + n + k := ⟨31 - lo - n, by omega⟩
  have hsplit : 2 ^ 31 = 2 ^ lo * (2 ^ n * 2 ^ k) := by rw [hk, Nat.pow_add, Nat.pow_add, Nat.mul_assoc]
  rw [bitsOf, bitsOf, hsplit, Nat.add_mul_div_left _ _ (Nat.two_pow_pos lo), Nat.add_mul_mod_self_left]

section
variable {s : State} {m : Master} {v : BitVec 31}

theorem barrecWrite_valid (hg : regGate s true 2 0x54 m (v.toNat + 2 ^ 31) = .pass) : barrecWrite m (v.toNat + 2 ^ 31) s =
    if saveArea ≤ emberBase + 64 * bitsOf v.toNat 6 15 then cfgIgnored s true 2 0x54 m (v.toNat + 2 ^ 31)
    else setBar s (bitsOf v.toNat 0 4) (some { addr := emberBase + 64 * bitsOf v.toNat 6 15 }) := by
  have hg' : regGate s true netBlock 0x54 m (v.toNat + 2 ^ 31) = .pass := hg
  rw [barrecWrite, gated, hg']
  dsimp only
  rw [(bitOf_top v.isLt).1, bitsOf_top _ (by decide), bitsOf_top _ (by decide)]
  rfl

theorem barrecWrite_invalid (hg : regGate s true 2 0x54 m v.toNat = .pass) : barrecWrite m v.toNat s = setBar s (bitsOf v.toNat 0 4) none := by
  have hg' : regGate s true netBlock 0x54 m v.toNat = .pass := hg
  rw [barrecWrite, gated, hg']
  exact if_pos (bitOf_top v.isLt).2

end

/-! ### ARRIVE -/

/-- A barrier with a participant's arrival noted. -/
def noted (x : Barrier) (who step : Nat) : Barrier :=
  { x with arrived := if x.arrived.contains (who, step) then x.arrived else x.arrived ++ [(who, step)] }

theorem noted_addr (x : Barrier) (who step : Nat) : (noted x who step).addr = x.addr := rfl

theorem noted_contains_self (x : Barrier) (who step : Nat) : (noted x who step).arrived.contains (who, step) = true := by
  simp only [noted]
  split
  · assumption
  · simp

theorem noted_contains_old {x : Barrier} {p : Nat × Nat} (who step : Nat) (h : x.arrived.contains p = true) : (noted x who step).arrived.contains p = true := by
  simp only [noted]
  split
  · exact h
  · simp only [List.contains_iff_mem] at h ⊢
    exact List.mem_append_left _ h

theorem noted_contains_ne {x : Barrier} {p : Nat × Nat} {who step : Nat} (hne : p ≠ (who, step)) (h : x.arrived.contains p = false) :
    (noted x who step).arrived.contains p = false := by
  simp only [noted]
  split
  · exact h
  · simp only [← Bool.not_eq_true, List.contains_iff_mem] at h ⊢
    simp [h, hne]

theorem barArrive_slot {s : State} {i : Nat} {x : Barrier} (who step : Nat) (h : getBar s i = some x) :
    barArrive s i who step = barCheck (setBar s i (some (noted x who step))) i := by
  unfold barArrive
  rw [h]
  rfl

/-- While a participant is missing the barrier waits. -/
theorem barCheck_waits {s : State} {i p : Nat} {x : Barrier} (h : getBar s i = some x) (hp : p ∈ barWho s x)
    (hmiss : x.arrived.contains (p, x.step) = false) : barCheck s i = s := by
  have hall : ¬ (barWho s x).all (fun p => x.arrived.contains (p, x.step)) = true := fun hall =>
    absurd (List.all_eq_true.mp hall p hp) (by simp only [hmiss, Bool.false_eq_true, not_false_eq_true])
  unfold barCheck
  rw [h]
  exact if_neg (fun hc => hall hc.2)

/-- A barrier once it is released. -/
def released (x : Barrier) : Barrier := { x with wait := none, arrived := x.arrived.filter (fun y => y.2 != x.step) }

theorem barCheck_releases {s : State} {i : Nat} {x : Barrier} (h : getBar s i = some x) (hwait : x.wait.isSome = true)
    (hall : ∀ p ∈ barWho s x, x.arrived.contains (p, x.step) = true) : barCheck s i = barPost (setBar s i (some (released x))) x false := by
  unfold barCheck
  rw [h]
  exact if_pos ⟨hwait, List.all_eq_true.mpr hall⟩

/-- The entry that a release or a timeout posts. -/
def releaseEntry (s : State) (x : Barrier) (late : Bool) : QEntry :=
  { cairn := false, data := leBytes 2 (barJob s x) ++ [if late then 1 else 0, 0] ++ leBytes 4 x.step ++ List.replicate 8 0, producer := 44 }

theorem barPost_taken {s : State} {x : Barrier} (late : Bool) (hadmit : qRefusal (getQ s (barQueue s x)) (getQ s (barQueue s x)).part = none)
    (hcons : (getQ s (barQueue s x)).consumer < 24 ∨ 28 ≤ (getQ s (barQueue s x)).consumer) : barPost s x late =
    setQ s (barQueue s x) { getQ s (barQueue s x) with entries := (getQ s (barQueue s x)).entries ++ [releaseEntry s x late] } :=
  CodecLaws.postData_taken _ 44 hadmit hcons

theorem mepArrive_taken {s : State} {b : Bytes} {i w : Nat} {x : Barrier} (h : mepTakes s b true 6 = true) (hw : mMember b = some w)
    (hjob : barOf s (leAt (mBody b) 0 2) = some (i, x)) : mepArrive b true s = barCheck (setBar s i (some (noted x w (leAt (mBody b) 4 4)))) i := by
  unfold mepArrive
  rw [if_pos h, hw, hjob]
  exact barArrive_slot _ _ (getBar_of_barOf hjob)

/-- The state in which the last participant's arrival has released a barrier. -/
def releasing (s : State) (i w : Nat) (x : Barrier) : State :=
  setBar (setBar s i (some (noted x w x.step))) i (some (released (noted x w x.step)))

theorem releasing_same (s : State) (i w : Nat) (x : Barrier) : { releasing s i w x with net := s.net } = s := by
  simp only [releasing, setBar, setNet]

/-- The last participant's ARRIVE posts the release entry. -/
theorem mepArrive_last {s : State} {b : Bytes} {i w : Nat} {x : Barrier} (h : mepTakes s b true 6 = true) (hw : mMember b = some w)
    (hjob : barOf s (leAt (mBody b) 0 2) = some (i, x)) (hwait : x.wait.isSome = true) (hstep : leAt (mBody b) 4 4 = x.step)
    (hall : ∀ p ∈ barWho s x, p ≠ w → x.arrived.contains (p, x.step) = true)
    (hadmit : qRefusal (getQ s (barQueue s x)) (getQ s (barQueue s x)).part = none)
    (hcons : (getQ s (barQueue s x)).consumer < 24 ∨ 28 ≤ (getQ s (barQueue s x)).consumer) :
    mepArrive b true s = setQ (releasing s i w x) (barQueue s x)
      { getQ s (barQueue s x) with entries := (getQ s (barQueue s x)).entries ++ [releaseEntry s x false] } := by
  have hnoted : ∀ p ∈ barWho s x, (noted x w x.step).arrived.contains (p, x.step) = true := by
    intro p hp
    by_cases hpw : p = w
    · rw [hpw]
      exact noted_contains_self ..
    · exact noted_contains_old _ _ (hall p hp hpw)
  have hrel : barCheck (setBar s i (some (noted x w x.step))) i = barPost (releasing s i w x) (noted x w x.step) false :=
    barCheck_releases (getBar_setBar_same ..) hwait hnoted
  have hpost : barPost (releasing s i w x) (noted x w x.step) false = setQ (releasing s i w x) (barQueue s x)
      { getQ s (barQueue s x) with entries := (getQ s (barQueue s x)).entries ++ [releaseEntry s x false] } :=
    barPost_taken (s := releasing s i w x) (x := noted x w x.step) false hadmit hcons
  rw [mepArrive_taken h hw hjob, hstep, hrel, hpost]

/-! ### NET_BARRIER (R398) -/

theorem fullStep_low {prev low : Nat} (h : low < 65536) : fullStep prev low % 65536 = low := by
  unfold fullStep
  omega

theorem fullStep_lt (prev low : Nat) : fullStep prev low < 2 ^ 32 := Nat.mod_lt _ (by decide)

/-- The body of the device's own ARRIVE. -/
def arriveBody (job step : Nat) : Bytes := leBytes 2 job ++ leBytes 2 0 ++ leBytes 4 step

theorem arriveBody_job {job : Nat} (step : Nat) (h : job < 65536) : leAt (arriveBody job step) 0 2 = job := by
  rw [arriveBody, List.append_assoc]
  exact (leAt_leBytes (pre := []) 2 job rfl).trans (Nat.mod_eq_of_lt h)

theorem arriveBody_step (job : Nat) {step : Nat} (h : step < 2 ^ 32) : leAt (arriveBody job step) 4 4 = step := by
  have := leAt_leBytes (pre := leBytes 2 job ++ leBytes 2 0) (rest := []) (o := 4) 4 step (by simp [length_leBytes])
  rw [List.append_nil] at this
  exact this.trans (Nat.mod_eq_of_lt h)

/-- The job's slot as the device begins to wait on a step. -/
def waiting (s : State) (x : Barrier) (step : Nat) : Barrier := { x with step := step, wait := some (s.timeP + 1000000 * leAt (barRec s x) 4 2) }

/-- The state in which the device has sent its ARRIVE. -/
def arriveSent (s : State) (i job step : Nat) (x : Barrier) : State :=
  setBar (mepSend s 6 s.tick.num (arriveBody job step)) i (some (waiting s x step))

/-- Its own arrival is noted, and it waits. -/
def arriving (s : State) (i job step : Nat) (x : Barrier) : State :=
  setBar (arriveSent s i job step x) i (some (noted (waiting s x step) (getF s F.MEP_STAT_MEMBER) step))

theorem arriving_same (s : State) (i job step : Nat) (x : Barrier) : { arriving s i job step x with net := s.net } = s := by
  simp only [arriving, arriveSent, setBar, setNet, mepSend, setMep]

theorem arriving_out (s : State) (i job step : Nat) (x : Barrier) :
    (arriving s i job step x).net.mep.out = mepMsg s 6 s.tick.num (arriveBody job step) := rfl

theorem barrierWrite_waits {s : State} {m : Master} {v i step : Nat} {x : Barrier} (hg : regGate s true 2 0x58 m v = .pass)
    (hjob : barOf s (bitsOf v 0 16) = some (i, x)) (hstep : step = fullStep x.step (bitsOf v 16 16))
    (hmiss : ∃ p ∈ barWho s x, p ≠ getF s F.MEP_STAT_MEMBER ∧ x.arrived.contains (p, step) = false) :
    barrierWrite m v s = arriving s i (bitsOf v 0 16) step x := by
  obtain ⟨p, hp, hne, hno⟩ := hmiss
  have hg' : regGate s true netBlock 0x58 m v = .pass := hg
  rw [barrierWrite, gated, hg']
  dsimp only
  rw [hjob]
  dsimp only
  rw [← hstep]
  have hslot : barArrive (arriveSent s i (bitsOf v 0 16) step x) i (getF s F.MEP_STAT_MEMBER) step = arriving s i (bitsOf v 0 16) step x := by
    rw [barArrive_slot (s := arriveSent s i (bitsOf v 0 16) step x) _ _ (getBar_setBar_same ..)]
    have hwho : barWho (arriving s i (bitsOf v 0 16) step x) (noted (waiting s x step) (getF s F.MEP_STAT_MEMBER) step) = barWho s x :=
      barWho_of_mem (congrArg State.mem (arriving_same s i (bitsOf v 0 16) step x) :) (noted_addr ..)
    have hmiss : (noted (waiting s x step) (getF s F.MEP_STAT_MEMBER) step).arrived.contains (p, step) = false :=
      noted_contains_ne (fun h => hne (Prod.mk.inj h).1) hno
    exact barCheck_waits (s := arriving s i (bitsOf v 0 16) step x) (getBar_setBar_same ..) (by rw [hwho]; exact hp) hmiss
  exact hslot

theorem barrierTimeout_early {s u : State} {i t e : Nat} {x : Barrier} (hu : u = atPort t s) (hx : getBar u i = some x) (hw : x.wait = some e)
    (h : u.timeP < e) : barrierTimeout i t s = u := by
  unfold barrierTimeout
  rw [← hu]
  dsimp only
  rw [hx]
  dsimp only
  rw [if_neg]
  rw [hw, Option.any_some]
  exact ne_true_of_eq_false (decide_eq_false (Nat.not_le_of_lt h))

theorem barrierTimeout_due {s u : State} {i t e : Nat} {x : Barrier} (hu : u = atPort t s) (hx : getBar u i = some x) (hw : x.wait = some e)
    (h : e ≤ u.timeP) : barrierTimeout i t s = netRaise (barPost (setBar u i (some { x with wait := none })) x true) 0x0224 none := by
  unfold barrierTimeout
  rw [← hu]
  dsimp only
  rw [hx]
  dsimp only
  rw [if_pos]
  rw [hw, Option.any_some]
  exact decide_eq_true h

/-- Settles O42, each clause by what is noted in the job's slot. -/
theorem barriersGatherAndRelease : Obligations.BarriersGatherAndRelease := by
  unfold Obligations.BarriersGatherAndRelease
  refine ⟨?valid, ?invalid, ?unregistered, ?waits, fun prev low h => fullStep_low h, ?last, ?early, ?timeout⟩
  case valid =>
    intro s m v hg
    refine ⟨fun hlt => ?_, fun hle => ?_⟩
    · exact ⟨_, congrArg Host.Outcome.next ((barrecWrite_valid hg).trans (if_neg (Nat.not_le_of_lt hlt))), getBar_setBar_same ..,
        fun j hj => getBar_setBar_ne _ _ hj, setBar_same ..⟩
    · exact congrArg Host.Outcome.next ((barrecWrite_valid hg).trans (if_pos hle))
  case invalid =>
    intro s m v hg
    exact ⟨_, congrArg Host.Outcome.next (barrecWrite_invalid hg), getBar_setBar_same .., fun j hj => getBar_setBar_ne _ _ hj, setBar_same ..⟩
  case unregistered =>
    intro s m v hg hnone
    have hg' : regGate s true netBlock 0x58 m v.toNat = .pass := hg
    refine congrArg Host.Outcome.next ?_
    rw [barrierWrite, gated, hg']
    dsimp only
    rw [hnone]
    rfl
  case waits =>
    intro s m v i step x hg hjob hstep hmiss
    have hlt : step < 2 ^ 32 := hstep ▸ fullStep_lt ..
    have hlen : (arriveBody (bitsOf v.toNat 0 16) step).length < 65536 := by simp [arriveBody, length_leBytes]
    refine ⟨arriving s i (bitsOf v.toNat 0 16) step x, noted (waiting s x step) (getF s F.MEP_STAT_MEMBER) step,
      congrArg Host.Outcome.next (barrierWrite_waits hg hjob hstep hmiss), getBar_setBar_same .., rfl, rfl,
      noted_contains_self .., ?_, ?_, ?_, arriving_same ..⟩
    · rw [arriving_out]
      exact mType_mepMsg _ _ _ (by decide)
    · rw [arriving_out, mBody_mepMsg _ _ _ hlen]
      exact arriveBody_job _ (TickLaws.bitsOf_lt _ 0 16)
    · rw [arriving_out, mBody_mepMsg _ _ _ hlen]
      exact arriveBody_step _ hlt
  case last =>
    rintro s b i w q x h hw hjob hwait hstep hall rfl hadmit hcons
    refine ⟨_, released (noted x w x.step), congrArg Host.Outcome.next (mepArrive_last h hw hjob hwait hstep hall hadmit hcons), ?_, rfl, ?_, ?_⟩
    · exact getBar_setBar_same ..
    · rw [getQ_setQ_same]
      rfl
    · exact congrArg (fun v : State => { v with qm := s.qm }) (releasing_same s i w x)
  case early =>
    intro s b i w p x h hw hjob hp hmiss hne
    have hwaits : barCheck (setBar s i (some (noted x w (leAt (mBody b) 4 4)))) i = setBar s i (some (noted x w (leAt (mBody b) 4 4))) :=
      barCheck_waits (getBar_setBar_same ..) hp (noted_contains_ne hne hmiss)
    exact ⟨_, _, congrArg Host.Outcome.next ((mepArrive_taken h hw hjob).trans hwaits), getBar_setBar_same .., rfl, noted_contains_self .., setBar_same ..⟩
  case timeout =>
    intro s u i t e x hu hx hw
    refine ⟨fun hlt => congrArg Host.Outcome.next (barrierTimeout_early hu hx hw hlt), fun hle hadmit hcons => ?_⟩
    have hpost : barPost (setBar u i (some { x with wait := none })) x true =
        setQ (setBar u i (some { x with wait := none })) (barQueue u x)
          { getQ u (barQueue u x) with entries := (getQ u (barQueue u x)).entries ++ [releaseEntry u x true] } := barPost_taken true hadmit hcons
    refine ⟨_, congrArg Host.Outcome.next ((barrierTimeout_due hu hx hw hle).trans (congrArg (fun w => netRaise w 0x0224 none) hpost)), ?_, ?_⟩
    · exact getBar_setBar_same ..
    · rw [getQ_setQ_same]
      rfl

end Sys2Proof.BarrierLaws
end

section
/-! The rings of the endpoint's functions: what each operation leaves of them (R405 to R408). -/

namespace Sys2Proof.RingLaws

open Sys2Proof Sys2Proof.Machine

/-! ### A ring after another was put (R405) -/

theorem setRing_same (s : State) (g n : Nat) (r : Ring) : { setRing s g n r with hif := s.hif } = s := rfl

theorem getFn_setRing {s : State} {g : Nat} (n : Nat) (r : Ring) (hg : g < s.hif.fns.length) :
    getFn (setRing s g n r) g = { getFn s g with rings := (getFn s g).rings.set n r } := WordLaws.nth_set_same _ _ hg

theorem getRing_setRing {s : State} {g n : Nat} (r : Ring) (hg : g < s.hif.fns.length) (hn : n < (getFn s g).rings.length) :
    getRing (setRing s g n r) g n = r := by
  rw [getRing, getFn_setRing n r hg]
  exact WordLaws.nth_set_same _ _ hn

theorem setRing_fns_length (s : State) (g n : Nat) (r : Ring) : (setRing s g n r).hif.fns.length = s.hif.fns.length := List.length_set

theorem setRing_rings_length {s : State} {g : Nat} (n : Nat) (r : Ring) (hg : g < s.hif.fns.length) :
    (getFn (setRing s g n r) g).rings.length = (getFn s g).rings.length := by
  rw [getFn_setRing n r hg, List.length_set]

/-- A ring that is put twice is the one put last. -/
theorem setRing_setRing {s : State} {g n : Nat} (r r' : Ring) (hg : g < s.hif.fns.length) : setRing (setRing s g n r) g n r' = setRing s g n r' := by
  have hfns : (setRing s g n r).hif.fns.set g { getFn (setRing s g n r) g with rings := (getFn (setRing s g n r) g).rings.set n r' } =
      s.hif.fns.set g { getFn s g with rings := (getFn s g).rings.set n r' } := by
    rw [getFn_setRing n r hg]
    exact (List.set_set ..).trans (by rw [List.set_set])
  rw [setRing, hfns]
  rfl

/-! ### A function at reset (R418) -/

theorem getF_resetRegs_in (s : State) {a n : Nat} {x : Fld} (h : 32 * a ≤ x.key ∧ x.key < 32 * a + 32 * n) : getF (resetRegs s a n) x = x.reset :=
  tabGet_tabDrop_in _ _ _ _ _ h

theorem getF_resetRegs_out (s : State) {a n : Nat} {x : Fld} (h : x.key < 32 * a ∨ 32 * a + 32 * n ≤ x.key) : getF (resetRegs s a n) x = getF s x :=
  tabGet_tabDrop_out _ _ _ _ _ h

/-- A field at its reset value is so after any reset. -/
theorem getF_resetRegs_reset (s : State) (a n : Nat) {x : Fld} (h : getF s x = x.reset) : getF (resetRegs s a n) x = x.reset := by
  by_cases hin : 32 * a ≤ x.key ∧ x.key < 32 * a + 32 * n
  · exact getF_resetRegs_in s hin
  · rw [getF_resetRegs_out s (by omega), h]

/-- The fields of a function's page of the block. -/
def inPage (g : Nat) (x : Fld) : Prop := 32 * (F.HIF_FSTAT_STATE g).addr ≤ x.key ∧ x.key < 32 * (F.HIF_FSTAT_STATE g).addr + 32 * 0x1000

theorem state_inPage (g : Nat) : inPage g (F.HIF_FSTAT_STATE g) := by
  simp only [inPage, Fld.key, F.HIF_FSTAT_STATE]
  omega

theorem enable_inPage (g : Nat) {n : Nat} (h : n < 4) : inPage g (F.HIF_RING_CFG_ENABLE g n) := by
  simp only [inPage, Fld.key, F.HIF_FSTAT_STATE, F.HIF_RING_CFG_ENABLE, Reg.HIF_FSTAT, Reg.HIF_RING_CFG]
  omega

/-- The function's rings and its page of registers are at reset. -/
def FnAtReset (s : State) (g : Nat) : Prop := (∀ n, getRing s g n = {}) ∧ ∀ x, inPage g x → getF s x = x.reset

theorem getRing_default (n : Nat) : nth (({} : HifFn).rings) n {} = {} := by
  show ((List.replicate 4 ({} : Ring))[n]?).getD {} = {}
  rw [List.getElem?_replicate]
  split <;> rfl

theorem getFn_fnReset_same (s : State) (g : Nat) : getFn (fnReset s g) g = {} := by
  show nth (s.hif.fns.set g {}) g {} = {}
  rw [nth, List.getElem?_set_self']
  cases s.hif.fns[g]? <;> rfl

theorem getFn_fnReset_ne (s : State) {g h : Nat} (hne : g ≠ h) : getFn (fnReset s h) g = getFn s g := WordLaws.nth_set_ne _ _ (Ne.symm hne)

theorem fnReset_atReset (s : State) (g : Nat) : FnAtReset (fnReset s g) g := by
  refine ⟨fun n => ?_, fun x hx => getF_resetRegs_in _ hx⟩
  rw [getRing, getFn_fnReset_same, getRing_default]

theorem fnReset_keeps_atReset {s : State} {g : Nat} (h : FnAtReset s g) (k : Nat) : FnAtReset (fnReset s k) g := by
  by_cases hk : g = k
  · rw [hk]
    exact fnReset_atReset s k
  · obtain ⟨hrings, hregs⟩ := h
    refine ⟨fun n => ?_, fun x hx => getF_resetRegs_reset _ _ _ (hregs x hx)⟩
    rw [getRing, getFn_fnReset_ne s hk]
    exact hrings n

theorem foldl_fnReset_atReset {l : List Nat} {g : Nat} (hg : g ∈ l) (s : State) : FnAtReset (l.foldl fnReset s) g := by
  have hkeeps : ∀ (l : List Nat) (u : State), FnAtReset u g → FnAtReset (l.foldl fnReset u) g := by
    intro l
    induction l with
    | nil => exact fun _ h => h
    | cons k ks ih => exact fun u h => ih _ (fnReset_keeps_atReset h k)
  induction l generalizing s with
  | nil => cases hg
  | cons k ks ih =>
    rcases List.mem_cons.mp hg with rfl | hg
    · exact hkeeps ks _ (fnReset_atReset s _)
    · exact ih hg _

theorem fnReset_same (s : State) (g : Nat) : { fnReset s g with hif := s.hif, regs := s.regs } = s := rfl

theorem foldl_fnReset_same (l : List Nat) (s : State) : { l.foldl fnReset s with hif := s.hif, regs := s.regs } = s := by
  induction l generalizing s with
  | nil => rfl
  | cons k ks ih => exact (congrArg (fun t : State => { t with hif := s.hif, regs := s.regs }) (ih (fnReset s k)) :)

/-- Of a function at reset every ring is disabled and empty, and its state is AWAITING_HELLO. -/
theorem FnAtReset.facts {s : State} {g : Nat} (h : FnAtReset s g) : getF s (F.HIF_FSTAT_STATE g) = 0 ∧
    ∀ n, n < 4 → isSet s (F.HIF_RING_CFG_ENABLE g n) = false ∧ getRing s g n = {} := by
  obtain ⟨hrings, hregs⟩ := h
  refine ⟨hregs _ (state_inPage g), fun n hn => ⟨?_, hrings n⟩⟩
  rw [isSet, hregs _ (enable_inPage g hn)]
  rfl

/-! ### Completions (R408) -/

section
variable {s : State} {g n : Nat} (hg : g < s.hif.fns.length) (hn : n < (getFn s g).rings.length)
include hg hn

/-- A written completion takes the ring's next slot, with its phase. -/
theorem getRing_writeCqe (e : Bytes) (noirq : Bool) : getRing (writeCqe s g n e noirq) g n = { getRing s g n with
    cqTail := ((getRing s g n).cqTail + 1) % cqSize s g n, cqUsed := (getRing s g n).cqUsed + 1,
    phase := if (getRing s g n).cqTail + 1 = cqSize s g n then !(getRing s g n).phase else (getRing s g n).phase } :=
  getRing_setRing _ hg hn

end

theorem writeCqe_posted (s : State) (g n : Nat) (e : Bytes) (noirq : Bool) :
    (writeCqe s g n e noirq).hif.posted = some (g, n, (getRing s g n).cqTail, withPhase e (getRing s g n).phase) := rfl

theorem writeCqe_msix (s : State) (g n : Nat) (e : Bytes) : (writeCqe s g n e true).hif.msix = s.hif.msix ∧
    ∃ k, (writeCqe s g n e false).hif.msix = some (g, k) := ⟨rfl, _, rfl⟩

theorem writeCqe_same (s : State) (g n : Nat) (e : Bytes) (noirq : Bool) : { writeCqe s g n e noirq with hif := s.hif } = s := rfl

theorem getQ_writeCqe (s : State) (g n : Nat) (e : Bytes) (noirq : Bool) (q : Nat) : getQ (writeCqe s g n e noirq) q = getQ s q := rfl

theorem writeCqe_fns_length (s : State) (g n : Nat) (e : Bytes) (noirq : Bool) : (writeCqe s g n e noirq).hif.fns.length = s.hif.fns.length :=
  List.length_set

theorem writeCqe_rings_length {s : State} {g : Nat} (n : Nat) (e : Bytes) (noirq : Bool) (hg : g < s.hif.fns.length) :
    (getFn (writeCqe s g n e noirq) g).rings.length = (getFn s g).rings.length := setRing_rings_length n _ hg

theorem cqFree_iff {s : State} {g n : Nat} : cqFree s g n = true ↔ (getRing s g n).cqUsed < cqSize s g n ∧ (getRing s g n).held = [] := by
  simp [cqFree]

/-- The state in which a ring's command has ended. -/
def ended (s : State) (g n : Nat) : State := setRing s g n { getRing s g n with running := none }

theorem ended_same (s : State) (g n : Nat) : { ended s g n with hif := s.hif } = s := rfl

theorem ended_cqSize (s : State) (g n : Nat) : cqSize (ended s g n) g n = cqSize s g n := rfl

section
variable {s : State} {g n : Nat} (hg : g < s.hif.fns.length) (hn : n < (getFn s g).rings.length)
include hg hn

theorem getRing_ended : getRing (ended s g n) g n = { getRing s g n with running := none } := getRing_setRing _ hg hn

theorem complete_free {x : Bytes × Bool} (hrun : (getRing s g n).running = some x) (hroom : (getRing s g n).cqUsed < cqSize s g n)
    (hheld : (getRing s g n).held = []) : complete g n s = writeOut (ended s g n) g n x := by
  have hfree : cqFree (ended s g n) g n = true := by
    rw [cqFree_iff, getRing_ended hg hn, ended_cqSize]
    exact ⟨hroom, hheld⟩
  unfold complete
  rw [hrun]
  exact if_pos hfree

/-- With the completion ring full the completion is held. -/
theorem complete_full {x : Bytes × Bool} (hrun : (getRing s g n).running = some x) (hfull : cqSize s g n ≤ (getRing s g n).cqUsed) :
    complete g n s = setRing s g n { getRing s g n with running := none, held := (getRing s g n).held ++ [x] } := by
  have hfree : ¬ cqFree (ended s g n) g n = true := by
    rw [cqFree_iff, getRing_ended hg hn, ended_cqSize]
    exact fun h => absurd h.1 (Nat.not_lt_of_le hfull)
  have hput : setRing (ended s g n) g n { getRing (ended s g n) g n with held := (getRing (ended s g n) g n).held ++ [x] } =
      setRing s g n { getRing s g n with running := none, held := (getRing s g n).held ++ [x] } := by
    rw [getRing_ended hg hn]
    exact setRing_setRing _ _ hg
  unfold complete
  rw [hrun]
  exact (if_neg hfree).trans hput

end

/-- A completion that answers no HELLO is written, and no more. -/
theorem writeOut_plain {s : State} {g n : Nat} (x : Bytes × Bool) (h : (getRing (writeCqe s g n x.1 x.2) g n).hello = none) :
    writeOut s g n x = writeCqe s g n x.1 x.2 := by
  unfold writeOut
  dsimp only
  rw [h]

section
variable {s : State} {g n : Nat} (hg : g < s.hif.fns.length) (hn : n < (getFn s g).rings.length)
include hg hn

/-- The ring after its command's completion is written. -/
theorem getRing_writeCqe_ended (e : Bytes) (noirq : Bool) : getRing (writeCqe (ended s g n) g n e noirq) g n = { getRing s g n with
    running := none, cqTail := ((getRing s g n).cqTail + 1) % cqSize s g n, cqUsed := (getRing s g n).cqUsed + 1,
    phase := if (getRing s g n).cqTail + 1 = cqSize s g n then !(getRing s g n).phase else (getRing s g n).phase } := by
  have hg' : g < (ended s g n).hif.fns.length := by rw [ended, setRing_fns_length]; exact hg
  have hn' : n < (getFn (ended s g n) g).rings.length := by rw [ended, setRing_rings_length _ _ hg]; exact hn
  rw [getRing_writeCqe hg' hn', getRing_ended hg hn, ended_cqSize]

theorem complete_plain {x : Bytes × Bool} (hrun : (getRing s g n).running = some x) (hroom : (getRing s g n).cqUsed < cqSize s g n)
    (hheld : (getRing s g n).held = []) (hhello : (getRing s g n).hello = none) : complete g n s = writeCqe (ended s g n) g n x.1 x.2 := by
  rw [complete_free hg hn hrun hroom hheld]
  refine writeOut_plain x ?_
  rw [getRing_writeCqe_ended hg hn]
  exact hhello

end

/-! ### Ring registers (R405, R406, R419) -/

/-- The fields of a ring's configuration lie apart. -/
theorem ringCfg_keys (g n : Nat) : (F.HIF_RING_CFG_SQ_LOG2 g n).key ≠ (F.HIF_RING_CFG_CQ_LOG2 g n).key ∧
    (F.HIF_RING_CFG_SQ_LOG2 g n).key ≠ (F.HIF_RING_CFG_VECTOR g n).key ∧ (F.HIF_RING_CFG_SQ_LOG2 g n).key ≠ (F.HIF_RING_CFG_ENABLE g n).key ∧
    (F.HIF_RING_CFG_CQ_LOG2 g n).key ≠ (F.HIF_RING_CFG_VECTOR g n).key ∧ (F.HIF_RING_CFG_CQ_LOG2 g n).key ≠ (F.HIF_RING_CFG_ENABLE g n).key ∧
    (F.HIF_RING_CFG_VECTOR g n).key ≠ (F.HIF_RING_CFG_ENABLE g n).key := by
  simp only [Fld.key, F.HIF_RING_CFG_SQ_LOG2, F.HIF_RING_CFG_CQ_LOG2, F.HIF_RING_CFG_VECTOR, F.HIF_RING_CFG_ENABLE]
  omega

theorem fnGated_pass {s : State} {m : Master} {g o v : Nat} (hfn : ¬ (m.code = 10 + g ∧ fnAbsent s g = true)) (hgate : regGate s false 18 o m v = .pass)
    (act : State → State) : fnGated s g o m v act = act s := by
  have hgate' : regGate s false hifBlock o m v = .pass := hgate
  rw [fnGated, if_neg hfn, gated, hgate']

/-- The state after a write of a disabled ring's configuration that enables it. -/
def ringEnabled (s : State) (g n v : Nat) : State :=
  let u := setF (setF (setF (setF s (F.HIF_RING_CFG_SQ_LOG2 g n) (clampLog (bitsOf v 1 4))) (F.HIF_RING_CFG_CQ_LOG2 g n) (clampLog (bitsOf v 5 4)))
    (F.HIF_RING_CFG_VECTOR g n) (bitsOf v 9 4)) (F.HIF_RING_CFG_ENABLE g n) 1
  setRing u g n { getRing u g n with err := false }

theorem ringCfgWrite_enables {s : State} {m : Master} {g n v : Nat} (hfn : ¬ (m.code = 10 + g ∧ fnAbsent s g = true))
    (hgate : regGate s false 18 (ringOff g n 0) m v = .pass) (hoff : isSet s (F.HIF_RING_CFG_ENABLE g n) = false) (hv : v % 2 = 1) :
    ringCfgWrite m g n v s = ringEnabled s g n v := by
  rw [ringCfgWrite, fnGated_pass hfn hgate]
  simp only [hoff, Bool.not_false, ignoredChange, Bool.not_true, Bool.false_and, Bool.or_false, Bool.false_eq_true, if_false, wrField, if_true, hv,
    Nat.one_ne_zero]
  rfl

theorem clampLog_lt (v : Nat) : clampLog v < 2 ^ 4 := by
  unfold clampLog
  omega

theorem getF_ringEnabled (s : State) (g n v : Nat) : getF (ringEnabled s g n v) (F.HIF_RING_CFG_ENABLE g n) = 1 ∧
    getF (ringEnabled s g n v) (F.HIF_RING_CFG_SQ_LOG2 g n) = clampLog (bitsOf v 1 4) ∧
    getF (ringEnabled s g n v) (F.HIF_RING_CFG_CQ_LOG2 g n) = clampLog (bitsOf v 5 4) ∧
    getF (ringEnabled s g n v) (F.HIF_RING_CFG_VECTOR g n) = bitsOf v 9 4 := by
  obtain ⟨hsc, hsv, hse, hcv, hce, hve⟩ := ringCfg_keys g n
  have hregs : (ringEnabled s g n v).regs = (setF (setF (setF (setF s (F.HIF_RING_CFG_SQ_LOG2 g n) (clampLog (bitsOf v 1 4))) (F.HIF_RING_CFG_CQ_LOG2 g n)
    (clampLog (bitsOf v 5 4))) (F.HIF_RING_CFG_VECTOR g n) (bitsOf v 9 4)) (F.HIF_RING_CFG_ENABLE g n) 1).regs := rfl
  simp only [RaiseLaws.getF_of_regs hregs]
  refine ⟨?_, ?_, ?_, ?_⟩
  · rw [getF_setF_same]
    rfl
  · rw [getF_setF_ne _ _ _ _ hse, getF_setF_ne _ _ _ _ hsv, getF_setF_ne _ _ _ _ hsc, getF_setF_same]
    exact Nat.mod_eq_of_lt (clampLog_lt _)
  · rw [getF_setF_ne _ _ _ _ hce, getF_setF_ne _ _ _ _ hcv, getF_setF_same]
    exact Nat.mod_eq_of_lt (clampLog_lt _)
  · rw [getF_setF_ne _ _ _ _ hve, getF_setF_same]
    exact Nat.mod_eq_of_lt (TickLaws.bitsOf_lt ..)

theorem ringEnabled_same (s : State) (g n v : Nat) : { ringEnabled s g n v with hif := s.hif, regs := s.regs } = s := by
  simp only [ringEnabled, setRing, setF]

/-- The indices of a ring at 0, with its running command. -/
def idleRing (r : Ring) : Ring := { r with head := 0, tail := 0, cqHead := 0, cqTail := 0, cqUsed := 0, phase := true, held := [] }

/-- Nothing held, nothing is written out. -/
theorem flushHeld_nil (s : State) (g n : Nat) : flushHeld g n [] s = setRing s g n { getRing s g n with held := [] } := rfl

theorem cfgIgnored_hif (s : State) (o : Nat) (m : Master) (v : Nat) : (cfgIgnored s false hifBlock o m v).hif = s.hif :=
  (congrArg State.hif (UnassignedLaws.rlogAdd_same (setF s (F.BLK_EVT_CFG_IGNORED false 18) 1) (blkBase false 18 + o) m 1 v) :)

theorem wrField_hif (s : State) (open_ : Bool) (x : Fld) (v : Nat) : (wrField s open_ x v).hif = s.hif := by
  unfold wrField
  split <;> rfl

/-- A ring that is disabled starts again from index 0, and its running command goes on. -/
theorem ringCfgWrite_disables {s : State} {m : Master} {g n v : Nat} (hfn : ¬ (m.code = 10 + g ∧ fnAbsent s g = true))
    (hgate : regGate s false 18 (ringOff g n 0) m v = .pass) (hv : v % 2 = 0) (hheld : (getRing s g n).held = []) (hg : g < s.hif.fns.length)
    (hn : n < (getFn s g).rings.length) : isSet (ringCfgWrite m g n v s) (F.HIF_RING_CFG_ENABLE g n) = false ∧
    getRing (ringCfgWrite m g n v s) g n = idleRing (getRing s g n) := by
  rw [ringCfgWrite, fnGated_pass hfn hgate]
  extract_lets open_ sq cq vec ign s1 s2 u r
  have hhif : u.hif = s.hif := by
    show (wrField (wrField (wrField s1 _ _ _) _ _ _) _ _ _).hif = _
    rw [wrField_hif, wrField_hif, wrField_hif]
    show (if ign then cfgIgnored s false hifBlock (ringOff g n 0) m v else s).hif = _
    split
    · exact cfgIgnored_hif ..
    · rfl
  have hoff : getF u (F.HIF_RING_CFG_ENABLE g n) = 0 := by
    show getF (setF s2 _ (v % 2)) _ = 0
    rw [hv, getF_setF_same, Nat.zero_mod]
  have hring : getRing u g n = getRing s g n := by rw [getRing, getFn, hhif, getRing, getFn]
  have hfnu : getFn u g = getFn s g := by rw [getFn, hhif, getFn]
  clear_value u
  have hr : r = getRing s g n := hring
  rw [if_pos hv, hr, hheld, flushHeld_nil]
  have hgu : g < u.hif.fns.length := by rw [hhif]; exact hg
  have hnu : n < (getFn u g).rings.length := by rw [hfnu]; exact hn
  have hput : getRing (setRing u g n (idleRing (getRing s g n))) g n = idleRing (getRing s g n) := getRing_setRing _ hgu hnu
  have hidle : { idleRing (getRing s g n) with held := [] } = idleRing (getRing s g n) := rfl
  have hstate : setRing (setRing u g n (idleRing (getRing s g n))) g n { getRing (setRing u g n (idleRing (getRing s g n))) g n with held := [] } =
      setRing u g n (idleRing (getRing s g n)) := by
    rw [hput, hidle, setRing_setRing _ _ hgu]
  have hwhole : setRing (setRing u g n { getRing s g n with head := 0, tail := 0, cqHead := 0, cqTail := 0, cqUsed := 0, phase := true, held := [] }) g n
      { getRing (setRing u g n { getRing s g n with head := 0, tail := 0, cqHead := 0, cqTail := 0, cqUsed := 0, phase := true, held := [] }) g n with
        held := [] } = setRing u g n (idleRing (getRing s g n)) := hstate
  rw [hwhole]
  refine ⟨?_, hput⟩
  show (getF u _ == 1) = false
  rw [hoff]
  rfl

/-! ### Tails and heads (R406) -/

/-- A bit that is set in a number stays set under the others. -/
theorem bitOf_lor_two_pow (v : Nat) {n w : Nat} (h : n < w) : bitOf (Nat.lor v (2 ^ n) % 2 ^ w) n = true := by
  have hbit : (Nat.lor v (2 ^ n) % 2 ^ w).testBit n = true := by
    rw [Nat.testBit_mod_two_pow]
    show (decide (n < w) && (v ||| 2 ^ n).testBit n) = true
    rw [Nat.testBit_or, Nat.testBit_two_pow_self, Bool.or_true, decide_eq_true h, Bool.and_self]
  rw [Nat.testBit_eq_decide_div_mod_eq] at hbit
  simpa [bitOf] using hbit

theorem ringErr_key_ne (g h n : Nat) : (F.HIF_FSTAT_RING_ERR g).key ≠ (F.HIF_RING_CFG_ENABLE h n).key := by
  simp only [Fld.key, F.HIF_FSTAT_RING_ERR, F.HIF_RING_CFG_ENABLE, Reg.HIF_FSTAT, Reg.HIF_RING_CFG]
  omega

theorem getF_setRing (s : State) (g n : Nat) (r : Ring) (x : Fld) : getF (setRing s g n r) x = getF s x := rfl

/-- A ring that fails shows it, and its pair is disabled. -/
theorem ringError_facts (s : State) (g : Nat) {n : Nat} (hn : n < 4) : bitOf (getF (ringError s g n) (F.HIF_FSTAT_RING_ERR g)) n = true ∧
    isSet (ringError s g n) (F.HIF_RING_CFG_ENABLE g n) = false := by
  unfold ringError
  dsimp only
  rw [isSet, getF_setRing, getF_setRing, getF_setF_same, getF_setF_ne _ _ _ _ (ringErr_key_ne g g n), getF_setF_same]
  exact ⟨bitOf_lor_two_pow _ hn, rfl⟩

theorem ringError_same (s : State) (g n : Nat) : { ringError s g n with hif := s.hif, regs := s.regs } = s := by
  simp only [ringError, setRing, setF]

theorem sqtailWrite_pass {s : State} {m : Master} {g n v : Nat} (hfn : ¬ (m.code = 10 + g ∧ fnAbsent s g = true))
    (hgate : regGate s false 18 (ringOff g n 5) m v = .pass) : sqtailWrite m g n v s =
    if isSet s (F.HIF_RING_CFG_ENABLE g n) ∧ v < 2 ^ getF s (F.HIF_RING_CFG_SQ_LOG2 g n) then setRing s g n { getRing s g n with tail := v }
    else ringError s g n := fnGated_pass hfn hgate _

/-- A ring whose slots up to a new head are free. -/
def headAt (s : State) (g n v : Nat) : Ring :=
  { getRing s g n with
    cqHead := v, cqUsed := (getRing s g n).cqUsed - (v + cqSize s g n - (getRing s g n).cqHead) % cqSize s g n, held := [] }

theorem cqheadWrite_frees {s : State} {m : Master} {g n v : Nat} (hfn : ¬ (m.code = 10 + g ∧ fnAbsent s g = true))
    (hgate : regGate s false 18 (ringOff g n 6) m v = .pass) (hon : isSet s (F.HIF_RING_CFG_ENABLE g n) = true) (hv : v < cqSize s g n)
    (hheld : (getRing s g n).held = []) (hg : g < s.hif.fns.length) (hn : n < (getFn s g).rings.length) :
    cqheadWrite m g n v s = setRing s g n (headAt s g n v) := by
  have hput : getRing (setRing s g n (headAt s g n v)) g n = headAt s g n v := getRing_setRing _ hg hn
  have hsame : { headAt s g n v with held := [] } = headAt s g n v := rfl
  have hflush : flushHeld g n [] (setRing s g n (headAt s g n v)) = setRing s g n (headAt s g n v) := by
    rw [flushHeld_nil, hput, hsame, setRing_setRing _ _ hg]
  rw [cqheadWrite, fnGated_pass hfn hgate]
  dsimp only
  rw [if_pos ⟨hon, hv⟩, hheld]
  exact hflush

/-! ### Events (R414) -/

theorem popQ_head {s : State} {q : Nat} {e : QEntry} {es : List QEntry} (h : (getQ s q).entries = e :: es) :
    (getQ (popQ s q) q).entries = es ∧ (popQ s q).hif = s.hif ∧ { popQ s q with qm := s.qm } = s := by
  unfold popQ
  dsimp only
  rw [h]
  refine ⟨?_, rfl, rfl⟩
  dsimp only
  rw [getQ_setQ_same]

theorem hifEvent_delivers {s : State} {q g : Nat} {e : QEntry} {es : List QEntry} (hq : (getQ s q).entries = e :: es) (hbound : qBound (getQ s q) = true)
    (hcons : (getQ s q).consumer = 23) (hg : g = if (getQ s q).part = 0 then 0 else (getQ s q).part + 1) (h9 : g < 9) (hring : eventRing s g = true)
    (hfree : cqFree s g 0 = true) : hifEvent q s = writeCqe (popQ s q) g 0 (eventCqe 0 e.data e.cairn) false := by
  unfold hifEvent
  dsimp only
  rw [hq, ← hg]
  exact if_pos ⟨hbound, hcons, h9, hring, hfree⟩

/-- The endpoint's own registers are reset too, and the link is down. -/
def endpointReset (s : State) : State :=
  let s := resetRegs s (F.HIF_TRIAGE_PART).addr 0x70
  { s with hif := { s.hif with perst := true, linkUp := false } }

theorem perstN_low (s : State) : perstN true s = endpointReset ((List.range 9).foldl fnReset s) := by
  unfold perstN endpointReset
  dsimp only
  rw [if_pos rfl]

theorem endpointReset_atReset {s : State} {g : Nat} (h : FnAtReset s g) : FnAtReset (endpointReset s) g := by
  obtain ⟨hrings, hregs⟩ := h
  exact ⟨hrings, fun x hx => getF_resetRegs_reset _ _ _ (hregs x hx)⟩

theorem endpointReset_same (s : State) : { endpointReset s with hif := s.hif, regs := s.regs } = s := rfl

theorem perstN_same (s : State) : { perstN true s with hif := s.hif, regs := s.regs } = s := by
  have hfold := foldl_fnReset_same (List.range 9) s
  rw [perstN_low]
  generalize (List.range 9).foldl fnReset s = u at hfold ⊢
  exact (congrArg (fun t : State => { t with hif := s.hif, regs := s.regs }) (endpointReset_same u)).trans hfold

/-- Settles O43, each clause by what its command leaves of the ring. -/
theorem ringsCarryCommands : Obligations.RingsCarryCommands := by
  unfold Obligations.RingsCarryCommands
  refine ⟨?perst, fun s => rfl, ?flr, ?link, ?cfg, ?tail, ?head, ?completion, ?event⟩
  case perst =>
    intro s
    have hat : ∀ g < 9, FnAtReset (perstN true s) g := fun g hg => by
      rw [perstN_low]
      exact endpointReset_atReset (foldl_fnReset_atReset (List.mem_range.mpr hg) s)
    refine ⟨perstN true s, rfl, ?_, ?_, fun g hg => (hat g hg).facts, perstN_same s⟩
    · rw [perstN_low, endpointReset]
    · rw [perstN_low, endpointReset]
  case flr =>
    intro s g
    obtain ⟨hstate, hrings⟩ := (fnReset_atReset s g.val).facts
    refine ⟨fnReset s g.val, rfl, hstate, hrings, fun h n hne hh hn => ⟨?_, ?_⟩, fnReset_same s g.val⟩
    · rw [getRing, getFn_fnReset_ne s hne, getRing]
    · refine getF_resetRegs_out _ ?_
      simp only [Fld.key, F.HIF_FSTAT_STATE, Reg.HIF_FSTAT]
      omega
  case link =>
    intro s
    refine ⟨fun hp hd => congrArg Host.Outcome.next (if_neg ?_), fun h => congrArg Host.Outcome.next (if_pos h)⟩
    simp [hp, hd]
  case cfg =>
    intro s m g n v hfn hgate
    refine ⟨fun hoff hv => ?_, fun hv hheld hg hn => ?_⟩
    · obtain ⟨hen, hsq, hcq, hvec⟩ := getF_ringEnabled s g.val n.val v.toNat
      exact ⟨_, congrArg Host.Outcome.next (ringCfgWrite_enables hfn hgate hoff hv), by rw [isSet, hen]; rfl, hsq, hcq, hvec, ringEnabled_same ..⟩
    · obtain ⟨hoff, hring⟩ := ringCfgWrite_disables hfn hgate hv hheld hg hn
      refine ⟨ringCfgWrite m g.val n.val v.toNat s, rfl, hoff, ?_⟩
      rw [hring]
      exact ⟨rfl, rfl, rfl, rfl⟩
  case tail =>
    intro s m g n v hfn hgate
    refine ⟨fun hon hv => congrArg Host.Outcome.next ((sqtailWrite_pass hfn hgate).trans (if_pos ⟨hon, hv⟩)), fun hbad => ?_⟩
    obtain ⟨herr, hoff⟩ := ringError_facts s g.val n.isLt
    refine ⟨ringError s g.val n.val, congrArg Host.Outcome.next ((sqtailWrite_pass hfn hgate).trans (if_neg ?_)), herr, hoff, ringError_same ..⟩
    rintro ⟨hon, hlt⟩
    rcases hbad with h | h
    · rw [h] at hon
      cases hon
    · exact absurd hlt (Nat.not_lt_of_le h)
  case head =>
    intro s m g n v hfn hgate hon hv hheld hg hn
    have hring : getRing (setRing s g.val n.val (headAt s g.val n.val v.toNat)) g.val n.val = headAt s g.val n.val v.toNat := getRing_setRing _ hg hn
    refine ⟨_, congrArg Host.Outcome.next (cqheadWrite_frees hfn hgate hon hv hheld hg hn), ?_, ?_, setRing_same ..⟩
    · rw [hring]
      rfl
    · rw [hring]
      rfl
  case completion =>
    rintro s g n r e noirq rfl hrun hhello hg hn
    refine ⟨fun hroom hheld => ?_, fun hfull => congrArg Host.Outcome.next (complete_full hg hn hrun hfull)⟩
    have hring := getRing_writeCqe_ended hg hn e noirq
    have hold := getRing_ended hg hn
    have hdone : complete g.val n.val s = writeCqe (ended s g.val n.val) g.val n.val e noirq := complete_plain hg hn hrun hroom hheld hhello
    have hsame : { writeCqe (ended s g.val n.val) g.val n.val e noirq with hif := s.hif } = s :=
      (congrArg (fun t : State => { t with hif := s.hif }) (writeCqe_same (ended s g.val n.val) g.val n.val e noirq)).trans (ended_same s g.val n.val)
    refine ⟨_, congrArg Host.Outcome.next hdone, ?_, ?_, ?_, ?_, ?_, ?_, ?_, hsame⟩
    · rw [writeCqe_posted, hold]
    · rw [hring]
    · rw [hring]
    · rw [hring]
    · rw [hring]
    · rintro rfl
      exact (writeCqe_msix ..).1
    · rintro rfl
      exact (writeCqe_msix ..).2
  case event =>
    intro s q g e es hq hbound hcons hg h9 _ hring hfree
    obtain ⟨hqueue, hhif, hsame⟩ := popQ_head hq
    have hold : getRing (popQ s q) g 0 = getRing s g 0 := by rw [getRing, getFn, hhif, getRing, getFn]
    have hdeliver := hifEvent_delivers hq hbound hcons hg h9 hring hfree
    generalize popQ s q = u at hqueue hhif hsame hold hdeliver
    refine ⟨writeCqe u g 0 (eventCqe 0 e.data e.cairn) false, congrArg Host.Outcome.next hdeliver, (getQ_writeCqe u g 0 _ false q).symm ▸ hqueue, ?_, ?_⟩
    · rw [writeCqe_posted, hold]
    · have hcqe := writeCqe_same u g 0 (eventCqe 0 e.data e.cairn) false
      rw [hhif] at hcqe
      exact (congrArg (fun t : State => { t with qm := s.qm }) hcqe).trans hsame

end Sys2Proof.RingLaws
end

section
/-! How a host command starts, and the host's plans, gate lists, queue entries and triage (R409, R415, R417). -/

namespace Sys2Proof.HostLaws

open Sys2Proof Sys2Proof.Machine

/-! ### The start of a command (R407, R409, R411) -/

section
variable {s f : State} {g n op : Nat} {c : Bytes} (hready : fhpReady s g n = true) (hlen : c.length = 64) (hop : hOp c = op) (hf : f = fetched s g n)
include hready hlen hop hf

/-- A command that is turned away completes with its status and no effect. -/
theorem fhp_refused {st : Nat} (act : State → Reply) (h : fhpRefusal f g n c = some st) : fhp g n op c act s = running f g n c st 0 0 := by
  unfold fhp
  rw [if_neg (by simp [hready, hop]), if_neg (by simp [hlen])]
  dsimp only
  rw [← hf, h]

/-- Any other has its effect as it starts. -/
theorem fhp_runs (act : State → Reply) (h : fhpRefusal f g n c = none) :
    fhp g n op c act s = running (act f).s g n c (act f).status (act f).detail (act f).result := by
  unfold fhp
  rw [if_neg (by simp [hready, hop]), if_neg (by simp [hlen])]
  dsimp only
  rw [← hf, h]

/-- With the reply known. -/
theorem fhp_replies {act : State → Reply} {r : Reply} (h : fhpRefusal f g n c = none) (hact : act f = r) :
    (Host.Outcome.next (fhp g n op c act s) : Host.Outcome State Fault Refusal) = .next (running r.s g n c r.status r.detail r.result) := by
  rw [fhp_runs hready hlen hop hf act h, hact]

end

/-! ### Plans (R45, R49, R285) -/

theorem planSrc_off {s : State} (h : isSet s F.TICK_CTL_PLAN_SRC = false) (act : State → Reply) : planSrc s act = { s := s, status := 5 } := by
  rw [planSrc, if_neg (by rw [h]; exact Bool.false_ne_true)]

theorem planSrc_host {s : State} (h : isSet s F.TICK_CTL_PLAN_SRC = true) (act : State → Reply) : planSrc s act = act s := if_pos h

theorem planAdd_whole {s : State} {c data : Bytes} (h : isSet s F.TICK_CTL_PLAN_SRC = true) (hpos : 0 < data.length) (harg : hArg c 1 = data.length) :
    planAdd c data s = planReply (addPlan s data) (parsePlan data).id := by
  refine (planSrc_host h _).trans ((if_neg ?_).trans ((if_neg ?_).trans ?_))
  · omega
  · omega
  · rw [harg, List.take_length]

/-- What PLAN_ADD does by the refusal of its validation. -/
def planAdded (s : State) (b : Bytes) : Option Nat → State × Option Nat
  | some r => (s, some r)
  | none =>
    if planRoom s (parsePlan b) then ({ s with tick := { s.tick with plans := s.tick.plans ++ [parsePlan b] } }, none) else (s, some 8)

theorem addPlan_eq (s : State) (b : Bytes) : addPlan s b = planAdded s b (planRefusal s b (parsePlan b)) := by
  delta addPlan
  dsimp only
  generalize planRefusal s b (parsePlan b) = o
  cases o <;> rfl

/-- Of a plan that validates only the room decides. -/
theorem addPlan_valid {s : State} {b : Bytes} (h : planRefusal s b (parsePlan b) = none) : addPlan s b = planAdded s b none :=
  (addPlan_eq s b).trans (congrArg (planAdded s b) h)

theorem addPlan_invalid {s : State} {b : Bytes} {d : Nat} (h : planRefusal s b (parsePlan b) = some d) : addPlan s b = (s, some d) :=
  (addPlan_eq s b).trans (congrArg (planAdded s b) h)

/-- An activation replaces the one of its edge. -/
theorem activatePlan_stored {s : State} {id k : Nat} (hid : (planOf s id).isSome = true) (hahead : s.tick.running = true → s.tick.num + 2 ≤ k) :
    activatePlan s id k = ({ s with tick := { s.tick with pending := s.tick.pending.filter (fun x => x.2 != k) ++ [(id, k)] } }, none) := by
  refine if_neg ?_
  rintro (h | ⟨hrun, hlt⟩)
  · rw [Option.isNone_iff_eq_none] at h
    rw [h] at hid
    cases hid
  · exact absurd hlt (Nat.not_lt_of_le (hahead hrun))

theorem activatePlan_refused {s : State} {id k : Nat} (h : (planOf s id).isNone = true ∨ (s.tick.running = true ∧ k < s.tick.num + 2)) :
    activatePlan s id k = (s, some 8) := if_pos h

theorem removePlan_free {s : State} {id : Nat} (hheld : planHeld s id = false) (hid : (planOf s id).isSome = true) :
    removePlan s id = ({ s with tick := { s.tick with plans := s.tick.plans.filter (fun p => p.id != id) } }, none) := by
  refine if_neg ?_
  rintro (h | h)
  · rw [hheld] at h
    cases h
  · rw [Option.isNone_iff_eq_none] at h
    rw [h] at hid
    cases hid

theorem removePlan_held {s : State} {id : Nat} (hheld : planHeld s id = true) : removePlan s id = (s, some 8) := if_pos (.inl hheld)

theorem find_filter_ne_self {l : List Plan} {id : Nat} : (l.filter (fun p => p.id != id)).find? (fun p => p.id == id) = none := by
  refine List.find?_eq_none.mpr (fun p hp => ?_)
  have := (List.mem_filter.mp hp).2
  simpa using this

theorem find_filter_ne {l : List Plan} {id i : Nat} (h : i ≠ id) :
    (l.filter (fun p => p.id != id)).find? (fun p => p.id == i) = l.find? (fun p => p.id == i) := by
  rw [List.find?_filter]
  congr 1
  funext p
  by_cases hp : p.id = i
  · simp [hp, h]
  · simp [hp]

/-- PLAN_ACTIVATE's effect. -/
def activateReply (c : Bytes) (s : State) : Reply := planSrc s (fun s => planReply (activatePlan s (hArg c 0) (hArg c 1)) 0)

theorem activateReply_host {s : State} {c : Bytes} {r : State × Option Nat} (h : isSet s F.TICK_CTL_PLAN_SRC = true)
    (hact : activatePlan s (hArg c 0) (hArg c 1) = r) : activateReply c s = planReply r 0 :=
  (planSrc_host h _).trans (congrArg (fun r => planReply r 0) hact)

/-- PLAN_REMOVE's effect. -/
def removeReply (c : Bytes) (s : State) : Reply := planSrc s (fun s => planReply (removePlan s (hArg c 0)) 0)

theorem removeReply_host {s : State} {c : Bytes} {r : State × Option Nat} (h : isSet s F.TICK_CTL_PLAN_SRC = true)
    (hact : removePlan s (hArg c 0) = r) : removeReply c s = planReply r 0 :=
  (planSrc_host h _).trans (congrArg (fun r => planReply r 0) hact)

/-! ### Gate lists and queues (R381, R409) -/

theorem gclSet_off {s : State} (c data : Bytes) (h : isSet s F.NET_CTL_GCL_SRC = false) : gclSet c data s = { s := s, status := 5 } := by
  rw [gclSet, h]
  rfl

theorem gclSet_taken {s : State} {c data : Bytes} (h : isSet s F.NET_CTL_GCL_SRC = true) (hport : hArg c 0 < 6) (hpos : 0 < hArg c 2)
    (hmax : hArg c 2 ≤ 256) (hdata : data ≠ []) :
    gclSet c data s = { s := setNet s { s.net with gclNext := s.net.gclNext.set (hArg c 0) (some data) } } := by
  have hempty : data.isEmpty = false := by cases data <;> simp_all
  rw [gclSet, h, if_neg (by decide), if_neg (by omega), hempty]
  rfl

theorem queuePost_foreign {s : State} {g : Nat} {c : Bytes} (hq : hArg c 0 < 8192) (hg : g ≠ 0) (hpart : (getQ s (hArg c 0)).part ≠ fnPart g) :
    queuePost g c s = { s := s, status := 3 } := by
  rw [queuePost]
  dsimp only
  rw [if_neg (by omega), if_pos ⟨hg, hpart⟩]

/-- The reply to a post by whether the queue took it. -/
def postReply (r : State × Bool) : Reply := { s := r.1, status := if r.2 then 0 else 7 }

theorem postData_takes {s : State} {q : Nat} (data : Bytes) (producer : Nat) {part : Nat} (hadmit : qRefusal (getQ s q) part = none)
    (hcons : (getQ s q).consumer < 24) : postData s q data producer part =
      (setQ s q { getQ s q with entries := (getQ s q).entries ++ [{ cairn := false, data := data, producer := producer }] }, true) := by
  have hflag : (postData s q data producer part).2 = true := by simp only [postData, hadmit]
  exact Prod.ext (CodecLaws.postData_taken data producer hadmit (.inl hcons)) hflag

theorem qRefusal_none {q : Queue} (hbound : qBound q = true) (hroom : q.entries.length < q.depth) : qRefusal q q.part = none := by
  rw [qRefusal, if_neg (by rw [hbound]; decide), if_neg (by simp), if_neg (by omega)]

theorem queuePost_taken {s : State} {g : Nat} {c : Bytes} (hq : hArg c 0 < 8192) (hown : g = 0 ∨ (getQ s (hArg c 0)).part = fnPart g)
    (hbound : qBound (getQ s (hArg c 0)) = true) (hcons : (getQ s (hArg c 0)).consumer < 24)
    (hroom : (getQ s (hArg c 0)).entries.length < (getQ s (hArg c 0)).depth) :
    queuePost g c s = { s := setQ s (hArg c 0) { getQ s (hArg c 0) with entries := (getQ s (hArg c 0)).entries ++
      [{ cairn := false, data := leBytes 8 (hArg c 1) ++ leBytes 8 (hArg c 2), producer := 39 }] } } := by
  have hadmit := qRefusal_none hbound hroom
  refine (if_neg (by omega)).trans ((if_neg ?_).trans (congrArg postReply (postData_takes _ 39 hadmit hcons)))
  rintro ⟨h0, hp⟩
  exact hown.elim h0 hp

/-! ### Host triage (R417) -/

theorem faultRead_none {s : State} {c : Bytes} (h : 8 ≤ hArg c 0) : faultRead c s = { s := s, status := 4 } := if_pos h

theorem faultRead_records {s : State} {c : Bytes} (h : hArg c 0 < 8) (h64 : (partRecs s (hArg c 0)).length ≤ 64) :
    faultRead c s = { s := answer s (((partRecs s (hArg c 0)).map recBytes).flatten) false, result := (partRecs s (hArg c 0)).length } := by
  rw [faultRead, if_neg (by omega), List.take_of_length_le h64]

theorem faultResume_unknown {s : State} {c : Bytes} (h : ∀ x ∈ s.hif.paused, x.part ≠ hArg c 0) : faultResume c s = { s := s, status := 4 } :=
  if_pos (.inr (List.all_eq_true.mpr (fun x hx => by simpa using h x hx)))

theorem faultResume_paused {s : State} {c : Bytes} {x : Pause} (hx : x ∈ s.hif.paused) (hpart : x.part = hArg c 0) (hact : hArg c 1 < 2) :
    faultResume c s = if hArg c 1 = 0 then { s := endPause s (hArg c 0) } else { s := partRestart (endPause s (hArg c 0)) (hArg c 0) } := by
  refine if_neg ?_
  rintro (h | h)
  · omega
  · have := List.all_eq_true.mp h x hx
    simp [hpart] at this

theorem endPause_same (s : State) (p : Nat) : { endPause s p with flt := s.flt, hif := s.hif } = s := rfl

theorem endPause_resumes {s : State} {p : Nat} {y : Pause} (hy : y ∈ (endPause s p).hif.paused) (hpart : y.part = p) : y.resume = true := by
  obtain ⟨x, -, rfl⟩ := List.mem_map.mp hy
  split at hpart
  · rw [if_pos ‹_›]
  · exact absurd hpart ‹_›

theorem endPause_drops {s : State} {p : Nat} {r : FaultRec} (hr : r ∈ (endPause s p).flt.comp.queue) : ¬ (hostHas s r = true ∧ r.part = some p) := by
  have hkeep := (List.mem_filter.mp hr).2
  rintro ⟨hhost, hpart⟩
  simp [hhost, hpart] at hkeep

/-- The state in which a partition's triage has lapsed, before the handler is interrupted. -/
def lapsed (u : State) (p : Nat) : State :=
  setF (setF { u with hif := { u.hif with paused := u.hif.paused.filter (fun x => x.part != p) } } F.HIF_DEVSTAT_PAUSED
    (clearBit (getF u F.HIF_DEVSTAT_PAUSED) p)) F.HIF_DEVSTAT_TRIAGE_LAPSED 1

theorem triageTimeout_due {s u : State} {p t : Nat} (hu : u = atComp t s) (h : ∃ x ∈ u.hif.paused, x.part = p ∧ x.resume = false ∧
    x.since + 1000000 * getF u F.HIF_TRIAGE_TIMEOUT_MS ≤ t) : triageTimeout p t s = interrupt (lapsed u p) := by
  obtain ⟨x, hx, hpart, hres, hlate⟩ := h
  unfold triageTimeout
  rw [← hu]
  dsimp only
  rw [if_pos]
  · rfl
  · refine List.any_eq_true.mpr ⟨x, hx, ?_⟩
    rw [hpart, hres, decide_eq_true hlate]
    simp

theorem interrupt_facts (s : State) : (interrupt s).hif = s.hif ∧ (interrupt s).flt.comp = s.flt.comp ∧ (interrupt s).mem = s.mem := by
  unfold interrupt
  split <;> exact ⟨rfl, rfl, rfl⟩

/-- Settles O45, each clause by the command's reply. -/
theorem hostPlansAndTriage : Obligations.HostPlansAndTriage := by
  unfold Obligations.HostPlansAndTriage
  refine ⟨?planAdd, ?activate, ?remove, ?gcl, ?post, ?read, ?resume, ?timeout⟩
  case planAdd =>
    intro s f g n c data hready hlen hop hf hnone
    refine ⟨fun hsrc => fhp_replies (act := planAdd c data) hready hlen hop hf hnone (planSrc_off hsrc _), ?_⟩
    rintro p hsrc hpos harg rfl
    have hadd := planAdd_whole hsrc hpos harg
    refine ⟨fun hok hroom => ?_, fun hok hroom => ?_, fun d hbad => ?_⟩
    · rw [addPlan_valid hok, planAdded, if_pos hroom] at hadd
      exact fhp_replies (act := planAdd c data) hready hlen hop hf hnone hadd
    · rw [addPlan_valid hok, planAdded, if_neg (by rw [hroom]; exact Bool.false_ne_true)] at hadd
      exact fhp_replies (act := planAdd c data) hready hlen hop hf hnone hadd
    · rw [addPlan_invalid hbad] at hadd
      exact fhp_replies (act := planAdd c data) hready hlen hop hf hnone hadd
  case activate =>
    intro s f g n c hready hlen hop hf hnone
    refine ⟨fun hsrc => fhp_replies (act := activateReply c) hready hlen hop hf hnone (planSrc_off hsrc _), fun hsrc hid hahead => ?_, fun hsrc hbad => ?_⟩
    · have hact := activatePlan_stored hid hahead
      refine ⟨{ f with tick := { f.tick with pending := f.tick.pending.filter (fun x => x.2 != hArg c 1) ++ [(hArg c 0, hArg c 1)] } },
        fhp_replies (act := activateReply c) hready hlen hop hf hnone (activateReply_host hsrc hact), by simp, fun x hx h1 => ?_, fun x hx hne => ?_, rfl⟩
      · rcases List.mem_append.mp hx with h | h
        · have := (List.mem_filter.mp h).2
          simp [h1] at this
        · rw [List.mem_singleton.mp h]
      · exact List.mem_append_left _ (List.mem_filter.mpr ⟨hx, by simpa using hne⟩)
    · exact fhp_replies (act := activateReply c) hready hlen hop hf hnone (activateReply_host hsrc (activatePlan_refused hbad))
  case remove =>
    intro s f g n c hready hlen hop hf hnone hsrc
    refine ⟨fun hheld hid => ?_, fun hheld => ?_⟩
    · exact ⟨{ f with tick := { f.tick with plans := f.tick.plans.filter (fun p => p.id != hArg c 0) } },
        fhp_replies (act := removeReply c) hready hlen hop hf hnone (removeReply_host hsrc (removePlan_free hheld hid)),
        find_filter_ne_self, fun i hi => find_filter_ne hi, rfl⟩
    · exact fhp_replies (act := removeReply c) hready hlen hop hf hnone (removeReply_host hsrc (removePlan_held hheld))
  case gcl =>
    intro s f g n c data hready hlen hop hf hnone
    refine ⟨fun hsrc => fhp_replies (act := gclSet c data) hready hlen hop hf hnone (gclSet_off c data hsrc), fun hsrc hport hlist hpos hmax hdata => ?_⟩
    exact ⟨setNet f { f.net with gclNext := f.net.gclNext.set (hArg c 0) (some data) }, fhp_replies (act := gclSet c data) hready hlen hop hf hnone (gclSet_taken hsrc hport hpos hmax hdata), WordLaws.nth_set_same _ _ hlist, rfl⟩
  case post =>
    intro s f g n c hready hlen hop hf hnone hq
    refine ⟨fun hg hpart => fhp_replies (act := queuePost g.val c) hready hlen hop hf hnone (queuePost_foreign hq hg hpart), fun hown hbound hcons hroom => ?_⟩
    exact fhp_replies (act := queuePost g.val c) hready hlen hop hf hnone (queuePost_taken hq hown hbound hcons hroom)
  case read =>
    intro s f g n c hready hlen hop hf hnone
    refine ⟨fun h => fhp_replies (act := faultRead c) hready hlen hop hf hnone (faultRead_none h), fun h h64 => ?_⟩
    exact ⟨answer f (((partRecs f (hArg c 0)).map recBytes).flatten) false, fhp_replies (act := faultRead c) hready hlen hop hf hnone (faultRead_records h h64), rfl, rfl, rfl⟩
  case resume =>
    intro s f g n c hready hlen hop hf hnone
    refine ⟨fun h => fhp_replies (act := faultResume c) hready hlen hop hf hnone (faultResume_unknown h), fun x hx hpart hact => ?_, fun x hx hpart hact => ?_⟩
    · have hres := faultResume_paused (c := c) hx hpart (by omega)
      rw [if_pos hact] at hres
      exact ⟨endPause f (hArg c 0), fhp_replies (act := faultResume c) hready hlen hop hf hnone hres, fun y hy => endPause_resumes hy, fun r hr => endPause_drops hr, endPause_same ..⟩
    · have hres := faultResume_paused (c := c) hx hpart (by omega)
      rw [if_neg (by omega)] at hres
      exact fhp_replies (act := faultResume c) hready hlen hop hf hnone hres
  case timeout =>
    intro s u p t hu h
    obtain ⟨hhif, hcomp, hmem⟩ := interrupt_facts (lapsed u p)
    refine ⟨_, congrArg Host.Outcome.next (triageTimeout_due hu h), ?_, ?_, ?_, hmem⟩
    · rw [hhif]
      exact fun x hx => by simpa using (List.mem_filter.mp hx).2
    · rw [RaiseLaws.getF_interrupt]
      exact getF_setF_same ..
    · rw [hcomp]
      rfl

end Sys2Proof.HostLaws
end

section
/-! The host's commands: versions, memory transfers, containers, milestone rings and mode switches (R407 to R416). -/

namespace Sys2Proof.CommandLaws

open Sys2Proof Sys2Proof.Machine Sys2Proof.HostLaws

/-! ### HELLO (R411) -/

theorem hello_shares {s : State} {g n v : Nat} {c : Bytes} (hst : getF s (F.HIF_FSTAT_STATE g) ≠ 1)
    (hv : commonVersion (hArg c 0 % 256) (hArg c 0 / 256 % 256) = some v) : hello g n c s =
      { s := setRing s g n { getRing s g n with hello := some (hArg c 0 % 256, hArg c 0 / 256 % 256) }, result := helloResult v } := by
  refine (if_neg (fun h => hst h.1)).trans ?_
  dsimp only
  rw [hv]

theorem commonVersion_lt {lo hi v : Nat} (h : commonVersion lo hi = some v) : v < 2 ^ 4 := by
  unfold commonVersion at h
  split at h
  · cases h; decide
  · split at h
    · cases h; decide
    · cases h

theorem fstat_keys (g : Nat) : (F.HIF_FSTAT_STATE g).key ≠ (F.HIF_FSTAT_REASON g).key ∧ (F.HIF_FSTAT_STATE g).key ≠ (F.HIF_FSTAT_VERSION g).key := by
  simp only [Fld.key, F.HIF_FSTAT_STATE, F.HIF_FSTAT_REASON, F.HIF_FSTAT_VERSION]
  omega

/-- A HELLO that shares a version makes its function READY with it. -/
theorem helloApply_ready {s : State} {g lo hi v : Nat} (h : commonVersion lo hi = some v) :
    getF (helloApply s g lo hi) (F.HIF_FSTAT_STATE g) = 1 ∧ getF (helloApply s g lo hi) (F.HIF_FSTAT_VERSION g) = v := by
  obtain ⟨hreason, hversion⟩ := fstat_keys g
  unfold helloApply
  dsimp only
  rw [h]
  constructor
  · exact (getF_setF_ne _ _ _ _ hversion).trans ((getF_setF_ne _ _ _ _ hreason).trans (getF_setF_same ..))
  · exact (getF_setF_same ..).trans (Nat.mod_eq_of_lt (commonVersion_lt h))

theorem setF_hif (s : State) (x : Fld) (v : Nat) : (setF s x v).hif = s.hif := rfl

theorem helloApply_hif (s : State) (g lo hi : Nat) : (helloApply s g lo hi).hif = s.hif := by
  unfold helloApply
  cases commonVersion lo hi <;> simp only [setF_hif]

theorem getRing_of_hif {s t : State} (g n : Nat) (h : t.hif = s.hif) : getRing t g n = getRing s g n := by
  rw [getRing, getFn, h]
  rfl

theorem writeOut_hello {s : State} {g n lo hi : Nat} {e : Bytes} {b : Bool} (hev : isEvent e = false)
    (h : (getRing (writeCqe s g n e b) g n).hello = some (lo, hi)) : writeOut s g n (e, b) =
      helloApply (setRing (writeCqe s g n e b) g n { getRing (writeCqe s g n e b) g n with hello := none }) g lo hi := by
  unfold writeOut
  dsimp only
  rw [h]
  exact if_neg (by rw [hev]; exact Bool.false_ne_true)

/-! ### WRITE_MEM and READ_MEM (R403, R409) -/

theorem writeMem_foreign {s : State} {g : Nat} {c : Bytes} (data : Bytes) (hargs : xferArgs c = true) (hown : namesOwn s g (hArg c 1) = false) :
    writeMem g c data s = { s := s, status := 3 } :=
  (if_neg (by rw [hargs]; decide)).trans (if_pos hown)

theorem writeMem_done {s u : State} {g : Nat} {c data : Bytes} (hargs : xferArgs c = true) (hown : namesOwn s g (hArg c 1) = true)
    (hlen : data.length = hArg c 2) (h : hostWrite (hciMaster g) (hArg c 2) (hArg c 1) 0 data s = (u, none)) :
    writeMem g c data s = { s := u, result := hArg c 2 } := by
  refine (if_neg (by rw [hargs]; decide)).trans ((if_neg (by rw [hown]; decide)).trans ?_)
  rw [← hlen] at h ⊢
  dsimp only
  rw [List.take_length, h]
  exact if_neg (Nat.lt_irrefl _)

theorem readMem_done {s u : State} {g : Nat} {c bs : Bytes} (hargs : xferArgs c = true) (hown : namesOwn s g (hArg c 1) = true)
    (h : hostRead (hciMaster g) (hArg c 2) (hArg c 1) 0 (hArg c 2) [] s = (u, none, bs)) :
    readMem g c s = { s := answer u bs false, result := hArg c 2 } := by
  refine (if_neg (by rw [hargs]; decide)).trans ((if_neg (by rw [hown]; decide)).trans ?_)
  dsimp only
  rw [h]

/-! ### One burst of DRAM -/

theorem hostLen_dram {a n : Nat} (hr : region a = .dram) (hrow : a % 512 + n ≤ 512) : hostLen a n = n := by
  unfold hostLen
  rw [hr]
  exact Nat.min_eq_left (by omega)

theorem not_waits {s : State} {m : Master} {a : Nat} (hout : dramOut s a = false) (hwait : ∀ r, reqOf m = some r → dramWaits s r a = false)
    (b : Bool) : ¬ (dramOut s a = true ∨ (reqOf m).any (fun r => (r != 10 || b) && dramWaits s r a) = true) := by
  rintro (h | h)
  · rw [hout] at h
    cases h
  · cases hreq : reqOf m with
    | none => rw [hreq] at h; cases h
    | some r =>
      rw [hreq, Option.any_some, hwait r hreq, Bool.and_false] at h
      cases h

section
variable {s : State} {m : Master} {a n : Nat} (h0 : 0 < n) (hrow : a % 512 + n ≤ 512) (hr : region a = .dram) (hreach : outOfReach s m a = false)
include h0 hrow hr hreach

/-- A burst within reach goes to memory. -/
theorem route_dram (wr : Option Bytes) : route s m a n wr {} = memAccess s m a n wr := by
  refine (if_neg (by rw [hreach]; exact Bool.false_ne_true)).trans ?_
  rw [hr]
  exact (if_neg (by omega)).trans (if_pos (.inl hrow))

variable (hout : dramOut s a = false) (hwait : ∀ r, reqOf m = some r → dramWaits s r a = false)
include hout hwait

theorem route_dram_write {bs : Bytes} (hlen : bs.length = n) (hx : s.drc.xts = [])
    (hpass : busGate s m .system a n true (leVal (bs.take 4)) = .pass) : (route s m a n (some bs) {}).mem = memWrite s.mem a bs := by
  have hfit : fitBytes n bs = bs := by simp [fitBytes, hlen]
  have hcache : (throughCache s m a).drc = s.drc ∧ (throughCache s m a).mem = s.mem := by
    unfold throughCache
    split <;> exact ⟨rfl, rfl⟩
  rw [route_dram h0 hrow hr hreach, memAccess, if_neg (not_waits hout hwait _)]
  dsimp only
  rw [hfit, hpass]
  dsimp only
  rw [if_pos hr, BurstLaws.dramPut_nil (by rw [hcache.1]; exact hx)]
  show memWrite (throughCache s m a).mem a bs = _
  rw [hcache.2]

theorem route_dram_read (hx : s.drc.xts = []) (hecc : dramEcc s m a n = (s, false)) (hpass : busGate s m .system a n false = .pass) :
    route s m a n none {} = answer (throughCache s m a) (memRead s.mem a n) false := by
  have hread : busRead s m .system a n = ⟨s, memRead s.mem a n, true, false, none⟩ := by
    simp only [busRead, hpass, hr, hecc]
  rw [route_dram h0 hrow hr hreach, memAccess, if_neg (not_waits hout hwait _)]
  dsimp only
  rw [hread]
  exact if_neg (fun h => Bool.false_ne_true ((BurstLaws.xtsBad_nil hx a n).symm.trans h.2.2))

end

theorem hostRefused_dram {s : State} {m : Master} {a n d : Nat} (hr : region a = .dram) (hpass : busGate s m .system a n true d = .pass) :
    hostRefused s m a n = false := by
  have hpass' : busGate s m .system a n true = .pass :=
    (TransferLaws.busGate_dram_pass_iff hr).mpr ((TransferLaws.busGate_dram_pass_iff hr).mp hpass)
  simp only [hostRefused, hr, hpass']

/-- A transfer into the device that is one burst. -/
theorem hostWrite_one {s : State} {m : Master} {a : Nat} {bs : Bytes} (h0 : 0 < bs.length) (hl : hostLen a bs.length = bs.length)
    (href : hostRefused s m a bs.length = false) : hostWrite m bs.length a 0 bs s = (route s m a bs.length (some bs) {}, none) := by
  obtain ⟨k, hk⟩ := Nat.exists_eq_succ_of_ne_zero (Nat.pos_iff_ne_zero.mp h0)
  have hempty : bs.isEmpty = false := by cases bs <;> simp_all
  have hrest : ∀ k a' off t, hostWrite m k a' off [] t = (t, none) := fun k a' off t => by cases k <;> rfl
  have hstep : hostWrite m (k + 1) a 0 bs s = (route s m a bs.length (some bs) {}, none) := by
    rw [hostWrite, hempty, if_neg Bool.false_ne_true]
    dsimp only
    rw [hl, href, if_neg Bool.false_ne_true, List.take_length, List.drop_length, hrest]
  exact (congrArg (fun k => hostWrite m k a 0 bs s) hk).trans hstep

/-- A transfer out of the device that is one burst. -/
theorem hostRead_one {s t : State} {m : Master} {a n : Nat} (h0 : 0 < n) (hl : hostLen a n = n) (href : hostRefused s m a n = false)
    (ht : route s m a n none {} = t) (herr : t.rdErr = false) : hostRead m n a 0 n [] s = (t, none, t.rd) := by
  obtain ⟨k, rfl⟩ := Nat.exists_eq_succ_of_ne_zero (Nat.pos_iff_ne_zero.mp h0)
  have hrest : ∀ k a' off acc t, hostRead m k a' off 0 acc t = (t, none, acc) := fun k a' off acc t => by cases k <;> rfl
  rw [hostRead, if_neg (Nat.succ_ne_zero k)]
  dsimp only
  rw [hl, href, ht, herr, if_neg (by rintro (h | h) <;> cases h), Nat.sub_self, hrest, List.nil_append]

/-! ### Containers (R412, R413) -/

/-- LOAD_CONTAINER's reply by the refusal of its checks, after the copy. -/
def loadReply (t : State) (p a : Nat) (data : Bytes) (keys : List (Option (BitVec 256))) : Option Nat → Reply
  | some d => { s := t, status := 6, detail := d }
  | none => { s := loadStep6 t p a data keys, result := t.sec.nextHandle }

theorem loadContainer_checked {s t : State} {g : Nat} {c data : Bytes} (good : Bool) (keys : List (Option (BitVec 256))) (hn : hArg c 1 ≠ 0)
    (ha : hArg c 2 % 4096 = 0) (hone : inRegions (getP s (fnPart g)) (hArg c 2) 1 = true)
    (hall : inRegions (getP s (fnPart g)) (hArg c 2) (hArg c 1) = true) (hlen : data.length = hArg c 1)
    (ht : t = (hostWrite (hciMaster g) (hArg c 1) (hArg c 2) 0 data s).1) : loadContainer g c data good keys s =
      loadReply t (fnPart g) (hArg c 2) data keys (loadRefusal t (fnPart g) data good keys) := by
  unfold loadContainer
  dsimp only
  rw [if_neg (by omega), if_neg (by rw [hone]; decide), if_neg (by rw [hall]; decide), if_neg (by omega), ← hlen, List.take_length]
  rw [← hlen] at ht
  rw [← ht]
  generalize loadRefusal t (fnPart g) data good keys = o
  cases o <;> rfl

theorem clearAo_same (s : State) (f : Nat → Bool) : (clearAo s f).sec = s.sec ∧ (clearAo s f).tick = s.tick := by
  unfold clearAo
  generalize List.range 256 = l
  induction l generalizing s with
  | nil => exact ⟨rfl, rfl⟩
  | cons g l ih =>
    rw [List.foldl_cons]
    obtain ⟨hsec, htick⟩ := ih (if f g = true ∧ bitOf (getF s (F.MAP_AO_AO (g / 32))) (g % 32) = true then
      setF (zeroMem s (mapBase + g * 0x100000) 0x100000) (F.MAP_AO_AO (g / 32)) (clearBit (getF s (F.MAP_AO_AO (g / 32))) (g % 32)) else s)
    rw [hsec, htick]
    split <;> exact ⟨rfl, rfl⟩

theorem tabGet_foldl_tabPut_none {α : Type} [DecidableEq α] {l : List Nat} {i : Nat} (t : Tab (Option α)) (h : i ∈ l) :
    tabGet (l.foldl (fun t i => tabPut t i none none) t) i none = none := by
  have hkeep : ∀ (l : List Nat) (t : Tab (Option α)), tabGet t i none = none → tabGet (l.foldl (fun t i => tabPut t i none none) t) i none = none := by
    intro l
    induction l with
    | nil => exact fun _ h => h
    | cons j l ih =>
      intro t ht
      refine ih _ ?_
      by_cases hij : i = j
      · rw [hij, tabGet_tabPut_same]
      · rw [tabGet_tabPut_ne _ _ _ _ _ _ hij, ht]
  induction l generalizing t with
  | nil => cases h
  | cons j l ih =>
    rcases List.mem_cons.mp h with rfl | h
    · exact hkeep l _ (tabGet_tabPut_same ..)
    · exact ih _ h

/-- A container's keys are withdrawn and it is forgotten. -/
def withdrawn (s : State) (k : Container) : State :=
  { s with sec := { s.sec with slots := k.slots.foldl (fun t i => tabPut t i none none) s.sec.slots,
                               containers := s.sec.containers.filter (fun x => x.handle != k.handle) } }

/-- The plans of a container are dropped. -/
def plansDropped (k : Container) (s : State) : State :=
  { s with tick := { s.tick with plans := s.tick.plans.filter (fun p => !k.plans.contains p.id),
                                 pending := s.tick.pending.filter (fun x => !k.plans.contains x.1) } }

/-- A container's regions. -/
def aoRange (k : Container) (g : Nat) : Bool := decide (k.aoFirst ≤ g) && decide (g < k.aoFirst + k.aoCount)

/-- The state after UNLOAD_CONTAINER. -/
def unloaded (s : State) (k : Container) : State := plansDropped k (clearAo (withdrawn s k) (aoRange k))

section
variable {s : State} {g : Nat} {c : Bytes}

theorem unloadContainer_unknown (h : s.sec.containers.find? (fun k => k.handle == hArg c 0) = none) :
    unloadContainer g c s = { s := s, status := if g = 0 then 4 else 3 } := by
  unfold unloadContainer
  rw [h]

variable {k : Container} (h : s.sec.containers.find? (fun k => k.handle == hArg c 0) = some k) (hown : g = 0 ∨ k.part = fnPart g)
include h hown

theorem unloadContainer_held (hp : planHolds s k = true) : unloadContainer g c s = { s := s, status := 5 } := by
  unfold unloadContainer
  rw [h]
  exact (if_neg (fun x => hown.elim x.1 x.2)).trans (if_pos hp)

theorem unloadContainer_done (hp : planHolds s k = false) : unloadContainer g c s = { s := unloaded s k } := by
  unfold unloadContainer
  rw [h]
  exact (if_neg (fun x => hown.elim x.1 x.2)).trans ((if_neg (by rw [hp]; exact Bool.false_ne_true)).trans rfl)

end

theorem plansDropped_sec (k : Container) (s : State) : (plansDropped k s).sec = s.sec := rfl

theorem plansDropped_plans (k : Container) (s : State) : (plansDropped k s).tick.plans = s.tick.plans.filter (fun p => !k.plans.contains p.id) := rfl

theorem unloaded_sec (s : State) (k : Container) : (unloaded s k).sec = (withdrawn s k).sec := by
  rw [unloaded, plansDropped_sec, (clearAo_same _ _).1]

theorem unloaded_plans (s : State) (k : Container) : ∀ p ∈ (unloaded s k).tick.plans, p.id ∉ k.plans := by
  rw [unloaded, plansDropped_plans]
  exact fun p hp => by simpa using (List.mem_filter.mp hp).2

/-! ### Milestone rings and mode switches (R415, R416) -/

/-- A function's milestone ring is set or cleared. -/
def milestonePut (s : State) (g : Nat) (x : Option (Nat × Nat)) : State :=
  { s with hif := { s.hif with fns := s.hif.fns.set g { getFn s g with milestone := x } } }

theorem getFn_milestonePut {s : State} {g : Nat} (x : Option (Nat × Nat)) (h : g < s.hif.fns.length) :
    getFn (milestonePut s g x) g = { getFn s g with milestone := x } := WordLaws.nth_set_same _ _ h

theorem milestoneRing_off {s : State} {g : Nat} {c : Bytes} (h : hArg c 0 = 0) : milestoneRing g c s = { s := milestonePut s g none } := if_pos h

theorem milestoneRing_on {s : State} {g : Nat} {c : Bytes} (h0 : hArg c 0 ≠ 0) (ha : hArg c 0 % 4096 = 0) (hk0 : hArg c 1 ≠ 0) (hk : hArg c 1 ≤ 1024)
    (hpow : 2 ^ Nat.log2 (hArg c 1) = hArg c 1) : milestoneRing g c s = { s := milestonePut s g (some (hArg c 0, hArg c 1)) } := by
  refine (if_neg h0).trans (if_neg ?_)
  rintro (h | h | h | h)
  · exact h ha
  · exact hk0 h
  · exact Nat.not_lt_of_le hk h
  · exact h hpow

theorem modeSet_planSrc {s : State} {c : Bytes} (hk : hArg c 0 = 4) (hv : hArg c 2 < 2) :
    modeSet c s = modeBit s (!isSet s F.TICK_CTL_ENABLE) F.TICK_CTL_PLAN_SRC 0 (hArg c 2) := by
  unfold modeSet
  dsimp only
  rw [hk, if_neg (by decide), if_neg (by omega)]
  rfl

theorem modeBit_off (s : State) (x : Fld) (i v : Nat) : modeBit s false x i v = { s := s, status := 5 } := if_pos rfl

theorem modeBit_on (s : State) (x : Fld) (i v : Nat) : modeBit s true x i v =
    { s := setF s x (if v = 1 then setBit (getF s x) i else clearBit (getF s x) i), result := if bitOf (getF s x) i then 1 else 0 } :=
  if_neg Bool.noConfusion

theorem bitOf_planSrc (s : State) {v : Nat} (hv : v < 2) :
    bitOf (getF (setF s F.TICK_CTL_PLAN_SRC (if v = 1 then setBit (getF s F.TICK_CTL_PLAN_SRC) 0 else clearBit (getF s F.TICK_CTL_PLAN_SRC) 0))
      F.TICK_CTL_PLAN_SRC) 0 = decide (v = 1) := by
  rw [getF_setF_same]
  have hw : F.TICK_CTL_PLAN_SRC.width = 1 := rfl
  rw [hw]
  generalize getF s F.TICK_CTL_PLAN_SRC = x
  have hv' : v = 0 ∨ v = 1 := by omega
  have hx : x % 2 = 0 ∨ x % 2 = 1 := by omega
  rcases hv' with rfl | rfl <;> rcases hx with hx | hx <;> simp [setBit, clearBit, bitOf, hx] <;> omega

/-- Settles O44, each clause by the command's reply. -/
theorem hostCommandsMoveData : Obligations.HostCommandsMoveData := by
  unfold Obligations.HostCommandsMoveData
  refine ⟨?hello, ?ready, ?write, ?read, ?burst, ?load, ?unload, ?milestone, ?mode⟩
  case hello =>
    intro s f g n c st hready hlen hop hf
    refine ⟨fun h => congrArg Host.Outcome.next (fhp_refused hready hlen hop hf _ h), fun v hnone hst hv => ?_⟩
    exact fhp_replies (act := hello g.val n.val c) hready hlen hop hf hnone (hello_shares hst hv)
  case ready =>
    rintro s g n r e b lo hi v rfl hrun hev hhello hv hroom hheld hg hn
    have hshape := RingLaws.getRing_writeCqe_ended hg hn e b
    have hwrite : complete g.val n.val s = _ := (RingLaws.complete_free hg hn hrun hroom hheld).trans
      (writeOut_hello (lo := lo) (hi := hi) hev (by rw [hshape]; exact hhello))
    obtain ⟨hstate, hversion⟩ := helloApply_ready (s := setRing (writeCqe (RingLaws.ended s g.val n.val) g.val n.val e b) g.val n.val
      { getRing (writeCqe (RingLaws.ended s g.val n.val) g.val n.val e b) g.val n.val with hello := none }) (g := g.val) hv
    refine ⟨_, congrArg Host.Outcome.next hwrite, hstate, hversion, ?_⟩
    rw [getRing_of_hif _ _ (helloApply_hif ..), RingLaws.getRing_setRing]
    · rw [RingLaws.writeCqe_fns_length, RingLaws.ended, RingLaws.setRing_fns_length]
      exact hg
    · rw [RingLaws.writeCqe_rings_length, RingLaws.ended, RingLaws.setRing_rings_length _ _ hg]
      · exact hn
      · rw [RingLaws.ended, RingLaws.setRing_fns_length]
        exact hg
  case write =>
    intro s f g n c data hready hlen hop hf hnone
    refine ⟨fun h => ?_, fun hargs hown => ?_, fun u hargs hown hdata h => ?_⟩
    · exact fhp_replies (act := writeMem g.val c data) hready hlen hop hf hnone (if_pos h)
    · exact fhp_replies (act := writeMem g.val c data) hready hlen hop hf hnone (writeMem_foreign data hargs hown)
    · exact fhp_replies (act := writeMem g.val c data) hready hlen hop hf hnone (writeMem_done hargs hown hdata h)
  case read =>
    intro s f g n c u bs hready hlen hop hf hnone hargs hown h
    exact fhp_replies (act := readMem g.val c) hready hlen hop hf hnone (readMem_done hargs hown h)
  case burst =>
    intro s m a bs h0 hrow hr hreach hout hwait hecc hwr hrd hx
    have hl := hostLen_dram hr hrow
    have href := hostRefused_dram hr hwr
    have hread := hostRead_one h0 hl href (route_dram_read h0 hrow hr hreach hout hwait hx hecc hrd) rfl
    rw [hostWrite_one h0 hl href, hread]
    exact ⟨rfl, route_dram_write h0 hrow hr hreach hout hwait rfl hx hwr, rfl⟩
  case load =>
    intro s f t g n c data good keys hready hlen hop hlocked hf hnone hn ha hone hall hdata ht
    have hload := loadContainer_checked good keys hn ha hone hall hdata ht
    have hrun : exec (.loadContainer g n c data good keys) s = .next (fhp g.val n.val 0x10 c (loadContainer g.val c data good keys) s) :=
      congrArg Host.Outcome.next (if_neg (by rw [hlocked]; exact Bool.false_ne_true))
    refine ⟨fun h => ?_, fun d h => ?_⟩
    · rw [h] at hload
      exact hrun.trans (fhp_replies hready hlen hop hf hnone hload)
    · rw [h] at hload
      exact hrun.trans (fhp_replies hready hlen hop hf hnone hload)
  case unload =>
    intro s f g n c hready hlen hop hf hnone
    refine ⟨fun h => ?_, fun k h hown hp => ?_, fun k h hown hp => ?_⟩
    · exact fhp_replies (act := unloadContainer g.val c) hready hlen hop hf hnone (unloadContainer_unknown h)
    · exact fhp_replies (act := unloadContainer g.val c) hready hlen hop hf hnone (unloadContainer_held h hown hp)
    · refine ⟨unloaded f k, fhp_replies (act := unloadContainer g.val c) hready hlen hop hf hnone (unloadContainer_done h hown hp), ?_, ?_, ?_⟩
      · rw [unloaded_sec]
        exact fun x hx => by simpa using (List.mem_filter.mp hx).2
      · rw [unloaded_sec]
        exact fun i hi => tabGet_foldl_tabPut_none _ hi
      · exact unloaded_plans f k
  case milestone =>
    intro s f g n c hready hlen hop hf hnone hg
    refine ⟨fun h => ⟨milestonePut f g.val none, ?_, ?_⟩, fun h0 ha hk0 hk hpow => ⟨milestonePut f g.val (some (hArg c 0, hArg c 1)), ?_, ?_, rfl⟩⟩
    · exact fhp_replies (act := milestoneRing g.val c) hready hlen hop hf hnone (milestoneRing_off h)
    · rw [getFn_milestonePut _ hg]
    · exact fhp_replies (act := milestoneRing g.val c) hready hlen hop hf hnone (milestoneRing_on h0 ha hk0 hk hpow)
    · rw [getFn_milestonePut _ hg]
  case mode =>
    intro s f g n c hready hlen hop hf hnone hk hv
    have hmode := modeSet_planSrc (s := f) hk hv
    refine ⟨fun h => ?_, fun h => ⟨setF f F.TICK_CTL_PLAN_SRC (if hArg c 2 = 1 then setBit (getF f F.TICK_CTL_PLAN_SRC) 0
      else clearBit (getF f F.TICK_CTL_PLAN_SRC) 0), ?_, bitOf_planSrc f hv, rfl⟩⟩
    · rw [h, Bool.not_true, modeBit_off] at hmode
      exact fhp_replies (act := modeSet c) hready hlen hop hf hnone hmode
    · rw [h, Bool.not_false, modeBit_on] at hmode
      exact fhp_replies (act := modeSet c) hready hlen hop hf hnone hmode

end Sys2Proof.CommandLaws
end

section
/-! Power windows, droop, voltage steps and availability (R426 to R432). -/

namespace Sys2Proof.PowerLaws

open Sys2Proof Sys2Proof.Machine

/-! ### Folds over the cores -/

theorem foldl_keeps {α β γ : Type} {f : β → α → β} {V : β → γ} (h : ∀ b a, V (f b a) = V b) (l : List α) (b : β) : V (l.foldl f b) = V b := by
  induction l generalizing b with
  | nil => rfl
  | cons a l ih => rw [List.foldl_cons, ih, h]

/-- A fold whose step for an index changes the view of that index alone acts on each index once. -/
theorem foldl_at {β γ : Type} {f : β → Nat → β} {V : β → Nat → γ} (h : ∀ b i j, j ≠ i → V (f b i) j = V b j) {l : List Nat} (hl : l.Nodup)
    {c : Nat} (hc : c ∈ l) (b : β) : ∃ b', V b' c = V b c ∧ V (l.foldl f b) c = V (f b' c) c := by
  have hout : ∀ (l : List Nat), c ∉ l → ∀ b, V (l.foldl f b) c = V b c := by
    intro l
    induction l with
    | nil => exact fun _ _ => rfl
    | cons i l ih =>
      intro hi b
      rw [List.foldl_cons, ih (fun hm => hi (List.mem_cons_of_mem _ hm)), h b i c (fun e => hi (e ▸ List.mem_cons_self))]
  induction l generalizing b with
  | nil => cases hc
  | cons i l ih =>
    obtain ⟨hi, hl⟩ := List.nodup_cons.mp hl
    rw [List.foldl_cons]
    rcases List.mem_cons.mp hc with rfl | hc
    · exact ⟨b, rfl, hout l hi _⟩
    · obtain ⟨b', hb, hf⟩ := ih hl hc (f b i)
      exact ⟨b', hb.trans (h b i c (fun e => hi (e ▸ hc))), hf⟩

/-! ### A host core (R428, R430) -/

/-- What the kiln holds of a host core, with what its steps go by. -/
structure Core where
  point : Nat
  up : Bool
  ups : Nat
  points : Nat
  cur : Nat
  target : Nat
  floor : Nat
  fuse : Fuse

def coreOf (s : State) (c : Nat) : Core :=
  { point := nth s.kiln.hcPoint c 0, up := nth s.kiln.hcUp c false, ups := s.kiln.hcUp.length, points := s.kiln.hcPoint.length,
    cur := getF s (F.KILN_HC_CUR c), target := getF s (F.KILN_HC_TARGET c), floor := getF s F.KILN_HC_FLOOR_FLOOR, fuse := s.fuse }

theorem hcCur_keys {c k : Nat} (h : c ≠ k) : (F.KILN_HC_CUR c).key ≠ (F.KILN_HC_CUR k).key := by
  simp only [Fld.key, F.KILN_HC_CUR, Reg.KILN_HC]
  omega

theorem hcTarget_key (c k : Nat) : (F.KILN_HC_TARGET c).key ≠ (F.KILN_HC_CUR k).key := by
  simp only [Fld.key, F.KILN_HC_CUR, F.KILN_HC_TARGET, Reg.KILN_HC]
  omega

theorem hcFloor_key (k : Nat) : F.KILN_HC_FLOOR_FLOOR.key ≠ (F.KILN_HC_CUR k).key := by
  simp only [Fld.key, F.KILN_HC_CUR, F.KILN_HC_FLOOR_FLOOR, Reg.KILN_HC, Reg.KILN_HC_FLOOR]
  omega

theorem pwrIn_keys (k : Nat) : (F.KILN_HC_CUR k).key ≠ F.KILN_PWR_IN_QW.key ∧ (F.KILN_HC_TARGET k).key ≠ F.KILN_PWR_IN_QW.key ∧
    F.KILN_HC_FLOOR_FLOOR.key ≠ F.KILN_PWR_IN_QW.key := by
  simp only [Fld.key, F.KILN_HC_CUR, F.KILN_HC_TARGET, F.KILN_HC_FLOOR_FLOOR, F.KILN_PWR_IN_QW, Reg.KILN_HC, Reg.KILN_HC_FLOOR, Reg.KILN_PWR]
  omega

theorem core_eq {s t : State} {c : Nat} (h : coreOf s c = coreOf t c) : nth s.kiln.hcPoint c 0 = nth t.kiln.hcPoint c 0 ∧
    nth s.kiln.hcUp c false = nth t.kiln.hcUp c false ∧ getF s (F.KILN_HC_CUR c) = getF t (F.KILN_HC_CUR c) :=
  ⟨congrArg Core.point h, congrArg Core.up h, congrArg Core.cur h⟩

/-- A core can step down by its view. -/
theorem canDown_eq {s t : State} {c : Nat} (h : coreOf s c = coreOf t c) : canDown s c = canDown t c := by
  have hpoint := congrArg Core.point h
  have hfloor := congrArg Core.floor h
  have hfuse := congrArg Core.fuse h
  simp only [coreOf] at hpoint hfloor hfuse
  unfold canDown hcMhz
  rw [hpoint, hfloor, hfuse]

/-- The kiln but for its cores' points. -/
def kilnRest (s : State) : Kiln := { s.kiln with hcPoint := [], hcUp := [] }

/-- Everything but the kiln and its registers. -/
def outside (r k : State) (s : State) : State := { s with regs := r.regs, kiln := k.kiln }

theorem setF_kiln (s : State) (x : Fld) (v : Nat) : (setF s x v).kiln = s.kiln := rfl

theorem setF_fuse (s : State) (x : Fld) (v : Nat) : (setF s x v).fuse = s.fuse := rfl

/-- A core's frequency follows its point: nothing else of a core changes. -/
theorem coreOf_hcApply (s : State) (c k : Nat) : coreOf (hcApply s k) c = { coreOf s c with
    cur := if c = k then min (getF s (F.KILN_HC_TARGET k)) (hcMhz s k (nth s.kiln.hcPoint k 0) / 10) % 256 else getF s (F.KILN_HC_CUR c) } := by
  unfold hcApply coreOf
  rw [getF_setF_ne _ _ _ _ (hcTarget_key c k), getF_setF_ne _ _ _ _ (hcFloor_key k), setF_kiln, setF_fuse]
  by_cases h : c = k
  · subst h
    rw [getF_setF_same, if_pos rfl]
    rfl
  · rw [getF_setF_ne _ _ _ _ (hcCur_keys h), if_neg h]

/-- A core's point and its step to come are replaced. -/
def setCore (s : State) (k point : Nat) (up : Bool) : State :=
  setKiln s { s.kiln with hcPoint := s.kiln.hcPoint.set k point, hcUp := s.kiln.hcUp.set k up }

theorem coreOf_setCore_ne (s : State) {c k : Nat} (point : Nat) (up : Bool) (h : c ≠ k) : coreOf (setCore s k point up) c = coreOf s c := by
  have hp : nth (s.kiln.hcPoint.set k point) c 0 = nth s.kiln.hcPoint c 0 := WordLaws.nth_set_ne _ _ (Ne.symm h)
  have hu : nth (s.kiln.hcUp.set k up) c false = nth s.kiln.hcUp c false := WordLaws.nth_set_ne _ _ (Ne.symm h)
  show Core.mk (nth (s.kiln.hcPoint.set k point) c 0) (nth (s.kiln.hcUp.set k up) c false) (s.kiln.hcUp.set k up).length
    (s.kiln.hcPoint.set k point).length (getF s (F.KILN_HC_CUR c)) (getF s (F.KILN_HC_TARGET c)) (getF s F.KILN_HC_FLOOR_FLOOR) s.fuse = _
  rw [hp, hu, List.length_set, List.length_set]
  rfl

theorem coreOf_metered (s : State) (v c : Nat) : coreOf (setF s F.KILN_PWR_IN_QW v) c = coreOf s c := by
  obtain ⟨hcur, htarget, hfloor⟩ := pwrIn_keys c
  unfold coreOf
  rw [getF_setF_ne _ _ _ _ hcur, getF_setF_ne _ _ _ _ htarget, getF_setF_ne _ _ _ _ hfloor, setF_kiln, setF_fuse]

theorem hcDown_eq {s : State} {k : Nat} (h : canDown s k = true) : hcDown s k = hcApply (setCore s k (nth s.kiln.hcPoint k 0 - 1) false) k := if_pos h

theorem hcDown_stays {s : State} {k : Nat} (h : canDown s k = false) : hcDown s k = s := if_neg (ne_true_of_eq_false h)

theorem coreOf_hcDown_ne (s : State) (k c : Nat) (h : c ≠ k) : coreOf (hcDown s k) c = coreOf s c := by
  cases hdown : canDown s k
  · rw [hcDown_stays hdown]
  · rw [hcDown_eq hdown, coreOf_hcApply, coreOf_setCore_ne s _ _ h, if_neg h]
    rfl

theorem hcDown_outside (r k s : State) (c : Nat) : outside r k (hcDown s c) = outside r k s := by
  unfold hcDown
  split <;> rfl

theorem hcDown_rest (s : State) (c : Nat) : kilnRest (hcDown s c) = kilnRest s := by
  unfold hcDown
  split <;> rfl

theorem canDown_pos {s : State} {c : Nat} (h : canDown s c = true) : 0 < nth s.kiln.hcPoint c 0 := by
  unfold canDown at h
  simp only [Bool.and_eq_true, decide_eq_true_eq] at h
  exact h.1

theorem point_setCore {s : State} {c : Nat} (point : Nat) (up : Bool) (h : c < s.kiln.hcPoint.length) :
    nth (setCore s c point up).kiln.hcPoint c 0 = point := WordLaws.nth_set_same _ _ h

theorem point_hcApply (s : State) (c : Nat) : nth (hcApply s c).kiln.hcPoint c 0 = nth s.kiln.hcPoint c 0 := rfl

theorem cur_hcApply_setCore {s : State} {c : Nat} (point : Nat) (up : Bool) (h : c < s.kiln.hcPoint.length) :
    getF (hcApply (setCore s c point up) c) (F.KILN_HC_CUR c) = min (getF s (F.KILN_HC_TARGET c)) (hcMhz s c point / 10) % 256 := by
  unfold hcApply
  rw [getF_setF_same, point_setCore _ _ h]
  rfl

/-- A core that can step down steps one point down, its frequency at once. -/
theorem hcDown_steps {s : State} {c : Nat} (h : canDown s c = true) : nth (hcDown s c).kiln.hcPoint c 0 + 1 = nth s.kiln.hcPoint c 0 ∧
    getF (hcDown s c) (F.KILN_HC_CUR c) = min (getF s (F.KILN_HC_TARGET c)) (hcMhz s c (nth (hcDown s c).kiln.hcPoint c 0) / 10) % 256 := by
  have hpos := canDown_pos h
  have hlen : c < s.kiln.hcPoint.length := by
    by_contra hc
    rw [nth, List.getElem?_eq_none (by omega)] at hpos
    exact absurd hpos (by decide)
  rw [hcDown_eq h, point_hcApply, point_setCore _ _ hlen, cur_hcApply_setCore _ _ hlen]
  exact ⟨by omega, rfl⟩

/-- A core below its target and its highest point has its step up begun. -/
def wantsUp (s : State) (c : Nat) : Bool :=
  decide (getF s (F.KILN_HC_CUR c) < getF s (F.KILN_HC_TARGET c)) && decide (nth s.kiln.hcPoint c 0 < 12)

theorem hcRaise_eq {s : State} {k : Nat} (h : wantsUp s k = true) : hcRaise s k = setKiln s { s.kiln with hcUp := s.kiln.hcUp.set k true } :=
  if_pos (by simpa [wantsUp] using h)

theorem hcRaise_stays {s : State} {k : Nat} (h : wantsUp s k = false) : hcRaise s k = s :=
  if_neg (by simpa [wantsUp] using h)

theorem coreOf_hcRaise_ne (s : State) (k c : Nat) (h : c ≠ k) : coreOf (hcRaise s k) c = coreOf s c := by
  cases hup : wantsUp s k
  · rw [hcRaise_stays hup]
  · have hu : nth (s.kiln.hcUp.set k true) c false = nth s.kiln.hcUp c false := WordLaws.nth_set_ne _ _ (Ne.symm h)
    rw [hcRaise_eq hup]
    show Core.mk (nth s.kiln.hcPoint c 0) (nth (s.kiln.hcUp.set k true) c false) (s.kiln.hcUp.set k true).length s.kiln.hcPoint.length
      (getF s (F.KILN_HC_CUR c)) (getF s (F.KILN_HC_TARGET c)) (getF s F.KILN_HC_FLOOR_FLOOR) s.fuse = _
    rw [hu, List.length_set]
    rfl

theorem hcRaise_up {s : State} {c : Nat} (h : c < s.kiln.hcUp.length) : nth (hcRaise s c).kiln.hcUp c false = (nth s.kiln.hcUp c false || wantsUp s c) := by
  cases hup : wantsUp s c
  · rw [hcRaise_stays hup, Bool.or_false]
  · rw [hcRaise_eq hup, Bool.or_true]
    exact WordLaws.nth_set_same _ _ h

theorem hcRaise_points (s : State) (c : Nat) : (hcRaise s c).kiln.hcPoint = s.kiln.hcPoint := by
  unfold hcRaise
  split <;> rfl

theorem hcRaise_outside (r k s : State) (c : Nat) : outside r k (hcRaise s c) = outside r k s := by
  unfold hcRaise
  split <;> rfl

theorem hcRaise_rest (s : State) (c : Nat) : kilnRest (hcRaise s c) = kilnRest s := by
  unfold hcRaise
  split <;> rfl

/-! ### A window (R426, R430) -/

/-- The window's average as a value of KILN_PWR. -/
def metered (u : State) (avg : Nat) : State := setF u F.KILN_PWR_IN_QW (min 1023 (avg / 250))

/-- The calm windows with this one. -/
def calmOf (u : State) (avg : Nat) : Nat := if u.kiln.hcZero ∧ 100 * avg ≤ 95 * (capEff u * 250) then u.kiln.calm + 1 else 0

def exceeds (u : State) (avg : Nat) : Bool := u.kiln.atMax && decide (capEff u * 250 < avg)

/-- The window's steps of the host cores. -/
def coresStepped (u : State) (avg : Nat) : State :=
  if exceeds u avg then (List.range 8).foldl hcDown (metered u avg)
  else if 10 ≤ calmOf u avg then (List.range 8).foldl hcRaise (metered u avg) else metered u avg

def allLow (s : State) : Bool := (List.range 8).all (fun c => !canDown s c)

def unheldDue (u : State) (avg : Nat) : Bool := exceeds u avg && u.kiln.floored && allLow u && secondPast u u.kiln.unheldAt

/-- The window's marks begin anew. -/
def closed (w : State) (floor : Bool) (calm : Nat) (unheld : Option Nat) : State :=
  setKiln w { w.kiln with atMax := true, hcZero := true, calm := calm, floored := floor, unheldAt := unheld }

/-- The window's end, before sustained stretching is reported. -/
def windowClosed (u : State) (avg : Nat) : State :=
  closed (coresStepped u avg) (exceeds u avg && allLow (coresStepped u avg)) (if 10 ≤ calmOf u avg then 0 else calmOf u avg)
    (if unheldDue u avg then some (coresStepped u avg).timeP else u.kiln.unheldAt)

/-- The time of a domain's sustained stretching is noted. -/
def stretchNoted (s : State) (d : Nat) : State := setKiln s { s.kiln with droopAt := tabPut s.kiln.droopAt d (some s.timeP) none }

theorem stretchNoted_flt (s : State) (d : Nat) : (stretchNoted s d).flt = s.flt := rfl

/-- Sustained stretching of a domain, reported once per second. -/
def sustained (s : State) (d : Nat) : State :=
  if secondPast s (tabGet s.kiln.droopAt d none) then kilnRaise (stretchNoted s d) 0x0231 else s

theorem powerWindow_eq {s u : State} {t : Nat} (hu : u = atPort t s) (avg : Nat) (l : List Nat) : powerWindow avg l t s =
    l.foldl sustained (if unheldDue u avg then kilnRaise (windowClosed u avg) 0x0230 else windowClosed u avg) := by
  unfold powerWindow
  rw [← hu]
  rfl

theorem wantsUp_eq {s t : State} {c : Nat} (h : coreOf s c = coreOf t c) : wantsUp s c = wantsUp t c := by
  have hpoint := congrArg Core.point h
  have hcur := congrArg Core.cur h
  have htarget := congrArg Core.target h
  simp only [coreOf] at hpoint hcur htarget
  unfold wantsUp
  rw [hpoint, hcur, htarget]

section
variable (u : State) (avg : Nat)

theorem coresStepped_outside (r k : State) : outside r k (coresStepped u avg) = outside r k u := by
  have hdown := foldl_keeps (hcDown_outside r k) (List.range 8) (metered u avg)
  have hup := foldl_keeps (hcRaise_outside r k) (List.range 8) (metered u avg)
  unfold coresStepped
  split
  · exact hdown
  · split
    · exact hup
    · rfl

theorem coresStepped_flt : (coresStepped u avg).flt = u.flt := (congrArg State.flt (coresStepped_outside u avg u u) :)

theorem coresStepped_mem : (coresStepped u avg).mem = u.mem := (congrArg State.mem (coresStepped_outside u avg u u) :)

theorem coresStepped_timeP : (coresStepped u avg).timeP = u.timeP := (congrArg State.timeP (coresStepped_outside u avg u u) :)

theorem coresStepped_rest : kilnRest (coresStepped u avg) = kilnRest u := by
  have hdown := foldl_keeps hcDown_rest (List.range 8) (metered u avg)
  have hup := foldl_keeps hcRaise_rest (List.range 8) (metered u avg)
  unfold coresStepped
  split
  · exact hdown
  · split
    · exact hup
    · rfl

theorem coresStepped_droopAt : (coresStepped u avg).kiln.droopAt = u.kiln.droopAt := (congrArg Kiln.droopAt (coresStepped_rest u avg) :)

end

theorem foldl_fixed {β α : Type} {f : β → α → β} {l : List α} {b : β} (h : ∀ y ∈ l, f b y = b) : l.foldl f b = b := by
  induction l with
  | nil => rfl
  | cons y l ih => rw [List.foldl_cons, h y (by simp), ih (fun z hz => h z (by simp [hz]))]

section
variable {u : State} {avg : Nat}

/-- A core after a window in which the cap was exceeded. -/
theorem coresStepped_down (h : exceeds u avg = true) {c : Nat} (hc : c < 8) : ∃ b, coreOf b c = coreOf u c ∧
    coreOf (coresStepped u avg) c = coreOf (hcDown b c) c := by
  obtain ⟨b, hb, hf⟩ := foldl_at (V := coreOf) (fun s k c => coreOf_hcDown_ne s k c) List.nodup_range (List.mem_range.mpr hc) (metered u avg)
  rw [coresStepped, if_pos h]
  exact ⟨b, hb.trans (coreOf_metered ..), hf⟩

theorem coresStepped_low (h : exceeds u avg = true) (hlow : ∀ c < 8, canDown u c = false) : coresStepped u avg = metered u avg := by
  rw [coresStepped, if_pos h]
  refine foldl_fixed (fun c hc => hcDown_stays ?_)
  rw [← hlow c (List.mem_range.mp hc)]
  exact canDown_eq (coreOf_metered ..)

variable (h : exceeds u avg = false)
include h

theorem coresStepped_points : (coresStepped u avg).kiln.hcPoint = u.kiln.hcPoint := by
  have hup := foldl_keeps (V := fun s : State => s.kiln.hcPoint) hcRaise_points (List.range 8) (metered u avg)
  rw [coresStepped, if_neg (ne_true_of_eq_false h)]
  split
  · exact hup
  · rfl

theorem coresStepped_calm (hcalm : calmOf u avg < 10) : coresStepped u avg = metered u avg := by
  rw [coresStepped, if_neg (ne_true_of_eq_false h), if_neg (by omega)]

/-- A core after the tenth calm window. -/
theorem coresStepped_up (hcalm : 10 ≤ calmOf u avg) {c : Nat} (hc : c < 8) (hlen : c < u.kiln.hcUp.length) :
    nth (coresStepped u avg).kiln.hcUp c false = (nth u.kiln.hcUp c false || wantsUp u c) := by
  obtain ⟨b, hb, hf⟩ := foldl_at (V := coreOf) (fun s k c => coreOf_hcRaise_ne s k c) List.nodup_range (List.mem_range.mpr hc) (metered u avg)
  have hb' := hb.trans (coreOf_metered ..)
  have hup : nth b.kiln.hcUp c false = nth u.kiln.hcUp c false := (core_eq hb').2.1
  have hlen' : b.kiln.hcUp.length = u.kiln.hcUp.length := (congrArg Core.ups hb' :)
  rw [coresStepped, if_neg (ne_true_of_eq_false h), if_pos hcalm]
  have hcore : nth ((List.range 8).foldl hcRaise (metered u avg)).kiln.hcUp c false = nth (hcRaise b c).kiln.hcUp c false := (core_eq hf).2.1
  rw [hcore, hcRaise_up (by omega), hup, wantsUp_eq hb']

theorem not_due : unheldDue u avg = false := by
  rw [unheldDue, h]
  rfl

end

theorem exceeds_true {u : State} {avg : Nat} (hmax : u.kiln.atMax = true) (h : 250 * capEff u < avg) : exceeds u avg = true := by
  rw [exceeds, hmax, decide_eq_true (by omega)]
  rfl

theorem exceeds_calm {u : State} {avg : Nat} (h : 100 * avg ≤ 95 * (250 * capEff u)) : exceeds u avg = false := by
  rw [exceeds, decide_eq_false (by omega), Bool.and_false]

theorem calmOf_calm {u : State} {avg : Nat} (hzero : u.kiln.hcZero = true) (h : 100 * avg ≤ 95 * (250 * capEff u)) :
    calmOf u avg = u.kiln.calm + 1 := if_pos ⟨hzero, by omega⟩

theorem allLow_iff (s : State) : allLow s = true ↔ ∀ c < 8, canDown s c = false := by
  simp [allLow]

theorem kilnRaise_queue {s : State} (code : Nat) (h : s.flt.port.queue.length < 32) :
    (kilnRaise s code).flt.port.queue = s.flt.port.queue ++ [mkRec s true code 0 none kilnBlock 0xFFFF []] :=
  RaiseLaws.raise_queue s true code 0 none kilnBlock 0xFFFF [] h

theorem kilnRaise_kiln (s : State) (code : Nat) : (kilnRaise s code).kiln = s.kiln := (congrArg State.kiln (raise_same s true code 0 none kilnBlock 0xFFFF []) :)

/-! ### Droop (R427) -/

theorem contains_filter_ne (l : List Nat) (d : Nat) : (l.filter (· != d)).contains d = false ∧
    ∀ x ≠ d, (l.filter (· != d)).contains x = l.contains x := by
  refine ⟨by simp, fun x hx => ?_⟩
  rw [Bool.eq_iff_iff]
  simp [hx]

/-! ### Voltage steps (R428) -/

theorem arrStep_steps {s : State} (hgap : ∀ x, s.kiln.stepAt = some x → x + 950000 ≤ s.timeP) (hgoal : arrGoal s ≠ s.kiln.point) :
    arrStep s = setKiln s { s.kiln with point := if s.kiln.point < arrGoal s then s.kiln.point + 1 else s.kiln.point - 1,
                                        top := max s.kiln.top (if s.kiln.point < arrGoal s then s.kiln.point + 1 else s.kiln.point - 1),
                                        stepAt := some s.timeP } := by
  refine if_neg ?_
  rintro (h | h)
  · exact hgoal h
  · cases hat : s.kiln.stepAt with
    | none => rw [hat] at h; cases h
    | some x =>
      rw [hat, Option.any_some] at h
      exact absurd (hgap x hat) (Nat.not_le_of_lt (of_decide_eq_true h))

theorem voltageStep_array {s u : State} {t : Nat} (hu : u = atPort t s) : voltageStep 0 t s = arrStep u := by
  unfold voltageStep
  rw [← hu]
  rfl

theorem voltageStep_core {s u : State} {t c : Nat} (hu : u = atPort t s) (hc : c < 8) (hup : nth u.kiln.hcUp c false = true) :
    voltageStep (c + 1) t s = hcApply (setCore u c (min 12 (nth u.kiln.hcPoint c 0 + 1)) false) c := by
  unfold voltageStep
  rw [← hu]
  exact (if_neg (Nat.succ_ne_zero c)).trans (if_pos ⟨by omega, hup⟩)

/-! ### ACLK (R429) -/

/-- The frequency that ACLK takes toward `f`. -/
def aclkToward (s : State) (f : Nat) : Nat :=
  if f ≤ getF s F.KILN_ACLK_CUR_MHZ then f else max (getF s F.KILN_ACLK_CUR_MHZ) (min f (nth s.fuse.arrCurve s.kiln.point 0))

theorem aclkChange_off {s u : State} {t : Nat} (hu : u = atPort t s) (hmoves : aclkMoves u = true) (hoff : isSet u F.TICK_CTL_ENABLE = false) :
    aclkChange t s = setF u F.KILN_ACLK_CUR_MHZ (aclkToward u (getF u F.KILN_ACLK_TARGET_MHZ)) := by
  unfold aclkChange
  rw [← hu]
  dsimp only
  rw [if_neg (by rw [hmoves]; decide), hoff]
  rfl

theorem aclkChange_on {s u : State} {t : Nat} (hu : u = atPort t s) (hmoves : aclkMoves u = true) (hon : isSet u F.TICK_CTL_ENABLE = true)
    (hnext : u.tick.nextCeil = none) : aclkChange t s = setF u F.KILN_ACLK_CUR_MHZ (aclkToward u (aclkClamp u u.tick.ceiling)) := by
  unfold aclkChange
  rw [← hu]
  dsimp only
  rw [if_neg (by rw [hmoves]; decide), hon, hnext]
  rfl

theorem aclkChange_waits {s u : State} {t : Nat} (hu : u = atPort t s) (hmoves : aclkMoves u = false) : aclkChange t s = u := by
  unfold aclkChange
  rw [← hu]
  exact if_pos hmoves

theorem getF_setF_aclk (s : State) {v : Nat} (h : v < 4096) : getF (setF s F.KILN_ACLK_CUR_MHZ v) F.KILN_ACLK_CUR_MHZ = v :=
  (getF_setF_same ..).trans (Nat.mod_eq_of_lt h)

/-! ### Availability (R431) -/

/-- The highest candidate that qualifies, or 500. -/
theorem availFrom_spec (s : State) (d f v : Nat) (n : Nat) :
    (availFrom s d f v n = 500 ∨ (500 < availFrom s d f v n ∧ availFrom s d f v n ≤ 500 + n ∧ availOk s d f v (availFrom s d f v n) = true)) ∧
    ∀ b, availFrom s d f v n < b → 500 < b → b ≤ 500 + n → availOk s d f v b = false := by
  induction n with
  | zero => exact ⟨.inl rfl, fun b _ h1 h2 => by omega⟩
  | succ n ih =>
    obtain ⟨hval, hall⟩ := ih
    cases hok : availOk s d f v (501 + n) with
    | true =>
      rw [availFrom, if_pos hok]
      exact ⟨.inr ⟨by omega, by omega, hok⟩, fun b h1 _ h2 => by omega⟩
    | false =>
      rw [availFrom, if_neg (ne_true_of_eq_false hok)]
      refine ⟨hval.imp id (fun ⟨h1, h2, h3⟩ => ⟨h1, by omega, h3⟩), fun b h1 h2 h3 => ?_⟩
      rcases Nat.lt_or_ge b (501 + n) with h | h
      · exact hall b h1 h2 (by omega)
      · rw [show b = 501 + n by omega]
        exact hok

/-- The state after a window of which the availability is known. -/
def availNoted (s : State) (d a : Nat) : State :=
  setF (setKiln s { s.kiln with avail := some (lower s.kiln.avail a),
                                pace := if marginNow s * 65536 < d * 100 then some (lower s.kiln.pace a) else s.kiln.pace,
                                top := s.kiln.point }) F.KILN_STAT_AVAIL_MHZ a

theorem availWindow_runs {s : State} (d : Nat) (hrun : s.tick.running = true) : availWindow d s = availNoted s d (availOf s d) :=
  if_neg (by rw [hrun]; decide)

/-- Settles O47, each clause by the step it speaks of. -/
theorem powerWindowsAndRailsStep : Obligations.PowerWindowsAndRailsStep := by
  unfold Obligations.PowerWindowsAndRailsStep
  refine ⟨?down, ?unheld, ?calm, ?sustained, ?droop, ?array, ?core, ?aclkOff, ?aclkOn, ?aclkWaits, ?avail⟩
  case down =>
    intro s u avg t hu hmax hcap hfloored
    have hex := exceeds_true hmax hcap
    have hdue : unheldDue u avg = false := by rw [unheldDue, hfloored, Bool.and_false]; rfl
    have hrun : powerWindow avg [] t s = windowClosed u avg := by
      rw [powerWindow_eq hu, hdue]
      rfl
    refine ⟨windowClosed u avg, congrArg Host.Outcome.next hrun, rfl, rfl, fun c hc _ hdown => ?_, fun c hc hstays => ?_, ?_,
      coresStepped_flt u avg, coresStepped_mem u avg⟩
    · obtain ⟨b, hb, hf⟩ := coresStepped_down hex hc
      obtain ⟨hpoint, hcur⟩ := hcDown_steps ((canDown_eq hb).trans hdown)
      have hbpoint : nth b.kiln.hcPoint c 0 = nth u.kiln.hcPoint c 0 := (core_eq hb).1
      have hbtarget : getF b (F.KILN_HC_TARGET c) = getF u (F.KILN_HC_TARGET c) := (congrArg Core.target hb :)
      have hbfuse : b.fuse = u.fuse := (congrArg Core.fuse hb :)
      have hfpoint : nth (windowClosed u avg).kiln.hcPoint c 0 = nth (hcDown b c).kiln.hcPoint c 0 := (core_eq hf).1
      have hfcur : getF (windowClosed u avg) (F.KILN_HC_CUR c) = getF (hcDown b c) (F.KILN_HC_CUR c) := (core_eq hf).2.2
      rw [hfpoint, hfcur, hcur, hpoint, hbpoint, hbtarget, hcMhz, hcMhz, hbfuse]
      exact ⟨rfl, rfl⟩
    · obtain ⟨b, hb, hf⟩ := coresStepped_down hex hc
      rw [hcDown_stays ((canDown_eq hb).trans hstays)] at hf
      exact ⟨(core_eq (hf.trans hb)).1, (core_eq (hf.trans hb)).2.2⟩
    · show (exceeds u avg && allLow (coresStepped u avg)) = true ↔ ∀ c < 8, canDown (coresStepped u avg) c = false
      rw [hex, Bool.true_and, allLow_iff]
  case unheld =>
    intro s u avg t hu hmax hcap hfloored hlow hpast hroom
    have hex := exceeds_true hmax hcap
    have hdue : unheldDue u avg = true := by rw [unheldDue, hex, hfloored, (allLow_iff u).mpr hlow, hpast]; rfl
    have hrun : powerWindow avg [] t s = kilnRaise (windowClosed u avg) 0x0230 := by
      rw [powerWindow_eq hu, hdue]
      rfl
    have hflt : (windowClosed u avg).flt = u.flt := coresStepped_flt u avg
    refine ⟨_, _, congrArg Host.Outcome.next hrun, (kilnRaise_queue 0x0230 (by rw [hflt]; exact hroom)).trans (by rw [hflt]), rfl, rfl, ?_, ?_⟩
    · rw [kilnRaise_kiln]
      show (coresStepped u avg).kiln.hcPoint = _
      rw [coresStepped_low hex hlow]
      rfl
    · rw [kilnRaise_kiln]
      show (if unheldDue u avg then some (coresStepped u avg).timeP else u.kiln.unheldAt) = _
      rw [hdue, if_pos rfl, coresStepped_timeP]
  case calm =>
    intro s u avg t hu hzero hcap
    have hex := exceeds_calm hcap
    have hcalm := calmOf_calm hzero hcap
    have hrun : powerWindow avg [] t s = windowClosed u avg := by
      rw [powerWindow_eq hu, not_due hex]
      rfl
    have hcount : (windowClosed u avg).kiln.calm = if 10 ≤ u.kiln.calm + 1 then 0 else u.kiln.calm + 1 := by
      rw [← hcalm]
      rfl
    have hup : (windowClosed u avg).kiln.hcUp = (coresStepped u avg).kiln.hcUp := rfl
    refine ⟨windowClosed u avg, congrArg Host.Outcome.next hrun, coresStepped_points hex, coresStepped_flt u avg, fun h => ⟨?_, ?_⟩, fun h => ⟨?_, ?_⟩⟩
    · rw [hcount, if_neg (by omega)]
    · rw [hup, coresStepped_calm hex (by omega)]
      rfl
    · rw [hcount, if_pos (by omega)]
    · intro c hc hlen
      rw [hup, coresStepped_up hex (by omega) hc hlen]
      rfl
  case sustained =>
    intro s u avg t d hu hmax hroom hpast
    have hex : exceeds u avg = false := by rw [exceeds, hmax]; rfl
    have hat : tabGet (windowClosed u avg).kiln.droopAt d none = tabGet u.kiln.droopAt d none :=
      congrArg (fun x => tabGet x d none) (coresStepped_droopAt u avg)
    have htime : (windowClosed u avg).timeP = u.timeP := coresStepped_timeP u avg
    have hflt : (windowClosed u avg).flt = u.flt := coresStepped_flt u avg
    have hpast' : secondPast (windowClosed u avg) (tabGet (windowClosed u avg).kiln.droopAt d none) = true := by
      rw [hat, secondPast, htime]
      exact hpast
    have hrun : powerWindow avg [d] t s = sustained (windowClosed u avg) d := by
      rw [powerWindow_eq hu, not_due hex]
      rfl
    rw [sustained, if_pos hpast'] at hrun
    have hqueue := kilnRaise_queue (s := stretchNoted (windowClosed u avg) d) 0x0231 (by rw [stretchNoted_flt, hflt]; exact hroom)
    rw [stretchNoted_flt, hflt] at hqueue
    refine ⟨_, _, congrArg Host.Outcome.next hrun, hqueue, rfl, rfl, ?_⟩
    · rw [kilnRaise_kiln, ← htime]
      exact tabGet_tabPut_same ..
  case droop =>
    intro s d
    obtain ⟨hgone, hother⟩ := contains_filter_ne s.kiln.droop d
    refine ⟨fun h => congrArg Host.Outcome.next (if_pos h), fun h => ⟨bump (setKiln s { s.kiln with droop := s.kiln.droop ++ [d] }) F.KILN_DROOP_COUNT 1, ?_, rfl, ?_, rfl⟩,
      droopRecover d s, rfl, hgone, hother, rfl⟩
    · exact congrArg Host.Outcome.next (if_neg (ne_true_of_eq_false h))
    · exact (getF_setF_same ..).trans (Nat.mod_eq_of_lt (by show min _ 65535 < 65536; omega))
  case array =>
    intro s u t hu hgap hgoal
    refine ⟨_, congrArg Host.Outcome.next ((voltageStep_array hu).trans (arrStep_steps hgap hgoal)), rfl, fun h => ?_, fun h => ?_, rfl⟩
    · exact if_pos h
    · show (if u.kiln.point < arrGoal u then u.kiln.point + 1 else u.kiln.point - 1) + 1 = _
      rw [if_neg (by omega)]
      omega
  case core =>
    intro s u t c hu hc hlen hups hup hlow
    have hstep := voltageStep_core hu hc hup
    rw [Nat.min_eq_right (by omega : nth u.kiln.hcPoint c 0 + 1 ≤ 12)] at hstep
    exact ⟨_, congrArg Host.Outcome.next hstep, (point_hcApply ..).trans (point_setCore _ _ hlen), WordLaws.nth_set_same _ _ hups, cur_hcApply_setCore _ _ hlen, rfl⟩
  case aclkOff =>
    intro s u t f hu hmoves hoff hf hlt
    have hrun := aclkChange_off hu hmoves hoff
    rw [← hf] at hrun
    refine ⟨_, congrArg Host.Outcome.next hrun, rfl, fun h => ?_, fun h hcurve => ?_, fun h hcurve => ?_⟩
    · rw [aclkToward, if_pos h, getF_setF_aclk _ hlt]
    · rw [aclkToward, if_neg (by omega), Nat.min_eq_left hcurve, Nat.max_eq_right (by omega), getF_setF_aclk _ hlt]
    · rw [aclkToward, if_neg (by omega), Nat.min_eq_right (by omega), Nat.max_eq_left hcurve, getF_setF_aclk _ (by omega)]
  case aclkOn =>
    intro s u t hu hmoves hon hnext h500 hmax hcur hlt
    have hrun := aclkChange_on hu hmoves hon hnext
    have hclamp : aclkClamp u u.tick.ceiling = u.tick.ceiling := by
      rw [aclkClamp, Nat.min_eq_left hmax, Nat.max_eq_right h500]
    rw [hclamp, aclkToward, if_pos hcur] at hrun
    exact ⟨_, congrArg Host.Outcome.next hrun, getF_setF_aclk _ hlt, rfl⟩
  case aclkWaits => exact fun s u t hu h => congrArg Host.Outcome.next (aclkChange_waits hu h)
  case avail =>
    rintro s d f v hrun hthr rfl rfl hmax
    have hof : availOf s d = availFrom s d (getF s F.KILN_ACLK_CUR_MHZ) (pointMv (max s.kiln.top s.kiln.point)) (s.fuse.aclkMax - 500) :=
      if_neg (ne_true_of_eq_false hthr)
    obtain ⟨hval, hall⟩ := availFrom_spec s d (getF s F.KILN_ACLK_CUR_MHZ) (pointMv (max s.kiln.top s.kiln.point)) (s.fuse.aclkMax - 500)
    rw [← hof] at hval hall
    refine ⟨availNoted s d (availOf s d), availOf s d, congrArg Host.Outcome.next (availWindow_runs d hrun), ?_, rfl, ?_, ?_, fun h => if_pos h,
      fun h => if_neg (by omega), rfl⟩
    · exact (getF_setF_same ..).trans (Nat.mod_eq_of_lt (by show _ < 4096; omega))
    · exact hval.imp id (fun ⟨h1, h2, h3⟩ => ⟨h1, by omega, h3⟩)
    · exact fun b h1 h2 h3 => hall b h1 h2 (by omega)

end Sys2Proof.PowerLaws
end

section
/-! What stopping engines and ending steps leaves as it was: the registers of the port die, and every unit but those that engines use. -/

namespace Sys2Proof.StopLaws

open Sys2Proof Sys2Proof.Machine

/-- Everything but what engines, their faults and their accesses use stays as it was. -/
def BeyondEngines (s t : State) : Prop :=
  { t with
    regs := s.regs, flt := s.flt, hif := s.hif, sch := s.sch, pwr := s.pwr, mem := s.mem, mapu := s.mapu, rlog := s.rlog
    rlogHead := s.rlogHead, free := s.free, hx := s.hx, qm := s.qm, crd := s.crd, arr := s.arr, drn := s.drn, dma := s.dma, fp := s.fp
    bootPort := s.bootPort, vis := s.vis, isp := s.isp, rd := s.rd, rdErr := s.rdErr, cam := s.cam, cdc := s.cdc } = s

theorem BeyondEngines.trans {s t u : State} (h : BeyondEngines s t) (g : BeyondEngines t u) : BeyondEngines s u := by
  unfold BeyondEngines at *
  rw [← g] at h
  exact h

section
variable {s t : State} (h : BeyondEngines s t)
include h

theorem BeyondEngines.kiln : t.kiln = s.kiln := (congrArg State.kiln h :)

theorem BeyondEngines.parts : t.parts = s.parts := (congrArg State.parts h :)

theorem BeyondEngines.sec : t.sec = s.sec := (congrArg State.sec h :)

theorem BeyondEngines.drc : t.drc = s.drc := (congrArg State.drc h :)

theorem BeyondEngines.bufs : t.bufs = s.bufs := (congrArg State.bufs h :)

end

/-- The registers from here on are the port die's. -/
def portKeys : Nat := 32 * blkBase true 0

/-- The relation that an engine's stop keeps. -/
structure Calm (s t : State) : Prop where
  same : BeyondEngines s t
  port : ∀ x : Fld, portKeys ≤ x.key → getF t x = getF s x
  keys : t.sch.keys = s.sch.keys
  boot : s.flt.restarting = false → t.flt.restarting = false ∧ getF t F.HIF_DEVSTAT_BOOT = getF s F.HIF_DEVSTAT_BOOT

theorem Calm.refl (s : State) : Calm s s := ⟨rfl, fun _ _ => rfl, rfl, fun h => ⟨h, rfl⟩⟩

theorem Calm.trans {s t u : State} (h : Calm s t) (g : Calm t u) : Calm s u where
  same := h.same.trans g.same
  port := fun x hx => (g.port x hx).trans (h.port x hx)
  keys := g.keys.trans h.keys
  boot := fun hr => ⟨(g.boot (h.boot hr).1).1, (g.boot (h.boot hr).1).2.trans (h.boot hr).2⟩

/-- A change of the engines' state alone. -/
theorem Calm.of {s t u : State} (h : Calm s t) (hsame : BeyondEngines t u) (hregs : u.regs = t.regs) (hkeys : u.sch.keys = t.sch.keys)
    (hflt : u.flt = t.flt) : Calm s u :=
  h.trans ⟨hsame, fun x _ => RaiseLaws.getF_of_regs hregs x, hkeys, fun hr => ⟨(congrArg Flt.restarting hflt).trans hr, RaiseLaws.getF_of_regs hregs _⟩⟩

/-- A field of the compute die that is not DEVSTAT.BOOT. -/
def Quiet (x : Fld) : Prop := x.key < portKeys ∧ F.HIF_DEVSTAT_BOOT.key ≠ x.key

theorem Calm.setF {s t : State} (h : Calm s t) {x : Fld} (v : Nat) (hx : Quiet x) : Calm s (setF t x v) :=
  h.trans ⟨rfl, fun y hy => getF_setF_ne _ _ _ _ (by have := hx.1; omega), rfl, fun hr => ⟨hr, getF_setF_ne _ _ _ _ hx.2⟩⟩

theorem Calm.setF_of {s t u : State} (h : Calm s t) {x : Fld} {v : Nat} (hx : Quiet x) (hsame : BeyondEngines t u) (hregs : u.regs = t.regs)
    (hkeys : u.sch.keys = t.sch.keys) (hflt : u.flt = t.flt) : Calm s (Machine.setF u x v) := (h.of hsame hregs hkeys hflt).setF v hx

theorem Calm.bump {s t : State} (h : Calm s t) {x : Fld} (n : Nat) (hx : Quiet x) : Calm s (bump t x n) := h.setF _ hx

/-! ### Raised faults -/

theorem postCqe_sch (s : State) (g n : Nat) (e : Bytes) (noirq : Bool) : (postCqe s g n e noirq).sch = s.sch := by
  unfold postCqe
  dsimp only
  split
  · rfl
  · split <;> rfl

theorem laybyRequest_keys (s : State) : (laybyRequest s).sch.keys = s.sch.keys := by
  unfold laybyRequest
  split
  · rfl
  · split
    · rfl
    · split <;> rfl

theorem triage_keys (s : State) (r : FaultRec) : (triage s r).sch.keys = s.sch.keys := by
  unfold triage
  split
  · rfl
  · split
    · have hpost : ∀ u d, (postEvent u 0 d false).sch = u.sch := by
        intro u d
        unfold postEvent
        split
        · exact postCqe_sch ..
        · rfl
      dsimp only
      rw [hpost]
      split
      · exact laybyRequest_keys _
      · rfl
    · rfl

theorem interrupt_calm (s : State) : (interrupt s).sch = s.sch ∧ (interrupt s).flt.restarting = s.flt.restarting := by
  unfold interrupt
  split <;> exact ⟨rfl, rfl⟩

theorem fltLost_sch (s : State) (p l : Bool) : (fltLost s p l).sch = s.sch := by
  unfold fltLost
  split <;> rfl

theorem fltEnqueue_calm (s : State) (r : FaultRec) : (fltEnqueue s false r).sch.keys = s.sch.keys ∧
    (fltEnqueue s false r).flt.restarting = s.flt.restarting := by
  simp only [fltEnqueue, Bool.false_eq_true, if_false]
  rw [(interrupt_calm _).1, (interrupt_calm _).2, triage_keys, (triage_same _ _).2.1, RaiseLaws.fltLost_flt, fltLost_sch]
  exact ⟨rfl, rfl⟩

theorem quiet_lost : Quiet (F.FLT_STAT_FAULT_LOST false) ∧ Quiet (F.FLT_STAT_LOST_COUNT false) := by
  unfold Quiet portKeys
  decide

theorem getF_boot_enqueue (s : State) (r : FaultRec) : getF (fltEnqueue s false r) F.HIF_DEVSTAT_BOOT = getF s F.HIF_DEVSTAT_BOOT := by
  simp only [fltEnqueue, Bool.false_eq_true, if_false]
  rw [RaiseLaws.getF_interrupt, RaiseLaws.getF_triage _ _ (by decide)]
  unfold fltLost
  split
  · exact (getF_setF_ne _ _ _ _ quiet_lost.2.2).trans (getF_setF_ne _ _ _ _ quiet_lost.1.2)
  · rfl

theorem holdCompute_sch (s : State) : (holdCompute s).sch = s.sch := rfl

theorem saveOne_sch (s : State) (r : FaultRec) : (saveOne s r).sch = s.sch := by
  unfold saveOne
  dsimp only
  split <;> rfl

theorem beyond_of_faults {s t : State} (h : sameButFaults s t) : BeyondEngines s t := by
  unfold sameButFaults at h
  unfold BeyondEngines
  rw [← h]

theorem faultFields_quiet : ∀ y ∈ RaiseLaws.faultFields false, y.key < portKeys := by
  unfold portKeys
  decide

/-- A fault of the compute die. -/
theorem Calm.raise {s t : State} (h : Calm s t) (code cls : Nat) (part : Option Nat) (block item : Nat) (detail : List Nat) :
    Calm s (raise t false code cls part block item detail) := by
  obtain ⟨hkeys, hrest⟩ := fltEnqueue_calm (fltCount t false) (mkRec t false code cls part block item detail)
  refine h.trans ⟨beyond_of_faults (raise_same ..), fun x hx => ?_, ?_, fun hr => ?_⟩
  · exact RaiseLaws.getF_raise_ne _ _ _ _ _ _ _ _ (fun y hy => by have := faultFields_quiet y hy; omega)
  · unfold Machine.raise
    dsimp only
    split
    · rw [holdCompute_sch, saveOne_sch, hkeys]
      rfl
    · rw [hkeys]
      rfl
  · have hraise : Machine.raise t false code cls part block item detail = fltEnqueue (fltCount t false) false (mkRec t false code cls part block item detail) :=
      if_neg (by rw [hr]; exact fun x => Bool.false_ne_true x.1)
    rw [hraise, hrest, getF_boot_enqueue]
    exact ⟨hr, rfl⟩

/-! ### Accesses -/

/-- What the checks of an access answer, and what a read does. -/
def CalmBus (s : State) : Bus → Prop
  | .refused t _ => Calm s t
  | _ => True

theorem calm_ite {α : Type} (p : α → Prop) {c : Prop} [Decidable c] {a b : α} (ha : p a) (hb : p b) : p (if c then a else b) := by
  split
  · exact ha
  · exact hb

theorem calm_foldl {α : Type} {s t : State} {f : State → α → State} {l : List α} (hf : ∀ u a, Calm s u → Calm s (f u a)) (h : Calm s t) :
    Calm s (l.foldl f t) := by
  induction l generalizing t with
  | nil => exact h
  | cons a l ih => exact ih (hf t a h)

theorem quiet_rlog : Quiet F.RLOG_STAT_WRAPPED ∧ Quiet F.RLOG_STAT_COUNT := by
  unfold Quiet portKeys
  decide

theorem quiet_corrected : Quiet F.MAP_STAT_CORRECTED := by
  unfold Quiet portKeys
  decide

theorem quiet_levelBad (j : Nat) : Quiet (F.HXR_STAT_LEVEL_BAD j) := by
  have hbank : 0x2000 * 0x1000000 ≤ hxrBank j ∧ hxrBank j < 0x2000 * 0x1000000 + 0x0F0000 := by
    unfold hxrBank blkBase
    simp only [Bool.false_eq_true, if_false]
    split_ifs <;> omega
  simp only [Quiet, portKeys, Fld.key, F.HXR_STAT_LEVEL_BAD, Reg.HXR_STAT, F.HIF_DEVSTAT_BOOT, Reg.HIF_DEVSTAT, blkBase, if_true]
  omega

theorem quiet_authFail : Quiet (F.DMA_STAT_AUTH_FAIL 0) := by
  unfold Quiet portKeys
  decide

theorem quiet_enables : Quiet F.ARR_CTL_ENABLE ∧ Quiet F.DRN_CTL_ENABLE ∧ Quiet F.CRS_CTL_ENABLE ∧ Quiet F.ISP_CTL_PIPE_EN ∧ Quiet F.ISP_CTXEN_EN := by
  unfold Quiet portKeys
  decide

theorem quiet_dmaEnable {e : Nat} (he : e < 4) : Quiet (F.DMA_CTL_ENABLE e) := by
  simp only [Quiet, portKeys, Fld.key, F.DMA_CTL_ENABLE, Reg.DMA_CTL, F.HIF_DEVSTAT_BOOT, Reg.HIF_DEVSTAT, blkBase, if_true]
  omega

section
variable {s t : State} (h : Calm s t)
include h

theorem Calm.rlogAdd (addr : Nat) (m : Master) (reason data : Nat) : Calm s (rlogAdd t addr m reason data) := by
  have hwrap : Calm s (if (tabGet t.rlog t.rlogHead none).isSome then Machine.setF t F.RLOG_STAT_WRAPPED 1 else t) :=
    calm_ite (Calm s) (h.setF 1 quiet_rlog.1) h
  exact hwrap.setF_of quiet_rlog.2 rfl rfl rfl rfl

theorem Calm.unreachable (m : Master) (reason addr : Nat) : Calm s (unreachable t m reason addr) := h.raise ..

theorem Calm.partFilter (m : Master) (kind a data : Nat) : Calm s (partFilter t m kind a data) := (h.raise ..).rlogAdd ..

theorem Calm.mapGate (m : Master) (port : Port) (a len : Nat) (write : Bool) (data : Nat) : CalmBus s (mapGate t m port a len write data) :=
  calm_ite (CalmBus s) (h.unreachable ..) <| calm_ite (CalmBus s) trivial <| calm_ite (CalmBus s) (h.raise ..) <|
    calm_ite (CalmBus s) ((h.raise ..).rlogAdd ..) trivial

theorem Calm.tileGate (m : Master) (a i : Nat) : CalmBus s (tileGate t m a i) :=
  have hoff := h.unreachable m 1 a
  calm_ite (CalmBus s) hoff <| calm_ite (CalmBus s) hoff <| calm_ite (CalmBus s) hoff <| calm_ite (CalmBus s) hoff trivial

theorem Calm.busGate (m : Master) (port : Port) (a len : Nat) (write : Bool) (data : Nat) : CalmBus s (busGate t m port a len write data) := by
  refine calm_ite (CalmBus s) (h.unreachable ..) <| calm_ite (CalmBus s) (h.rlogAdd ..) <| calm_ite (CalmBus s) (h.unreachable ..) <|
    calm_ite (CalmBus s) trivial <| calm_ite (CalmBus s) (h.partFilter ..) ?_
  split
  · split
    · exact h.unreachable ..
    · trivial
  · exact h.mapGate ..
  · exact h.tileGate ..
  · trivial

theorem Calm.eccRead (m : Master) (a : Nat) : Calm s (eccRead t m a).1 := by
  unfold Machine.eccRead
  refine calm_ite (fun x : State × Bool => Calm s x.1) h ?_
  extract_lets _ s1 s2 _ s3
  have hs1 : Calm s s1 := h.raise ..
  have hs2 : Calm s s2 := by
    unfold s2
    split
    · exact hs1.bump 1 quiet_corrected
    · exact hs1
  have hs3 : Calm s s3 := calm_ite (Calm s) (hs2.of rfl rfl rfl rfl) h
  split
  · exact hs3.raise ..
  · exact hs3

theorem Calm.dramEcc (m : Master) (a n : Nat) : Calm s (dramEcc t m a n).1 := by
  have hfix := calm_ite (Calm s) (c := (blockWords a n).any (fun w => tabGet t.mapu.bad w 0 == 1) = true)
    ((h.of (u := { t with mapu := { t.mapu with bad := t.mapu.bad.filter (fun x => !(x.2 == 1 && (blockWords a n).contains x.1)) } }) rfl rfl rfl rfl).raise
      0x0164 1 none drcBlock 0xFFFF []) h
  exact calm_ite (fun x : State × Bool => Calm s x.1) h (calm_ite (fun x : State × Bool => Calm s x.1) (hfix.raise ..) hfix)

theorem Calm.busRead (m : Master) (port : Port) (a len : Nat) : Calm s (busRead t m port a len).s := by
  have hgate := h.busGate m port a len false 0
  unfold Machine.busRead
  split
  case h_1 u y hrefused => rwa [hrefused] at hgate
  case h_2 => exact h
  case h_3 =>
    dsimp only
    split
    · exact h.eccRead ..
    · exact h.eccRead ..
    · exact h.eccRead ..
    · exact h.dramEcc ..
    · exact h

theorem Calm.memPut (a : Nat) (bs : Bytes) : Calm s (memPut t a bs) := h.of rfl rfl rfl rfl

/-! ### Loads of a control store (R245, R254) -/

theorem Calm.dmaRead (m : Master) (crypt : Bool) (a n : Nat) : Calm s (dmaRead t m crypt a n).s := by
  unfold Machine.dmaRead
  split
  · exact h.partFilter ..
  · exact h.busRead ..

theorem Calm.tagHeader (m : Master) (r : Bytes) : Calm s (tagHeader t m r).1.s := by
  unfold Machine.tagHeader
  split
  · exact h
  · exact h.dmaRead ..

theorem Calm.clearLevelBad (a : Nat) : Calm s (clearLevelBad t a) := by
  unfold Machine.clearLevelBad
  split
  · exact h.setF 0 (quiet_levelBad _)
  · exact h

theorem Calm.csLocked (m : Master) (blk item a : Nat) : Calm s (csLocked t m blk item a) := (h.raise ..).rlogAdd ..

theorem Calm.noteLevels (a : Nat) (bs : Bytes) : Calm s (noteLevels t a bs) := by
  unfold Machine.noteLevels
  split
  · exact calm_ite (Calm s) (h.setF 1 (quiet_levelBad _)) h
  · exact h

theorem Calm.csloadRun (part : Nat) (raw : Bytes) : Calm s (csloadRun part t raw) := by
  unfold Machine.csloadRun
  extract_lets m s1 n key nonce at_ step bad
  have hstep : ∀ u p, Calm s u → Calm s (step u p) := fun u p hu =>
    calm_ite (Calm s) (((hu.dmaRead m (xCrypt raw != 0) (at_ p) 32).memPut ..).noteLevels ..) (hu.dmaRead m (xCrypt raw != 0) (at_ p) 32)
  have hs1 : Calm s s1 := h.clearLevelBad _
  refine calm_ite (Calm s) (h.csLocked ..) ?_
  clear_value bad step
  split
  · exact ((((calm_foldl hstep hs1).memPut ..).noteLevels ..).setF 1 quiet_authFail).raise ..
  · exact calm_foldl hstep hs1

theorem Calm.bootCsload (raw : Bytes) : Calm s (bootCsload t raw) := by
  unfold Machine.bootCsload
  split
  · exact h.raise ..
  · have hhead := h.tagHeader { code := 23, part := 0 } raw
    exact calm_ite (Calm s) (hhead.raise ..) ((hhead.csloadRun 0 raw).of rfl rfl rfl rfl)

theorem Calm.runBootPort : Calm s (runBootPort t) := by
  unfold Machine.runBootPort
  split
  · exact calm_ite (Calm s) ((h.of (u := { t with bootPort := none }) rfl rfl rfl rfl).bootCsload _) h
  · exact h

/-! ### Rows of a tensor -/

theorem Calm.gateLines (m : Master) (port : Port) (write : Bool) (data : Nat → Nat) (ls : List Nat) : Calm s (gateLines t m port write data ls).1 := by
  induction ls generalizing t with
  | nil => exact h
  | cons l ls ih =>
    have hgate := h.busGate m port (512 * l) 512 write (data l)
    refine ih (t := Prod.fst _) ?_
    split
    case h_1 u y hrefused => rwa [hrefused] at hgate
    case h_2 => exact h
    case h_3 =>
      refine calm_ite (fun x : State × Bool × Bool => Calm s x.1) h ?_
      dsimp only
      split
      · exact h.eccRead ..
      · exact h.eccRead ..
      · exact h.eccRead ..
      · exact h

theorem Calm.tensWrite (m : Master) (port : Port) (d : TDesc) (els : Tab Nat) : Calm s (tensWrite t m port d els) :=
  (h.gateLines ..).of rfl rfl rfl rfl

theorem Calm.wholeRows : Calm s (wholeRows t) := by
  unfold Machine.wholeRows
  dsimp only
  split
  · exact h.tensWrite ..
  · exact h.tensWrite ..

/-! ### A stopped engine -/

theorem Calm.dropDrain : Calm s (dropDrain t) := (calm_ite (Calm s) h h.wholeRows).of rfl rfl rfl rfl

theorem Calm.returnCredits (code w v k : Nat) : Calm s (returnCredits t code w v k) :=
  calm_ite (Calm s) (calm_ite (Calm s) (h.of rfl rfl rfl rfl) (h.of rfl rfl rfl rfl)) h

theorem Calm.dropDma (e : Nat) : Calm s (dropDma t e) := calm_foldl (fun _ _ hu => hu.returnCredits ..) (h.of rfl rfl rfl rfl)

theorem Calm.applyDisable (e : Nat) : Calm s (applyDisable t e) := by
  obtain ⟨harr, hdrn, hcrs, hpipe, -⟩ := quiet_enables
  unfold Machine.applyDisable
  split
  · exact calm_ite (Calm s) (h.setF_of harr rfl rfl rfl rfl) h
  split
  · exact calm_ite (Calm s) (h.setF_of hdrn rfl rfl rfl rfl) h
  split
  next he => exact calm_ite (Calm s) (h.setF_of (quiet_dmaEnable (by omega)) rfl rfl rfl rfl) h
  split
  · exact calm_ite (Calm s) (h.setF_of hcrs rfl rfl rfl rfl) h
  split
  · exact calm_ite (Calm s) (h.setF_of hpipe rfl rfl rfl rfl) h
  · exact h

theorem Calm.stopUnit (e : Nat) : Calm s (stopUnit t e) := by
  unfold Machine.stopUnit
  extract_lets s1 _ s2
  have hs1 : Calm s s1 := h.of rfl rfl rfl rfl
  have hs2 : Calm s s2 := calm_ite (Calm s) (hs1.of rfl rfl rfl rfl) <| calm_ite (Calm s) hs1.dropDrain <| calm_ite (Calm s) (hs1.dropDma e) <|
    calm_ite (Calm s) (hs1.of rfl rfl rfl rfl) <| calm_ite (Calm s) (hs1.of rfl rfl rfl rfl) (hs1.of rfl rfl rfl rfl)
  exact hs2.applyDisable e

theorem Calm.stopEngine (e : Nat) : Calm s (stopEngine t e) := by
  have hidle : Calm s (setE (rollback (Machine.stopUnit t e) e (engCode e)) e (idleEngine (getE (rollback (Machine.stopUnit t e) e (engCode e)) e))) :=
    (h.stopUnit e).of rfl rfl rfl rfl
  exact calm_ite (Calm s) hidle.runBootPort hidle

/-! ### The end of steps (R267, R284) -/

theorem Calm.chargeStep : Calm s (chargeStep t) := by
  unfold Machine.chargeStep
  split
  · exact h
  · exact h.of rfl rfl rfl rfl

theorem Calm.postStep (x : Step) (status : Nat) : Calm s (postStep t x status) := h.of rfl rfl rfl rfl

theorem Calm.leaveArray : Calm s (leaveArray t) := h.of rfl rfl rfl rfl

theorem Calm.settleParked : Calm s (settleParked t) := h.of rfl rfl rfl rfl

theorem Calm.endStep (status : Nat) : Calm s (endStep t status) := by
  unfold Machine.endStep
  dsimp only
  split
  · exact h.chargeStep
  · refine Calm.postStep (Calm.leaveArray (Calm.applyDisable (calm_foldl (fun u x hu => ?_) h.chargeStep) 0)) _ _
    exact calm_ite (Calm s) hu (hu.stopEngine x.1)

theorem Calm.discardSteps (p status : Nat) : Calm s (discardSteps t p status) := by
  have hrun : Calm s (if t.sch.run.any (fun x => x.part == p) then Machine.endStep t status else t) := calm_ite (Calm s) (h.endStep status) h
  exact Calm.settleParked (calm_foldl (fun _ x hu => hu.postStep x status) (hrun.of rfl rfl rfl rfl))

end

end Sys2Proof.StopLaws
end

section
/-! What powering off, selecting an image and a port-die fault leave (R28, R448 to R456). -/

namespace Sys2Proof.BootLaws

open Sys2Proof Sys2Proof.Machine

/-! ### Powered off (R28, R435, R436) -/

section
variable (s : State)

theorem resetComp_units : (resetComp s).qm = [] ∧ (resetComp s).kiln = s.kiln ∧ (resetComp s).timeP = s.timeP ∧ (resetComp s).fuse = s.fuse := by
  simp only [resetComp, setF, freshParts, and_self]

theorem resetComp_emn : (resetComp s).emn = { s.emn with locks := false } := by
  simp only [resetComp, setF, freshParts]

theorem resetComp_mem : (resetComp s).mem = tabDrop s.mem 0x800000000 (emberBase - 0x800000000) := by
  simp only [resetComp, setF, freshParts]

theorem compOff_units : (compOff s).qm = [] ∧ (compOff s).kiln = s.kiln ∧ (compOff s).timeP = s.timeP ∧ (compOff s).fuse = s.fuse := resetComp_units s

theorem compOff_pwr : (compOff s).pwr.compOn = false := rfl

theorem resetPort_units : (resetPort s).qm = s.qm ∧ (resetPort s).sec = {} ∧ (resetPort s).timeP = s.timeP ∧ (resetPort s).fuse = s.fuse ∧
    (resetPort s).mem = s.mem ∧ (resetPort s).flt.port = {} := ⟨rfl, rfl, rfl, rfl, rfl, rfl⟩

theorem resetPort_emn : (resetPort s).emn.journal = s.emn.journal ∧ (resetPort s).emn.slots = s.emn.slots ∧
    (resetPort s).emn.sealed_ = s.emn.sealed_ ∧ (resetPort s).emn.drcKept = s.emn.drcKept ∧ (resetPort s).emn.resetLow = s.emn.resetLow :=
  ⟨rfl, rfl, rfl, rfl, rfl⟩

theorem allOff_pwr : (allOff s).pwr.compOn = false ∧ (allOff s).pwr.portOn = false := ⟨rfl, rfl⟩

theorem allOff_units : (allOff s).qm = [] ∧ (allOff s).sec = {} ∧ (allOff s).timeP = s.timeP ∧ (allOff s).fuse = s.fuse := by
  obtain ⟨hqm, -, htime, hfuse⟩ := compOff_units s
  obtain ⟨hqm', hsec, htime', hfuse', -, -⟩ := resetPort_units (compOff s)
  exact ⟨hqm'.trans hqm, hsec, htime'.trans htime, hfuse'.trans hfuse⟩

theorem allOff_emn : (allOff s).emn.journal = s.emn.journal ∧ (allOff s).emn.slots = s.emn.slots ∧
    (allOff s).emn.sealed_ = s.emn.sealed_ ∧ (allOff s).emn.drcKept = s.emn.drcKept ∧ (allOff s).emn.resetLow = s.emn.resetLow := by
  have hemn : (compOff s).emn = { s.emn with locks := false } := resetComp_emn s
  obtain ⟨h1, h2, h3, h4, h5⟩ := resetPort_emn (compOff s)
  rw [hemn] at h1 h2 h3 h4 h5
  exact ⟨h1, h2, h3, h4, h5⟩

theorem allOff_mem : (allOff s).mem = tabDrop s.mem 0x800000000 (emberBase - 0x800000000) :=
  (resetPort_units (compOff s)).2.2.2.2.1.trans (resetComp_mem s)

end

theorem rdByte_allOff_dram (s : State) {a : Nat} (h : a < 0x800000000) : rdByte (allOff s).mem a = rdByte s.mem a := by
  rw [allOff_mem]
  exact tabGet_tabDrop_out _ _ _ _ _ (.inl h)

theorem rdByte_loseDram (s : State) {a : Nat} (h : a < 0x800000000) : rdByte (loseDram s).mem a = 0 :=
  tabGet_tabDrop_in _ _ _ _ _ ⟨Nat.zero_le _, by omega⟩

theorem loseDram_same (s : State) : (loseDram s).pwr = s.pwr ∧ (loseDram s).emn = s.emn ∧ (loseDram s).fuse = s.fuse := ⟨rfl, rfl, rfl⟩

/-! ### A fault of the port die -/

section
variable (s : State) (code cls : Nat) (part : Option Nat) (block item : Nat) (detail : List Nat)

theorem raise_kiln : (raise s true code cls part block item detail).kiln = s.kiln := (congrArg State.kiln (raise_same ..) :)

theorem raise_emn : (raise s true code cls part block item detail).emn = s.emn := (congrArg State.emn (raise_same ..) :)

/-- With room in the queue a port-die fault that Emino does not hold the die for writes no register. -/
theorem raise_regs {s : State} (h : s.flt.port.queue.length < 32) (hrest : s.flt.restarting = false ∨ cls < 2) :
    (raise s true code cls part block item detail).regs = s.regs := by
  have hpush := RaiseLaws.fltPush_room (mkRec s true code cls part block item detail) h
  have hhold : ¬ (s.flt.restarting = true ∧ 2 ≤ cls) := by
    rintro ⟨hr, hc⟩
    rcases hrest with h | h
    · exact Bool.false_ne_true (h.symm.trans hr)
    · omega
  refine (congrArg State.regs (if_neg hhold)).trans ?_
  have hcount : (fltCount s true).flt.port.queue = s.flt.port.queue := rfl
  simp only [fltEnqueue, if_true, hcount, hpush, fltLost, Bool.false_eq_true, if_false]
  rfl

end

/-! ### The selection of an image (R449, R455) -/

/-- The boot status shows the record that boots. -/
def bootShown (s : State) (r : JRec) (conf : Bool) : State :=
  setF (setF (setF (setF s F.EMN_BOOT_STAT_STAGE 2) F.EMN_BOOT_STAT_SLOT r.slot) F.EMN_BOOT_STAT_TRIAL (if conf then 0 else 1)) F.EMN_BOOT_STAT_SEQ r.seq

/-- A record's image is in, and both dies are on. -/
def imageIn (s : State) (r : JRec) : State :=
  { s with emn := { s.emn with booted := some r }, pwr := { s.pwr with compOn := true, portOn := true } }

/-- The image of a record boots. -/
def bootInto (s : State) (r : JRec) (conf : Bool) : State := followConfirmed (loadImages (imageIn (bootShown s r conf) r))

/-- A record is tried: an unconfirmed one leaves a TRY record. -/
def tried (s : State) (r : JRec) : State :=
  if jConfirmed s.emn.journal r then s else jAppend s { kind := 2, slot := r.slot, seq := r.seq }

theorem pickRec_cons (s : State) (r : JRec) (rs : List JRec) : pickRec (r :: rs) s =
    if recQualifies s r = false then pickRec rs (emnRaise s 0x0240)
    else if (slotImg (tried s r) r.slot).any (·.good) then bootInto (tried s r) r (jConfirmed s.emn.journal r)
    else pickRec rs (emnRaise (tried s r) 0x0240) := by
  rw [pickRec]
  rfl

/-- What every step of the selection keeps, the selection keeps. -/
theorem pickRec_keeps {P : State → Prop} (hraise : ∀ s code cls, P s → P (raise s true code cls none 4 0xFFFF []))
    (happend : ∀ s r, P s → P (jAppend s r)) {Q : State → Prop} (hrec : ∀ s, P s → Q (recovery s)) (hboot : ∀ s r conf, P s → Q (bootInto s r conf))
    (l : List JRec) {s : State} (h : P s) : Q (pickRec l s) := by
  induction l generalizing s with
  | nil => exact hrec _ (hraise _ _ _ h)
  | cons r rs ih =>
    have htried : P (tried s r) := by
      unfold tried
      split
      · exact h
      · exact happend _ _ h
    rw [pickRec_cons]
    split
    · exact ih (hraise _ _ _ h)
    · split
      · exact hboot _ _ _ htried
      · exact ih (hraise _ _ _ htried)

/-- The counter's rise is all that following the confirmed record changes. -/
theorem followConfirmed_keeps {α : Type} {π : State → α} (hπ : ∀ s v, π (raiseSvn s v) = π s) (s : State) : π (followConfirmed s) = π s := by
  unfold followConfirmed
  split
  · split
    · split
      · exact hπ _ _
      · rfl
    · rfl
  · rfl

theorem followConfirmed_svn (s : State) : s.fuse.svn ≤ (followConfirmed s).fuse.svn := by
  unfold followConfirmed
  split
  · split
    · split
      · exact Nat.le_max_left _ _
      · exact Nat.le_refl _
    · exact Nat.le_refl _
  · exact Nat.le_refl _

section
variable (s : State) (r : JRec) (conf : Bool)

theorem bootShown_units : (bootShown s r conf).emn = s.emn ∧ (bootShown s r conf).pwr = s.pwr ∧ (bootShown s r conf).kiln = s.kiln ∧
    (bootShown s r conf).mem = s.mem ∧ (bootShown s r conf).flt = s.flt ∧ (bootShown s r conf).fuse = s.fuse := by
  simp only [bootShown, setF_emn, setF_pwr, setF_kiln, setF_mem, setF_flt, setF_fuse, and_self]

theorem imageIn_units : (imageIn s r).emn = { s.emn with booted := some r } ∧ (imageIn s r).pwr = { s.pwr with compOn := true, portOn := true } ∧
    (imageIn s r).kiln = s.kiln ∧ (imageIn s r).mem = s.mem ∧ (imageIn s r).flt = s.flt ∧ (imageIn s r).fuse = s.fuse ∧
    (imageIn s r).regs = s.regs := ⟨rfl, rfl, rfl, rfl, rfl, rfl, rfl⟩

theorem loadImages_units : (loadImages s).emn = { s.emn with locks := true } ∧ (loadImages s).pwr = s.pwr ∧ (loadImages s).kiln = s.kiln ∧
    (loadImages s).mem = s.mem ∧ (loadImages s).flt = s.flt ∧ (loadImages s).fuse = s.fuse ∧ (loadImages s).regs = s.regs :=
  ⟨rfl, rfl, rfl, rfl, rfl, rfl, rfl⟩

/-- What the boot of an image leaves. -/
theorem bootInto_units : (bootInto s r conf).emn = { s.emn with booted := some r, locks := true } ∧
    (bootInto s r conf).pwr = { s.pwr with compOn := true, portOn := true } ∧ (bootInto s r conf).kiln = s.kiln ∧ (bootInto s r conf).mem = s.mem ∧
    (bootInto s r conf).flt = s.flt := by
  obtain ⟨hemn, hpwr, hkiln, hmem, hflt, -, -⟩ := loadImages_units (imageIn (bootShown s r conf) r)
  obtain ⟨hemn1, hpwr1, hkiln1, hmem1, hflt1, -, -⟩ := imageIn_units (bootShown s r conf) r
  obtain ⟨hemn0, hpwr0, hkiln0, hmem0, hflt0, -⟩ := bootShown_units s r conf
  unfold bootInto
  rw [followConfirmed_keeps (π := State.emn) (fun _ _ => rfl), followConfirmed_keeps (π := State.pwr) (fun _ _ => rfl),
    followConfirmed_keeps (π := State.kiln) (fun _ _ => rfl), followConfirmed_keeps (π := State.mem) (fun _ _ => rfl),
    followConfirmed_keeps (π := State.flt) (fun _ _ => rfl), hemn, hpwr, hkiln, hmem, hflt, hemn1, hpwr1, hkiln1, hmem1, hflt1,
    hemn0, hpwr0, hkiln0, hmem0, hflt0]
  exact ⟨rfl, rfl, rfl, rfl, rfl⟩

theorem getF_bootInto (x : Fld) : getF (bootInto s r conf) x = getF (bootShown s r conf) x := by
  unfold bootInto
  rw [followConfirmed_keeps (π := fun t => getF t x) (fun _ _ => rfl)]
  exact RaiseLaws.getF_of_regs (loadImages_units _).2.2.2.2.2.2 x

theorem bootInto_svn : s.fuse.svn ≤ (bootInto s r conf).fuse.svn := by
  have hfuse : (loadImages (imageIn (bootShown s r conf) r)).fuse = s.fuse :=
    (loadImages_units _).2.2.2.2.2.1.trans ((imageIn_units _ r).2.2.2.2.2.1.trans (bootShown_units s r conf).2.2.2.2.2)
  have hle := followConfirmed_svn (loadImages (imageIn (bootShown s r conf) r))
  rw [hfuse] at hle
  exact hle

end

theorem getF_bootInto_ne (s : State) (r : JRec) (conf : Bool) {x : Fld}
    (hx : ∀ y ∈ [F.EMN_BOOT_STAT_STAGE, F.EMN_BOOT_STAT_SLOT, F.EMN_BOOT_STAT_TRIAL, F.EMN_BOOT_STAT_SEQ], x.key ≠ y.key) :
    getF (bootInto s r conf) x = getF s x := by
  simp only [List.mem_cons, List.not_mem_nil, or_false, forall_eq_or_imp, forall_eq] at hx
  obtain ⟨hstage, hslot, htrial, hseq⟩ := hx
  rw [getF_bootInto, bootShown, getF_setF_ne _ _ _ _ hseq, getF_setF_ne _ _ _ _ htrial, getF_setF_ne _ _ _ _ hslot, getF_setF_ne _ _ _ _ hstage]

theorem getF_bootInto_stage (s : State) (r : JRec) (conf : Bool) : getF (bootInto s r conf) F.EMN_BOOT_STAT_STAGE = 2 := by
  rw [getF_bootInto, bootShown, getF_setF_ne _ _ _ _ (by decide), getF_setF_ne _ _ _ _ (by decide), getF_setF_ne _ _ _ _ (by decide), getF_setF_same]
  rfl

theorem recovery_facts (s : State) : (recovery s).pwr = { s.pwr with compOn := true, portOn := true } ∧ (recovery s).kiln = s.kiln ∧
    (recovery s).emn = { s.emn with booted := none } ∧ (recovery s).parts = List.replicate 8 {} ∧ (recovery s).flt = { s.flt with faultN := true } ∧
    (recovery s).mem = s.mem := ⟨rfl, rfl, rfl, rfl, rfl, rfl⟩

theorem getF_recovery (s : State) (x : Fld) : getF (recovery s) x = getF (setF s F.EMN_BOOT_STAT_STAGE 7) x := rfl

end Sys2Proof.BootLaws
end

section
/-! Heat, the input supply, Ember and the cages (R433 to R442, R451 to R453, R522). -/

namespace Sys2Proof.HeatLaws

open Sys2Proof Sys2Proof.Machine Sys2Proof.BootLaws

/-! ### Temperatures (R433 to R435) -/

theorem warn_le_throttle (s : State) : warnQ s ≤ throttleQ s := by
  unfold warnQ throttleQ
  omega

theorem throttle_le_trip (s : State) : throttleQ s ≤ tripQ s := by
  unfold throttleQ tripQ
  omega

/-- The three levels go by their fields alone. -/
theorem levels_eq {s t : State} (h : ∀ x ∈ [F.KILN_TH_WARN_C, F.KILN_TH_THROTTLE_C, F.KILN_TH_TRIP_C], getF t x = getF s x) :
    warnQ t = warnQ s ∧ throttleQ t = throttleQ s ∧ tripQ t = tripQ s := by
  simp only [List.mem_cons, List.not_mem_nil, or_false, forall_eq_or_imp, forall_eq] at h
  obtain ⟨hwarn, hthrottle, htrip⟩ := h
  unfold warnQ throttleQ tripQ
  rw [hwarn, hthrottle, htrip]
  exact ⟨rfl, rfl, rfl⟩

theorem th_keys : ∀ x ∈ [F.KILN_TH_WARN_C, F.KILN_TH_THROTTLE_C, F.KILN_TH_TRIP_C], x.key ≠ F.KILN_STAT_THROTTLING.key ∧
    ∀ y ∈ RaiseLaws.faultFields true, x.key ≠ y.key := by decide

theorem levels_kilnRaise (s : State) (code : Nat) : warnQ (kilnRaise s code) = warnQ s ∧ throttleQ (kilnRaise s code) = throttleQ s ∧
    tripQ (kilnRaise s code) = tripQ s :=
  levels_eq (fun x hx => RaiseLaws.getF_raise_ne _ _ _ _ _ _ _ _ (th_keys x hx).2)

theorem levels_throttling (s : State) (v : Nat) : warnQ (setF s F.KILN_STAT_THROTTLING v) = warnQ s ∧
    throttleQ (setF s F.KILN_STAT_THROTTLING v) = throttleQ s ∧ tripQ (setF s F.KILN_STAT_THROTTLING v) = tripQ s :=
  levels_eq (fun x hx => getF_setF_ne _ _ _ _ (th_keys x hx).1)

/-- A reading at or above a level. -/
def reaches (temps : List Int) (q : Int) : Bool := temps.any (fun x => decide (q ≤ x))

theorem reaches_true {temps : List Int} {q x : Int} (hx : x ∈ temps) (h : q ≤ x) : reaches temps q = true :=
  List.any_eq_true.mpr ⟨x, hx, decide_eq_true h⟩

theorem reaches_false {temps : List Int} {q : Int} (h : ∀ x ∈ temps, x < q) : reaches temps q = false :=
  List.any_eq_false.mpr (fun x hx => by have := h x hx; simpa using this)

/-- The kiln after a sample is noted. -/
def noted (u : State) (temps : List Int) : Kiln :=
  { u.kiln with temps := temps
                warned := (u.kiln.warned || reaches temps (warnQ u)) && !temps.all (fun x => decide (x < warnQ u - 12))
                coolSince := if temps.all (fun x => decide (x < throttleQ u - 12)) then some (u.kiln.coolSince.getD u.timeP) else none }

/-- A first reading at warning is reported. -/
def warnedAt (u : State) (temps : List Int) : State :=
  if reaches temps (warnQ u) && !u.kiln.warned then kilnRaise (setKiln u (noted u temps)) 0x0232 else setKiln u (noted u temps)

/-- THROTTLING begins, with the thermal cap at CAP_QW. -/
def throttled (w : State) : State :=
  kilnRaise (setF (setKiln w { w.kiln with cap := getF w F.KILN_CAP_CAP_QW, capAt := some w.timeP }) F.KILN_STAT_THROTTLING 1) 0x0233

def throttledAt (w : State) (temps : List Int) : State :=
  if reaches temps (throttleQ w) ∧ isSet w F.KILN_STAT_THROTTLING = false then throttled w else w

def trippedAt (w : State) (temps : List Int) : State :=
  if reaches temps (tripQ w) ∧ w.kiln.tripped = false then thermalTrip w else w

theorem map_nth_self (temps : List Int) (d : Nat → Int) (h : temps.length = 24) : (List.range 24).map (fun i => nth temps i (d i)) = temps := by
  refine List.ext_getElem (by simp [h]) (fun i hi _ => ?_)
  have hi' : i < temps.length := by simpa [h] using hi
  simp [nth, hi']

theorem thermalSample_eq {s u : State} {temps : List Int} {t : Nat} (hu : u = atPort t s) (hember : u.kiln.ember ≠ 2) (hlen : temps.length = 24) :
    thermalSample temps t s = trippedAt (throttledAt (warnedAt u temps) temps) temps := by
  have hnew : (List.range 24).map (fun i => if u.kiln.ember = 2 ∧ i < 16 then nth u.kiln.temps i 0 else nth temps i (nth u.kiln.temps i 0)) = temps := by
    simp only [hember, false_and, if_false]
    exact map_nth_self temps (fun i => nth u.kiln.temps i 0) hlen
  unfold thermalSample
  rw [← hu]
  dsimp only
  rw [hnew]
  rfl

section
variable {w : State} {temps : List Int}

theorem trippedAt_below (h : ∀ x ∈ temps, x < tripQ w) : trippedAt w temps = w :=
  if_neg (by rw [reaches_false h]; exact fun x => Bool.false_ne_true x.1)

theorem throttledAt_below (h : ∀ x ∈ temps, x < throttleQ w) : throttledAt w temps = w :=
  if_neg (by rw [reaches_false h]; exact fun x => Bool.false_ne_true x.1)

theorem warnedAt_quiet (h : (reaches temps (warnQ w) && !w.kiln.warned) = false) : warnedAt w temps = setKiln w (noted w temps) :=
  if_neg (ne_true_of_eq_false h)

end

theorem warnedAt_kiln (u : State) (temps : List Int) : (warnedAt u temps).kiln = noted u temps := by
  unfold warnedAt
  split
  · exact PowerLaws.kilnRaise_kiln _ _
  · rfl

theorem warnedAt_levels (u : State) (temps : List Int) : throttleQ (warnedAt u temps) = throttleQ u ∧ tripQ (warnedAt u temps) = tripQ u := by
  unfold warnedAt
  split
  · exact (levels_kilnRaise (setKiln u (noted u temps)) 0x0232).2
  · exact ⟨rfl, rfl⟩

theorem throttledAt_kiln (w : State) (temps : List Int) : (throttledAt w temps).kiln.tripped = w.kiln.tripped ∧
    (throttledAt w temps).kiln.temps = w.kiln.temps := by
  unfold throttledAt
  split
  · unfold throttled
    rw [PowerLaws.kilnRaise_kiln]
    exact ⟨rfl, rfl⟩
  · exact ⟨rfl, rfl⟩

theorem throttledAt_trip (w : State) (temps : List Int) : tripQ (throttledAt w temps) = tripQ w := by
  unfold throttledAt
  split
  · unfold throttled
    rw [(levels_kilnRaise _ _).2.2, (levels_throttling _ _).2.2]
    rfl
  · rfl

/-- What a trip turns off: the port base domain too where its own sensors reach trip. -/
def tripOff (z : State) (deep : Bool) : State :=
  if deep then allOff z else { compOff z with pwr := { (compOff z).pwr with dcClkStop := true } }

theorem tripOff_facts (z : State) (deep : Bool) : (tripOff z deep).pwr.compOn = false ∧ (tripOff z deep).qm = [] ∧
    (deep = false → (tripOff z deep).pwr.dcClkStop = true) := by
  cases deep with
  | false => exact ⟨compOff_pwr z, (compOff_units z).1, fun _ => rfl⟩
  | true => exact ⟨(allOff_pwr z).1, (allOff_units z).1, fun h => Bool.noConfusion h⟩

/-- The trip is noted, and FAULT_N is low. -/
def tripNoted (z : State) : State :=
  { z with flt := { z.flt with faultN := true, restarting := false }, kiln := { z.kiln with tripped := true, ember := 0 }
           emn := { z.emn with sealKey := false } }

theorem tripNoted_facts (z : State) : (tripNoted z).pwr = z.pwr ∧ (tripNoted z).qm = z.qm ∧ (tripNoted z).flt.faultN = true ∧
    (tripNoted z).kiln.tripped = true ∧ (tripNoted z).emn.sealKey = false := ⟨rfl, rfl, rfl, rfl, rfl⟩

theorem thermalTrip_eq (s : State) : ∃ z, thermalTrip s = tripNoted (tripOff z (reaches (s.kiln.temps.drop 16) (tripQ s))) := ⟨_, rfl⟩

/-! ### The thermal cap (R434) -/

theorem all_after {o : Option Nat} {n t : Nat} (h : ∀ y, o = some y → y + n ≤ t) : o.all (fun x => decide (x + n ≤ t)) = true := by
  cases o with
  | none => rfl
  | some y =>
    rw [Option.all_some]
    exact decide_eq_true (h y rfl)

theorem any_since {y n t : Nat} (h : y + n ≤ t) : (some y).any (fun x => decide (x + n ≤ t)) = true := by
  rw [Option.any_some]
  exact decide_eq_true h

/-- The cap a step up. -/
def capUp (u : State) : State := setKiln u { u.kiln with cap := min (getF u F.KILN_CAP_CAP_QW) (u.kiln.cap + 4), capAt := some u.timeP }

section
variable {s u : State} {t : Nat} (hu : u = atPort t s) (hon : isSet u F.KILN_STAT_THROTTLING = true)
include hu hon

theorem thermalCapStep_hot {x : Int} (hx : x ∈ u.kiln.temps) (hhot : throttleQ u ≤ x) (hgap : ∀ y, u.kiln.capAt = some y → y + 10000000 ≤ u.timeP) :
    thermalCapStep t s = setKiln u { u.kiln with cap := max 100 (u.kiln.cap - 4), capAt := some u.timeP } := by
  have hreach : u.kiln.temps.any (fun x => decide (throttleQ u ≤ x)) = true := reaches_true hx hhot
  unfold thermalCapStep
  rw [← hu]
  dsimp only
  rw [if_neg (by rw [hon]; decide), if_pos hreach, if_pos (all_after hgap)]

theorem thermalCapStep_cool {y : Nat} (hcool : ∀ x ∈ u.kiln.temps, x < throttleQ u) (hsince : u.kiln.coolSince = some y) (hlong : y + 100000000 ≤ u.timeP)
    (hgap : ∀ z, u.kiln.capAt = some z → z + 100000000 ≤ u.timeP) : thermalCapStep t s =
      if min (getF u F.KILN_CAP_CAP_QW) (u.kiln.cap + 4) = getF u F.KILN_CAP_CAP_QW then setF (capUp u) F.KILN_STAT_THROTTLING 0 else capUp u := by
  have hnot : u.kiln.temps.any (fun x => decide (throttleQ u ≤ x)) = false := reaches_false hcool
  have hcalm : u.kiln.coolSince.any (fun x => decide (x + 100000000 ≤ u.timeP)) = true ∧
      u.kiln.capAt.all (fun x => decide (x + 100000000 ≤ u.timeP)) = true := ⟨by rw [hsince]; exact any_since hlong, all_after hgap⟩
  unfold thermalCapStep
  rw [← hu]
  dsimp only
  rw [if_neg (by rw [hon]; decide), if_neg (ne_true_of_eq_false hnot), if_pos hcalm]
  rfl

end

/-! ### The input supply (R436) -/

def vinSince (u : State) (b : Bool) (o : Option Nat) : Option Nat := if b then some (o.getD u.timeP) else none

def lasts (u : State) (o : Option Nat) (n : Nat) : Bool := o.any (fun x => decide (x + n ≤ u.timeP))

def vinInRange (mv : Nat) : Bool := decide (10800 ≤ mv) && decide (mv ≤ 13200)

def vinBad (mv : Nat) : Bool := decide (mv < 9600) || decide (14000 < mv)

/-- The kiln after a sample of VIN is noted. -/
def vinNoted (u : State) (mv : Nat) : Kiln :=
  { u.kiln with rangeSince := vinSince u (!vinInRange mv) u.kiln.rangeSince, badSince := vinSince u (vinBad mv) u.kiln.badSince
                goodSince := vinSince u (vinInRange mv) u.kiln.goodSince }

def rangeDue (u : State) (mv : Nat) : Bool := lasts u (vinNoted u mv).rangeSince 1000000 && secondPast u u.kiln.rangeAt

/-- VIN out of range for a millisecond is reported once per second. -/
def vinWarned (u : State) (mv : Nat) : State :=
  if rangeDue u mv then kilnRaise (setKiln u { vinNoted u mv with rangeAt := some u.timeP }) 0x0235
  else setKiln u { vinNoted u mv with rangeAt := u.kiln.rangeAt }

theorem vinWarned_eq (u : State) (mv : Nat) : vinWarned u mv =
    if rangeDue u mv then kilnRaise (setKiln u { vinNoted u mv with rangeAt := if rangeDue u mv then some u.timeP else u.kiln.rangeAt }) 0x0235
    else setKiln u { vinNoted u mv with rangeAt := if rangeDue u mv then some u.timeP else u.kiln.rangeAt } := by
  unfold vinWarned
  cases rangeDue u mv <;> rfl

/-- A sample from 6 V on: a fault that has lasted, the end of one, or neither. -/
theorem vinSample_cases {s u : State} {mv t : Nat} (hu : u = atPort t s) (hmv : 6000 ≤ mv) : vinSample mv t s =
    if lasts u (vinNoted u mv).badSince 10000 = true ∧ u.kiln.vinFault = false then vinFault (vinWarned u mv)
    else if u.kiln.vinFault = true ∧ lasts u (vinNoted u mv).goodSince 10000000 = true ∧ (vinWarned u mv).emn.resetLow = false then
      coldBoot (vinWarned u mv).emn.straps (vinWarned u mv)
    else vinWarned u mv := by
  rw [vinWarned_eq]
  unfold vinSample
  rw [← hu]
  dsimp only
  rw [if_neg (by omega)]
  rfl

theorem vinSample_eq {s u : State} {mv t : Nat} (hu : u = atPort t s) (hmv : 6000 ≤ mv) (hfault : u.kiln.vinFault = false) :
    vinSample mv t s = if lasts u (vinNoted u mv).badSince 10000 then vinFault (vinWarned u mv) else vinWarned u mv := by
  have hnot : ¬ (u.kiln.vinFault = true ∧ lasts u (vinNoted u mv).goodSince 10000000 = true ∧ (vinWarned u mv).emn.resetLow = false) :=
    fun h => Bool.false_ne_true (hfault.symm.trans h.1)
  rw [vinSample_cases hu hmv]
  cases hbad : lasts u (vinNoted u mv).badSince 10000 with
  | true => rw [if_pos ⟨rfl, hfault⟩, if_pos rfl]
  | false => rw [if_neg (fun h => Bool.false_ne_true h.1), if_neg hnot, if_neg Bool.false_ne_true]

theorem vinSample_lost {s u : State} {mv t : Nat} (hu : u = atPort t s) (hmv : mv < 6000) : vinSample mv t s = vinLost u := by
  unfold vinSample
  rw [← hu]
  exact if_pos hmv

/-- What a supply fault leaves, beside what it turns off. -/
def vinFaulted (z : State) : State :=
  { z with flt := { z.flt with faultN := true, restarting := false }
           kiln := { z.kiln with vinFault := true, ember := 0, badSince := none, goodSince := none }, emn := { z.emn with sealKey := false } }

theorem vinFaulted_facts (z : State) : (vinFaulted z).kiln.vinFault = true ∧ (vinFaulted z).flt.faultN = true ∧ (vinFaulted z).pwr = z.pwr ∧
    (vinFaulted z).emn.sealKey = false ∧ (vinFaulted z).mem = z.mem := ⟨rfl, rfl, rfl, rfl, rfl⟩

theorem vinFault_eq (s : State) : ∃ z, vinFault s = vinFaulted (loseDram (allOff z)) := ⟨_, rfl⟩

/-- What is left below 6 V. -/
def vinGone (u z : State) : State :=
  { z with mem := [], flt := {}, kiln := {}
           emn := { journal := u.emn.journal, slots := u.emn.slots, dbgCount := u.emn.dbgCount, trnOwner := u.emn.trnOwner
                    straps := u.emn.straps, resetLow := u.emn.resetLow } }

theorem vinGone_facts (u z : State) : (vinGone u z).mem = [] ∧ (vinGone u z).flt = {} ∧ (vinGone u z).kiln = {} ∧ (vinGone u z).pwr = z.pwr ∧
    (vinGone u z).emn.journal = u.emn.journal ∧ (vinGone u z).emn.slots = u.emn.slots ∧ (vinGone u z).fuse = z.fuse ∧
    (vinGone u z).emn.sealed_ = none := ⟨rfl, rfl, rfl, rfl, rfl, rfl, rfl, rfl⟩

theorem vinLost_eq (u : State) : vinLost u = vinGone u (loseDram (allOff u)) := rfl

/-! ### Ember entry (R437, R438, R451) -/

/-- The fields that KILN_EMBER stores. -/
def emberSet (s : State) (v : Nat) : State :=
  setF (setF (w1c s F.KILN_EMBER_REFUSED v) F.KILN_EMBER_WAKE_EN (bitsOf v 1 3)) F.KILN_EMBER_WAKE_MS (bitsOf v 8 24)

theorem w1c_same (s : State) (x : Fld) (v : Nat) : { w1c s x v with regs := s.regs } = s := by
  unfold w1c
  split <;> rfl

theorem emberSet_same (s : State) (v : Nat) : { emberSet s v with regs := s.regs } = s :=
  (congrArg (fun t : State => { t with regs := s.regs }) (w1c_same s F.KILN_EMBER_REFUSED v) :)

theorem emberSet_wake (s : State) (v : Nat) : getF (emberSet s v) F.KILN_EMBER_WAKE_EN = bitsOf v 1 3 ∧
    getF (emberSet s v) F.KILN_EMBER_WAKE_MS = bitsOf v 8 24 := by
  unfold emberSet
  rw [getF_setF_ne _ _ _ _ (by decide), getF_setF_same, getF_setF_same]
  exact ⟨Nat.mod_eq_of_lt (TickLaws.bitsOf_lt v 1 3), Nat.mod_eq_of_lt (TickLaws.bitsOf_lt v 8 24)⟩

theorem emberRefused_emberSet (s : State) (v : Nat) : emberRefused (emberSet s v) = emberRefused s := by
  have hsame := emberSet_same s v
  have hreg : isSet (emberSet s v) F.TICK_CTL_ENABLE = isSet s F.TICK_CTL_ENABLE := by
    unfold emberSet isSet w1c
    rw [getF_setF_ne _ _ _ _ (by decide), getF_setF_ne _ _ _ _ (by decide)]
    split
    · rfl
    · rw [getF_setF_ne _ _ _ _ (by decide)]
  have htick : (emberSet s v).tick = s.tick := (congrArg State.tick hsame :)
  have hkiln : (emberSet s v).kiln = s.kiln := (congrArg State.kiln hsame :)
  have hflt : (emberSet s v).flt = s.flt := (congrArg State.flt hsame :)
  unfold emberRefused
  rw [hreg, htick, hkiln, hflt]

theorem bitOf_odd (v : Nat) : bitOf (2 * v + 1) 0 = true := by
  unfold bitOf
  rw [pow_zero, Nat.div_one, beq_iff_eq]
  omega

theorem emberEnter_eq {s : State} {m : Master} {v : Nat} (hgate : regGate s true 5 0x78 m (2 * v + 1) = .pass) (hpart : m.part = 0)
    (hember : s.kiln.ember = 0) : kilnEmberWrite m (2 * v + 1) s =
      if emberRefused s then setF (emberSet s (2 * v + 1)) F.KILN_EMBER_REFUSED 1 else emberBegin (emberSet s (2 * v + 1)) := by
  have hkiln : (emberSet s (2 * v + 1)).kiln = s.kiln := (congrArg State.kiln (emberSet_same s (2 * v + 1)) :)
  unfold kilnEmberWrite gated
  rw [show kilnBlock = 5 from rfl, hgate]
  show (if bitOf (2 * v + 1) 0 = false ∨ m.part ≠ 0 ∨ (emberSet s (2 * v + 1)).kiln.ember ≠ 0 then emberSet s (2 * v + 1)
    else if emberRefused (emberSet s (2 * v + 1)) then setF (emberSet s (2 * v + 1)) F.KILN_EMBER_REFUSED 1 else emberBegin (emberSet s (2 * v + 1))) = _
  rw [if_neg, emberRefused_emberSet]
  rw [bitOf_odd, hpart, hkiln, hember]
  decide

/-- Entry begins: the commands that run are stopped. -/
def emberBegun (s : State) : State :=
  { setF s F.HIF_DEVSTAT_BOOT 5 with kiln := { s.kiln with ember := 1 }, hif := { s.hif with fns := s.hif.fns.map abortFn } }

theorem emberBegin_calm (s : State) : StopLaws.Calm (emberBegun s) (emberBegin s) :=
  StopLaws.calm_foldl (fun _ p hu => hu.discardSteps p 3) (StopLaws.Calm.refl _)

theorem getF_emberBegun {s : State} {x : Fld} (hx : x.key ≠ F.HIF_DEVSTAT_BOOT.key) : getF (emberBegun s) x = getF s x := getF_setF_ne _ _ _ _ hx

theorem emberBegin_facts (s : State) : (emberBegin s).kiln.ember = 1 ∧ getF (emberBegin s) F.KILN_EMBER_WAKE_EN = getF s F.KILN_EMBER_WAKE_EN ∧
    getF (emberBegin s) F.KILN_EMBER_WAKE_MS = getF s F.KILN_EMBER_WAKE_MS ∧
    (s.flt.restarting = false → getF (emberBegin s) F.HIF_DEVSTAT_BOOT = 5) := by
  have h := emberBegin_calm s
  refine ⟨by rw [h.same.kiln]; rfl, ?_, ?_, fun hr => ?_⟩
  · exact (h.port F.KILN_EMBER_WAKE_EN (by unfold StopLaws.portKeys; decide)).trans (getF_emberBegun (by decide))
  · exact (h.port F.KILN_EMBER_WAKE_MS (by unfold StopLaws.portKeys; decide)).trans (getF_emberBegun (by decide))
  · exact (h.boot hr).2.trans (getF_setF_same ..)

/-- The always-on settings that outlast the port base domain. -/
def keptOn : List Fld := [F.KILN_EMBER_WAKE_EN, F.KILN_EMBER_WAKE_MS, F.KILN_EMBER_LAST_WAKE, F.EMN_DBG_OPEN, F.EMN_DBG_FAILS]

def restored (u z : State) : State := (keptOn.map (fun x => (x, getF u x))).foldl (fun s x => setF s x.1 x.2) z

theorem restored_units (u z : State) : (restored u z).pwr = z.pwr ∧ (restored u z).timeP = z.timeP ∧ (restored u z).qm = z.qm ∧
    (restored u z).sec = z.sec ∧ (restored u z).mem = z.mem := by
  simp only [restored, keptOn, List.map_cons, List.map_nil, List.foldl_cons, List.foldl_nil, setF_pwr, setF_timeP, setF_qm, setF_sec, setF_mem,
    and_self]

theorem getF_restored (u z : State) : getF (restored u z) F.KILN_EMBER_WAKE_EN = getF u F.KILN_EMBER_WAKE_EN % 8 := by
  simp only [restored, keptOn, List.map_cons, List.map_nil, List.foldl_cons, List.foldl_nil]
  rw [getF_setF_ne _ _ _ _ (by decide), getF_setF_ne _ _ _ _ (by decide), getF_setF_ne _ _ _ _ (by decide), getF_setF_ne _ _ _ _ (by decide),
    getF_setF_same]
  rfl

/-- What Ember entry seals of the booted image, and the DRAM settings that it keeps. -/
def sealOf (u : State) : Option Sealed :=
  u.emn.booted.map (fun r => ({ seq := r.seq, svn := ((slotImg u r.slot).map (·.svn)).getD 0, xts := u.drc.xts } : Sealed))

def drcOf (u : State) : Option (Nat × Nat × Nat × Tab TrnRes) :=
  if isSet u F.DRC_STAT_READY then some (getF u F.DRC_CFG_HASH, getF u F.DRC_CFG_IBECC, getF u F.DRC_CFG_PAGE_DEFAULT, trained u) else none

/-- The state in Ember. -/
def inEmber (u z : State) : State :=
  { z with emn := { z.emn with sealed_ := sealOf u, sealKey := true, drcKept := drcOf u }, kiln := { z.kiln with ember := 2, emberAt := z.timeP } }

theorem inEmber_facts (u z : State) : (inEmber u z).kiln.ember = 2 ∧ (inEmber u z).kiln.emberAt = z.timeP ∧ (inEmber u z).pwr = z.pwr ∧
    (inEmber u z).emn.sealKey = true ∧ (inEmber u z).emn.sealed_ = sealOf u ∧ (inEmber u z).qm = z.qm ∧ (inEmber u z).sec = z.sec ∧
    (inEmber u z).mem = z.mem ∧ (inEmber u z).emn.drcKept = drcOf u ∧ (inEmber u z).regs = z.regs := ⟨rfl, rfl, rfl, rfl, rfl, rfl, rfl, rfl, rfl, rfl⟩

theorem emberEntered_eq {s u : State} {t : Nat} (hu : u = atPort t s) (hember : u.kiln.ember = 1) (hzero : u.drc.zero = []) (hupd : u.emn.update = none) :
    emberEntered t s = inEmber u (restored u (allOff u)) := by
  unfold emberEntered
  rw [← hu]
  dsimp only
  rw [if_neg (by rw [hember, hzero]; simp), hupd, if_neg (by simp)]
  rfl

/-! ### Waking (R439, R452, R453) -/

/-- The port base is on again, and the source is noted. -/
def woken (u : State) (src : Nat) : State :=
  setF { u with kiln := { u.kiln with ember := 0 }, pwr := { u.pwr with portOn := true } } F.KILN_EMBER_LAST_WAKE src

theorem woken_units (u : State) (src : Nat) : (woken u src).kiln.ember = 0 ∧ (woken u src).emn = u.emn ∧ (woken u src).fuse = u.fuse ∧
    (woken u src).flt = u.flt ∧ (woken u src).mem = u.mem ∧ (woken u src).pwr.portOn = true := ⟨rfl, rfl, rfl, rfl, rfl, rfl⟩

theorem getF_woken (u : State) {src : Nat} (h : src < 4) : getF (woken u src) F.KILN_EMBER_LAST_WAKE = src :=
  (getF_setF_same ..).trans (Nat.mod_eq_of_lt h)

theorem wakes_src {s : State} {src : Nat} (h : wakes s src = true) : src < 4 := by
  unfold wakes at h
  simp only [Bool.and_eq_true, Bool.or_eq_true, beq_iff_eq] at h
  omega

/-- The boot status of a rekindle. -/
def rekindleShown (w : State) : State :=
  setF (setF (setF (setF w F.EMN_BOOT_STAT_STAGE 4) F.EMN_BOOT_STAT_SEQ (((slotRecs w.emn.journal).head?.map (·.seq)).getD 0)) F.EMN_BOOT_STAT_SLOT
    (((slotRecs w.emn.journal).head?.map (·.slot)).getD 0)) F.EMN_BOOT_STAT_TRIAL (if (slotRecs w.emn.journal).head?.any (jConfirmed w.emn.journal) then 0 else 1)

/-- The compute die is on with the record booted. -/
def rekindled (w : State) (r : Option JRec) : State := { w with pwr := { w.pwr with compOn := true }, emn := { w.emn with booted := r } }

/-- The rekindled device. -/
def kindled (z : State) : State := followConfirmed (loadImages z)

/-- No record is sealed any more. -/
def unsealed (w : State) : State := { w with emn := { w.emn with sealed_ := none } }

theorem emberWake_cases {s u : State} {src t : Nat} (good : Bool) (hu : u = atPort t s) (hember : u.kiln.ember = 2) (hwakes : wakes u src = true)
    (htrip : u.kiln.tripped = false) (hvin : u.kiln.vinFault = false) : emberWake src good t s =
      if rekindles u good then
        kindled (restoreXts (restoreDrc (rekindled (rekindleShown (woken u src)) (slotRecs u.emn.journal).head?)))
      else if (selectImage (unsealed (woken u src))).emn.booted.isSome then restoreDrc (selectImage (unsealed (woken u src)))
      else selectImage (unsealed (woken u src)) := by
  unfold emberWake
  rw [← hu]
  dsimp only
  rw [if_neg (by rw [hember, hwakes, htrip, hvin]; decide)]
  rfl

/-- The registers of the settings that Ember entry kept. -/
def drcSet (s : State) (h e p : Nat) : State :=
  setF (setF (setF (setF (setF s F.DRC_CFG_HASH h) F.DRC_CFG_IBECC e) F.DRC_CFG_PAGE_DEFAULT p) F.DRC_CFG_INIT 1) F.DRC_STAT_READY 1

theorem drcSet_units (s : State) (h e p : Nat) : (drcSet s h e p).kiln = s.kiln ∧ (drcSet s h e p).pwr = s.pwr ∧ (drcSet s h e p).flt = s.flt ∧
    (drcSet s h e p).mem = s.mem ∧ (drcSet s h e p).emn = s.emn := by
  simp only [drcSet, setF_kiln, setF_pwr, setF_flt, setF_mem, setF_emn, and_self]

theorem getF_drcSet (s : State) (h e p : Nat) : getF (drcSet s h e p) F.DRC_STAT_READY = 1 ∧ getF (drcSet s h e p) F.DRC_CFG_HASH = h % 4 ∧
    getF (drcSet s h e p) F.DRC_CFG_IBECC = e % 2 ∧ getF (drcSet s h e p) F.DRC_CFG_PAGE_DEFAULT = p % 2 := by
  unfold drcSet
  refine ⟨getF_setF_same .., ?_, ?_, ?_⟩
  · rw [getF_setF_ne _ _ _ _ (by decide), getF_setF_ne _ _ _ _ (by decide), getF_setF_ne _ _ _ _ (by decide), getF_setF_ne _ _ _ _ (by decide), getF_setF_same]
    rfl
  · rw [getF_setF_ne _ _ _ _ (by decide), getF_setF_ne _ _ _ _ (by decide), getF_setF_ne _ _ _ _ (by decide), getF_setF_same]
    rfl
  · rw [getF_setF_ne _ _ _ _ (by decide), getF_setF_ne _ _ _ _ (by decide), getF_setF_same]
    rfl

/-- The controllers' results come back. -/
def drcBack (z : State) (x : Tab TrnRes) : State := { z with emn := { z.emn with drcKept := none }, drc := { z.drc with trn := x } }

theorem drcBack_units (z : State) (x : Tab TrnRes) : (drcBack z x).kiln = z.kiln ∧ (drcBack z x).pwr = z.pwr ∧ (drcBack z x).flt = z.flt ∧
    (drcBack z x).mem = z.mem ∧ (drcBack z x).emn = { z.emn with drcKept := none } ∧ (drcBack z x).regs = z.regs ∧ (drcBack z x).drc.trn = x :=
  ⟨rfl, rfl, rfl, rfl, rfl, rfl, rfl⟩

theorem restoreDrc_kept {s : State} {h e p : Nat} {x : Tab TrnRes} (hk : s.emn.drcKept = some (h, e, p, x)) :
    restoreDrc s = drcBack (drcSet s h e p) x := by
  unfold restoreDrc
  rw [hk]
  rfl

theorem restoreDrc_none {s : State} (hk : s.emn.drcKept = none) : restoreDrc s = s := by
  unfold restoreDrc
  rw [hk]

/-- What a restore of the DRAM settings leaves. -/
theorem restoreDrc_units (s : State) : (restoreDrc s).kiln = s.kiln ∧ (restoreDrc s).pwr = s.pwr ∧ (restoreDrc s).flt = s.flt ∧
    (restoreDrc s).mem = s.mem ∧ (restoreDrc s).emn.sealed_ = s.emn.sealed_ ∧ (restoreDrc s).emn.booted = s.emn.booted := by
  cases hk : s.emn.drcKept with
  | none =>
    rw [restoreDrc_none hk]
    exact ⟨rfl, rfl, rfl, rfl, rfl, rfl⟩
  | some k =>
    obtain ⟨h, e, p, x⟩ := k
    obtain ⟨h1, h2, h3, h4, h5, -, -⟩ := drcBack_units (drcSet s h e p) x
    obtain ⟨g1, g2, g3, g4, g5⟩ := drcSet_units s h e p
    rw [restoreDrc_kept hk, h1, h2, h3, h4, h5, g1, g2, g3, g4, g5]
    exact ⟨rfl, rfl, rfl, rfl, rfl, rfl⟩

theorem getF_restoreDrc_ne (s : State) {x : Fld}
    (hx : ∀ y ∈ [F.DRC_CFG_HASH, F.DRC_CFG_IBECC, F.DRC_CFG_PAGE_DEFAULT, F.DRC_CFG_INIT, F.DRC_STAT_READY], x.key ≠ y.key) :
    getF (restoreDrc s) x = getF s x := by
  simp only [List.mem_cons, List.not_mem_nil, or_false, forall_eq_or_imp, forall_eq] at hx
  obtain ⟨hhash, hibecc, hpage, hinit, hready⟩ := hx
  cases hk : s.emn.drcKept with
  | none => rw [restoreDrc_none hk]
  | some k =>
    obtain ⟨h, e, p, y⟩ := k
    rw [restoreDrc_kept hk, RaiseLaws.getF_of_regs (drcBack_units _ _).2.2.2.2.2.1, drcSet, getF_setF_ne _ _ _ _ hready, getF_setF_ne _ _ _ _ hinit,
      getF_setF_ne _ _ _ _ hpage, getF_setF_ne _ _ _ _ hibecc, getF_setF_ne _ _ _ _ hhash]

/-- What a restore of the XTS regions leaves. -/
theorem restoreXts_units (s : State) : (restoreXts s).kiln = s.kiln ∧ (restoreXts s).pwr = s.pwr ∧ (restoreXts s).flt = s.flt ∧
    (restoreXts s).mem = s.mem ∧ (restoreXts s).emn = s.emn ∧ (restoreXts s).regs = s.regs ∧ (restoreXts s).drc.trn = s.drc.trn ∧
    (restoreXts s).drc.xts = (s.emn.sealed_.map (·.xts)).getD [] := ⟨rfl, rfl, rfl, rfl, rfl, rfl, rfl, rfl⟩

theorem kindled_units (z : State) : (kindled z).emn = { z.emn with locks := true } ∧ (kindled z).pwr = z.pwr ∧ (kindled z).kiln = z.kiln ∧
    (kindled z).mem = z.mem ∧ (kindled z).flt = z.flt ∧ (kindled z).regs = z.regs ∧ (kindled z).drc = z.drc := by
  obtain ⟨hemn, hpwr, hkiln, hmem, hflt, -, hregs⟩ := loadImages_units z
  unfold kindled
  rw [followConfirmed_keeps (π := State.emn) (fun _ _ => rfl), followConfirmed_keeps (π := State.pwr) (fun _ _ => rfl),
    followConfirmed_keeps (π := State.kiln) (fun _ _ => rfl), followConfirmed_keeps (π := State.mem) (fun _ _ => rfl),
    followConfirmed_keeps (π := State.flt) (fun _ _ => rfl), followConfirmed_keeps (π := State.regs) (fun _ _ => rfl),
    followConfirmed_keeps (π := State.drc) (fun _ _ => rfl), hemn, hpwr, hkiln, hmem, hflt, hregs]
  exact ⟨rfl, rfl, rfl, rfl, rfl, rfl, rfl⟩

/-- What a rekindle brings back to a state in which both dies are on. -/
theorem kindled_restored (z : State) : (kindled (restoreXts (restoreDrc z))).kiln = z.kiln ∧ (kindled (restoreXts (restoreDrc z))).pwr = z.pwr ∧
    (kindled (restoreXts (restoreDrc z))).flt = z.flt ∧ (kindled (restoreXts (restoreDrc z))).mem = z.mem ∧
    (kindled (restoreXts (restoreDrc z))).emn.sealed_ = z.emn.sealed_ ∧ (kindled (restoreXts (restoreDrc z))).emn.booted = z.emn.booted ∧
    (kindled (restoreXts (restoreDrc z))).drc.xts = (z.emn.sealed_.map (·.xts)).getD [] ∧
    (kindled (restoreXts (restoreDrc z))).regs = (restoreDrc z).regs ∧ (kindled (restoreXts (restoreDrc z))).drc.trn = (restoreDrc z).drc.trn := by
  obtain ⟨k1, k2, k3, k4, k5, k6, k7⟩ := kindled_units (restoreXts (restoreDrc z))
  obtain ⟨x1, x2, x3, x4, x5, x6, x7, x8⟩ := restoreXts_units (restoreDrc z)
  obtain ⟨d1, d2, d3, d4, d5, d6⟩ := restoreDrc_units z
  rw [k1, k2, k3, k4, k5, k6, k7, x1, x2, x3, x4, x5, x6, x7, x8, d1, d2, d3, d4, d5]
  exact ⟨rfl, rfl, rfl, rfl, rfl, d6, rfl, rfl, rfl⟩

/-- The DRAM settings that Ember entry kept are in force again. -/
theorem kindled_settings {z : State} {h e p : Nat} {x : Tab TrnRes} (hk : z.emn.drcKept = some (h, e, p, x)) :
    (kindled (restoreXts (restoreDrc z))).drc.trn = x ∧ isSet (kindled (restoreXts (restoreDrc z))) F.DRC_STAT_READY = true ∧
      getF (kindled (restoreXts (restoreDrc z))) F.DRC_CFG_HASH = h % 4 ∧ getF (kindled (restoreXts (restoreDrc z))) F.DRC_CFG_IBECC = e % 2 ∧
      getF (kindled (restoreXts (restoreDrc z))) F.DRC_CFG_PAGE_DEFAULT = p % 2 := by
  obtain ⟨-, -, -, -, -, -, -, hregs, htrn⟩ := kindled_restored z
  obtain ⟨-, -, -, -, -, dregs, dtrn⟩ := drcBack_units (drcSet z h e p) x
  obtain ⟨g1, g2, g3, g4⟩ := getF_drcSet z h e p
  have hback := restoreDrc_kept hk
  have hall : ∀ y, getF (kindled (restoreXts (restoreDrc z))) y = getF (drcSet z h e p) y := fun y =>
    RaiseLaws.getF_of_regs (hregs.trans ((congrArg State.regs hback).trans dregs)) y
  refine ⟨htrn.trans ((congrArg (fun w : State => w.drc.trn) hback).trans dtrn), ?_, (hall _).trans g2, (hall _).trans g3, (hall _).trans g4⟩
  rw [isSet, hall, g1]
  rfl

theorem rekindleShown_units (w : State) : (rekindleShown w).kiln = w.kiln ∧ (rekindleShown w).pwr = w.pwr ∧ (rekindleShown w).flt = w.flt ∧
    (rekindleShown w).mem = w.mem ∧ (rekindleShown w).emn = w.emn := by
  simp only [rekindleShown, setF_kiln, setF_pwr, setF_flt, setF_mem, setF_emn, and_self]

theorem getF_rekindleShown (w : State) : getF (rekindleShown w) F.EMN_BOOT_STAT_STAGE = 4 ∧
    getF (rekindleShown w) F.KILN_EMBER_LAST_WAKE = getF w F.KILN_EMBER_LAST_WAKE := by
  unfold rekindleShown
  constructor
  · rw [getF_setF_ne _ _ _ _ (by decide), getF_setF_ne _ _ _ _ (by decide), getF_setF_ne _ _ _ _ (by decide), getF_setF_same]
    rfl
  · rw [getF_setF_ne _ _ _ _ (by decide), getF_setF_ne _ _ _ _ (by decide), getF_setF_ne _ _ _ _ (by decide), getF_setF_ne _ _ _ _ (by decide)]

theorem rekindled_units (w : State) (r : Option JRec) : (rekindled w r).kiln = w.kiln ∧ (rekindled w r).pwr = { w.pwr with compOn := true } ∧
    (rekindled w r).flt = w.flt ∧ (rekindled w r).mem = w.mem ∧ (rekindled w r).emn = { w.emn with booted := r } ∧ (rekindled w r).regs = w.regs :=
  ⟨rfl, rfl, rfl, rfl, rfl, rfl⟩

/-- The cold path from the journal on keeps what the wake has noted, and turns both dies on. -/
theorem selectImage_wakes {w : State} {src : Nat} (hember : w.kiln.ember = 0) (hsrc : getF w F.KILN_EMBER_LAST_WAKE = src)
    (hseal : w.emn.sealed_ = none) : (selectImage w).kiln.ember = 0 ∧ getF (selectImage w) F.KILN_EMBER_LAST_WAKE = src ∧
      (selectImage w).emn.sealed_ = none ∧ (selectImage w).pwr.compOn = true ∧ (selectImage w).pwr.portOn = true := by
  refine pickRec_keeps (P := fun s => s.kiln.ember = 0 ∧ getF s F.KILN_EMBER_LAST_WAKE = src ∧ s.emn.sealed_ = none)
    (Q := fun s => s.kiln.ember = 0 ∧ getF s F.KILN_EMBER_LAST_WAKE = src ∧ s.emn.sealed_ = none ∧ s.pwr.compOn = true ∧ s.pwr.portOn = true)
    ?_ ?_ ?_ ?_ _ ⟨hember, hsrc, hseal⟩
  · rintro s code cls ⟨h1, h2, h3⟩
    rw [raise_kiln, raise_emn, RaiseLaws.getF_raise_ne _ _ _ _ _ _ _ _ (by decide)]
    exact ⟨h1, h2, h3⟩
  · exact fun s r h => h
  · rintro s ⟨h1, h2, h3⟩
    exact ⟨h1, (getF_setF_ne _ _ _ _ (by decide)).trans h2, h3, rfl, rfl⟩
  · rintro s r conf ⟨h1, h2, h3⟩
    obtain ⟨hemn, hpwr, hkiln, -, -⟩ := bootInto_units s r conf
    rw [hemn, hpwr, hkiln, getF_bootInto_ne _ _ _ (by decide)]
    exact ⟨h1, h2, h3, rfl, rfl⟩

/-! ### The cages (R522) -/

/-- The cage is latched off, its link down and its queues flushed. -/
def cageOff (s : State) (p : Nat) : State :=
  flushPort (setF { s with pins := { s.pins with latched := s.pins.latched.set p true } } (F.NET_PORT_CFG_LINK p) 0) p

theorem cageOff_facts (s : State) (p : Nat) : (cageOff s p).pins = { s.pins with latched := s.pins.latched.set p true } ∧ (cageOff s p).flt = s.flt ∧
    (cageOff s p).net.egress = tabDrop s.net.egress (8 * p) 8 ∧ getF (cageOff s p) (F.NET_PORT_CFG_LINK p) = 0 := ⟨rfl, rfl, rfl, getF_setF_same ..⟩

theorem link_key (p : Nat) : ∀ y ∈ RaiseLaws.faultFields true, (F.NET_PORT_CFG_LINK p).key ≠ y.key := by
  simp only [RaiseLaws.faultFields, List.mem_cons, List.not_mem_nil, or_false, forall_eq_or_imp, forall_eq, Fld.key, F.NET_PORT_CFG_LINK,
    Reg.NET_PORT_CFG, F.FLT_STAT_FAULT_LOST, F.FLT_STAT_LOST_COUNT, F.HIF_DEVSTAT_PAUSED, F.HIF_DEVSTAT_BOOT, Reg.FLT_STAT, Reg.HIF_DEVSTAT, blkBase,
    if_true]
  omega

theorem vmodOvercurrent_on {s : State} {p : Nat} (h : vmodOn s p = true) : vmodOvercurrent p s = netRaise (cageOff s p) 0x0210 none := if_pos h

theorem vmodOn_latched {s : State} {p : Nat} (h : nth s.pins.latched p false = true) : vmodOn s p = false := by
  unfold vmodOn
  rw [h]
  simp

/-- A sample below warning, at warning, at throttle and at trip. -/
theorem thermalSample_acts :
    (∀ (s u : State) (temps : List Int) (t : Nat), u = atPort t s → u.kiln.ember ≠ 2 → temps.length = 24 →
      ((∀ x ∈ temps, x < warnQ u) → ∃ v, exec (.thermalSample temps t) s = .next v ∧ v.kiln.temps = temps ∧ v.flt = u.flt ∧ v.regs = u.regs ∧
        { v with kiln := u.kiln } = u) ∧
      (∀ x, x ∈ temps → warnQ u ≤ x → (∀ y ∈ temps, y < throttleQ u) → u.kiln.warned = false → u.flt.port.queue.length < 32 →
        ∃ v r, exec (.thermalSample temps t) s = .next v ∧ v.kiln.temps = temps ∧ v.kiln.warned = true ∧ v.flt.port.queue = u.flt.port.queue ++ [r] ∧
          r.code = 0x0232 ∧ r.cls = 0 ∧ v.regs = u.regs) ∧
      (∀ x, x ∈ temps → throttleQ u ≤ x → (∀ y ∈ temps, y < tripQ u) → u.kiln.warned = true → isSet u F.KILN_STAT_THROTTLING = false →
        u.flt.port.queue.length < 32 →
        ∃ v r, exec (.thermalSample temps t) s = .next v ∧ isSet v F.KILN_STAT_THROTTLING = true ∧ v.kiln.cap = getF u F.KILN_CAP_CAP_QW ∧
          v.flt.port.queue = u.flt.port.queue ++ [r] ∧ r.code = 0x0233 ∧ r.cls = 0) ∧
      (∀ x, x ∈ temps → tripQ u ≤ x → u.kiln.tripped = false → ∃ v, exec (.thermalSample temps t) s = .next v ∧ v.pwr.compOn = false ∧
        v.flt.faultN = true ∧ v.kiln.tripped = true ∧ v.emn.sealKey = false ∧ v.qm = [] ∧ ((∀ y ∈ temps.drop 16, y < tripQ u) → v.pwr.dcClkStop = true))) := by
  intro s u temps t hu hember hlen
  have hrun := thermalSample_eq hu hember hlen
  have hle := warn_le_throttle u
  have hle' := throttle_le_trip u
  obtain ⟨hthrottle, htrip⟩ := warnedAt_levels u temps
  refine ⟨fun hcool => ?_, fun x hx hwarm hbelow hfirst hroom => ?_, fun x hx hhot hbelow hwarned hoff hroom => ?_, fun x hx hhot htripped => ?_⟩
  · rw [warnedAt_quiet (by rw [reaches_false hcool]; rfl)] at hrun hthrottle htrip
    rw [throttledAt_below (fun y hy => by rw [hthrottle]; have := hcool y hy; omega),
      trippedAt_below (fun y hy => by rw [htrip]; have := hcool y hy; omega)] at hrun
    exact ⟨_, congrArg Host.Outcome.next hrun, rfl, rfl, rfl, rfl⟩
  · have hfirst' : (reaches temps (warnQ u) && !u.kiln.warned) = true := by rw [reaches_true hx hwarm, hfirst]; rfl
    have hwarned : (noted u temps).warned = true := by
      have hcool : temps.all (fun x => decide (x < warnQ u - 12)) = false := List.all_eq_false.mpr ⟨x, hx, by simp; omega⟩
      show ((u.kiln.warned || reaches temps (warnQ u)) && !temps.all (fun x => decide (x < warnQ u - 12))) = true
      rw [reaches_true hx hwarm, hcool, Bool.or_true]
      rfl
    rw [throttledAt_below (fun y hy => by rw [hthrottle]; exact hbelow y hy),
      trippedAt_below (fun y hy => by rw [htrip]; have := hbelow y hy; omega), warnedAt, if_pos hfirst'] at hrun
    refine ⟨_, _, congrArg Host.Outcome.next hrun, ?_, ?_, PowerLaws.kilnRaise_queue 0x0232 hroom, rfl, rfl, raise_regs _ _ _ _ _ _ hroom (.inr (by decide))⟩
    · rw [PowerLaws.kilnRaise_kiln]
      rfl
    · rw [PowerLaws.kilnRaise_kiln]
      exact hwarned
  · have hquiet : (reaches temps (warnQ u) && !u.kiln.warned) = false := by rw [hwarned, Bool.not_true, Bool.and_false]
    rw [warnedAt_quiet hquiet] at hrun hthrottle htrip
    have hthr : throttledAt (setKiln u (noted u temps)) temps = throttled (setKiln u (noted u temps)) :=
      if_pos ⟨reaches_true hx (by rw [hthrottle]; exact hhot), hoff⟩
    rw [trippedAt_below (fun y hy => by rw [throttledAt_trip, htrip]; exact hbelow y hy), hthr] at hrun
    refine ⟨_, _, congrArg Host.Outcome.next hrun, ?_, ?_, PowerLaws.kilnRaise_queue 0x0233 hroom, rfl, rfl⟩
    · have hregs := RaiseLaws.getF_of_regs (raise_regs (s := setF (setKiln (setKiln u (noted u temps)) { (setKiln u (noted u temps)).kiln with
        cap := getF (setKiln u (noted u temps)) F.KILN_CAP_CAP_QW, capAt := some (setKiln u (noted u temps)).timeP }) F.KILN_STAT_THROTTLING 1)
        0x0233 0 none kilnBlock 0xFFFF [] hroom (.inr (by decide))) F.KILN_STAT_THROTTLING
      exact beq_iff_eq.mpr (hregs.trans (getF_setF_same ..))
    · unfold throttled
      rw [PowerLaws.kilnRaise_kiln]
      rfl
  · have htripped' : (throttledAt (warnedAt u temps) temps).kiln.tripped = false := by
      rw [(throttledAt_kiln _ _).1, warnedAt_kiln]
      exact htripped
    have htemps : (throttledAt (warnedAt u temps) temps).kiln.temps = temps := by
      rw [(throttledAt_kiln _ _).2, warnedAt_kiln]
      rfl
    have hlevel : tripQ (throttledAt (warnedAt u temps) temps) = tripQ u := (throttledAt_trip _ _).trans htrip
    have htrips : trippedAt (throttledAt (warnedAt u temps) temps) temps = thermalTrip (throttledAt (warnedAt u temps) temps) :=
      if_pos ⟨reaches_true hx (by rw [hlevel]; exact hhot), htripped'⟩
    obtain ⟨z, hz⟩ := thermalTrip_eq (throttledAt (warnedAt u temps) temps)
    rw [htemps, hlevel] at hz
    obtain ⟨hcomp, hqm, hclk⟩ := tripOff_facts z (reaches (temps.drop 16) (tripQ u))
    obtain ⟨hpwr, hqm', hfault, htr, hseal⟩ := tripNoted_facts (tripOff z (reaches (temps.drop 16) (tripQ u)))
    refine ⟨_, congrArg Host.Outcome.next (hrun.trans (htrips.trans hz)), ?_, hfault, htr, hseal, hqm'.trans hqm, fun hbase => ?_⟩
    · rw [hpwr, hcomp]
    · rw [hpwr, hclk (reaches_false hbase)]

/-- The thermal cap while THROTTLING is set. -/
theorem thermalCap_steps :
    (∀ (s u : State) (t : Nat), u = atPort t s → isSet u F.KILN_STAT_THROTTLING = true →
      (∀ x, x ∈ u.kiln.temps → throttleQ u ≤ x → (∀ y, u.kiln.capAt = some y → y + 10000000 ≤ u.timeP) →
        exec (.thermalCapStep t) s = .next { u with kiln := { u.kiln with cap := max 100 (u.kiln.cap - 4), capAt := some u.timeP } }) ∧
      (∀ y, (∀ x ∈ u.kiln.temps, x < throttleQ u) → u.kiln.coolSince = some y → y + 100000000 ≤ u.timeP →
        (∀ z, u.kiln.capAt = some z → z + 100000000 ≤ u.timeP) →
        ∃ v, exec (.thermalCapStep t) s = .next v ∧ v.kiln.cap = min (getF u F.KILN_CAP_CAP_QW) (u.kiln.cap + 4) ∧
          (isSet v F.KILN_STAT_THROTTLING = false ↔ getF u F.KILN_CAP_CAP_QW ≤ u.kiln.cap + 4) ∧ { v with regs := u.regs, kiln := u.kiln } = u)) := by
  intro s u t hu hon
  refine ⟨fun x hx hhot hgap => congrArg Host.Outcome.next (thermalCapStep_hot hu hon hx hhot hgap), fun y hcool hsince hlong hgap => ?_⟩
  have hrun := thermalCapStep_cool hu hon hcool hsince hlong hgap
  by_cases hfull : min (getF u F.KILN_CAP_CAP_QW) (u.kiln.cap + 4) = getF u F.KILN_CAP_CAP_QW
  · rw [if_pos hfull] at hrun
    refine ⟨_, congrArg Host.Outcome.next hrun, rfl, ⟨fun _ => by omega, fun _ => ?_⟩, rfl⟩
    rw [isSet, getF_setF_same]
    rfl
  · rw [if_neg hfull] at hrun
    refine ⟨_, congrArg Host.Outcome.next hrun, rfl, ⟨fun h => ?_, fun h => by omega⟩, rfl⟩
    exact absurd (h.symm.trans hon) Bool.false_ne_true

/-- A sample of VIN in range, out of range, and below 6 V. -/
theorem vinSample_acts :
    (∀ (s u : State) (mv t : Nat), u = atPort t s →
      (10800 ≤ mv → mv ≤ 13200 → u.kiln.vinFault = false → ∃ v, exec (.vinSample mv t) s = .next v ∧ v.kiln.rangeSince = none ∧ v.kiln.badSince = none ∧
        v.kiln.goodSince.isSome = true ∧ { v with kiln := u.kiln } = u) ∧
      (6000 ≤ mv → (mv < 9600 ∨ 14000 < mv) → u.kiln.vinFault = false → (∀ x, u.kiln.badSince = some x → x + 10000 ≤ u.timeP) →
        u.kiln.badSince.isSome = true →
        ∃ v, exec (.vinSample mv t) s = .next v ∧ v.kiln.vinFault = true ∧ v.flt.faultN = true ∧ v.pwr.compOn = false ∧ v.pwr.portOn = false ∧
          v.emn.sealKey = false ∧ ∀ a, a < 0x800000000 → rdByte v.mem a = 0) ∧
      (mv < 6000 → ∃ v, exec (.vinSample mv t) s = .next v ∧ v.mem = [] ∧ v.flt = {} ∧ v.kiln = {} ∧ v.pwr.compOn = false ∧ v.pwr.portOn = false ∧
        v.emn.journal = u.emn.journal ∧ v.emn.slots = u.emn.slots ∧ v.fuse = u.fuse ∧ v.emn.sealed_ = none)) := by
  intro s u mv t hu
  refine ⟨fun hlow hhigh hfault => ?_, fun hmv hout hfault hlast hsome => ?_, fun hmv => ?_⟩
  · have hin : vinInRange mv = true := by rw [vinInRange, decide_eq_true hlow, decide_eq_true hhigh]; rfl
    have hbad : vinBad mv = false := by rw [vinBad, decide_eq_false (by omega), decide_eq_false (by omega)]; rfl
    have hrange : (vinNoted u mv).rangeSince = none := by
      show vinSince u (!vinInRange mv) u.kiln.rangeSince = none
      rw [hin]
      rfl
    have hbadSince : (vinNoted u mv).badSince = none := by
      show vinSince u (vinBad mv) u.kiln.badSince = none
      rw [hbad]
      rfl
    have hgood : (vinNoted u mv).goodSince.isSome = true := by
      show (vinSince u (vinInRange mv) u.kiln.goodSince).isSome = true
      rw [hin]
      rfl
    have hrun := vinSample_eq hu (by omega : 6000 ≤ mv) hfault
    have hdue : rangeDue u mv = false := by rw [rangeDue, hrange]; rfl
    have hbrief : lasts u none 10000 = false := rfl
    rw [hbadSince, hbrief, if_neg Bool.false_ne_true, vinWarned, hdue, if_neg Bool.false_ne_true] at hrun
    exact ⟨_, congrArg Host.Outcome.next hrun, hrange, hbadSince, hgood, rfl⟩
  · have hbad : vinBad mv = true := by
      unfold vinBad
      rcases hout with h | h
      · rw [decide_eq_true h, Bool.true_or]
      · rw [decide_eq_true h, Bool.or_true]
    obtain ⟨x, hx⟩ := Option.isSome_iff_exists.mp hsome
    have hlasts : lasts u (vinNoted u mv).badSince 10000 = true := by
      show lasts u (vinSince u (vinBad mv) u.kiln.badSince) 10000 = true
      rw [hbad, hx]
      exact any_since (hlast x hx)
    obtain ⟨z, hz⟩ := vinFault_eq (vinWarned u mv)
    have hrun := (vinSample_eq hu hmv hfault).trans ((if_pos hlasts).trans hz)
    obtain ⟨hvf, hfn, hpwr, hseal, hmem⟩ := vinFaulted_facts (loseDram (allOff z))
    obtain ⟨hcomp, hport⟩ := allOff_pwr z
    refine ⟨_, congrArg Host.Outcome.next hrun, hvf, hfn, ?_, ?_, hseal, fun a ha => ?_⟩
    · rw [hpwr]
      exact hcomp
    · rw [hpwr]
      exact hport
    · rw [hmem]
      exact rdByte_loseDram _ ha
  · have hrun := (vinSample_lost hu hmv).trans (vinLost_eq u)
    obtain ⟨hmem, hflt, hkiln, hpwr, hjournal, hslots, hfuse, hseal⟩ := vinGone_facts u (loseDram (allOff u))
    obtain ⟨hcomp, hport⟩ := allOff_pwr u
    refine ⟨_, congrArg Host.Outcome.next hrun, hmem, hflt, hkiln, ?_, ?_, hjournal, hslots, ?_, hseal⟩
    · rw [hpwr]
      exact hcomp
    · rw [hpwr]
      exact hport
    · rw [hfuse]
      exact (allOff_units u).2.2.2

/-- An ENTER from the system partition. -/
theorem emberEnter_acts :
    (∀ (s : State) (m : Master) (v : BitVec 31), regGate s true 5 0x78 m (2 * v.toNat + 1) = .pass → m.part = 0 → s.kiln.ember = 0 →
      ∃ t, exec (.emberEnter m v) s = .next t ∧ getF t F.KILN_EMBER_WAKE_EN = bitsOf (2 * v.toNat + 1) 1 3 ∧
        getF t F.KILN_EMBER_WAKE_MS = bitsOf (2 * v.toNat + 1) 8 24 ∧
        (emberRefused s = true → t.kiln = s.kiln ∧ isSet t F.KILN_EMBER_REFUSED = true ∧ { t with regs := s.regs } = s) ∧
        (emberRefused s = false → t.kiln.ember = 1 ∧ (s.flt.restarting = false → getF t F.HIF_DEVSTAT_BOOT = 5))) := by
  intro s m v hgate hpart hember
  have hrun := emberEnter_eq hgate hpart hember
  obtain ⟨hen, hms⟩ := emberSet_wake s (2 * v.toNat + 1)
  have hsame := emberSet_same s (2 * v.toNat + 1)
  cases href : emberRefused s with
  | true =>
    rw [if_pos href] at hrun
    refine ⟨_, congrArg Host.Outcome.next hrun, ?_, ?_, fun _ => ⟨(congrArg State.kiln hsame :), ArrayLaws.isSet_setF_one _ rfl, hsame⟩, fun h => Bool.noConfusion h⟩
    · rw [getF_setF_ne _ _ _ _ (by decide), hen]
    · rw [getF_setF_ne _ _ _ _ (by decide), hms]
  | false =>
    rw [if_neg (ne_true_of_eq_false href)] at hrun
    obtain ⟨h1, h2, h3, h4⟩ := emberBegin_facts (emberSet s (2 * v.toNat + 1))
    have hflt : (emberSet s (2 * v.toNat + 1)).flt = s.flt := (congrArg State.flt hsame :)
    exact ⟨_, congrArg Host.Outcome.next hrun, h2.trans hen, h3.trans hms, fun h => Bool.noConfusion h, fun _ => ⟨h1, fun hr => h4 (by rw [hflt]; exact hr)⟩⟩

/-- What Ember entry turns off, seals and keeps. -/
theorem emberEntered_keeps :
    (∀ (s u : State) (t : Nat), u = atPort t s → u.kiln.ember = 1 → u.drc.zero = [] → u.emn.update = none →
      ∃ v, exec (.emberEntryComplete t) s = .next v ∧ v.kiln.ember = 2 ∧ v.kiln.emberAt = u.timeP ∧ v.pwr.compOn = false ∧ v.pwr.portOn = false ∧
        v.emn.sealKey = true ∧ v.emn.sealed_.map (·.seq) = u.emn.booted.map (·.seq) ∧ v.qm = [] ∧ v.sec.slots = [] ∧
        (∀ a, a < 0x800000000 → rdByte v.mem a = rdByte u.mem a) ∧ getF v F.KILN_EMBER_WAKE_EN = getF u F.KILN_EMBER_WAKE_EN % 8 ∧
        (u.emn.booted.isSome = true → v.emn.sealed_.map (·.xts) = some u.drc.xts) ∧
        (isSet u F.DRC_STAT_READY = true → v.emn.drcKept = some (getF u F.DRC_CFG_HASH, getF u F.DRC_CFG_IBECC, getF u F.DRC_CFG_PAGE_DEFAULT, trained u))) := by
  intro s u t hu hember hzero hupd
  have hrun := emberEntered_eq hu hember hzero hupd
  obtain ⟨hpwr', htime, hqmz, hsecz, hmemz⟩ := restored_units u (allOff u)
  obtain ⟨hem, hat, hpwr, hkey, hseal, hqm, hsec, hmem, hkept, hregs⟩ := inEmber_facts u (restored u (allOff u))
  obtain ⟨hqm', hsec', htime', -⟩ := allOff_units u
  refine ⟨_, congrArg Host.Outcome.next hrun, hem, ?_, ?_, ?_, hkey, ?_, ?_, ?_, fun a ha => ?_, (RaiseLaws.getF_of_regs hregs _).trans (getF_restored u (allOff u)), fun hb => ?_, fun hready => ?_⟩
  · exact hat.trans (htime.trans htime')
  · rw [hpwr, hpwr', (allOff_pwr u).1]
  · rw [hpwr, hpwr', (allOff_pwr u).2]
  · rw [hseal, sealOf, Option.map_map]
    rfl
  · exact hqm.trans (hqmz.trans hqm')
  · rw [hsec, hsecz, hsec']
  · rw [hmem, hmemz, rdByte_allOff_dram u ha]
  · obtain ⟨r, hr⟩ := Option.isSome_iff_exists.mp hb
    rw [hseal, sealOf, hr]
    rfl
  · rw [hkept, drcOf, if_pos hready]

/-- A wake: a rekindle or the cold path. -/
theorem emberWake_boots :
    (∀ (s u : State) (src t : Nat) (good : Bool), u = atPort t s → u.kiln.ember = 2 → wakes u src = true → u.kiln.tripped = false →
      u.kiln.vinFault = false →
      ∃ v, exec (.emberWake src good t) s = .next v ∧ v.kiln.ember = 0 ∧ v.pwr.compOn = true ∧ v.pwr.portOn = true ∧
        getF v F.KILN_EMBER_LAST_WAKE = src ∧ (rekindles u good = true → v.emn.booted = (slotRecs u.emn.journal).head? ∧
          getF v F.EMN_BOOT_STAT_STAGE = 4 ∧ v.emn.sealed_ = u.emn.sealed_ ∧ v.flt = u.flt ∧ v.mem = u.mem ∧
          v.drc.xts = (u.emn.sealed_.map (·.xts)).getD [] ∧ (∀ h e p x, u.emn.drcKept = some (h, e, p, x) → v.drc.trn = x ∧ isSet v F.DRC_STAT_READY = true ∧
            getF v F.DRC_CFG_HASH = h % 4 ∧ getF v F.DRC_CFG_IBECC = e % 2 ∧ getF v F.DRC_CFG_PAGE_DEFAULT = p % 2)) ∧
        (rekindles u good = false → v.emn.sealed_ = none)) := by
  intro s u src t good hu hember hwakes htrip hvin
  have hrun := emberWake_cases good hu hember hwakes htrip hvin
  obtain ⟨hw0, hwemn, hwfuse, hwflt, hwmem, hwport⟩ := woken_units u src
  have hsrc := getF_woken u (wakes_src hwakes)
  cases hre : rekindles u good with
  | true =>
    rw [if_pos hre] at hrun
    obtain ⟨h1, h2, h3, h4, h5, h6, h7, h8, -⟩ := kindled_restored (rekindled (rekindleShown (woken u src)) (slotRecs u.emn.journal).head?)
    obtain ⟨r1, r2, r3, r4, r5, r6⟩ := rekindled_units (rekindleShown (woken u src)) (slotRecs u.emn.journal).head?
    obtain ⟨q1, q2, q3, q4, q5⟩ := rekindleShown_units (woken u src)
    obtain ⟨g1, g2⟩ := getF_rekindleShown (woken u src)
    have hkeep : ∀ y, (∀ x ∈ [F.DRC_CFG_HASH, F.DRC_CFG_IBECC, F.DRC_CFG_PAGE_DEFAULT, F.DRC_CFG_INIT, F.DRC_STAT_READY], y.key ≠ x.key) →
        getF (kindled (restoreXts (restoreDrc (rekindled (rekindleShown (woken u src)) (slotRecs u.emn.journal).head?)))) y =
          getF (rekindleShown (woken u src)) y := fun y hy =>
      (RaiseLaws.getF_of_regs h8 y).trans ((getF_restoreDrc_ne _ hy).trans (RaiseLaws.getF_of_regs r6 y))
    have hsealed : (rekindled (rekindleShown (woken u src)) (slotRecs u.emn.journal).head?).emn.sealed_ = u.emn.sealed_ := by rw [r5, q5, hwemn]
    refine ⟨_, congrArg Host.Outcome.next hrun, ?_, ?_, ?_, (hkeep _ (by decide)).trans (g2.trans hsrc), fun _ => ⟨?_, (hkeep _ (by decide)).trans g1,
      h5.trans hsealed, ?_, ?_, ?_, fun h e p x hk => ?_⟩, fun h => Bool.noConfusion h⟩
    · exact (congrArg Kiln.ember (h1.trans (r1.trans q1))).trans hw0
    · exact congrArg Pwr.compOn (h2.trans r2)
    · exact (congrArg Pwr.portOn (h2.trans r2)).trans ((congrArg Pwr.portOn q2).trans hwport)
    · rw [h6, r5]
    · rw [h3, r3, q3, hwflt]
    · rw [h4, r4, q4, hwmem]
    · rw [h7, hsealed]
    · exact kindled_settings (by rw [r5, q5, hwemn]; exact hk)
  | false =>
    rw [if_neg (ne_true_of_eq_false hre)] at hrun
    obtain ⟨h1, h2, h3, h4, h5⟩ := selectImage_wakes (w := unsealed (woken u src)) hw0 hsrc rfl
    obtain ⟨hk, hp, -, -, hs, -⟩ := restoreDrc_units (selectImage (unsealed (woken u src)))
    by_cases hboot : (selectImage (unsealed (woken u src))).emn.booted.isSome = true
    · rw [if_pos hboot] at hrun
      refine ⟨_, congrArg Host.Outcome.next hrun, ?_, ?_, ?_, (getF_restoreDrc_ne _ (by decide)).trans h2, fun h => Bool.noConfusion h, fun _ => hs.trans h3⟩
      · rw [hk, h1]
      · rw [hp, h4]
      · rw [hp, h5]
    · rw [if_neg hboot] at hrun
      exact ⟨_, congrArg Host.Outcome.next hrun, h1, h4, h5, h2, fun h => Bool.noConfusion h, fun _ => h3⟩

/-- A module's presence pin. -/
theorem modAbs_follows :
    (∀ (s : State) (p : Fin 4) (low : Bool), p.val < s.pins.modIn.length →
      ∃ t, exec (.modAbsChange p low) s = .next t ∧ nth t.pins.modIn p.val false = low ∧
        (∀ q, q ≠ p.val → nth t.pins.modIn q false = nth s.pins.modIn q false) ∧ { t with pins := { t.pins with modIn := s.pins.modIn } } = s) :=
  fun s p low hp => ⟨modAbsChange p.val low s, rfl, WordLaws.nth_set_same _ _ hp, fun _ hq => WordLaws.nth_set_ne _ _ (Ne.symm hq), rfl⟩

/-- An overcurrent of a cage. -/
theorem overcurrent_latches :
    (∀ (s : State) (p : Fin 4), p.val < s.pins.latched.length → s.flt.port.queue.length < 32 →
      (vmodOn s p.val = true → ∃ t r, exec (.vmodOvercurrent p) s = .next t ∧ nth t.pins.latched p.val false = true ∧ vmodOn t p.val = false ∧
        (∀ c, c < 8 → tabGet t.net.egress (8 * p.val + c) [] = []) ∧
        getF t (F.NET_PORT_CFG_LINK p.val) = 0 ∧ t.flt.port.queue = s.flt.port.queue ++ [r] ∧ r.code = 0x0210 ∧ r.cls = 0) ∧
      (vmodOn s p.val = false → exec (.vmodOvercurrent p) s = .next s)) := by
  intro s p hp hroom
  refine ⟨fun h => ?_, fun h => congrArg Host.Outcome.next (if_neg (ne_true_of_eq_false h))⟩
  obtain ⟨hpins, hflt, hegress, hlink⟩ := cageOff_facts s p.val
  have hsame := raise_same (cageOff s p.val) true 0x0210 0 none netBlock 0xFFFF []
  have hpins' : (netRaise (cageOff s p.val) 0x0210 none).pins = (cageOff s p.val).pins := (congrArg State.pins hsame :)
  have hlatched : nth (netRaise (cageOff s p.val) 0x0210 none).pins.latched p.val false = true := by
    rw [hpins', hpins]
    exact WordLaws.nth_set_same _ _ hp
  have hqueue := RaiseLaws.raise_queue (cageOff s p.val) true 0x0210 0 none netBlock 0xFFFF [] hroom
  refine ⟨_, _, congrArg Host.Outcome.next (vmodOvercurrent_on h), hlatched, vmodOn_latched hlatched, fun c hc => ?_, ?_, hqueue, rfl, rfl⟩
  · have hnet : (netRaise (cageOff s p.val) 0x0210 none).net = (cageOff s p.val).net := (congrArg State.net hsame :)
    rw [hnet, hegress]
    exact tabGet_tabDrop_in _ _ _ _ _ (by omega)
  · exact (RaiseLaws.getF_raise_ne _ _ _ _ _ _ _ _ (link_key p.val)).trans hlink

/-- Settles O48, each clause by the event it speaks of. -/
theorem heatSupplyAndEmberAct : Obligations.HeatSupplyAndEmberAct := by
  unfold Obligations.HeatSupplyAndEmberAct
  exact ⟨thermalSample_acts, thermalCap_steps, vinSample_acts, emberEnter_acts, emberEntered_keeps, emberWake_boots, modAbs_follows, overcurrent_latches⟩

end Sys2Proof.HeatLaws
end

section
/-! What Emino's reads leave as they were, the commands of EMN_PART_CMD, and the quarantine (R464, R475). -/

namespace Sys2Proof.PartLaws

open Sys2Proof Sys2Proof.Machine Sys2Proof.CodecLaws

/-! ### Reads and register checks -/

theorem bump_sameButAccess (s : State) (x : Fld) (k : Nat) : SameButAccess s (bump s x k) := rfl

theorem setWriteBack_sameButAccess (s : State) (l : List Nat) : SameButAccess s { s with mapu := { s.mapu with writeBack := l } } := rfl

theorem setBad_sameButAccess (s : State) (l : Tab Nat) : SameButAccess s { s with mapu := { s.mapu with bad := l } } := rfl

theorem eccRead_sameButAccess (s : State) (m : Master) (a : Nat) : SameButAccess s (eccRead s m a).1 := by
  have hone : SameButAccess s (if (rowWords a).any (fun w => tabGet s.mapu.bad w 0 == 1) then
      let s := raise s false 0x0122 1 none (eccBlock 0x0122 a) 0xFFFF []
      let s := match region a with
        | .mapStore => bump s F.MAP_STAT_CORRECTED 1
        | _ => s
      { s with mapu := { s.mapu with writeBack := (s.mapu.writeBack.filter (· != a / 512)) ++ [a / 512] } } else s) := by
    split
    · dsimp only
      refine .trans (.trans (raise_sameButAccess s false 0x0122 1 none (eccBlock 0x0122 a) 0xFFFF []) ?_) (setWriteBack_sameButAccess ..)
      split
      · exact bump_sameButAccess ..
      · exact .refl _
    · exact .refl s
  unfold eccRead
  split
  · exact .refl s
  · dsimp only
    split
    · exact hone.trans (raise_sameButAccess ..)
    · exact hone

theorem dramEcc_sameButAccess (s : State) (m : Master) (a n : Nat) : SameButAccess s (dramEcc s m a n).1 := by
  unfold dramEcc
  split
  · exact .refl s
  · dsimp only
    split
    · have hcorrected := fun l => (setBad_sameButAccess s l).trans (raise_sameButAccess _ false 0x0164 1 none drcBlock 0xFFFF [])
      split
      · exact (hcorrected _).trans (raise_sameButAccess ..)
      · exact hcorrected _
    · split
      · exact raise_sameButAccess ..
      · exact .refl s

theorem busRead_sameButAccess (s : State) (m : Master) (port : Port) (a n : Nat) : SameButAccess s (busRead s m port a n).s := by
  have hgate := busGate_keeps s m port a n false 0
  unfold busRead
  split
  case h_1 t y hrefused => rwa [hrefused] at hgate
  case h_2 => exact .refl s
  case h_3 =>
    dsimp only
    split
    · exact eccRead_sameButAccess s m a
    · exact eccRead_sameButAccess s m a
    · exact eccRead_sameButAccess s m a
    · exact dramEcc_sameButAccess s m a n
    · exact .refl s

theorem netRead_sameButAccess (k : Nat) (s : State) (m : Master) (a n : Nat) : SameButAccess s (netRead s m k a n).1 := by
  induction k generalizing s a n with
  | zero => exact .refl s
  | succ k ih =>
    unfold netRead
    split
    · exact .refl s
    · dsimp only
      split
      · exact (busRead_sameButAccess ..).trans (ih ..)
      · exact busRead_sameButAccess ..

theorem eminoRead_sameButAccess (s : State) (a n : Nat) : SameButAccess s (eminoRead s a n).1 := netRead_sameButAccess ..

section
variable {s t : State} (h : SameButAccess s t)
include h

theorem parts_of_access : t.parts = s.parts := (congrArg State.parts h :)

theorem sec_of_access : t.sec = s.sec := (congrArg State.sec h :)

end

/-- A register access that is refused changes nothing but what an access can. -/
theorem accGate_sameButAccess {s t : State} {p : Bool} {b o : Nat} {m : Master} {wr : Bool} {v : Nat} (h : accGate s p b o m wr v = .refused t) :
    SameButAccess s t := by
  have hlog : ∀ x w addr reason data, SameButAccess s (rlogAdd (setF s x w) addr m reason data) := fun x w addr reason data =>
    (setF_sameButAccess s x w).trans (rlogAdd_sameButAccess ..)
  unfold accGate at h
  split at h
  · cases h; exact .refl s
  split at h
  · cases h; exact raise_sameButAccess ..
  split at h
  · cases h; exact hlog ..
  split at h
  · cases h; exact hlog ..
  split at h
  · cases h; exact hlog ..
  · cases h

/-- A write that its register's checks pass acts; any other changes nothing but what an access can. -/
theorem gated_cases (s : State) (p : Bool) (b o : Nat) (m : Master) (v : Nat) (act : State → State) :
    gated s p b o m v act = act s ∨ SameButAccess s (gated s p b o m v act) := by
  unfold gated
  split
  · exact .inr (accGate_sameButAccess ‹_›)
  · exact .inl rfl

theorem gated_pass {s : State} {p : Bool} {b o : Nat} {m : Master} {v : Nat} (act : State → State) (h : regGate s p b o m v = .pass) :
    gated s p b o m v act = act s := by
  unfold gated
  rw [h]

/-! ### The commands (R464) -/

/-- A command is carried out, or Emino is busy. -/
def ifIdle (act : State → State) (s : State) : State := if eminoBusy s then partResult s 5 else act s

theorem ifIdle_idle {s : State} (act : State → State) (h : eminoBusy s = false) : ifIdle act s = act s := if_neg (ne_true_of_eq_false h)

theorem ifIdle_busy {s : State} (act : State → State) (h : eminoBusy s = true) : ifIdle act s = partResult s 5 := if_pos h

theorem bitsOf_part (p : BitVec 3) (c : Nat) : bitsOf (p.toNat + 8 * c) 0 3 = p.toNat := by
  have := p.isLt
  simp only [bitsOf]
  omega

theorem bitsOf_cmd (p : BitVec 3) {c : Nat} (hc : c < 8) : bitsOf (p.toNat + 8 * c) 3 3 = c := by
  have := p.isLt
  simp only [bitsOf]
  omega

theorem create_eq (m : Master) (p : BitVec 3) (ok : Bool) (s : State) : partCmdWrite m (p.toNat + 8 * 1) ok s =
    gated s true 4 0x38 m (p.toNat + 8 * 1) (ifIdle (createPart p.toNat)) := by
  unfold partCmdWrite
  rw [bitsOf_part, bitsOf_cmd p (by decide)]
  exact congrArg (gated s true 4 0x38 m _) (funext fun t => if_neg (by decide))

theorem loadFw_eq (m : Master) (p : BitVec 3) (ok : Bool) (s : State) : partCmdWrite m (p.toNat + 8 * 2) ok s =
    gated s true 4 0x38 m (p.toNat + 8 * 2) (ifIdle (loadFw p.toNat ok)) := by
  unfold partCmdWrite
  rw [bitsOf_part, bitsOf_cmd p (by decide)]
  exact congrArg (gated s true 4 0x38 m _) (funext fun t => if_neg (by decide))

theorem start_eq (m : Master) (p : BitVec 3) (ok : Bool) (s : State) : partCmdWrite m (p.toNat + 8 * 3) ok s =
    gated s true 4 0x38 m (p.toNat + 8 * 3) (ifIdle (startPart p.toNat)) := by
  unfold partCmdWrite
  rw [bitsOf_part, bitsOf_cmd p (by decide)]
  exact congrArg (gated s true 4 0x38 m _) (funext fun t => if_neg (by decide))

theorem teardown_eq (m : Master) (p : BitVec 3) (ok : Bool) (s : State) : partCmdWrite m (p.toNat + 8 * 4) ok s =
    gated s true 4 0x38 m (p.toNat + 8 * 4) (ifIdle (teardown p.toNat)) := by
  unfold partCmdWrite
  rw [bitsOf_part, bitsOf_cmd p (by decide)]
  exact congrArg (gated s true 4 0x38 m _) (funext fun t => if_neg (by decide))

theorem cycle_eq (m : Master) (q : BitVec 2) (ok : Bool) (s : State) : partCmdWrite m (8 * 5 + 64 * q.toNat) ok s =
    gated s true 4 0x38 m (8 * 5 + 64 * q.toNat) (ifIdle (cycleQuarter q.toNat)) := by
  have hq := q.isLt
  have hcmd : bitsOf (8 * 5 + 64 * q.toNat) 3 3 = 5 := by simp only [bitsOf]; omega
  have hquarter : bitsOf (8 * 5 + 64 * q.toNat) 6 2 = q.toNat := by simp only [bitsOf]; omega
  unfold partCmdWrite
  rw [hcmd, hquarter]
  exact congrArg (gated s true 4 0x38 m _) (funext fun t => if_neg (by decide))

/-! ### The quarantine (R475) -/

/-- Where the descriptor stands, or the image. -/
def partAddr (s : State) : Nat := getF s F.EMN_PART_ADDR_LO_ADDR * 64 + getF s F.EMN_PART_ADDR_HI_ADDR * 2 ^ 32

/-- The partition that a descriptor's CREATE makes, with the queues it owns bound to it. -/
def bound (s : State) (p : Nat) (d : Bytes) : State :=
  setP (bindQueues s (descPart d).qBase (descPart d).qCount (fun q => { q with part := p })) p (descPart d)

/-- Its share and its lay-by area. -/
def areaSet (s : State) (p : Nat) (d : Bytes) : State :=
  setF (setF (setF s (F.SCH_SHARE_US p) (leAt d 52 4)) (F.LBY_BASE_LO_ADDR p) (bitsOf (leAt d 56 8) 12 20)) (F.LBY_BASE_HI_ADDR p)
    (bitsOf (leAt d 56 8) 32 16)

/-- Its lay-by key. -/
def keyDrawn (s : State) (p : Nat) : State :=
  { drawn s with sch := { s.sch with keys := tabPut s.sch.keys p (some { key := Config.randomKey s.free }) none } }

/-- CREATE from what the read of its descriptor left. -/
def createFrom (p : Nat) (r : State × Option Bytes) : State :=
  if p = 0 ∨ (getP r.1 p).st ≠ 0 then partResult r.1 1
  else if r.2 = none ∨ descOk r.1 p (r.2.getD []) = false then partResult r.1 2
  else if Nat.land (descPart (r.2.getD [])).banks r.1.sec.quar ≠ 0 then partResult r.1 3
  else partResult (keyDrawn (areaSet (bound r.1 p (r.2.getD [])) p (r.2.getD [])) p) 0

theorem createPart_from (p : Nat) (s : State) : createPart p s = createFrom p (eminoRead s (partAddr s) 64) := rfl

/-- A descriptor whose banks meet the quarantine makes no partition. -/
theorem createFrom_quarantined {p : Nat} {r : State × Option Bytes} (hquar : ∀ d, r.2 = some d → Nat.land (descPart d).banks r.1.sec.quar ≠ 0) :
    (createFrom p r).parts = r.1.parts := by
  unfold createFrom
  split
  · rfl
  split
  · rfl
  · rename_i hvalid
    rw [not_or] at hvalid
    obtain ⟨d, hd⟩ := Option.ne_none_iff_exists'.mp hvalid.1
    rw [if_pos (by rw [hd]; exact hquar d hd)]
    rfl

theorem createPart_quarantined {s : State} (p : Nat)
    (hquar : ∀ d, (eminoRead s (partAddr s) 64).2 = some d → Nat.land (descPart d).banks s.sec.quar ≠ 0) : (createPart p s).parts = s.parts := by
  have hkeep := eminoRead_sameButAccess s (partAddr s) 64
  rw [createPart_from, createFrom_quarantined, parts_of_access hkeep]
  rw [sec_of_access hkeep]
  exact hquar

theorem create_quarantined {s : State} (m : Master) (p : BitVec 3)
    (hquar : ∀ d, (eminoRead s (partAddr s) 64).2 = some d → Nat.land (descPart d).banks s.sec.quar ≠ 0) :
    (partCmdWrite m (p.toNat + 8 * 1) true s).parts = s.parts := by
  rw [create_eq]
  rcases gated_cases s true 4 0x38 m (p.toNat + 8 * 1) (ifIdle (createPart p.toNat)) with h | h
  · rw [h, ifIdle]
    split
    · rfl
    · exact createPart_quarantined p.toNat hquar
  · exact parts_of_access h

/-- The partition is FREE, and its banks are quarantined. -/
def tornDown (s : State) (p : Nat) : State :=
  setF (partResult (setP { s with sec := { s.sec with cmd := none, quar := Nat.lor s.sec.quar (getP s p).banks } } p {}) 0) F.EMN_PART_STAT_BUSY 0

theorem teardownDone_eq {s : State} {c p : Nat} (hcmd : s.sec.cmd = some (c, p)) :
    teardownDone s = if s.sec.scrubLeft ≠ 0 then s else tornDown s p := by
  unfold teardownDone
  rw [hcmd]
  rfl

theorem getP_setP_same {s : State} {p : Nat} (x : Part) (h : p < s.parts.length) : getP (setP s p x) p = x := WordLaws.nth_set_same _ _ h

theorem getP_setP_ne {s : State} {p q : Nat} (x : Part) (h : q ≠ p) : getP (setP s p x) q = getP s q := WordLaws.nth_set_ne _ _ (Ne.symm h)

theorem tornDown_sec (s : State) (p : Nat) : (tornDown s p).sec = { s.sec with cmd := none, quar := Nat.lor s.sec.quar (getP s p).banks } := rfl

theorem getP_tornDown_same {s : State} {p : Nat} (h : p < s.parts.length) : getP (tornDown s p) p = {} := getP_setP_same (s := s) {} h

theorem getP_tornDown_ne {s : State} {p q : Nat} (h : q ≠ p) : getP (tornDown s p) q = getP s q := getP_setP_ne (s := s) {} h

/-- A quarter's mask of banks. -/
theorem testBit_mask (q b : Nat) : (255 * 2 ^ (8 * q)).testBit b = (b / 8 == q) := by
  have h255 : ∀ k, Nat.testBit 255 k = decide (k < 8) := fun k => by
    rw [show (255 : Nat) = 2 ^ 8 - 1 from rfl, Nat.testBit_two_pow_sub_one]
  rw [Nat.testBit_mul_two_pow, h255, Bool.eq_iff_iff]
  simp only [Bool.and_eq_true, decide_eq_true_eq, beq_iff_eq]
  omega

/-- The bits of `m` cleared from `x`, by the lowest bit. -/
theorem sub_land_div_two (x m : Nat) : (x - (x &&& m)) / 2 = x / 2 - (x / 2 &&& m / 2) ∧
    (x - (x &&& m)) % 2 = 1 ∧ ¬ m % 2 = 1 ∧ x % 2 = 1 ∨ (x - (x &&& m)) / 2 = x / 2 - (x / 2 &&& m / 2) ∧ (x - (x &&& m)) % 2 = 0 ∧
      (m % 2 = 1 ∨ x % 2 = 0) := by
  have hdiv := Nat.and_div_two (a := x) (b := m)
  have hmod := Nat.and_mod_two_eq_one (a := x) (b := m)
  have hle : x / 2 &&& m / 2 ≤ x / 2 := Nat.and_le_left
  generalize x &&& m = y at *
  omega

theorem testBit_sub_land (x m b : Nat) : (x - (x &&& m)).testBit b = (x.testBit b && !m.testBit b) := by
  induction b generalizing x m with
  | zero =>
    simp only [Nat.testBit_zero]
    rcases sub_land_div_two x m with ⟨-, h1, h2, h3⟩ | ⟨-, h1, h2⟩
    · simp [h1, h2, h3]
    · rcases h2 with h2 | h2 <;> simp [h1, h2]
  | succ b ih =>
    have hdiv : (x - (x &&& m)) / 2 = x / 2 - (x / 2 &&& m / 2) := by
      rcases sub_land_div_two x m with ⟨h, -⟩ | ⟨h, -⟩ <;> exact h
    rw [Nat.testBit_add_one, hdiv, ih, Nat.testBit_add_one, Nat.testBit_add_one]

/-- The banks of a quarter leave the quarantine, and no others. -/
theorem bitOf_freed (v q b : Nat) : bitOf (v - Nat.land v (255 * 2 ^ (8 * q))) b = (bitOf v b && !(b / 8 == q)) := by
  rw [CameraLaws.bitOf_eq_testBit, CameraLaws.bitOf_eq_testBit, ← testBit_mask]
  exact testBit_sub_land v _ b

theorem bitOf_lor (v w b : Nat) : bitOf (Nat.lor v w) b = (bitOf v b || bitOf w b) := by
  simp only [CameraLaws.bitOf_eq_testBit]
  exact Nat.testBit_or v w b

/-! ### CYCLE_QUARTER (R475) -/

/-- A quarter loses what it holds. -/
theorem loseDomain_quarter (s : State) {q : Nat} (hq : q < 4) : loseDomain s (domQuarter q) =
    setF (setF (zeroMem s (mapBase + q * 0x4000000) 0x4000000) (F.MAP_AO_AO (2 * q)) 0) (F.MAP_AO_AO (2 * q + 1)) 0 := by
  unfold loseDomain domQuarter
  rw [if_neg (by omega), if_pos (by omega), Nat.add_sub_cancel_left]

/-- A powered quarter is powered down. -/
def quarterDown (s : State) (q : Nat) : State :=
  if powered s (domQuarter q) then
    { loseDomain s (domQuarter q) with
        pwr := { s.pwr with off := s.pwr.off ++ [domQuarter q] }
        arr := { s.arr with settling := s.arr.settling.filter (· != domQuarter q) } }
  else s

theorem domainDown_quarter (s : State) {q : Nat} (hq : q < 4) : domainDown s (domQuarter q) = quarterDown s q := by
  unfold domainDown quarterDown
  rw [loseDomain_quarter s hq]
  have hdom : domQuarter q < domCount := by unfold domQuarter domCount; omega
  simp only [hdom, true_and]
  rfl

/-- A quarter that is down is powered up. -/
def quarterUp (s : State) (q : Nat) : State :=
  if powered s (domQuarter q) then s
  else { s with pwr := { s.pwr with
                           off := s.pwr.off.filter (· != domQuarter q)
                           cyc := (domClks (domQuarter q)).foldl (fun l i => l.set i 0) s.pwr.cyc } }

theorem domainUp_quarter (s : State) {q : Nat} (hq : q < 4) : domainUp s (domQuarter q) = quarterUp s q := by
  have hdom : domQuarter q < domCount := by unfold domQuarter domCount; omega
  have hcol : ¬ domQuarter q < 16 := by unfold domQuarter; omega
  unfold domainUp quarterUp
  cases powered s (domQuarter q) with
  | true => rw [if_neg (fun h => Bool.false_ne_true h.2), if_pos rfl]
  | false => rw [if_pos ⟨hdom, rfl⟩, if_neg Bool.false_ne_true]; exact if_neg hcol

theorem powered_quarterUp (s : State) (q : Nat) : powered (quarterUp s q) (domQuarter q) = true := by
  unfold quarterUp
  split
  · assumption
  · unfold powered
    rw [Bool.not_eq_true', ← Bool.not_eq_true, List.contains_iff_mem]
    exact fun h => by simpa using (List.mem_filter.mp h).2

theorem quarterUp_units (s : State) (q : Nat) : (quarterUp s q).mem = s.mem ∧ (quarterUp s q).parts = s.parts ∧ (quarterUp s q).flt = s.flt ∧
    (quarterUp s q).sec = s.sec := by
  unfold quarterUp
  split <;> exact ⟨rfl, rfl, rfl, rfl⟩

theorem quarterDown_units (s : State) {q : Nat} (hq : q < 4) : (quarterDown s q).mem =
      (if powered s (domQuarter q) then tabDrop s.mem (mapBase + q * 0x4000000) 0x4000000 else s.mem) ∧
    (quarterDown s q).parts = s.parts ∧ (quarterDown s q).flt = s.flt ∧ (quarterDown s q).sec = s.sec := by
  unfold quarterDown
  rw [loseDomain_quarter s hq]
  split <;> exact ⟨rfl, rfl, rfl, rfl⟩

/-- The banks of a quarter are free. -/
def quarterFree (s : State) (q : Nat) : State :=
  partResult { s with sec := { s.sec with quar := s.sec.quar - Nat.land s.sec.quar (255 * 2 ^ (8 * q)) } } 0

theorem quarterFree_units (s : State) (q : Nat) : (quarterFree s q).mem = s.mem ∧ (quarterFree s q).parts = s.parts ∧ (quarterFree s q).flt = s.flt ∧
    (quarterFree s q).sec.quar = s.sec.quar - Nat.land s.sec.quar (255 * 2 ^ (8 * q)) ∧ (quarterFree s q).pwr = s.pwr ∧
    getF (quarterFree s q) F.EMN_PART_STAT_RESULT = 0 := ⟨rfl, rfl, rfl, rfl, rfl, getF_setF_same ..⟩

theorem cycleQuarter_free {s : State} {q : Nat} (hq : q < 4) (h : ∀ x ∈ s.parts, x.st ≠ 0 → Nat.land x.banks (255 * 2 ^ (8 * q)) = 0) :
    cycleQuarter q s = quarterFree (quarterUp (quarterDown s q) q) q := by
  have hnone : s.parts.any (fun x => x.st != 0 && Nat.land x.banks (255 * 2 ^ (8 * q)) != 0) = false :=
    List.any_eq_false.mpr (fun x hx => by have := h x hx; simpa using this)
  unfold cycleQuarter
  dsimp only
  rw [hnone, if_neg Bool.false_ne_true, domainDown_quarter s hq, domainUp_quarter _ hq]
  rfl

theorem cycleQuarter_owned {s : State} {q : Nat} {x : Part} (hx : x ∈ s.parts) (hst : x.st ≠ 0) (hbanks : Nat.land x.banks (255 * 2 ^ (8 * q)) ≠ 0) :
    cycleQuarter q s = partResult s 1 :=
  if_pos (List.any_eq_true.mpr ⟨x, hx, by rw [Bool.and_eq_true, bne_iff_ne, bne_iff_ne]; exact ⟨hst, hbanks⟩⟩)

/-- Settles O51, each clause by the command it speaks of. -/
theorem quarantineHolds : Obligations.QuarantineHolds := by
  unfold Obligations.QuarantineHolds
  refine ⟨?create, ?complete, ?cycle, ?owned⟩
  case create =>
    rintro s m p a rfl hquar
    exact ⟨_, rfl, create_quarantined m p hquar⟩
  case complete =>
    intro s c p b hcmd hscrub hp hb
    have hrun := teardownDone_eq hcmd
    rw [if_neg (by rw [hscrub]; decide)] at hrun
    refine ⟨_, congrArg Host.Outcome.next hrun, by rw [getP_tornDown_same hp], ?_⟩
    rw [tornDown_sec, bitOf_lor, hb, Bool.or_true]
  case cycle =>
    intro s m q hgate hidle hfree
    have hq : q.toNat < 4 := q.isLt
    have hrun : partCmdWrite m (8 * 5 + 64 * q.toNat) true s = quarterFree (quarterUp (quarterDown s q.toNat) q.toNat) q.toNat := by
      rw [cycle_eq, gated_pass _ hgate, ifIdle_idle _ hidle, cycleQuarter_free hq hfree]
    obtain ⟨f1, f2, f3, f4, f5, f6⟩ := quarterFree_units (quarterUp (quarterDown s q.toNat) q.toNat) q.toNat
    obtain ⟨u1, u2, u3, u4⟩ := quarterUp_units (quarterDown s q.toNat) q.toNat
    obtain ⟨d1, d2, d3, d4⟩ := quarterDown_units s hq
    have hmem := f1.trans (u1.trans d1)
    refine ⟨_, congrArg Host.Outcome.next hrun, f6, ?_, fun b => ?_, fun hon a hlo hhi => ?_, fun a hout => ?_, f2.trans (u2.trans d2), f3.trans (u3.trans d3)⟩
    · unfold powered
      rw [f5]
      exact powered_quarterUp _ _
    · rw [f4, u4, d4, bitOf_freed]
    · rw [hmem, if_pos hon]
      exact tabGet_tabDrop_in _ _ _ _ _ (by omega)
    · rw [hmem]
      split
      · exact tabGet_tabDrop_out _ _ _ _ _ (by omega)
      · rfl
  case owned =>
    intro s m q x hgate hidle hx hst hbanks
    refine congrArg Host.Outcome.next ?_
    rw [cycle_eq, gated_pass _ hgate, ifIdle_idle _ hidle, cycleQuarter_owned hx hst hbanks]

end Sys2Proof.PartLaws
end

section
/-! The life of a partition: CREATE, LOAD_FW, START, TEARDOWN and its completion (R463, R464, R470, R474). -/

namespace Sys2Proof.PartLaws

open Sys2Proof Sys2Proof.Machine Sys2Proof.CodecLaws

/-! ### CREATE -/

theorem find_bound (l : List Nat) (base : Nat) (g : Nat → Queue) {i : Nat} (hi : i ∈ l) (hl : l.Nodup) (hg : g i ≠ {}) :
    ((l.map (fun i => (base + i, g i))).filter (fun x => x.2 != {})).find? (fun x => x.1 == base + i) = some (base + i, g i) := by
  induction l with
  | nil => cases hi
  | cons k l ih =>
    obtain ⟨hk, hl⟩ := List.nodup_cons.mp hl
    rw [List.map_cons]
    rcases List.mem_cons.mp hi with rfl | hi
    · rw [List.filter_cons_of_pos (by simpa using hg)]
      exact List.find?_cons_of_pos (by simp)
    · have hne : k ≠ i := fun h => hk (h ▸ hi)
      by_cases hdrop : g k = {}
      · rw [List.filter_cons_of_neg (by simp [hdrop])]
        exact ih hi hl
      · rw [List.filter_cons_of_pos (by simpa using hdrop), List.find?_cons_of_neg (by simpa using hne)]
        exact ih hi hl

theorem find_bound_none (l : List Nat) (base : Nat) (g : Nat → Queue) {k : Nat} (h : ∀ i ∈ l, base + i = k → g i = {}) :
    ((l.map (fun i => (base + i, g i))).filter (fun x => x.2 != {})).find? (fun x => x.1 == k) = none := by
  apply find_key_none
  intro x hx hkey
  obtain ⟨hx, hkept⟩ := List.mem_filter.mp hx
  obtain ⟨i, hi, rfl⟩ := List.mem_map.mp hx
  simp [h i hi hkey] at hkept

/-- The queues of a range after they take a binding. -/
theorem getQ_bindQueues_in {s : State} {base n q : Nat} (f : Queue → Queue) (hlo : base ≤ q) (hhi : q < base + n) :
    getQ (bindQueues s base n f) q = f (getQ s q) := by
  obtain ⟨i, rfl⟩ := Nat.exists_eq_add_of_le hlo
  have hi : i ∈ List.range n := List.mem_range.mpr (by omega)
  have h1 := find_key_dropped s.qm (base + i) (fun x => decide (x.1 < base)) (fun x hx => by simp [hx])
  have h2 := find_key_dropped s.qm (base + i) (fun x => decide (base + n ≤ x.1)) (fun x hx => by simp [hx]; omega)
  unfold bindQueues getQ tabGet
  dsimp only
  rw [List.find?_append, List.find?_append, h1, h2]
  by_cases hg : f (getQ s (base + i)) = {}
  · rw [find_bound_none _ _ _ (fun j hj hkey => by rw [show j = i by omega]; exact hg)]
    exact hg.symm
  · rw [find_bound _ _ _ hi List.nodup_range hg]
    rfl

/-- The queues outside it. -/
theorem getQ_bindQueues_out {s : State} {base n q : Nat} (f : Queue → Queue) (h : q < base ∨ base + n ≤ q) :
    getQ (bindQueues s base n f) q = getQ s q := by
  have hnone := find_bound_none (List.range n) base (fun i => f (getQ s (base + i))) (k := q)
    (fun i hi hkey => by have := List.mem_range.mp hi; omega)
  show tabGet (bindQueues s base n f).qm q {} = tabGet s.qm q {}
  unfold bindQueues tabGet
  dsimp only
  rw [List.find?_append, List.find?_append, hnone]
  by_cases hlow : q < base
  · rw [find_key_filter s.qm q (fun x => decide (x.1 < base)) (fun x hx => by simp [hx, hlow]),
      find_key_dropped s.qm q (fun x => decide (base + n ≤ x.1)) (fun x hx => by simp [hx]; omega)]
    simp
  · rw [find_key_dropped s.qm q (fun x => decide (x.1 < base)) (fun x hx => by simp [hx]; omega),
      find_key_filter s.qm q (fun x => decide (base + n ≤ x.1)) (fun x hx => by simp [hx]; omega)]
    simp

/-- The partition that CREATE makes, in the state that the read of its descriptor left. -/
def created (u : State) (p : Nat) (d : Bytes) : State := partResult (keyDrawn (areaSet (bound u p d) p d) p) 0

theorem areaSet_units (u : State) (p : Nat) (d : Bytes) : (areaSet u p d).parts = u.parts ∧ (areaSet u p d).qm = u.qm ∧ (areaSet u p d).mem = u.mem ∧
    (areaSet u p d).sec = u.sec ∧ (areaSet u p d).flt = u.flt := by
  simp only [areaSet, setF_parts, setF_qm, setF_mem, setF_sec, setF_flt, and_self]

theorem created_units (u : State) (p : Nat) (d : Bytes) : (created u p d).parts = u.parts.set p (descPart d) ∧
    (created u p d).qm = (bindQueues u (descPart d).qBase (descPart d).qCount (fun q => { q with part := p })).qm ∧ (created u p d).mem = u.mem ∧
    (created u p d).sec = u.sec ∧ (created u p d).flt = u.flt := by
  obtain ⟨h1, h2, h3, h4, h5⟩ := areaSet_units (bound u p d) p d
  refine ⟨h1, h2, h3, h4, h5⟩

theorem tabGet_key_created (u : State) (p : Nat) (d : Bytes) : (tabGet (created u p d).sch.keys p none).isSome = true := by
  unfold created partResult keyDrawn
  rw [setF_sch]
  exact congrArg Option.isSome (tabGet_tabPut_same ..)

section
variable {p : Nat} {u : State} {x : Option Bytes}

theorem createFrom_owned (h : (getP u p).st ≠ 0) : createFrom p (u, x) = partResult u 1 := if_pos (.inr h)

variable (hp : p ≠ 0) (hfree : (getP u p).st = 0)
include hp hfree

theorem createFrom_free : ¬ (p = 0 ∨ (getP u p).st ≠ 0) := fun h => h.elim hp (fun h => h hfree)

theorem createFrom_unread : createFrom p (u, none) = partResult u 2 := by
  unfold createFrom
  rw [if_neg (createFrom_free hp hfree), if_pos (.inl rfl)]

variable {d : Bytes}

theorem createFrom_invalid (hbad : descOk u p d = false) : createFrom p (u, some d) = partResult u 2 := by
  unfold createFrom
  rw [if_neg (createFrom_free hp hfree), if_pos (.inr hbad)]

variable (hok : descOk u p d = true)
include hok

theorem createFrom_valid : createFrom p (u, some d) = if Nat.land (descPart d).banks u.sec.quar ≠ 0 then partResult u 3 else created u p d := by
  unfold createFrom
  rw [if_neg (createFrom_free hp hfree), if_neg]
  · rfl
  · rintro (h | h)
    · cases h
    · exact Bool.false_ne_true (h.symm.trans hok)

end

/-- What CREATE answers and makes. -/
theorem create_answers (s u : State) (m : Master) (p : BitVec 3) (x : Option Bytes) (hgate : regGate s true 4 0x38 m (p.toNat + 8 * 1) = .pass)
    (hidle : eminoBusy s = false) (hread : eminoRead s (partAddr s) 64 = (u, x)) :
    exec (.create m p) s = .next (createFrom p.toNat (u, x)) := by
  refine congrArg Host.Outcome.next ?_
  rw [create_eq, gated_pass _ hgate, ifIdle_idle _ hidle, createPart_from, hread]

theorem toNat_ne_zero {p : BitVec 3} (h : p ≠ 0) : p.toNat ≠ 0 := fun h0 => h (BitVec.eq_of_toNat_eq h0)

/-! ### LOAD_FW and START -/

theorem xtsSeal_units (s : State) (a n : Nat) : (xtsSeal s a n).parts = s.parts ∧ (xtsSeal s a n).drc = s.drc := by
  unfold xtsSeal
  refine Prod.mk.inj (PowerLaws.foldl_keeps (V := fun u : State => (u.parts, u.drc)) (fun u l => ?_) (linesOf a n) s)
  split <;> rfl

/-- The region that LOAD_FW seals. -/
def fwRegion (u : State) (base size : Nat) : Xts :=
  { base := base, size := size, tags := Config.xtsTags u.free, keys := Config.randomXts u.free, lock := true }

def fwKeyed (u : State) (l : List Xts) : State := { drawn u with drc := { u.drc with xts := l } }

/-- The image is in its region, and the measurement is extended. -/
def fwLoaded (u : State) (p : Nat) (x : Part) (base size n : Nat) (others : List Xts) (img : Bytes) : State :=
  partResult (setP (xtsSeal (memPut (fwKeyed u (others ++ [fwRegion u base size])) base img) base n) p
    { x with loads := x.loads + 1, meas := Config.sha384 (leBytes 48 x.meas.toNat ++ leBytes 48 (Config.sha384 img).toNat) }) 0

theorem fwLoaded_units (u : State) (p : Nat) (x : Part) (base size n : Nat) (others : List Xts) (img : Bytes) :
    (fwLoaded u p x base size n others img).parts = u.parts.set p
      { x with loads := x.loads + 1, meas := Config.sha384 (leBytes 48 x.meas.toNat ++ leBytes 48 (Config.sha384 img).toNat) } ∧
    (fwLoaded u p x base size n others img).drc.xts = others ++ [fwRegion u base size] := by
  obtain ⟨hparts, hdrc⟩ := xtsSeal_units (memPut (fwKeyed u (others ++ [fwRegion u base size])) base img) base n
  unfold fwLoaded partResult setP
  rw [setF_parts, setF_drc]
  dsimp only
  rw [hparts, hdrc]
  exact ⟨rfl, rfl⟩

/-- LOAD_FW from what the read of its image left. -/
def fwFrom (p : Nat) (x : Part) (base size n : Nat) (others : List Xts) : State × Option Bytes → State
  | (u, none) => partResult u 2
  | (u, some img) => fwLoaded u p x base size n others img

/-- The XTS regions but the one at a base. -/
def xtsOthers (s : State) (base : Nat) : List Xts := s.drc.xts.filter (fun t => t.base != base)

theorem loadFw_from {s : State} {p kib : Nat} {r : Nat × Nat} {rs : List (Nat × Nat)} (hp : p ≠ 0) (hst : (getP s p).st = 1)
    (hregion : (getP s p).regions = r :: rs) (hkib : kib = getF s F.EMN_PART_ADDR_HI_LEN_KIB) (hpos : 0 < kib) (hmax : kib ≤ 12288)
    (hfit : (kib + 2047) / 2048 * 0x200000 ≤ r.2) (hroom : s.drc.xts.length < 16) : loadFw p true s =
      fwFrom p (getP s p) r.1 ((kib + 2047) / 2048 * 0x200000) (1024 * kib) (xtsOthers s r.1) (eminoRead s (partAddr s) (1024 * kib)) := by
  subst hkib
  have hothers : (xtsOthers s r.1).length < 16 := Nat.lt_of_le_of_lt (List.length_filter_le ..) hroom
  have hnot : ¬ (true = false ∨ getF s F.EMN_PART_ADDR_HI_LEN_KIB = 0 ∨ 12288 < getF s F.EMN_PART_ADDR_HI_LEN_KIB ∨
      r.2 < (getF s F.EMN_PART_ADDR_HI_LEN_KIB + 2047) / 2048 * 0x200000 ∨ 16 ≤ (xtsOthers s r.1).length) := by
    rintro (h | h | h | h | h)
    · cases h
    all_goals omega
  have hown : ¬ (p = 0 ∨ (getP s p).st ≠ 1) := fun h => h.elim hp (fun h => h hst)
  unfold loadFw
  dsimp only
  rw [if_neg hown]
  generalize getP s p = x at hregion
  obtain ⟨⟩ := x
  dsimp only at hregion
  subst hregion
  dsimp only
  refine (if_neg hnot).trans ?_
  unfold partAddr
  rcases eminoRead s _ _ with ⟨u, _ | img⟩
  · rfl
  · rfl

theorem loadFw_refused {s : State} {p : Nat} {ok : Bool} (h : (getP s p).st ≠ 1) : loadFw p ok s = partResult s 1 := if_pos (.inr h)

theorem loadFw_bad {s : State} {p : Nat} (hp : p ≠ 0) (hst : (getP s p).st = 1) : loadFw p false s = partResult s 2 := by
  have hown : ¬ (p = 0 ∨ (getP s p).st ≠ 1) := fun h => h.elim hp (fun h => h hst)
  unfold loadFw
  dsimp only
  rw [if_neg hown]
  split
  · rfl
  · exact if_pos (.inl rfl)

theorem startPart_refused {s : State} {p : Nat} (h : (getP s p).st ≠ 1 ∨ (getP s p).loads = 0) : startPart p s = partResult s 1 := if_pos (.inr h)

theorem startPart_loaded {s : State} {p : Nat} (hp : p ≠ 0) (hst : (getP s p).st = 1) (hloads : 0 < (getP s p).loads) :
    startPart p s = partResult (setP s p { getP s p with st := 2, coresOn := true }) 0 := by
  refine if_neg ?_
  rintro (h | h | h)
  · exact hp h
  · exact h hst
  · omega

/-! ### TEARDOWN (R470, R474) -/

/-- What a teardown's steps on other units leave as it was. -/
structure Held (s t : State) : Prop where
  parts : t.parts = s.parts
  sec : t.sec = s.sec
  drc : t.drc = s.drc
  lines : getB t 17 = getB s 17
  keys : t.sch.keys = s.sch.keys

theorem Held.refl (s : State) : Held s s := ⟨rfl, rfl, rfl, rfl, rfl⟩

theorem Held.trans {s t u : State} (h : Held s t) (g : Held t u) : Held s u where
  parts := g.parts.trans h.parts
  sec := g.sec.trans h.sec
  drc := g.drc.trans h.drc
  lines := g.lines.trans h.lines
  keys := g.keys.trans h.keys

theorem held_of_calm {s t : State} (h : StopLaws.Calm s t) : Held s t where
  parts := h.same.parts
  sec := h.same.sec
  drc := h.same.drc
  lines := congrArg (fun b : Tab Buf => tabGet b 17 {}) h.same.bufs
  keys := h.keys

theorem held_foldl {α : Type} {f : State → α → State} (l : List α) (hf : ∀ u, ∀ a ∈ l, Held u (f u a)) (s : State) : Held s (l.foldl f s) := by
  induction l generalizing s with
  | nil => exact .refl s
  | cons a l ih => exact (hf s a (by simp)).trans (ih (fun u b hb => hf u b (by simp [hb])) (f s a))

theorem held_ite {s a b : State} {c : Prop} [Decidable c] (ha : Held s a) (hb : Held s b) : Held s (if c then a else b) := by
  split
  · exact ha
  · exact hb

theorem held_setF (s : State) (x : Fld) (v : Nat) : Held s (setF s x v) := ⟨rfl, rfl, rfl, rfl, rfl⟩

theorem held_raise (s : State) (code cls : Nat) (part : Option Nat) (block item : Nat) (detail : List Nat) :
    Held s (raise s false code cls part block item detail) := held_of_calm ((StopLaws.Calm.refl s).raise ..)

theorem held_clearAo (s : State) (f : Nat → Bool) : Held s (clearAo s f) := by
  refine held_foldl (List.range 256) (fun u g _ => ?_) s
  exact held_ite ⟨rfl, rfl, rfl, rfl, rfl⟩ (.refl u)

theorem held_bindQueues (s : State) (base n : Nat) (f : Queue → Queue) : Held s (bindQueues s base n f) := ⟨rfl, rfl, rfl, rfl, rfl⟩

theorem held_sessionsOff (s : State) (x : Part) : Held s (sessionsOff s x) := ⟨rfl, rfl, rfl, rfl, rfl⟩

theorem loseDomain_core (s : State) {k : Nat} (hk : k < 8) : loseDomain s (domCore k) =
    dropBufs (zeroMem s (tileAddr (13 + k)) tileBytes) (9 + k) 1 := by
  unfold loseDomain domCore
  rw [if_neg (by omega), if_neg (by omega), if_pos (by omega), Nat.add_sub_cancel_left]

theorem held_coreDown (s : State) {k : Nat} (hk : k < 8) : Held s (domainDown s (domCore k)) := by
  unfold domainDown
  refine held_ite ?_ (.refl s)
  rw [loseDomain_core s hk]
  exact ⟨rfl, rfl, rfl, tabGet_tabDrop_out _ _ _ _ _ (by omega), rfl⟩

theorem held_domainUp (s : State) (d : Nat) : Held s (domainUp s d) := by
  unfold domainUp
  refine held_ite ?_ (.refl s)
  exact held_ite ⟨rfl, rfl, rfl, rfl, rfl⟩ ⟨rfl, rfl, rfl, rfl, rfl⟩

theorem held_bindJob (s : State) (b : Option Nat) : Held s (bindJob s b) := by
  cases b with
  | none => exact .refl s
  | some i => exact ⟨rfl, rfl, rfl, rfl, rfl⟩

theorem held_setQ (s : State) (q : Nat) (v : Queue) : Held s (setQ s q v) := ⟨rfl, rfl, rfl, rfl, rfl⟩

theorem held_postData (s : State) (q : Nat) (data : Bytes) (producer part : Nat) : Held s (postData s q data producer part).1 := by
  unfold postData
  split
  · exact (held_setQ ..).trans (held_raise ..)
  · exact (held_setQ ..).trans (held_bindJob ..)

theorem held_ispPost (s : State) (f : IspFrame) (status idx : Nat) : Held s (ispPost s f status idx) := held_ite (held_postData ..) (.refl s)

theorem held_releaseLines (s : State) (f : IspFrame) (n : Nat) : Held s (releaseLines s f n).1 := held_ite ⟨rfl, rfl, rfl, rfl, rfl⟩ (.refl s)

theorem held_endFrame (s : State) (f : IspFrame) : Held s (endFrame s f) := by
  refine (held_releaseLines s f f.linesIn).trans ?_
  exact held_ite ⟨rfl, rfl, rfl, rfl, rfl⟩ ⟨rfl, rfl, rfl, rfl, rfl⟩

theorem held_stopFrame (s : State) (f : IspFrame) (status : Nat) : Held s (stopFrame s f status) := by
  unfold stopFrame
  refine held_ite (.refl s) (.trans (.trans (held_foldl _ (fun u l _ => ?_) s) (held_ispPost ..)) (held_endFrame ..))
  split
  · exact held_of_calm ((StopLaws.Calm.refl u).stopEngine _)
  · exact .refl u

theorem held_setI (s : State) (c : Nat) (x : IspCtx) : Held s (setI s c x) := ⟨rfl, rfl, rfl, rfl, rfl⟩

theorem held_settleCtx (s : State) (c : Nat) : Held s (settleCtx s c) := by
  unfold settleCtx
  refine held_ite ?_ (.refl s)
  exact ((held_foldl _ (fun u f _ => held_stopFrame u f 3) s).trans (held_setF ..)).trans (held_setI ..)

/-- A context whose enable bit is cleared. -/
theorem held_ctxenOff (s : State) (c : Nat) : Held s (ctxenBit 0 s c) := by
  have hbit : bitOf 0 c = false := by rw [CameraLaws.bitOf_eq_testBit, Nat.zero_testBit]
  unfold ctxenBit
  rw [hbit, if_neg Bool.false_ne_true]
  exact held_ite ((held_setI ..).trans (held_settleCtx ..)) (.refl s)

/-- The partition is in teardown, its cores held and its function's commands ended. -/
def stopping (s : State) (p : Nat) : State :=
  { setP s p { getP s p with st := 3, coresOn := false } with
    hif := { s.hif with fns := s.hif.fns.set (p + 1) { abortFn (getFn s (p + 1)) with milestone := none } } }

/-- Its keys are withdrawn. -/
def keyless (s : State) (p : Nat) : State := dropKeys (discardSteps (stopping s p) p 3) p

/-- Its cores are cycled and its lines of the cache dropped. -/
def uncached (s : State) (x : Part) (p : Nat) : State :=
  ((List.range 8).filter (fun k => bitOf x.cores k)).foldl (fun s k => domainUp (domainDown s (domCore k)) (domCore k)) (dropLines s p)

/-- Its queues, sessions and contexts are off. -/
def unbound (s : State) (x : Part) : State :=
  ((List.range 32).filter (fun c => bitOf x.ispCtx c)).foldl (ctxenBit 0) (sessionsOff (bindQueues s x.qBase x.qCount (fun _ => {})) x)

def unsealedXts (s : State) (x : Part) : State := { s with drc := { s.drc with xts := s.drc.xts.filter (fun t => !inRegions x t.base t.size) } }

theorem teardownSteps_eq (s : State) (p : Nat) : teardownSteps s p =
    unsealedXts (unbound (uncached (clearAo (keyless s p) (fun g => bitOf (getP s p).banks (g / 8))) (getP s p) p) (getP s p)) (getP s p) := rfl

theorem held_uncached (s : State) (x : Part) (p : Nat) : Held (dropLines s p) (uncached s x p) :=
  held_foldl _ (fun u _ hk => (held_coreDown u (List.mem_range.mp (List.mem_filter.mp hk).1)).trans (held_domainUp ..)) _

theorem held_unbound (s : State) (x : Part) : Held s (unbound s x) :=
  ((held_bindQueues ..).trans (held_sessionsOff ..)).trans (held_foldl _ (fun u c _ => held_ctxenOff u c) _)

/-- What the steps of a teardown leave of partitions, keys, containers, lines and the scrub engine. -/
theorem teardownSteps_units (s : State) (p : Nat) : (teardownSteps s p).parts = s.parts.set p { getP s p with st := 3, coresOn := false } ∧
    (teardownSteps s p).sec = { s.sec with
      slots := tabDrop s.sec.slots (8 * p) 8, containers := s.sec.containers.filter (fun c => c.part != p) } ∧
    (teardownSteps s p).drc.zero = s.drc.zero ∧ p ∉ (getB (teardownSteps s p) 17).parts ∧ tabGet (teardownSteps s p).sch.keys p none = none := by
  have hstop : Held (stopping s p) (discardSteps (stopping s p) p 3) := held_of_calm ((StopLaws.Calm.refl _).discardSteps p 3)
  have hclear := held_clearAo (keyless s p) (fun g => bitOf (getP s p).banks (g / 8))
  rw [teardownSteps_eq]
  generalize clearAo (keyless s p) (fun g => bitOf (getP s p).banks (g / 8)) = u at hclear ⊢
  have hcache := held_uncached u (getP s p) p
  generalize uncached u (getP s p) p = w at hcache ⊢
  have hunbound := held_unbound w (getP s p)
  generalize unbound w (getP s p) = z at hunbound ⊢
  have hline : p ∉ (getB (dropLines u p) 17).parts := by
    unfold dropLines
    rw [getB, setB, tabGet_tabPut_same]
    simp
  refine ⟨?_, ?_, ?_, ?_, ?_⟩
  · exact hunbound.parts.trans (hcache.parts.trans (hclear.parts.trans hstop.parts))
  · refine hunbound.sec.trans (hcache.sec.trans (hclear.sec.trans ?_))
    unfold keyless dropKeys
    rw [hstop.sec]
    rfl
  · show z.drc.zero = s.drc.zero
    exact congrArg Drc.zero (hunbound.drc.trans (hcache.drc.trans (hclear.drc.trans hstop.drc)))
  · show p ∉ (getB z 17).parts
    rw [hunbound.lines, hcache.lines]
    exact hline
  · have hkeys := hunbound.keys.trans (hcache.keys.trans hclear.keys)
    show tabGet z.sch.keys p none = none
    rw [hkeys]
    exact tabGet_tabPut_same ..

/-- The regions that the scrub engine zeroes. -/
def scrubbed (s : State) (p : Nat) : List (Nat × Nat) := (getP s p).regions.filter (fun r => r.2 != 0)

/-- The scrub engine takes every region. -/
def scrubQueued (s : State) (p : Nat) (l : List (Nat × Nat)) : State :=
  { s with
    drc := { s.drc with zero := s.drc.zero ++ l.map (fun r => (r.1, r.2, true)) }
    sec := { s.sec with cmd := some (4, p), scrubLeft := l.length } }

/-- The device after TEARDOWN. -/
def inTeardown (z : State) (p : Nat) (l : List (Nat × Nat)) : State := setF (partResult (scrubQueued z p l) 0) F.EMN_PART_STAT_BUSY 1

theorem teardown_stopped {s : State} {p : Nat} (hp : p ≠ 0) (hst : (getP s p).st = 1 ∨ (getP s p).st = 2) :
    teardown p s = if planUses s p then partResult s 4 else inTeardown (teardownSteps s p) p (scrubbed s p) :=
  if_neg (fun h => h.elim hp (fun h => h hst))

theorem teardown_refused {s : State} {p : Nat} (hst : (getP s p).st = 0 ∨ (getP s p).st = 3) : teardown p s = partResult s 1 :=
  if_pos (.inr (by omega))

theorem inTeardown_units (z : State) (p : Nat) (l : List (Nat × Nat)) :
    (inTeardown z p l).parts = z.parts ∧
    (inTeardown z p l).sec = { z.sec with cmd := some (4, p), scrubLeft := l.length } ∧
    (inTeardown z p l).drc.zero = z.drc.zero ++ l.map (fun r => (r.1, r.2, true)) ∧
    (inTeardown z p l).bufs = z.bufs ∧
    (inTeardown z p l).sch = z.sch ∧
    isSet (inTeardown z p l) F.EMN_PART_STAT_BUSY = true ∧
    getF (inTeardown z p l) F.EMN_PART_STAT_RESULT = 0 := by
  refine ⟨rfl, rfl, rfl, rfl, rfl, ArrayLaws.isSet_setF_one _ rfl, ?_⟩
  unfold inTeardown
  rw [getF_setF_ne _ _ _ _ (by decide)]
  exact getF_setF_same ..

/-- Settles O50, each clause by the command it speaks of. -/
theorem partitionsLiveAndDie : Obligations.PartitionsLiveAndDie := by
  unfold Obligations.PartitionsLiveAndDie
  refine ⟨?create, ?busy, ?load, ?start, ?teardown, ?complete⟩
  case create =>
    rintro s u m p a x hgate hidle hp hlen rfl hread
    have hread : eminoRead s (partAddr s) 64 = (u, x) := hread
    have hrun := create_answers s u m p x hgate hidle hread
    have hp' := toNat_ne_zero hp
    have hulen : p.toNat < u.parts.length := by
      rw [← parts_of_access (eminoRead_sameButAccess s (partAddr s) 64), hread] at hlen
      exact hlen
    refine ⟨fun h => ?_, fun h hx => ?_, fun d h hx hbad => ?_, fun d h hx hok hq => ?_, fun d h hx hok hq => ?_⟩
    · rw [hrun, createFrom_owned h]
    · rw [hrun, hx, createFrom_unread hp' h]
    · rw [hrun, hx, createFrom_invalid hp' h hbad]
    · rw [hrun, hx, createFrom_valid hp' h hok, if_pos hq]
    · rw [hx, createFrom_valid hp' h hok, if_neg (fun hne => hne hq)] at hrun
      obtain ⟨hparts, hqm, hmem, hsec, hflt⟩ := created_units u p.toNat d
      have hsame : getP (created u p.toNat d) p.toNat = descPart d := by
        unfold getP
        rw [hparts]
        exact WordLaws.nth_set_same _ _ hulen
      have hqueue : ∀ q, getQ (created u p.toNat d) q = getQ (bindQueues u (descPart d).qBase (descPart d).qCount (fun q => { q with part := p.toNat })) q :=
        fun q => congrArg (fun l => tabGet l q ({} : Queue)) hqm
      refine ⟨_, hrun, hsame, by rw [hsame]; rfl, by rw [hsame]; rfl, fun q hq => ?_, getF_setF_same .., fun q hlo hhi => ?_, fun q hout => ?_,
        tabGet_key_created .., hmem, hsec, hflt⟩
      · unfold getP
        rw [hparts]
        exact WordLaws.nth_set_ne _ _ (Ne.symm hq)
      · rw [hqueue, getQ_bindQueues_in _ hlo hhi]
      · rw [hqueue, getQ_bindQueues_out _ hout]
  case busy =>
    rintro s m v p rfl hgate hbusy
    refine congrArg Host.Outcome.next ?_
    rw [create_eq, gated_pass _ hgate, ifIdle_busy _ hbusy]
  case load =>
    intro s m p ok hgate hidle hp hlen
    have hrun : exec (.loadFw m p ok) s = .next (loadFw p.toNat ok s) := by
      refine congrArg Host.Outcome.next ?_
      rw [loadFw_eq, gated_pass _ hgate, ifIdle_idle _ hidle]
    have hp' := toNat_ne_zero hp
    refine ⟨fun h => ?_, fun h hok => ?_, fun r rs kib img hst hok hreg hkib hpos hmax hfit hroom hread => ?_⟩
    · rw [hrun, loadFw_refused h]
    · rw [hrun, hok, loadFw_bad hp' h]
    · have hkeep := eminoRead_sameButAccess s (partAddr s) (1024 * kib)
      have hread' : eminoRead s (partAddr s) (1024 * kib) = ((eminoRead s (partAddr s) (1024 * kib)).1, some img) := Prod.ext rfl hread
      rw [hok, loadFw_from hp' hst hreg hkib hpos hmax hfit hroom, hread'] at hrun
      generalize (eminoRead s (partAddr s) (1024 * kib)).1 = u at hkeep hrun
      obtain ⟨hparts, hxts⟩ := fwLoaded_units u p.toNat (getP s p.toNat) r.1 ((kib + 2047) / 2048 * 0x200000) (1024 * kib) (xtsOthers s r.1) img
      rw [parts_of_access hkeep] at hparts
      have hsame := (congrArg (fun l => nth l p.toNat ({} : Part)) hparts).trans (WordLaws.nth_set_same _ _ hlen)
      rw [hok]
      refine ⟨_, hrun, getF_setF_same .., congrArg Part.loads hsame, (congrArg Part.st hsame).trans hst, fun q hq => ?_, congrArg Part.meas hsame,
        fwRegion u r.1 ((kib + 2047) / 2048 * 0x200000), ?_, rfl, rfl, rfl⟩
      · exact (congrArg (fun l => nth l q ({} : Part)) hparts).trans (WordLaws.nth_set_ne _ _ (Ne.symm hq))
      · have hmem : fwRegion u r.1 ((kib + 2047) / 2048 * 0x200000) ∈ xtsOthers s r.1 ++ [fwRegion u r.1 ((kib + 2047) / 2048 * 0x200000)] := by simp
        rw [← hxts] at hmem
        exact hmem
  case start =>
    intro s m p hgate hidle hp hlen
    have hrun : exec (.partStart m p) s = .next (startPart p.toNat s) := by
      refine congrArg Host.Outcome.next ?_
      rw [start_eq, gated_pass _ hgate, ifIdle_idle _ hidle]
    refine ⟨fun h => by rw [hrun, startPart_refused h], fun hst hloads => ?_⟩
    rw [startPart_loaded (toNat_ne_zero hp) hst hloads] at hrun
    have hsame := getP_setP_same (s := s) { getP s p.toNat with st := 2, coresOn := true } hlen
    refine ⟨_, hrun, hsame, fun q hq => getP_setP_ne (s := s) _ hq, getF_setF_same .., ?_, rfl⟩
    unfold fnAbsent fnPart
    rw [Nat.add_sub_cancel, show getP (partResult (setP s p.toNat _) 0) p.toNat = _ from hsame]
    simp
  case teardown =>
    intro s m p hgate hidle hp hlen
    have hrun : exec (.teardown m p) s = .next (teardown p.toNat s) := by
      refine congrArg Host.Outcome.next ?_
      rw [teardown_eq, gated_pass _ hgate, ifIdle_idle _ hidle]
    have hp' := toNat_ne_zero hp
    refine ⟨fun h => by rw [hrun, teardown_refused h], fun h huse => by rw [hrun, teardown_stopped hp' h, if_pos huse], fun h huse => ?_⟩
    rw [teardown_stopped hp' h, if_neg (ne_true_of_eq_false huse)] at hrun
    obtain ⟨t1, t2, t3, t4, t5⟩ := teardownSteps_units s p.toNat
    obtain ⟨d1, d2, d3, d4, d5, d6, d7⟩ := inTeardown_units (teardownSteps s p.toNat) p.toNat (scrubbed s p.toNat)
    have hparts := d1.trans t1
    have hsec := d2.trans (congrArg (fun x : Sec => { x with cmd := some (4, p.toNat), scrubLeft := (scrubbed s p.toNat).length }) t2)
    have hsame := (congrArg (fun l => nth l p.toNat ({} : Part)) hparts).trans (WordLaws.nth_set_same _ _ hlen)
    refine ⟨_, hrun, congrArg Part.st hsame, congrArg Part.coresOn hsame, fun q hq => ?_, d6, d7, congrArg Sec.cmd hsec, congrArg Sec.scrubLeft hsec,
      ?_, ?_, fun i hi => ?_, fun c hc => ?_, ?_, ?_⟩
    · exact (congrArg (fun l => nth l q ({} : Part)) hparts).trans (WordLaws.nth_set_ne _ _ (Ne.symm hq))
    · rw [getB, d4]
      exact t4
    · rw [d3, t3]
      rfl
    · rw [hsec]
      exact tabGet_tabDrop_in _ _ _ _ _ (by omega)
    · rw [hsec] at hc
      simpa using (List.mem_filter.mp hc).2
    · rw [d5]
      exact t5
    · unfold fnAbsent fnPart
      rw [Nat.add_sub_cancel, getP, hsame]
      simp
  case complete =>
    intro s c p hcmd hp
    have hrun := teardownDone_eq hcmd
    refine ⟨fun h => ?_, fun h => ?_⟩
    · rw [if_pos h] at hrun
      exact congrArg Host.Outcome.next hrun
    · rw [if_neg (fun hne => hne h)] at hrun
      refine ⟨_, congrArg Host.Outcome.next hrun, getP_tornDown_same hp, fun q hq => getP_tornDown_ne hq, rfl, ?_, ?_, rfl⟩
      · unfold tornDown isSet
        rw [getF_setF_same]
        rfl
      · unfold tornDown
        rw [getF_setF_ne _ _ _ _ (by decide)]
        exact getF_setF_same ..

end Sys2Proof.PartLaws
end

section
/-! Authenticated debug (R471, R472), attestation (R476, R477), the end of a billet (R496 to R498), and real-time pair 1 (R489). -/

namespace Sys2Proof.DebugLaws

open Sys2Proof Sys2Proof.Machine Sys2Proof.BootLaws

/-! ### Debug -/

theorem debugChallenge_closed {s : State} (h : isSet s F.EMN_DBG_OPEN = true ∨ getF s F.EMN_DBG_FAILS = 3) : debugChallenge s = s := if_pos h

/-- A fresh challenge is outstanding. -/
def challenged (s : State) : State := { drawn s with sec := { s.sec with challenge := some (Config.randomKey s.free) } }

section
variable {s : State} (hopen : isSet s F.EMN_DBG_OPEN = false) (hfails : getF s F.EMN_DBG_FAILS ≠ 3)
include hopen hfails

theorem debugChallenge_drawn : debugChallenge s = challenged s :=
  if_neg (fun h => h.elim (fun h => Bool.false_ne_true (hopen.symm.trans h)) hfails)

theorem debugResponse_open (ok : Bool) (hchallenge : s.sec.challenge.isSome = true) : debugResponse ok s =
    if ok then debugOpen { s with sec := { s.sec with challenge := none } } else bump { s with sec := { s.sec with challenge := none } } F.EMN_DBG_FAILS 1 := by
  refine if_neg ?_
  rintro (h | h | h)
  · rw [Option.isNone_iff_eq_none] at h
    rw [h] at hchallenge
    cases hchallenge
  · exact Bool.false_ne_true (hopen.symm.trans h)
  · exact hfails h

end

theorem debugResponse_none {s : State} (ok : Bool) (h : s.sec.challenge = none) : debugResponse ok s = s := if_pos (.inl (by rw [h]; rfl))

/-- Every key slot and lay-by key is gone. -/
def unkeyed (s : State) : State := { s with sec := { s.sec with slots := [] }, sch := { s.sch with keys := [] } }

/-- Every parked step is ended. -/
def unparked (s : State) : State :=
  settleParked (s.sch.parked.foldl (fun s x => postStep s x 3) { s with sch := { s.sch with parked := [], resume := none } })

theorem unparked_units (s : State) : (unparked s).sec = s.sec ∧ (unparked s).flt = s.flt ∧ (unparked s).emn = s.emn ∧
    (unparked s).sch.keys = s.sch.keys ∧ (unparked s).sch.parked = [] := by
  have h := PowerLaws.foldl_keeps (V := fun u : State => (u.sec, u.flt, u.emn, u.sch.keys, u.sch.parked)) (f := fun s x => postStep s x 3)
    (fun _ _ => rfl) s.sch.parked { s with sch := { s.sch with parked := [], resume := none } }
  simp only [Prod.mk.injEq] at h
  exact h

/-- One region that is array-only is cleared and opened. -/
def aoCleared (s : State) (g : Nat) : State :=
  setF (zeroMem s (mapBase + g * 0x100000) 0x100000) (F.MAP_AO_AO (g / 32)) (clearBit (getF s (F.MAP_AO_AO (g / 32))) (g % 32))

/-- The bit of a region that says it is array-only. -/
def aoBit (s : State) (g : Nat) : Bool := bitOf (getF s (F.MAP_AO_AO (g / 32))) (g % 32)

def aoStep (f : Nat → Bool) (s : State) (g : Nat) : State := if f g ∧ aoBit s g then aoCleared s g else s

theorem clearAo_eq (s : State) (f : Nat → Bool) : clearAo s f = (List.range 256).foldl (aoStep f) s := rfl

theorem clearAo_units (s : State) (f : Nat → Bool) : (clearAo s f).sec = s.sec ∧ (clearAo s f).flt = s.flt ∧ (clearAo s f).emn = s.emn ∧
    (clearAo s f).sch = s.sch := by
  have h := PowerLaws.foldl_keeps (V := fun u : State => (u.sec, u.flt, u.emn, u.sch)) (f := aoStep f)
    (fun u g => by unfold aoStep; split <;> rfl) (List.range 256) s
  simp only [Prod.mk.injEq] at h
  exact h

theorem ao_key {i j : Nat} (h : i ≠ j) : (F.MAP_AO_AO j).key ≠ (F.MAP_AO_AO i).key := by
  simp only [Fld.key, F.MAP_AO_AO, Reg.MAP_AO]
  omega

theorem aoBit_aoCleared (s : State) (g h : Nat) : aoBit (aoCleared s g) h = (aoBit s h && !decide (g = h)) := by
  unfold aoBit aoCleared
  by_cases hreg : g / 32 = h / 32
  · have hbit : (g = h) ↔ (g % 32 = h % 32) := by omega
    rw [hreg, getF_setF_same, CameraLaws.bitOf_eq_testBit, show (F.MAP_AO_AO (h / 32)).width = 32 from rfl, Nat.testBit_mod_two_pow,
      decide_eq_true (Nat.mod_lt _ (by decide)), Bool.true_and, ← CameraLaws.bitOf_eq_testBit, CameraLaws.bitOf_clearBit, decide_eq_decide.mpr hbit]
  · have hne : g ≠ h := fun he => hreg (he ▸ rfl)
    rw [getF_setF_ne _ _ _ _ (ao_key hreg), decide_eq_false hne, Bool.not_false, Bool.and_true]
    rfl

theorem aoBit_aoStep_ne (f : Nat → Bool) (s : State) (g h : Nat) (hne : h ≠ g) : aoBit (aoStep f s g) h = aoBit s h := by
  unfold aoStep
  split
  · rw [aoBit_aoCleared, decide_eq_false (Ne.symm hne), Bool.not_false, Bool.and_true]
  · rfl

/-- No region is array-only after all are opened. -/
theorem aoBit_clearAo (s : State) {g : Nat} (hg : g < 256) : aoBit (clearAo s (fun _ => true)) g = false := by
  obtain ⟨u, -, hu⟩ := PowerLaws.foldl_at (aoBit_aoStep_ne (fun _ => true)) List.nodup_range (List.mem_range.mpr hg) s
  rw [clearAo_eq, hu, aoStep]
  split
  · rw [aoBit_aoCleared, decide_eq_true rfl, Bool.not_true, Bool.and_false]
  · rename_i h
    exact Bool.eq_false_of_not_eq_true (fun hbit => h ⟨rfl, hbit⟩)

/-- The opening is counted. -/
def dbgCounted (s : State) : State :=
  { setF s F.EMN_DBG_OPEN 1 with emn := { s.emn with dbgCount := min 0xFFFF (s.emn.dbgCount + 1) } }

theorem dbgCounted_units (s : State) : (dbgCounted s).sec = s.sec ∧ (dbgCounted s).flt = s.flt ∧ (dbgCounted s).sch = s.sch ∧
    (dbgCounted s).emn.dbgCount = min 0xFFFF (s.emn.dbgCount + 1) ∧ isSet (dbgCounted s) F.EMN_DBG_OPEN = true :=
  ⟨rfl, rfl, rfl, rfl, ArrayLaws.isSet_setF_one s (x := F.EMN_DBG_OPEN) rfl⟩

theorem debugOpen_eq (s : State) : debugOpen s = emnRaise (dbgCounted (clearAo (unparked (unkeyed s)) (fun _ => true))) 0x0243 := rfl

theorem raise_port_sch (s : State) (code cls : Nat) (part : Option Nat) (block item : Nat) (detail : List Nat) :
    (raise s true code cls part block item detail).sch = s.sch := by
  unfold raise
  dsimp only
  split
  · rw [StopLaws.holdCompute_sch, StopLaws.saveOne_sch]
    exact StopLaws.fltLost_sch ..
  · exact StopLaws.fltLost_sch ..

theorem ao_port (i : Nat) (hi : i < 8) : (F.MAP_AO_AO i).key ≠ F.EMN_DBG_OPEN.key ∧ ∀ y ∈ RaiseLaws.faultFields true, (F.MAP_AO_AO i).key ≠ y.key := by
  simp only [RaiseLaws.faultFields, List.mem_cons, List.not_mem_nil, or_false, forall_eq_or_imp, forall_eq, Fld.key, F.MAP_AO_AO, Reg.MAP_AO,
    F.EMN_DBG_OPEN, Reg.EMN_DBG, F.FLT_STAT_FAULT_LOST, F.FLT_STAT_LOST_COUNT, F.HIF_DEVSTAT_PAUSED, F.HIF_DEVSTAT_BOOT, Reg.FLT_STAT,
    Reg.HIF_DEVSTAT, blkBase, if_true]
  omega

/-- What a good response leaves. -/
theorem debugOpen_units (s : State) : (debugOpen s).sec = { s.sec with slots := [] } ∧ (debugOpen s).sch.keys = [] ∧ (debugOpen s).sch.parked = [] ∧
    (debugOpen s).emn.dbgCount = min 0xFFFF (s.emn.dbgCount + 1) ∧ isSet (debugOpen s) F.EMN_DBG_OPEN = true ∧
    (∀ g < 256, aoBit (debugOpen s) g = false) := by
  obtain ⟨p1, p2, p3, p4, p5⟩ := unparked_units (unkeyed s)
  obtain ⟨c1, c2, c3, c4⟩ := clearAo_units (unparked (unkeyed s)) (fun _ => true)
  have hao := fun g (hg : g < 256) => aoBit_clearAo (unparked (unkeyed s)) hg
  rw [debugOpen_eq]
  generalize clearAo (unparked (unkeyed s)) (fun _ => true) = z at c1 c2 c3 c4 hao ⊢
  obtain ⟨d1, d2, d3, d4, d5⟩ := dbgCounted_units z
  have hsec : (emnRaise (dbgCounted z) 0x0243).sec = (dbgCounted z).sec := (congrArg State.sec (raise_same ..) :)
  have hsch : (emnRaise (dbgCounted z) 0x0243).sch = z.sch := (raise_port_sch ..).trans d3
  have hemn : (emnRaise (dbgCounted z) 0x0243).emn = (dbgCounted z).emn := raise_emn ..
  refine ⟨?_, ?_, ?_, ?_, ?_, fun g hg => ?_⟩
  · rw [hsec, d1, c1, p1]
    rfl
  · rw [hsch, c4, p4]
    rfl
  · rw [hsch, c4, p5]
  · rw [hemn, d4, c3, p3]
    rfl
  · rw [isSet, emnRaise, RaiseLaws.getF_raise_ne _ _ _ _ _ _ _ _ (by decide)]
    exact d5
  · obtain ⟨hopen, hfault⟩ := ao_port (g / 32) (by omega)
    rw [aoBit, emnRaise, RaiseLaws.getF_raise_ne _ _ _ _ _ _ _ _ hfault]
    refine Eq.trans ?_ (hao g hg)
    exact congrArg (fun v => bitOf v (g % 32)) (getF_setF_ne z _ _ 1 hopen)

theorem debugOpen_queue {s : State} (h : s.flt.port.queue.length < 32) : ∃ r, (debugOpen s).flt.port.queue = s.flt.port.queue ++ [r] ∧
    r.code = 0x0243 ∧ r.cls = 0 := by
  obtain ⟨-, p2, -⟩ := unparked_units (unkeyed s)
  obtain ⟨-, c2, -⟩ := clearAo_units (unparked (unkeyed s)) (fun _ => true)
  rw [debugOpen_eq]
  generalize clearAo (unparked (unkeyed s)) (fun _ => true) = z at c2 ⊢
  have hflt : (dbgCounted z).flt = s.flt := c2.trans p2
  have hqueue := RaiseLaws.raise_queue (dbgCounted z) true 0x0243 0 none 4 0xFFFF [] (show (dbgCounted z).flt.port.queue.length < 32 by rw [hflt]; exact h)
  exact ⟨_, hqueue.trans (congrArg (fun f : Flt => f.port.queue ++ _) hflt), rfl, rfl⟩

theorem bump_fails (s : State) : getF (bump s F.EMN_DBG_FAILS 1) F.EMN_DBG_FAILS = min (getF s F.EMN_DBG_FAILS + 1) 3 := by
  refine (getF_setF_same ..).trans (Nat.mod_eq_of_lt ?_)
  show min (getF s F.EMN_DBG_FAILS + 1) 3 < 4
  omega

/-! ### Attestation -/

theorem getAtt_setAtt_same (s : State) (p : Nat) (x : Att) : getAtt (setAtt s p x) p = x := tabGet_tabPut_same ..

theorem getAtt_setAtt_ne (s : State) {p q : Nat} (x : Att) (h : q ≠ p) : getAtt (setAtt s p x) q = getAtt s q := tabGet_tabPut_ne _ _ _ _ _ _ h

/-- What an attestation request does once its register takes it. -/
def attGo (p : Nat) (s : State) : State :=
  if (getAtt s p).busy then s
  else if inPartMem s p (getAtt s p).addr 64 = false then setAtt s p { getAtt s p with result := 2, len := 0 }
  else if (eminoRead s (getAtt s p).addr 64).2 = none then
    setAtt (eminoRead s (getAtt s p).addr 64).1 p { getAtt s p with result := 2, len := 0 }
  else setAtt (eminoRead s (getAtt s p).addr 64).1 p { getAtt s p with
    busy := true
    out := leAt ((eminoRead s (getAtt s p).addr 64).2.getD []) 0 8 % 2 ^ 48
    outBytes := leAt ((eminoRead s (getAtt s p).addr 64).2.getD []) 8 4
    payload := attPayload (eminoRead s (getAtt s p).addr 64).1
      (if 1 ≤ leAt ((eminoRead s (getAtt s p).addr 64).2.getD []) 12 4 ∧ leAt ((eminoRead s (getAtt s p).addr 64).2.getD []) 12 4 ≤ 48 then
        (((eminoRead s (getAtt s p).addr 64).2.getD []).drop 16).take (leAt ((eminoRead s (getAtt s p).addr 64).2.getD []) 12 4)
       else Config.oddNonce ((eminoRead s (getAtt s p).addr 64).2.getD [])) }

theorem attRequest_go {s : State} {m : Master} (h : regGate s true 4 0x58 m 1 = .pass) : attRequest m s = attGo m.part s := by
  unfold attRequest
  rw [PartLaws.gated_pass _ h]
  rfl

section
variable {s u : State} {p : Nat} (hidle : (getAtt s p).busy = false)
include hidle

theorem attGo_outside (h : inPartMem s p (getAtt s p).addr 64 = false) : attGo p s = setAtt s p { getAtt s p with result := 2, len := 0 } := by
  unfold attGo
  rw [if_neg (ne_true_of_eq_false hidle), if_pos h]

variable (hin : inPartMem s p (getAtt s p).addr 64 = true)
include hin

theorem attGo_unread (hread : eminoRead s (getAtt s p).addr 64 = (u, none)) : attGo p s = setAtt u p { getAtt s p with result := 2, len := 0 } := by
  unfold attGo
  rw [if_neg (ne_true_of_eq_false hidle), if_neg (ne_false_of_eq_true hin), hread, if_pos rfl]

theorem attGo_taken {d : Bytes} (hread : eminoRead s (getAtt s p).addr 64 = (u, some d)) (hlo : 1 ≤ leAt d 12 4) (hhi : leAt d 12 4 ≤ 48) :
    attGo p s = setAtt u p { getAtt s p with
      busy := true, out := leAt d 0 8 % 2 ^ 48, outBytes := leAt d 8 4, payload := attPayload u ((d.drop 16).take (leAt d 12 4)) } := by
  unfold attGo
  rw [if_neg (ne_true_of_eq_false hidle), if_neg (ne_false_of_eq_true hin), hread, if_neg (by simp)]
  dsimp only [Option.getD_some]
  rw [if_pos ⟨hlo, hhi⟩]

end

theorem attDone_small {s : State} {p : Nat} (hbusy : (getAtt s p).busy = true)
    (h : (getAtt s p).outBytes < (Config.coseReport (getAtt s p).payload).length) :
    attDone p s = setAtt s p { getAtt s p with busy := false, result := 1, len := 0 } := by
  unfold attDone
  dsimp only
  rw [if_neg (ne_false_of_eq_true hbusy), if_pos h]

theorem attDone_written {s : State} {p : Nat} (hbusy : (getAtt s p).busy = true)
    (h : (Config.coseReport (getAtt s p).payload).length ≤ (getAtt s p).outBytes) :
    ∃ u, attDone p s = setAtt u p { getAtt s p with busy := false, result := 0, len := (Config.coseReport (getAtt s p).payload).length } := by
  refine ⟨netWrite s { code := 19, part := p } ((Config.coseReport (getAtt s p).payload).length / 512 + 1) (getAtt s p).out
    (Config.coseReport (getAtt s p).payload), ?_⟩
  unfold attDone
  dsimp only
  rw [if_neg (ne_false_of_eq_true hbusy), if_neg (Nat.not_lt.mpr h)]

/-! ### The end of a billet -/

/-- The running billet's entry. -/
def billetOf (s : State) : Option Armed := s.tick.armed.find? (fun a => a.item.engine == 0x0B && a.started && !s.tick.reports.contains a.idx)

/-- A billet's class and result are shown, and it is reported. -/
def billetShown (s : State) (a : Armed) (c res : Nat) : State :=
  { setF (setF s F.BIST_STAT_CLASS c) F.BIST_STAT_RESULT res with
    sec := { s.sec with locked := false }, tick := { s.tick with reports := s.tick.reports ++ [a.idx] } }

/-- The shadowed row of a class 1 or 2 billet is back. -/
def billetBack (z : State) (c : Nat) (words : List Nat) (corrected : Bool) : State := if c = 1 ∨ c = 2 then shadowBack z words corrected else z

section
variable {s : State} {a : Armed} (h : billetOf s = some a) (cols : List Nat) (corrected : Bool)
include h

theorem billetEnd_pass : billetEnd 0 cols corrected s =
    advanceCursor (billetBack (billetShown s a (a.item.arg % 8) 0) (a.item.arg % 8) [] corrected) (a.item.arg % 8) := by
  unfold billetOf at h
  unfold billetEnd
  rw [h]
  rfl

theorem billetEnd_fail : billetEnd 1 cols corrected s =
    bistFail (advanceCursor (billetBack (billetShown s a (a.item.arg % 8) 1) (a.item.arg % 8) cols corrected) (a.item.arg % 8)) (a.item.arg % 8)
      (nth s.flt.cursors (a.item.arg % 8) (0, 0)).1 a.item.id cols corrected := by
  unfold billetOf at h
  unfold billetEnd
  rw [h]
  rfl

theorem billetEnd_incomplete : billetEnd 2 cols corrected s = billetBack (billetShown s a (a.item.arg % 8) 2) (a.item.arg % 8) [] corrected := by
  unfold billetOf at h
  unfold billetEnd
  rw [h]
  rfl

end

theorem billetEnd_none {s : State} (h : billetOf s = none) (res : Nat) (cols : List Nat) (corrected : Bool) : billetEnd res cols corrected s = s := by
  unfold billetOf at h
  unfold billetEnd
  rw [h]

/-- What a billet's end leaves as it was. -/
def besideBillets (k u : State) : State := { u with regs := k.regs, flt := k.flt, sec := k.sec, tick := k.tick, mem := k.mem, mapu := k.mapu }

/-- The Map Store's checks set apart. -/
def withMapu (k u : State) : State := { u with mapu := k.mapu }

theorem markErrs_same (k u : State) (a : Nat) (errs : List (Nat × Bool)) : withMapu k (markErrs u a errs) = withMapu k u := by
  unfold markErrs
  split <;> rfl

theorem shadowBack_same (k u : State) (words : List Nat) (corrected : Bool) : withMapu k (shadowBack u words corrected) = withMapu k u := by
  unfold shadowBack
  split
  · rfl
  · refine PowerLaws.foldl_keeps (V := withMapu k) (fun u w => ?_) words _
    split
    · exact markErrs_same ..
    · rfl

theorem billetBack_same (k z : State) (c : Nat) (words : List Nat) (corrected : Bool) : withMapu k (billetBack z c words corrected) = withMapu k z := by
  unfold billetBack
  split
  · exact shadowBack_same ..
  · rfl

theorem besideBillets_withMapu (k u : State) : besideBillets k (withMapu k u) = besideBillets k u := rfl

theorem billetBack_other {z : State} {c : Nat} (words : List Nat) (corrected : Bool) (h1 : c ≠ 1) (h2 : c ≠ 2) : billetBack z c words corrected = z :=
  if_neg (fun h => h.elim h1 h2)

theorem billetBack_units (z : State) (c : Nat) (words : List Nat) (corrected : Bool) : (billetBack z c words corrected).sec = z.sec ∧
    (billetBack z c words corrected).tick = z.tick ∧ (billetBack z c words corrected).flt = z.flt ∧ (billetBack z c words corrected).regs = z.regs := by
  have h := billetBack_same z z c words corrected
  exact ⟨(congrArg State.sec h :), (congrArg State.tick h :), (congrArg State.flt h :), (congrArg State.regs h :)⟩

/-- A cursor's next place. -/
def cursorNext (c : Nat) (k : Nat × Nat) : Nat × Nat :=
  if k.2 + 1 < billetsOf c k.1 then (k.1, k.2 + 1) else ((k.1 + 1) % billetTargets c, 0)

def cursorSet (z : State) (c : Nat) (k : Nat × Nat) : State := { z with flt := { z.flt with cursors := z.flt.cursors.set c k } }

/-- The cursors after a billet of a class. -/
def cursorsNext (s : State) (c : Nat) : List (Nat × Nat) := s.flt.cursors.set c (cursorNext c (nth s.flt.cursors c (0, 0)))

theorem advanceCursor_cases (z : State) (c : Nat) :
    advanceCursor z c = cursorSet z c (cursorNext c (nth z.flt.cursors c (0, 0))) ∨
    advanceCursor z c = bump (cursorSet z c (cursorNext c (nth z.flt.cursors c (0, 0)))) F.BIST_STAT_PASSES 1 := by
  unfold advanceCursor cursorNext
  dsimp only
  split
  · exact .inl rfl
  · split
    · exact .inr rfl
    · exact .inl rfl

theorem advanceCursor_units (z : State) (c : Nat) : (advanceCursor z c).sec = z.sec ∧ (advanceCursor z c).tick = z.tick ∧
    (advanceCursor z c).flt = { z.flt with cursors := z.flt.cursors.set c (cursorNext c (nth z.flt.cursors c (0, 0))) } ∧
    (advanceCursor z c).mem = z.mem ∧ (advanceCursor z c).mapu = z.mapu ∧ (∀ k, besideBillets k (advanceCursor z c) = besideBillets k z) := by
  rcases advanceCursor_cases z c with h | h <;> rw [h] <;> exact ⟨rfl, rfl, rfl, rfl, rfl, fun _ => rfl⟩

theorem getF_advanceCursor (z : State) (c : Nat) {x : Fld} (hx : x.key ≠ F.BIST_STAT_PASSES.key) : getF (advanceCursor z c) x = getF z x := by
  rcases advanceCursor_cases z c with h | h <;> rw [h]
  · rfl
  · exact getF_setF_ne _ _ _ _ hx

theorem billetShown_units (s : State) (a : Armed) (c res : Nat) : (billetShown s a c res).sec = { s.sec with locked := false } ∧
    (billetShown s a c res).tick = { s.tick with reports := s.tick.reports ++ [a.idx] } ∧ (billetShown s a c res).flt = s.flt ∧
    (billetShown s a c res).mem = s.mem ∧ (billetShown s a c res).mapu = s.mapu ∧ (∀ k, besideBillets k (billetShown s a c res) = besideBillets k s) :=
  ⟨rfl, rfl, rfl, rfl, rfl, fun _ => rfl⟩

theorem getF_billetShown (s : State) (a : Armed) {c res : Nat} (hc : c < 8) (hres : res < 4) :
    getF (billetShown s a c res) F.BIST_STAT_RESULT = res ∧ getF (billetShown s a c res) F.BIST_STAT_CLASS = c := by
  constructor
  · exact (getF_setF_same ..).trans (Nat.mod_eq_of_lt hres)
  · refine (getF_setF_ne _ _ _ _ (by decide)).trans ((getF_setF_same ..).trans (Nat.mod_eq_of_lt hc))

/-- A billet that is over, but for what it raises. -/
def billetOver (s : State) (a : Armed) (res : Nat) (words : List Nat) (corrected : Bool) : State :=
  advanceCursor (billetBack (billetShown s a (a.item.arg % 8) res) (a.item.arg % 8) words corrected) (a.item.arg % 8)

theorem billetOver_units (s : State) (a : Armed) (res : Nat) (words : List Nat) (corrected : Bool) :
    (billetOver s a res words corrected).sec = { s.sec with locked := false } ∧
    (billetOver s a res words corrected).tick = { s.tick with reports := s.tick.reports ++ [a.idx] } ∧
    (billetOver s a res words corrected).flt.comp = s.flt.comp ∧
    (billetOver s a res words corrected).flt.cursors = cursorsNext s (a.item.arg % 8) ∧
    (∀ k, besideBillets k (billetOver s a res words corrected) = besideBillets k s) := by
  obtain ⟨a1, a2, a3, -, -, a6⟩ := advanceCursor_units (billetBack (billetShown s a (a.item.arg % 8) res) (a.item.arg % 8) words corrected) (a.item.arg % 8)
  obtain ⟨b1, b2, b3, -⟩ := billetBack_units (billetShown s a (a.item.arg % 8) res) (a.item.arg % 8) words corrected
  obtain ⟨d1, d2, d3, -, -, d6⟩ := billetShown_units s a (a.item.arg % 8) res
  refine ⟨a1.trans (b1.trans d1), a2.trans (b2.trans d2), ?_, ?_, fun k => (a6 k).trans (Eq.trans ?_ (d6 k))⟩
  · rw [billetOver, a3, b3, d3]
  · rw [billetOver, a3, b3, d3]
    rfl
  · rw [← besideBillets_withMapu, billetBack_same, besideBillets_withMapu]

theorem getF_billetOver (s : State) (a : Armed) {res : Nat} (hres : res < 4) (words : List Nat) (corrected : Bool) :
    getF (billetOver s a res words corrected) F.BIST_STAT_RESULT = res ∧ getF (billetOver s a res words corrected) F.BIST_STAT_CLASS = a.item.arg % 8 := by
  obtain ⟨-, -, -, hregs⟩ := billetBack_units (billetShown s a (a.item.arg % 8) res) (a.item.arg % 8) words corrected
  obtain ⟨hresult, hclass⟩ := getF_billetShown s a (c := a.item.arg % 8) (by omega) hres
  unfold billetOver
  rw [getF_advanceCursor _ _ (by decide), getF_advanceCursor _ _ (by decide), RaiseLaws.getF_of_regs hregs, RaiseLaws.getF_of_regs hregs]
  exact ⟨hresult, hclass⟩

theorem billetOver_memory (s : State) (a : Armed) (res : Nat) (words : List Nat) (corrected : Bool) (h1 : a.item.arg % 8 ≠ 1) (h2 : a.item.arg % 8 ≠ 2) :
    (billetOver s a res words corrected).mem = s.mem ∧ (billetOver s a res words corrected).mapu = s.mapu := by
  unfold billetOver
  rw [billetBack_other _ _ h1 h2]
  obtain ⟨-, -, -, a4, a5, -⟩ := advanceCursor_units (billetShown s a (a.item.arg % 8) res) (a.item.arg % 8)
  exact ⟨a4, a5⟩

theorem billetPart_over (s : State) (a : Armed) (res : Nat) (words : List Nat) (corrected : Bool) (c t : Nat) :
    billetPart (billetOver s a res words corrected) c t = billetPart s c t := by
  obtain ⟨-, -, -, -, h⟩ := billetOver_units s a res words corrected
  have hpart : ∀ u : State, billetPart (besideBillets s u) c t = billetPart u c t := fun _ => rfl
  rw [← hpart, h, hpart]

/-! ### Double faults -/

/-- The device in safe state, once its engines are stopped. -/
def safeShown (z : State) : State :=
  { setF z F.HIF_DEVSTAT_BOOT 3 with
    flt := { z.flt with safe := true, faultN := true }, tick := { z.tick with log := { z.tick.log with forceFail := true } } }

theorem safeShown_facts (z : State) : (safeShown z).flt.safe = true ∧ (safeShown z).flt.faultN = true ∧ getF (safeShown z) F.HIF_DEVSTAT_BOOT = 3 ∧
    (safeShown z).sch = z.sch := ⟨rfl, rfl, getF_setF_same .., rfl⟩

theorem safeState_eq (s : State) : ∃ z, safeState s = safeShown (leaveArray z) := by
  unfold safeState
  generalize (List.range 12).foldl stopEngine s = z
  exact ⟨z, rfl⟩

/-- The save area after a save. -/
def savedBytes (s : State) (n : Nat) : Bytes :=
  let failed := isSet s (F.CWY_STAT_FAILED true)
  let comp := if failed then [] else (s.flt.comp.recd.toList ++ s.flt.comp.queue).take 32
  let port := ((if failed then [] else s.flt.port.recd.toList) ++ s.flt.port.queue).take 32
  (leBytes 1 1 ++ leBytes 1 comp.length ++ leBytes 1 port.length ++ leBytes 1 0 ++ leBytes 4 (s.flt.reboots + n)
    ++ leBytes 8 s.timeP ++ List.replicate 48 0) ++ (comp.map recBytes).flatten ++ List.replicate (2048 - 64 * comp.length) 0
    ++ (port.map recBytes).flatten ++ List.replicate (2048 - 64 * port.length) 0

theorem savedBytes_cons (s : State) (n : Nat) : ∃ l, savedBytes s n = 1#8 :: l := by
  have h1 : leBytes 1 1 = [1#8] := by decide
  unfold savedBytes
  rw [h1]
  simp only [List.cons_append, List.nil_append, List.append_assoc]
  exact ⟨_, rfl⟩

theorem saveFaults_facts (s : State) (n : Nat) : (saveFaults s n).flt.safe = s.flt.safe ∧ (saveFaults s n).flt.faultN = s.flt.faultN ∧
    (saveFaults s n).flt.restartDue = true ∧ (saveFaults s n).flt.port.queue = [] ∧ (saveFaults s n).regs = s.regs ∧ (saveFaults s n).sch = s.sch ∧
    (saveFaults s n).mem = memWrite s.mem saveArea (savedBytes s n) := ⟨rfl, rfl, rfl, rfl, rfl, rfl, rfl⟩

theorem rdByte_saveFaults (s : State) (n : Nat) : rdByte (saveFaults s n).mem saveArea = 1 := by
  obtain ⟨l, hl⟩ := savedBytes_cons s n
  obtain ⟨-, -, -, -, -, -, hmem⟩ := saveFaults_facts s n
  rw [hmem, hl]
  exact CameraLaws.rdByte_memWrite_in s.mem saveArea (bs := 1#8 :: l) (i := 0) (by simp)

theorem holdCompute_facts (s : State) : (holdCompute s).flt.held = true ∧ (holdCompute s).flt.faultN = true ∧ getF (holdCompute s) F.HIF_DEVSTAT_BOOT = 4 ∧
    (holdCompute s).pwr.dcReset = true := ⟨rfl, rfl, getF_setF_same .., rfl⟩

/-- A double fault, before what it drives. -/
def doubled (s : State) (reason trigger : Nat) : State := fltEnqueue (fltCount s true) true (mkRec s true 0x0106 3 none 4 0xFFFF [reason, trigger])

theorem doubleFault_free {s : State} (h : s.flt.restarting = false) (reason trigger : Nat) :
    doubleFault s reason trigger = saveFaults (safeState (doubled s reason trigger)) 1 := if_neg (ne_true_of_eq_false h)

theorem doubleFault_held {s : State} (h : s.flt.restarting = true) (reason trigger : Nat) :
    doubleFault s reason trigger = holdCompute (saveOne (doubled s reason trigger) (mkRec s true 0x0106 3 none 4 0xFFFF [reason, trigger])) := if_pos h

/-- The device is held. -/
def HeldDown (s : State) : Prop := s.flt.held = true ∧ s.flt.faultN = true ∧ getF s F.HIF_DEVSTAT_BOOT = 4 ∧ s.pwr.dcReset = true

/-- FAULT_N is driven low. -/
def drivenLow (s : State) : State := { s with flt := { s.flt with faultN := true } }

theorem drivenLow_holdCompute (s : State) : HeldDown (drivenLow (holdCompute s)) := ⟨rfl, rfl, getF_setF_same .., rfl⟩

/-- A failed self-test of the device class holds the compute die. -/
theorem raiseDevice_selfTest (s : State) (block item : Nat) (detail : List Nat) : HeldDown (raiseDevice s false 0x0107 block item detail) := by
  cases h : s.flt.restarting with
  | true =>
    have hraise : raise s false 0x0107 3 none block item detail = holdCompute (saveOne (fltEnqueue (fltCount s false) false
        (mkRec s false 0x0107 3 none block item detail)) (mkRec s false 0x0107 3 none block item detail)) := if_pos ⟨h, by decide⟩
    have hrun : raiseDevice s false 0x0107 block item detail = drivenLow (raise s false 0x0107 3 none block item detail) := if_pos h
    rw [hrun, hraise]
    exact drivenLow_holdCompute _
  | false =>
    unfold raiseDevice
    dsimp only
    rw [if_neg (ne_true_of_eq_false h), if_neg (by decide), if_neg (by decide), if_pos rfl]
    exact holdCompute_facts _

/-! ### BIST_FAIL (R498) -/

theorem bistFail_array {c : Nat} (h : c = 0) (z : State) (t item : Nat) (corrected : Bool) :
    bistFail z c t item [] corrected = raise z false 0x0107 0 none 20 item [0, t] := by
  subst h
  exact if_pos rfl

theorem bistFail_memory {c : Nat} (h : c = 1 ∨ c = 2) (z : State) (t item : Nat) (cols : List Nat) (corrected : Bool) :
    bistFail z c t item cols corrected =
      raise z false 0x0107 (if corrected then 1 else 2) (if corrected then none else billetPart z c t) 20 item [c, t] := by
  unfold bistFail
  rw [if_neg (by omega), if_pos (by omega)]
  cases corrected <;> rfl

theorem bistFail_device {c : Nat} (h : 3 ≤ c) (z : State) (t item : Nat) (cols : List Nat) (corrected : Bool) :
    bistFail z c t item cols corrected = raiseDevice z false 0x0107 20 item [c, t] := by
  unfold bistFail
  rw [if_neg (by omega), if_neg (by omega)]

/-- What a failed billet raises enters the compute die's queue. -/
theorem raise_over {s : State} {a : Armed} {words : List Nat} {corrected : Bool} (cls : Nat) (part : Option Nat) (item : Nat) (detail : List Nat)
    (hroom : s.flt.comp.queue.length < 32) :
    (raise (billetOver s a 1 words corrected) false 0x0107 cls part 20 item detail).flt.comp.queue =
      s.flt.comp.queue ++ [mkRec (billetOver s a 1 words corrected) false 0x0107 cls part 20 item detail] := by
  obtain ⟨-, -, hcomp, -, -⟩ := billetOver_units s a 1 words corrected
  have hqueue := RaiseLaws.raise_queue (billetOver s a 1 words corrected) false 0x0107 cls part 20 item detail
    (show (billetOver s a 1 words corrected).flt.comp.queue.length < 32 by rw [hcomp]; exact hroom)
  refine hqueue.trans (congrArg (· ++ _) ?_)
  exact congrArg FltDie.queue hcomp

/-! ### The obligation -/

/-- The responses to a challenge. -/
theorem debugResponse_acts {s : State} (hchallenge : s.sec.challenge.isSome = true) (hopen : isSet s F.EMN_DBG_OPEN = false)
    (hfails : getF s F.EMN_DBG_FAILS ≠ 3) :
    (∃ t, exec (.debugResponse false) s = .next t ∧ t.sec = { s.sec with challenge := none } ∧
      getF t F.EMN_DBG_FAILS = min (getF s F.EMN_DBG_FAILS + 1) 3 ∧ isSet t F.EMN_DBG_OPEN = false ∧ { t with regs := s.regs, sec := s.sec } = s) ∧
    (s.flt.port.queue.length < 32 → ∃ t r, exec (.debugResponse true) s = .next t ∧ isSet t F.EMN_DBG_OPEN = true ∧ t.sec.slots = [] ∧ t.sch.keys = [] ∧
      t.sch.parked = [] ∧ (∀ g < 256, bitOf (getF t (F.MAP_AO_AO (g / 32))) (g % 32) = false) ∧ t.emn.dbgCount = min 0xFFFF (s.emn.dbgCount + 1) ∧
      t.sec.challenge = none ∧ t.flt.port.queue = s.flt.port.queue ++ [r] ∧ r.code = 0x0243 ∧ r.cls = 0) := by
  have hbad := debugResponse_open hopen hfails false hchallenge
  have hgood := debugResponse_open hopen hfails true hchallenge
  rw [if_neg Bool.false_ne_true] at hbad
  rw [if_pos rfl] at hgood
  refine ⟨⟨_, congrArg Host.Outcome.next hbad, rfl, bump_fails _, ?_, rfl⟩, fun hroom => ?_⟩
  · exact (congrArg (· == 1) (getF_setF_ne _ _ _ _ (by decide))).trans hopen
  · obtain ⟨hsec, hkeys, hparked, hcount, hset, hao⟩ := debugOpen_units { s with sec := { s.sec with challenge := none } }
    obtain ⟨r, hqueue, hcode, hcls⟩ := debugOpen_queue (s := { s with sec := { s.sec with challenge := none } }) hroom
    exact ⟨_, r, congrArg Host.Outcome.next hgood, hset, congrArg Sec.slots hsec, hkeys, hparked, hao, hcount, congrArg Sec.challenge hsec, hqueue,
      hcode, hcls⟩

/-- Settles O52, each clause by the command it speaks of. -/
theorem debugAttestationAndBilletsRun : Obligations.DebugAttestationAndBilletsRun := by
  unfold Obligations.DebugAttestationAndBilletsRun
  refine ⟨?challenge, ?unasked, ?response, ?request, ?done, ?billet, ?noBillet, ?pair⟩
  case challenge =>
    exact fun s => ⟨fun h => congrArg Host.Outcome.next (debugChallenge_closed h), fun hopen hfails =>
      ⟨challenged s, Config.randomKey s.free, congrArg Host.Outcome.next (debugChallenge_drawn hopen hfails), rfl, rfl, rfl⟩⟩
  case unasked =>
    exact fun s ok h => congrArg Host.Outcome.next (debugResponse_none ok h)
  case response =>
    exact fun s hchallenge hopen hfails => debugResponse_acts hchallenge hopen hfails
  case request =>
    intro s m hgate
    have hrun : exec (.attestationRequest m) s = .next (attGo m.part s) := congrArg Host.Outcome.next (attRequest_go hgate)
    refine ⟨fun h => ?_, fun hidle hout => ?_, fun u x hidle hin hread => ⟨fun hx => ?_, fun d nonce hx hlo hhi hnonce => ?_⟩⟩
    · rw [hrun, attGo, if_pos h]
    · rw [attGo_outside hidle hout] at hrun
      exact ⟨_, hrun, (congrArg Att.busy (getAtt_setAtt_same ..)).trans hidle, congrArg Att.result (getAtt_setAtt_same ..), rfl⟩
    · rw [hx] at hread
      rw [attGo_unread hidle hin hread] at hrun
      exact ⟨_, hrun, (congrArg Att.busy (getAtt_setAtt_same ..)).trans hidle, congrArg Att.result (getAtt_setAtt_same ..)⟩
    · rw [hx] at hread
      rw [attGo_taken hidle hin hread hlo hhi, ← hnonce] at hrun
      exact ⟨_, hrun, congrArg Att.busy (getAtt_setAtt_same ..), congrArg Att.payload (getAtt_setAtt_same ..),
        congrArg Att.out (getAtt_setAtt_same ..), congrArg Att.outBytes (getAtt_setAtt_same ..), fun p hp => getAtt_setAtt_ne _ _ hp, rfl⟩
  case done =>
    rintro s p n rfl
    refine ⟨fun h => congrArg Host.Outcome.next (if_pos h), fun hbusy hsmall => ?_, fun hbusy hfits => ?_⟩
    · exact ⟨_, congrArg Host.Outcome.next (attDone_small hbusy hsmall), congrArg Att.busy (getAtt_setAtt_same ..),
        congrArg Att.result (getAtt_setAtt_same ..), rfl⟩
    · obtain ⟨u, hu⟩ := attDone_written hbusy hfits
      exact ⟨_, congrArg Host.Outcome.next hu, congrArg Att.busy (getAtt_setAtt_same ..), congrArg Att.result (getAtt_setAtt_same ..),
        congrArg Att.len (getAtt_setAtt_same ..)⟩
  case billet =>
    rintro s a cols corrected c t k hfind rfl hc rfl rfl
    have hfind : billetOf s = some a := hfind
    refine ⟨?_, ?_, fun hc0 hroom => ?_, fun hc12 hroom => ?_, fun hc3 => ?_⟩
    · obtain ⟨hsec, htick, hcomp, hcursors, hrest⟩ := billetOver_units s a 0 [] corrected
      obtain ⟨hresult, hclass⟩ := getF_billetOver s a (res := 0) (by decide) [] corrected
      have hcursor : nth (billetOver s a 0 [] corrected).flt.cursors (a.item.arg % 8) (0, 0) =
          cursorNext (a.item.arg % 8) (nth s.flt.cursors (a.item.arg % 8) (0, 0)) :=
        (congrArg (nth · (a.item.arg % 8) (0, 0)) hcursors).trans (WordLaws.nth_set_same _ _ hc)
      refine ⟨_, congrArg Host.Outcome.next (billetEnd_pass hfind cols corrected), hresult, hclass, fun hmore => ?_, fun hlast => ?_, hsec, htick,
        hcomp, hrest s, fun h1 h2 => billetOver_memory s a 0 [] corrected h1 h2⟩
      · exact hcursor.trans (if_pos hmore)
      · exact hcursor.trans (if_neg (Nat.not_lt.mpr hlast))
    · obtain ⟨hsec, -, hflt, hregs⟩ := billetBack_units (billetShown s a (a.item.arg % 8) 2) (a.item.arg % 8) [] corrected
      refine ⟨_, congrArg Host.Outcome.next (billetEnd_incomplete hfind cols corrected), ?_, hflt, congrArg Sec.locked hsec⟩
      rw [RaiseLaws.getF_of_regs hregs]
      exact (getF_billetShown s a (by omega) (by decide)).1
    · obtain ⟨hresult, -⟩ := getF_billetOver s a (res := 1) (by decide) [] corrected
      have hrun := (billetEnd_fail hfind [] corrected).trans (bistFail_array hc0 ..)
      refine ⟨_, _, congrArg Host.Outcome.next hrun, ?_, raise_over _ _ _ _ hroom, rfl, rfl, rfl⟩
      exact (RaiseLaws.getF_raise_ne _ _ _ _ _ _ _ _ (by decide)).trans hresult
    · have hrun := (billetEnd_fail hfind cols corrected).trans (bistFail_memory hc12 ..)
      refine ⟨_, _, congrArg Host.Outcome.next hrun, raise_over _ _ _ _ hroom, rfl, rfl, rfl, fun hcorr => ?_⟩
      subst hcorr
      exact billetPart_over s a 1 cols false _ _
    · obtain ⟨h1, h2, h3, h4⟩ := raiseDevice_selfTest (billetOver s a 1 cols corrected) 20 a.item.id
        [a.item.arg % 8, (nth s.flt.cursors (a.item.arg % 8) (0, 0)).1]
      exact ⟨_, congrArg Host.Outcome.next ((billetEnd_fail hfind cols corrected).trans (bistFail_device hc3 ..)), h1, h2, h3, h4⟩
  case noBillet =>
    intro s h r cols x
    refine congrArg Host.Outcome.next (billetEnd_none (List.find?_eq_none.mpr fun a ha => ?_) r cols x)
    simp [h a ha]
  case pair =>
    refine fun s => ⟨fun h => ?_, fun h => ?_⟩
    · obtain ⟨z, hz⟩ := safeState_eq (doubled s 3 0)
      obtain ⟨h1, h2, h3, h4⟩ := safeShown_facts (leaveArray z)
      obtain ⟨f1, f2, f3, f4, f5, f6, -⟩ := saveFaults_facts (safeShown (leaveArray z)) 1
      have hrun := doubleFault_free h 3 0
      rw [hz] at hrun
      refine ⟨_, congrArg Host.Outcome.next hrun, f1.trans h1, f2.trans h2, f3, f4, (RaiseLaws.getF_of_regs f5 _).trans h3, rdByte_saveFaults _ _, ?_⟩
      rw [f6, h4]
      rfl
    · obtain ⟨h1, h2, h3, h4⟩ := holdCompute_facts (saveOne (doubled s 3 0) (mkRec s true 0x0106 3 none 4 0xFFFF [3, 0]))
      exact ⟨_, congrArg Host.Outcome.next (doubleFault_held h 3 0), h1, h2, h3, h4⟩

end Sys2Proof.DebugLaws
end

section
/-! Cold boot, resets, restart of the compute die, tick-ready, and the update of the flash (R448 to R460, R493, R518). -/

namespace Sys2Proof.BootLaws

open Sys2Proof Sys2Proof.Machine

/-! ### The journal (R454 to R456) -/

theorem length_insertSlot (r : JRec) (l : List JRec) : (insertSlot r l).length = l.length + 1 := by
  induction l with
  | nil => rfl
  | cons x xs ih =>
    unfold insertSlot
    split
    · rfl
    · rw [List.length_cons, ih, List.length_cons]

theorem length_insertSlots (l m : List JRec) : (l.foldl (fun m r => insertSlot r m) m).length = m.length + l.length := by
  induction l generalizing m with
  | nil => rfl
  | cons r l ih =>
    rw [List.foldl_cons, ih, length_insertSlot, List.length_cons]
    omega

theorem length_slotRecs (j : List JRec) : (slotRecs j).length ≤ j.length := by
  unfold slotRecs
  rw [length_insertSlots, List.length_nil, Nat.zero_add]
  exact List.length_filter_le ..

/-- A record is appended to a sector with room. -/
theorem jAppend_room {s : State} (r : JRec) (h : s.emn.journal.length < 1024) :
    jAppend s r = { s with emn := { s.emn with journal := s.emn.journal ++ [r] } } := by
  unfold jAppend
  dsimp only
  rw [if_neg (Nat.not_le.mpr h)]

theorem tried_journal {s : State} (r : JRec) (h : s.emn.journal.length < 1024) : (tried s r).emn.journal =
    s.emn.journal ++ (if jConfirmed s.emn.journal r then [] else [{ kind := 2, slot := r.slot, seq := r.seq }]) := by
  unfold tried
  split
  · rw [List.append_nil]
  · rw [jAppend_room _ h]

/-- The selection only adds to a journal that has room for a record per try. -/
theorem mem_journal_pickRec {y : JRec} (l : List JRec) {s : State} (hroom : s.emn.journal.length + l.length ≤ 1024) (hy : y ∈ s.emn.journal) :
    y ∈ (pickRec l s).emn.journal := by
  induction l generalizing s with
  | nil =>
    show y ∈ (raise s true 0x0241 3 none 4 0xFFFF []).emn.journal
    rw [raise_emn]
    exact hy
  | cons r rs ih =>
    rw [List.length_cons] at hroom
    have htried := tried_journal r (show s.emn.journal.length < 1024 by omega)
    have hlen : (tried s r).emn.journal.length ≤ s.emn.journal.length + 1 := by
      rw [htried, List.length_append]
      split <;> simp
    have hmem : y ∈ (tried s r).emn.journal := by
      rw [htried]
      exact List.mem_append_left _ hy
    have hraised : ∀ u : State, (emnRaise u 0x0240).emn = u.emn := fun u => raise_emn ..
    rw [pickRec_cons]
    split
    · exact ih (by rw [hraised]; omega) (by rw [hraised]; exact hy)
    · split
      · rw [(bootInto_units _ _ _).1]
        exact hmem
      · exact ih (by rw [hraised]; omega) (by rw [hraised]; exact hmem)

/-- The selection ends with both dies on and the slots as they were. -/
theorem pickRec_slots {l : List JRec} {s : State} : (pickRec l s).emn.slots = s.emn.slots ∧ (pickRec l s).pwr.compOn = true ∧
    (pickRec l s).pwr.portOn = true := by
  refine pickRec_keeps (P := fun u => u.emn.slots = s.emn.slots)
    (Q := fun u => u.emn.slots = s.emn.slots ∧ u.pwr.compOn = true ∧ u.pwr.portOn = true) ?_ (fun _ _ h => h) (fun _ h => ⟨h, rfl, rfl⟩) ?_ l rfl
  · intro u code cls h
    rw [raise_emn]
    exact h
  · intro u r conf h
    obtain ⟨hemn, hpwr, -⟩ := bootInto_units u r conf
    rw [hemn, hpwr]
    exact ⟨h, rfl, rfl⟩

/-! ### Cold boot (R445, R448, R520) -/

/-- The device as a cold boot leaves it before an image is selected, once every domain has been off. -/
def coldSet (straps : Nat) (z : State) : State :=
  setF { z with
    fuse := { z.fuse with colBad := Nat.lor z.fuse.colBad z.fuse.colBlown, colBlown := 0 }
    kiln := { temps := z.kiln.temps, rails := z.kiln.rails }
    flt := { z.flt with restarting := false, held := false, faultN := false, trainFail := false, reboots := 0 }
    pwr := { z.pwr with portOn := true }, emn := { z.emn with straps := straps % 16, drcKept := none } } F.DRC_TRN_CTL_OWNER z.emn.trnOwner

theorem coldBoot_eq (straps : Nat) (s : State) : coldBoot straps s =
    if bitOf straps 1 then selectImage (coldSet straps (allOff s)) else recovery (coldSet straps (allOff s)) := by
  unfold coldBoot
  generalize allOff s = z
  rfl

theorem coldSet_units (straps : Nat) (z : State) : (coldSet straps z).mem = z.mem ∧ (coldSet straps z).emn.journal = z.emn.journal ∧
    (coldSet straps z).emn.slots = z.emn.slots ∧ (coldSet straps z).flt.port = z.flt.port ∧ (coldSet straps z).flt.faultN = false ∧
    (coldSet straps z).fuse = { z.fuse with colBad := Nat.lor z.fuse.colBad z.fuse.colBlown, colBlown := 0 } := ⟨rfl, rfl, rfl, rfl, rfl, rfl⟩

theorem allOff_port (s : State) : (allOff s).flt.port = {} := (resetPort_units (compOff s)).2.2.2.2.2

theorem recQualifies_congr {s t : State} (hslots : t.emn.slots = s.emn.slots) (hjournal : t.emn.journal = s.emn.journal)
    (hsvn : t.fuse.svn = s.fuse.svn) (r : JRec) : recQualifies t r = recQualifies s r := by
  unfold recQualifies slotImg imgAccepted
  rw [hslots, hjournal, hsvn]

/-- The newest record that qualifies boots, with a TRY record when it is not confirmed. -/
theorem pickRec_first {s : State} {r : JRec} {rest : List JRec} (hqual : recQualifies s r = true) (hgood : (slotImg s r.slot).any (·.good) = true) :
    pickRec (r :: rest) s = bootInto (tried s r) r (jConfirmed s.emn.journal r) := by
  have hslot : slotImg (tried s r) r.slot = slotImg s r.slot := by
    unfold tried
    split
    · rfl
    · rfl
  rw [pickRec_cons, if_neg (by rw [hqual]; decide), hslot, if_pos hgood]

theorem tried_units (s : State) (r : JRec) : (tried s r).mem = s.mem ∧ (tried s r).emn.slots = s.emn.slots ∧ (tried s r).flt = s.flt ∧
    (tried s r).fuse = s.fuse := by
  unfold tried
  split <;> exact ⟨rfl, rfl, rfl, rfl⟩

theorem bootInto_fuse (s : State) (r : JRec) (conf : Bool) : (bootInto s r conf).fuse.colBad = s.fuse.colBad ∧
    (bootInto s r conf).fuse.colBlown = s.fuse.colBlown := by
  have hfuse : (loadImages (imageIn (bootShown s r conf) r)).fuse = s.fuse :=
    (loadImages_units _).2.2.2.2.2.1.trans ((imageIn_units _ r).2.2.2.2.2.1.trans (bootShown_units s r conf).2.2.2.2.2)
  unfold bootInto
  rw [followConfirmed_keeps (π := fun u : State => u.fuse.colBad) (fun _ _ => rfl), followConfirmed_keeps (π := fun u : State => u.fuse.colBlown)
    (fun _ _ => rfl), hfuse]
  exact ⟨rfl, rfl⟩

/-! ### Column fuses (R91) -/

/-- A column's fuse is blown on request. -/
def fuseStep (s : State) (c : Nat) : State :=
  if c < 256 ∧ bitOf (Nat.lor s.fuse.colBad s.fuse.colBlown) c = false ∧
      (List.range 256).countP (bitOf (Nat.lor s.fuse.colBad s.fuse.colBlown)) < 16 then
    { s with fuse := { s.fuse with colBlown := Nat.lor s.fuse.colBlown (2 ^ c) } }
  else s

theorem blowFuses_eq (cols : List Nat) (s : State) : blowFuses cols s = cols.foldl fuseStep s := rfl

/-- To blow fuses changes nothing but fuses that are blown. -/
theorem blowFuses_same (cols : List Nat) (s : State) : (blowFuses cols s).emn = s.emn ∧ (blowFuses cols s).fuse.svn = s.fuse.svn := by
  have h := PowerLaws.foldl_keeps (V := fun u : State => (u.emn, u.fuse.svn)) (f := fuseStep) (fun u c => by unfold fuseStep; split <;> rfl) cols s
  exact Prod.mk.inj h

/-- RESET_N held low. -/
def resetHeld (s : State) (low : Bool) : State := { s with emn := { s.emn with resetLow := low } }

theorem blowFuses_resetHeld (cols : List Nat) (s : State) (low : Bool) : blowFuses cols (resetHeld s low) = resetHeld (blowFuses cols s) low := by
  rw [blowFuses_eq, blowFuses_eq]
  induction cols generalizing s with
  | nil => rfl
  | cons c cols ih =>
    have hstep : fuseStep (resetHeld s low) c = resetHeld (fuseStep s c) low := by
      by_cases h : c < 256 ∧ bitOf (Nat.lor s.fuse.colBad s.fuse.colBlown) c = false ∧
          (List.range 256).countP (bitOf (Nat.lor s.fuse.colBad s.fuse.colBlown)) < 16
      · have hblown : fuseStep s c = _ := if_pos h
        rw [hblown]
        exact if_pos h
      · have hkept : fuseStep s c = s := if_neg h
        rw [hkept]
        exact if_neg h
    rw [List.foldl_cons, List.foldl_cons, hstep, ih]

/-! ### POWER_ON (R448, R517) -/

/-- What has outlasted the loss of power. -/
def unpowered (s : State) : State :=
  { s with
    mem := [], flt := {}, kiln := {}, pwr := {}
    emn := { journal := s.emn.journal, slots := s.emn.slots, dbgCount := s.emn.dbgCount, trnOwner := s.emn.trnOwner } }

theorem powerOn_eq (straps : Nat) (blown : List Nat) (s : State) : powerOn straps blown s = coldBoot straps (unpowered (blowFuses blown s)) := rfl

/-- The state that POWER_ON selects an image in. -/
theorem coldSet_unpowered (straps : Nat) (s : State) : (coldSet straps (allOff (unpowered s))).mem = [] ∧
    (coldSet straps (allOff (unpowered s))).emn.journal = s.emn.journal ∧ (coldSet straps (allOff (unpowered s))).emn.slots = s.emn.slots ∧
    (coldSet straps (allOff (unpowered s))).flt.port = {} ∧ (coldSet straps (allOff (unpowered s))).flt.faultN = false ∧
    (coldSet straps (allOff (unpowered s))).fuse = { s.fuse with colBad := Nat.lor s.fuse.colBad s.fuse.colBlown, colBlown := 0 } := by
  obtain ⟨h1, h2, h3, h4, h5, h6⟩ := coldSet_units straps (allOff (unpowered s))
  obtain ⟨hjournal, hslots, -, -, -⟩ := allOff_emn (unpowered s)
  obtain ⟨-, -, -, hfuse⟩ := allOff_units (unpowered s)
  refine ⟨?_, h2.trans hjournal, h3.trans hslots, h4.trans (allOff_port _), h5, ?_⟩
  · rw [h1, allOff_mem]
    rfl
  · rw [h6, hfuse]
    rfl

theorem powerOn_recovers {s : State} {straps : Nat} (blown : List Nat) (h : bitOf straps 1 = false) :
    ∃ t, exec (.powerOn ⟨straps, blown⟩) s = .next t ∧ getF t F.EMN_BOOT_STAT_STAGE = 7 ∧ (∀ p ∈ t.parts, p = {}) ∧ t.emn.booted = none ∧
      t.flt.faultN = true ∧ t.pwr.compOn = true ∧ t.pwr.portOn = true ∧ t.mem = [] ∧ t.emn.journal = s.emn.journal ∧ t.emn.slots = s.emn.slots := by
  have hrun := (powerOn_eq straps blown s).trans (coldBoot_eq ..)
  rw [if_neg (ne_true_of_eq_false h)] at hrun
  obtain ⟨c1, c2, c3, -, -, -⟩ := coldSet_unpowered straps (blowFuses blown s)
  generalize coldSet straps (allOff (unpowered (blowFuses blown s))) = z at hrun c1 c2 c3
  obtain ⟨hemn, -⟩ := blowFuses_same blown s
  obtain ⟨r1, -, r3, r4, r5, r6⟩ := recovery_facts z
  refine ⟨_, congrArg Host.Outcome.next hrun, (getF_recovery ..).trans (getF_setF_same ..), ?_, by rw [r3], by rw [r5], by rw [r1], by rw [r1],
    r6.trans c1, ?_, ?_⟩
  · rw [r4]
    exact fun p hp => List.eq_of_mem_replicate hp
  · rw [r3, ← hemn]
    exact c2
  · rw [r3, ← hemn]
    exact c3

theorem powerOn_boots {s : State} {straps : Nat} {r : JRec} {rest : List JRec} (blown : List Nat) (hroom : s.emn.journal.length < 1024)
    (hstrap : bitOf straps 1 = true) (hrecs : slotRecs s.emn.journal = r :: rest) (hqual : recQualifies s r = true)
    (hgood : (slotImg s r.slot).any (·.good) = true) :
    ∃ t, exec (.powerOn ⟨straps, blown⟩) s = .next t ∧ t.emn.booted = some r ∧ t.emn.locks = true ∧ t.fuse.colBlown = 0 ∧
      t.fuse.colBad = Nat.lor (blowFuses blown s).fuse.colBad (blowFuses blown s).fuse.colBlown ∧ getF t F.EMN_BOOT_STAT_STAGE = 2 ∧
      t.flt.faultN = false ∧ t.pwr.compOn = true ∧ t.pwr.portOn = true ∧ t.mem = [] ∧ t.flt.port.queue = [] ∧ t.emn.slots = s.emn.slots ∧
      s.fuse.svn ≤ t.fuse.svn ∧
      t.emn.journal = s.emn.journal ++ (if jConfirmed s.emn.journal r then [] else [{ kind := 2, slot := r.slot, seq := r.seq }]) := by
  have hrun := (powerOn_eq straps blown s).trans (coldBoot_eq ..)
  rw [if_pos hstrap] at hrun
  obtain ⟨c1, c2, c3, c4, c5, c6⟩ := coldSet_unpowered straps (blowFuses blown s)
  generalize coldSet straps (allOff (unpowered (blowFuses blown s))) = z at hrun c1 c2 c3 c4 c5 c6
  obtain ⟨hemn, hsvn⟩ := blowFuses_same blown s
  rw [hemn] at c2 c3
  have hsvn' : z.fuse.svn = s.fuse.svn := (congrArg Fuse.svn c6).trans hsvn
  rw [selectImage, c2, hrecs, pickRec_first ((recQualifies_congr c3 c2 hsvn' r).trans hqual) (by rw [slotImg, c3]; exact hgood), c2] at hrun
  obtain ⟨t1, t2, t3, t4⟩ := tried_units z r
  obtain ⟨b1, b2, -, b4, b5⟩ := bootInto_units (tried z r) r (jConfirmed s.emn.journal r)
  obtain ⟨f1, f2⟩ := bootInto_fuse (tried z r) r (jConfirmed s.emn.journal r)
  have hle := bootInto_svn (tried z r) r (jConfirmed s.emn.journal r)
  have hjournal := tried_journal r (show z.emn.journal.length < 1024 by rw [c2]; exact hroom)
  refine ⟨_, congrArg Host.Outcome.next hrun, by rw [b1], by rw [b1], ?_, ?_, getF_bootInto_stage .., ?_, by rw [b2], by rw [b2], ?_, ?_, ?_, ?_, ?_⟩
  · rw [f2, t4, c6]
  · rw [f1, t4, c6]
  · rw [b5, t3, c5]
  · rw [b4, t1, c1]
  · rw [b5, t3, c4]
  · rw [b1, ← c3]
    exact t2
  · rw [t4, hsvn'] at hle
    exact hle
  · rw [b1, ← c2]
    exact hjournal

/-! ### RESET_N (R518) -/

/-- RESET_N is recognised low. -/
def resetLow (z : State) : State :=
  { z with
    emn := { z.emn with resetLow := true, sealKey := false, update := none }, kiln := { z.kiln with ember := 0 }
    flt := { z.flt with faultN := false, held := false, restarting := false } }

theorem resetLow_units (z : State) : (resetLow z).emn.resetLow = true ∧ (resetLow z).pwr = z.pwr ∧ (resetLow z).emn.sealKey = false ∧
    (resetLow z).flt.faultN = false ∧ (resetLow z).mem = z.mem ∧ (resetLow z).emn.journal = z.emn.journal ∧ (resetLow z).emn.slots = z.emn.slots :=
  ⟨rfl, rfl, rfl, rfl, rfl, rfl, rfl⟩

theorem resetN_low {s : State} (straps : Nat) (blown : List Nat) (h : s.emn.resetLow = false) :
    resetN true straps blown s = resetLow (loseDram (allOff s)) := by
  unfold resetN
  rw [if_pos rfl, if_neg (ne_true_of_eq_false h)]
  rfl

theorem resetN_released (s : State) (straps : Nat) (blown : List Nat) (h : s.emn.resetLow = false) :
    resetN false straps blown (resetHeld s true) = coldBoot straps (blowFuses blown s) := by
  have hback : resetHeld (resetHeld (blowFuses blown s) true) false = blowFuses blown s := by
    have hlow : (blowFuses blown s).emn.resetLow = false := (congrArg Emn.resetLow (blowFuses_same blown s).1).trans h
    unfold resetHeld
    rw [← hlow]
  unfold resetN
  rw [if_neg Bool.false_ne_true, if_pos (show (resetHeld s true).emn.resetLow = true from rfl), blowFuses_resetHeld]
  exact congrArg (coldBoot straps) hback

/-! ### Restart of the compute die (R450, R493) -/

theorem resetComp_lost (s : State) : (resetComp s).sec.containers = [] ∧ (resetComp s).sec.slots = [] ∧ (resetComp s).parts = State.reset.parts ∧
    (resetComp s).tick = {} ∧ (resetComp s).net = { s.net with staged := [] } ∧ (resetComp s).pwr.dcReset = false ∧
    (resetComp s).flt.safe = false ∧ (resetComp s).flt.restartDue = false ∧ (resetComp s).flt.reboots = s.flt.reboots := by
  simp only [resetComp, setF, freshParts, and_self]

/-- The images are loaded again. -/
def reloaded (z : State) : State :=
  setF { loadImages z with pwr := { (loadImages z).pwr with compOn := true } } F.EMN_BOOT_STAT_STAGE 2

theorem reload_eq (s : State) : reload s = reloaded (resetComp s) := by
  unfold reload
  generalize resetComp s = z
  rfl

theorem loadImages_rest (z : State) : (loadImages z).qm = z.qm ∧ (loadImages z).sec = z.sec ∧ (loadImages z).parts = z.parts ∧
    (loadImages z).tick = z.tick ∧ (loadImages z).net = z.net := by
  simp only [loadImages, useBuf, setB, and_self]

theorem reloaded_units (z : State) : (reloaded z).pwr = { z.pwr with compOn := true } ∧ (reloaded z).flt = z.flt ∧ (reloaded z).qm = z.qm ∧
    (reloaded z).sec = z.sec ∧ (reloaded z).parts = z.parts ∧ (reloaded z).tick = z.tick ∧ (reloaded z).net = z.net ∧
    (reloaded z).emn = { z.emn with locks := true } ∧ (reloaded z).kiln = z.kiln ∧ (reloaded z).mem = z.mem := by
  obtain ⟨hemn, hpwr, hkiln, hmem, hflt, -, -⟩ := loadImages_units z
  obtain ⟨hqm, hsec, hparts, htick, hnet⟩ := loadImages_rest z
  unfold reloaded
  rw [setF_pwr, setF_flt, setF_qm, setF_sec, setF_parts, setF_tick, setF_net, setF_emn, setF_kiln, setF_mem]
  exact ⟨by rw [hpwr], hflt, hqm, hsec, hparts, htick, hnet, hemn, hkiln, hmem⟩

theorem getF_reloaded (z : State) : getF (reloaded z) F.EMN_BOOT_STAT_STAGE = 2 := getF_setF_same ..

/-- A restart that the fault unit asked for. -/
def restarted (w : State) (safe : Bool) : State := { w with flt := { w.flt with restarting := safe, reboots := w.flt.reboots + 1 } }

/-- A restart once a trip has cooled down. -/
def cooled (w : State) : State := { w with kiln := { w.kiln with tripped := false }, flt := { w.flt with reboots := w.flt.reboots + 1 } }

section
variable {s : State} (hlow : s.emn.resetLow = false)
include hlow

theorem compRestart_due (htrip : s.kiln.tripped = false) (hdue : s.flt.restartDue = true) (hheld : s.flt.held = false) :
    compRestart s = restarted (reload s) s.flt.safe := by
  unfold compRestart
  rw [if_neg (ne_true_of_eq_false hlow), if_neg (ne_true_of_eq_false htrip), if_pos ⟨hdue, hheld⟩]
  rfl

theorem compRestart_none (htrip : s.kiln.tripped = false) (h : s.flt.restartDue = false ∨ s.flt.held = true) : compRestart s = s := by
  unfold compRestart
  rw [if_neg (ne_true_of_eq_false hlow), if_neg (ne_true_of_eq_false htrip), if_neg]
  rintro ⟨hdue, hheld⟩
  rcases h with h | h
  · exact Bool.false_ne_true (h.symm.trans hdue)
  · exact Bool.false_ne_true (hheld.symm.trans h)

theorem compRestart_hot (htrip : s.kiln.tripped = true) (h : allCool s = false) : compRestart s = s := by
  unfold compRestart
  rw [if_neg (ne_true_of_eq_false hlow), if_pos htrip, if_neg (ne_true_of_eq_false h)]

theorem compRestart_cool (htrip : s.kiln.tripped = true) (h : allCool s = true) (hport : s.pwr.portOn = true) :
    compRestart s = cooled (reload s) := by
  unfold compRestart
  rw [if_neg (ne_true_of_eq_false hlow), if_pos htrip, if_pos h, if_pos hport]
  rfl

end

/-! ### Tick-ready and the host's training (R448, R449) -/

/-- The device is tick-ready. -/
def tickReadied (s : State) : State :=
  { setF (setF s F.HIF_DEVSTAT_BOOT 2) F.EMN_BOOT_STAT_STAGE 3 with flt := { s.flt with faultN := false, restarting := false } }

theorem tickReadied_facts (s : State) : getF (tickReadied s) F.HIF_DEVSTAT_BOOT = 2 ∧ getF (tickReadied s) F.EMN_BOOT_STAT_STAGE = 3 :=
  ⟨(getF_setF_ne _ _ _ _ (by decide)).trans (getF_setF_same ..), getF_setF_same ..⟩

/-! ### The update of the flash (R457 to R460) -/

section
variable (len : BitVec 24)

theorem bitsOf_len {c : Nat} (hc : c < 8) : bitsOf (256 * len.toNat + c) 8 24 = len.toNat ∧ bitsOf (256 * len.toNat + c) 0 3 = c := by
  have := len.isLt
  simp only [bitsOf]
  omega

/-- The command's length is stored. -/
def lenSet (s : State) : State := setF s F.EMN_UPD_CMD_LEN_KIB len.toNat

theorem getF_lenSet (s : State) : getF (lenSet len s) F.EMN_UPD_CMD_LEN_KIB = len.toNat :=
  (getF_setF_same ..).trans (Nat.mod_eq_of_lt len.isLt)

theorem getF_lenSet_ne (s : State) {x : Fld} (h : x.key ≠ F.EMN_UPD_CMD_LEN_KIB.key) : getF (lenSet len s) x = getF s x := getF_setF_ne _ _ _ _ h

variable {len}

theorem updCmd_start {s : State} {m : Master} {img : SlotImg} {last : Bool} (h : regGate s true 4 0x2C m (256 * len.toNat + 1) = .pass) :
    updCmdWrite m (256 * len.toNat + 1) img last s = updStart img (lenSet len s) := by
  obtain ⟨hlen, hcmd⟩ := bitsOf_len len (c := 1) (by decide)
  unfold updCmdWrite
  rw [PartLaws.gated_pass _ h, hlen, hcmd]
  rfl

theorem updCmd_healthy {s : State} {m : Master} {img : SlotImg} {last : Bool} (h : regGate s true 4 0x2C m (256 * len.toNat + 2) = .pass) :
    updCmdWrite m (256 * len.toNat + 2) img last s = healthy (lenSet len s) := by
  obtain ⟨hlen, hcmd⟩ := bitsOf_len len (c := 2) (by decide)
  unfold updCmdWrite
  rw [PartLaws.gated_pass _ h, hlen, hcmd]
  rfl

theorem updCmd_confirm {s : State} {m : Master} {img : SlotImg} {last : Bool} (h : regGate s true 4 0x2C m (256 * len.toNat + 3) = .pass) :
    updCmdWrite m (256 * len.toNat + 3) img last s = confirm (lenSet len s) := by
  obtain ⟨hlen, hcmd⟩ := bitsOf_len len (c := 3) (by decide)
  unfold updCmdWrite
  rw [PartLaws.gated_pass _ h, hlen, hcmd]
  rfl

theorem updCmd_chunk {s : State} {m : Master} {img : SlotImg} {last : Bool} (h : regGate s true 4 0x2C m (256 * len.toNat + 4) = .pass) :
    updCmdWrite m (256 * len.toNat + 4) img last s = recChunk last img (lenSet len s) := by
  obtain ⟨hlen, hcmd⟩ := bitsOf_len len (c := 4) (by decide)
  unfold updCmdWrite
  rw [PartLaws.gated_pass _ h, hlen, hcmd]
  rfl

end

/-- A result that is a failure is reported. -/
theorem updResult_failed (s : State) {r : Nat} (h : r = 1 ∨ r = 3 ∨ r = 4) : updResult s r = emnRaise (setF s F.EMN_UPD_CMD_RESULT r) 0x0242 := if_pos h

theorem updResult_done (s : State) {r : Nat} (h : ¬ (r = 1 ∨ r = 3 ∨ r = 4)) : updResult s r = setF s F.EMN_UPD_CMD_RESULT r := if_neg h

theorem updResult_emn (s : State) (r : Nat) : (updResult s r).emn = s.emn := by
  by_cases h : r = 1 ∨ r = 3 ∨ r = 4
  · rw [updResult_failed s h]
    exact raise_emn ..
  · rw [updResult_done s h]
    rfl

theorem getF_updResult (s : State) {r : Nat} (hr : r < 16) : getF (updResult s r) F.EMN_UPD_CMD_RESULT = r := by
  have hset : getF (setF s F.EMN_UPD_CMD_RESULT r) F.EMN_UPD_CMD_RESULT = r := (getF_setF_same ..).trans (Nat.mod_eq_of_lt hr)
  by_cases h : r = 1 ∨ r = 3 ∨ r = 4
  · rw [updResult_failed s h, emnRaise, RaiseLaws.getF_raise_ne _ _ _ _ _ _ _ _ (by decide), hset]
  · rw [updResult_done s h, hset]

theorem updResult_queue {s : State} {r : Nat} (h : r = 1 ∨ r = 3 ∨ r = 4) (hroom : s.flt.port.queue.length < 32) :
    ∃ x, (updResult s r).flt.port.queue = s.flt.port.queue ++ [x] ∧ x.code = 0x0242 ∧ x.cls = 0 := by
  rw [updResult_failed s h]
  exact ⟨_, RaiseLaws.raise_queue (setF s F.EMN_UPD_CMD_RESULT r) true 0x0242 0 none 4 0xFFFF [] hroom, rfl, rfl⟩

theorem getF_stage_updResult (s : State) (r : Nat) : getF (updResult s r) F.EMN_BOOT_STAT_STAGE = getF s F.EMN_BOOT_STAT_STAGE := by
  have hset : getF (setF s F.EMN_UPD_CMD_RESULT r) F.EMN_BOOT_STAT_STAGE = getF s F.EMN_BOOT_STAT_STAGE := getF_setF_ne _ _ _ _ (by decide)
  by_cases h : r = 1 ∨ r = 3 ∨ r = 4
  · rw [updResult_failed s h, emnRaise, RaiseLaws.getF_raise_ne _ _ _ _ _ _ _ _ (by decide), hset]
  · rw [updResult_done s h, hset]

/-- The other slot is erased, and an update is under way. -/
def updBegun (img : SlotImg) (s : State) : State :=
  { setF (setF s F.EMN_UPD_CMD_BUSY 1) F.EMN_BOOT_STAT_STAGE 5 with
    emn := { s.emn with update := some (img, otherSlot s), slots := s.emn.slots.set (otherSlot s) none } }

theorem getF_updBegun (img : SlotImg) (s : State) : isSet (updBegun img s) F.EMN_UPD_CMD_BUSY = true ∧ getF (updBegun img s) F.EMN_BOOT_STAT_STAGE = 5 ∧
    getF (updBegun img s) F.EMN_UPD_CMD_LEN_KIB = getF s F.EMN_UPD_CMD_LEN_KIB := by
  refine ⟨?_, getF_setF_same .., (getF_setF_ne _ _ _ _ (by decide)).trans (getF_setF_ne _ _ _ _ (by decide))⟩
  exact (congrArg (· == 1) (getF_setF_ne _ _ _ _ (by decide))).trans (ArrayLaws.isSet_setF_one s (x := F.EMN_UPD_CMD_BUSY) rfl)

section
variable {s : State} {img : SlotImg}

theorem updStart_busy (h : s.emn.update.isSome = true ∨ s.kiln.ember ≠ 0) : updStart img s = setF s F.EMN_UPD_CMD_RESULT 2 :=
  (if_pos h).trans (updResult_done s (by decide))

variable (hidle : s.emn.update = none) (hember : s.kiln.ember = 0)
include hidle hember

theorem updStart_free : ¬ (s.emn.update.isSome = true ∨ s.kiln.ember ≠ 0) := by
  rw [hidle, hember]
  simp

theorem updStart_refused (h : imgAccepted s img = false ∨ 16128 < getF s F.EMN_UPD_CMD_LEN_KIB) : updStart img s = updResult s 1 :=
  (if_neg (updStart_free hidle hember)).trans (if_pos h)

theorem updStart_begun (hok : imgAccepted s img = true) (hlen : getF s F.EMN_UPD_CMD_LEN_KIB ≤ 16128) : updStart img s = updBegun img s := by
  refine (if_neg (updStart_free hidle hember)).trans (if_neg ?_)
  rintro (h | h)
  · exact Bool.false_ne_true (h.symm.trans hok)
  · omega

end

/-- A manifest is accepted or not by its signatures, its SVN and the number of its components. -/
theorem imgAccepted_iff (s : State) (x : SlotImg) : imgAccepted s x = true ↔ x.signed = true ∧ s.fuse.svn ≤ x.svn ∧ x.svn ≤ 64 ∧ x.comps.length ≤ 16 := by
  unfold imgAccepted
  simp only [Bool.and_eq_true, decide_eq_true_eq, and_assoc]

/-- The readback's verdict is in its slot. -/
def readBack (s : State) (img : SlotImg) (k : Nat) (ok : Bool) : State :=
  { s with emn := { s.emn with slots := s.emn.slots.set k (some { img with good := ok }) } }

/-- The update is over, but for its result. -/
def updEnded (s : State) : State :=
  { setF (setF s F.EMN_UPD_CMD_BUSY 0) F.EMN_BOOT_STAT_STAGE 3 with emn := { s.emn with update := none } }

theorem updDone_eq (s : State) (r : Nat) : updDone s r = updResult (updEnded s) r := rfl

theorem updateComplete_eq {s : State} {img : SlotImg} {k : Nat} (ok : Bool) (h : s.emn.update = some (img, k)) : updateComplete ok s =
    if ok then updDone (jAppend (readBack s img k ok) { kind := 1, slot := k, seq := topSeq s.emn.journal + 1, digest := img.digest }) 0
    else updDone (readBack s img k ok) 3 := by
  unfold updateComplete
  rw [h]
  rfl

/-- A matching image's record is in the journal. -/
def slotted (s : State) (img : SlotImg) (k : Nat) : State :=
  { readBack s img k true with emn := { (readBack s img k true).emn with
      journal := s.emn.journal ++ [{ kind := 1, slot := k, seq := topSeq s.emn.journal + 1, digest := img.digest }] } }

theorem updateComplete_good {s : State} {img : SlotImg} {k : Nat} (h : s.emn.update = some (img, k)) (hroom : s.emn.journal.length < 1024) :
    updateComplete true s = setF (updEnded (slotted s img k)) F.EMN_UPD_CMD_RESULT 0 := by
  have hr := jAppend_room (s := readBack s img k true) { kind := 1, slot := k, seq := topSeq s.emn.journal + 1, digest := img.digest } hroom
  rw [updateComplete_eq true h, if_pos rfl, hr, updDone_eq, updResult_done _ (by decide)]
  rfl

theorem updateComplete_bad {s : State} {img : SlotImg} {k : Nat} (h : s.emn.update = some (img, k)) :
    updateComplete false s = updResult (updEnded (readBack s img k false)) 3 := by
  rw [updateComplete_eq false h, if_neg Bool.false_ne_true, updDone_eq]

theorem getF_updEnded (s : State) : getF (setF (updEnded s) F.EMN_UPD_CMD_RESULT 0) F.EMN_UPD_CMD_BUSY = 0 ∧
    getF (setF (updEnded s) F.EMN_UPD_CMD_RESULT 0) F.EMN_UPD_CMD_RESULT = 0 ∧
    getF (setF (updEnded s) F.EMN_UPD_CMD_RESULT 0) F.EMN_BOOT_STAT_STAGE = 3 := by
  refine ⟨?_, getF_setF_same .., ?_⟩
  · rw [getF_setF_ne _ _ _ _ (by decide)]
    exact (getF_setF_ne _ _ _ _ (by decide)).trans (getF_setF_same ..)
  · rw [getF_setF_ne _ _ _ _ (by decide)]
    exact getF_setF_same ..

/-- What the end of an update leaves of Emino's state and the fault units. -/
theorem updEnded_units (z : State) : (setF (updEnded z) F.EMN_UPD_CMD_RESULT 0).emn = { z.emn with update := none } ∧
    (setF (updEnded z) F.EMN_UPD_CMD_RESULT 0).flt = z.flt ∧ (updEnded z).emn = { z.emn with update := none } := by
  simp only [updEnded, setF_emn, setF_flt, and_self]

theorem slotted_units (s : State) (img : SlotImg) (k : Nat) : (slotted s img k).emn.slots = s.emn.slots.set k (some { img with good := true }) ∧
    (slotted s img k).emn.journal = s.emn.journal ++ [{ kind := 1, slot := k, seq := topSeq s.emn.journal + 1, digest := img.digest }] ∧
    (slotted s img k).flt = s.flt := ⟨rfl, rfl, rfl⟩

theorem readBack_journal (s : State) (img : SlotImg) (k : Nat) (ok : Bool) : (readBack s img k ok).emn.journal = s.emn.journal := rfl

/-! ### CONFIRM (R458) -/

/-- The booted record is confirmed in the journal. -/
def confirmed (s : State) (r : JRec) : State :=
  if jConfirmed s.emn.journal r then s else jAppend s { kind := 3, slot := r.slot, seq := r.seq }

theorem confirm_unhealthy {s : State} (h : s.emn.healthy = false ∨ s.emn.booted = none) : confirm s = s := by
  unfold confirm
  rcases h with h | h
  · split
    · exact if_neg (ne_true_of_eq_false h)
    · rfl
  · rw [h]

theorem confirmed_journal {s : State} (r : JRec) (hroom : s.emn.journal.length < 1024) : jConfirmed (confirmed s r).emn.journal r = true ∧
    (∀ y ∈ s.emn.journal, y ∈ (confirmed s r).emn.journal) ∧ (confirmed s r).emn.slots = s.emn.slots ∧ (confirmed s r).fuse = s.fuse := by
  unfold confirmed
  split <;> rename_i h
  · exact ⟨h, fun _ hy => hy, rfl, rfl⟩
  · rw [jAppend_room _ hroom]
    refine ⟨List.any_eq_true.mpr ⟨{ kind := 3, slot := r.slot, seq := r.seq }, List.mem_append_right _ (by simp), by simp⟩,
      fun y hy => List.mem_append_left _ hy, rfl, rfl⟩

theorem confirm_healthy {s : State} {r : JRec} {x : SlotImg} (hhealthy : s.emn.healthy = true) (hboot : s.emn.booted = some r)
    (hslot : slotImg (confirmed s r) r.slot = some x) : confirm s = setF (raiseSvn (confirmed s r) x.svn) F.EMN_BOOT_STAT_TRIAL 0 := by
  unfold confirm
  rw [hboot]
  dsimp only
  rw [if_pos hhealthy]
  unfold confirmed at hslot ⊢
  rw [hslot]

/-! ### REC_CHUNK (R459) -/

/-- Slot A holds an image, or none. -/
def slotA (s : State) (x : Option SlotImg) : State := { s with emn := { s.emn with slots := s.emn.slots.set 0 x } }

section
variable {s : State} {img : SlotImg} (hstage : getF s F.EMN_BOOT_STAT_STAGE = 7)
include hstage

theorem recChunk_part : recChunk false img s = slotA s none := (if_neg (fun h => h hstage)).trans (if_pos rfl)

theorem recChunk_last : recChunk true img s =
    if imgAccepted s img = false then updResult (slotA s (some img)) 1
    else if img.good = false then updResult (slotA s (some img)) 3
    else coldBoot s.emn.straps (jAppend (setF (slotA s (some img)) F.EMN_UPD_CMD_RESULT 0)
      { kind := 1, slot := 0, seq := topSeq s.emn.journal + 1, digest := img.digest }) := by
  refine (if_neg (fun h => h hstage)).trans ((if_neg (by decide)).trans ?_)
  rw [← updResult_done (slotA s (some img)) (r := 0) (by decide)]
  rfl

end

/-- The last chunk's image is in slot A, with its record. -/
def chunkIn (s : State) (img : SlotImg) : State :=
  { setF (slotA s (some img)) F.EMN_UPD_CMD_RESULT 0 with emn := { (slotA s (some img)).emn with
      journal := s.emn.journal ++ [{ kind := 1, slot := 0, seq := topSeq s.emn.journal + 1, digest := img.digest }] } }

theorem chunkIn_room {s : State} {img : SlotImg} (hroom : s.emn.journal.length < 500) :
    (chunkIn s img).emn.journal.length + (slotRecs (chunkIn s img).emn.journal).length ≤ 1024 := by
  have hlen : (chunkIn s img).emn.journal.length = s.emn.journal.length + 1 := List.length_append
  have hrecs := length_slotRecs (chunkIn s img).emn.journal
  omega

theorem recChunk_good {s : State} {img : SlotImg} (hstage : getF s F.EMN_BOOT_STAT_STAGE = 7) (hok : imgAccepted s img = true)
    (hgood : img.good = true) (hroom : s.emn.journal.length < 1024) : recChunk true img s = coldBoot s.emn.straps (chunkIn s img) := by
  have hr := jAppend_room (s := setF (slotA s (some img)) F.EMN_UPD_CMD_RESULT 0)
    { kind := 1, slot := 0, seq := topSeq s.emn.journal + 1, digest := img.digest } hroom
  rw [recChunk_last hstage, if_neg (by rw [hok]; decide), if_neg (by rw [hgood]; decide), hr]
  rfl

/-- A cold boot keeps the slots, turns both dies on, and only adds to a journal with room. -/
theorem coldBoot_keeps (straps : Nat) {s : State} (hroom : s.emn.journal.length + (slotRecs s.emn.journal).length ≤ 1024) :
    (coldBoot straps s).emn.slots = s.emn.slots ∧ (coldBoot straps s).pwr.compOn = true ∧ (coldBoot straps s).pwr.portOn = true ∧
      ∀ y ∈ s.emn.journal, y ∈ (coldBoot straps s).emn.journal := by
  obtain ⟨-, c2, c3, -, -, -⟩ := coldSet_units straps (allOff s)
  obtain ⟨hjournal, hslots, -, -, -⟩ := allOff_emn s
  rw [coldBoot_eq]
  generalize coldSet straps (allOff s) = z at c2 c3
  rw [hjournal] at c2
  rw [hslots] at c3
  split
  · obtain ⟨h1, h2, h3⟩ := pickRec_slots (l := slotRecs z.emn.journal) (s := z)
    refine ⟨h1.trans c3, h2, h3, fun y hy => mem_journal_pickRec _ ?_ ?_⟩
    · rw [c2]
      exact hroom
    · rw [c2]
      exact hy
  · refine ⟨c3, rfl, rfl, fun y hy => ?_⟩
    show y ∈ z.emn.journal
    rw [c2]
    exact hy

/-- POWER_ON with STRAP1 at ground, and with a record that qualifies. -/
theorem powerOn_acts :
    (∀ (s : State) (straps : Nat) (blown : List Nat), s.emn.journal.length < 1024 →
      (bitOf straps 1 = false → ∃ t, exec (.powerOn ⟨straps, blown⟩) s = .next t ∧ getF t F.EMN_BOOT_STAT_STAGE = 7 ∧ (∀ p ∈ t.parts, p = {}) ∧ t.emn.booted = none ∧ t.flt.faultN = true ∧
        t.pwr.compOn = true ∧ t.pwr.portOn = true ∧ t.mem = [] ∧ t.emn.journal = s.emn.journal ∧ t.emn.slots = s.emn.slots) ∧
      (∀ r rest, bitOf straps 1 = true → slotRecs s.emn.journal = r :: rest → recQualifies s r = true → (slotImg s r.slot).any (·.good) = true →
        ∃ t, exec (.powerOn ⟨straps, blown⟩) s = .next t ∧ t.emn.booted = some r ∧ t.emn.locks = true ∧ t.fuse.colBlown = 0 ∧
          t.fuse.colBad = Nat.lor (blowFuses blown s).fuse.colBad (blowFuses blown s).fuse.colBlown ∧ getF t F.EMN_BOOT_STAT_STAGE = 2 ∧ t.flt.faultN = false ∧ t.pwr.compOn = true ∧
          t.pwr.portOn = true ∧ t.mem = [] ∧ t.flt.port.queue = [] ∧ t.emn.slots = s.emn.slots ∧ s.fuse.svn ≤ t.fuse.svn ∧
          t.emn.journal = s.emn.journal ++ (if jConfirmed s.emn.journal r then [] else [{ kind := 2, slot := r.slot, seq := r.seq }]))) := by
  exact fun s straps blown hroom => ⟨fun h => powerOn_recovers blown h, fun r rest h hrecs hqual hgood => powerOn_boots blown hroom h hrecs hqual hgood⟩

/-- RESET_N held low, and its release. -/
theorem resetN_acts :
    (∀ (s : State) (straps : Nat) (blown : List Nat), s.emn.resetLow = false →
      (∃ t, exec (.resetN true ⟨straps, blown⟩) s = .next t ∧ t.emn.resetLow = true ∧ t.pwr.compOn = false ∧ t.pwr.portOn = false ∧ t.emn.sealKey = false ∧
        t.flt.faultN = false ∧ (∀ a, a < 0x800000000 → rdByte t.mem a = 0) ∧ t.emn.journal = s.emn.journal ∧ t.emn.slots = s.emn.slots) ∧
      exec (.resetN false ⟨straps, blown⟩) s = .next s ∧
      (∀ u : State, u = { s with emn := { s.emn with resetLow := true } } → exec (.resetN false ⟨straps, blown⟩) u = .next (coldBoot straps (blowFuses blown s)) ∧
        exec (.resetN true ⟨straps, blown⟩) u = .next u)) := by
  intro s straps blown hlow
  refine ⟨?_, congrArg Host.Outcome.next (if_neg (ne_true_of_eq_false hlow)), ?_⟩
  · obtain ⟨r1, r2, r3, r4, r5, r6, r7⟩ := resetLow_units (loseDram (allOff s))
    obtain ⟨l1, l2, -⟩ := loseDram_same (allOff s)
    obtain ⟨p1, p2⟩ := allOff_pwr s
    obtain ⟨j1, j2, -, -, -⟩ := allOff_emn s
    refine ⟨_, congrArg Host.Outcome.next (resetN_low straps blown hlow), r1, ?_, ?_, r3, r4, fun a ha => ?_, ?_, ?_⟩
    · rw [r2, l1, p1]
    · rw [r2, l1, p2]
    · rw [r5]
      exact rdByte_loseDram _ ha
    · rw [r6, l2, j1]
    · rw [r7, l2, j2]
  · rintro u rfl
    exact ⟨congrArg Host.Outcome.next (resetN_released s straps blown hlow), rfl⟩

/-- A column fuse blown on request. -/
theorem blowFuses_one :
    (∀ (s : State) (c : Nat), c < 256 → bitOf (Nat.lor s.fuse.colBad s.fuse.colBlown) c = false →
      (blowFuses [c] s).fuse.colBlown = (if (List.range 256).countP (bitOf (Nat.lor s.fuse.colBad s.fuse.colBlown)) < 16 then
        Nat.lor s.fuse.colBlown (2 ^ c) else s.fuse.colBlown)) := by
  intro s c hc hbit
  by_cases h : (List.range 256).countP (bitOf (Nat.lor s.fuse.colBad s.fuse.colBlown)) < 16
  · have hblown : blowFuses [c] s = { s with fuse := { s.fuse with colBlown := Nat.lor s.fuse.colBlown (2 ^ c) } } := if_pos ⟨hc, hbit, h⟩
    rw [hblown, if_pos h]
  · have hkept : blowFuses [c] s = s := if_neg (fun hall => h hall.2.2)
    rw [hkept, if_neg h]

/-- A restart of the compute die. -/
theorem computeDieRestart_acts :
    (∀ (s : State), s.emn.resetLow = false →
      (s.kiln.tripped = false → s.flt.restartDue = true → s.flt.held = false →
        ∃ t, exec .computeDieRestart s = .next t ∧ t.pwr.compOn = true ∧ t.pwr.dcReset = false ∧ t.flt.restarting = s.flt.safe ∧
          t.flt.reboots = s.flt.reboots + 1 ∧ t.flt.safe = false ∧ t.flt.restartDue = false ∧ t.qm = [] ∧ t.sec.containers = [] ∧ t.sec.slots = [] ∧
          t.parts = State.reset.parts ∧ t.tick = {} ∧ getF t F.EMN_BOOT_STAT_STAGE = 2 ∧ t.net = { s.net with staged := [] } ∧ t.emn.locks = true ∧ t.kiln = s.kiln ∧
          (∀ a, (a < 0x800000000 ∨ emberBase ≤ a) → rdByte t.mem a = rdByte s.mem a) ∧
          (∀ a, 0x800000000 ≤ a → a < emberBase → rdByte t.mem a = 0)) ∧
      (s.kiln.tripped = false → (s.flt.restartDue = false ∨ s.flt.held = true) → exec .computeDieRestart s = .next s) ∧
      (s.kiln.tripped = true → allCool s = false → exec .computeDieRestart s = .next s) ∧
      (s.kiln.tripped = true → allCool s = true → s.pwr.portOn = true →
        ∃ t, exec .computeDieRestart s = .next t ∧ t.kiln.tripped = false ∧ t.pwr.compOn = true ∧ t.flt.reboots = s.flt.reboots + 1)) := by
  intro s hlow
  refine ⟨fun htrip hdue hheld => ?_, fun htrip h => congrArg Host.Outcome.next (compRestart_none hlow htrip h),
    fun htrip h => congrArg Host.Outcome.next (compRestart_hot hlow htrip h), fun htrip h hport => ?_⟩
  · have hrun := compRestart_due hlow htrip hdue hheld
    rw [reload_eq] at hrun
    obtain ⟨u1, u2, u3, u4, u5, u6, u7, u8, u9, u10⟩ := reloaded_units (resetComp s)
    obtain ⟨k1, k2, k3, k4, k5, k6, k7, k8, k9⟩ := resetComp_lost s
    obtain ⟨q1, q2, -, -⟩ := resetComp_units s
    have hmem := u10.trans (resetComp_mem s)
    refine ⟨_, congrArg Host.Outcome.next hrun, congrArg Pwr.compOn u1, (congrArg Pwr.dcReset u1).trans k6, rfl, ?_, (congrArg Flt.safe u2).trans k7,
      (congrArg Flt.restartDue u2).trans k8, u3.trans q1, (congrArg Sec.containers u4).trans k1, (congrArg Sec.slots u4).trans k2, u5.trans k3,
      u6.trans k4, getF_reloaded _, u7.trans k5, congrArg Emn.locks u8, u9.trans q2, fun a ha => ?_, fun a hlo hhi => ?_⟩
    · exact congrArg (· + 1) ((congrArg Flt.reboots u2).trans k9)
    · show rdByte (reloaded (resetComp s)).mem a = rdByte s.mem a
      rw [hmem]
      exact tabGet_tabDrop_out _ _ _ _ _ (by unfold emberBase at ha ⊢; omega)
    · show rdByte (reloaded (resetComp s)).mem a = 0
      rw [hmem]
      exact tabGet_tabDrop_in _ _ _ _ _ (by unfold emberBase at hhi ⊢; omega)
  · have hrun := compRestart_cool hlow htrip h hport
    rw [reload_eq] at hrun
    obtain ⟨u1, u2, -⟩ := reloaded_units (resetComp s)
    obtain ⟨-, -, -, -, -, -, -, -, k9⟩ := resetComp_lost s
    exact ⟨_, congrArg Host.Outcome.next hrun, rfl, congrArg Pwr.compOn u1, congrArg (· + 1) ((congrArg Flt.reboots u2).trans k9)⟩

/-- Tick-ready. -/
theorem tickReady_acts :
    (∀ (s : State), (getF s F.EMN_BOOT_STAT_STAGE = 2 ∨ getF s F.EMN_BOOT_STAT_STAGE = 4) → s.emn.booted.isSome = true → compDown s = false →
      isSet s F.DRC_STAT_READY = true → getF s F.HIF_DEVSTAT_BOOT = 1 → s.flt.held = false → s.flt.trainFail = false →
      ∃ t, exec .tickReady s = .next t ∧ getF t F.HIF_DEVSTAT_BOOT = 2 ∧ getF t F.EMN_BOOT_STAT_STAGE = 3 ∧ t.flt.faultN = false ∧
        t.flt.restarting = false ∧ { t with regs := s.regs, flt := s.flt } = s) := by
  intro s hstage hboot hdown hready hone hheld htrain
  obtain ⟨h1, h2⟩ := tickReadied_facts s
  exact ⟨tickReadied s, congrArg Host.Outcome.next (if_pos ⟨hstage, hboot, hdown, hready, hone, hheld, htrain⟩), h1, h2, rfl, rfl, rfl⟩

/-- The host's training that does not come. -/
theorem hostTraining_lapses :
    (∀ (s : State), isSet s F.DRC_TRN_CTL_OWNER = true → isSet s F.DRC_STAT_READY = false → getF s F.HIF_DEVSTAT_BOOT = 1 → s.pwr.compOn = true →
      getF s F.EMN_BOOT_STAT_STAGE ≠ 7 → exec .hostTrainingTimeout s = .next (raiseDevice s true 0x0167 4 0xFFFF [])) := by
  exact fun s howner hready hone hcomp hstage => congrArg Host.Outcome.next (if_pos ⟨howner, hready, hone, hcomp, hstage⟩)

/-- START of an update. -/
theorem updStart_acts :
    (∀ (s : State) (m : Master) (len : BitVec 24) (dg : BitVec 384) (signed : Bool) (svn : Nat) (comps : List (Nat × BitVec 384)),
      regGate s true 4 0x2C m (256 * len.toNat + 1) = .pass →
      (s.emn.update = none → s.kiln.ember = 0 → signed = true → s.fuse.svn ≤ svn → svn ≤ 64 → comps.length ≤ 16 → len.toNat ≤ 16128 → otherSlot s < s.emn.slots.length →
        ∃ t, exec (.updStart m len dg signed svn comps) s = .next t ∧ t.emn.update = some ({ digest := dg, signed := signed, svn := svn, comps := comps }, otherSlot s) ∧
          slotImg t (otherSlot s) = none ∧ (∀ k, k ≠ otherSlot s → slotImg t k = slotImg s k) ∧ isSet t F.EMN_UPD_CMD_BUSY = true ∧
          getF t F.EMN_BOOT_STAT_STAGE = 5 ∧ getF t F.EMN_UPD_CMD_LEN_KIB = len.toNat ∧ t.emn.journal = s.emn.journal ∧ t.mem = s.mem) ∧
      (s.emn.update = none → s.kiln.ember = 0 → (signed = false ∨ svn < s.fuse.svn ∨ 64 < svn ∨ 16 < comps.length ∨ 16128 < len.toNat) → s.flt.port.queue.length < 32 →
        ∃ t r, exec (.updStart m len dg signed svn comps) s = .next t ∧ getF t F.EMN_UPD_CMD_RESULT = 1 ∧ t.emn = s.emn ∧
          t.flt.port.queue = s.flt.port.queue ++ [r] ∧ r.code = 0x0242 ∧ r.cls = 0) ∧
      ((s.emn.update.isSome = true ∨ s.kiln.ember ≠ 0) → ∃ t, exec (.updStart m len dg signed svn comps) s = .next t ∧
        getF t F.EMN_UPD_CMD_RESULT = 2 ∧ { t with regs := s.regs } = s)) := by
  intro s m len dg signed svn comps hgate
  have hrun : exec (.updStart m len dg signed svn comps) s =
      .next (updStart { digest := dg, signed := signed, svn := svn, comps := comps } (lenSet len s)) := congrArg Host.Outcome.next (updCmd_start hgate)
  have hlenF := getF_lenSet len s
  have hacc := imgAccepted_iff (lenSet len s) { digest := dg, signed := signed, svn := svn, comps := comps }
  refine ⟨fun hidle hember hsigned hsvn hmax hcomps hlen hother => ?_, fun hidle hember hbad hroom => ?_, fun hbusy => ?_⟩
  · obtain ⟨g1, g2, g3⟩ := getF_updBegun { digest := dg, signed := signed, svn := svn, comps := comps } (lenSet len s)
    rw [updStart_begun (s := lenSet len s) hidle hember (hacc.mpr ⟨hsigned, hsvn, hmax, hcomps⟩) (by rw [hlenF]; exact hlen)] at hrun
    exact ⟨_, hrun, rfl, WordLaws.nth_set_same _ _ hother, fun k hk => WordLaws.nth_set_ne _ _ (Ne.symm hk), g1, g2, g3.trans hlenF, rfl, rfl⟩
  · have hnot : imgAccepted (lenSet len s) { digest := dg, signed := signed, svn := svn, comps := comps } = false ∨
        16128 < getF (lenSet len s) F.EMN_UPD_CMD_LEN_KIB := by
      rw [← Bool.not_eq_true, hacc, hlenF]
      have hfuse : (lenSet len s).fuse.svn = s.fuse.svn := rfl
      rcases hbad with h | h | h | h | h
      · exact .inl (fun hall => Bool.false_ne_true (h.symm.trans hall.1))
      · exact .inl (fun hall => by have := hall.2.1; rw [hfuse] at this; dsimp only at this; omega)
      · exact .inl (fun hall => by have := hall.2.2.1; dsimp only at this; omega)
      · exact .inl (fun hall => by have := hall.2.2.2; dsimp only at this; omega)
      · exact .inr h
    rw [updStart_refused (s := lenSet len s) hidle hember hnot] at hrun
    obtain ⟨r, hqueue, hcode, hcls⟩ := updResult_queue (s := lenSet len s) (r := 1) (.inl rfl) hroom
    exact ⟨_, r, hrun, getF_updResult _ (by decide), updResult_emn .., hqueue, hcode, hcls⟩
  · rw [updStart_busy (s := lenSet len s) hbusy] at hrun
    exact ⟨_, hrun, getF_setF_same .., rfl⟩

/-- The readback of an update. -/
theorem updateComplete_acts :
    (∀ (s : State) (img : SlotImg) (k : Nat), s.emn.update = some (img, k) → k < s.emn.slots.length → s.emn.journal.length < 1024 →
      (∃ t, exec (.updateComplete true) s = .next t ∧ slotImg t k = some { img with good := true } ∧ t.emn.update = none ∧
        t.emn.journal = s.emn.journal ++ [{ kind := 1, slot := k, seq := topSeq s.emn.journal + 1, digest := img.digest }] ∧
        isSet t F.EMN_UPD_CMD_BUSY = false ∧ getF t F.EMN_UPD_CMD_RESULT = 0 ∧ getF t F.EMN_BOOT_STAT_STAGE = 3 ∧ t.flt = s.flt) ∧
      (∃ t, exec (.updateComplete false) s = .next t ∧ t.emn.update = none ∧ t.emn.journal = s.emn.journal ∧ getF t F.EMN_UPD_CMD_RESULT = 3)) := by
  intro s img k hupd hk hroom
  obtain ⟨h1, h2, h3⟩ := getF_updEnded (slotted s img k)
  obtain ⟨e1, e2, -⟩ := updEnded_units (slotted s img k)
  obtain ⟨-, -, e3⟩ := updEnded_units (readBack s img k false)
  obtain ⟨d1, d2, d3⟩ := slotted_units s img k
  refine ⟨⟨_, congrArg Host.Outcome.next (updateComplete_good hupd hroom), ?_, congrArg Emn.update e1, (congrArg Emn.journal e1).trans d2, ?_, h2, h3,
    e2.trans d3⟩, ⟨_, congrArg Host.Outcome.next (updateComplete_bad hupd), ?_, ?_, getF_updResult _ (by decide)⟩⟩
  · rw [slotImg, e1]
    dsimp only
    rw [d1]
    exact WordLaws.nth_set_same _ _ hk
  · rw [isSet, h1]
    rfl
  · rw [updResult_emn, e3]
  · rw [updResult_emn, e3]
    exact readBack_journal s img k false

/-- HEALTHY. -/
theorem healthy_acts :
    (∀ (s : State) (m : Master) (len : BitVec 24), regGate s true 4 0x2C m (256 * len.toNat + 2) = .pass →
      ∃ t, exec (.healthy m len) s = .next t ∧ t.emn.healthy = true ∧ getF t F.EMN_UPD_CMD_LEN_KIB = len.toNat ∧ { t with regs := s.regs, emn := s.emn } = s) := by
  intro s m len hgate
  exact ⟨_, congrArg Host.Outcome.next (updCmd_healthy hgate), rfl, getF_lenSet len s, rfl⟩

/-- CONFIRM. -/
theorem confirm_acts :
    (∀ (s : State) (m : Master) (len : BitVec 24), regGate s true 4 0x2C m (256 * len.toNat + 3) = .pass →
      ((s.emn.healthy = false ∨ s.emn.booted = none) → ∃ t, exec (.confirm m len) s = .next t ∧ getF t F.EMN_UPD_CMD_LEN_KIB = len.toNat ∧
        { t with regs := s.regs } = s) ∧
      (∀ r x, s.emn.healthy = true → s.emn.booted = some r → slotImg s r.slot = some x → s.emn.journal.length < 1024 →
        ∃ t, exec (.confirm m len) s = .next t ∧ jConfirmed t.emn.journal r = true ∧ t.fuse.svn = max s.fuse.svn x.svn ∧
          getF t F.EMN_BOOT_STAT_TRIAL = 0 ∧ t.emn.slots = s.emn.slots ∧ (∀ y ∈ s.emn.journal, y ∈ t.emn.journal))) := by
  intro s m len hgate
  have hrun : exec (.confirm m len) s = .next (confirm (lenSet len s)) := congrArg Host.Outcome.next (updCmd_confirm hgate)
  refine ⟨fun h => ?_, fun r x hhealthy hboot hslot hroom => ?_⟩
  · rw [confirm_unhealthy (s := lenSet len s) h] at hrun
    exact ⟨_, hrun, getF_lenSet len s, rfl⟩
  · obtain ⟨h1, h2, h3, h4⟩ := confirmed_journal (s := lenSet len s) r hroom
    have hslot' : slotImg (confirmed (lenSet len s) r) r.slot = some x := by
      unfold slotImg
      rw [h3]
      exact hslot
    rw [confirm_healthy (s := lenSet len s) hhealthy hboot hslot'] at hrun
    refine ⟨_, hrun, h1, ?_, getF_setF_same .., h3, h2⟩
    show max (confirmed (lenSet len s) r).fuse.svn x.svn = max s.fuse.svn x.svn
    rw [h4]
    rfl

/-- A chunk in recovery. -/
theorem recChunk_acts :
    (∀ (s : State) (m : Master) (len : BitVec 24) (dg : BitVec 384) (svn : Nat) (comps : List (Nat × BitVec 384)),
      regGate s true 4 0x2C m (256 * len.toNat + 4) = .pass → getF s F.EMN_BOOT_STAT_STAGE = 7 → 0 < s.emn.slots.length → s.emn.journal.length < 500 →
      (∀ signed good, ∃ t, exec (.recChunk m len false dg signed good svn comps) s = .next t ∧ slotImg t 0 = none ∧ t.emn.journal = s.emn.journal ∧ t.mem = s.mem) ∧
      (s.fuse.svn ≤ svn → svn ≤ 64 → comps.length ≤ 16 → ∃ t, exec (.recChunk m len true dg true true svn comps) s = .next t ∧
        slotImg t 0 = some { digest := dg, signed := true, svn := svn, comps := comps } ∧
        { kind := 1, slot := 0, seq := topSeq s.emn.journal + 1, digest := dg } ∈ t.emn.journal ∧ t.pwr.compOn = true ∧ t.pwr.portOn = true ∧
        (∀ y ∈ s.emn.journal, y ∈ t.emn.journal)) ∧
      (s.flt.port.queue.length < 32 → ∃ t, exec (.recChunk m len true dg false true svn comps) s = .next t ∧ getF t F.EMN_UPD_CMD_RESULT = 1 ∧
        t.emn.journal = s.emn.journal ∧ getF t F.EMN_BOOT_STAT_STAGE = 7)) := by
  intro s m len dg svn comps hgate hstage hslots hroom
  have hstage' : getF (lenSet len s) F.EMN_BOOT_STAT_STAGE = 7 := (getF_lenSet_ne len s (by decide)).trans hstage
  refine ⟨fun signed good => ?_, fun hsvn hmax hcomps => ?_, fun hqueue => ?_⟩
  · exact ⟨_, congrArg Host.Outcome.next ((updCmd_chunk hgate).trans (recChunk_part hstage')), WordLaws.nth_set_same _ _ hslots, rfl, rfl⟩
  · have hacc := (imgAccepted_iff (lenSet len s) { digest := dg, signed := true, svn := svn, comps := comps }).mpr ⟨rfl, hsvn, hmax, hcomps⟩
    have hrun : exec (.recChunk m len true dg true true svn comps) s = _ := congrArg Host.Outcome.next
      ((updCmd_chunk hgate).trans (recChunk_good hstage' hacc rfl (show s.emn.journal.length < 1024 by omega)))
    obtain ⟨g1, g2, g3, g4⟩ := coldBoot_keeps (lenSet len s).emn.straps (s := chunkIn (lenSet len s) { digest := dg, signed := true, svn := svn, comps := comps })
      (chunkIn_room hroom)
    refine ⟨_, hrun, ?_, g4 _ (List.mem_append_right _ (List.mem_singleton.mpr rfl)), g2, g3, fun y hy => g4 y (List.mem_append_left _ hy)⟩
    rw [slotImg, g1]
    exact WordLaws.nth_set_same _ _ hslots
  · have hrun : exec (.recChunk m len true dg false true svn comps) s = _ := congrArg Host.Outcome.next ((updCmd_chunk hgate).trans (recChunk_last hstage'))
    have hunsigned : imgAccepted (lenSet len s) { digest := dg, signed := false, svn := svn, comps := comps } = false := rfl
    rw [if_pos hunsigned] at hrun
    refine ⟨_, hrun, getF_updResult _ (by decide), ?_, (getF_stage_updResult _ _).trans hstage'⟩
    rw [updResult_emn]
    rfl

/-- Settles O49, each clause by the event or command it speaks of. -/
theorem theDeviceBootsAndUpdates : Obligations.TheDeviceBootsAndUpdates := by
  unfold Obligations.TheDeviceBootsAndUpdates
  exact ⟨powerOn_acts, resetN_acts, blowFuses_one, computeDieRestart_acts, tickReady_acts, hostTraining_lapses, updStart_acts, updateComplete_acts, healthy_acts, confirm_acts, recChunk_acts⟩

end Sys2Proof.BootLaws
end

section
/-! GigE Vision streams (R386, R387), transmit entries (R385), and the switch's queues at its ports (R378, R379). -/

namespace Sys2Proof.StreamLaws

open Sys2Proof Sys2Proof.Machine Sys2Proof.CodecLaws

/-! ### Folds -/

theorem foldl_inv {α β : Type} {f : β → α → β} {I : β → Prop} {l : List α} (h : ∀ b, ∀ a ∈ l, I b → I (f b a)) {b : β} (hb : I b) : I (l.foldl f b) := by
  induction l generalizing b with
  | nil => exact hb
  | cons a l ih => exact ih (fun b x hx => h b x (by simp [hx])) (h b a (by simp) hb)

/-- What one step of a fold brings about, the fold brings about. -/
theorem foldl_reaches {α β : Type} {f : β → α → β} {I Q : β → Prop} {l : List α} {a : α} (hI : ∀ b x, I b → I (f b x)) (hQ : ∀ b x, Q b → Q (f b x))
    (ha : ∀ b, I b → Q (f b a)) (hmem : a ∈ l) {b : β} (hb : I b) : Q (l.foldl f b) := by
  induction l generalizing b with
  | nil => cases hmem
  | cons x l ih =>
    rw [List.foldl_cons]
    rcases List.mem_cons.mp hmem with rfl | hmem
    · exact foldl_inv (I := Q) (fun b x _ => hQ b x) (ha b hb)
    · exact ih hmem (hI b x hb)

/-! ### The queues of the external ports (R378, R379, R381) -/

/-- What a port and its gates go by. -/
def portView (s : State) : Pwr × Tab Nat × Nat × List (List (BitVec 8)) := (s.pwr, s.regs, s.timeP, s.net.gcl)

theorem portUp_view {s t : State} (h : portView t = portView s) (p : Nat) : portUp t p = portUp s p := by
  obtain ⟨hpwr, hregs, -, -⟩ := by simpa only [portView, Prod.mk.injEq] using h
  unfold portUp netOn powered isSet
  rw [hpwr, RaiseLaws.getF_of_regs hregs, RaiseLaws.getF_of_regs hregs, RaiseLaws.getF_of_regs hregs]

theorem openGates_view {s t : State} (h : portView t = portView s) (p : Nat) : openGates t p = openGates s p := by
  obtain ⟨-, hregs, htime, hgcl⟩ := by simpa only [portView, Prod.mk.injEq] using h
  unfold openGates isSet
  rw [hgcl, htime, RaiseLaws.getF_of_regs hregs]

/-- The frames queued for a class of a port. -/
def queued (s : State) (p c : Nat) : List Bytes := tabGet s.net.egress (8 * p + c) []

/-- What is queued stays, or leaves on the wire. -/
structure Sends (s t : State) : Prop where
  view : portView t = portView s
  wire : ∀ x ∈ s.net.wire, x ∈ t.net.wire
  frames : ∀ p c, c < 8 → queued t p c = queued s p c ∨ (queued t p c = [] ∧ ∀ f ∈ queued s p c, (p, f) ∈ t.net.wire)

theorem Sends.refl (s : State) : Sends s s := ⟨rfl, fun _ h => h, fun _ _ _ => .inl rfl⟩

theorem Sends.trans {s t u : State} (h : Sends s t) (g : Sends t u) : Sends s u where
  view := g.view.trans h.view
  wire := fun x hx => g.wire x (h.wire x hx)
  frames := fun p c hc => by
    rcases h.frames p c hc with hkept | ⟨hgone, hsent⟩ <;> rcases g.frames p c hc with hkept' | ⟨hgone', hsent'⟩
    · exact .inl (hkept'.trans hkept)
    · exact .inr ⟨hgone', by rw [← hkept]; exact hsent'⟩
    · exact .inr ⟨hkept'.trans hgone, fun f hf => g.wire _ (hsent f hf)⟩
    · exact .inr ⟨hgone', fun f hf => g.wire _ (hsent f hf)⟩

/-- What is empty stays empty. -/
theorem Sends.empty {s t : State} (h : Sends s t) {p c : Nat} (hc : c < 8) (hempty : queued s p c = []) : queued t p c = [] := by
  rcases h.frames p c hc with hkept | ⟨hgone, -⟩
  · exact hkept.trans hempty
  · exact hgone

/-- The frames of a class leave its queue. -/
def classSent (p : Nat) (s : State) (c : Nat) : State :=
  setNet s { s.net with
    wire := s.net.wire ++ (queued s p c).map (fun f => (p, f)), egress := tabPut s.net.egress (8 * p + c) [] [] }

theorem serveClass_eq (p : Nat) (s : State) (c : Nat) : serveClass p s c = if bitOf (openGates s p) c then classSent p s c else s := rfl

theorem queued_classSent_same (p : Nat) (s : State) (c : Nat) : queued (classSent p s c) p c = [] := tabGet_tabPut_same ..

theorem queued_classSent_ne {p c q d : Nat} (s : State) (h : 8 * q + d ≠ 8 * p + c) : queued (classSent p s c) q d = queued s q d :=
  tabGet_tabPut_ne _ _ _ _ _ _ h

theorem serveClass_sends (p : Nat) (s : State) {c : Nat} (hc : c < 8) : Sends s (serveClass p s c) := by
  rw [serveClass_eq]
  split
  · refine ⟨rfl, fun x hx => List.mem_append_left _ hx, fun q d hd => ?_⟩
    by_cases hkey : 8 * q + d = 8 * p + c
    · obtain ⟨rfl, rfl⟩ : q = p ∧ d = c := by omega
      exact .inr ⟨queued_classSent_same .., fun f hf => List.mem_append_right _ (List.mem_map.mpr ⟨f, hf, rfl⟩)⟩
    · exact .inl (queued_classSent_ne s hkey)
  · exact .refl s

theorem class_lt {c : Nat} (h : c ∈ [7, 6, 5, 4, 3, 2, 1, 0]) : c < 8 := by
  simp only [List.mem_cons, List.not_mem_nil, or_false] at h
  omega

theorem class_mem {c : Nat} (h : c < 8) : c ∈ [7, 6, 5, 4, 3, 2, 1, 0] := by
  simp only [List.mem_cons, List.not_mem_nil, or_false]
  omega

theorem classes_sends (p : Nat) (s : State) {l : List Nat} (hl : ∀ c ∈ l, c < 8) : Sends s (l.foldl (serveClass p) s) :=
  foldl_inv (I := Sends s) (fun u c hc h => h.trans (serveClass_sends p u (hl c hc))) (.refl s)

theorem servePort_sends (s : State) (p : Nat) : Sends s (servePort s p) := by
  unfold servePort
  split
  · exact classes_sends p s (fun _ => class_lt)
  · exact .refl s

/-- A port that is up sends a class whose gate is open. -/
theorem servePort_empties {s : State} {p c : Nat} (hc : c < 8) (hup : portUp s p = true) (hopen : bitOf (openGates s p) c = true) :
    queued (servePort s p) p c = [] := by
  unfold servePort
  rw [if_pos hup]
  have hlist : ∀ c ∈ [7, 6, 5, 4, 3, 2, 1, 0], c < 8 := fun _ => class_lt
  generalize hl : [7, 6, 5, 4, 3, 2, 1, 0] = l at hlist
  have hmem : c ∈ l := hl ▸ class_mem hc
  clear hl
  induction l generalizing s with
  | nil => cases hmem
  | cons d l ih =>
    have hd : d < 8 := hlist d (by simp)
    have hrest : ∀ c ∈ l, c < 8 := fun c hc => hlist c (by simp [hc])
    have hstep := serveClass_sends p s hd
    rw [List.foldl_cons]
    rcases List.mem_cons.mp hmem with rfl | hmem
    · refine (classes_sends p _ hrest).empty hc ?_
      rw [serveClass_eq, if_pos hopen]
      exact queued_classSent_same ..
    · exact ih ((portUp_view hstep.view p).trans hup) (by rw [openGates_view hstep.view]; exact hopen) hrest hmem

/-- A class of a port that is down, or whose gate is closed, keeps its frames. -/
theorem servePort_keeps {s : State} {p c : Nat} (hc : c < 8) (h : portUp s p = false ∨ bitOf (openGates s p) c = false) (q : Nat) :
    queued (servePort s q) p c = queued s p c := by
  unfold servePort
  split <;> rename_i hup
  · refine (foldl_inv (I := fun u => portView u = portView s ∧ queued u p c = queued s p c) (fun u d hd hu => ?_) ⟨rfl, rfl⟩).2
    refine ⟨(serveClass_sends q u (class_lt hd)).view.trans hu.1, ?_⟩
    rw [serveClass_eq]
    split <;> rename_i hopen
    · refine (queued_classSent_ne u fun hkey => ?_).trans hu.2
      have hd8 := class_lt hd
      obtain ⟨rfl, rfl⟩ : p = q ∧ c = d := by omega
      rw [openGates_view hu.1] at hopen
      rcases h with h | h
      · exact Bool.false_ne_true (h.symm.trans hup)
      · exact Bool.false_ne_true (h.symm.trans hopen)
    · exact hu.2
  · rfl

/-- The wire is empty before the ports send. -/
def wireless (s : State) : State := setNet s { s.net with wire := [] }

theorem netServe_eq (s : State) : netServe s = (List.range 6).foldl servePort (wireless s) := rfl

theorem netServe_sends (s : State) : Sends (wireless s) (netServe s) :=
  foldl_inv (I := Sends (wireless s)) (fun u p _ h => h.trans (servePort_sends u p)) (.refl _)

theorem netServe_empties {s : State} {p c : Nat} (hp : p < 6) (hc : c < 8) (hup : portUp s p = true) (hopen : bitOf (openGates s p) c = true) :
    queued (netServe s) p c = [] := by
  rw [netServe_eq]
  have hview : portView (wireless s) = portView s := rfl
  have hsent : ∀ u, portView u = portView s → queued (servePort u p) p c = [] := fun u hu =>
    servePort_empties hc ((portUp_view hu p).trans hup) (by rw [openGates_view hu]; exact hopen)
  exact foldl_reaches (f := servePort) (I := fun u => portView u = portView s) (Q := fun u => queued u p c = []) (a := p)
    (fun u q hu => (servePort_sends u q).view.trans hu) (fun u q hu => (servePort_sends u q).empty hc hu) hsent (List.mem_range.mpr hp) hview

theorem netServe_keeps {s : State} {p c : Nat} (hc : c < 8) (h : portUp s p = false ∨ bitOf (openGates s p) c = false) :
    queued (netServe s) p c = queued s p c := by
  have hbase : portView (wireless s) = portView s ∧ queued (wireless s) p c = queued s p c := ⟨rfl, rfl⟩
  have hstep : ∀ u, ∀ q ∈ List.range 6, portView u = portView s ∧ queued u p c = queued s p c →
      portView (servePort u q) = portView s ∧ queued (servePort u q) p c = queued s p c := by
    rintro u q - ⟨hview, hkept⟩
    refine ⟨(servePort_sends u q).view.trans hview, (servePort_keeps hc ?_ q).trans hkept⟩
    rw [portUp_view hview, openGates_view hview]
    exact h
  rw [netServe_eq]
  exact (foldl_inv (f := servePort) (I := fun u => portView u = portView s ∧ queued u p c = queued s p c) hstep hbase).2

theorem netServe_sent {s : State} {p c : Nat} (hp : p < 6) (hc : c < 8) (hup : portUp s p = true) (hopen : bitOf (openGates s p) c = true) :
    ∀ f ∈ queued s p c, (p, f) ∈ (netServe s).net.wire := by
  intro f hf
  rcases (netServe_sends s).frames p c hc with hkept | ⟨-, hsent⟩
  · have hempty : queued s p c = [] := hkept.symm.trans (netServe_empties hp hc hup hopen)
    rw [hempty] at hf
    cases hf
  · exact hsent f hf

/-- A frame is queued at a port. -/
def queuedAt (s : State) (cls p : Nat) (f : Bytes) : State :=
  setNet s { s.net with egress := tabPut s.net.egress (8 * p + cls) (tabGet s.net.egress (8 * p + cls) [] ++ [f]) [] }

theorem enqueueAll_one {s : State} {cls p : Nat} {f : Bytes} (hp : p < 6) : enqueueAll s cls f [p] =
    if portUp s p = true ∧ f.length + 4 ≤ getF s (F.NET_PORT_CFG_MAX_FRAME p) then (queuedAt s cls p f, [p]) else (portDrop s p, []) := by
  have hlist : [p].filter (· != 6) = [p] := by
    have : p ≠ 6 := by omega
    simp [this]
  unfold enqueueAll
  rw [hlist, List.foldl_cons, List.foldl_nil]
  unfold enqueue
  dsimp only
  by_cases h : portUp s p = true ∧ f.length + 4 ≤ getF s (F.NET_PORT_CFG_MAX_FRAME p)
  · rw [if_pos h, if_neg (by rintro (h1 | h1) <;> [exact Bool.false_ne_true (h1.symm.trans h.1); omega])]
    rfl
  · rw [if_neg h, if_pos]
    by_cases hup : portUp s p = true
    · exact .inr (Nat.lt_of_not_le fun hle => h ⟨hup, hle⟩)
    · exact .inl (Bool.eq_false_of_not_eq_true hup)

/-! ### Tagged frames (R385) -/

theorem txFrame_untagged {r d : Bytes} (h : sTagged r = false) : txFrame r d = d := if_neg (ne_true_of_eq_false h)

/-- The parts of a tagged frame. -/
theorem txFrame_tagged {r d : Bytes} (h : sTagged r = true) :
    txFrame r d = d.take 12 ++ ((leBytes 2 0x8100).reverse ++ ((leBytes 2 (sPcp r * 8192 + sVid r)).reverse ++ d.drop 12)) := by
  refine (if_pos h).trans ?_
  rw [withTag, List.append_assoc, List.append_assoc]

theorem beAt_append {a x b : Bytes} {n : Nat} (ha : a.length = n) (hx : x.length = 2) : beAt (a ++ (x ++ b)) n 2 = leVal x.reverse := by
  unfold beAt
  rw [List.drop_append_of_le_length (by omega), ← ha, List.drop_length, List.nil_append, List.take_append_of_le_length (by omega), ← hx,
    List.take_length]

theorem txFrame_parts {r d : Bytes} (h : sTagged r = true) (hlen : 12 ≤ d.length) : (txFrame r d).length = d.length + 4 ∧
    (txFrame r d).take 12 = d.take 12 ∧ beAt (txFrame r d) 12 2 = 0x8100 ∧ beAt (txFrame r d) 14 2 = sPcp r * 8192 + sVid r ∧
    (txFrame r d).drop 16 = d.drop 12 := by
  have h12 : (d.take 12).length = 12 := by rw [List.length_take]; omega
  have htpid : (leBytes 2 0x8100).reverse.length = 2 := by rw [List.length_reverse, MessageLaws.length_leBytes]
  have htci : (leBytes 2 (sPcp r * 8192 + sVid r)).reverse.length = 2 := by rw [List.length_reverse, MessageLaws.length_leBytes]
  have hsmall : sPcp r * 8192 + sVid r < 256 ^ 2 := by
    have hpcp := TickLaws.bitsOf_lt (leAt r 2 2) 12 3
    have hvid : sVid r < 4096 := Nat.mod_lt _ (by decide)
    have hpcp' : sPcp r < 8 := hpcp
    omega
  rw [txFrame_tagged h]
  refine ⟨?_, ?_, ?_, ?_, ?_⟩
  · rw [List.length_append, List.length_append, List.length_append, h12, htpid, htci, List.length_drop]
    omega
  · rw [List.take_append_of_le_length (by omega), List.take_of_length_le (by omega)]
  · rw [beAt_append h12 htpid, List.reverse_reverse, MessageLaws.leVal_leBytes]
    rfl
  · rw [← List.append_assoc, beAt_append (by rw [List.length_append, h12, htpid]) htci, List.reverse_reverse, MessageLaws.leVal_leBytes,
      Nat.mod_eq_of_lt hsmall]
  · rw [← List.append_assoc, ← List.append_assoc]
    have hhead : (d.take 12 ++ (leBytes 2 0x8100).reverse ++ (leBytes 2 (sPcp r * 8192 + sVid r)).reverse).length = 16 := by
      rw [List.length_append, List.length_append, h12, htpid, htci]
    exact List.drop_left' hhead

/-! ### Transmit entries (R385) -/

/-- The switch has queued a session's frame at its ports, and has noted what became of it. -/
def txNoted (x : State × List Nat) (f : Bytes) : State := setNet x.1 { x.1.net with lastTx := some (x.2, f, if x.2 = [] then 1 else 0) }

theorem txSwitch_queued (s : State) (r d : Bytes) : txSwitch s r d none =
    netServe (txNoted (enqueueAll (fdbLearn s 6 (sVid r) d) (classOf (sPcp r) d) (txFrame r d) (switchTo (fdbLearn s 6 (sVid r) d) 6 (sVid r) d))
      (txFrame r d)) := rfl

theorem txSwitch_dropped (s : State) (r d : Bytes) (o : Qci) : txSwitch s r d (some o) =
    setNet (qciDrop s o) { (qciDrop s o).net with lastTx := some ([], txFrame r d, 1) } := rfl

theorem popQ_net (s : State) (q : Nat) : (popQ s q).net = s.net := by
  unfold popQ
  dsimp only
  split <;> rfl

section
variable {z s : State} {q t : Nat} {e : QEntry} (hs : s = atPort t z) (hnet : netOn s = true) (hcwy : cwyUp s = true) (hbound : qBound (getQ s q) = true)
  (hcons : (getQ s q).consumer = 22) (hhead : headQ s q = some e) (qci : Option Qci)
include hs hnet hcwy hbound hcons hhead

theorem txEntry_head : txEntry q qci t z =
    if e.cairn then popQ s q else if dramWaits s 11 (leAt e.data 0 8 % 2 ^ 48) then s else txFrameOut (popQ s q) q e.data qci := by
  unfold txEntry
  rw [← hs]
  dsimp only
  rw [if_neg, hhead]
  rintro (h | h | h | h)
  · exact Bool.false_ne_true (h.symm.trans hnet)
  · exact Bool.false_ne_true (h.symm.trans hcwy)
  · exact Bool.false_ne_true (h.symm.trans hbound)
  · exact h hcons

end

/-- An entry of an enabled session whose frame can be read, and which asks for no report. -/
theorem txFrameOut_sent {s u : State} {q k : Nat} {e d : Bytes} (qci : Option Qci) (hk : k = leAt e 10 2) (hmax : k < 2048)
    (hon : sOn (sesRec s k) = true) (htxq : sTxq (sesRec s k) = q) (hown : sesForeign s (sesRec s k) = none) (hdone : leAt e 12 2 = 0xFFFF)
    (hread : netRead s (netMaster (sPart (sesRec s k))) 129 (leAt e 0 8 % 2 ^ 48) (leAt e 8 2) = (u, some d)) :
    txFrameOut s q e qci = txSwitch u (sesRec s k) d qci := by
  subst hk
  unfold txFrameOut
  dsimp only
  rw [if_neg, hown]
  · dsimp only
    rw [hread]
    dsimp only
    rw [if_pos hdone]
  · rintro (h | h | h)
    · omega
    · exact Bool.false_ne_true (h.symm.trans hon)
    · exact h htxq

/-! ### GigE Vision streams (R386, R387) -/

theorem getBlk_setBlk (s : State) (k : Nat) (b : Option GvspBlk) : getBlk (setBlk s k b) k = b := tabGet_tabPut_same ..

theorem gvspTake_own {s : State} {k : Nat} (f : State → State) (hon : gvspOn s k = true) (hown : sesForeign s (sesRec s k) = none) :
    gvspTake s k f = f s := by
  unfold gvspTake
  rw [if_neg (by rw [hon]; decide), hown]

theorem srcDesc_keeps (s : State) (c : Nat) (m : Master) : SameButAccess s (srcDesc s c m).1 := PartLaws.netRead_sameButAccess ..

/-- The planes of a session's context. -/
def planes (s : State) (k : Nat) : State × TDesc := srcDesc s (sCtx (sesRec s k)) (netMaster (sPart (sesRec s k)))

/-- Why a new block cannot be filled: its plane is in use, or its geometry is not the context's. -/
def blockWhy (s : State) (k w h depth : Nat) : Nat :=
  if planeBusy s (sCtx (sesRec s k)) (((getI s (sCtx (sesRec s k))).lastFed + 1) % 2 ^ 32) ((planes s k).2.dim 3) then 1
  else if iWidth (getI s (sCtx (sesRec s k))).record ≠ w ∨ iHeight (getI s (sCtx (sesRec s k))).record ≠ h ∨
    iDepth (getI s (sCtx (sesRec s k))).record ≠ depth then 6 else 0

/-- The next frame's number is taken. -/
def numbered (s : State) (k : Nat) : State :=
  setI (planes s k).1 (sCtx (sesRec s k)) { getI s (sCtx (sesRec s k)) with lastFed := ((getI s (sCtx (sesRec s k))).lastFed + 1) % 2 ^ 32 }

/-- A block opens, or its descriptor is reported. -/
def blockOpened (s : State) (k block why : Nat) : Option Nat → State
  | some r => raise (setBlk (numbered s k) k none) false 0x0140 2 (some (sPart (sesRec (numbered s k) k))) (Config.sourceBlock 0x0140) 0xFFFF
      [r, (planes s k).2.addr]
  | none => setBlk (numbered s k) k (some { block := block, frame := ((getI s (sCtx (sesRec s k))).lastFed + 1) % 2 ^ 32, fsTime := (numbered s k).timeP,
                                             reason := why })

theorem gvspLeader_first {s u : State} {k : Nat} (block w h depth : Nat) {t : Nat} (hu : u = atPort t s) (hon : gvspOn u k = true)
    (hown : sesForeign u (sesRec u k) = none) (hnone : getBlk u k = none) : gvspLeader k block w h depth t s =
      blockOpened u k block (blockWhy u k w h depth) (if blockWhy u k w h depth = 0 then (planes u k).2.bad true false else none) := by
  unfold gvspLeader
  rw [← hu, gvspTake_own _ hon hown]
  dsimp only
  rw [hnone]
  dsimp only
  generalize hbad : (if blockWhy u k w h depth = 0 then (planes u k).2.bad true false else none) = bad
  have hbad' := hbad
  unfold blockWhy planes at hbad'
  rw [hbad']
  cases bad <;> rfl

theorem numbered_net (s : State) (k : Nat) : (numbered s k).net = s.net ∧ (numbered s k).timeP = s.timeP ∧
    (getI (numbered s k) (sCtx (sesRec s k))).lastFed = ((getI s (sCtx (sesRec s k))).lastFed + 1) % 2 ^ 32 := by
  have h := srcDesc_keeps s (sCtx (sesRec s k)) (netMaster (sPart (sesRec s k)))
  exact ⟨(congrArg State.net h :), (congrArg State.timeP h :), congrArg IspCtx.lastFed (tabGet_tabPut_same ..)⟩

/-- The planes of a session's context, once a packet is staged. -/
def stagedPlanes (s : State) (k : Nat) (d : Bytes) : State × TDesc :=
  srcDesc (stagePacket s (sPart (sesRec s k)) d) (sCtx (sesRec s k)) (netMaster (sPart (sesRec s k)))

/-- A packet in sequence is in its plane. -/
def payloadIn (s : State) (k : Nat) (b : GvspBlk) (d : Bytes) : State :=
  setBlk (tensWrite (stagedPlanes s k d).1 (netMaster (sPart (sesRec s k))) .system (stagedPlanes s k d).2
    (planeEls (stagedPlanes s k d).2 (b.frame % (stagedPlanes s k d).2.dim 3)
      (b.pix ++ gvspPixels (iDepth (getI s (sCtx (sesRec s k))).record) d) b.pix.length))
    k (some { b with next := b.next + 1, pix := b.pix ++ gvspPixels (iDepth (getI s (sCtx (sesRec s k))).record) d })

section
variable {s : State} {k : Nat} {b : GvspBlk} (hon : gvspOn s k = true) (hown : sesForeign s (sesRec s k) = none) (hblk : getBlk s k = some b)
include hon hown hblk

/-- A payload packet of the block: the block is refused, out of sequence, waits for DRAM, or is written. -/
theorem gvspPayload_cases (pkt : Nat) (d : Bytes) : gvspPayload k b.block pkt d s =
    if b.reason ≠ 0 then s else if pkt ≠ b.next then setBlk s k (some { b with reason := 5 })
    else if dramWaits s 11 (stagedPlanes s k d).2.base then s else payloadIn s k b d := by
  unfold gvspPayload
  rw [gvspTake_own _ hon hown, hblk]
  dsimp only
  rw [if_neg (fun h => h rfl)]
  rfl

end

theorem gvspTrailer_ends {s u : State} {k pkt t : Nat} {b : GvspBlk} (hu : u = atPort t s) (hon : gvspOn u k = true)
    (hown : sesForeign u (sesRec u k) = none) (hblk : getBlk u k = some b) : gvspTrailer k b.block pkt t s =
      gvspEnd u k { b with reason := if b.reason = 0 ∧ pkt ≠ b.next then 5 else b.reason } := by
  unfold gvspTrailer
  rw [← hu, gvspTake_own _ hon hown, hblk]
  exact if_neg (fun h => h rfl)

theorem netWrite_sameButAccess (k : Nat) (s : State) (m : Master) (a : Nat) (b : Bytes) : SameButAccess s (netWrite s m k a b) := by
  induction k generalizing s a b with
  | zero => exact .refl s
  | succ k ih =>
    unfold netWrite
    split
    · exact .refl s
    · exact (busWrite_sameButAccess ..).trans (ih ..)

/-- A block's status word is written, and the block is closed. -/
def closed (s : State) (k : Nat) (b : GvspBlk) : State :=
  setBlk (netWrite (planes s k).1 (netMaster (sPart (sesRec s k))) 1
    (iFeed (getI s (sCtx (sesRec s k))).record + 64 * (b.frame % (planes s k).2.dim 3)) (gvspWord (sCtx (sesRec s k)) b s.timeP)) k none

theorem getI_closed (s : State) (k c : Nat) (b : GvspBlk) : getI (closed s k b) c = getI s c := by
  have hread := srcDesc_keeps s (sCtx (sesRec s k)) (netMaster (sPart (sesRec s k)))
  have hkeep := hread.trans (netWrite_sameButAccess 1 (planes s k).1 (netMaster (sPart (sesRec s k)))
    (iFeed (getI s (sCtx (sesRec s k))).record + 64 * (b.frame % (planes s k).2.dim 3)) (gvspWord (sCtx (sesRec s k)) b s.timeP))
  exact (congrArg (fun u : State => tabGet u.isp.ctx c ({} : IspCtx)) hkeep :)

/-- The frame that a whole block feeds to the ISP. -/
def fedFrame (s : State) (k : Nat) (b : GvspBlk) : IspFrame :=
  { ctx := sCtx (sesRec s k), frame := b.frame, dt := 0, part := sPart (sesRec s k), fed := true
    linesIn := iHeight (getI s (sCtx (sesRec s k))).record, fsTime := b.fsTime, word := some (gvspWord (sCtx (sesRec s k)) b s.timeP) }

theorem gvspEnd_cases (s : State) (k : Nat) (b : GvspBlk) : gvspEnd s k b =
    if b.reason ≠ 0 then raise (closed s k b) false 0x0212 0 (some (sPart (sesRec s k))) (Config.sourceBlock 0x0212) 0xFFFF []
    else frameArrive (closed s k b) (fedFrame s k b) := by
  have hrec : iHeight (getI s (sCtx (sesRec s k))).record = iHeight (getI (closed s k b) (sCtx (sesRec s k))).record := by rw [getI_closed]
  unfold fedFrame
  rw [hrec]
  rfl

/-- Settles O38, each clause by the command or the queue it speaks of. -/
theorem streamsAndFramesGoOut : Obligations.StreamsAndFramesGoOut := by
  unfold Obligations.StreamsAndFramesGoOut
  refine ⟨?leader, ?payload, ?trailer, ?ended, ?entry, ?head, ?queue, ?serve, ?frame⟩
  case leader =>
    rintro s u k block w h depth t n hu hon hown hnone rfl why hwhy
    have hrun := gvspLeader_first block w h depth hu hon hown hnone
    obtain ⟨hnet, htime, hfed⟩ := numbered_net u k
    have hwhy' : blockWhy u k w h depth = why := hwhy.symm
    rw [hwhy'] at hrun
    refine ⟨fun hgood => ?_, fun x hw hbad => ?_⟩
    · have hnot : (if why = 0 then (planes u k).2.bad true false else none) = none := by
        rcases hgood with hw | hgood
        · exact if_neg hw
        · rw [show (planes u k).2.bad true false = none from hgood, ite_self]
      rw [hnot] at hrun
      refine ⟨_, congrArg Host.Outcome.next hrun, hfed, ?_⟩
      rw [blockOpened, getBlk_setBlk, htime]
    · rw [if_pos hw, show (planes u k).2.bad true false = some x from hbad] at hrun
      refine ⟨_, setBlk (numbered u k) k none, congrArg Host.Outcome.next hrun, ?_, ?_⟩
      · have hsame := raise_same (setBlk (numbered u k) k none) false 0x0140 2 (some (sPart (sesRec (numbered u k) k))) (Config.sourceBlock 0x0140) 0xFFFF
          [x, (planes u k).2.addr]
        exact (congrArg (fun v : State => tabGet v.net.gvsp k none) hsame :).trans (getBlk_setBlk (numbered u k) k none)
      · have hrec : sesRec (numbered u k) k = sesRec u k := by rw [sesRec, hnet, sesRec]
        rw [blockOpened, hrec]
        rfl
  case payload =>
    intro s k pkt d b hon hown hblk
    have hrun : exec (.gvspPayload k b.block pkt d) s = _ := congrArg Host.Outcome.next (gvspPayload_cases hon hown hblk pkt d)
    refine ⟨fun hr hp hwait => ?_, fun hr hp hwait => ?_, fun hr hp => ?_, fun hr => ?_⟩
    · have hwait : dramWaits s 11 (stagedPlanes s k d).2.base = true := hwait
      rw [hrun, if_neg (fun hne => hne hr), if_neg (fun hne => hne hp), if_pos hwait]
    · have hwait : dramWaits s 11 (stagedPlanes s k d).2.base = false := hwait
      rw [if_neg (fun hne => hne hr), if_neg (fun hne => hne hp), if_neg (ne_true_of_eq_false hwait)] at hrun
      exact ⟨_, hrun, getBlk_setBlk ..⟩
    · rw [hrun, if_neg (fun hne => hne hr), if_pos hp]
    · rw [hrun, if_pos hr]
  case trailer =>
    intro s u k t b hu hon hown hblk
    refine ⟨congrArg Host.Outcome.next ((gvspTrailer_ends hu hon hown hblk).trans ?_), fun pkt hp hr =>
      congrArg Host.Outcome.next ((gvspTrailer_ends hu hon hown hblk).trans ?_)⟩
    · rw [if_neg (fun h => h.2 rfl)]
    · rw [if_pos ⟨hr, hp⟩]
  case ended =>
    intro s k b
    refine ⟨closed s k b, fun h => ?_, fun h => ?_, getBlk_setBlk ..⟩
    · exact (gvspEnd_cases s k b).trans (if_neg (fun hne => hne h))
    · exact (gvspEnd_cases s k b).trans (if_pos h)
  case entry =>
    rintro z s u w q k t e d x hs hnet hcwy hbound hcons hhead hcairn hk hmax hon htxq hown hdone hwait hread rfl rfl
    have hses : sesRec (popQ s q) k = sesRec s k := by rw [sesRec, popQ_net, sesRec]
    have hrun : ∀ qci, exec (.netTxEntry q qci t) z = .next (txSwitch u (sesRec s k) d qci) := by
      intro qci
      have hsent := txFrameOut_sent (s := popQ s q) (q := q) qci hk hmax (by rw [hses]; exact hon) (by rw [hses]; exact htxq) (by rw [hses]; exact hown)
        hdone (by rw [hses]; exact hread)
      rw [hses] at hsent
      refine congrArg Host.Outcome.next ((txEntry_head hs hnet hcwy hbound hcons hhead qci).trans ?_)
      rw [if_neg (ne_true_of_eq_false hcairn), if_neg (ne_true_of_eq_false hwait), hsent]
    exact ⟨(hrun none).trans (congrArg Host.Outcome.next (txSwitch_queued ..)), fun o => (hrun (some o)).trans (congrArg Host.Outcome.next (txSwitch_dropped ..))⟩
  case head =>
    intro z s q t qci e hs hnet hcwy hbound hcons hhead
    have hrun := txEntry_head hs hnet hcwy hbound hcons hhead qci
    refine ⟨fun h => congrArg Host.Outcome.next (hrun.trans (if_pos h)), fun h hwait => congrArg Host.Outcome.next (hrun.trans ?_)⟩
    rw [if_neg (ne_true_of_eq_false h), if_pos hwait]
  case queue =>
    intro s cls p f hp _
    refine ⟨(enqueueAll s cls f [p]).1, (enqueueAll s cls f [p]).2, rfl, fun h => ?_, fun h => ?_⟩
    · rw [enqueueAll_one hp, if_pos h]
      exact ⟨rfl, rfl, tabGet_tabPut_same ..⟩
    · rw [enqueueAll_one hp, if_neg h]
      exact ⟨rfl, rfl⟩
  case serve =>
    exact fun s p c hp hc => ⟨fun hup hopen => ⟨netServe_empties hp hc hup hopen, netServe_sent hp hc hup hopen⟩, fun h => netServe_keeps hc h⟩
  case frame =>
    exact fun r d => ⟨txFrame_untagged, txFrame_parts⟩

end Sys2Proof.StreamLaws
end
